-- ==== Sys2Proof/Word.lean ====
section
/-! DEFINITION. The word types of the MZG-256: 32-bit registers, 256-bit SRAM words, bytes. -/

namespace Sys2Proof

/-- A register, or one 32-bit part of an SRAM word (R345, R154). -/
abbrev Word := BitVec 32
/-- A byte; the smallest unit a sequencer store reaches (R184). -/
abbrev Byte := BitVec 8
/-- A 16-bit immediate or offset of an instruction word (R181). -/
abbrev Half := BitVec 16
/-- The 26-bit offset of CALL (R181). -/
abbrev Off26 := BitVec 26
/-- One SRAM word: 256 data bits (R132). -/
abbrev Line := BitVec 256

end Sys2Proof
end

