-- ==== Sys2Proof/Syntax.lean ====
section
/-! DEFINITION. The commands of the MZG-256: one constructor of `Instr` per row of spec/opcode_table.json,
with the operands the row's event or access carries from outside the block. -/

namespace Sys2Proof

/-- A line port LP0 to LP3 (R17). -/
abbrev Port := Fin 4
/-- A lane of one port, k (R18). -/
abbrev LaneK := Fin 64
/-- A lane number n = port × 64 + k. -/
abbrev LaneN := Fin 256
/-- A PGA code c, 0 to 30 (R24). -/
abbrev PgaCode := Fin 31
/-- A transmit context of a port (R73). -/
abbrev Ctx := Fin 8
/-- A trellis tile (R54). -/
abbrev Tile := Fin 16
/-- A 32-bit part of a registry entry (R89). -/
abbrev EntPart := Fin 16
/-- A feeder p (R116). -/
abbrev Feeder := Fin 4
/-- A voltage channel v: V0 to V3 (R116). -/
abbrev VChan := Fin 4
/-- A metering channel c: V0 to V3, then I0 to I3 (R131). -/
abbrev Chan := Fin 8
/-- A queue number (R140). -/
abbrev QId := Fin 1024
/-- A host queue window (R154). -/
abbrev Win := Fin 64
/-- A sequencer core (R179). -/
abbrev Core := Fin 32
/-- A general register s0 to s31 (R179). -/
abbrev Sreg := Fin 32
/-- An accumulator a0 to a3 (R179). -/
abbrev AccN := Fin 4
/-- A shift amount of 5 bits (R181). -/
abbrev ShAmt := Fin 32
/-- A stream port of a core (R186). -/
abbrev StreamP := Fin 4
/-- A control index of RDCTL and WRCTL, 6 bits (R181). -/
abbrev Cix := Fin 64
/-- A transaction tag, 10 bits (R205). -/
abbrev TagN := Fin 1024
/-- A radio link context (R227). -/
abbrev LinkC := Fin 16
/-- A radio channel (R217). -/
abbrev RfChan := Fin 64
/-- A UART (R244). -/
abbrev Uart := Fin 6
/-- A control output or a digital input (R260). -/
abbrev CtlO := Fin 16
/-- A pair of control outputs (R261). -/
abbrev PairN := Fin 8
/-- A cause of R293, 0 to 31. -/
abbrev QCause := Fin 32
/-- A requested supply: VDD_CORE, VDDA, VDDIO, VDD_RF, as PWR_STAT.BOD numbers them (R317). -/
abbrev SupplyN := Fin 4
/-- A performance counter (R336). -/
abbrev CtrN := Fin 64

/-- Who accesses a register (R349): the host port, or a sequencer core. -/
inductive Accessor where
  | host
  | core (k : Core)
  deriving DecidableEq, Repr

/-- What the SECDED code of an SRAM word shows when it is read (R133). -/
inductive Ecc where
  /-- No bit in error. -/
  | clean
  /-- One bit in error: corrected. -/
  | single
  /-- Two bits in error: the word is poisoned. -/
  | double
  /-- Three or more bits in error: detection is not assured (R133). -/
  | multi
  deriving DecidableEq, Repr

/-- A producer of queue words (R144). -/
inductive Producer where
  | lane (n : LaneN)
  | uart (u : Uart)
  | core (k : Core)
  | win (w : Win)
  /-- The link layer and the other engines of the device that deliver or report through a queue (R92, R208, R129). -/
  | engine (i : Nat)
  /-- A tile the ingot casts as a producer: metering channel i below 8 (R113), or, as 8, the crossbar into a queue (R159). -/
  | tile (i : Nat)
  deriving DecidableEq, Repr

/-- What a lane measured over the slot that ends (R39, R43, R69). -/
structure LaneSlot where
  k : LaneK
  /-- Mean power of its cell, in units of 2^−64 of a full-scale sine's power at PGA code 0 (R69). -/
  cell : Nat
  /-- Mean power of its lane samples, in units of 2^−64 of a full-scale sine's power of lane scale (R43). -/
  power : Nat
  /-- Level of each lane sample before the lane's gain, in 0.125 dB relative to full scale of lane scale (R39). -/
  levels : List Int
  deriving DecidableEq, Repr

/-- What a port measured over the slot that ends (R24, R29, R31, R69). -/
structure SlotMeasure where
  /-- The converter's peak magnitude, in 0.01 dB below full scale. -/
  atten : Nat
  /-- The converter reached full scale. -/
  overload : Bool
  /-- Its lanes. -/
  lanes : List LaneSlot
  /-- Echo return loss over the slot, in 0.5 dB, if the port transmitted in it. -/
  resid : Option Byte
  /-- Peak magnitude of the composite before the crest limiter, in 2^−23 of DAC full scale, over each stretch of the slot (R29): what
  State.crestSpans lists. -/
  peaks : List Nat
  deriving DecidableEq, Repr

/-- What a correlator shows at a symbol boundary (R43 to R45, R50, R77). -/
structure SyncSeen where
  /-- For each of the 8 sampling phases the 16 matched-filter outputs, I and Q, in units of 2^−32 of a full-scale sine's amplitude of
  lane scale. -/
  outs : List (List (Int × Int))
  /-- The 16 decision values of the sync word (R50). -/
  ys : List Int
  /-- For the main search the remaining offset, for the shadow its whole estimate, in 0.125 Hz. -/
  fofs : Int
  /-- End of the last sync symbol after the start of the slot that follows it in the port's grid, in 1/64 symbol (R77). -/
  shift : Int
  deriving DecidableEq, Repr

/-- A source of the crossbar outside the model's own tiles: a lane's tap, or a port's converter tap (R158). -/
inductive TapSrc where
  | lane (n : LaneN)
  | conv (p : Port)
  deriving DecidableEq, Repr

/-- One received UART bit at its pin: samples 7, 8 and 9 (R247), and the UCLK cycles between samples 2 and 14 in which the pin is high
and low (R254). -/
structure Sample3 where
  s7 : Bool
  s8 : Bool
  s9 : Bool
  high : Nat := 0
  low : Nat := 0
  deriving DecidableEq, Repr

/-- What the radio's baseband sees where it may detect a sync word (R222). -/
structure RfSync where
  chan : RfChan
  /-- The tick at which the sync word ends, and by how many µs its end lies after the anchor of the link event in progress (R231). -/
  tick : Nat
  dev : Int
  /-- For each sampling phase the 16 matched-filter outputs, I and Q, and the noise power in the unit of their squares (R45). -/
  outs : List (List (Int × Int))
  noise : Nat
  /-- The 16 decision values of the sync word (R50). -/
  ys : List Int
  /-- The offset that the 8 symbols after the preamble's detection show, from where the receiver is tuned, and what remains at the sync
  word, in Hz. -/
  est : Int
  fine : Int
  deriving DecidableEq, Repr

/-- What the radio's baseband has at the end of a frame: RSSI and SNR (R223), the tick, and the decision values of the header and of
the payload (R50). -/
structure RfSeen where
  rssi : Byte
  snr : Byte
  tick : Nat
  hdr : List Int
  pay : List Int
  deriving DecidableEq, Repr

/-- A line frame for the link layer: its payload bytes and the quality block's six words (R57, R92). -/
structure RxFrame where
  /-- The lane that received it; joint numbering in alloy mode (R322). -/
  lane : Nat
  bytes : List Byte
  /-- The frame carried the full-mask sync word. -/
  full : Bool
  /-- Number of the cycle that holds its last symbol (E of R94). -/
  endCyc : Nat
  quality : List Word
  deriving DecidableEq, Repr

/-- What a heartbeat of the other unit carries for pairing and timing (R318, R326, R331). -/
structure Beat where
  /-- The strap of the sender: true is the lead. -/
  lead : Bool
  promoted : Bool
  /-- POLICY.REG_ENTRIES of its ingot. -/
  entries : Nat
  /-- LP_BCN.PERIOD of each enabled port, none for a port not enabled. -/
  periods : List (Option Nat)
  /-- Its iron mains cycle counter for the same crossing. -/
  mcyc : Word
  epoch : BitVec 16
  /-- The sender has received 16 consecutive heartbeats (R319). -/
  heard : Bool := true
  deriving DecidableEq, Repr

/-- The commands: one constructor per row of spec/opcode_table.json. -/
inductive Instr where
  /-- REGISTER_WRITE (R5). A host or sequencer write to a register that has no row of its own, applied field by field under the fields' access codes. Operands: who writes value to the register at host address addr. -/
  | registerWrite (who : Accessor) (addr : Word) (value : Word)
  /-- HOLE_ACCESS (R346). An access to an address that names no register or SRAM word reads 0, or is discarded, with a REFUSED event; a sequencer access raises ACCESS. Operands: who reads or writes the hole address addr. -/
  | holeAccess (who : Accessor) (addr : Word) (isWrite : Bool)
  /-- RC_COUNTER_READ (R5). A read of an RC counter register (LN_CNT_OK, LN_CNT_ERR, LK_CNT, MT_BAL_CNT, QP_ECC, HP_EV_LOST, RF_CNT, UA_CNT, AL_CNT) returns the value and clears it. Operands: who reads the RC counter register at addr. -/
  | rcCounterRead (who : Accessor) (addr : Word)
  /-- SEQ_LPEND_READ (R196). A read of SEQ_LPEND returns the lanes that had an outcome or report and clears them. Operands: who reads SEQ_LPEND of core k. -/
  | seqLpendRead (who : Accessor) (k : Core)
  /-- RTC_READ (R347). A read of PWR_RTC_LO returns the low count bits and latches bits [47:32] into PWR_RTC_HI. Operands: who reads PWR_RTC_LO. -/
  | rtcRead (who : Accessor)
  /-- SWAP_REQUEST (R21). A write of LP_BANK.SWAP = 1 starts a coefficient fade with its FADE_LEN, or queues it behind a running fade. Operands: value is written to LP_BANK of port p. -/
  | swapRequest (who : Accessor) (p : Port) (value : Word)
  /-- FADE_COMPLETE (R21). The Nth filterbank output of a fade ends it, sets BANK_SWAP_DONE and starts any queued fade back. Operands: the filterbank of port p gives the last output of its fade; while no fade runs and one is queued, the output after it, which is output 1 of the queued fade. -/
  | fadeComplete (p : Port)
  /-- COEF_WRITE (R23). A write of LP_COEF_DATA stores a tap in a writable bank, or is discarded with COEF_WR_REFUSED, and may step INDEX. Operands: value is written to LP_COEF_DATA of port p. -/
  | coefWrite (who : Accessor) (p : Port) (value : Word)
  /-- COEF_READ (R20). A read of LP_COEF_DATA returns a tap and steps INDEX when AUTOINC = 1. Operands: LP_COEF_DATA of port p is read. -/
  | coefRead (who : Accessor) (p : Port)
  /-- SLOT_BOUNDARY (R64). A port's slot boundary passes: the headroom loop decides, the noise map updates and the cancellation state is judged. Operands: the slot that ends was measured as m says; old says that it is a boundary of the free-running grid that a lock replaced, on which some lane or frame of the port still runs. -/
  | slotBoundary (p : Port) (old : Bool) (m : SlotMeasure)
  /-- CANC_RESET (R31). A write of LP_CANC.RESET discards the echo model and enters TRAINING. Operands: value is written to LP_CANC of port p. -/
  | cancReset (who : Accessor) (p : Port) (value : Word)
  /-- PGA_TAG_ARRIVAL (R41). The PGA-step tag reaches a lane on its first dependent lane sample and sets the reception's PGA_STEP flag. Operands: the tag of a step to PGA code code reaches lane n; withDetect says that this lane sample is also the one of its preamble detection. -/
  | pgaTagArrival (n : LaneN) (code : PgaCode) (withDetect : Bool)
  /-- TXEN_ASSERT (R27). LP_TXEN asserts TXEN_LEAD × 64 converter samples before the first DAC sample of a transmit context. Operands: the lead of the next frame of port p begins. -/
  | txenAssert (p : Port)
  /-- TXEN_TAIL_EXPIRY (R27). LP_TXEN deasserts when its tail after the last context's last DAC sample runs out. Operands: the tail of port p has run out. -/
  | txenTailExpiry (p : Port)
  /-- OVERCURRENT (R35). The driver current stays at or over OC_LIMIT for OC_TIME samples, so the port mutes its DAC and drops LP_TXEN. Operands: the current-sense magnitude (units of full scale / 4096) was at least mag for samples consecutive converter samples. -/
  | overcurrent (p : Port) (mag : Nat) (samples : Nat)
  /-- ZPROBE_START (R34). A write of LP_ZPROBE.START begins a passive or tone impedance probe unless one is busy. Operands: value is written to LP_ZPROBE of port p. -/
  | zprobeStart (who : Accessor) (p : Port) (value : Word)
  /-- ZPROBE_DONE (R34). An impedance probe finishes its measurement, writes LP_ZRES and sets DONE. Operands: over the tone or the 32 preamble symbols the probe measured magnitudes vm and im (same unit) and the angle phase in 0.01 degree. -/
  | zprobeDone (p : Port) (vm : Nat) (im : Nat) (phase : Int)
  /-- PREAMBLE_DETECT (R43). A lane detects a preamble on its lane or full timeline, enters PREAMBLE, freezes its gain and starts two sync searches. Operands: over 8 consecutive symbols of one of its timelines lane n matched the preamble with power power (unit of LaneSlot.power); levels are the levels of its lane samples since the last slot boundary, as in LaneSlot. -/
  | preambleDetect (n : LaneN) (power : Nat) (levels : List Int)
  /-- FOFS_LOAD (R44). After 8 symbols past preamble detection the lane loads its frequency-offset estimate into its NCO. Operands: the estimate over 8 symbols is fofs (0.125 Hz). -/
  | fofsLoad (n : LaneN) (fofs : Int)
  /-- SYNC_SEARCH_TIMEOUT (R43). Both sync searches pass SYNC_WIN symbols without detection and the lane returns to SEARCH with no outcome. Operands: both searches of lane n have given up. -/
  | syncSearchTimeout (n : LaneN)
  /-- SYNC_DETECT (R45). A sync word is detected, fixing timeline, mask and timing; the lane enters HEADER and arms its shadow. Operands: at one symbol boundary the main correlator of lane n saw main on the lane timeline and the shadow correlator saw shadow on the full timeline. -/
  | syncDetect (n : LaneN) (main : Option SyncSeen) (shadow : Option SyncSeen)
  /-- SHADOW_SYNC_DETECT (R47). The shadow correlator detects a further sync, which restarts or captures the reception or is ignored by margin. Operands: at a symbol boundary the shadow of lane n saw y, with gain gain (0.125 dB) for the level it estimates. -/
  | shadowSyncDetect (n : LaneN) (y : SyncSeen) (gain : Int)
  /-- HEADER_END (R53). The header codeword's last symbol arrives and a header decode is requested. Operands: the decision values of lane n's 60 header symbols, in the order received. -/
  | headerEnd (n : LaneN) (ys : List Int)
  /-- DECODE_DISPATCH (R54). A free trellis tile takes the next decode request from the shared queue. Operands: trellis tile tile is free and takes the next request. -/
  | decodeDispatch (tile : Tile)
  /-- HEADER_DECODE_DONE (R49). A header decode completes; a pass opens a packet in LN_RXQ, a failure ends FALSE_SYNC or HDR_CRC. Operands: tile finishes the header decode it holds. -/
  | headerDecodeDone (tile : Tile)
  /-- PAYLOAD_END (R53). The last payload symbol arrives; a payload decode is requested and the lane returns to SEARCH with DEC_PEND set. Operands: the decision values of lane n's payload symbols in the order received, and the SNR estimate (0.25 dB). -/
  | payloadEnd (n : LaneN) (ys : List Int) (snr : Int)
  /-- PAYLOAD_DECODE_DONE (R55). A payload decode completes; the CRC-16 commits or rewinds the packet and the frame outcome is recorded. Operands: tile finishes the payload decode it holds. -/
  | payloadDecodeDone (tile : Tile)
  /-- LANE_ENABLE (R56). A write of LN_CFG.ENABLE starts the lane receiving, or stops it and rewinds any reception; an unbound lane refuses enable. Operands: value is written to LN_CFG of lane n. -/
  | laneEnable (who : Accessor) (n : LaneN) (value : Word)
  /-- MAINS_ZERO_CROSSING (R61). A port measures a rising zero crossing of its voltage channel, updating its run, lock state, period and prediction. Operands: the channel of port p crosses zero rising at time t (1/256 converter sample), ZC_TRIM not yet added. -/
  | mainsZeroCrossing (p : Port) (t : Nat)
  /-- CROSSING_MISSED (R60). A predicted crossing plus 1° passes without a valid crossing, moving LOCKED to HOLDOVER or HOLDOVER toward ACQUIRE. Operands: the predicted crossing of port p plus 1 degree passes. -/
  | crossingMissed (p : Port)
  /-- PORT_CYCLE_START (R63). A port cycle begins at its predicted crossing; it is numbered, armed masks take effect, mutes clear and allocated frames start or are freed. Operands: the predicted crossing of port p is reached. -/
  | portCycleStart (p : Port)
  /-- MASK_ARM (R67). A write of LN_MASK_LO changes and arms the lane's pending mask. Operands: value is written to LN_MASK_LO of lane n. -/
  | maskArm (who : Accessor) (n : LaneN) (value : Word)
  /-- NMAP_CLEAR (R69). A write of LP_NMAP_CFG.CLEAR makes every noise-map entry of the port read 255 until updated. Operands: value is written to LP_NMAP_CFG of port p. -/
  | nmapClear (who : Accessor) (p : Port) (value : Word)
  /-- NMAP_DATA_READ (R70). A read of LP_NMAP_DATA returns four slot entries from one instant and steps the index when AUTOINC = 1. Operands: LP_NMAP_DATA of port p is read. -/
  | nmapDataRead (who : Accessor) (p : Port)
  /-- ALLOCATION_POINT (R369). 5 ms before a cycle start the port gives its transmit contexts to beacons, answers, JOIN_ACKs, forwards, tones and items in order. Operands: 5 ms before the next predicted cycle start of port p. -/
  | allocationPoint (p : Port)
  /-- TX_ITEM_HEAD_CHECK (R71). A transmit item reaching the head of LN_TXQ is checked and removed as BAD if malformed. Operands: the lane looks at the head item of its LN_TXQ. -/
  | txItemHeadCheck (n : LaneN)
  /-- TX_FRAME_START (R72). An allocated frame sends its first preamble symbol in the first enabled slot of its cycle. Operands: the frame in context ctx sends its first symbol. -/
  | txFrameStart (p : Port) (ctx : Ctx)
  /-- TX_FRAME_END (R75). A frame's last symbol leaves the DAC; the item leaves the queue and its transmit report goes to the link layer. Operands: the frame in context ctx has sent its last symbol. -/
  | txFrameEnd (p : Port) (ctx : Ctx)
  /-- LANE_BLOCK_END (R32). The block on lanes beside a transmitting lane ends 2 symbols after its last symbol. Operands: 2 symbols have passed after the last symbol of lane k. -/
  | laneBlockEnd (p : Port) (k : LaneK)
  /-- LINK_RX_DATA (R92). A DATA frame to 0x0000 from the link layer is checked for sender, tag, state, duplicate and replay, then delivered and acknowledged. Here: the link layer acts on the oldest received frame, if it is of this kind. -/
  | linkRxData
  /-- LINK_RX_ACK (R96). An ACK or NACK to 0x0000 passes sender and tag checks and is matched to its attempt. Here: the link layer acts on the oldest received frame, if it is of this kind. -/
  | linkRxAck
  /-- JOIN_REQ_RX (R104). A JOIN_REQ is authenticated and answered ACCEPTED, FULL or UNKNOWN, admitting or updating the registry entry. Here: the link layer acts on the oldest received frame, if it is of this kind. -/
  | joinReqRx
  /-- JOIN_ACK_LATE (R104). A queued JOIN_ACK that can no longer start within the meter's answer window is discarded and counted. Operands: the oldest queued JOIN_ACK of port p can no longer start in its window. -/
  | joinAckLate (p : Port)
  /-- ECHO_FORWARD_RX (R99). A ROUTED frame whose next path element is an echo element is forwarded on the same lane of the named port. Here: the link layer acts on the oldest received frame, if it is of this kind. -/
  | echoForwardRx
  /-- ACK_TIMEOUT (R95). An attempt's answer deadline passes with no matching answer, or a matching-length frame ends PAY_CRC, so the attempt fails. Operands: the answer deadline of the attempt of SEND tag passes. -/
  | ackTimeout (tag : TagN)
  /-- RETRY_BACKOFF_END (R96). A failed attempt's random back-off ends and its retry becomes a candidate, or the send completes when retries are exhausted. Operands: the back-off of tag's failed attempt on port p ends. -/
  | retryBackoffEnd (tag : TagN) (p : Port)
  /-- EPOCH_RAISE (R102). A write of LK_EPOCH.RAISE adds 1 to EPOCH, reloads every port's SALT and sets EPOCH_RAISED. Operands: value is written to LK_EPOCH. -/
  | epochRaise (who : Accessor) (value : Word)
  /-- REGISTRY_WORD0_WRITE (R89). A host write to registry word 0 is taken only while EMPTY, except a write that sets STATE = EMPTY. Operands: the host writes value to the 32-bit part at addr of a registry word 0. -/
  | registryWord0Write (addr : Word) (value : Word)
  /-- LP_JOIN_WRITE (R108). A write of LP_JOIN is taken only if it leaves the request and answer ranges valid, otherwise it is refused with an event. Operands: value is written to LP_JOIN of port p. -/
  | lpJoinWrite (who : Accessor) (p : Port) (value : Word)
  /-- METERING_CYCLE_END (R119). A feeder's metering cycle ends at its voltage crossing; Pc and Qc are added to the accumulators and the cycle is latched. Operands: voltage channel v crosses at time t, in 1/256 converter sample, and the samples before it have left their chains. -/
  | meteringCycleEnd (v : VChan) (t : Nat)
  /-- FORCED_CYCLE_BOUNDARY (R117). With no in-range crossing for 1.5 nominal periods the device forces a NO_ZC cycle boundary. Operands: no in-range crossing came to feeder f, and the samples of a forced cycle are there. -/
  | forcedCycleBoundary (f : Feeder)
  /-- SYNC_RESET_WRITE (R114). A write of MT_SYNC.RESET schedules a synchronising reset and, in output mode, drives SYNC_M. Operands: value is written to MT_SYNC. -/
  | syncResetWrite (who : Accessor) (value : Word)
  /-- SYNC_M_INPUT (R114). An active SYNC_M edge in input mode schedules a synchronising reset. Operands: SYNC_M is sampled active on the modulator edge just past, after an edge of the given direction. -/
  | syncMInput (rising : Bool)
  /-- SYNCHRONISING_RESET (R114). At t0 every decimator state is zeroed and SETTLE restarts from its full value. Here: the earliest modulator edge for which a reset is scheduled arrives. -/
  | synchronisingReset
  /-- SETTLE_END (R114). SETTLE counts down to 0, clearing MT_STAT.SETTLING and setting SYNC_DONE. Here: the last tagged fine sample has left the chain. -/
  | settleEnd
  /-- FINEQ_WORD_WRITE (R113). Ten fine samples of a channel are written as one sample word into FINEQ. Operands: the tenth sample of a word of channel c has left the chain. -/
  | fineqWordWrite (c : Chan)
  /-- MT_SNAPSHOT_READ (R122). A read of MT_PC_LO copies the feeder's latched cycle values into the snapshot. Operands: MT_PC_LO of feeder f is read. -/
  | mtSnapshotRead (who : Accessor) (f : Feeder)
  /-- BAL_REPORT_PACKET (R127). The balance program takes a meter-report packet and accepts or rejects each record. Here: the balance program takes the next packet of REPQ. -/
  | balReportPacket
  /-- BAL_RESULT_COMMIT (R129). The balance result packet is committed to RESQ, LAST is written and BAL_DONE and any BAL_ALARM are set. Here: the balance program commits the packet of the window last finalised. -/
  | balResultCommit
  /-- QUEUE_WORD_WRITE (R144). A producer writes a word to a queue, extending its open packet or committing it on EOP. Operands: prod writes word to queue q. -/
  | queueWordWrite (prod : Producer) (q : QId) (word : Line)
  /-- FLUSH (R148). QP_CMD.OP = 1 discards committed packets and poisons every open packet of the queue. Operands: QP_CMD is written with OP = 1 and QUEUE = q. -/
  | flush (who : Accessor) (q : QId)
  /-- DROP_REST (R147). QP_CMD.OP = 2 discards committed words from the head through the next EOP. Operands: QP_CMD is written with OP = 2 and QUEUE = q. -/
  | dropRest (who : Accessor) (q : QId)
  /-- WIN_CFG_WRITE (R154). A write of QP_WIN_CFG rewinds any packet open through the window and sets PART to 0. Operands: value is written to QP_WIN_CFG of window w. -/
  | winCfgWrite (who : Accessor) (w : Win) (value : Word)
  /-- WIN_DATA_WRITE (R154). A write of QP_WIN_DATA takes the next part of a produced word and appends it on the 8th part. Operands: value is written to QP_WIN_DATA of window w. -/
  | winDataWrite (w : Win) (value : Word)
  /-- WIN_DATA_READ (R154). A read of QP_WIN_DATA returns the next part of the head word and consumes it on part 7. Operands: QP_WIN_DATA of window w is read; ecc is what the SECDED code of the head word shows. -/
  | winDataRead (w : Win) (ecc : Ecc)
  /-- WIN_EMPTY_TIMEOUT (R151). A part-0 read of an empty window waits 64 µs with no commit and returns 0 with EMPTY_TIMEOUT. Operands: the held part-0 read of window w times out. -/
  | winEmptyTimeout (w : Win)
  /-- WIN_REWIND (R145). QP_WIN_CMD.REWIND returns the window's open packet to the free list with RESULT REWOUND. Operands: QP_WIN_CMD of window w is written with REWIND = 1. -/
  | winRewind (w : Win)
  /-- WIN_DROP_REST (R147). QP_WIN_CMD.DROP_REST performs drop-rest on the window's queue, including a partly read held word. Operands: QP_WIN_CMD of window w is written with DROP_REST = 1. -/
  | winDropRest (w : Win)
  /-- WIN_RESTART (R154). QP_WIN_CMD.RESTART sets PART to 0, re-reading or discarding the held word. Operands: QP_WIN_CMD of window w is written with RESTART = 1. -/
  | winRestart (w : Win)
  /-- QWM_WRITE (R152). A write of QP_QWM sets the watermarks and recomputes the level bits without setting a latch. Operands: value is written to QP_QWM. -/
  | qwmWrite (who : Accessor) (value : Word)
  /-- SRAM_WINDOW_READ (R133). A host read of the SRAM window is checked for rights and ECC, correcting or poisoning the word. Operands: the host reads the 32-bit part at addr. -/
  | sramWindowRead (addr : Word) (ecc : Ecc)
  /-- SRAM_WINDOW_WRITE (R132). A host write of the SRAM window is checked for partition rights and merged into its word. Operands: the host writes value to the 32-bit part at addr. -/
  | sramWindowWrite (addr : Word) (value : Word)
  /-- SCRUB_READ (R135). The scrubber reads and corrects the next word every SPACING + 1 µs. Operands: the scrubber reads its next word. -/
  | scrubRead (ecc : Ecc)
  /-- LOAD_START (R171). A write of FAB_LOAD.START begins fetching an ingot from flash or the push path, or is refused if a load runs. Operands: value is written to FAB_LOAD. -/
  | loadStart (who : Accessor) (value : Word)
  /-- FAB_PUSH_WRITE (R171). A write of FAB_PUSH appends 4 ingot bytes to a push load in FETCH. Operands: value is written to FAB_PUSH. -/
  | fabPushWrite (value : Word)
  /-- PUSH_TIMEOUT (R171). 1 s passes between two pushed writes and the load fails ABORTED. Here: 1 s has passed since the last pushed write. -/
  | pushTimeout
  /-- INGOT_VERIFY_DONE (R172). The ingot's fetch and checks finish, failing with an error or passing on to the cast. Operands: a flash load read these bytes (none: the flash could not be read); us is the duration so far. -/
  | ingotVerifyDone (flash : Option (List Byte)) (us : Nat)
  /-- PARTIAL_QUIESCE_DONE (R176). A partial ingot's scope has drained, so its lanes are rewound and the scope cast begins. Here: the scope has drained. -/
  | partialQuiesceDone
  /-- CAST_COMPLETE (R173). A full or restore cast completes, cores start, CAST_OK is set and Forge gives way to its chosen mode. Operands: the cast ends us after its start; again holds the second read of a restore cast. -/
  | castComplete (again : Option (List Byte)) (us : Nat)
  /-- PARTIAL_CAST_COMPLETE (R176). A partial cast completes and its scope resumes. Operands: the partial cast ends. -/
  | partialCastComplete (us : Nat)
  /-- ADD (R182). ALU FN 0 adds RA and RB. -/
  | add (k : Core) (rd : Sreg) (ra : Sreg) (rb : Sreg)
  /-- SUB (R182). ALU FN 1 subtracts RB from RA. -/
  | sub (k : Core) (rd : Sreg) (ra : Sreg) (rb : Sreg)
  /-- AND (R182). ALU FN 2 ANDs RA and RB. -/
  | and_ (k : Core) (rd : Sreg) (ra : Sreg) (rb : Sreg)
  /-- OR (R182). ALU FN 3 ORs RA and RB. -/
  | or_ (k : Core) (rd : Sreg) (ra : Sreg) (rb : Sreg)
  /-- XOR (R182). ALU FN 4 XORs RA and RB. -/
  | xor_ (k : Core) (rd : Sreg) (ra : Sreg) (rb : Sreg)
  /-- SHL (R182). ALU FN 5 shifts RA left by RB[4:0]. -/
  | shl (k : Core) (rd : Sreg) (ra : Sreg) (rb : Sreg)
  /-- SHR (R182). ALU FN 6 shifts RA logically right by RB[4:0]. -/
  | shr (k : Core) (rd : Sreg) (ra : Sreg) (rb : Sreg)
  /-- ASR (R182). ALU FN 7 shifts RA arithmetically right by RB[4:0]. -/
  | asr (k : Core) (rd : Sreg) (ra : Sreg) (rb : Sreg)
  /-- CLT (R182). ALU FN 8 sets RD to 1 if RA < RB signed. -/
  | clt (k : Core) (rd : Sreg) (ra : Sreg) (rb : Sreg)
  /-- CLTU (R182). ALU FN 9 sets RD to 1 if RA < RB unsigned. -/
  | cltu (k : Core) (rd : Sreg) (ra : Sreg) (rb : Sreg)
  /-- MUL (R182). ALU FN 10 returns the low 32 bits of RA × RB. -/
  | mul (k : Core) (rd : Sreg) (ra : Sreg) (rb : Sreg)
  /-- MULHI (R182). ALU FN 11 returns the high 32 bits of the signed product. -/
  | mulhi (k : Core) (rd : Sreg) (ra : Sreg) (rb : Sreg)
  /-- MULHIU (R182). ALU FN 12 returns the high 32 bits of the unsigned product. -/
  | mulhiu (k : Core) (rd : Sreg) (ra : Sreg) (rb : Sreg)
  /-- MIN (R182). ALU FN 13 returns the signed minimum. -/
  | min (k : Core) (rd : Sreg) (ra : Sreg) (rb : Sreg)
  /-- MAX (R182). ALU FN 14 returns the signed maximum. -/
  | max (k : Core) (rd : Sreg) (ra : Sreg) (rb : Sreg)
  /-- ADDK (R182). RD takes RA plus the sign-extended immediate. -/
  | addk (k : Core) (rd : Sreg) (ra : Sreg) (imm : Half)
  /-- ANDK (R182). RD takes RA AND the zero-extended immediate. -/
  | andk (k : Core) (rd : Sreg) (ra : Sreg) (imm : Half)
  /-- ORK (R182). RD takes RA OR the zero-extended immediate. -/
  | ork (k : Core) (rd : Sreg) (ra : Sreg) (imm : Half)
  /-- XORK (R182). RD takes RA XOR the zero-extended immediate. -/
  | xork (k : Core) (rd : Sreg) (ra : Sreg) (imm : Half)
  /-- CLTK (R182). RD takes 1 if RA is below the signed immediate. -/
  | cltk (k : Core) (rd : Sreg) (ra : Sreg) (imm : Half)
  /-- LIH (R182). RD takes the immediate shifted left by 16. -/
  | lih (k : Core) (rd : Sreg) (imm : Half)
  /-- SHLK (R182). SHK with IMM16[6:5] = 0 shifts left by an immediate count. -/
  | shlk (k : Core) (rd : Sreg) (ra : Sreg) (sh : ShAmt)
  /-- SHRK (R182). SHK with IMM16[6:5] = 1 shifts logically right by an immediate count. -/
  | shrk (k : Core) (rd : Sreg) (ra : Sreg) (sh : ShAmt)
  /-- ASRK (R182). SHK with IMM16[6:5] = 2 shifts arithmetically right by an immediate count. -/
  | asrk (k : Core) (rd : Sreg) (ra : Sreg) (sh : ShAmt)
  /-- LDW (R184). Loads a 32-bit word from memory or a register into RD. -/
  | ldw (k : Core) (rd : Sreg) (ra : Sreg) (imm : Half) (ecc : Ecc)
  /-- LDH (R184). Loads a zero-extended halfword from SRAM into RD. -/
  | ldh (k : Core) (rd : Sreg) (ra : Sreg) (imm : Half) (ecc : Ecc)
  /-- LDB (R184). Loads a zero-extended byte from SRAM into RD. -/
  | ldb (k : Core) (rd : Sreg) (ra : Sreg) (imm : Half) (ecc : Ecc)
  /-- STW (R184). Stores RD as a word to SRAM or a register. -/
  | stw (k : Core) (rd : Sreg) (ra : Sreg) (imm : Half)
  /-- STH (R184). Stores the low halfword of RD to SRAM with a word merge. -/
  | sth (k : Core) (rd : Sreg) (ra : Sreg) (imm : Half)
  /-- STB (R184). Stores the low byte of RD to SRAM with a word merge. -/
  | stb (k : Core) (rd : Sreg) (ra : Sreg) (imm : Half)
  /-- HEQ (R182). Hops if RA equals RB. -/
  | heq (k : Core) (ra : Sreg) (rb : Sreg) (off : Half)
  /-- HNE (R182). Hops if RA differs from RB. -/
  | hne (k : Core) (ra : Sreg) (rb : Sreg) (off : Half)
  /-- HLT (R182). Hops if RA < RB signed. -/
  | hlt (k : Core) (ra : Sreg) (rb : Sreg) (off : Half)
  /-- HLE (R182). Hops if RA ≤ RB signed. -/
  | hle (k : Core) (ra : Sreg) (rb : Sreg) (off : Half)
  /-- HLTU (R182). Hops if RA < RB unsigned. -/
  | hltu (k : Core) (ra : Sreg) (rb : Sreg) (off : Half)
  /-- HLEU (R182). Hops if RA ≤ RB unsigned. -/
  | hleu (k : Core) (ra : Sreg) (rb : Sreg) (off : Half)
  /-- CALL (R182). Writes the link into s31 and jumps by OFFS26 words. -/
  | call (k : Core) (off : Off26)
  /-- JMPR (R182). Writes the link into RD and jumps to RA + IMM16. -/
  | jmpr (k : Core) (rd : Sreg) (ra : Sreg) (imm : Half)
  /-- MULA (R183). Sets an accumulator to an exact 24 × 24 product. -/
  | mula (k : Core) (r1 : Sreg) (r2 : Sreg) (ad : AccN)
  /-- MAC (R183). Adds a product to an accumulator with 48-bit saturation. -/
  | mac (k : Core) (r1 : Sreg) (r2 : Sreg) (ad : AccN)
  /-- MSU (R183). Subtracts a product from an accumulator with 48-bit saturation. -/
  | msu (k : Core) (r1 : Sreg) (r2 : Sreg) (ad : AccN)
  /-- MTA (R183). Moves a sign-extended register into an accumulator. -/
  | mta (k : Core) (r1 : Sreg) (ad : AccN)
  /-- MFA (R183). Moves a rounded, shifted, saturated accumulator into a register. -/
  | mfa (k : Core) (r1 : Sreg) (src : AccN) (sh : ShAmt)
  /-- MFAL (R183). Moves accumulator bits [31:0] into a register. -/
  | mfal (k : Core) (r1 : Sreg) (src : AccN)
  /-- MFAU (R183). Moves accumulator bits [47:32], sign-extended, into a register. -/
  | mfau (k : Core) (r1 : Sreg) (src : AccN)
  /-- ACLR (R183). Clears an accumulator. -/
  | aclr (k : Core) (ad : AccN)
  /-- PSET (R183). Sets both halves of an accumulator pair. -/
  | pset (k : Core) (r1 : Sreg) (r2 : Sreg) (ad : AccN)
  /-- PADD (R183). Adds accumulator pairs half by half with 24-bit saturation. -/
  | padd (k : Core) (ad : AccN) (src : AccN)
  /-- PSUB (R183). Subtracts accumulator pairs half by half with 24-bit saturation. -/
  | psub (k : Core) (ad : AccN) (src : AccN)
  /-- PSCL (R183). Scales each pair half by a Q1.23 factor. -/
  | pscl (k : Core) (r1 : Sreg) (ad : AccN)
  /-- PGETH (R183). Reads the HI half of an accumulator pair. -/
  | pgeth (k : Core) (r1 : Sreg) (src : AccN)
  /-- PGETL (R183). Reads the LO half of an accumulator pair. -/
  | pgetl (k : Core) (r1 : Sreg) (src : AccN)
  /-- AMOV (R183). Copies one accumulator to another. -/
  | amov (k : Core) (ad : AccN) (src : AccN)
  /-- QGET (R185). Takes a queue's head word into SRAM, stalling while the queue is empty. -/
  | qget (k : Core) (rd : Sreg) (ra : Sreg) (rb : Sreg) (ecc : Ecc)
  /-- QGETE (R185). Takes a queue's head word, stalling until a word or an enabled event arrives. -/
  | qgete (k : Core) (rd : Sreg) (ra : Sreg) (rb : Sreg) (ecc : Ecc)
  /-- QTRY (R185). Takes a queue's head word or returns 0 at once if empty. -/
  | qtry (k : Core) (rd : Sreg) (ra : Sreg) (rb : Sreg) (ecc : Ecc)
  /-- QPUT (R185). Appends an SRAM word to a queue as the core's producer word and returns the outcome. -/
  | qput (k : Core) (rd : Sreg) (ra : Sreg) (rb : Sreg) (ecc : Ecc)
  /-- QREW (R185). Rewinds the packet the core has open on a queue. -/
  | qrew (k : Core) (rd : Sreg) (ra : Sreg)
  /-- QLVL (R185). Returns a queue's LEVEL. -/
  | qlvl (k : Core) (rd : Sreg) (ra : Sreg)
  /-- SIN (R186). Takes one sample from an input stream port, stalling while its FIFO is empty. -/
  | sin (k : Core) (r : Sreg) (port : StreamP)
  /-- SOUT (R186). Sends one sample to an output stream port, stalling while its FIFO is full. -/
  | sout (k : Core) (r : Sreg) (port : StreamP)
  /-- WAIT (R188). Continues if an enabled event is pending, otherwise sleeps until one is. -/
  | wait (k : Core) (rd : Sreg)
  /-- RDCTL (R189). Reads the core's own SEQ register or the iron mains cycle counter. -/
  | rdctl (k : Core) (rd : Sreg) (cix : Cix)
  /-- WRCTL (R189). Writes the core's own SEQ register under its access codes and privilege. -/
  | wrctl (k : Core) (ra : Sreg) (cix : Cix)
  /-- SUPC (R191). An L core copies s1 to s4, enters CALL and latches CALL in its supervisor; an S core raises SUPC. -/
  | supc (k : Core)
  /-- HRET (R193). Returns from an S handler to SEQ_EPC and clears INEXC. -/
  | hret (k : Core)
  /-- TRAP (R192). Raises the TRAP exception. -/
  | trap (k : Core)
  /-- SYNCI (R182). Waits for the core's earlier stores and invalidates its instruction cache. -/
  | synci (k : Core)
  /-- CORE_WAKE (R188). A waiting or stalled core resumes when its event, word, sample or FIFO place arrives. Operands: what releases core k has arrived. -/
  | coreWake (k : Core) (ecc : Ecc)
  /-- INTERRUPT_ENTRY (R194). An S core with INT_PM enters its handler for a counter-overflow interrupt. Operands: core k enters for the interrupt it was signalled. -/
  | interruptEntry (k : Core)
  /-- STREAM_SAMPLE_ARRIVAL (R186). A routed sample reaches a core's input FIFO, latching SIN or being dropped with SIN_OVF. Operands: source src puts a sample on the crossbar; im is used on a complex stream only. -/
  | streamSampleArrival (src : TapSrc) (re : BitVec 24) (im : BitVec 24)
  /-- SEQ_TIMER_EXPIRY (R187). SEQ_TIMER.COUNT reaches 0, latching TIMER and reloading if PERIODIC. Operands: SEQ_TIMER.COUNT of core k reaches 0. -/
  | seqTimerExpiry (k : Core)
  /-- HALT (R195). SEQ_CTL.HALT stops the core at the next instruction boundary. Operands: SEQ_CTL of core k is written with HALT = 1 alone. -/
  | halt (who : Accessor) (k : Core)
  /-- RESUME (R191). SEQ_CTL.RESUME continues a halted core or returns a core from CALL. Operands: SEQ_CTL of core k is written with RESUME = 1 alone. -/
  | resume (who : Accessor) (k : Core)
  /-- RESTART (R195). SEQ_CTL.RESTART zeroes the core's state and starts it at SEQ_PC. Operands: SEQ_CTL of core k is written with RESTART = 1 alone. -/
  | restart (who : Accessor) (k : Core)
  /-- KICK (R187). SEQ_CTL.KICK latches the KICK event. Operands: SEQ_CTL of core k is written with KICK = 1 alone. -/
  | kick (who : Accessor) (k : Core)
  /-- STEP (R195). SEQ_CTL.STEP executes one instruction of a halted core. Operands: SEQ_CTL of core k is written with STEP = 1 alone; ecc is the code of the SRAM word the instruction reads, if any. -/
  | step (who : Accessor) (k : Core) (ecc : Ecc)
  /-- SEQ_LANE_WRITE (R196). A write of SEQ_LANE attaches lanes to a core and clears SEQ_LPEND, or is refused on overlap. Operands: value is written to SEQ_LANE of core k. -/
  | seqLaneWrite (who : Accessor) (k : Core) (value : Word)
  /-- READ (R199). A QSPI READ transfer returns register, SRAM or mirror words. Operands: a burst of count words from addr; eccs are the codes of the SRAM words it meets, mirror the words the other unit answers, cut says that one further word was begun and cut short. -/
  | read (addr : Word) (count : Nat) (eccs : List Ecc) (mirror : List Word) (cut : Bool)
  /-- WRITE (R199). A QSPI WRITE transfer writes register, SRAM or mirror words. Operands: a burst of words from addr. -/
  | write (addr : Word) (words : List Word)
  /-- STATUS (R199). A QSPI STATUS transfer returns HP_STAT at once. Operands: a transfer of `count` data words whose command byte is neither READ's nor WRITE's; 0x05 is STATUS. -/
  | status (cmd : Byte) (addr : Word) (count : Nat)
  /-- RING_ENABLE (R202). A write of HP_CFG.ENABLE turns the rings on or off, refused with RING_ERR when invalid. Operands: value is written to HP_CFG. -/
  | ringEnable (who : Accessor) (value : Word)
  /-- DOORBELL (R203). A write of HP_DB sets the command ring TAIL, or is discarded with RING_ERR. Operands: value is written to HP_DB. -/
  | doorbell (who : Accessor) (value : Word)
  /-- CPL_HEAD_WRITE (R204). A write of HP_CPL_IDX.HEAD consumes completion records. Operands: value is written to HP_CPL_IDX. -/
  | cplHeadWrite (who : Accessor) (value : Word)
  /-- EV_HEAD_WRITE (R211). A write of HP_EV_IDX.HEAD consumes event records and lets a pending OVERFLOW record be written. Operands: value is written to HP_EV_IDX. -/
  | evHeadWrite (who : Accessor) (value : Word)
  /-- IRQ_COALESCE_TIMEOUT (R212). The oldest unconsumed completion or event waits its coalescing time, raising CPL or EVT. Operands: the oldest unconsumed completion (or event) has waited its time. -/
  | irqCoalesceTimeout (events : Bool)
  /-- SEND (R207). A SEND descriptor is taken and checked, and its frame is queued to the entry's home lane. Here: the descriptor at the command ring's HEAD is taken, if it is of this TYPE or of no listed TYPE. -/
  | send
  /-- BROADCAST (R207). A BROADCAST descriptor queues one group-keyed copy on lane k of each named port. Here: the descriptor at the command ring's HEAD is taken, if it is of this TYPE. -/
  | broadcast
  /-- READ_MT (R208). A READ_MT descriptor copies the metering block into DSTQ as one packet. Here: the descriptor at the command ring's HEAD is taken, if it is of this TYPE. -/
  | readMt
  /-- RADIO_SEND_LINK (R241). A RADIO_SEND with MODE LINK queues a frame on a link context. Here: the descriptor at the command ring's HEAD is taken, if it is a RADIO_SEND with MODE other than FLOOD. -/
  | radioSendLink
  /-- RADIO_SEND_FLOOD (R241). A RADIO_SEND with MODE FLOOD originates a flood. Here: the descriptor at the command ring's HEAD is taken, if it is a RADIO_SEND with MODE FLOOD. -/
  | radioSendFlood
  /-- UART_SEND (R257). A UART_SEND descriptor queues characters on a UART. Here: the descriptor at the command ring's HEAD is taken, if it is of this TYPE. -/
  | uartSend
  /-- CONTROL (R262). A CONTROL descriptor sets and clears outputs, completing when all reach their levels. Here: the descriptor at the command ring's HEAD is taken, if it is of this TYPE. -/
  | control
  /-- ABORT (R215). An ABORT descriptor ends its target ABORTED or completes ABORT_LATE. Here: the descriptor at the command ring's HEAD is taken, if it is of this TYPE. -/
  | abort
  /-- RADIO_ENABLE (R218). A write of RF_CFG.ENABLE starts the radio, or is refused with CFG_REFUSED. Operands: value is written to RF_CFG. -/
  | radioEnable (who : Accessor) (value : Word)
  /-- LINK_ARM (R227). A write of RF_LCFG.ENABLE arms a link context as LEADER, FOLLOWER or TRACK. Operands: value is written to RF_LCFG of context c. -/
  | linkArm (who : Accessor) (c : LinkC) (value : Word)
  /-- RADIO_BEACON_TX (R227). The device sends its Drevair BEACON every BCN_INT × 64 ticks and BSEQ rises. Here: the beacon interval comes round. -/
  | radioBeaconTx
  /-- RF_SYNC_DETECT (R222). The baseband detects a sync word and receives the frame to its end. Operands: what the baseband sees at the end of a possible sync word. -/
  | rfSyncDetect (y : RfSync)
  /-- RF_BEACON_RX (R226). A Drevair BEACON is received, letting a follower connect or a tracker re-anchor. Operands: what the baseband has at the frame's end. -/
  | rfBeaconRx (r : RfSeen)
  /-- CONN_REQ_RX (R228). A CONN_REQ is received and answered with CONN_ACK ACCEPTED or REFUSED. Operands: what the baseband has at the frame's end. -/
  | connReqRx (r : RfSeen)
  /-- CONN_ACK_RX (R228). A follower receives CONN_ACK and, if accepted, the link becomes CONNECTED. Operands: what the baseband has at the frame's end. -/
  | connAckRx (r : RfSeen)
  /-- RF_DATA_RX (R226). A Drevair DATA frame is checked and its body delivered to DLVQ. Operands: what the baseband has at the frame's end. -/
  | rfDataRx (r : RfSeen)
  /-- RF_ACK_RX (R232). A Drevair ACK completes the attempt it answers. Operands: what the baseband has at the frame's end. -/
  | rfAckRx (r : RfSeen)
  /-- RF_NACK_RX (R232). A Drevair NACK BUSY fails the attempt it answers. Operands: what the baseband has at the frame's end. -/
  | rfNackRx (r : RfSeen)
  /-- MAP_SET_RX (R233). A LINK_CMD MAP_SET sets the map used from event FROM. Operands: what the baseband has at the frame's end. -/
  | mapSetRx (r : RfSeen)
  /-- DISCONNECT_RX (R233). A LINK_CMD DISCONNECT ends the link after its ACK. Operands: what the baseband has at the frame's end. -/
  | disconnectRx (r : RfSeen)
  /-- FLOOD_RX (R237). A FLOOD is checked against the seen-cache, delivered and scheduled for forwarding. Operands: what the baseband has at the frame's end. -/
  | floodRx (r : RfSeen)
  /-- FLOOD_FORWARD (R237). A scheduled flood forward starts after its jitter unless suppressed. Operands: the oldest scheduled forward may start, at tick now. -/
  | floodForward (now : Nat)
  /-- LINK_EVENT (R230). A link event anchor arrives and the leader sends its frame or poll. Operands: the anchor of context c's next event arrives, at tick now. -/
  | linkEvent (c : LinkC) (now : Nat)
  /-- LINK_WINDOW_CLOSE (R231). A follower's receive window closes with no leader frame, counting a miss or losing the link. Operands: the receive window of context c closes without a leader frame. -/
  | linkWindowClose (c : LinkC)
  /-- SUPERVISION (R231). The supervision deadline passes and the link is lost with reason SUPERVISION. Operands: the supervision deadline of context c passes. -/
  | supervision (c : LinkC)
  /-- SCAN_CHANNEL_TIMEOUT (R231). A scanning context's listen period on one discovery channel ends and it moves to the next. Operands: the listen period of context c ends. -/
  | scanChannelTimeout (c : LinkC)
  /-- MAP_SET_ARM (R233). A leader's write of RF_LMAP_LO arms a MAP_SET for the current event plus 8. Operands: value is written to RF_LMAP_LO of context c. -/
  | mapSetArm (who : Accessor) (c : LinkC) (value : Word)
  /-- MAP_SET_RESEND (R233). An unacknowledged MAP_SET reaches event FROM − 1 and is replaced with a new FROM. Operands: event FROM - 1 of context c's MAP_SET arrives unacknowledged. -/
  | mapSetResend (c : LinkC)
  /-- LAST_GASP (R238). The LAST_GASP flood originated at Outage entry starts on the flood channel. Operands: the LAST_GASP flood starts at tick now. -/
  | lastGasp (now : Nat)
  /-- SNIFF_LISTEN (R239). The Sentinel sniffer turns the receiver on for LISTEN ticks of each PERIOD. Here: the sniffer's listen time comes round. -/
  | sniffListen
  /-- SNIFF_DETECT (R310). The sniffer detects a preamble and raises a wake request. Here: the sniffer detects 8 preamble symbols. -/
  | sniffDetect
  /-- FALSE_WAKE (R239). No sync word follows a sniffer detection in time; FALSE_WAKE is counted and sniffing resumes. Here: no sync word has followed the detection in time. -/
  | falseWake
  /-- UART_CHAR_RX (R247). A UART receives a character and stores its unit with its flags. Operands: the samples of each bit of the character, start bit first and the first stop bit last; whether its start edge came before the last change of the settings (R246), and within a bit time of the last stop bit sent (R254). -/
  | uartCharRx (u : Uart) (bits : List Sample3) (early : Bool) (near : Bool)
  /-- UART_BREAK (R249). An all-low frame stores a break unit and closes its word. Operands: every bit of the frame reads low. -/
  | uartBreak (u : Uart)
  /-- LINE_STUCK (R249). The line stays low BRK_TIMEOUT character times and storage stops. Operands: the line has been low BRK_TIMEOUT character times. -/
  | lineStuck (u : Uart)
  /-- LINE_STUCK_CLEAR (R249). The line stays high for one character time and reception re-arms. Operands: the line has been high one character time. -/
  | lineStuckClear (u : Uart)
  /-- AUTOBAUD_MEASURE (R250). An autobaud candidate character sets UA_BAUD and AB_DONE, or counts AB_FAIL. Operands: the candidate measures t UCLK cycles; edgesOk says that every other edge lies within a quarter bit. -/
  | autobaudMeasure (u : Uart) (t : Nat) (edgesOk : Bool)
  /-- UART_RX_TIMEOUT (R256). The line is idle RTO character times and the partial word is written with RTO. Operands: the line has been idle RTO character times. -/
  | uartRxTimeout (u : Uart)
  /-- UA_CFG_WRITE (R246). A write of UA_CFG takes effect at the next start edge or start bit, and AMATCH 0 to 1 mutes the receiver. Operands: value is written to UA_CFG of UART u. -/
  | uaCfgWrite (who : Accessor) (u : Uart) (value : Word)
  /-- BAUD_WRITE (R255). A write of UA_BAUD sets the divider, or holds it pending with PEND = 1. Operands: value is written to UA_BAUD of UART u. -/
  | baudWrite (who : Accessor) (u : Uart) (value : Word)
  /-- UART_TX_CHAR_DONE (R257). A transmitted character's stop bit ends and the next character or the send completion follows. Operands: the stop bit of the character being sent ends. -/
  | uartTxCharDone (u : Uart)
  /-- UDE_TAIL_EXPIRY (R252). UDEu deasserts TX_TAIL bit times after the last stop bit. Operands: TX_TAIL bit times have passed. -/
  | udeTailExpiry (u : Uart)
  /-- CT_SET (R261). A write of CT_SET turns outputs on under interlock and trip rules. Operands: value is written to CT_SET. -/
  | ctSet (who : Accessor) (value : Word)
  /-- CT_CLR (R261). A write of CT_CLR turns outputs off. Operands: value is written to CT_CLR. -/
  | ctClr (who : Accessor) (value : Word)
  /-- CT_PAIR_WRITE (R261). A write of CT_PAIR is refused if it leaves both members of a pair SAFE = 1. Operands: value is written to CT_PAIR. -/
  | ctPairWrite (who : Accessor) (value : Word)
  /-- CT_OCFG_WRITE (R261). A write of CT_OCFG is refused if it leaves both members of a pair SAFE = 1. Operands: value is written to CT_OCFG of output o. -/
  | ctOcfgWrite (who : Accessor) (o : CtlO) (value : Word)
  /-- DEAD_TIME_EXPIRY (R261). An interlocked pair's dead time ends and the requested member turns on. Operands: the dead time of pair pn ends. -/
  | deadTimeExpiry (pn : PairN)
  /-- GUARD_TRIP (R265). A guard's count reaches M and its mapped outputs are forced SAFE. Operands: modulator clocks from edge number first on, edge e coming at e × 512/3 in 1/256 converter sample: bit c of each is the bit of the modulator of channel c. -/
  | guardTrip (first : Nat) (clocks : List (BitVec 8))
  /-- TRIP_CLEAR (R267). A W1C of CT_TRIP releases a guard's outputs to their commanded levels. Operands: value is written to CT_TRIP. -/
  | tripClear (who : Accessor) (value : Word)
  /-- FB_MISMATCH (R263). An output's feedback input does not match within FB_TIME and FB_MISMATCH is set. Operands: FB_TIME has passed since output o changed. -/
  | fbMismatch (o : CtlO)
  /-- DIN_EDGE (R264). A DIN holds a new level for DEB samples and its debounced level changes. Operands: raw levels of DIN din, sampled at 1 kHz, in order. -/
  | dinEdge (din : CtlO) (raw : List Bool)
  /-- DLIM_LEVEL_WRITE (R268). A change of CT_DLIM.LEVEL sets DLIM_LEVEL. Operands: value is written to CT_DLIM. -/
  | dlimLevelWrite (who : Accessor) (value : Word)
  /-- PRESENCE_ASSERT (R273). PRES_N held low 6,554 cycles while armed opens or restarts the presence window. Here: PRES_N has been low 6,554 iron-clock cycles. -/
  | presenceAssert
  /-- PRESENCE_RELEASE (R273). PRES_N high for 656 cycles is recognised as a release and arms the logic. Here: PRES_N has been high 656 iron-clock cycles. -/
  | presenceRelease
  /-- PRESENCE_WINDOW_EXPIRY (R273). The window's LEN runs out and it closes with PRES_CLOSE. Here: LEN seconds have passed. -/
  | presenceWindowExpiry
  /-- PRESENCE_CLOSE (R273). A write of WD_PRES.CLOSE closes the presence window. Operands: value is written to WD_PRES. -/
  | presenceClose (value : Word)
  /-- DEBUG_UNLOCK (R275). A write of WD_POLICY.DBG_UNLOCK unlocks JTAG debug in Maintenance or Test with presence. Operands: value is written to WD_POLICY. -/
  | debugUnlock (value : Word)
  /-- WD_SLOT_READ (R296). A read of WD_SLOT copies the slot's VERSION and COUNTER into WD_SLOT_VER and WD_SLOT_CTR. Here: WD_SLOT is read. -/
  | wdSlotRead
  /-- KEY_LOAD (R279). Mailbox KEY_LOAD writes plaintext key material and a counter into a slot. Here: the warden runs the command START named. -/
  | keyLoad
  /-- KEY_UNWRAP (R290). Mailbox KEY_UNWRAP unwraps a blob into a slot. Here: the warden runs the command START named. -/
  | keyUnwrap
  /-- KEY_WRAP (R290). Mailbox KEY_WRAP wraps an exportable slot into a blob. Here: the warden runs the command START named. -/
  | keyWrap
  /-- KEY_GEN (R290). Mailbox KEY_GEN generates a key in a slot. Here: the warden runs the command START named. -/
  | keyGen
  /-- KEY_ERASE (R277). Mailbox KEY_ERASE empties a slot. Here: the warden runs the command START named. -/
  | keyErase
  /-- PUBKEY (R290). Mailbox PUBKEY returns a slot's public key. Here: the warden runs the command START named. -/
  | pubkey
  /-- CTR_RAISE (R277). Mailbox CTR_RAISE raises a slot's COUNTER. Here: the warden runs the command START named. -/
  | ctrRaise
  /-- ATTEST (R290). Mailbox ATTEST signs a challenge and record, or returns the public key. Here: the warden runs the command START named. -/
  | attest
  /-- SELFTEST (R293). Mailbox SELFTEST repeats the power-up self-tests. Operands: the warden runs the command START named; cause is 0 if every test passes. -/
  | selftest (cause : QCause)
  /-- ZEROISE (R277). Mailbox ZEROISE erases every slot. Here: the warden runs the command START named. -/
  | zeroise
  /-- ROOT_SET (R290). Mailbox ROOT_SET writes a new root hash row and revokes the previous one. Operands: the warden runs the command START named; readback says that the OTP row reads back right. -/
  | rootSet (readback : Bool)
  /-- FLOOR_SET (R290). Mailbox FLOOR_SET writes a higher ingot-version floor. Operands: as ROOT_SET. -/
  | floorSet (readback : Bool)
  /-- WINDOW_SET (R290). Mailbox WINDOW_SET writes a new presence window length. Operands: as ROOT_SET. -/
  | windowSet (readback : Bool)
  /-- LIFE_BURN (R290). Mailbox LIFE_BURN burns DEBUG_DISABLE or TEST_DISABLE. Operands: as ROOT_SET. -/
  | lifeBurn (readback : Bool)
  /-- MAINT_ENTER (R290). Mailbox MAINT_ENTER starts the change to Maintenance. Here: the warden runs the command START named. -/
  | maintEnter
  /-- TEST_ENTER (R290). Mailbox TEST_ENTER erases every slot and starts the change to Test. Here: the warden runs the command START named. -/
  | testEnter
  /-- MBX_DONE (R289). A mailbox command ends, reporting STATUS and DETAIL and zeroing secret DATA. Here: the command that runs ends. -/
  | mbxDone
  /-- GCM_ENC (R282). CIPHER OP 0x01 encrypts under AES-GCM with a slot counter. Here: the CIPHER descriptor with this OP at the command ring's HEAD is taken. -/
  | gcmEnc
  /-- GCM_DEC (R282). CIPHER OP 0x02 decrypts and verifies under AES-GCM. Here: the CIPHER descriptor with this OP at the command ring's HEAD is taken. -/
  | gcmDec
  /-- CCM_ENC (R282). CIPHER OP 0x03 encrypts under AES-CCM with a slot counter. Here: the CIPHER descriptor with this OP at the command ring's HEAD is taken. -/
  | ccmEnc
  /-- CCM_DEC (R282). CIPHER OP 0x04 decrypts and verifies under AES-CCM. Here: the CIPHER descriptor with this OP at the command ring's HEAD is taken. -/
  | ccmDec
  /-- CMAC_GEN (R282). CIPHER OP 0x05 generates an AES-CMAC tag. Here: the CIPHER descriptor with this OP at the command ring's HEAD is taken. -/
  | cmacGen
  /-- CMAC_VER (R282). CIPHER OP 0x06 verifies an AES-CMAC tag. Here: the CIPHER descriptor with this OP at the command ring's HEAD is taken. -/
  | cmacVer
  /-- SHA256 (R282). CIPHER OP 0x07 computes a SHA-256 digest. Here: the CIPHER descriptor with this OP, or with no listed OP, at the command ring's HEAD is taken. -/
  | sha256
  /-- ECDSA_SIGN (R282). CIPHER OP 0x08 signs a message or digest under a P-256 slot. Here: the CIPHER descriptor with this OP at the command ring's HEAD is taken. -/
  | ecdsaSign
  /-- ECDSA_VER (R282). CIPHER OP 0x09 verifies a P-256 signature. Here: the CIPHER descriptor with this OP at the command ring's HEAD is taken. -/
  | ecdsaVer
  /-- ECDH (R282). CIPHER OP 0x0A computes a shared secret into SLOT2. Here: the CIPHER descriptor with this OP at the command ring's HEAD is taken. -/
  | ecdh
  /-- KDF (R282). CIPHER OP 0x0B derives a key into SLOT2. Here: the CIPHER descriptor with this OP at the command ring's HEAD is taken. -/
  | kdf
  /-- RANDOM (R282). CIPHER OP 0x0C returns DRBG bytes. Here: the CIPHER descriptor with this OP at the command ring's HEAD is taken. -/
  | random
  /-- CIPHER_ENGINE_ENTRY (R280). A queued cipher job enters an engine, taking its key, version check and counter. Here: the first queued cipher job enters an engine. -/
  | cipherEngineEntry
  /-- CIPHER_JOB_DONE (R284). A cipher job leaves the engine and completes, zeroing output on authentication failure. Here: the first cipher job in an engine leaves it. -/
  | cipherJobDone
  /-- POWER_UP_SELFTEST_DONE (R293). The warden's power-up self-tests pass, WD_STAT reads READY and the ingot fetch begins. Here: every power-up self-test has passed. -/
  | powerUpSelftestDone
  /-- HEALTH_TEST_FAIL (R294). A self-test or continuous health test fails and the device enters Quarantine. Operands: the test of R293 with this cause fails. -/
  | healthTestFail (cause : QCause)
  /-- VIRON_POWER_ON (R299). VIRON reaches range and the device resets every state to Dormant, held. Operands: VIRON reaches range, with these levels on ALLOY_ROLE and TEST_EN. -/
  | vironPowerOn (role : Bool) (testEn : Bool)
  /-- RST_N_ASSERT (R299). RST_N low holds the device in Dormant and resets its K and Q state. Here: RST_N has been low 2 iron-clock cycles. -/
  | rstNAssert
  /-- RST_N_RELEASE (R305). RST_N rises and, with mains present or BOOT_ANY, the device raises its supplies and enters Assay. Operands: RST_N rises, with these strap levels. -/
  | rstNRelease (role : Bool) (testEn : Bool)
  /-- SUPPLY_IN_RANGE (R298). Every requested supply reports in range and the quicksilver domain leaves reset. Here: every requested supply is in range. -/
  | supplyInRange
  /-- BROWNOUT (R298). A requested supply falls out of range for 2 µs and the device enters Dormant. Operands: that requested supply has been out of range 2 us. -/
  | brownout (supply : SupplyN)
  /-- X32_PROVEN (R300). The crystal runs 16,384 good cycles and the iron clock moves to it. Here: the crystal is proven. -/
  | x32Proven
  /-- X32_FAIL (R300). The crystal is not proven within 800 ms and X32_FAIL is set. Here: 800 ms have passed without proof. -/
  | x32Fail
  /-- PLL_LOCK (R301). XREF stabilises and the main PLL locks, moving the fabric off the ring oscillator. Here: XREF is stable and the PLL locks. -/
  | pllLock
  /-- CLOCK_IDLE_STOP (R302). No clock request for IDLE µs lets clocks stop to depth 1, 2 or 3. Here: no clock request for IDLE us. -/
  | clockIdleStop
  /-- MODE_REQUEST (R306). A write of SYS_CTL.GO requests a mode change, taken only where a REQUEST row allows it. Operands: value is written to SYS_CTL with GO = 1. -/
  | modeRequest (who : Accessor) (value : Word)
  /-- FULL_SELECT (R306). A write of SYS_CTL.FULL selects the Full-Line rate for Alloyed, Island, Forge and restoration. Operands: value is written to SYS_CTL with GO = 0. -/
  | fullSelect (who : Accessor) (value : Word)
  /-- MAINS_SENSE_EDGE (R311). A qualified MAINS_SENSE edge updates H, steps the iron counter on rising edges and may declare presence or restoration. Operands: an edge whose time is iron-clock cycle t qualifies. -/
  | mainsSenseEdge (rising : Bool) (t : Nat)
  /-- MAINS_LOSS (R311). No MAINS_SENSE edge for H + LOSS_MARGIN declares mains lost and enters Outage. Operands: at iron-clock cycle t the time since the last edge has reached H + LOSS_MARGIN. -/
  | mainsLoss (t : Nat)
  /-- OUTAGE_TIMEOUT (R305). OUT_HOLD seconds in Outage pass with OUT_SLEEP 1 or 2 and the device enters Sentinel or Dormant. Here: the time in Outage reaches OUT_HOLD. -/
  | outageTimeout
  /-- TEMP_MEASURE (R316). The junction temperature is measured every 1 ms and a reading at LIMIT drops the unit to the Service rate. Operands: the junction temperature in degrees C. -/
  | tempMeasure (temp : Int)
  /-- RTC_ALARM (R317). The real-time counter matches PWR_ALARM, setting ALARM and waking the device if enabled. Here: bits [46:15] of the real-time counter equal PWR_ALARM. -/
  | rtcAlarm
  /-- HEARTBEAT_TX (R319). A unit sends an alloy heartbeat every 100 µs. Here: 100 us have passed on this unit's XREF. -/
  | heartbeatTx
  /-- HEARTBEAT_RX (R319). An alloy heartbeat is received; 16 in a row bring the link UP and start timing sync or heal. Operands: the other unit's heartbeat. -/
  | heartbeatRx (b : Beat)
  /-- HEARTBEAT_MISS (R320). A 100 µs period passes with no heartbeat; the eighth loses the link and moves a follower to Island. Here: a 100 us period passes with no valid heartbeat. -/
  | heartbeatMiss
  /-- LINK_FRAME_CRC_FAIL (R320). An alloy link frame fails its CRC; CRC_BURST failures in 100 µs lose the link. Operands: a link frame fails its CRC; inWindow failures lie within the last 100 us, this one included. -/
  | linkFrameCrcFail (inWindow : Nat)
  /-- REPLICA_WRITE_RX (R323). A registry write copied from the other unit is applied to the local replica. Operands: the other unit wrote value to 32-bit part part of entry index. -/
  | replicaWriteRx (index : Nat) (part : EntPart) (value : Word)
  /-- FORWARDED_FRAME_RX (R323). A frame forwarded by the other unit is processed by the acting unit as its own. Operands: a frame the other unit received and forwards. -/
  | forwardedFrameRx (fr : RxFrame)
  /-- HANDOFF_RX (R325). The follower takes a SEND or BROADCAST copy handed off by the lead. Operands: a SEND or BROADCAST copy with its hand-off number. -/
  | handoffRx (number : BitVec 16) (tag : TagN) (desc : List Byte) (body : List Byte)
  /-- SYNC_MARK_SEND (R327). Every SYNC_CYC mains cycles the lead sends a sync mark after its pending replica writes. Here: SYNC_CYC mains cycles have passed. -/
  | syncMarkSend
  /-- SYNC_MARK_CONFIRM (R327). The follower confirms a sync mark and pins its home set. Operands: on the follower: the mark with this cycle number, every write before it applied; on the lead: its confirmation. -/
  | syncMarkConfirm (cycle : Word)
  /-- BUFQ_RECORD_REPLAY (R331). The lead takes one replayed BUFQ record during a heal. Operands: one record that goes to the lead, its head packet at the follower; the empty list says that the replay has ended, and live then holds the hand-off numbers still in progress at the follower that the lead has not fenced. -/
  | bufqRecordReplay (rec : List Byte) (live : List Nat)
  /-- PROMOTE (R334). A write of AL_CTL.PROMOTE with presence makes an Island follower the lead. Operands: value is written to AL_CTL by the host. -/
  | promote (value : Word)
  /-- COUNTER_OVERFLOW (R338). A performance counter wraps, setting its OVF bit and signalling the interrupt and event as selected. Operands: occ occurrences fall in this cycle for counter k. -/
  | counterOverflow (k : CtrN) (occ : Nat)
  /-- PM_SNAPSHOT (R342). A write of PM_SNAP.TAKE copies all counts and OVF bits into the shadow registers. Operands: value is written to PM_SNAP. -/
  | pmSnapshot (who : Accessor) (value : Word)
  /-- PM_CTR_LO_WRITE (R340). A write of PM_CTR_LO loads the count with the pending high bits. Operands: value is written to PM_CTR_LO of counter k. -/
  | pmCtrLoWrite (who : Accessor) (k : CtrN) (value : Word)
  /-- PM_CTR_HI_WRITE (R340). A write of PM_CTR_HI sets the counter's pending high bits. Operands: value is written to PM_CTR_HI of counter k. -/
  | pmCtrHiWrite (who : Accessor) (k : CtrN) (value : Word)
  /-- PM_CTR_LO_READ (R340). A read of PM_CTR_LO returns the low bits and latches the high bits. Operands: PM_CTR_LO of counter k is read. -/
  | pmCtrLoRead (who : Accessor) (k : CtrN)
  /-- RF_TX_END (R241). A radio frame's last symbol leaves the antenna: RF_PAEN deasserts 1 symbol later, and a FLOOD or a LINK send with ACKREQ = 0 completes OK. Here: the last symbol of the radio frame being sent leaves the antenna. -/
  | rfTxEnd
  /-- LINK_EVENT_END (R232). A link event ends with no ACK, and no DATA with ACKD, for a secured ACKREQ frame, so the attempt fails and its back-off in events begins. Operands: the event of context c ends without an acknowledgement. -/
  | linkEventEnd (c : LinkC)
  /-- CONN_ACK_TIMEOUT (R228). A follower that sent CONN_REQ receives no CONN_ACK, counts a failure, and after 3 failures returns to SCAN. Operands: no CONN_ACK came to the CONN_REQ of context c. -/
  | connAckTimeout (c : LinkC)
  deriving DecidableEq, Repr

end Sys2Proof
end

