-- ==== Sys2Proof/Machine/Map.lean ====
section
/-! DEFINITION. Sparse maps in one canonical form (keys strictly rising, no entry equal to what an
unlisted key reads as), and the integer and bit helpers every other file uses. -/

namespace Sys2Proof.Machine

/-- A sparse map from numbers: a list of (key, value) pairs. `d k` is what an unlisted key `k` reads as. -/
abbrev SMap (α : Type) := List (Nat × α)

/-- The value at key `k`. -/
def mget {α : Type} (d : Nat → α) (m : SMap α) (k : Nat) : α :=
  match m with
  | [] => d k
  | (j, v) :: t => if j = k then v else mget d t k

/-- Remove the entry of key `k`: it reads as its default again. -/
def mdel {α : Type} (m : SMap α) (k : Nat) : SMap α := m.filter (fun e => e.1 ≠ k)

/-- Insert an entry before the first larger key. -/
def mins {α : Type} (m : SMap α) (k : Nat) (v : α) : SMap α :=
  match m with
  | [] => [(k, v)]
  | (j, w) :: t => if j < k then (j, w) :: mins t k v else (k, v) :: (j, w) :: t

/-- Store `v` at key `k`, keeping the canonical form. -/
def mset {α : Type} [DecidableEq α] (d : Nat → α) (m : SMap α) (k : Nat) (v : α) : SMap α :=
  if v = d k then mdel m k else mins (mdel m k) k v

/-- Change the value at key `k` by `f`. -/
def mmod {α : Type} [DecidableEq α] (d : Nat → α) (m : SMap α) (k : Nat) (f : α → α) : SMap α :=
  mset d m k (f (mget d m k))

/-- Every key is above `lo` (none: no bound), keys rise strictly, and no entry equals its default. -/
def mwfFrom {α : Type} [DecidableEq α] (d : Nat → α) (lo : Option Nat) (m : SMap α) : Bool :=
  match m with
  | [] => true
  | (j, v) :: t =>
    (match lo with | none => true | some l => decide (l < j)) && decide (v ≠ d j) && mwfFrom d (some j) t

/-- The canonical form of a sparse map. -/
def mwf {α : Type} [DecidableEq α] (d : Nat → α) (m : SMap α) : Bool := mwfFrom d none m

/-- Keep the entries whose key satisfies `p`; the others read as their default again. -/
def mkeep {α : Type} (p : Nat → Bool) (m : SMap α) : SMap α := m.filter (fun e => p e.1)

/-! ### Sorted sets of numbers -/

/-- Insert `k` in a strictly rising list of numbers. -/
def setInsert (k : Nat) (l : List Nat) : List Nat :=
  match l with
  | [] => [k]
  | j :: t => if j < k then j :: setInsert k t else if j = k then j :: t else k :: j :: t

/-- Remove `k`. -/
def setErase (k : Nat) (l : List Nat) : List Nat := l.filter (fun j => j ≠ k)

/-! ### Bits and integers -/

/-- Bits `hi` down to `lo` of `x`. -/
def bits (x hi lo : Nat) : Nat := (x >>> lo) % 2 ^ (hi + 1 - lo)

/-- Bit `i` of `x`. -/
def bit (x i : Nat) : Bool := (x >>> i) % 2 = 1

/-- `x` with bits `hi` down to `lo` replaced by `v`. -/
def putBits (x hi lo v : Nat) : Nat :=
  x - (bits x hi lo) * 2 ^ lo + (v % 2 ^ (hi + 1 - lo)) * 2 ^ lo

/-- 1 for true, 0 for false. -/
def b2n (b : Bool) : Nat := if b then 1 else 0

/-- The low `w` bits of `x` read in two's complement. -/
def sgn (w x : Nat) : Int :=
  let y := x % 2 ^ w
  if y < 2 ^ (w - 1) then (y : Int) else (y : Int) - 2 ^ w

/-- The two's-complement code of `x` in `w` bits. -/
def unsgn (w : Nat) (x : Int) : Nat := (x % (2 ^ w : Int)).toNat

/-- `x` limited to `lo .. hi`. -/
def clampInt (lo hi x : Int) : Int := if x < lo then lo else if hi < x then hi else x

/-- `x` limited to at most `hi`. -/
def clampNat (hi x : Nat) : Nat := if hi < x then hi else x

/-- `a / b` rounded to the nearest integer, a half away from zero (0 if `b` is 0). -/
def roundDiv (a : Int) (b : Nat) : Int :=
  if 0 ≤ a then ((2 * a.toNat + b) / (2 * b) : Nat) else - (((2 * (-a).toNat + b) / (2 * b) : Nat) : Int)

/-- The integer square root of `n`, by bisection over `k` bits. -/
def isqrtFrom (n : Nat) (k : Nat) (acc : Nat) : Nat :=
  match k with
  | 0 => acc
  | k + 1 => let c := acc + 2 ^ k; isqrtFrom n k (if c * c ≤ n then c else acc)

/-- The integer square root of `n` (rounded down). -/
def isqrt (n : Nat) : Nat := isqrtFrom n (n.log2 / 2 + 1) 0

/-- Little-endian value of a list of bytes. -/
def leNat (l : List Byte) : Nat :=
  match l with
  | [] => 0
  | b :: t => b.toNat + 256 * leNat t

/-- `n` bytes of `x`, least significant first. -/
def leBytes (n x : Nat) : List Byte :=
  match n with
  | 0 => []
  | n + 1 => BitVec.ofNat 8 x :: leBytes n (x / 256)

/-- Big-endian value of a list of bytes. -/
def beNat (l : List Byte) : Nat := l.foldl (fun a b => a * 256 + b.toNat) 0

/-- `n` bytes of `x`, most significant first. -/
def beBytes (n x : Nat) : List Byte := (leBytes n x).reverse

/-- Item `i` of a list, or `d`. -/
def nth {α : Type} (d : α) (l : List α) (i : Nat) : α := (l[i]?).getD d

/-- The list with item `i` changed by `f`. -/
def modNth {α : Type} (l : List α) (i : Nat) (f : α → α) : List α :=
  match l, i with
  | [], _ => []
  | a :: t, 0 => f a :: t
  | a :: t, i + 1 => a :: modNth t i f

/-- `p` items of `l` at most, and the rest. -/
def chunk {α : Type} (n : Nat) (l : List α) : List α × List α := (l.take n, l.drop n)

/-- Cut `l` into pieces of `n` items (the last may be shorter); `fuel` bounds the number of pieces. -/
def piecesFuel {α : Type} (fuel n : Nat) (l : List α) : List (List α) :=
  match fuel with
  | 0 => []
  | f + 1 => if l.isEmpty then [] else l.take n :: piecesFuel f n (l.drop n)

/-- Cut `l` into pieces of `n` items. -/
def pieces {α : Type} (n : Nat) (l : List α) : List (List α) := piecesFuel l.length n l

/-- Apply `f` to `x` for every item of `l` in order. -/
def foldState {σ α : Type} (l : List α) (f : α → σ → σ) (x : σ) : σ :=
  match l with
  | [] => x
  | a :: t => foldState t f (f a x)

end Sys2Proof.Machine
end

