-- ==== Sys2Proof/Machine/Crypto.lean ====
section
/-! DEFINITION. The algorithms that the warden's chapter names (14): AES-128 and AES-256 with GCM, CCM, CMAC and KW, SHA-256,
P-256 with ECDSA and ECDH, and the one-step KDF. The specification names them by their standards and does not print them; they
stand here as the standards give them (PRESUMED, log 10). -/

namespace Sys2Proof.Machine

/-- Item `i` of a table of `w`-byte items packed in 256-bit parts, the first lowest. -/
def packed (l : List Nat) (w i : Nat) : Nat :=
  (nth 0 l (i * w / 32) >>> (8 * (i * w % 32))) % 2 ^ (8 * w)

/-! ### AES -/

/-- The substitution box and its inverse. -/
def aesBox : List Nat :=
  [0xc072a49cafa2d4adf04759fa7dc982ca76abd7fe2b670130c56f6bf27b777c63,
   0x75b227ebe28012079a059618c323c7041531d871f1e5a534ccf73f362693fdb7,
   0xcf584c4a39becb6a5bb1fc20ed00d153842fe329b3d63b52a05a6e1b1a2c8309,
   0xd2f3ff1021dab6bcf5389d928f40a351a89f3c507f02f94585334d43fbaaefd0,
   0xdb0b5ede14b8ee4688902a22dc4f816073195d643d7ea7c41744975fec130ccd,
   0x08ae7a65eaf4566ca94ed58d6d37c8e779e4959162acd3c25c2406490a3a32e0,
   0x9e1dc186b95735610ef6034866b53e708a8bbd4b1f74dde8c6b4a61c2e2578ba,
   0x16bb54b00f2d99416842e6bf0d89a18cdf2855cee9871e9b948ed9691198f8e1]
def aesInvBox : List Nat :=
  [0xcbe9dec444438e3487ff2f9b8239e37cfbd7f3819ea340bf38a53630d56a0952,
   0x25d18b6d49a25b76b224d92866a12e084ec3fa420b954cee3d23c2a632947b54,
   0x849d8da75746155edab9edfd5048706c92b6655dcc5ca4d41698688664f6f872,
   0x6b8a130103bdafc1020f3fca8f1e2cd00645b3b80558e4f70ad3bc8c00abd890,
   0x6edf751ce837f9e28535ade72274ac9673e6b4f0cecff297eadc674f4111913a,
   0xf45acd78fec0db9a2079d2c64b3e56fc1bbe18aa0e62b76f89c5291d711af147,
   0xef9cc9939f7ae52d0d4ab519a97f51605fec8027591012b131c7078833a8dd1f,
   0x7d0c2155631469e126d677ba7e042b17619953833cbbebc8b0f52aae4d3be0a0]

def sub8 (x : Nat) : Nat := packed aesBox 1 x
def invSub8 (x : Nat) : Nat := packed aesInvBox 1 x

/-- Multiplication by x in GF(2^8), and by a small factor. -/
def xtime (a : Nat) : Nat := if a < 128 then 2 * a else (2 * a - 256) ^^^ 0x1b
def gmul (k a : Nat) : Nat :=
  (if k % 2 = 1 then a else 0) ^^^ (if k / 2 % 2 = 1 then xtime a else 0) ^^^
    (if k / 4 % 2 = 1 then xtime (xtime a) else 0) ^^^ (if k / 8 % 2 = 1 then xtime (xtime (xtime a)) else 0)

def xorList (a b : List Nat) : List Nat := List.zipWith (· ^^^ ·) a b

/-- One more word of the key schedule: `ws` holds the words so far, the latest first. -/
def nextWord (nk i : Nat) (ws : List (List Nat)) (rcon : Nat) : List Nat :=
  let prev := nth [] ws 0
  let t :=
    if i % nk = 0 then xorList ((prev.drop 1 ++ prev.take 1).map sub8) [rcon, 0, 0, 0]
    else if 6 < nk ∧ i % nk = 4 then prev.map sub8 else prev
  xorList (nth [] ws (nk - 1)) t

def schedule (fuel nk i : Nat) (ws : List (List Nat)) (rcon : Nat) : List (List Nat) :=
  match fuel with
  | 0 => ws
  | fuel + 1 => schedule fuel nk (i + 1) (nextWord nk i ws rcon :: ws) (if i % nk = 0 then xtime rcon else rcon)

/-- Round keys of a key of 16 or 32 bytes, in order. -/
def roundKeys (key : List Nat) : List (List Nat) :=
  let nk := key.length / 4
  ((pieces 16 (schedule (4 * (nk + 7) - nk) nk nk (pieces 4 key).reverse 1).reverse.flatten))

/-- The bytes of a state, column by column, in another order. -/
def pick (l : List Nat) (s : List Nat) : List Nat := l.map (fun i => nth 0 s i)
def shiftRows (s : List Nat) : List Nat := pick [0, 5, 10, 15, 4, 9, 14, 3, 8, 13, 2, 7, 12, 1, 6, 11] s
def invShiftRows (s : List Nat) : List Nat := pick [0, 13, 10, 7, 4, 1, 14, 11, 8, 5, 2, 15, 12, 9, 6, 3] s

/-- A product of the column matrix whose first row is 2, 3, 1, 1, and of its inverse, whose first row is 14, 11, 13, 9. -/
def mixColumns (s : List Nat) : List Nat :=
  match s with
  | a :: b :: c :: d :: t =>
    (xtime (a ^^^ b) ^^^ b ^^^ c ^^^ d) :: (xtime (b ^^^ c) ^^^ c ^^^ d ^^^ a) :: (xtime (c ^^^ d) ^^^ d ^^^ a ^^^ b) ::
      (xtime (d ^^^ a) ^^^ a ^^^ b ^^^ c) :: mixColumns t
  | _ => []
def invMixColumns (s : List Nat) : List Nat :=
  match s with
  | a :: b :: c :: d :: t =>
    (gmul 14 a ^^^ gmul 11 b ^^^ gmul 13 c ^^^ gmul 9 d) :: (gmul 9 a ^^^ gmul 14 b ^^^ gmul 11 c ^^^ gmul 13 d) ::
      (gmul 13 a ^^^ gmul 9 b ^^^ gmul 14 c ^^^ gmul 11 d) :: (gmul 11 a ^^^ gmul 13 b ^^^ gmul 9 c ^^^ gmul 14 d) :: invMixColumns t
  | _ => []

def aesRounds (ks : List (List Nat)) (s : List Nat) : List Nat :=
  match ks with
  | [] => s
  | [k] => xorList (shiftRows (s.map sub8)) k
  | k :: t => aesRounds t (xorList (mixColumns (shiftRows (s.map sub8))) k)

def aesInvRounds (ks : List (List Nat)) (s : List Nat) : List Nat :=
  match ks with
  | [] => s
  | [k] => xorList ((invShiftRows s).map invSub8) k
  | k :: t => aesInvRounds t (invMixColumns (xorList ((invShiftRows s).map invSub8) k))

/-- Encrypt, or decrypt, one block of 16 bytes. -/
def aesEnc (key blk : List Byte) : List Byte :=
  let ks := roundKeys (key.map (·.toNat))
  (aesRounds (ks.drop 1) (xorList (blk.map (·.toNat)) (nth [] ks 0))).map (BitVec.ofNat 8)
def aesDec (key blk : List Byte) : List Byte :=
  let ks := (roundKeys (key.map (·.toNat))).reverse
  (aesInvRounds (ks.drop 1) (xorList (blk.map (·.toNat)) (nth [] ks 0))).map (BitVec.ofNat 8)

def xorBytes (a b : List Byte) : List Byte := List.zipWith (· ^^^ ·) a b
def pad16 (l : List Byte) : List Byte := l ++ List.replicate ((16 - l.length % 16) % 16) 0#8

/-! ### CCM -/

/-- CBC-MAC of blocks from state `x`. -/
def cbcMac (key : List Byte) (blks : List (List Byte)) (x : List Byte) : List Byte :=
  match blks with
  | [] => x
  | b :: t => cbcMac key t (aesEnc key (xorBytes x b))

/-- Key stream blocks of CCM with a 13-byte nonce, from counter `i`. -/
def ccmStream (key nonce : List Byte) (n i : Nat) : List Byte :=
  match n with
  | 0 => []
  | n + 1 => aesEnc key ([1#8] ++ nonce ++ beBytes 2 i) ++ ccmStream key nonce n (i + 1)

/-- The tag of CCM, encrypted, of `t` bytes. -/
def ccmTag (key nonce aad msg : List Byte) (t : Nat) : List Byte :=
  let flags := (if aad.isEmpty then 0 else 64) + 8 * ((t - 2) / 2) + 1
  let b0 := [BitVec.ofNat 8 flags] ++ nonce ++ beBytes 2 msg.length
  let a := if aad.isEmpty then [] else pad16 (beBytes 2 aad.length ++ aad)
  let mac := cbcMac key (pieces 16 (b0 ++ a ++ pad16 msg)) (List.replicate 16 0#8)
  (xorBytes mac (ccmStream key nonce 1 0)).take t

def ccmCrypt (key nonce msg : List Byte) : List Byte :=
  xorBytes msg (ccmStream key nonce (msg.length / 16 + 1) 1)

/-- CCM encryption: ciphertext and tag. -/
def ccmEnc (key nonce aad msg : List Byte) (t : Nat) : List Byte :=
  ccmCrypt key nonce msg ++ ccmTag key nonce aad msg t

/-- CCM decryption: the plaintext, if the tag holds. -/
def ccmDec (key nonce aad ct : List Byte) (t : Nat) : Option (List Byte) :=
  let c := ct.take (ct.length - t)
  let m := ccmCrypt key nonce c
  if t ≤ ct.length ∧ ccmTag key nonce aad m t = ct.drop (ct.length - t) then some m else none

/-! ### GCM -/

/-- Multiplication in GF(2^128) as GCM orders its bits. -/
def gfMul (fuel x z v : Nat) : Nat :=
  match fuel with
  | 0 => z
  | fuel + 1 =>
    gfMul fuel x (if bit x fuel then z ^^^ v else z) (if v % 2 = 1 then (v / 2) ^^^ (0xe1 * 2 ^ 120) else v / 2)

def ghash (h : Nat) (blks : List (List Byte)) (y : Nat) : Nat :=
  match blks with
  | [] => y
  | b :: t => ghash h t (gfMul 128 (y ^^^ beNat b) 0 h)

def gcmStream (key iv : List Byte) (n i : Nat) : List Byte :=
  match n with
  | 0 => []
  | n + 1 => aesEnc key (iv ++ beBytes 4 i) ++ gcmStream key iv n (i + 1)

def gcmTag (key iv aad ct : List Byte) (t : Nat) : List Byte :=
  let h := beNat (aesEnc key (List.replicate 16 0#8))
  let y := ghash h (pieces 16 (pad16 aad ++ pad16 ct ++ beBytes 8 (8 * aad.length) ++ beBytes 8 (8 * ct.length))) 0
  (xorBytes (beBytes 16 y) (gcmStream key iv 1 1)).take t

def gcmCrypt (key iv msg : List Byte) : List Byte := xorBytes msg (gcmStream key iv (msg.length / 16 + 1) 2)

/-- GCM encryption with a 12-byte IV: ciphertext and tag. -/
def gcmEnc (key iv aad msg : List Byte) (t : Nat) : List Byte :=
  let c := gcmCrypt key iv msg
  c ++ gcmTag key iv aad c t

/-- GCM decryption: the plaintext, if the tag holds. -/
def gcmDec (key iv aad ct : List Byte) (t : Nat) : Option (List Byte) :=
  let c := ct.take (ct.length - t)
  if t ≤ ct.length ∧ gcmTag key iv aad c t = ct.drop (ct.length - t) then some (gcmCrypt key iv c) else none

/-! ### CMAC and key wrap -/

def cmacDouble (x : Nat) : Nat := if x < 2 ^ 127 then 2 * x else (2 * x - 2 ^ 128) ^^^ 0x87

/-- CMAC, `t` bytes. -/
def cmac (key msg : List Byte) (t : Nat) : List Byte :=
  let k1 := cmacDouble (beNat (aesEnc key (List.replicate 16 0#8)))
  let whole := msg ≠ [] ∧ msg.length % 16 = 0
  let n := if whole then msg.length - 16 else msg.length - msg.length % 16
  let last := if whole then xorBytes (msg.drop n) (beBytes 16 k1)
    else xorBytes (pad16 (msg.drop n ++ [0x80#8])) (beBytes 16 (cmacDouble k1))
  (cbcMac key (pieces 16 (msg.take n) ++ [last]) (List.replicate 16 0#8)).take t

/-- One pass of key wrap over the semiblocks: `t` is the step number. -/
def kwPass (key : List Byte) (a : List Byte) (r : List (List Byte)) (t : Nat) : List Byte × List (List Byte) :=
  match r with
  | [] => (a, [])
  | b :: rest =>
    let x := aesEnc key (a ++ b)
    let p := kwPass key (xorBytes (x.take 8) (beBytes 8 t)) rest (t + 1)
    (p.1, x.drop 8 :: p.2)

def kwPasses (key : List Byte) (fuel : Nat) (a : List Byte) (r : List (List Byte)) (t : Nat) : List Byte :=
  match fuel with
  | 0 => a ++ r.flatten
  | fuel + 1 => let p := kwPass key a r t; kwPasses key fuel p.1 p.2 (t + r.length)

/-- AES key wrap (KW). -/
def keyWrap (key msg : List Byte) : List Byte := kwPasses key 6 (List.replicate 8 0xA6#8) (pieces 8 msg) 1

/-- One pass of key unwrap, over the semiblocks from the last to the first. -/
def kuPass (key : List Byte) (a : List Byte) (r : List (List Byte)) (t : Nat) : List Byte × List (List Byte) :=
  match r with
  | [] => (a, [])
  | b :: rest =>
    let x := aesDec key (xorBytes a (beBytes 8 t) ++ b)
    let p := kuPass key (x.take 8) rest (t - 1)
    (p.1, x.drop 8 :: p.2)

def kuPasses (key : List Byte) (fuel : Nat) (a : List Byte) (r : List (List Byte)) (t : Nat) : List Byte × List Byte :=
  match fuel with
  | 0 => (a, r.reverse.flatten)
  | fuel + 1 => let p := kuPass key a r t; kuPasses key fuel p.1 p.2 (t - r.length)

/-- AES key unwrap: the plaintext, if the integrity value holds. -/
def keyUnwrap (key blob : List Byte) : Option (List Byte) :=
  let r := (pieces 8 (blob.drop 8)).reverse
  let p := kuPasses key 6 (blob.take 8) r (6 * r.length)
  if p.1 = List.replicate 8 0xA6#8 then some p.2 else none

/-! ### SHA-256 -/

def shaK : List Nat :=
  [0xab1c5ed5923f82a459f111f13956c25be9b5dba5b5c0fbcf71374491428a2f98,
   0xc19bf1749bdc06a780deb1fe72be5d74550c7dc3243185be12835b01d807aa98,
   0x76f988da5cb0a9dc4a7484aa2de92c6f240ca1cc0fc19dc6efbe4786e49b69c1,
   0x1429296706ca6351d5a79147c6e00bf3bf597fc7b00327c8a831c66d983e5152,
   0x92722c8581c2c92e766a0abb650a735453380d134d2c6dfc2e1b213827b70a85,
   0x106aa070f40e3585d6990624d192e819c76c51a3c24b8b70a81a664ba2bfe8a1,
   0x682e6ff35b9cca4f4ed8aa4a391c0cb334b0bcb52748774c1e376c0819a4c116,
   0xc67178f2bef9a3f7a4506ceb90befffa8cc7020884c8781478a5636f748f82ee]
def shaInit : List Nat :=
  [0x6a09e667, 0xbb67ae85, 0x3c6ef372, 0xa54ff53a, 0x510e527f, 0x9b05688c, 0x1f83d9ab, 0x5be0cd19]

def rotr (x n : Nat) : Nat := (x >>> n ||| (x * 2 ^ (32 - n))) % 2 ^ 32

/-- The message schedule, the latest word first. -/
def shaSchedule (fuel : Nat) (w : List Nat) : List Nat :=
  match fuel with
  | 0 => w
  | fuel + 1 =>
    let a := nth 0 w 14
    let b := nth 0 w 1
    let s0 := rotr a 7 ^^^ rotr a 18 ^^^ (a >>> 3)
    let s1 := rotr b 17 ^^^ rotr b 19 ^^^ (b >>> 10)
    shaSchedule fuel ((nth 0 w 15 + s0 + nth 0 w 6 + s1) % 2 ^ 32 :: w)

def shaRounds (w : List Nat) (i a b c d e f g h : Nat) : List Nat :=
  match w with
  | [] => [a, b, c, d, e, f, g, h]
  | x :: t =>
    let s1 := rotr e 6 ^^^ rotr e 11 ^^^ rotr e 25
    let ch := (e &&& f) ^^^ ((2 ^ 32 - 1 - e) &&& g)
    let t1 := h + s1 + ch + packed shaK 4 i + x
    let s0 := rotr a 2 ^^^ rotr a 13 ^^^ rotr a 22
    let maj := (a &&& b) ^^^ (a &&& c) ^^^ (b &&& c)
    shaRounds t (i + 1) ((t1 + s0 + maj) % 2 ^ 32) a b c ((d + t1) % 2 ^ 32) e f g

def shaBlock (hs : List Nat) (blk : List Byte) : List Nat :=
  let w := (shaSchedule 48 ((pieces 4 blk).map beNat).reverse).reverse
  let g := fun i => nth 0 hs i
  List.zipWith (fun x y => (x + y) % 2 ^ 32) hs (shaRounds w 0 (g 0) (g 1) (g 2) (g 3) (g 4) (g 5) (g 6) (g 7))

/-- SHA-256, 32 bytes. -/
def sha256 (msg : List Byte) : List Byte :=
  let z := (119 - msg.length % 64) % 64
  let padded := msg ++ [0x80#8] ++ List.replicate z 0#8 ++ beBytes 8 (8 * msg.length)
  ((pieces 64 padded).foldl shaBlock shaInit).flatMap (beBytes 4)

/-- The one-step KDF with SHA-256: `n` bytes, at most 32 (R282). -/
def kdf (z info : List Byte) (n : Nat) : List Byte := (sha256 (beBytes 4 1 ++ z ++ info)).take n

/-! ### P-256 -/

def p256p : Nat := 2 ^ 256 - 2 ^ 224 + 2 ^ 192 + 2 ^ 96 - 1
def p256n : Nat := 0xffffffff00000000ffffffffffffffffbce6faada7179e84f3b9cac2fc632551
def p256b : Nat := 0x5ac635d8aa3a93e7b3ebbd55769886bc651d06b0cc53b0f63bce3c3e27d2604b
def p256g : Option (Nat × Nat) :=
  some (0x6b17d1f2e12c4247f8bce6e563a440f277037d812deb33a0f4a13945d898c296,
    0x4fe342e2fe1a7f9b8ee7eb4a7c0f9e162bce33576b315ececbb6406837bf51f5)

/-- `x^e` modulo `m`, `e` below `2^fuel`. -/
def powMod (m : Nat) (fuel e x acc : Nat) : Nat :=
  match fuel with
  | 0 => acc
  | fuel + 1 => powMod m fuel (e / 2) (x * x % m) (if e % 2 = 1 then acc * x % m else acc)

/-- The inverse of `x` modulo a prime of 256 bits. -/
def invMod (m x : Nat) : Nat := powMod m 256 (m - 2) (x % m) 1

def subMod (m a b : Nat) : Nat := (a + m - b % m) % m

/-- Addition of points; none is the point at infinity. -/
def ecAdd (a b : Option (Nat × Nat)) : Option (Nat × Nat) :=
  match a, b with
  | none, _ => b
  | _, none => a
  | some (x1, y1), some (x2, y2) =>
    if x1 = x2 ∧ (y1 + y2) % p256p = 0 then none
    else
      let l := if x1 = x2 then (3 * subMod p256p (x1 * x1) 1) * invMod p256p (2 * y1) % p256p
        else subMod p256p y2 y1 * invMod p256p (subMod p256p x2 x1) % p256p
      let x3 := subMod p256p (l * l) (x1 + x2)
      some (x3, subMod p256p (l * subMod p256p x1 x3) y1)

/-- `k` times a point, `k` below `2^fuel`. -/
def ecMulFuel (fuel k : Nat) (p acc : Option (Nat × Nat)) : Option (Nat × Nat) :=
  match fuel with
  | 0 => acc
  | fuel + 1 => ecMulFuel fuel (k / 2) (ecAdd p p) (if k % 2 = 1 then ecAdd acc p else acc)
def ecMul (k : Nat) (p : Option (Nat × Nat)) : Option (Nat × Nat) := ecMulFuel 256 k p none

/-- A public key is fully valid: on the curve, its coordinates in range (the curve's order is prime). -/
def ecValid (x y : Nat) : Bool :=
  decide (x < p256p ∧ y < p256p ∧ (y * y) % p256p = (x * x * x + p256b + 3 * (p256p - x % p256p)) % p256p)

/-- The public key of a private scalar: X and Y, 64 bytes. -/
def ecPublic (d : Nat) : List Byte :=
  match ecMul d p256g with
  | none => List.replicate 64 0#8
  | some (x, y) => beBytes 32 x ++ beBytes 32 y

/-- ECDSA signature r and s of a digest under nonce `k`; none if r or s is 0. -/
def ecdsaSign (d k : Nat) (digest : List Byte) : Option (List Byte) :=
  match ecMul k p256g with
  | none => none
  | some (x, _) =>
    let r := x % p256n
    let s := invMod p256n k * (beNat digest + r * d) % p256n
    if r = 0 ∨ s = 0 then none else some (beBytes 32 r ++ beBytes 32 s)

/-- ECDSA verification of a digest. -/
def ecdsaVerify (x y r s : Nat) (digest : List Byte) : Bool :=
  if r = 0 ∨ p256n ≤ r ∨ s = 0 ∨ p256n ≤ s then false
  else
    let w := invMod p256n s
    match ecAdd (ecMul (beNat digest * w % p256n) p256g) (ecMul (r * w % p256n) (some (x, y))) with
    | none => false
    | some (vx, _) => decide (vx % p256n = r)

end Sys2Proof.Machine
end

