-- ==== Sys2Proof/Config.lean ====
section
/-! DEFINITION. What the specification leaves open, as constants without a body: nothing can evaluate one
or prove a value of one. The meanings apply each to State.freeCtr, which every use advances (log 3). -/

namespace Sys2Proof.Config

/-- A choice the specification leaves open; every use bounds it as its rule says. -/
opaque freeNat : Nat → Nat

/-- A bit string of free contents: random bytes, or the data of a word with three or more bits in error. -/
opaque freeByte : Nat → Nat → BitVec 8

/-- Symbols per mains cycle of a custom grid, in sixths: no field of an ingot gives S (R18, R64). It is a choice
that goes with the grid's LP_DEC and LP_NCO; slotsOf bounds it. -/
opaque customSlots : Nat → Nat → Nat

/-- Whether output stream port `core × 4 + port` sends complex samples: no rule says what decides it (R158, R186). -/
opaque complexOut : Nat → Bool

/-- A fast sample of the CIC's output: its scale is given to within 0.1 dB (R112). -/
opaque cicScale : Int → BitVec 24

/-- A half-band stage with so many stages after it, the last of which compensates the CIC's droop (R110): from its state and two inputs its
next state and an output. The rules give its passband, not its coefficients. -/
opaque halfBand : Nat → List Int → Int → Int → List Int × Int

/-- An IIR tile of these coefficients (R157): from its state and an input its next state and an output. The rules give the width of the state,
not its form. -/
opaque iir : List (BitVec 24) → List (BitVec 48) → Int → List (BitVec 48) × BitVec 24

/-- The metering program's resampling of a cycle (R124): from its fine samples, the time of the first after the crossing and the period, both in
thirds of 1/256 converter sample, point k of 128. No rule gives its interpolation. -/
opaque resample : List Int → Int → Int → Nat → Int

end Sys2Proof.Config
end

