-- ==== Sys2Proof/Machine/Regs.lean ====
section
/-! DEFINITION. The register table of the MZG-256 (R345, R351): every register with its address, its range,
its reset value, its reset class (R350) and the access code of each field (R5), as the field tables of
the chapters give them; and the names of the registers and fields that the meanings use. -/

namespace Sys2Proof.Machine

/-- The access codes of R5. -/
inductive Access where
  | rw | ro | wo | w1c | w1s | rc | rwp | rwf
  deriving DecidableEq, Repr

/-- The reset classes of R350. -/
inductive RClass where
  | v | k | q | o
  deriving DecidableEq, Repr

/-- One field of a register: bits `hi` down to `lo`, and its access code. -/
structure FieldDesc where
  hi : Nat
  lo : Nat
  acc : Access
  deriving DecidableEq, Repr

/-- One register, or one array of registers: `dims` gives count and stride, the outer index first. -/
structure RegDesc where
  name : String
  base : Nat
  dims : List (Nat × Nat)
  reset : Nat
  cls : RClass
  fields : List FieldDesc
  deriving DecidableEq, Repr

/-- A field of one register: its register's address and its bits. -/
structure Fld where
  addr : Nat
  hi : Nat
  lo : Nat
  deriving DecidableEq, Repr

/-- Registers of block LP (R351). -/
def regsLpA : List RegDesc := [
  ⟨"LP_CFG", 0x80000, [(4, 0x1000)], 0, .q, [⟨8, 8, .rw⟩, ⟨3, 3, .rwf⟩, ⟨2, 1, .rwf⟩, ⟨0, 0, .rwf⟩]⟩,
  ⟨"LP_STAT", 0x80004, [(4, 0x1000)], 0, .q, [⟨7, 7, .ro⟩, ⟨6, 3, .ro⟩, ⟨2, 2, .ro⟩, ⟨1, 1, .ro⟩, ⟨0, 0, .ro⟩]⟩,
  ⟨"LP_EVT", 0x80008, [(4, 0x1000)], 0, .q, [⟨9, 9, .w1c⟩, ⟨8, 8, .w1c⟩, ⟨7, 7, .w1c⟩, ⟨6, 6, .w1c⟩, ⟨5, 5, .w1c⟩, ⟨4, 4, .w1c⟩, ⟨3, 3, .w1c⟩, ⟨2, 2, .w1c⟩, ⟨1, 1, .w1c⟩, ⟨0, 0, .w1c⟩]⟩,
  ⟨"LP_EVT_EN", 0x8000c, [(4, 0x1000)], 0, .q, [⟨9, 9, .rw⟩, ⟨8, 8, .rw⟩, ⟨7, 7, .rw⟩, ⟨6, 6, .rw⟩, ⟨5, 5, .rw⟩, ⟨4, 4, .rw⟩, ⟨3, 3, .rw⟩, ⟨2, 2, .rw⟩, ⟨1, 1, .rw⟩, ⟨0, 0, .rw⟩]⟩,
  ⟨"LP_PGA", 0x80010, [(4, 0x1000)], 0x33098, .q, [⟨31, 31, .rw⟩, ⟨30, 26, .ro⟩, ⟨25, 21, .rw⟩, ⟨20, 15, .rw⟩, ⟨14, 9, .rw⟩, ⟨8, 7, .rw⟩, ⟨6, 0, .rw⟩]⟩,
  ⟨"LP_DEC", 0x80014, [(4, 0x1000)], 0x300f1000, .q, [⟨30, 24, .rwf⟩, ⟨22, 16, .rwf⟩, ⟨14, 8, .rwf⟩]⟩,
  ⟨"LP_NCO", 0x80018, [(4, 0x1000)], 0x32a00, .q, [⟨23, 0, .rwf⟩]⟩,
  ⟨"LP_BANK", 0x8001c, [(4, 0x1000)], 0x100, .q, [⟨31, 31, .wo⟩, ⟨30, 30, .ro⟩, ⟨29, 29, .ro⟩, ⟨28, 28, .ro⟩, ⟨12, 0, .rw⟩]⟩,
  ⟨"LP_COEF_IDX", 0x80020, [(4, 0x1000)], 0, .q, [⟨10, 10, .rw⟩, ⟨9, 9, .rw⟩, ⟨8, 0, .rw⟩]⟩,
  ⟨"LP_COEF_DATA", 0x80024, [(4, 0x1000)], 0, .q, [⟨23, 0, .rw⟩]⟩,
  ⟨"LP_LIM", 0x80028, [(4, 0x1000)], 0, .q, [⟨31, 29, .rwf⟩, ⟨28, 28, .rwf⟩, ⟨25, 16, .rwf⟩, ⟨9, 0, .rwf⟩]⟩,
  ⟨"LP_PERMIT_LO", 0x8002c, [(4, 0x1000)], 0, .q, [⟨31, 0, .rwf⟩]⟩,
  ⟨"LP_PERMIT_HI", 0x80030, [(4, 0x1000)], 0, .q, [⟨31, 0, .rwf⟩]⟩,
  ⟨"LP_CREST", 0x80034, [(4, 0x1000)], 0x10, .q, [⟨31, 31, .rw⟩, ⟨4, 0, .rw⟩]⟩,
  ⟨"LP_TXEN", 0x80038, [(4, 0x1000)], 0x404, .q, [⟨15, 8, .rw⟩, ⟨7, 0, .rw⟩]⟩,
  ⟨"LP_ISNS", 0x8003c, [(4, 0x1000)], 0, .q, [⟨23, 16, .rw⟩, ⟨11, 0, .rw⟩]⟩,
  ⟨"LP_CANC", 0x80040, [(4, 0x1000)], 0, .q, [⟨31, 30, .ro⟩, ⟨29, 29, .rw⟩, ⟨28, 28, .wo⟩, ⟨15, 8, .ro⟩]⟩,
  ⟨"LP_BLK_LO", 0x80044, [(4, 0x1000)], 0, .q, [⟨31, 0, .ro⟩]⟩,
  ⟨"LP_BLK_HI", 0x80048, [(4, 0x1000)], 0, .q, [⟨31, 0, .ro⟩]⟩,
  ⟨"LP_TXACT_LO", 0x8004c, [(4, 0x1000)], 0, .q, [⟨31, 0, .ro⟩]⟩]

/-- Registers of block LP (R351), continued. -/
def regsLpB : List RegDesc := [
  ⟨"LP_TXACT_HI", 0x80050, [(4, 0x1000)], 0, .q, [⟨31, 0, .ro⟩]⟩,
  ⟨"LP_ZCAL", 0x80054, [(4, 0x1000)], 0x1000100, .q, [⟨31, 16, .rwf⟩, ⟨15, 0, .rwf⟩]⟩,
  ⟨"LP_ZPROBE", 0x80058, [(4, 0x1000)], 0, .q, [⟨31, 31, .wo⟩, ⟨30, 30, .ro⟩, ⟨29, 29, .ro⟩, ⟨24, 24, .rw⟩, ⟨5, 0, .rw⟩]⟩,
  ⟨"LP_ZRES", 0x8005c, [(4, 0x1000)], 0, .q, [⟨31, 16, .ro⟩, ⟨15, 0, .ro⟩]⟩,
  ⟨"LP_PGACAL", 0x80100, [(4, 0x1000), (31, 4)], 0, .o, [⟨23, 0, .ro⟩]⟩,
  ⟨"LP_MAINS", 0x80060, [(4, 0x1000)], 0x194000, .q, [⟨31, 24, .rw⟩, ⟨23, 16, .rw⟩, ⟨15, 11, .rw⟩, ⟨8, 8, .rwf⟩, ⟨1, 0, .rwf⟩]⟩,
  ⟨"LP_MSTAT", 0x80064, [(4, 0x1000)], 0, .q, [⟨31, 30, .ro⟩, ⟨23, 16, .ro⟩, ⟨13, 8, .ro⟩, ⟨7, 0, .ro⟩]⟩,
  ⟨"LP_MPER", 0x80068, [(4, 0x1000)], 0, .q, [⟨31, 0, .ro⟩]⟩,
  ⟨"LP_MCYC", 0x80070, [(4, 0x1000)], 0, .q, [⟨31, 0, .ro⟩]⟩,
  ⟨"LP_MEVT", 0x80074, [(4, 0x1000)], 0, .q, [⟨20, 16, .rw⟩, ⟨4, 4, .w1c⟩, ⟨3, 3, .w1c⟩, ⟨2, 2, .w1c⟩, ⟨1, 1, .w1c⟩, ⟨0, 0, .w1c⟩]⟩,
  ⟨"LP_TXSCH", 0x80078, [(4, 0x1000)], 0x80000004, .q, [⟨31, 31, .rw⟩, ⟨3, 0, .rw⟩]⟩,
  ⟨"LP_PHREF", 0x8007c, [(4, 0x1000)], 0xffffffff, .q, [⟨31, 24, .ro⟩, ⟨23, 16, .ro⟩, ⟨15, 8, .ro⟩, ⟨7, 0, .ro⟩]⟩,
  ⟨"LP_NMAP_CFG", 0x80080, [(4, 0x1000)], 0xa4, .q, [⟨31, 31, .wo⟩, ⟨30, 30, .rw⟩, ⟨7, 4, .rw⟩, ⟨3, 0, .rw⟩]⟩,
  ⟨"LP_NMAP_IDX", 0x80084, [(4, 0x1000)], 0, .q, [⟨14, 14, .rw⟩, ⟨13, 8, .rw⟩, ⟨3, 0, .rw⟩]⟩,
  ⟨"LP_NMAP_DATA", 0x80088, [(4, 0x1000)], 0, .q, [⟨31, 24, .ro⟩, ⟨23, 16, .ro⟩, ⟨15, 8, .ro⟩, ⟨7, 0, .ro⟩]⟩,
  ⟨"LP_BCN", 0x8008c, [(4, 0x1000)], 0x32, .q, [⟨31, 31, .rw⟩, ⟨7, 0, .rw⟩]⟩,
  ⟨"LP_JOIN", 0x80090, [(4, 0x1000)], 0, .q, [⟨29, 24, .rw⟩, ⟨21, 16, .rw⟩, ⟨13, 8, .rw⟩, ⟨5, 0, .rw⟩]⟩,
  ⟨"LP_STORM", 0x80094, [(4, 0x1000)], 0x32, .q, [⟨31, 16, .ro⟩, ⟨15, 0, .rw⟩]⟩,
  ⟨"LP_LINK", 0x80098, [(4, 0x1000)], 0x400000, .q, [⟨27, 24, .rw⟩, ⟨23, 16, .rw⟩, ⟨9, 0, .rwf⟩]⟩]

/-- Registers of block LN (R351). -/
def regsLn : List RegDesc := [
  ⟨"LN_CFG", 0x100000, [(256, 0x40)], 0, .q, [⟨31, 31, .rw⟩, ⟨30, 30, .rw⟩, ⟨23, 19, .ro⟩, ⟨18, 16, .ro⟩, ⟨15, 10, .ro⟩, ⟨9, 9, .ro⟩, ⟨8, 8, .ro⟩]⟩,
  ⟨"LN_STAT", 0x100004, [(256, 0x40)], 0, .q, [⟨31, 29, .ro⟩, ⟨28, 28, .ro⟩, ⟨23, 16, .ro⟩, ⟨14, 0, .ro⟩]⟩,
  ⟨"LN_AGC", 0x100008, [(256, 0x40)], 0x3c360000, .q, [⟨31, 24, .rw⟩, ⟨23, 20, .rw⟩, ⟨19, 16, .rw⟩, ⟨15, 15, .rw⟩, ⟨11, 0, .rw⟩]⟩,
  ⟨"LN_GAIN", 0x10000c, [(256, 0x40)], 0, .q, [⟨31, 31, .ro⟩, ⟨30, 26, .ro⟩, ⟨23, 12, .ro⟩, ⟨11, 0, .ro⟩]⟩,
  ⟨"LN_PRE_THR", 0x100010, [(256, 0x40)], 0x30180c30, .q, [⟨31, 24, .rw⟩, ⟨23, 16, .rw⟩, ⟨15, 8, .rw⟩, ⟨7, 0, .rw⟩]⟩,
  ⟨"LN_CAPT", 0x100014, [(256, 0x40)], 0x80000018, .q, [⟨31, 31, .rw⟩, ⟨7, 0, .rw⟩]⟩,
  ⟨"LN_FOFS", 0x100018, [(256, 0x40)], 0, .q, [⟨16, 16, .ro⟩, ⟨15, 0, .ro⟩]⟩,
  ⟨"LN_SNR", 0x10001c, [(256, 0x40)], 0, .q, [⟨31, 24, .ro⟩, ⟨23, 16, .ro⟩, ⟨15, 8, .ro⟩]⟩,
  ⟨"LN_MASK_LO", 0x100020, [(256, 0x40)], 0xffffffff, .q, [⟨31, 0, .rw⟩]⟩,
  ⟨"LN_MASK_HI", 0x100024, [(256, 0x40)], 0xfffffff, .q, [⟨27, 0, .rw⟩]⟩,
  ⟨"LN_TXCFG", 0x100028, [(256, 0x40)], 0, .q, [⟨31, 31, .rw⟩, ⟨30, 29, .rw⟩, ⟨28, 28, .ro⟩, ⟨27, 25, .ro⟩]⟩,
  ⟨"LN_TXLVL", 0x10002c, [(256, 0x40)], 0, .q, [⟨25, 16, .ro⟩, ⟨9, 0, .rw⟩]⟩,
  ⟨"LN_RXQ", 0x100030, [(256, 0x40)], 0, .q, [⟨9, 0, .rwf⟩]⟩,
  ⟨"LN_TXQ", 0x100034, [(256, 0x40)], 0, .q, [⟨9, 0, .rwf⟩]⟩,
  ⟨"LN_CNT_OK", 0x100038, [(256, 0x40)], 0, .q, [⟨31, 0, .rc⟩]⟩,
  ⟨"LN_CNT_ERR", 0x10003c, [(256, 0x40)], 0, .q, [⟨31, 24, .rc⟩, ⟨23, 18, .rc⟩, ⟨17, 12, .rc⟩, ⟨11, 7, .rc⟩, ⟨6, 2, .rc⟩, ⟨1, 0, .rc⟩]⟩]

/-- Registers of block LK (R351). -/
def regsLk : List RegDesc := [
  ⟨"LK_CFG", 0x84000, [], 7, .q, [⟨31, 31, .rw⟩, ⟨22, 16, .rwf⟩, ⟨14, 8, .rwf⟩, ⟨2, 0, .rw⟩]⟩,
  ⟨"LK_REG", 0x84004, [], 0, .q, [⟨31, 18, .ro⟩, ⟨17, 0, .ro⟩]⟩,
  ⟨"LK_EPOCH", 0x84008, [], 0, .q, [⟨31, 31, .wo⟩, ⟨29, 16, .ro⟩, ⟨15, 0, .ro⟩]⟩,
  ⟨"LK_EVT", 0x8400c, [], 0, .q, [⟨20, 16, .rw⟩, ⟨4, 4, .w1c⟩, ⟨3, 3, .w1c⟩, ⟨2, 2, .w1c⟩, ⟨1, 1, .w1c⟩, ⟨0, 0, .w1c⟩]⟩,
  ⟨"LK_CNT", 0x84010, [], 0, .q, [⟨31, 24, .rc⟩, ⟨23, 16, .rc⟩, ⟨15, 8, .rc⟩, ⟨7, 4, .rc⟩, ⟨3, 0, .rc⟩]⟩]

/-- Registers of block MT (R351). -/
def regsMtA : List RegDesc := [
  ⟨"MT_CFG", 0x90000, [], 0, .q, [⟨31, 31, .rwf⟩, ⟨27, 26, .rwf⟩, ⟨25, 24, .rwf⟩, ⟨23, 23, .rwf⟩, ⟨22, 22, .rwf⟩, ⟨7, 0, .rwf⟩]⟩,
  ⟨"MT_SYNC", 0x90004, [], 0, .q, [⟨31, 31, .wo⟩, ⟨15, 8, .ro⟩, ⟨7, 0, .ro⟩]⟩,
  ⟨"MT_STAT", 0x90008, [], 0, .q, [⟨15, 8, .ro⟩, ⟨7, 4, .ro⟩, ⟨0, 0, .ro⟩]⟩,
  ⟨"MT_EVT", 0x9000c, [], 0, .q, [⟨21, 16, .rw⟩, ⟨5, 5, .w1c⟩, ⟨4, 4, .w1c⟩, ⟨3, 3, .w1c⟩, ⟨2, 2, .w1c⟩, ⟨1, 1, .w1c⟩, ⟨0, 0, .w1c⟩]⟩,
  ⟨"MT_CHCFG", 0x90010, [(8, 4)], 0, .q, [⟨31, 31, .rwf⟩, ⟨30, 30, .rwf⟩, ⟨25, 16, .rwf⟩, ⟨9, 0, .rwf⟩]⟩,
  ⟨"MT_FAST", 0x90030, [(8, 4)], 0, .q, [⟨31, 31, .ro⟩, ⟨23, 0, .ro⟩]⟩,
  ⟨"MT_PCFG", 0x90050, [(4, 4)], 0, .q, [⟨31, 31, .rwf⟩, ⟨30, 30, .rwf⟩, ⟨23, 16, .rwf⟩, ⟨5, 4, .rwf⟩, ⟨1, 0, .rwf⟩]⟩,
  ⟨"MT_KE", 0x90060, [(4, 4)], 0, .q, [⟨31, 0, .rw⟩]⟩,
  ⟨"MT_BAL_CFG", 0x90070, [], 0, .q, [⟨31, 31, .rwf⟩, ⟨30, 30, .rw⟩, ⟨25, 16, .rwf⟩, ⟨9, 0, .rwf⟩]⟩,
  ⟨"MT_BAL_WIN", 0x90074, [], 0xbb80bb8, .q, [⟨31, 16, .rwf⟩, ⟨15, 0, .rwf⟩]⟩,
  ⟨"MT_BAL_THR", 0x90078, [], 0x7d007d0, .q, [⟨31, 16, .rw⟩, ⟨15, 0, .rw⟩]⟩,
  ⟨"MT_BAL_STAT", 0x9007c, [], 0, .q, [⟨31, 0, .ro⟩]⟩,
  ⟨"MT_BAL_CNT", 0x90080, [], 0, .q, [⟨31, 24, .rc⟩, ⟨23, 16, .rc⟩, ⟨15, 8, .rc⟩, ⟨7, 4, .rc⟩, ⟨3, 0, .rc⟩]⟩,
  ⟨"MT_PC_LO", 0x90100, [(4, 0x80)], 0, .q, [⟨31, 0, .ro⟩]⟩,
  ⟨"MT_PC_HI", 0x90104, [(4, 0x80)], 0, .q, [⟨31, 0, .ro⟩]⟩,
  ⟨"MT_QC_LO", 0x90108, [(4, 0x80)], 0, .q, [⟨31, 0, .ro⟩]⟩,
  ⟨"MT_QC_HI", 0x9010c, [(4, 0x80)], 0, .q, [⟨31, 0, .ro⟩]⟩,
  ⟨"MT_CYCN", 0x90110, [(4, 0x80)], 0, .q, [⟨31, 0, .ro⟩]⟩,
  ⟨"MT_CYCS", 0x90114, [(4, 0x80)], 0, .q, [⟨31, 31, .ro⟩, ⟨30, 30, .ro⟩, ⟨29, 29, .ro⟩, ⟨15, 0, .ro⟩]⟩,
  ⟨"MT_ACC_LO", 0x90120, [(4, 0x80), (6, 8)], 0, .q, [⟨31, 0, .ro⟩]⟩]

/-- Registers of block MT (R351), continued. -/
def regsMtB : List RegDesc := [
  ⟨"MT_ACC_HI", 0x90124, [(4, 0x80), (6, 8)], 0, .q, [⟨31, 0, .ro⟩]⟩]

/-- Registers of block QP (R351). -/
def regsQp : List RegDesc := [
  ⟨"QP_POOL", 0x60000, [], 0, .q, [⟨31, 16, .ro⟩, ⟨15, 0, .ro⟩]⟩,
  ⟨"QP_FREE", 0x60004, [], 0, .q, [⟨16, 0, .ro⟩]⟩,
  ⟨"QP_EVT", 0x60008, [], 0, .q, [⟨21, 16, .rw⟩, ⟨5, 5, .w1c⟩, ⟨4, 4, .w1c⟩, ⟨3, 3, .w1c⟩, ⟨2, 2, .w1c⟩, ⟨1, 1, .w1c⟩, ⟨0, 0, .w1c⟩]⟩,
  ⟨"QP_CMD", 0x6000c, [], 0, .q, [⟨31, 29, .wo⟩, ⟨9, 0, .wo⟩]⟩,
  ⟨"QP_QSEL", 0x60010, [], 0, .q, [⟨9, 0, .rw⟩]⟩,
  ⟨"QP_QSTAT", 0x60014, [], 0, .q, [⟨31, 31, .ro⟩, ⟨30, 29, .ro⟩, ⟨28, 28, .ro⟩, ⟨27, 27, .ro⟩, ⟨26, 26, .ro⟩, ⟨25, 25, .ro⟩, ⟨24, 24, .ro⟩, ⟨23, 23, .w1c⟩, ⟨22, 22, .w1c⟩, ⟨21, 21, .w1c⟩, ⟨15, 0, .ro⟩]⟩,
  ⟨"QP_QWM", 0x60018, [], 0, .q, [⟨31, 16, .rw⟩, ⟨15, 0, .rw⟩]⟩,
  ⟨"QP_QLVL", 0x6001c, [], 0, .q, [⟨31, 20, .ro⟩, ⟨19, 0, .ro⟩]⟩,
  ⟨"QP_SCRUB", 0x60020, [], 0x80000007, .q, [⟨31, 31, .rw⟩, ⟨23, 8, .ro⟩, ⟨7, 0, .rw⟩]⟩,
  ⟨"QP_ECC_LAST", 0x60024, [], 0, .q, [⟨31, 0, .ro⟩]⟩,
  ⟨"QP_ECC", 0x60040, [(16, 4)], 0, .q, [⟨31, 16, .rc⟩, ⟨15, 8, .rc⟩]⟩,
  ⟨"QP_WIN_CFG", 0x60400, [(64, 0x10)], 0, .k, [⟨31, 31, .rw⟩, ⟨30, 30, .rw⟩, ⟨9, 0, .rw⟩]⟩,
  ⟨"QP_WIN_DATA", 0x60404, [(64, 0x10)], 0, .q, [⟨31, 0, .rw⟩]⟩,
  ⟨"QP_WIN_STAT", 0x60408, [(64, 0x10)], 0, .k, [⟨31, 29, .ro⟩, ⟨28, 28, .ro⟩, ⟨27, 27, .ro⟩, ⟨2, 0, .ro⟩]⟩,
  ⟨"QP_WIN_CMD", 0x6040c, [(64, 0x10)], 0, .q, [⟨31, 31, .wo⟩, ⟨30, 30, .wo⟩, ⟨29, 29, .wo⟩]⟩]

/-- Registers of block FAB (R351). -/
def regsFab : List RegDesc := [
  ⟨"FAB_ID", 0x20000, [], 0x10256, .q, [⟨31, 16, .ro⟩, ⟨15, 0, .ro⟩]⟩,
  ⟨"FAB_STAT", 0x20004, [], 0, .q, [⟨31, 29, .ro⟩, ⟨28, 28, .ro⟩, ⟨27, 24, .ro⟩, ⟨23, 16, .ro⟩, ⟨4, 0, .ro⟩]⟩,
  ⟨"FAB_EVT", 0x20008, [], 0, .q, [⟨18, 16, .rw⟩, ⟨2, 2, .w1c⟩, ⟨1, 1, .w1c⟩, ⟨0, 0, .w1c⟩]⟩,
  ⟨"FAB_LOAD", 0x2000c, [], 0, .q, [⟨31, 31, .wo⟩, ⟨30, 29, .rw⟩, ⟨28, 28, .rw⟩]⟩,
  ⟨"FAB_PUSH", 0x20010, [], 0, .q, [⟨31, 0, .wo⟩]⟩,
  ⟨"FAB_INGOT", 0x20014, [], 0, .q, [⟨31, 0, .ro⟩]⟩,
  ⟨"FAB_PARTIAL", 0x20018, [], 0, .q, [⟨31, 0, .ro⟩]⟩,
  ⟨"FAB_BUILD_LO", 0x2001c, [], 0, .q, [⟨31, 0, .ro⟩]⟩,
  ⟨"FAB_BUILD_HI", 0x20020, [], 0, .q, [⟨31, 0, .ro⟩]⟩,
  ⟨"FAB_TIME", 0x20024, [], 0, .q, [⟨31, 0, .ro⟩]⟩]

/-- Registers of block SEQ (R351). -/
def regsSeq : List RegDesc := [
  ⟨"SEQ_CTL", 0x30000, [(32, 0x100)], 0, .q, [⟨31, 31, .wo⟩, ⟨30, 30, .wo⟩, ⟨29, 29, .wo⟩, ⟨28, 28, .wo⟩, ⟨27, 27, .wo⟩]⟩,
  ⟨"SEQ_STAT", 0x30004, [(32, 0x100)], 0x20000000, .q, [⟨31, 29, .ro⟩, ⟨28, 28, .ro⟩, ⟨27, 24, .ro⟩, ⟨23, 23, .w1c⟩, ⟨22, 22, .w1c⟩, ⟨4, 0, .ro⟩]⟩,
  ⟨"SEQ_CFG", 0x30008, [(32, 0x100)], 0, .q, [⟨31, 31, .ro⟩, ⟨30, 30, .rw⟩, ⟨4, 0, .rw⟩]⟩,
  ⟨"SEQ_PC", 0x3000c, [(32, 0x100)], 0, .q, [⟨31, 2, .rw⟩]⟩,
  ⟨"SEQ_EPC", 0x30010, [(32, 0x100)], 0, .q, [⟨31, 2, .rw⟩]⟩,
  ⟨"SEQ_VEC", 0x30018, [(32, 0x100)], 0, .q, [⟨31, 2, .rw⟩]⟩,
  ⟨"SEQ_EVAL", 0x30014, [(32, 0x100)], 0, .q, [⟨31, 0, .ro⟩]⟩,
  ⟨"SEQ_EV", 0x3001c, [(32, 0x100)], 0, .q, [⟨23, 16, .rw⟩, ⟨7, 0, .w1c⟩]⟩,
  ⟨"SEQ_TIMER", 0x30020, [(32, 0x100)], 0, .q, [⟨31, 31, .rw⟩, ⟨23, 0, .rw⟩]⟩,
  ⟨"SEQ_LANE", 0x30024, [(32, 0x100)], 0, .q, [⟨21, 16, .rw⟩, ⟨7, 0, .rw⟩]⟩,
  ⟨"SEQ_LWIN", 0x30028, [(32, 0x100)], 0, .q, [⟨31, 16, .rw⟩, ⟨15, 0, .rw⟩]⟩,
  ⟨"SEQ_LPEND", 0x3002c, [(32, 0x100)], 0, .q, [⟨31, 0, .rc⟩]⟩,
  ⟨"SEQ_ARG", 0x30030, [(32, 0x100), (4, 4)], 0, .q, [⟨31, 0, .ro⟩]⟩,
  ⟨"SEQ_RET", 0x30040, [(32, 0x100), (2, 4)], 0, .q, [⟨31, 0, .rw⟩]⟩]

/-- Registers of block HP (R351). -/
def regsHp : List RegDesc := [
  ⟨"HP_CFG", 0x50000, [], 0, .q, [⟨31, 31, .rw⟩, ⟨30, 30, .rw⟩]⟩,
  ⟨"HP_STAT", 0x50004, [], 0, .q, [⟨31, 31, .w1c⟩, ⟨30, 30, .w1c⟩, ⟨29, 29, .w1c⟩, ⟨10, 0, .ro⟩]⟩,
  ⟨"HP_IRQ", 0x50008, [], 0, .q, [⟨2, 2, .ro⟩, ⟨1, 1, .ro⟩, ⟨0, 0, .ro⟩]⟩,
  ⟨"HP_IRQ_EN", 0x5000c, [], 0, .q, [⟨2, 2, .rw⟩, ⟨1, 1, .rw⟩, ⟨0, 0, .rw⟩]⟩,
  ⟨"HP_CR_BASE", 0x50010, [], 0, .q, [⟨31, 12, .rw⟩, ⟨3, 0, .rw⟩]⟩,
  ⟨"HP_CPL_BASE", 0x5001c, [], 0, .q, [⟨31, 12, .rw⟩, ⟨3, 0, .rw⟩]⟩,
  ⟨"HP_EV_BASE", 0x50024, [], 0, .q, [⟨31, 12, .rw⟩, ⟨3, 0, .rw⟩]⟩,
  ⟨"HP_CR_IDX", 0x50014, [], 0, .q, [⟨31, 16, .ro⟩, ⟨15, 0, .ro⟩]⟩,
  ⟨"HP_DB", 0x50018, [], 0, .q, [⟨15, 0, .wo⟩]⟩,
  ⟨"HP_CPL_IDX", 0x50020, [], 0, .q, [⟨31, 16, .ro⟩, ⟨15, 0, .rw⟩]⟩,
  ⟨"HP_EV_IDX", 0x50028, [], 0, .q, [⟨31, 16, .ro⟩, ⟨15, 0, .rw⟩]⟩,
  ⟨"HP_EV_LOST", 0x5002c, [], 0, .q, [⟨31, 0, .rc⟩]⟩,
  ⟨"HP_COAL", 0x50030, [], 0x1000100, .q, [⟨31, 24, .rw⟩, ⟨23, 16, .rw⟩, ⟨15, 8, .rw⟩, ⟨7, 0, .rw⟩]⟩]

/-- Registers of block RF (R351). -/
def regsRf : List RegDesc := [
  ⟨"RF_CFG", 0xa0000, [], 0x7140000, .k, [⟨31, 31, .rw⟩, ⟨30, 29, .rwf⟩, ⟨28, 27, .rwf⟩, ⟨26, 24, .rw⟩, ⟨23, 16, .rw⟩, ⟨14, 8, .rwf⟩, ⟨6, 0, .rwf⟩]⟩,
  ⟨"RF_STAT", 0xa0004, [], 0, .k, [⟨31, 29, .ro⟩, ⟨28, 28, .ro⟩, ⟨15, 0, .ro⟩]⟩,
  ⟨"RF_EVT", 0xa0008, [], 0, .k, [⟨22, 16, .rw⟩, ⟨6, 6, .w1c⟩, ⟨5, 5, .w1c⟩, ⟨4, 4, .w1c⟩, ⟨3, 3, .w1c⟩, ⟨2, 2, .w1c⟩, ⟨1, 1, .w1c⟩, ⟨0, 0, .w1c⟩]⟩,
  ⟨"RF_PHY", 0xa000c, [], 0x20000004, .k, [⟨31, 29, .rwf⟩, ⟨28, 28, .rwf⟩, ⟨27, 26, .rwf⟩, ⟨4, 0, .rwf⟩]⟩,
  ⟨"RF_SYNTH", 0xa0010, [], 0, .k, [⟨25, 0, .rwf⟩]⟩,
  ⟨"RF_PWR", 0xa0014, [], 0x1430, .k, [⟨31, 31, .rw⟩, ⟨30, 30, .rw⟩, ⟨15, 8, .rw⟩, ⟨7, 0, .rw⟩]⟩,
  ⟨"RF_NBR", 0xa0018, [], 0, .k, [⟨31, 22, .rwf⟩, ⟨15, 0, .rwf⟩]⟩,
  ⟨"RF_DWELL", 0xa001c, [], 0x190140a, .k, [⟨31, 16, .rw⟩, ⟨15, 8, .rw⟩, ⟨7, 0, .rw⟩]⟩,
  ⟨"RF_FLOOD", 0xa0020, [], 0x85200000, .k, [⟨31, 28, .rw⟩, ⟨27, 25, .rw⟩, ⟨24, 24, .rw⟩, ⟨23, 16, .rw⟩, ⟨5, 0, .rw⟩]⟩,
  ⟨"RF_SNIFF", 0xa0024, [], 0x3e80a00, .k, [⟨31, 16, .rw⟩, ⟨15, 8, .rw⟩, ⟨7, 7, .rw⟩, ⟨5, 0, .rw⟩]⟩,
  ⟨"RF_DISC", 0xa0028, [], 0x3f1f0010, .k, [⟨31, 31, .rw⟩, ⟨30, 30, .rw⟩, ⟨29, 24, .rw⟩, ⟨21, 16, .rw⟩, ⟨13, 8, .rw⟩, ⟨7, 0, .rw⟩]⟩,
  ⟨"RF_LAST", 0xa002c, [], 0, .k, [⟨31, 24, .ro⟩, ⟨23, 16, .ro⟩, ⟨15, 0, .ro⟩]⟩,
  ⟨"RF_CNT", 0xa0030, [], 0, .k, [⟨31, 24, .rc⟩, ⟨23, 16, .rc⟩, ⟨15, 8, .rc⟩, ⟨7, 4, .rc⟩, ⟨3, 0, .rc⟩]⟩,
  ⟨"RF_LCFG", 0xa0100, [(16, 0x20)], 0, .k, [⟨31, 31, .rw⟩, ⟨30, 29, .rw⟩, ⟨28, 26, .ro⟩, ⟨7, 0, .rw⟩]⟩,
  ⟨"RF_LTIME", 0xa0104, [(16, 0x20)], 0x1000064, .k, [⟨31, 16, .rw⟩, ⟨15, 0, .rw⟩]⟩,
  ⟨"RF_LWIN", 0xa0108, [(16, 0x20)], 0xa140000, .k, [⟨31, 24, .rw⟩, ⟨23, 16, .ro⟩, ⟨15, 0, .ro⟩]⟩,
  ⟨"RF_LMAP_LO", 0xa010c, [(16, 0x20)], 0, .k, [⟨31, 0, .rw⟩]⟩,
  ⟨"RF_LMAP_HI", 0xa0110, [(16, 0x20)], 0, .k, [⟨31, 0, .rw⟩]⟩,
  ⟨"RF_LSTAT", 0xa0114, [(16, 0x20)], 0, .k, [⟨31, 16, .ro⟩, ⟨15, 14, .ro⟩, ⟨13, 8, .ro⟩, ⟨7, 0, .ro⟩]⟩]

/-- Registers of block UA (R351). -/
def regsUa : List RegDesc := [
  ⟨"UA_CFG", 0xb0000, [(6, 0x100)], 0x40, .q, [⟨31, 31, .rw⟩, ⟨30, 30, .rw⟩, ⟨29, 28, .rw⟩, ⟨27, 27, .rw⟩, ⟨26, 26, .rw⟩, ⟨25, 25, .rw⟩, ⟨24, 24, .rw⟩, ⟨23, 23, .rw⟩, ⟨22, 22, .rw⟩, ⟨7, 0, .rw⟩]⟩,
  ⟨"UA_BAUD", 0xb0004, [(6, 0x100)], 0x9c40, .q, [⟨31, 31, .rw⟩, ⟨21, 6, .rw⟩, ⟨5, 0, .rw⟩]⟩,
  ⟨"UA_STAT", 0xb0008, [(6, 0x100)], 0, .q, [⟨31, 31, .ro⟩, ⟨30, 30, .ro⟩, ⟨29, 29, .ro⟩, ⟨28, 28, .ro⟩, ⟨27, 27, .ro⟩, ⟨26, 26, .ro⟩, ⟨25, 25, .ro⟩]⟩,
  ⟨"UA_EVT", 0xb000c, [(6, 0x100)], 0, .q, [⟨21, 16, .rw⟩, ⟨5, 5, .w1c⟩, ⟨4, 4, .w1c⟩, ⟨3, 3, .w1c⟩, ⟨2, 2, .w1c⟩, ⟨1, 1, .w1c⟩, ⟨0, 0, .w1c⟩]⟩,
  ⟨"UA_RX", 0xb0010, [(6, 0x100)], 0x400, .q, [⟨25, 16, .rwf⟩, ⟨15, 8, .rw⟩, ⟨7, 0, .rw⟩]⟩,
  ⟨"UA_ADDR", 0xb0014, [(6, 0x100)], 0, .q, [⟨23, 16, .rw⟩, ⟨15, 8, .rw⟩, ⟨0, 0, .rw⟩]⟩,
  ⟨"UA_DE", 0xb0018, [(6, 0x100)], 0x101, .q, [⟨31, 31, .rw⟩, ⟨15, 8, .rw⟩, ⟨7, 0, .rw⟩]⟩,
  ⟨"UA_FLOW", 0xb001c, [(6, 0x100)], 0x2008, .q, [⟨31, 31, .rw⟩, ⟨30, 30, .rw⟩, ⟨15, 8, .rw⟩, ⟨7, 0, .rw⟩]⟩,
  ⟨"UA_OPT", 0xb0020, [(6, 0x100)], 0xa00, .q, [⟨31, 31, .rw⟩, ⟨30, 30, .rw⟩, ⟨29, 29, .rw⟩, ⟨15, 8, .rw⟩]⟩,
  ⟨"UA_CNT", 0xb0024, [(6, 0x100)], 0, .q, [⟨31, 24, .rc⟩, ⟨23, 16, .rc⟩, ⟨15, 8, .rc⟩, ⟨7, 4, .rc⟩, ⟨3, 0, .rc⟩]⟩]

/-- Registers of block CT (R351). -/
def regsCt : List RegDesc := [
  ⟨"CT_CFG", 0xc0000, [], 0x140a64, .v, [⟨31, 31, .rw⟩, ⟨23, 16, .rw⟩, ⟨15, 8, .rw⟩, ⟨7, 0, .rw⟩]⟩,
  ⟨"CT_OUT", 0xc0004, [], 0, .v, [⟨31, 16, .ro⟩, ⟨15, 0, .ro⟩]⟩,
  ⟨"CT_SET", 0xc0008, [], 0, .q, [⟨15, 0, .wo⟩]⟩,
  ⟨"CT_CLR", 0xc000c, [], 0, .q, [⟨15, 0, .wo⟩]⟩,
  ⟨"CT_PAIR", 0xc0010, [], 0, .v, [⟨7, 0, .rw⟩]⟩,
  ⟨"CT_TRIP", 0xc0014, [], 0, .v, [⟨7, 0, .w1c⟩]⟩,
  ⟨"CT_EVT", 0xc0018, [], 0, .q, [⟨20, 16, .rw⟩, ⟨4, 4, .w1c⟩, ⟨3, 3, .w1c⟩, ⟨2, 2, .w1c⟩, ⟨1, 1, .w1c⟩, ⟨0, 0, .w1c⟩]⟩,
  ⟨"CT_DLIM", 0xc001c, [], 0, .q, [⟨31, 28, .rw⟩, ⟨15, 0, .rw⟩]⟩,
  ⟨"CT_DIN", 0xc0020, [], 0, .q, [⟨31, 16, .w1c⟩, ⟨15, 0, .ro⟩]⟩,
  ⟨"CT_GCFG", 0xc0040, [(8, 8)], 0x1000000, .q, [⟨31, 30, .rw⟩, ⟨29, 24, .rw⟩, ⟨15, 0, .rw⟩]⟩,
  ⟨"CT_GMAP", 0xc0044, [(8, 8)], 0, .q, [⟨15, 0, .rw⟩]⟩,
  ⟨"CT_OCFG", 0xc0080, [(16, 4)], 0, .v, [⟨31, 31, .rw⟩, ⟨30, 30, .rw⟩, ⟨29, 29, .rw⟩, ⟨3, 0, .rw⟩]⟩]

/-- Registers of block WD (R351). -/
def regsWd : List RegDesc := [
  ⟨"WD_ID", 0x70000, [], 0, .o, [⟨31, 16, .ro⟩, ⟨15, 0, .ro⟩]⟩,
  ⟨"WD_STAT", 0x70004, [], 0, .q, [⟨31, 30, .ro⟩, ⟨29, 29, .ro⟩, ⟨28, 28, .ro⟩, ⟨27, 27, .ro⟩, ⟨26, 26, .ro⟩, ⟨20, 16, .ro⟩, ⟨6, 0, .ro⟩]⟩,
  ⟨"WD_EVT", 0x70008, [], 0, .q, [⟨23, 16, .rw⟩, ⟨7, 7, .w1c⟩, ⟨6, 6, .w1c⟩, ⟨5, 5, .w1c⟩, ⟨4, 4, .w1c⟩, ⟨3, 3, .w1c⟩, ⟨2, 2, .w1c⟩, ⟨1, 1, .w1c⟩, ⟨0, 0, .w1c⟩]⟩,
  ⟨"WD_PRES", 0x7000c, [], 0x3c0000, .q, [⟨31, 31, .wo⟩, ⟨24, 16, .ro⟩, ⟨8, 0, .ro⟩]⟩,
  ⟨"WD_POLICY", 0x70010, [], 0x40000000, .k, [⟨31, 31, .rwp⟩, ⟨30, 30, .rwp⟩, ⟨29, 29, .rwp⟩]⟩,
  ⟨"WD_CTRWARN", 0x70014, [], 0xfff00000, .q, [⟨31, 0, .rw⟩]⟩,
  ⟨"WD_SLOTSEL", 0x70018, [], 0, .q, [⟨6, 0, .rw⟩]⟩,
  ⟨"WD_SLOT", 0x7001c, [], 0, .q, [⟨31, 30, .ro⟩, ⟨26, 24, .ro⟩, ⟨23, 16, .ro⟩]⟩,
  ⟨"WD_SLOT_VER", 0x70020, [], 0, .q, [⟨31, 0, .ro⟩]⟩,
  ⟨"WD_SLOT_CTR", 0x70024, [], 0, .q, [⟨31, 0, .ro⟩]⟩,
  ⟨"WD_EUI_LO", 0x70028, [], 0, .o, [⟨31, 0, .ro⟩]⟩,
  ⟨"WD_EUI_HI", 0x7002c, [], 0, .o, [⟨31, 0, .ro⟩]⟩,
  ⟨"WD_FLOOR", 0x70030, [], 0, .o, [⟨31, 0, .ro⟩]⟩,
  ⟨"WD_LIFE", 0x70034, [], 0, .o, [⟨20, 16, .ro⟩, ⟨11, 8, .ro⟩, ⟨6, 4, .ro⟩, ⟨1, 1, .ro⟩, ⟨0, 0, .ro⟩]⟩,
  ⟨"WD_MBX_CMD", 0x70040, [], 0, .q, [⟨31, 31, .wo⟩, ⟨7, 0, .wo⟩]⟩,
  ⟨"WD_MBX_STAT", 0x70044, [], 0, .q, [⟨31, 31, .ro⟩, ⟨30, 30, .ro⟩, ⟨23, 16, .ro⟩, ⟨7, 0, .ro⟩]⟩,
  ⟨"WD_MBX_ARG", 0x70048, [(4, 4)], 0, .q, [⟨31, 0, .rw⟩]⟩,
  ⟨"WD_MBX_DATA", 0x70080, [(32, 4)], 0, .q, [⟨31, 0, .rw⟩]⟩]

/-- Registers of block SYS (R351). -/
def regsSys : List RegDesc := [
  ⟨"SYS_ID", 0, [], 0x2560100, .o, [⟨31, 16, .ro⟩, ⟨15, 8, .ro⟩]⟩,
  ⟨"SYS_MODE", 4, [], 0, .k, [⟨27, 24, .ro⟩, ⟨23, 16, .ro⟩, ⟨3, 0, .ro⟩]⟩,
  ⟨"SYS_CTL", 8, [], 0, .q, [⟨31, 31, .wo⟩, ⟨30, 30, .rw⟩, ⟨3, 0, .wo⟩]⟩,
  ⟨"SYS_STRAP", 0xc, [], 0, .o, [⟨1, 1, .ro⟩, ⟨0, 0, .ro⟩]⟩]

/-- Registers of block CLK (R351). -/
def regsClk : List RegDesc := [
  ⟨"CLK_CFG", 0x10000, [], 0x64, .q, [⟨31, 31, .rw⟩, ⟨30, 30, .rw⟩, ⟨15, 0, .rw⟩]⟩,
  ⟨"CLK_STAT", 0x10004, [], 0, .q, [⟨31, 31, .ro⟩, ⟨30, 30, .ro⟩, ⟨29, 29, .ro⟩, ⟨28, 28, .ro⟩, ⟨27, 27, .ro⟩, ⟨1, 0, .ro⟩]⟩]

/-- Registers of block PWR (R351). -/
def regsPwr : List RegDesc := [
  ⟨"PWR_CFG", 0x10008, [], 0x20000078, .k, [⟨31, 31, .rw⟩, ⟨30, 29, .rw⟩, ⟨15, 0, .rw⟩]⟩,
  ⟨"PWR_MAINS", 0x1000c, [], 0x5190021, .k, [⟨31, 24, .rw⟩, ⟨23, 16, .rw⟩, ⟨7, 0, .rw⟩]⟩,
  ⟨"PWR_STAT", 0x10010, [], 0, .k, [⟨31, 31, .ro⟩, ⟨30, 30, .ro⟩, ⟨29, 29, .ro⟩, ⟨19, 16, .ro⟩, ⟨15, 0, .ro⟩]⟩,
  ⟨"PWR_EVT", 0x10014, [], 0, .k, [⟨21, 16, .rw⟩, ⟨5, 5, .w1c⟩, ⟨4, 4, .w1c⟩, ⟨3, 3, .w1c⟩, ⟨2, 2, .w1c⟩, ⟨1, 1, .w1c⟩, ⟨0, 0, .w1c⟩]⟩,
  ⟨"PWR_WAKE", 0x10018, [], 0xd, .k, [⟨3, 3, .rw⟩, ⟨2, 2, .rw⟩, ⟨1, 1, .rw⟩, ⟨0, 0, .rw⟩]⟩,
  ⟨"PWR_RETAIN", 0x1001c, [], 0, .k, [⟨15, 0, .rwf⟩]⟩,
  ⟨"PWR_TEMP", 0x10020, [], 0x73000000, .k, [⟨31, 24, .rw⟩, ⟨7, 0, .ro⟩]⟩,
  ⟨"PWR_RTC_LO", 0x10024, [], 0, .v, [⟨31, 0, .ro⟩]⟩,
  ⟨"PWR_RTC_HI", 0x10028, [], 0, .v, [⟨15, 0, .ro⟩]⟩,
  ⟨"PWR_ALARM", 0x1002c, [], 0, .k, [⟨31, 0, .rw⟩]⟩,
  ⟨"PWR_MCYC", 0x10030, [], 0, .v, [⟨31, 0, .ro⟩]⟩]

/-- Registers of block AL (R351). -/
def regsAl : List RegDesc := [
  ⟨"AL_CFG", 0xd0000, [], 0x40032, .q, [⟨31, 31, .rwf⟩, ⟨23, 16, .rw⟩, ⟨15, 0, .rw⟩]⟩,
  ⟨"AL_STAT", 0xd0004, [], 0, .q, [⟨31, 30, .ro⟩, ⟨29, 28, .ro⟩, ⟨27, 26, .ro⟩, ⟨19, 16, .ro⟩, ⟨13, 0, .ro⟩]⟩,
  ⟨"AL_EVT", 0xd0008, [], 0, .q, [⟨20, 16, .rw⟩, ⟨4, 4, .w1c⟩, ⟨3, 3, .w1c⟩, ⟨2, 2, .w1c⟩, ⟨1, 1, .w1c⟩, ⟨0, 0, .w1c⟩]⟩,
  ⟨"AL_CTL", 0xd000c, [], 0, .q, [⟨31, 31, .rwp⟩]⟩,
  ⟨"AL_SYNC", 0xd0010, [], 0, .q, [⟨31, 0, .ro⟩]⟩,
  ⟨"AL_CNT", 0xd0014, [], 0, .q, [⟨31, 24, .rc⟩, ⟨23, 16, .rc⟩, ⟨15, 8, .rc⟩, ⟨7, 0, .rc⟩]⟩]

/-- Registers of block PM (R351). -/
def regsPm : List RegDesc := [
  ⟨"PM_CTL", 0x40000, [], 0, .q, [⟨31, 31, .rw⟩, ⟨30, 30, .rw⟩]⟩,
  ⟨"PM_SNAP", 0x40004, [], 0, .q, [⟨31, 31, .wo⟩]⟩,
  ⟨"PM_OVF_LO", 0x40008, [], 0, .q, [⟨31, 0, .w1c⟩]⟩,
  ⟨"PM_OVF_HI", 0x4000c, [], 0, .q, [⟨31, 0, .w1c⟩]⟩,
  ⟨"PM_SOVF_LO", 0x40010, [], 0, .q, [⟨31, 0, .ro⟩]⟩,
  ⟨"PM_SOVF_HI", 0x40014, [], 0, .q, [⟨31, 0, .ro⟩]⟩,
  ⟨"PM_SEL", 0x40100, [(64, 0x10)], 0, .q, [⟨31, 31, .rw⟩, ⟨30, 30, .rw⟩, ⟨15, 8, .rw⟩, ⟨4, 0, .rw⟩]⟩,
  ⟨"PM_THR", 0x40104, [(64, 0x10)], 0, .q, [⟨16, 0, .rw⟩]⟩,
  ⟨"PM_CTR_LO", 0x40108, [(64, 0x10)], 0, .q, [⟨31, 0, .rw⟩]⟩,
  ⟨"PM_CTR_HI", 0x4010c, [(64, 0x10)], 0, .q, [⟨15, 0, .rw⟩]⟩,
  ⟨"PM_SHD_LO", 0x40500, [(64, 8)], 0, .q, [⟨31, 0, .ro⟩]⟩,
  ⟨"PM_SHD_HI", 0x40504, [(64, 8)], 0, .q, [⟨15, 0, .ro⟩]⟩]

/-- Every register of the device (R351). -/
def regTable : List RegDesc :=
  regsLpA ++
  regsLpB ++
  regsLn ++
  regsLk ++
  regsMtA ++
  regsMtB ++
  regsQp ++
  regsFab ++
  regsSeq ++
  regsHp ++
  regsRf ++
  regsUa ++
  regsCt ++
  regsWd ++
  regsSys ++
  regsClk ++
  regsPwr ++
  regsAl ++
  regsPm

/-- The index of address `a` in an array of registers that starts at `base`, if it names one of them. -/
def dimIndex (dims : List (Nat × Nat)) (base a : Nat) : Option (List Nat) :=
  match dims with
  | [] => if a = base then some [] else none
  | (count, stride) :: t =>
    if a < base then none
    else
      let i := (a - base) / stride
      if i < count then (dimIndex t (base + i * stride) a).map (i :: ·) else none

/-- The register at address `a`, with its indexes; none where the address is a hole (R346). -/
def regFindIn (l : List RegDesc) (a : Nat) : Option (RegDesc × List Nat) :=
  match l with
  | [] => none
  | d :: t =>
    match dimIndex d.dims d.base a with
    | some ix => some (d, ix)
    | none => regFindIn t a

/-- The rows of the block that holds address `a` (R345: one block per 64 KiB; LP and LK share one). -/
def regBlock (a : Nat) : List RegDesc :=
  match a / 0x10000 with

  | 0 => regsSys
  | 1 => regsClk ++ regsPwr
  | 2 => regsFab
  | 3 => regsSeq
  | 4 => regsPm
  | 5 => regsHp
  | 6 => regsQp
  | 7 => regsWd
  | 8 => regsLpA ++ regsLpB ++ regsLk
  | 9 => regsMtA ++ regsMtB
  | 10 => regsRf
  | 11 => regsUa
  | 12 => regsCt
  | 13 => regsAl
  | 16 => regsLn
  | _ => []

/-- The register that address `a` names (R345, R346). -/
def regFind (a : Nat) : Option (RegDesc × List Nat) := regFindIn (regBlock a) a

/-! ### Names -/

/-- LP_CFG (R17-R35, 02_line_ports.md). -/
def LP_CFG (i : Nat) : Nat := 0x80000 + i * 0x1000
def LP_CFG.TX_HOLD (i : Nat) : Fld := ⟨LP_CFG i, 8, 8⟩
def LP_CFG.TXEN_POL (i : Nat) : Fld := ⟨LP_CFG i, 3, 3⟩
def LP_CFG.GRID (i : Nat) : Fld := ⟨LP_CFG i, 2, 1⟩
def LP_CFG.ENABLE (i : Nat) : Fld := ⟨LP_CFG i, 0, 0⟩
/-- LP_STAT (R17-R35, 02_line_ports.md). -/
def LP_STAT (i : Nat) : Nat := 0x80004 + i * 0x1000
def LP_STAT.TX_MUTED (i : Nat) : Fld := ⟨LP_STAT i, 7, 7⟩
def LP_STAT.TX_CNT (i : Nat) : Fld := ⟨LP_STAT i, 6, 3⟩
def LP_STAT.TXEN (i : Nat) : Fld := ⟨LP_STAT i, 2, 2⟩
def LP_STAT.RX_OVL (i : Nat) : Fld := ⟨LP_STAT i, 1, 1⟩
def LP_STAT.LOCKED (i : Nat) : Fld := ⟨LP_STAT i, 0, 0⟩
/-- LP_EVT (R17-R35, 02_line_ports.md). -/
def LP_EVT (i : Nat) : Nat := 0x80008 + i * 0x1000
def LP_EVT.PGA_STEP (i : Nat) : Fld := ⟨LP_EVT i, 9, 9⟩
def LP_EVT.RX_OVERLOAD (i : Nat) : Fld := ⟨LP_EVT i, 8, 8⟩
def LP_EVT.OVERCURRENT (i : Nat) : Fld := ⟨LP_EVT i, 7, 7⟩
def LP_EVT.CANC_DIVERGED (i : Nat) : Fld := ⟨LP_EVT i, 6, 6⟩
def LP_EVT.CREST_ACTIVE (i : Nat) : Fld := ⟨LP_EVT i, 5, 5⟩
def LP_EVT.TX_LANE_REFUSED (i : Nat) : Fld := ⟨LP_EVT i, 4, 4⟩
def LP_EVT.LVL_CLIPPED (i : Nat) : Fld := ⟨LP_EVT i, 3, 3⟩
def LP_EVT.COEF_WR_REFUSED (i : Nat) : Fld := ⟨LP_EVT i, 2, 2⟩
def LP_EVT.BANK_SWAP_COLLAPSED (i : Nat) : Fld := ⟨LP_EVT i, 1, 1⟩
def LP_EVT.BANK_SWAP_DONE (i : Nat) : Fld := ⟨LP_EVT i, 0, 0⟩
/-- LP_PGA (R17-R35, 02_line_ports.md). -/
def LP_PGA (i : Nat) : Nat := 0x80010 + i * 0x1000
def LP_PGA.MODE (i : Nat) : Fld := ⟨LP_PGA i, 31, 31⟩
def LP_PGA.CODE (i : Nat) : Fld := ⟨LP_PGA i, 30, 26⟩
def LP_PGA.MANUAL_CODE (i : Nat) : Fld := ⟨LP_PGA i, 25, 21⟩
def LP_PGA.HI_THR (i : Nat) : Fld := ⟨LP_PGA i, 20, 15⟩
def LP_PGA.LO_THR (i : Nat) : Fld := ⟨LP_PGA i, 14, 9⟩
def LP_PGA.OVL_STEP (i : Nat) : Fld := ⟨LP_PGA i, 8, 7⟩
def LP_PGA.HOLD (i : Nat) : Fld := ⟨LP_PGA i, 6, 0⟩
/-- LP_DEC (R17-R35, 02_line_ports.md). -/
def LP_DEC (i : Nat) : Nat := 0x80014 + i * 0x1000
def LP_DEC.D (i : Nat) : Fld := ⟨LP_DEC i, 30, 24⟩
def LP_DEC.L (i : Nat) : Fld := ⟨LP_DEC i, 22, 16⟩
def LP_DEC.M (i : Nat) : Fld := ⟨LP_DEC i, 14, 8⟩
/-- LP_NCO (R17-R35, 02_line_ports.md). -/
def LP_NCO (i : Nat) : Nat := 0x80018 + i * 0x1000
def LP_NCO.FREQ (i : Nat) : Fld := ⟨LP_NCO i, 23, 0⟩
/-- LP_BANK (R17-R35, 02_line_ports.md). -/
def LP_BANK (i : Nat) : Nat := 0x8001c + i * 0x1000
def LP_BANK.ACTIVE (i : Nat) : Fld := ⟨LP_BANK i, 30, 30⟩
def LP_BANK.FADING (i : Nat) : Fld := ⟨LP_BANK i, 29, 29⟩
def LP_BANK.QUEUED (i : Nat) : Fld := ⟨LP_BANK i, 28, 28⟩
def LP_BANK.FADE_LEN (i : Nat) : Fld := ⟨LP_BANK i, 12, 0⟩
/-- LP_COEF_IDX (R17-R35, 02_line_ports.md). -/
def LP_COEF_IDX (i : Nat) : Nat := 0x80020 + i * 0x1000
def LP_COEF_IDX.AUTOINC (i : Nat) : Fld := ⟨LP_COEF_IDX i, 10, 10⟩
def LP_COEF_IDX.BANK (i : Nat) : Fld := ⟨LP_COEF_IDX i, 9, 9⟩
def LP_COEF_IDX.INDEX (i : Nat) : Fld := ⟨LP_COEF_IDX i, 8, 0⟩
/-- LP_COEF_DATA (R17-R35, 02_line_ports.md). -/
def LP_COEF_DATA (i : Nat) : Nat := 0x80024 + i * 0x1000
/-- LP_LIM (R17-R35, 02_line_ports.md). -/
def LP_LIM (i : Nat) : Nat := 0x80028 + i * 0x1000
def LP_LIM.PROFILE (i : Nat) : Fld := ⟨LP_LIM i, 31, 29⟩
def LP_LIM.CLASS134 (i : Nat) : Fld := ⟨LP_LIM i, 28, 28⟩
def LP_LIM.GAIN (i : Nat) : Fld := ⟨LP_LIM i, 25, 16⟩
def LP_LIM.CEIL (i : Nat) : Fld := ⟨LP_LIM i, 9, 0⟩
/-- LP_PERMIT_LO (R17-R35, 02_line_ports.md). -/
def LP_PERMIT_LO (i : Nat) : Nat := 0x8002c + i * 0x1000
def LP_PERMIT_LO.LANES (i : Nat) : Fld := ⟨LP_PERMIT_LO i, 31, 0⟩
/-- LP_PERMIT_HI (R17-R35, 02_line_ports.md). -/
def LP_PERMIT_HI (i : Nat) : Nat := 0x80030 + i * 0x1000
def LP_PERMIT_HI.LANES (i : Nat) : Fld := ⟨LP_PERMIT_HI i, 31, 0⟩
/-- LP_CREST (R17-R35, 02_line_ports.md). -/
def LP_CREST (i : Nat) : Nat := 0x80034 + i * 0x1000
/-- LP_TXEN (R17-R35, 02_line_ports.md). -/
def LP_TXEN (i : Nat) : Nat := 0x80038 + i * 0x1000
/-- LP_ISNS (R17-R35, 02_line_ports.md). -/
def LP_ISNS (i : Nat) : Nat := 0x8003c + i * 0x1000
def LP_ISNS.OC_TIME (i : Nat) : Fld := ⟨LP_ISNS i, 23, 16⟩
def LP_ISNS.OC_LIMIT (i : Nat) : Fld := ⟨LP_ISNS i, 11, 0⟩
/-- LP_CANC (R17-R35, 02_line_ports.md). -/
def LP_CANC (i : Nat) : Nat := 0x80040 + i * 0x1000
def LP_CANC.STATE (i : Nat) : Fld := ⟨LP_CANC i, 31, 30⟩
def LP_CANC.ENABLE (i : Nat) : Fld := ⟨LP_CANC i, 29, 29⟩
def LP_CANC.RESID (i : Nat) : Fld := ⟨LP_CANC i, 15, 8⟩
/-- LP_BLK_LO (R17-R35, 02_line_ports.md). -/
def LP_BLK_LO (i : Nat) : Nat := 0x80044 + i * 0x1000
def LP_BLK_LO.LANES (i : Nat) : Fld := ⟨LP_BLK_LO i, 31, 0⟩
/-- LP_BLK_HI (R17-R35, 02_line_ports.md). -/
def LP_BLK_HI (i : Nat) : Nat := 0x80048 + i * 0x1000
def LP_BLK_HI.LANES (i : Nat) : Fld := ⟨LP_BLK_HI i, 31, 0⟩
/-- LP_TXACT_LO (R17-R35, 02_line_ports.md). -/
def LP_TXACT_LO (i : Nat) : Nat := 0x8004c + i * 0x1000
def LP_TXACT_LO.LANES (i : Nat) : Fld := ⟨LP_TXACT_LO i, 31, 0⟩
/-- LP_TXACT_HI (R17-R35, 02_line_ports.md). -/
def LP_TXACT_HI (i : Nat) : Nat := 0x80050 + i * 0x1000
def LP_TXACT_HI.LANES (i : Nat) : Fld := ⟨LP_TXACT_HI i, 31, 0⟩
/-- LP_ZCAL (R17-R35, 02_line_ports.md). -/
def LP_ZCAL (i : Nat) : Nat := 0x80054 + i * 0x1000
def LP_ZCAL.KV (i : Nat) : Fld := ⟨LP_ZCAL i, 31, 16⟩
def LP_ZCAL.KI (i : Nat) : Fld := ⟨LP_ZCAL i, 15, 0⟩
/-- LP_ZPROBE (R17-R35, 02_line_ports.md). -/
def LP_ZPROBE (i : Nat) : Nat := 0x80058 + i * 0x1000
def LP_ZPROBE.DONE (i : Nat) : Fld := ⟨LP_ZPROBE i, 30, 30⟩
def LP_ZPROBE.BUSY (i : Nat) : Fld := ⟨LP_ZPROBE i, 29, 29⟩
def LP_ZPROBE.MODE (i : Nat) : Fld := ⟨LP_ZPROBE i, 24, 24⟩
def LP_ZPROBE.LANE (i : Nat) : Fld := ⟨LP_ZPROBE i, 5, 0⟩
/-- LP_ZRES (R17-R35, 02_line_ports.md). -/
def LP_ZRES (i : Nat) : Nat := 0x8005c + i * 0x1000
def LP_ZRES.MAG (i : Nat) : Fld := ⟨LP_ZRES i, 31, 16⟩
def LP_ZRES.PHASE (i : Nat) : Fld := ⟨LP_ZRES i, 15, 0⟩
/-- LP_PGACAL (R17-R35, 02_line_ports.md). -/
def LP_PGACAL (i j : Nat) : Nat := 0x80100 + i * 0x1000 + j * 4
/-- LN_CFG (R36-R58, 03_lane_receiver.md). -/
def LN_CFG (i : Nat) : Nat := 0x100000 + i * 0x40
def LN_CFG.ENABLE (i : Nat) : Fld := ⟨LN_CFG i, 31, 31⟩
def LN_CFG.ERR_REC (i : Nat) : Fld := ⟨LN_CFG i, 30, 30⟩
def LN_CFG.ENGINE (i : Nat) : Fld := ⟨LN_CFG i, 23, 19⟩
def LN_CFG.CTX (i : Nat) : Fld := ⟨LN_CFG i, 18, 16⟩
def LN_CFG.CORR_TILE (i : Nat) : Fld := ⟨LN_CFG i, 15, 10⟩
def LN_CFG.CORR_POS (i : Nat) : Fld := ⟨LN_CFG i, 9, 9⟩
def LN_CFG.CORR_PHASE (i : Nat) : Fld := ⟨LN_CFG i, 8, 8⟩
/-- LN_STAT (R36-R58, 03_lane_receiver.md). -/
def LN_STAT (i : Nat) : Nat := 0x100004 + i * 0x40
def LN_STAT.STATE (i : Nat) : Fld := ⟨LN_STAT i, 31, 29⟩
def LN_STAT.DEC_PEND (i : Nat) : Fld := ⟨LN_STAT i, 28, 28⟩
def LN_STAT.LAST_OUT (i : Nat) : Fld := ⟨LN_STAT i, 23, 16⟩
def LN_STAT.SYM (i : Nat) : Fld := ⟨LN_STAT i, 14, 0⟩
/-- LN_AGC (R36-R58, 03_lane_receiver.md). -/
def LN_AGC (i : Nat) : Nat := 0x100008 + i * 0x40
def LN_AGC.TARGET (i : Nat) : Fld := ⟨LN_AGC i, 31, 24⟩
def LN_AGC.ATTACK (i : Nat) : Fld := ⟨LN_AGC i, 23, 20⟩
def LN_AGC.DECAY (i : Nat) : Fld := ⟨LN_AGC i, 19, 16⟩
def LN_AGC.MAN (i : Nat) : Fld := ⟨LN_AGC i, 15, 15⟩
def LN_AGC.MAN_GAIN (i : Nat) : Fld := ⟨LN_AGC i, 11, 0⟩
/-- LN_GAIN (R36-R58, 03_lane_receiver.md). -/
def LN_GAIN (i : Nat) : Nat := 0x10000c + i * 0x40
def LN_GAIN.FROZEN (i : Nat) : Fld := ⟨LN_GAIN i, 31, 31⟩
def LN_GAIN.PGA_FRZ (i : Nat) : Fld := ⟨LN_GAIN i, 30, 26⟩
def LN_GAIN.GAIN_FRZ (i : Nat) : Fld := ⟨LN_GAIN i, 23, 12⟩
def LN_GAIN.GAIN (i : Nat) : Fld := ⟨LN_GAIN i, 11, 0⟩
/-- LN_PRE_THR (R36-R58, 03_lane_receiver.md). -/
def LN_PRE_THR (i : Nat) : Nat := 0x100010 + i * 0x40
def LN_PRE_THR.CONF (i : Nat) : Fld := ⟨LN_PRE_THR i, 31, 24⟩
def LN_PRE_THR.SYNC (i : Nat) : Fld := ⟨LN_PRE_THR i, 23, 16⟩
def LN_PRE_THR.PRE (i : Nat) : Fld := ⟨LN_PRE_THR i, 15, 8⟩
def LN_PRE_THR.SYNC_WIN (i : Nat) : Fld := ⟨LN_PRE_THR i, 7, 0⟩
/-- LN_CAPT (R36-R58, 03_lane_receiver.md). -/
def LN_CAPT (i : Nat) : Nat := 0x100014 + i * 0x40
def LN_CAPT.MODE (i : Nat) : Fld := ⟨LN_CAPT i, 31, 31⟩
def LN_CAPT.MARGIN (i : Nat) : Fld := ⟨LN_CAPT i, 7, 0⟩
/-- LN_FOFS (R36-R58, 03_lane_receiver.md). -/
def LN_FOFS (i : Nat) : Nat := 0x100018 + i * 0x40
def LN_FOFS.SRC (i : Nat) : Fld := ⟨LN_FOFS i, 16, 16⟩
def LN_FOFS.FOFS (i : Nat) : Fld := ⟨LN_FOFS i, 15, 0⟩
/-- LN_SNR (R36-R58, 03_lane_receiver.md). -/
def LN_SNR (i : Nat) : Nat := 0x10001c + i * 0x40
def LN_SNR.SNR (i : Nat) : Fld := ⟨LN_SNR i, 31, 24⟩
def LN_SNR.CORR (i : Nat) : Fld := ⟨LN_SNR i, 23, 16⟩
def LN_SNR.NOISE (i : Nat) : Fld := ⟨LN_SNR i, 15, 8⟩
/-- LN_MASK_LO (R36-R58, 03_lane_receiver.md). -/
def LN_MASK_LO (i : Nat) : Nat := 0x100020 + i * 0x40
def LN_MASK_LO.SLOTS (i : Nat) : Fld := ⟨LN_MASK_LO i, 31, 0⟩
/-- LN_MASK_HI (R36-R58, 03_lane_receiver.md). -/
def LN_MASK_HI (i : Nat) : Nat := 0x100024 + i * 0x40
def LN_MASK_HI.SLOTS (i : Nat) : Fld := ⟨LN_MASK_HI i, 27, 0⟩
/-- LN_TXCFG (R36-R58, 03_lane_receiver.md). -/
def LN_TXCFG (i : Nat) : Nat := 0x100028 + i * 0x40
def LN_TXCFG.TX_EN (i : Nat) : Fld := ⟨LN_TXCFG i, 31, 31⟩
def LN_TXCFG.CP (i : Nat) : Fld := ⟨LN_TXCFG i, 30, 29⟩
def LN_TXCFG.ACTIVE (i : Nat) : Fld := ⟨LN_TXCFG i, 28, 28⟩
def LN_TXCFG.CTX (i : Nat) : Fld := ⟨LN_TXCFG i, 27, 25⟩
/-- LN_TXLVL (R36-R58, 03_lane_receiver.md). -/
def LN_TXLVL (i : Nat) : Nat := 0x10002c + i * 0x40
def LN_TXLVL.USED (i : Nat) : Fld := ⟨LN_TXLVL i, 25, 16⟩
def LN_TXLVL.ATTEN (i : Nat) : Fld := ⟨LN_TXLVL i, 9, 0⟩
/-- LN_RXQ (R36-R58, 03_lane_receiver.md). -/
def LN_RXQ (i : Nat) : Nat := 0x100030 + i * 0x40
def LN_RXQ.QUEUE (i : Nat) : Fld := ⟨LN_RXQ i, 9, 0⟩
/-- LN_TXQ (R36-R58, 03_lane_receiver.md). -/
def LN_TXQ (i : Nat) : Nat := 0x100034 + i * 0x40
def LN_TXQ.QUEUE (i : Nat) : Fld := ⟨LN_TXQ i, 9, 0⟩
/-- LN_CNT_OK (R36-R58, 03_lane_receiver.md). -/
def LN_CNT_OK (i : Nat) : Nat := 0x100038 + i * 0x40
def LN_CNT_OK.COUNT (i : Nat) : Fld := ⟨LN_CNT_OK i, 31, 0⟩
/-- LN_CNT_ERR (R36-R58, 03_lane_receiver.md). -/
def LN_CNT_ERR (i : Nat) : Nat := 0x10003c + i * 0x40
def LN_CNT_ERR.FALSE_SYNC (i : Nat) : Fld := ⟨LN_CNT_ERR i, 31, 24⟩
def LN_CNT_ERR.HDR_CRC (i : Nat) : Fld := ⟨LN_CNT_ERR i, 23, 18⟩
def LN_CNT_ERR.PAY_CRC (i : Nat) : Fld := ⟨LN_CNT_ERR i, 17, 12⟩
def LN_CNT_ERR.CAPTURE_LOST (i : Nat) : Fld := ⟨LN_CNT_ERR i, 11, 7⟩
def LN_CNT_ERR.BLOCKED_TX (i : Nat) : Fld := ⟨LN_CNT_ERR i, 6, 2⟩
def LN_CNT_ERR.PARKED (i : Nat) : Fld := ⟨LN_CNT_ERR i, 1, 0⟩
/-- LP_MAINS (R79, 04_mains_slots.md). -/
def LP_MAINS (i : Nat) : Nat := 0x80060 + i * 0x1000
def LP_MAINS.ZC_TRIM (i : Nat) : Fld := ⟨LP_MAINS i, 31, 24⟩
def LP_MAINS.HOLDOVER (i : Nat) : Fld := ⟨LP_MAINS i, 23, 16⟩
def LP_MAINS.PH_TOL (i : Nat) : Fld := ⟨LP_MAINS i, 15, 11⟩
def LP_MAINS.NOM (i : Nat) : Fld := ⟨LP_MAINS i, 8, 8⟩
def LP_MAINS.VCH (i : Nat) : Fld := ⟨LP_MAINS i, 1, 0⟩
/-- LP_MSTAT (R79, 04_mains_slots.md). -/
def LP_MSTAT (i : Nat) : Nat := 0x80064 + i * 0x1000
def LP_MSTAT.STATE (i : Nat) : Fld := ⟨LP_MSTAT i, 31, 30⟩
def LP_MSTAT.ALPHA (i : Nat) : Fld := ⟨LP_MSTAT i, 23, 16⟩
def LP_MSTAT.SLOT (i : Nat) : Fld := ⟨LP_MSTAT i, 13, 8⟩
def LP_MSTAT.HOLD_CNT (i : Nat) : Fld := ⟨LP_MSTAT i, 7, 0⟩
/-- LP_MPER (R79, 04_mains_slots.md). -/
def LP_MPER (i : Nat) : Nat := 0x80068 + i * 0x1000
def LP_MPER.PERIOD (i : Nat) : Fld := ⟨LP_MPER i, 31, 0⟩
/-- LP_MCYC (R79, 04_mains_slots.md). -/
def LP_MCYC (i : Nat) : Nat := 0x80070 + i * 0x1000
def LP_MCYC.CYCLE (i : Nat) : Fld := ⟨LP_MCYC i, 31, 0⟩
/-- LP_MEVT (R79, 04_mains_slots.md). -/
def LP_MEVT (i : Nat) : Nat := 0x80074 + i * 0x1000
def LP_MEVT.TX_ITEM_BAD (i : Nat) : Fld := ⟨LP_MEVT i, 4, 4⟩
def LP_MEVT.MASK_REFUSED (i : Nat) : Fld := ⟨LP_MEVT i, 3, 3⟩
def LP_MEVT.HOLDOVER_END (i : Nat) : Fld := ⟨LP_MEVT i, 2, 2⟩
def LP_MEVT.LOCK_LOST (i : Nat) : Fld := ⟨LP_MEVT i, 1, 1⟩
def LP_MEVT.LOCK_ACQ (i : Nat) : Fld := ⟨LP_MEVT i, 0, 0⟩
/-- LP_TXSCH (R79, 04_mains_slots.md). -/
def LP_TXSCH (i : Nat) : Nat := 0x80078 + i * 0x1000
def LP_TXSCH.DEFER (i : Nat) : Fld := ⟨LP_TXSCH i, 31, 31⟩
def LP_TXSCH.DEFER_MAX (i : Nat) : Fld := ⟨LP_TXSCH i, 3, 0⟩
/-- LP_PHREF (R79, 04_mains_slots.md). -/
def LP_PHREF (i : Nat) : Nat := 0x8007c + i * 0x1000
def LP_PHREF.V3 (i : Nat) : Fld := ⟨LP_PHREF i, 31, 24⟩
def LP_PHREF.V2 (i : Nat) : Fld := ⟨LP_PHREF i, 23, 16⟩
def LP_PHREF.V1 (i : Nat) : Fld := ⟨LP_PHREF i, 15, 8⟩
def LP_PHREF.V0 (i : Nat) : Fld := ⟨LP_PHREF i, 7, 0⟩
/-- LP_NMAP_CFG (R79, 04_mains_slots.md). -/
def LP_NMAP_CFG (i : Nat) : Nat := 0x80080 + i * 0x1000
def LP_NMAP_CFG.CLEAR (i : Nat) : Fld := ⟨LP_NMAP_CFG i, 31, 31⟩
def LP_NMAP_CFG.FREEZE (i : Nat) : Fld := ⟨LP_NMAP_CFG i, 30, 30⟩
def LP_NMAP_CFG.BASE (i : Nat) : Fld := ⟨LP_NMAP_CFG i, 7, 4⟩
def LP_NMAP_CFG.AVG (i : Nat) : Fld := ⟨LP_NMAP_CFG i, 3, 0⟩
/-- LP_NMAP_IDX (R79, 04_mains_slots.md). -/
def LP_NMAP_IDX (i : Nat) : Nat := 0x80084 + i * 0x1000
def LP_NMAP_IDX.AUTOINC (i : Nat) : Fld := ⟨LP_NMAP_IDX i, 14, 14⟩
def LP_NMAP_IDX.LANE (i : Nat) : Fld := ⟨LP_NMAP_IDX i, 13, 8⟩
def LP_NMAP_IDX.WORD (i : Nat) : Fld := ⟨LP_NMAP_IDX i, 3, 0⟩
/-- LP_NMAP_DATA (R79, 04_mains_slots.md). -/
def LP_NMAP_DATA (i : Nat) : Nat := 0x80088 + i * 0x1000
/-- LK_CFG (R107, 05_drevline.md). -/
def LK_CFG : Nat := 0x84000
def LK_CFG.AUTO_ADMIT : Fld := ⟨LK_CFG, 31, 31⟩
def LK_CFG.LINK_SLOT : Fld := ⟨LK_CFG, 22, 16⟩
def LK_CFG.GROUP_SLOT : Fld := ⟨LK_CFG, 14, 8⟩
def LK_CFG.RETRY_MAX : Fld := ⟨LK_CFG, 2, 0⟩
/-- LK_REG (R107, 05_drevline.md). -/
def LK_REG : Nat := 0x84004
def LK_REG.ENTRIES : Fld := ⟨LK_REG, 31, 18⟩
def LK_REG.BASE : Fld := ⟨LK_REG, 17, 0⟩
/-- LK_EPOCH (R107, 05_drevline.md). -/
def LK_EPOCH : Nat := 0x84008
def LK_EPOCH.USED : Fld := ⟨LK_EPOCH, 29, 16⟩
def LK_EPOCH.EPOCH : Fld := ⟨LK_EPOCH, 15, 0⟩
/-- LK_EVT (R107, 05_drevline.md). -/
def LK_EVT : Nat := 0x8400c
def LK_EVT.REPLAY : Fld := ⟨LK_EVT, 4, 4⟩
def LK_EVT.MIC_FAIL : Fld := ⟨LK_EVT, 3, 3⟩
def LK_EVT.REGISTRY_FULL : Fld := ⟨LK_EVT, 2, 2⟩
def LK_EVT.JOIN_UNKNOWN : Fld := ⟨LK_EVT, 1, 1⟩
def LK_EVT.EPOCH_RAISED : Fld := ⟨LK_EVT, 0, 0⟩
/-- LK_CNT (R107, 05_drevline.md). -/
def LK_CNT : Nat := 0x84010
def LK_CNT.DUP_RX : Fld := ⟨LK_CNT, 31, 24⟩
def LK_CNT.MIC_FAIL : Fld := ⟨LK_CNT, 23, 16⟩
def LK_CNT.REPLAY : Fld := ⟨LK_CNT, 15, 8⟩
def LK_CNT.ACK_DROP : Fld := ⟨LK_CNT, 7, 4⟩
def LK_CNT.JOIN_LATE : Fld := ⟨LK_CNT, 3, 0⟩
/-- LP_BCN (R107, 05_drevline.md). -/
def LP_BCN (i : Nat) : Nat := 0x8008c + i * 0x1000
def LP_BCN.ENABLE (i : Nat) : Fld := ⟨LP_BCN i, 31, 31⟩
def LP_BCN.PERIOD (i : Nat) : Fld := ⟨LP_BCN i, 7, 0⟩
/-- LP_JOIN (R107, 05_drevline.md). -/
def LP_JOIN (i : Nat) : Nat := 0x80090 + i * 0x1000
def LP_JOIN.ANS_HI (i : Nat) : Fld := ⟨LP_JOIN i, 29, 24⟩
def LP_JOIN.ANS_LO (i : Nat) : Fld := ⟨LP_JOIN i, 21, 16⟩
def LP_JOIN.REQ_HI (i : Nat) : Fld := ⟨LP_JOIN i, 13, 8⟩
def LP_JOIN.REQ_LO (i : Nat) : Fld := ⟨LP_JOIN i, 5, 0⟩
/-- LP_STORM (R107, 05_drevline.md). -/
def LP_STORM (i : Nat) : Nat := 0x80094 + i * 0x1000
def LP_STORM.SALT (i : Nat) : Fld := ⟨LP_STORM i, 31, 16⟩
def LP_STORM.SPREAD_W (i : Nat) : Fld := ⟨LP_STORM i, 15, 0⟩
/-- LP_LINK (R107, 05_drevline.md). -/
def LP_LINK (i : Nat) : Nat := 0x80098 + i * 0x1000
def LP_LINK.ECHO_TO (i : Nat) : Fld := ⟨LP_LINK i, 27, 24⟩
def LP_LINK.ANS_WIN (i : Nat) : Fld := ⟨LP_LINK i, 23, 16⟩
def LP_LINK.DLVQ (i : Nat) : Fld := ⟨LP_LINK i, 9, 0⟩
/-- MT_CFG (R131, 06_metering.md). -/
def MT_CFG : Nat := 0x90000
def MT_CFG.ENABLE : Fld := ⟨MT_CFG, 31, 31⟩
def MT_CFG.PRESET : Fld := ⟨MT_CFG, 27, 26⟩
def MT_CFG.SYNC_MODE : Fld := ⟨MT_CFG, 25, 24⟩
def MT_CFG.SYNC_EDGE : Fld := ⟨MT_CFG, 23, 23⟩
def MT_CFG.NOM : Fld := ⟨MT_CFG, 22, 22⟩
def MT_CFG.CH_EN : Fld := ⟨MT_CFG, 7, 0⟩
/-- MT_SYNC (R131, 06_metering.md). -/
def MT_SYNC : Nat := 0x90004
def MT_SYNC.COUNT : Fld := ⟨MT_SYNC, 15, 8⟩
def MT_SYNC.SETTLE : Fld := ⟨MT_SYNC, 7, 0⟩
/-- MT_STAT (R131, 06_metering.md). -/
def MT_STAT : Nat := 0x90008
def MT_STAT.CLIP : Fld := ⟨MT_STAT, 15, 8⟩
def MT_STAT.NO_ZC : Fld := ⟨MT_STAT, 7, 4⟩
def MT_STAT.SETTLING : Fld := ⟨MT_STAT, 0, 0⟩
/-- MT_EVT (R131, 06_metering.md). -/
def MT_EVT : Nat := 0x9000c
def MT_EVT.ACC_WRAP : Fld := ⟨MT_EVT, 5, 5⟩
def MT_EVT.BAL_ALARM : Fld := ⟨MT_EVT, 4, 4⟩
def MT_EVT.BAL_DONE : Fld := ⟨MT_EVT, 3, 3⟩
def MT_EVT.NO_ZC : Fld := ⟨MT_EVT, 2, 2⟩
def MT_EVT.CLIP : Fld := ⟨MT_EVT, 1, 1⟩
def MT_EVT.SYNC_DONE : Fld := ⟨MT_EVT, 0, 0⟩
/-- MT_CHCFG (R131, 06_metering.md). -/
def MT_CHCFG (i : Nat) : Nat := 0x90010 + i * 4
def MT_CHCFG.INVERT (i : Nat) : Fld := ⟨MT_CHCFG i, 31, 31⟩
def MT_CHCFG.FINEQ_EN (i : Nat) : Fld := ⟨MT_CHCFG i, 30, 30⟩
def MT_CHCFG.FINEQ (i : Nat) : Fld := ⟨MT_CHCFG i, 25, 16⟩
def MT_CHCFG.DELAY (i : Nat) : Fld := ⟨MT_CHCFG i, 9, 0⟩
/-- MT_FAST (R131, 06_metering.md). -/
def MT_FAST (i : Nat) : Nat := 0x90030 + i * 4
def MT_FAST.VALID (i : Nat) : Fld := ⟨MT_FAST i, 31, 31⟩
def MT_FAST.SAMPLE (i : Nat) : Fld := ⟨MT_FAST i, 23, 0⟩
/-- MT_PCFG (R131, 06_metering.md). -/
def MT_PCFG (i : Nat) : Nat := 0x90050 + i * 4
def MT_PCFG.ENABLE (i : Nat) : Fld := ⟨MT_PCFG i, 31, 31⟩
def MT_PCFG.Q_EN (i : Nat) : Fld := ⟨MT_PCFG i, 30, 30⟩
def MT_PCFG.QDLY (i : Nat) : Fld := ⟨MT_PCFG i, 23, 16⟩
def MT_PCFG.VCH (i : Nat) : Fld := ⟨MT_PCFG i, 5, 4⟩
def MT_PCFG.ICH (i : Nat) : Fld := ⟨MT_PCFG i, 1, 0⟩
/-- MT_KE (R131, 06_metering.md). -/
def MT_KE (i : Nat) : Nat := 0x90060 + i * 4
def MT_KE.KE (i : Nat) : Fld := ⟨MT_KE i, 31, 0⟩
/-- MT_BAL_CFG (R131, 06_metering.md). -/
def MT_BAL_CFG : Nat := 0x90070
def MT_BAL_CFG.ENABLE : Fld := ⟨MT_BAL_CFG, 31, 31⟩
def MT_BAL_CFG.ALARM_PARTIAL : Fld := ⟨MT_BAL_CFG, 30, 30⟩
def MT_BAL_CFG.REPQ : Fld := ⟨MT_BAL_CFG, 25, 16⟩
def MT_BAL_CFG.RESQ : Fld := ⟨MT_BAL_CFG, 9, 0⟩
/-- MT_BAL_WIN (R131, 06_metering.md). -/
def MT_BAL_WIN : Nat := 0x90074
def MT_BAL_WIN.GRACE : Fld := ⟨MT_BAL_WIN, 31, 16⟩
def MT_BAL_WIN.N : Fld := ⟨MT_BAL_WIN, 15, 0⟩
/-- MT_BAL_THR (R131, 06_metering.md). -/
def MT_BAL_THR : Nat := 0x90078
def MT_BAL_THR.BRANCH_THR : Fld := ⟨MT_BAL_THR, 31, 16⟩
def MT_BAL_THR.PHASE_THR : Fld := ⟨MT_BAL_THR, 15, 0⟩
/-- MT_BAL_STAT (R131, 06_metering.md). -/
def MT_BAL_STAT : Nat := 0x9007c
def MT_BAL_STAT.LAST : Fld := ⟨MT_BAL_STAT, 31, 0⟩
/-- MT_BAL_CNT (R131, 06_metering.md). -/
def MT_BAL_CNT : Nat := 0x90080
def MT_BAL_CNT.LATE : Fld := ⟨MT_BAL_CNT, 31, 24⟩
def MT_BAL_CNT.FUTURE : Fld := ⟨MT_BAL_CNT, 23, 16⟩
def MT_BAL_CNT.DUP : Fld := ⟨MT_BAL_CNT, 15, 8⟩
def MT_BAL_CNT.UNKNOWN : Fld := ⟨MT_BAL_CNT, 7, 4⟩
def MT_BAL_CNT.BAD : Fld := ⟨MT_BAL_CNT, 3, 0⟩
/-- MT_PC_LO (R131, 06_metering.md). -/
def MT_PC_LO (i : Nat) : Nat := 0x90100 + i * 0x80
def MT_PC_LO.VALUE (i : Nat) : Fld := ⟨MT_PC_LO i, 31, 0⟩
/-- MT_PC_HI (R131, 06_metering.md). -/
def MT_PC_HI (i : Nat) : Nat := 0x90104 + i * 0x80
def MT_PC_HI.VALUE (i : Nat) : Fld := ⟨MT_PC_HI i, 31, 0⟩
/-- MT_QC_LO (R131, 06_metering.md). -/
def MT_QC_LO (i : Nat) : Nat := 0x90108 + i * 0x80
def MT_QC_LO.VALUE (i : Nat) : Fld := ⟨MT_QC_LO i, 31, 0⟩
/-- MT_QC_HI (R131, 06_metering.md). -/
def MT_QC_HI (i : Nat) : Nat := 0x9010c + i * 0x80
def MT_QC_HI.VALUE (i : Nat) : Fld := ⟨MT_QC_HI i, 31, 0⟩
/-- MT_CYCN (R131, 06_metering.md). -/
def MT_CYCN (i : Nat) : Nat := 0x90110 + i * 0x80
def MT_CYCN.CYCLE (i : Nat) : Fld := ⟨MT_CYCN i, 31, 0⟩
/-- MT_CYCS (R131, 06_metering.md). -/
def MT_CYCS (i : Nat) : Nat := 0x90114 + i * 0x80
def MT_CYCS.NO_ZC (i : Nat) : Fld := ⟨MT_CYCS i, 31, 31⟩
def MT_CYCS.SETTLING (i : Nat) : Fld := ⟨MT_CYCS i, 30, 30⟩
def MT_CYCS.CLIP (i : Nat) : Fld := ⟨MT_CYCS i, 29, 29⟩
def MT_CYCS.SAMPLES (i : Nat) : Fld := ⟨MT_CYCS i, 15, 0⟩
/-- MT_ACC_LO (R131, 06_metering.md). -/
def MT_ACC_LO (i j : Nat) : Nat := 0x90120 + i * 0x80 + j * 8
def MT_ACC_LO.VALUE (i j : Nat) : Fld := ⟨MT_ACC_LO i j, 31, 0⟩
/-- MT_ACC_HI (R131, 06_metering.md). -/
def MT_ACC_HI (i j : Nat) : Nat := 0x90124 + i * 0x80 + j * 8
def MT_ACC_HI.VALUE (i j : Nat) : Fld := ⟨MT_ACC_HI i j, 31, 0⟩
/-- QP_POOL (R154 (QP registers), 07_pewter_pool.md). -/
def QP_POOL : Nat := 0x60000
def QP_POOL.LAST : Fld := ⟨QP_POOL, 31, 16⟩
def QP_POOL.FIRST : Fld := ⟨QP_POOL, 15, 0⟩
/-- QP_FREE (R154 (QP registers), 07_pewter_pool.md). -/
def QP_FREE : Nat := 0x60004
/-- QP_EVT (R154 (QP registers), 07_pewter_pool.md). -/
def QP_EVT : Nat := 0x60008
def QP_EVT.QUEUE_BROKEN : Fld := ⟨QP_EVT, 5, 5⟩
def QP_EVT.POOL_LOST : Fld := ⟨QP_EVT, 4, 4⟩
def QP_EVT.POISON : Fld := ⟨QP_EVT, 3, 3⟩
def QP_EVT.POOL_EXHAUSTED : Fld := ⟨QP_EVT, 2, 2⟩
def QP_EVT.UNCAST_WRITE : Fld := ⟨QP_EVT, 1, 1⟩
def QP_EVT.SCRUB_PASS : Fld := ⟨QP_EVT, 0, 0⟩
/-- QP_CMD (R154 (QP registers), 07_pewter_pool.md). -/
def QP_CMD : Nat := 0x6000c
/-- QP_QSEL (R154 (QP registers), 07_pewter_pool.md). -/
def QP_QSEL : Nat := 0x60010
def QP_QSEL.QUEUE : Fld := ⟨QP_QSEL, 9, 0⟩
/-- QP_QSTAT (R154 (QP registers), 07_pewter_pool.md). -/
def QP_QSTAT : Nat := 0x60014
/-- QP_QWM (R154 (QP registers), 07_pewter_pool.md). -/
def QP_QWM : Nat := 0x60018
/-- QP_QLVL (R154 (QP registers), 07_pewter_pool.md). -/
def QP_QLVL : Nat := 0x6001c
/-- QP_SCRUB (R154 (QP registers), 07_pewter_pool.md). -/
def QP_SCRUB : Nat := 0x60020
def QP_SCRUB.EN : Fld := ⟨QP_SCRUB, 31, 31⟩
def QP_SCRUB.PASSES : Fld := ⟨QP_SCRUB, 23, 8⟩
/-- QP_ECC_LAST (R154 (QP registers), 07_pewter_pool.md). -/
def QP_ECC_LAST : Nat := 0x60024
def QP_ECC_LAST.ADDR : Fld := ⟨QP_ECC_LAST, 31, 0⟩
/-- QP_ECC (R154 (QP registers), 07_pewter_pool.md). -/
def QP_ECC (i : Nat) : Nat := 0x60040 + i * 4
def QP_ECC.CORR (i : Nat) : Fld := ⟨QP_ECC i, 31, 16⟩
def QP_ECC.UNCORR (i : Nat) : Fld := ⟨QP_ECC i, 15, 8⟩
/-- QP_WIN_CFG (R154 (QP registers), 07_pewter_pool.md). -/
def QP_WIN_CFG (i : Nat) : Nat := 0x60400 + i * 0x10
def QP_WIN_CFG.EN (i : Nat) : Fld := ⟨QP_WIN_CFG i, 31, 31⟩
def QP_WIN_CFG.DIR (i : Nat) : Fld := ⟨QP_WIN_CFG i, 30, 30⟩
def QP_WIN_CFG.QUEUE (i : Nat) : Fld := ⟨QP_WIN_CFG i, 9, 0⟩
/-- QP_WIN_DATA (R154 (QP registers), 07_pewter_pool.md). -/
def QP_WIN_DATA (i : Nat) : Nat := 0x60404 + i * 0x10
/-- QP_WIN_STAT (R154 (QP registers), 07_pewter_pool.md). -/
def QP_WIN_STAT (i : Nat) : Nat := 0x60408 + i * 0x10
def QP_WIN_STAT.RESULT (i : Nat) : Fld := ⟨QP_WIN_STAT i, 31, 29⟩
def QP_WIN_STAT.OPEN (i : Nat) : Fld := ⟨QP_WIN_STAT i, 28, 28⟩
def QP_WIN_STAT.PART (i : Nat) : Fld := ⟨QP_WIN_STAT i, 2, 0⟩
/-- QP_WIN_CMD (R154 (QP registers), 07_pewter_pool.md). -/
def QP_WIN_CMD (i : Nat) : Nat := 0x6040c + i * 0x10
/-- FAB_STAT (R178, 08_fabric_ingots.md). -/
def FAB_STAT : Nat := 0x20004
def FAB_STAT.STATE : Fld := ⟨FAB_STAT, 31, 29⟩
def FAB_STAT.CAST_OK : Fld := ⟨FAB_STAT, 28, 28⟩
def FAB_STAT.SCOPE : Fld := ⟨FAB_STAT, 27, 24⟩
def FAB_STAT.ERR_SECT : Fld := ⟨FAB_STAT, 23, 16⟩
def FAB_STAT.ERR : Fld := ⟨FAB_STAT, 4, 0⟩
/-- FAB_EVT (R178, 08_fabric_ingots.md). -/
def FAB_EVT : Nat := 0x20008
def FAB_EVT.REFUSED : Fld := ⟨FAB_EVT, 2, 2⟩
def FAB_EVT.LOAD_FAIL : Fld := ⟨FAB_EVT, 1, 1⟩
def FAB_EVT.LOAD_DONE : Fld := ⟨FAB_EVT, 0, 0⟩
/-- FAB_LOAD (R178, 08_fabric_ingots.md). -/
def FAB_LOAD : Nat := 0x2000c
def FAB_LOAD.SRC : Fld := ⟨FAB_LOAD, 30, 29⟩
def FAB_LOAD.KIND : Fld := ⟨FAB_LOAD, 28, 28⟩
/-- FAB_PUSH (R178, 08_fabric_ingots.md). -/
def FAB_PUSH : Nat := 0x20010
/-- FAB_INGOT (R178, 08_fabric_ingots.md). -/
def FAB_INGOT : Nat := 0x20014
def FAB_INGOT.VERSION : Fld := ⟨FAB_INGOT, 31, 0⟩
/-- FAB_PARTIAL (R178, 08_fabric_ingots.md). -/
def FAB_PARTIAL : Nat := 0x20018
def FAB_PARTIAL.VERSION : Fld := ⟨FAB_PARTIAL, 31, 0⟩
/-- FAB_BUILD_LO (R178, 08_fabric_ingots.md). -/
def FAB_BUILD_LO : Nat := 0x2001c
def FAB_BUILD_LO.BUILD : Fld := ⟨FAB_BUILD_LO, 31, 0⟩
/-- FAB_BUILD_HI (R178, 08_fabric_ingots.md). -/
def FAB_BUILD_HI : Nat := 0x20020
def FAB_BUILD_HI.BUILD : Fld := ⟨FAB_BUILD_HI, 31, 0⟩
/-- FAB_TIME (R178, 08_fabric_ingots.md). -/
def FAB_TIME : Nat := 0x20024
def FAB_TIME.US : Fld := ⟨FAB_TIME, 31, 0⟩
/-- SEQ_CTL (R197, 09_sequencers.md). -/
def SEQ_CTL (i : Nat) : Nat := 0x30000 + i * 0x100
/-- SEQ_STAT (R197, 09_sequencers.md). -/
def SEQ_STAT (i : Nat) : Nat := 0x30004 + i * 0x100
def SEQ_STAT.STATE (i : Nat) : Fld := ⟨SEQ_STAT i, 31, 29⟩
def SEQ_STAT.INEXC (i : Nat) : Fld := ⟨SEQ_STAT i, 28, 28⟩
def SEQ_STAT.CAUSE (i : Nat) : Fld := ⟨SEQ_STAT i, 27, 24⟩
def SEQ_STAT.ACC_SAT (i : Nat) : Fld := ⟨SEQ_STAT i, 23, 23⟩
def SEQ_STAT.SIN_OVF (i : Nat) : Fld := ⟨SEQ_STAT i, 22, 22⟩
def SEQ_STAT.CORE (i : Nat) : Fld := ⟨SEQ_STAT i, 4, 0⟩
/-- SEQ_CFG (R197, 09_sequencers.md). -/
def SEQ_CFG (i : Nat) : Nat := 0x30008 + i * 0x100
def SEQ_CFG.PRIV (i : Nat) : Fld := ⟨SEQ_CFG i, 31, 31⟩
def SEQ_CFG.INT_PM (i : Nat) : Fld := ⟨SEQ_CFG i, 30, 30⟩
def SEQ_CFG.SUPER (i : Nat) : Fld := ⟨SEQ_CFG i, 4, 0⟩
/-- SEQ_PC (R197, 09_sequencers.md). -/
def SEQ_PC (i : Nat) : Nat := 0x3000c + i * 0x100
/-- SEQ_EPC (R197, 09_sequencers.md). -/
def SEQ_EPC (i : Nat) : Nat := 0x30010 + i * 0x100
/-- SEQ_VEC (R197, 09_sequencers.md). -/
def SEQ_VEC (i : Nat) : Nat := 0x30018 + i * 0x100
/-- SEQ_EVAL (R197, 09_sequencers.md). -/
def SEQ_EVAL (i : Nat) : Nat := 0x30014 + i * 0x100
/-- SEQ_EV (R197, 09_sequencers.md). -/
def SEQ_EV (i : Nat) : Nat := 0x3001c + i * 0x100
def SEQ_EV.MASK (i : Nat) : Fld := ⟨SEQ_EV i, 23, 16⟩
def SEQ_EV.PEND (i : Nat) : Fld := ⟨SEQ_EV i, 7, 0⟩
/-- SEQ_TIMER (R197, 09_sequencers.md). -/
def SEQ_TIMER (i : Nat) : Nat := 0x30020 + i * 0x100
def SEQ_TIMER.PERIODIC (i : Nat) : Fld := ⟨SEQ_TIMER i, 31, 31⟩
def SEQ_TIMER.COUNT (i : Nat) : Fld := ⟨SEQ_TIMER i, 23, 0⟩
/-- SEQ_LANE (R197, 09_sequencers.md). -/
def SEQ_LANE (i : Nat) : Nat := 0x30024 + i * 0x100
def SEQ_LANE.COUNT (i : Nat) : Fld := ⟨SEQ_LANE i, 21, 16⟩
def SEQ_LANE.FIRST (i : Nat) : Fld := ⟨SEQ_LANE i, 7, 0⟩
/-- SEQ_LWIN (R197, 09_sequencers.md). -/
def SEQ_LWIN (i : Nat) : Nat := 0x30028 + i * 0x100
def SEQ_LWIN.SIZE (i : Nat) : Fld := ⟨SEQ_LWIN i, 31, 16⟩
def SEQ_LWIN.BASE (i : Nat) : Fld := ⟨SEQ_LWIN i, 15, 0⟩
/-- SEQ_LPEND (R197, 09_sequencers.md). -/
def SEQ_LPEND (i : Nat) : Nat := 0x3002c + i * 0x100
def SEQ_LPEND.LANES (i : Nat) : Fld := ⟨SEQ_LPEND i, 31, 0⟩
/-- SEQ_ARG (R197, 09_sequencers.md). -/
def SEQ_ARG (i j : Nat) : Nat := 0x30030 + i * 0x100 + j * 4
/-- SEQ_RET (R197, 09_sequencers.md). -/
def SEQ_RET (i j : Nat) : Nat := 0x30040 + i * 0x100 + j * 4
/-- HP_CFG (R216, 10_host_port.md). -/
def HP_CFG : Nat := 0x50000
def HP_CFG.ENABLE : Fld := ⟨HP_CFG, 31, 31⟩
def HP_CFG.IRQ_OD : Fld := ⟨HP_CFG, 30, 30⟩
/-- HP_STAT (R216, 10_host_port.md). -/
def HP_STAT : Nat := 0x50004
def HP_STAT.EMPTY_TIMEOUT : Fld := ⟨HP_STAT, 31, 31⟩
def HP_STAT.PROTO_ERR : Fld := ⟨HP_STAT, 30, 30⟩
def HP_STAT.RING_ERR : Fld := ⟨HP_STAT, 29, 29⟩
def HP_STAT.OUTST : Fld := ⟨HP_STAT, 10, 0⟩
/-- HP_IRQ (R216, 10_host_port.md). -/
def HP_IRQ : Nat := 0x50008
/-- HP_IRQ_EN (R216, 10_host_port.md). -/
def HP_IRQ_EN : Nat := 0x5000c
/-- HP_CR_BASE (R216, 10_host_port.md). -/
def HP_CR_BASE : Nat := 0x50010
def HP_CR_BASE.ADDR : Fld := ⟨HP_CR_BASE, 31, 12⟩
def HP_CR_BASE.LOG2N : Fld := ⟨HP_CR_BASE, 3, 0⟩
/-- HP_CPL_BASE (R216, 10_host_port.md). -/
def HP_CPL_BASE : Nat := 0x5001c
def HP_CPL_BASE.ADDR : Fld := ⟨HP_CPL_BASE, 31, 12⟩
def HP_CPL_BASE.LOG2N : Fld := ⟨HP_CPL_BASE, 3, 0⟩
/-- HP_EV_BASE (R216, 10_host_port.md). -/
def HP_EV_BASE : Nat := 0x50024
def HP_EV_BASE.ADDR : Fld := ⟨HP_EV_BASE, 31, 12⟩
def HP_EV_BASE.LOG2N : Fld := ⟨HP_EV_BASE, 3, 0⟩
/-- HP_CR_IDX (R216, 10_host_port.md). -/
def HP_CR_IDX : Nat := 0x50014
def HP_CR_IDX.HEAD : Fld := ⟨HP_CR_IDX, 31, 16⟩
def HP_CR_IDX.TAIL : Fld := ⟨HP_CR_IDX, 15, 0⟩
/-- HP_DB (R216, 10_host_port.md). -/
def HP_DB : Nat := 0x50018
/-- HP_CPL_IDX (R216, 10_host_port.md). -/
def HP_CPL_IDX : Nat := 0x50020
def HP_CPL_IDX.TAIL : Fld := ⟨HP_CPL_IDX, 31, 16⟩
def HP_CPL_IDX.HEAD : Fld := ⟨HP_CPL_IDX, 15, 0⟩
/-- HP_EV_IDX (R216, 10_host_port.md). -/
def HP_EV_IDX : Nat := 0x50028
def HP_EV_IDX.TAIL : Fld := ⟨HP_EV_IDX, 31, 16⟩
def HP_EV_IDX.HEAD : Fld := ⟨HP_EV_IDX, 15, 0⟩
/-- HP_EV_LOST (R216, 10_host_port.md). -/
def HP_EV_LOST : Nat := 0x5002c
def HP_EV_LOST.COUNT : Fld := ⟨HP_EV_LOST, 31, 0⟩
/-- HP_COAL (R216, 10_host_port.md). -/
def HP_COAL : Nat := 0x50030
def HP_COAL.CPL_THR : Fld := ⟨HP_COAL, 31, 24⟩
def HP_COAL.CPL_TIME : Fld := ⟨HP_COAL, 23, 16⟩
def HP_COAL.EV_THR : Fld := ⟨HP_COAL, 15, 8⟩
def HP_COAL.EV_TIME : Fld := ⟨HP_COAL, 7, 0⟩
/-- RF_CFG (R243, 11_radio.md). -/
def RF_CFG : Nat := 0xa0000
def RF_CFG.ENABLE : Fld := ⟨RF_CFG, 31, 31⟩
def RF_CFG.BAND : Fld := ⟨RF_CFG, 30, 29⟩
def RF_CFG.PROFILE : Fld := ⟨RF_CFG, 28, 27⟩
def RF_CFG.RETRY_MAX : Fld := ⟨RF_CFG, 26, 24⟩
def RF_CFG.SCA_LOCAL : Fld := ⟨RF_CFG, 23, 16⟩
def RF_CFG.GROUP_SLOT : Fld := ⟨RF_CFG, 14, 8⟩
def RF_CFG.LINK_SLOT : Fld := ⟨RF_CFG, 6, 0⟩
/-- RF_STAT (R243, 11_radio.md). -/
def RF_STAT : Nat := 0xa0004
def RF_STAT.STATE : Fld := ⟨RF_STAT, 31, 29⟩
def RF_STAT.PA_ON : Fld := ⟨RF_STAT, 28, 28⟩
def RF_STAT.LINKS : Fld := ⟨RF_STAT, 15, 0⟩
/-- RF_EVT (R243, 11_radio.md). -/
def RF_EVT : Nat := 0xa0008
def RF_EVT.CFG_REFUSED : Fld := ⟨RF_EVT, 6, 6⟩
def RF_EVT.WAKE : Fld := ⟨RF_EVT, 5, 5⟩
def RF_EVT.DWELL_DEFER : Fld := ⟨RF_EVT, 4, 4⟩
def RF_EVT.CONN_UNKNOWN : Fld := ⟨RF_EVT, 3, 3⟩
def RF_EVT.FLOOD_RX : Fld := ⟨RF_EVT, 2, 2⟩
def RF_EVT.LINK_LOST : Fld := ⟨RF_EVT, 1, 1⟩
def RF_EVT.LINK_UP : Fld := ⟨RF_EVT, 0, 0⟩
/-- RF_PHY (R243, 11_radio.md). -/
def RF_PHY : Nat := 0xa000c
def RF_PHY.RATE : Fld := ⟨RF_PHY, 31, 29⟩
def RF_PHY.MOD : Fld := ⟨RF_PHY, 28, 28⟩
def RF_PHY.SPACING : Fld := ⟨RF_PHY, 27, 26⟩
def RF_PHY.PRE : Fld := ⟨RF_PHY, 4, 0⟩
/-- RF_SYNTH (R243, 11_radio.md). -/
def RF_SYNTH : Nat := 0xa0010
def RF_SYNTH.F0 : Fld := ⟨RF_SYNTH, 25, 0⟩
/-- RF_PWR (R243, 11_radio.md). -/
def RF_PWR : Nat := 0xa0014
def RF_PWR.PA_POL : Fld := ⟨RF_PWR, 31, 31⟩
def RF_PWR.LNA_POL : Fld := ⟨RF_PWR, 30, 30⟩
def RF_PWR.LEVEL : Fld := ⟨RF_PWR, 7, 0⟩
/-- RF_NBR (R243, 11_radio.md). -/
def RF_NBR : Nat := 0xa0018
def RF_NBR.DLVQ : Fld := ⟨RF_NBR, 31, 22⟩
def RF_NBR.BASE : Fld := ⟨RF_NBR, 15, 0⟩
/-- RF_DWELL (R243, 11_radio.md). -/
def RF_DWELL : Nat := 0xa001c
def RF_DWELL.LIMIT : Fld := ⟨RF_DWELL, 31, 16⟩
def RF_DWELL.WINDOW : Fld := ⟨RF_DWELL, 15, 8⟩
def RF_DWELL.DUTY : Fld := ⟨RF_DWELL, 7, 0⟩
/-- RF_FLOOD (R243, 11_radio.md). -/
def RF_FLOOD : Nat := 0xa0020
def RF_FLOOD.TTL : Fld := ⟨RF_FLOOD, 31, 28⟩
def RF_FLOOD.SUPPRESS : Fld := ⟨RF_FLOOD, 27, 25⟩
def RF_FLOOD.FWD_EN : Fld := ⟨RF_FLOOD, 24, 24⟩
def RF_FLOOD.JIT : Fld := ⟨RF_FLOOD, 23, 16⟩
def RF_FLOOD.CHAN : Fld := ⟨RF_FLOOD, 5, 0⟩
/-- RF_SNIFF (R243, 11_radio.md). -/
def RF_SNIFF : Nat := 0xa0024
def RF_SNIFF.LISTEN : Fld := ⟨RF_SNIFF, 15, 8⟩
def RF_SNIFF.EN : Fld := ⟨RF_SNIFF, 7, 7⟩
/-- RF_DISC (R243, 11_radio.md). -/
def RF_DISC : Nat := 0xa0028
def RF_DISC.BCN_EN : Fld := ⟨RF_DISC, 31, 31⟩
def RF_DISC.ACCEPT : Fld := ⟨RF_DISC, 30, 30⟩
def RF_DISC.CH2 : Fld := ⟨RF_DISC, 29, 24⟩
def RF_DISC.CH1 : Fld := ⟨RF_DISC, 21, 16⟩
def RF_DISC.CH0 : Fld := ⟨RF_DISC, 13, 8⟩
def RF_DISC.BCN_INT : Fld := ⟨RF_DISC, 7, 0⟩
/-- RF_LAST (R243, 11_radio.md). -/
def RF_LAST : Nat := 0xa002c
/-- RF_CNT (R243, 11_radio.md). -/
def RF_CNT : Nat := 0xa0030
def RF_CNT.DUP_RX : Fld := ⟨RF_CNT, 31, 24⟩
def RF_CNT.MIC_FAIL : Fld := ⟨RF_CNT, 23, 16⟩
def RF_CNT.FLOOD_DUP : Fld := ⟨RF_CNT, 15, 8⟩
def RF_CNT.REPLAY : Fld := ⟨RF_CNT, 7, 4⟩
def RF_CNT.FALSE_WAKE : Fld := ⟨RF_CNT, 3, 0⟩
/-- RF_LCFG (R243, 11_radio.md). -/
def RF_LCFG (i : Nat) : Nat := 0xa0100 + i * 0x20
def RF_LCFG.ENABLE (i : Nat) : Fld := ⟨RF_LCFG i, 31, 31⟩
def RF_LCFG.ROLE (i : Nat) : Fld := ⟨RF_LCFG i, 30, 29⟩
def RF_LCFG.STATE (i : Nat) : Fld := ⟨RF_LCFG i, 28, 26⟩
def RF_LCFG.NBR (i : Nat) : Fld := ⟨RF_LCFG i, 7, 0⟩
/-- RF_LTIME (R243, 11_radio.md). -/
def RF_LTIME (i : Nat) : Nat := 0xa0104 + i * 0x20
def RF_LTIME.INTERVAL (i : Nat) : Fld := ⟨RF_LTIME i, 31, 16⟩
def RF_LTIME.SUP_TO (i : Nat) : Fld := ⟨RF_LTIME i, 15, 0⟩
/-- RF_LWIN (R243, 11_radio.md). -/
def RF_LWIN (i : Nat) : Nat := 0xa0108 + i * 0x20
def RF_LWIN.WIN_BASE (i : Nat) : Fld := ⟨RF_LWIN i, 31, 24⟩
def RF_LWIN.SCA_PEER (i : Nat) : Fld := ⟨RF_LWIN i, 23, 16⟩
def RF_LWIN.CONN_ID (i : Nat) : Fld := ⟨RF_LWIN i, 15, 0⟩
/-- RF_LMAP_LO (R243, 11_radio.md). -/
def RF_LMAP_LO (i : Nat) : Nat := 0xa010c + i * 0x20
def RF_LMAP_LO.CHANNELS (i : Nat) : Fld := ⟨RF_LMAP_LO i, 31, 0⟩
/-- RF_LMAP_HI (R243, 11_radio.md). -/
def RF_LMAP_HI (i : Nat) : Nat := 0xa0110 + i * 0x20
def RF_LMAP_HI.CHANNELS (i : Nat) : Fld := ⟨RF_LMAP_HI i, 31, 0⟩
/-- RF_LSTAT (R243, 11_radio.md). -/
def RF_LSTAT (i : Nat) : Nat := 0xa0114 + i * 0x20
def RF_LSTAT.EVENT (i : Nat) : Fld := ⟨RF_LSTAT i, 31, 16⟩
def RF_LSTAT.MISSES (i : Nat) : Fld := ⟨RF_LSTAT i, 15, 14⟩
def RF_LSTAT.CHAN (i : Nat) : Fld := ⟨RF_LSTAT i, 13, 8⟩
def RF_LSTAT.LAST_END (i : Nat) : Fld := ⟨RF_LSTAT i, 7, 0⟩
/-- UA_CFG (R259, 12_serial_ports.md). -/
def UA_CFG (i : Nat) : Nat := 0xb0000 + i * 0x100
def UA_CFG.ENABLE (i : Nat) : Fld := ⟨UA_CFG i, 31, 31⟩
def UA_CFG.AUTOBAUD (i : Nat) : Fld := ⟨UA_CFG i, 30, 30⟩
def UA_CFG.PARITY (i : Nat) : Fld := ⟨UA_CFG i, 29, 28⟩
def UA_CFG.NINE (i : Nat) : Fld := ⟨UA_CFG i, 27, 27⟩
def UA_CFG.DATA7 (i : Nat) : Fld := ⟨UA_CFG i, 26, 26⟩
def UA_CFG.STOP2 (i : Nat) : Fld := ⟨UA_CFG i, 25, 25⟩
def UA_CFG.AB_CHAR (i : Nat) : Fld := ⟨UA_CFG i, 24, 24⟩
def UA_CFG.AMATCH (i : Nat) : Fld := ⟨UA_CFG i, 23, 23⟩
def UA_CFG.LISTEN_TX (i : Nat) : Fld := ⟨UA_CFG i, 22, 22⟩
/-- UA_BAUD (R259, 12_serial_ports.md). -/
def UA_BAUD (i : Nat) : Nat := 0xb0004 + i * 0x100
def UA_BAUD.PEND (i : Nat) : Fld := ⟨UA_BAUD i, 31, 31⟩
def UA_BAUD.DIV_I (i : Nat) : Fld := ⟨UA_BAUD i, 21, 6⟩
def UA_BAUD.DIV_F (i : Nat) : Fld := ⟨UA_BAUD i, 5, 0⟩
/-- UA_STAT (R259, 12_serial_ports.md). -/
def UA_STAT (i : Nat) : Nat := 0xb0008 + i * 0x100
def UA_STAT.TX_BUSY (i : Nat) : Fld := ⟨UA_STAT i, 31, 31⟩
def UA_STAT.DE (i : Nat) : Fld := ⟨UA_STAT i, 30, 30⟩
def UA_STAT.MUTED (i : Nat) : Fld := ⟨UA_STAT i, 29, 29⟩
def UA_STAT.XOFF_RX (i : Nat) : Fld := ⟨UA_STAT i, 28, 28⟩
def UA_STAT.XOFF_TX (i : Nat) : Fld := ⟨UA_STAT i, 27, 27⟩
def UA_STAT.LINE_STUCK (i : Nat) : Fld := ⟨UA_STAT i, 26, 26⟩
def UA_STAT.LINE (i : Nat) : Fld := ⟨UA_STAT i, 25, 25⟩
/-- UA_EVT (R259, 12_serial_ports.md). -/
def UA_EVT (i : Nat) : Nat := 0xb000c + i * 0x100
def UA_EVT.BREAK (i : Nat) : Fld := ⟨UA_EVT i, 5, 5⟩
def UA_EVT.BAUD_SWITCHED (i : Nat) : Fld := ⟨UA_EVT i, 4, 4⟩
def UA_EVT.RX_LOST (i : Nat) : Fld := ⟨UA_EVT i, 3, 3⟩
def UA_EVT.LINE_STUCK (i : Nat) : Fld := ⟨UA_EVT i, 2, 2⟩
def UA_EVT.AB_FAIL (i : Nat) : Fld := ⟨UA_EVT i, 1, 1⟩
def UA_EVT.AB_DONE (i : Nat) : Fld := ⟨UA_EVT i, 0, 0⟩
/-- UA_RX (R259, 12_serial_ports.md). -/
def UA_RX (i : Nat) : Nat := 0xb0010 + i * 0x100
def UA_RX.QUEUE (i : Nat) : Fld := ⟨UA_RX i, 25, 16⟩
def UA_RX.RTO (i : Nat) : Fld := ⟨UA_RX i, 15, 8⟩
def UA_RX.PKT_MAX (i : Nat) : Fld := ⟨UA_RX i, 7, 0⟩
/-- UA_ADDR (R259, 12_serial_ports.md). -/
def UA_ADDR (i : Nat) : Nat := 0xb0014 + i * 0x100
def UA_ADDR.MASK (i : Nat) : Fld := ⟨UA_ADDR i, 23, 16⟩
def UA_ADDR.ADDR (i : Nat) : Fld := ⟨UA_ADDR i, 15, 8⟩
def UA_ADDR.BCAST (i : Nat) : Fld := ⟨UA_ADDR i, 0, 0⟩
/-- UA_DE (R259, 12_serial_ports.md). -/
def UA_DE (i : Nat) : Nat := 0xb0018 + i * 0x100
def UA_DE.POL (i : Nat) : Fld := ⟨UA_DE i, 31, 31⟩
/-- UA_FLOW (R259, 12_serial_ports.md). -/
def UA_FLOW (i : Nat) : Nat := 0xb001c + i * 0x100
def UA_FLOW.XEN (i : Nat) : Fld := ⟨UA_FLOW i, 31, 31⟩
def UA_FLOW.XSTRIP (i : Nat) : Fld := ⟨UA_FLOW i, 30, 30⟩
def UA_FLOW.XOFF_AT (i : Nat) : Fld := ⟨UA_FLOW i, 15, 8⟩
def UA_FLOW.XON_AT (i : Nat) : Fld := ⟨UA_FLOW i, 7, 0⟩
/-- UA_OPT (R259, 12_serial_ports.md). -/
def UA_OPT (i : Nat) : Nat := 0xb0020 + i * 0x100
def UA_OPT.SIR (i : Nat) : Fld := ⟨UA_OPT i, 31, 31⟩
def UA_OPT.TX_POL (i : Nat) : Fld := ⟨UA_OPT i, 30, 30⟩
def UA_OPT.RX_POL (i : Nat) : Fld := ⟨UA_OPT i, 29, 29⟩
def UA_OPT.SW_CHAR (i : Nat) : Fld := ⟨UA_OPT i, 15, 8⟩
/-- UA_CNT (R259, 12_serial_ports.md). -/
def UA_CNT (i : Nat) : Nat := 0xb0024 + i * 0x100
def UA_CNT.FRAMING (i : Nat) : Fld := ⟨UA_CNT i, 31, 24⟩
def UA_CNT.PARITY (i : Nat) : Fld := ⟨UA_CNT i, 23, 16⟩
def UA_CNT.NOISE (i : Nat) : Fld := ⟨UA_CNT i, 15, 8⟩
def UA_CNT.AB_FAIL (i : Nat) : Fld := ⟨UA_CNT i, 7, 4⟩
def UA_CNT.RX_LOST (i : Nat) : Fld := ⟨UA_CNT i, 3, 0⟩
/-- CT_CFG (R269, 13_control.md). -/
def CT_CFG : Nat := 0xc0000
def CT_CFG.OE : Fld := ⟨CT_CFG, 31, 31⟩
def CT_CFG.DEB : Fld := ⟨CT_CFG, 23, 16⟩
/-- CT_OUT (R269, 13_control.md). -/
def CT_OUT : Nat := 0xc0004
def CT_OUT.HELD : Fld := ⟨CT_OUT, 31, 16⟩
def CT_OUT.LEVEL : Fld := ⟨CT_OUT, 15, 0⟩
/-- CT_SET (R269, 13_control.md). -/
def CT_SET : Nat := 0xc0008
/-- CT_CLR (R269, 13_control.md). -/
def CT_CLR : Nat := 0xc000c
/-- CT_PAIR (R269, 13_control.md). -/
def CT_PAIR : Nat := 0xc0010
def CT_PAIR.PAIRS : Fld := ⟨CT_PAIR, 7, 0⟩
/-- CT_TRIP (R269, 13_control.md). -/
def CT_TRIP : Nat := 0xc0014
def CT_TRIP.GUARD : Fld := ⟨CT_TRIP, 7, 0⟩
/-- CT_EVT (R269, 13_control.md). -/
def CT_EVT : Nat := 0xc0018
def CT_EVT.DLIM_LEVEL : Fld := ⟨CT_EVT, 4, 4⟩
def CT_EVT.DIN_EDGE : Fld := ⟨CT_EVT, 3, 3⟩
def CT_EVT.FB_MISMATCH : Fld := ⟨CT_EVT, 2, 2⟩
def CT_EVT.INTERLOCK : Fld := ⟨CT_EVT, 1, 1⟩
def CT_EVT.TRIP : Fld := ⟨CT_EVT, 0, 0⟩
/-- CT_DLIM (R269, 13_control.md). -/
def CT_DLIM : Nat := 0xc001c
def CT_DLIM.LEVEL : Fld := ⟨CT_DLIM, 31, 28⟩
def CT_DLIM.SETPOINT : Fld := ⟨CT_DLIM, 15, 0⟩
/-- CT_DIN (R269, 13_control.md). -/
def CT_DIN : Nat := 0xc0020
def CT_DIN.EDGE : Fld := ⟨CT_DIN, 31, 16⟩
def CT_DIN.LEVEL : Fld := ⟨CT_DIN, 15, 0⟩
/-- CT_GCFG (R269, 13_control.md). -/
def CT_GCFG (i : Nat) : Nat := 0xc0040 + i * 8
def CT_GCFG.MODE (i : Nat) : Fld := ⟨CT_GCFG i, 31, 30⟩
def CT_GCFG.M (i : Nat) : Fld := ⟨CT_GCFG i, 29, 24⟩
def CT_GCFG.THR (i : Nat) : Fld := ⟨CT_GCFG i, 15, 0⟩
/-- CT_GMAP (R269, 13_control.md). -/
def CT_GMAP (i : Nat) : Nat := 0xc0044 + i * 8
def CT_GMAP.OUT (i : Nat) : Fld := ⟨CT_GMAP i, 15, 0⟩
/-- CT_OCFG (R269, 13_control.md). -/
def CT_OCFG (i : Nat) : Nat := 0xc0080 + i * 4
def CT_OCFG.SAFE (i : Nat) : Fld := ⟨CT_OCFG i, 31, 31⟩
def CT_OCFG.FB_EN (i : Nat) : Fld := ⟨CT_OCFG i, 30, 30⟩
def CT_OCFG.FB_INV (i : Nat) : Fld := ⟨CT_OCFG i, 29, 29⟩
def CT_OCFG.FB_DIN (i : Nat) : Fld := ⟨CT_OCFG i, 3, 0⟩
/-- WD_ID (R296, 14_warden.md). -/
def WD_ID : Nat := 0x70000
/-- WD_STAT (R296, 14_warden.md). -/
def WD_STAT : Nat := 0x70004
def WD_STAT.STATE : Fld := ⟨WD_STAT, 31, 30⟩
def WD_STAT.PRES_OPEN : Fld := ⟨WD_STAT, 29, 29⟩
def WD_STAT.PRES_LVL : Fld := ⟨WD_STAT, 28, 28⟩
def WD_STAT.QCAUSE : Fld := ⟨WD_STAT, 20, 16⟩
/-- WD_EVT (R296, 14_warden.md). -/
def WD_EVT : Nat := 0x70008
def WD_EVT.OTP_WRITTEN : Fld := ⟨WD_EVT, 7, 7⟩
def WD_EVT.MBX_DONE : Fld := ⟨WD_EVT, 6, 6⟩
def WD_EVT.SELFTEST_DONE : Fld := ⟨WD_EVT, 5, 5⟩
def WD_EVT.QUARANTINE : Fld := ⟨WD_EVT, 4, 4⟩
def WD_EVT.CTR_WARN : Fld := ⟨WD_EVT, 3, 3⟩
def WD_EVT.EXHAUSTED : Fld := ⟨WD_EVT, 2, 2⟩
def WD_EVT.PRES_CLOSE : Fld := ⟨WD_EVT, 1, 1⟩
def WD_EVT.PRES_OPEN : Fld := ⟨WD_EVT, 0, 0⟩
/-- WD_PRES (R296, 14_warden.md). -/
def WD_PRES : Nat := 0x7000c
def WD_PRES.LEFT : Fld := ⟨WD_PRES, 8, 0⟩
/-- WD_POLICY (R296, 14_warden.md). -/
def WD_POLICY : Nat := 0x70010
def WD_POLICY.DBG_UNLOCK : Fld := ⟨WD_POLICY, 31, 31⟩
def WD_POLICY.PLAIN_LOAD : Fld := ⟨WD_POLICY, 30, 30⟩
def WD_POLICY.EXPORT_EN : Fld := ⟨WD_POLICY, 29, 29⟩
/-- WD_CTRWARN (R296, 14_warden.md). -/
def WD_CTRWARN : Nat := 0x70014
def WD_CTRWARN.THRESH : Fld := ⟨WD_CTRWARN, 31, 0⟩
/-- WD_SLOTSEL (R296, 14_warden.md). -/
def WD_SLOTSEL : Nat := 0x70018
def WD_SLOTSEL.SLOT : Fld := ⟨WD_SLOTSEL, 6, 0⟩
/-- WD_SLOT (R296, 14_warden.md). -/
def WD_SLOT : Nat := 0x7001c
/-- WD_SLOT_VER (R296, 14_warden.md). -/
def WD_SLOT_VER : Nat := 0x70020
/-- WD_SLOT_CTR (R296, 14_warden.md). -/
def WD_SLOT_CTR : Nat := 0x70024
/-- WD_EUI_LO (R296, 14_warden.md). -/
def WD_EUI_LO : Nat := 0x70028
/-- WD_EUI_HI (R296, 14_warden.md). -/
def WD_EUI_HI : Nat := 0x7002c
/-- WD_FLOOR (R296, 14_warden.md). -/
def WD_FLOOR : Nat := 0x70030
/-- WD_LIFE (R296, 14_warden.md). -/
def WD_LIFE : Nat := 0x70034
/-- WD_MBX_CMD (R296, 14_warden.md). -/
def WD_MBX_CMD : Nat := 0x70040
/-- WD_MBX_STAT (R296, 14_warden.md). -/
def WD_MBX_STAT : Nat := 0x70044
def WD_MBX_STAT.BUSY : Fld := ⟨WD_MBX_STAT, 31, 31⟩
def WD_MBX_STAT.DONE : Fld := ⟨WD_MBX_STAT, 30, 30⟩
def WD_MBX_STAT.DETAIL : Fld := ⟨WD_MBX_STAT, 23, 16⟩
def WD_MBX_STAT.STATUS : Fld := ⟨WD_MBX_STAT, 7, 0⟩
/-- WD_MBX_ARG (R296, 14_warden.md). -/
def WD_MBX_ARG (i : Nat) : Nat := 0x70048 + i * 4
/-- WD_MBX_DATA (R296, 14_warden.md). -/
def WD_MBX_DATA (i : Nat) : Nat := 0x70080 + i * 4
/-- SYS_MODE (R317, 15_power_modes.md). -/
def SYS_MODE : Nat := 4
def SYS_MODE.PREV : Fld := ⟨SYS_MODE, 27, 24⟩
def SYS_MODE.CAUSE : Fld := ⟨SYS_MODE, 23, 16⟩
def SYS_MODE.MODE : Fld := ⟨SYS_MODE, 3, 0⟩
/-- SYS_CTL (R317, 15_power_modes.md). -/
def SYS_CTL : Nat := 8
def SYS_CTL.FULL : Fld := ⟨SYS_CTL, 30, 30⟩
/-- SYS_STRAP (R317, 15_power_modes.md). -/
def SYS_STRAP : Nat := 0xc
def SYS_STRAP.TEST_EN : Fld := ⟨SYS_STRAP, 1, 1⟩
def SYS_STRAP.ALLOY_ROLE : Fld := ⟨SYS_STRAP, 0, 0⟩
/-- CLK_CFG (R317, 15_power_modes.md). -/
def CLK_CFG : Nat := 0x10000
def CLK_CFG.KEEP_PLL : Fld := ⟨CLK_CFG, 31, 31⟩
def CLK_CFG.KEEP_XREF : Fld := ⟨CLK_CFG, 30, 30⟩
/-- CLK_STAT (R317, 15_power_modes.md). -/
def CLK_STAT : Nat := 0x10004
def CLK_STAT.X32_OK : Fld := ⟨CLK_STAT, 31, 31⟩
def CLK_STAT.X32_FAIL : Fld := ⟨CLK_STAT, 30, 30⟩
def CLK_STAT.XREF_ON : Fld := ⟨CLK_STAT, 29, 29⟩
def CLK_STAT.PLL_LOCK : Fld := ⟨CLK_STAT, 28, 28⟩
def CLK_STAT.RING : Fld := ⟨CLK_STAT, 27, 27⟩
def CLK_STAT.RATE : Fld := ⟨CLK_STAT, 1, 0⟩
/-- PWR_CFG (R317, 15_power_modes.md). -/
def PWR_CFG : Nat := 0x10008
def PWR_CFG.BOOT_ANY : Fld := ⟨PWR_CFG, 31, 31⟩
def PWR_CFG.OUT_SLEEP : Fld := ⟨PWR_CFG, 30, 29⟩
def PWR_CFG.OUT_HOLD : Fld := ⟨PWR_CFG, 15, 0⟩
/-- PWR_MAINS (R317, 15_power_modes.md). -/
def PWR_MAINS : Nat := 0x1000c
def PWR_MAINS.PRESENT_CYC : Fld := ⟨PWR_MAINS, 31, 24⟩
def PWR_MAINS.RESTORE_CYC : Fld := ⟨PWR_MAINS, 23, 16⟩
def PWR_MAINS.LOSS_MARGIN : Fld := ⟨PWR_MAINS, 7, 0⟩
/-- PWR_STAT (R317, 15_power_modes.md). -/
def PWR_STAT : Nat := 0x10010
def PWR_STAT.MAINS : Fld := ⟨PWR_STAT, 31, 31⟩
def PWR_STAT.QS_PWREN : Fld := ⟨PWR_STAT, 30, 30⟩
def PWR_STAT.RF_PWREN : Fld := ⟨PWR_STAT, 29, 29⟩
def PWR_STAT.BOD : Fld := ⟨PWR_STAT, 19, 16⟩
def PWR_STAT.HALF : Fld := ⟨PWR_STAT, 15, 0⟩
/-- PWR_EVT (R317, 15_power_modes.md). -/
def PWR_EVT : Nat := 0x10014
def PWR_EVT.ALARM : Fld := ⟨PWR_EVT, 5, 5⟩
def PWR_EVT.X32_FAIL : Fld := ⟨PWR_EVT, 4, 4⟩
def PWR_EVT.BROWNOUT : Fld := ⟨PWR_EVT, 3, 3⟩
def PWR_EVT.THERMAL : Fld := ⟨PWR_EVT, 2, 2⟩
def PWR_EVT.MAINS_BACK : Fld := ⟨PWR_EVT, 1, 1⟩
def PWR_EVT.MAINS_LOST : Fld := ⟨PWR_EVT, 0, 0⟩
/-- PWR_WAKE (R317, 15_power_modes.md). -/
def PWR_WAKE : Nat := 0x10018
def PWR_WAKE.PRES : Fld := ⟨PWR_WAKE, 3, 3⟩
def PWR_WAKE.RADIO : Fld := ⟨PWR_WAKE, 2, 2⟩
def PWR_WAKE.ALARM : Fld := ⟨PWR_WAKE, 1, 1⟩
def PWR_WAKE.MAINS : Fld := ⟨PWR_WAKE, 0, 0⟩
/-- PWR_RETAIN (R317, 15_power_modes.md). -/
def PWR_RETAIN : Nat := 0x1001c
def PWR_RETAIN.BANKS : Fld := ⟨PWR_RETAIN, 15, 0⟩
/-- PWR_TEMP (R317, 15_power_modes.md). -/
def PWR_TEMP : Nat := 0x10020
def PWR_TEMP.LIMIT : Fld := ⟨PWR_TEMP, 31, 24⟩
def PWR_TEMP.TEMP : Fld := ⟨PWR_TEMP, 7, 0⟩
/-- PWR_RTC_LO (R317, 15_power_modes.md). -/
def PWR_RTC_LO : Nat := 0x10024
/-- PWR_RTC_HI (R317, 15_power_modes.md). -/
def PWR_RTC_HI : Nat := 0x10028
/-- PWR_ALARM (R317, 15_power_modes.md). -/
def PWR_ALARM : Nat := 0x1002c
/-- PWR_MCYC (R317, 15_power_modes.md). -/
def PWR_MCYC : Nat := 0x10030
def PWR_MCYC.CYCLE : Fld := ⟨PWR_MCYC, 31, 0⟩
/-- AL_CFG (R335, 16_alloy.md). -/
def AL_CFG : Nat := 0xd0000
def AL_CFG.ENABLE : Fld := ⟨AL_CFG, 31, 31⟩
def AL_CFG.CRC_BURST : Fld := ⟨AL_CFG, 23, 16⟩
def AL_CFG.SYNC_CYC : Fld := ⟨AL_CFG, 15, 0⟩
/-- AL_STAT (R335, 16_alloy.md). -/
def AL_STAT : Nat := 0xd0004
def AL_STAT.LINK : Fld := ⟨AL_STAT, 31, 30⟩
def AL_STAT.ROLE : Fld := ⟨AL_STAT, 29, 28⟩
def AL_STAT.LOST_CAUSE : Fld := ⟨AL_STAT, 27, 26⟩
def AL_STAT.MISSES : Fld := ⟨AL_STAT, 19, 16⟩
def AL_STAT.PINNED : Fld := ⟨AL_STAT, 13, 0⟩
/-- AL_EVT (R335, 16_alloy.md). -/
def AL_EVT : Nat := 0xd0008
def AL_EVT.CYC_SLIP : Fld := ⟨AL_EVT, 4, 4⟩
def AL_EVT.ROLE_CONFLICT : Fld := ⟨AL_EVT, 3, 3⟩
def AL_EVT.HEALED : Fld := ⟨AL_EVT, 2, 2⟩
def AL_EVT.LINK_LOST : Fld := ⟨AL_EVT, 1, 1⟩
def AL_EVT.LINK_UP : Fld := ⟨AL_EVT, 0, 0⟩
/-- AL_CTL (R335, 16_alloy.md). -/
def AL_CTL : Nat := 0xd000c
def AL_CTL.PROMOTE : Fld := ⟨AL_CTL, 31, 31⟩
/-- AL_SYNC (R335, 16_alloy.md). -/
def AL_SYNC : Nat := 0xd0010
/-- AL_CNT (R335, 16_alloy.md). -/
def AL_CNT : Nat := 0xd0014
def AL_CNT.CRC_ERR : Fld := ⟨AL_CNT, 31, 24⟩
def AL_CNT.FOREIGN : Fld := ⟨AL_CNT, 23, 16⟩
def AL_CNT.REPLAY_DUP : Fld := ⟨AL_CNT, 15, 8⟩
def AL_CNT.BUF_LOST : Fld := ⟨AL_CNT, 7, 0⟩
/-- PM_CTL (R344, 17_counters.md). -/
def PM_CTL : Nat := 0x40000
def PM_CTL.FREEZE : Fld := ⟨PM_CTL, 31, 31⟩
def PM_CTL.USER_EN : Fld := ⟨PM_CTL, 30, 30⟩
/-- PM_SNAP (R344, 17_counters.md). -/
def PM_SNAP : Nat := 0x40004
/-- PM_OVF_LO (R344, 17_counters.md). -/
def PM_OVF_LO : Nat := 0x40008
def PM_OVF_LO.OVF : Fld := ⟨PM_OVF_LO, 31, 0⟩
/-- PM_OVF_HI (R344, 17_counters.md). -/
def PM_OVF_HI : Nat := 0x4000c
def PM_OVF_HI.OVF : Fld := ⟨PM_OVF_HI, 31, 0⟩
/-- PM_SOVF_LO (R344, 17_counters.md). -/
def PM_SOVF_LO : Nat := 0x40010
/-- PM_SOVF_HI (R344, 17_counters.md). -/
def PM_SOVF_HI : Nat := 0x40014
/-- PM_SEL (R344, 17_counters.md). -/
def PM_SEL (i : Nat) : Nat := 0x40100 + i * 0x10
def PM_SEL.INT (i : Nat) : Fld := ⟨PM_SEL i, 31, 31⟩
def PM_SEL.EV (i : Nat) : Fld := ⟨PM_SEL i, 30, 30⟩
def PM_SEL.QUAL (i : Nat) : Fld := ⟨PM_SEL i, 15, 8⟩
def PM_SEL.EVENT (i : Nat) : Fld := ⟨PM_SEL i, 4, 0⟩
/-- PM_THR (R344, 17_counters.md). -/
def PM_THR (i : Nat) : Nat := 0x40104 + i * 0x10
def PM_THR.THR (i : Nat) : Fld := ⟨PM_THR i, 16, 0⟩
/-- PM_CTR_LO (R344, 17_counters.md). -/
def PM_CTR_LO (i : Nat) : Nat := 0x40108 + i * 0x10
/-- PM_CTR_HI (R344, 17_counters.md). -/
def PM_CTR_HI (i : Nat) : Nat := 0x4010c + i * 0x10
/-- PM_SHD_LO (R344, 17_counters.md). -/
def PM_SHD_LO (i : Nat) : Nat := 0x40500 + i * 8
/-- PM_SHD_HI (R344, 17_counters.md). -/
def PM_SHD_HI (i : Nat) : Nat := 0x40504 + i * 8

end Sys2Proof.Machine
end

