-- ==== Sys2Proof/Machine/State.lean ====
section
/-! DEFINITION. The machine's state as plain data, its reset value, and the two closed lists of stops. -/

namespace Sys2Proof.Machine

/-- The memory of the device: SRAM bytes by address (R132). Unlisted bytes read 0: every bank is scrubbed to zero before use (R138, R299). -/
abbrev Memory := List Host.Cell

/-- What a byte that nothing has written reads as. -/
def memDefault (_ : Nat) : Byte := 0#8

/-- The canonical form of the memory: addresses strictly rising, no listed byte 0. -/
abbrev Memory.wf (m : Memory) : Bool := mwf memDefault m

/-- Why a step stops: no meaning raises a fault, so there is no constructor. An operand of another shape than its row's runs with open
values (log 5), which is safe. -/
inductive Fault where
  deriving DecidableEq, Repr

/-- Why a command has no meaning. -/
inductive Refusal where
  /-- Raised by an arm of exec whose command has no meaning yet. Safe: nothing follows from it. -/
  | notModelled (mnemonic : String)
  deriving DecidableEq, Repr

/-! ### Host port -/

/-- An outstanding transaction (R203, R209). -/
structure Trans where
  /-- Tag (R205). -/
  tag : Nat
  /-- TYPE of its descriptor (R205). -/
  type : Nat
  deriving DecidableEq, Repr

/-- The host port's state that no register shows (10). -/
structure HostSt where
  /-- Transactions taken and not yet completed, oldest first; HP_STAT.OUTST counts them (R203, R216). -/
  outst : List Trans := []
  /-- Tags taken since HP_CFG.ENABLE last became 1, one bit per tag (R215). -/
  taken : List Nat := []
  /-- A doorbell has been taken since ENABLE last became 1 (R203). -/
  rung : Bool := false
  /-- Events lost since the last OVERFLOW record (R211). -/
  lostSince : Nat := 0
  /-- The oldest unconsumed completion has waited CPL_TIME (R212). -/
  cplAged : Bool := false
  /-- The oldest unconsumed event has waited EV_TIME (R212). -/
  evAged : Bool := false
  /-- The words that the last transfer drove to the host, in order (R199). -/
  out : List Word := []
  /-- The consuming window whose read of part 0 waits for a word (R151). -/
  wait : Option Nat := none
  deriving DecidableEq, Repr

/-! ### Pewter pool -/

/-- A committed or open word of a queue: where it stands, and whether the link table marks it as the end of a packet (R139). -/
structure QSlot where
  /-- Cell (R139). -/
  cell : Nat
  /-- Word within the cell, 0 to 7 (R139). -/
  word : Nat
  /-- EOPMAP bit (R139). -/
  eop : Bool
  /-- Commit number of its packet, or of the word on a stream queue: commits in the order in which they happened (R144, R73). -/
  seq : Nat
  deriving DecidableEq, Repr

/-- A queue: its descriptor (R140) and its committed chain. -/
structure QueueSt where
  /-- EN (R140). -/
  en : Bool := false
  /-- FMT: 0 sample, 1 byte, 2 UART, 3 BFP20 (R140). -/
  fmt : Nat := 0
  /-- STREAM (R149). -/
  stream : Bool := false
  /-- OVR (R150). -/
  ovr : Bool := false
  /-- BROKEN (R153). -/
  broken : Bool := false
  /-- WMH_L (R152). -/
  wmhL : Bool := false
  /-- WML_L (R152). -/
  wmlL : Bool := false
  /-- NOTIFY (R140). -/
  notify : Nat := 0
  /-- NSEQ (R140). -/
  nseq : Nat := 0
  /-- LIMIT (R140). -/
  limit : Nat := 0
  /-- WM_HI (R152). -/
  wmHi : Nat := 0
  /-- WM_LO (R152). -/
  wmLo : Nat := 0
  /-- Committed words in delivery order (R144). -/
  chain : List QSlot := []
  /-- TAIL_CELL and TAIL_FILL (R140). -/
  tailCell : Nat := 0
  tailFill : Nat := 0
  /-- Cells that hold the committed chain, and those of a BROKEN queue (R139, R153). -/
  cells : List Nat := []
  /-- A poisoned word of the packet being delivered has been met (R146). -/
  badRun : Bool := false
  deriving DecidableEq, Repr

/-- What became of an open packet before its EOP (R145). -/
inductive Doom where
  | flushed | full | bad
  deriving DecidableEq, Repr

/-- An open packet, or the samples waiting to be packed for a BFP20 queue (R143, R144). -/
structure OpenPkt where
  /-- The producer (R144). -/
  prod : Producer
  /-- The queue. -/
  q : Nat
  /-- Its words so far, in order, without the final EOP mark. -/
  slots : List QSlot
  /-- Its private chain of cells (R144). -/
  cells : List Nat
  /-- Set once it is poisoned (R145). -/
  doom : Option Doom
  /-- Samples not yet packed, each with the flags F1 and F0 of its sample word (R143). -/
  buf : List (BitVec 24 × Bool × Bool)
  deriving DecidableEq, Repr

/-- A host window's hidden state (R154). -/
structure WinSt where
  /-- The parts of the head word that part 0 copied, or the parts written so far (R154). -/
  held : List Word := []
  /-- Where the copied head word stands in its queue (R154). -/
  at_ : Option QSlot := none
  deriving DecidableEq, Repr

/-- The pool (07). -/
structure PoolSt where
  /-- Queues by number (R140). -/
  queues : SMap QueueSt := []
  /-- Open packets, in the order in which they opened (R144, R150). -/
  opens : List OpenPkt := []
  /-- Cells that are not free: held by a queue, an open packet, a staged ingot, or lost (R139, R153). -/
  used : List Nat := []
  /-- Held words of the windows (R154). -/
  wins : SMap WinSt := []
  /-- The scrubber's next word (R135). -/
  scrub : Nat := 0
  /-- Commits so far (R144). -/
  commits : Nat := 0
  /-- The queues were cast by the ingot in force before the sleep (R138). -/
  hadQueues : Bool := false
  /-- The first cell of the pool as it was last laid out, through a sleep too (R138, R139). -/
  first : Option Nat := none
  deriving DecidableEq, Repr

/-! ### Line ports, mains lock and transmission -/

/-- What a transmit context carries (R369). -/
inductive TxKind where
  /-- A beacon (R100). -/
  | beacon
  /-- An ACK or NACK to the frame with this SRC and SEQ (R94, R92 step 4). -/
  | answer (src seq : Nat)
  /-- A JOIN_ACK (R104). -/
  | joinAck
  /-- An echo forward (R99). -/
  | forward
  /-- A probe tone (R34). -/
  | tone
  /-- The item whose packet has this commit number (R73). -/
  | item (seq : Nat)
  /-- A retry of the send with this id (R96). -/
  | retry (id : Nat)
  deriving DecidableEq, Repr

/-- Results of a transmit report (R75). -/
inductive Report75 where
  | ok | muted | mainsLost | notPermitted | bad
  deriving DecidableEq, Repr

/-- A transmit context in use (R73, R74). -/
structure TxCtx where
  /-- Lane k (R73). -/
  k : Nat
  kind : TxKind
  /-- MAC frame (R85). -/
  frame : List Byte
  /-- Coding profile (R84). -/
  cp : Nat
  /-- FULLMASK (R71). -/
  full : Bool
  /-- The mask of the frame, fixed at its first symbol (R67). -/
  mask : Nat
  /-- REF of the item (R71). -/
  ref : Nat
  /-- Level used, in 0.25 dB below a full-scale sine (R28). -/
  atten : Nat
  /-- The number of the cycle in which it starts (R73). -/
  cyc : Nat
  /-- Its first symbol has been sent (R72). -/
  started : Bool
  /-- The symbols on the line, as deviations in units of Rs / 12 (R80, R83, R76). -/
  syms : List Int
  /-- Symbols sent in full; of a tone, slots (R72, R34). -/
  sent : Nat := 0
  /-- It runs to its end on the grid that a lock replaced (R62). -/
  old : Bool := false
  deriving DecidableEq, Repr

/-- A MAC frame the device builds, before its protection (R85, R90). -/
structure MacOut where
  /-- FCTL to the end of ROUTE. -/
  head : List Byte
  /-- SLV; 0 for an unsecured frame. -/
  slv : Nat
  body : List Byte
  /-- The registry entry whose EUI and KEY_GEN make the link key, or else those two themselves. -/
  entry : Option Nat
  eui : List Byte
  gen : Nat
  deriving DecidableEq, Repr

/-- A pending ACK or NACK (R94). -/
structure PendAns where
  /-- Lane k (R94). -/
  k : Nat
  /-- The cycle in which it starts, E + 2 (R94). -/
  cyc : Nat
  mac : MacOut
  cp : Nat
  full : Bool
  /-- SRC and SEQ of the frame answered (R92 step 4). -/
  src : Nat
  seq : Nat
  deriving DecidableEq, Repr

/-- A queued JOIN_ACK (R104). -/
structure PendJoin where
  /-- Answer lane k (R103). -/
  k : Nat
  /-- First and last cycle in which it may start: E + 2 and E + 1 + 8 ANS_WIN (R103). -/
  first : Nat
  last : Nat
  mac : MacOut
  /-- The frame, once it has been protected. -/
  frame : List Byte
  /-- EUI-64 and SEQ of its JOIN_REQ (R105). -/
  eui : List Byte
  seq : Nat
  deriving DecidableEq, Repr

/-- What waits in order of arrival between JOIN_ACKs and items (R369). -/
inductive PendAir where
  /-- An echo forward on lane k in cycle E + 2 (R97, R99). -/
  | fwd (k cyc : Nat) (frame : List Byte) (cp : Nat)
  /-- A probe tone on lane k (R34). -/
  | tone (k : Nat)
  deriving DecidableEq, Repr

/-- A stretch of a slot over which the crest limiter works on the same lanes under the same LP_CREST (R29, R66). -/
structure CrestSpan where
  cfg : Word
  /-- The active lanes, each with its level in 0.25 dB below a full-scale sine. -/
  lanes : List (Nat × Nat)
  deriving DecidableEq, Repr

/-- Where an impedance probe stands (R34); `tone` says its mode. -/
inductive ProbeSt where
  | idle
  /-- It waits for a frame on lane k, or for a context for its tone. -/
  | waits (k : Nat) (tone : Bool)
  /-- The frame it measures, or its tone, is on the line. -/
  | runs (k : Nat) (tone : Bool)
  /-- Its measurement is complete. -/
  | measured
  deriving DecidableEq, Repr

/-- A line port's state that no register shows (02, 04). -/
structure PortSt where
  /-- Crossings of the run in progress (R60). -/
  run : Nat := 0
  /-- Time of the last crossing, in 1/256 converter sample, and its period (R60). -/
  lastX : Option Nat := none
  lastPer : Option Nat := none
  /-- Predicted crossing, and start of the current cycle (R61, R64). -/
  pred : Option Nat := none
  z : Nat := 0
  /-- The predicted crossing has been met by a valid one, or has been missed (R60, R61). -/
  taken : Bool := false
  /-- The cycle that starts at the predicted crossing has begun (R61). -/
  begun : Bool := false
  /-- The crossing predicted after that one (R61). -/
  next : Nat := 0
  /-- ZC_TRIM as the last crossing applied it, in 1 us (R59). -/
  trim : Int := 0
  /-- The angle of R63 as a time after the crossing, with the period it was measured against. -/
  alpha : Int := 0
  alphaPer : Nat := 0
  /-- The port has locked since it was cast (R60). -/
  wasLocked : Bool := false
  /-- Transmit contexts (R73): context c at key c from the start of its frame's cycle on, at key 8 + c before it. -/
  ctxs : SMap (Option TxCtx) := []
  /-- Waiting ACKs and NACKs (R94), and JOIN_ACKs (R104), oldest first. -/
  answers : List PendAns := []
  joins : List PendJoin := []
  /-- Echo forwards (R99) and a probe tone (R34) that wait. -/
  waits : List PendAir := []
  /-- Fade in progress and queued swap: their lengths (R21, R22). -/
  fade : Nat := 0
  queued : Option Nat := none
  /-- Banks A and B: tap i at key i, and at 512 + i (R20). -/
  taps : SMap (BitVec 24) := []
  /-- Slots in a row below LO_THR (R24). -/
  lowSlots : Nat := 0
  /-- The mode of the headroom loop in force: MANUAL (R25). -/
  manual : Bool := false
  /-- The lead of an allocated frame has begun, and the tail of LP_TXEN runs (R27). -/
  lead : Bool := false
  tail : Bool := false
  /-- The impedance probe (R34). -/
  probe : ProbeSt := .idle
  /-- The last slot of the cycle has ended, and the next cycle has not begun (R64). -/
  slotEnd : Bool := false
  /-- The port was LOCKED from the current slot's start on (R69). -/
  slotLocked : Bool := false
  /-- The current slot of the free-running grid that a lock replaced, while a lane or a frame still uses it (R62). -/
  oldSlot : Option Nat := none
  /-- Earlier stretches of the current slot, the oldest first (R29). -/
  spans : List CrestSpan := []
  /-- The instant at which the current cycle's number reads the iron counter (R63). -/
  readAt : Option Int := none
  /-- LP_NMAP_CFG.CLEAR has been written since the port was cast (R69). -/
  cleared : Bool := false
  /-- Noise map: m of lane k and slot s at key 64 k + s, as a fraction of units of LaneSlot.cell; (0, 0) before the first update (R69). -/
  nmap : SMap (Nat × Nat) := []
  /-- A partial cast holds the port (R176). -/
  quiesce : Bool := false
  deriving DecidableEq, Repr

/-! ### Lanes -/

/-- A reception (R43 to R57). -/
structure Reception where
  /-- The frame's mask (R43, R67). -/
  mask : Nat
  full : Bool
  /-- Sync metric, in 0.25 dB (R45). -/
  metric : Nat
  /-- GAIN_FRZ and PGA_FRZ (R40, R42). -/
  gain : Int
  pga : Nat
  /-- PGA_STEP (R41). -/
  pgaStep : Bool
  /-- Offset in force, in 0.125 Hz (R44). -/
  fofs : Int
  /-- Slot and cycle of the last sync symbol (R57). -/
  slot : Nat
  cyc : Nat
  /-- PH_ANGLE of R77. -/
  angle : Nat
  /-- Sum of the magnitudes of the sync word's 16 decision values: 16 times the amplitude A (R50). -/
  amp : Nat := 0
  /-- The port was LOCKED from preamble detection on (R78). -/
  locked : Bool := false
  /-- LEN and CP, once the header has passed (R49). -/
  hdr : Option (Nat × Nat)
  /-- Coded bits corrected so far (R55). -/
  corrected : Nat
  deriving DecidableEq, Repr

/-- A lane's state that no register shows (03). -/
structure LaneSt where
  /-- The ingot binds the lane (R156). -/
  bound : Bool := false
  /-- Mask in force (R67). -/
  mask : Nat := 0
  /-- The pending mask is armed (R67). -/
  armed : Bool := false
  /-- The reception in progress (R43). -/
  rx : Option Reception := none
  /-- The reception that the sync searches would start: main on the lane timeline, shadow on the full timeline (R43). -/
  sync : Option Reception := none
  /-- Symbols of the lane timeline and of the full timeline since preamble detection (R43). -/
  symMain : Nat := 0
  symFull : Nat := 0
  /-- The lane has been in SEARCH from the current slot's start on (R69). -/
  searched : Bool := false
  /-- It still uses the grid that a lock replaced (R62). -/
  old : Bool := false
  /-- The gain of the AGC, in 2^-16 of 0.125 dB (R39). -/
  agc : Int := 0
  /-- Mean powers of the last 64 symbols spent in SEARCH, the latest first, in 2^-64 of a full-scale sine's power of lane scale (R43). -/
  noise : List Nat := []
  /-- REF and result of the last transmit report (R75). -/
  report : Option (Nat × Report75) := none
  /-- A sync of the next reception, seen at the last payload symbol (R48). -/
  nextRx : Option Reception := none
  /-- Deferrals of the next item, and its commit number (R73). -/
  defer : Nat := 0
  deferSeq : Nat := 0
  /-- The lane's own block (R32): 0 none, 1 its frame is on the line, 2 its two symbols after the frame. -/
  blk : Nat := 0
  deriving DecidableEq, Repr

/-- A decode request (R54). -/
structure DecJob where
  /-- Lane n (R54). -/
  n : Nat
  hdr : Bool
  soft : List Int
  /-- The reception it belongs to. -/
  rx : Reception
  /-- SNR estimate, in 0.25 dB (R57). -/
  snr : Int
  /-- The port was LOCKED throughout (R78). -/
  locked : Bool
  /-- Number of the cycle that holds the last symbol (R94). -/
  endCyc : Nat
  deriving DecidableEq, Repr

/-- The trellis tiles and their queue (R54). -/
structure DecSt where
  /-- Header requests, then payload requests, each oldest first (R54). -/
  hdrs : List DecJob := []
  pays : List DecJob := []
  /-- The job each tile decodes (R54). -/
  tiles : SMap (Option DecJob) := []
  deriving DecidableEq, Repr

/-! ### Link layer -/

/-- Where a send stands (R96). -/
inductive SendPhase where
  /-- Its item is in LN_TXQ, or holds a context. -/
  | queued
  /-- The attempt was sent and waits for its answer until the end of this cycle (R95, R98); `late`: the deadline has passed,
  but a frame that may be the answer had passed its header. -/
  | waiting (deadline : Nat) (late : Bool)
  /-- The attempt failed, and its back-off lasts to this cycle (R96). -/
  | backoff (till : Nat)
  /-- The retry is a candidate (R96). -/
  | retry
  /-- The retry holds a context. -/
  | onAir
  deriving DecidableEq, Repr

/-- One copy of a BROADCAST, or the one frame of a SEND, on one port (R96, R207). -/
structure Copy where
  /-- Lane n; a joint lane of the other unit for a copy handed to it (R325). -/
  n : Nat
  /-- Commit number of its item (R71). -/
  item : Nat
  /-- Attempts given a context (R96). -/
  attempts : Nat
  phase : SendPhase
  /-- Its outcome, once it has one (R207). -/
  result : Option Nat
  /-- Deferrals of its retry (R73). -/
  defer : Nat
  /-- The protected frame, byte-identical in every attempt (R91). -/
  frame : List Byte
  deriving DecidableEq, Repr

/-- A SEND or BROADCAST that the link layer carries (R96, R207). -/
structure SendSt where
  /-- The tag, and on a follower the hand-off number with it (R325). -/
  id : Nat
  tag : Nat
  bcast : Bool
  /-- Registry index of the meter (R89). -/
  entry : Nat
  /-- SEQ of its frame (R85). -/
  seq : Nat
  ackreq : Bool
  prio : Nat
  cp : Nat
  full : Bool
  /-- Repeaters of a ROUTED frame (R97). -/
  nhop : Nat
  mac : MacOut
  copies : List Copy
  /-- The last failure was NACK BUSY (R96). -/
  busy : Bool
  /-- Hand-off number, on a follower (R325). -/
  handoff : Option Nat
  /-- LCMD, CP of CP_OVR and FULLMASK of the descriptor (R207). -/
  lcmd : Bool := false
  ovr : Option Nat := none
  fullAsk : Bool := false
  deriving DecidableEq, Repr

/-- A received frame that waits for the link layer (R55). -/
structure LinkRx where
  lane : Nat
  bytes : List Byte
  full : Bool
  cp : Nat
  endCyc : Nat
  /-- The quality block's six words (R57). -/
  quality : List Word
  deriving DecidableEq, Repr

/-- A JOIN_REQ that has been handled (R105). -/
structure JoinSeen where
  eui : List Byte
  seq : Nat
  /-- Cycle E of the first copy, and its port. -/
  endCyc : Nat
  port : Nat
  /-- CORR and joint port of the copy that is answered. -/
  corr : Nat
  best : Nat
  /-- Index of the entry that joined, and whether this request set its HOME. -/
  entry : Option Nat
  homed : Bool
  /-- The allocation point of cycle E + 2 has passed. -/
  closed : Bool
  deriving DecidableEq, Repr

/-- The link layer (05). -/
structure LinkSt where
  /-- Received frames, oldest first (R55). -/
  rx : List LinkRx := []
  /-- Sends in progress, in the order taken (R96). -/
  sends : List SendSt := []
  /-- Echoes forwarded: SRC, SEQ, HOP and cycle (R99). -/
  echoes : List (Nat × Nat × Nat × Nat) := []
  /-- JOIN_REQs handled (R105). -/
  joined : List JoinSeen := []
  /-- Broadcast counter, in iron RAM (R370). -/
  bcast : BitVec 8 := 0
  deriving DecidableEq, Repr

/-! ### Metering -/

/-- What a cycle end latches (R122). -/
structure CycleLatch where
  pc : Int := 0
  qc : Int := 0
  cyc : Nat := 0
  samples : Nat := 0
  noZc : Bool := false
  settling : Bool := false
  clip : Bool := false
  acc : List (BitVec 64) := []
  deriving DecidableEq, Repr

/-- A fine sample of a feeder (R118): voltage, current, quadrature voltage, the current QDLY samples before, its tags (R113) and its input
instant, in thirds of 1/256 converter sample (R116). -/
structure FeedSample where
  v : Int
  i : Int
  v90 : Int
  iq : Int
  settling : Bool
  clip : Bool
  instant : Int
  deriving DecidableEq, Repr

/-- A feeder's state that no register shows (06). -/
structure FeederSt where
  /-- Live values of the last cycle end, the six accumulators among them (R119, R122). -/
  live : CycleLatch := {}
  /-- Fine samples since the last boundary (R116). -/
  samples : List FeedSample := []
  /-- The latest sample of the quadrature stream (R118, R159). -/
  v90 : Option Int := none
  /-- Fine samples since the last in-range crossing (R117). -/
  since : Nat := 0
  /-- Number of the last numbered cycle; none before the first (R116, R117). -/
  number : Option Nat := none
  /-- The instant at which the number of the cycle in progress reads the iron counter, where it still lies ahead (R63, R116). -/
  readAt : Option Int := none
  /-- The cycle in progress began at a forced boundary (R117). -/
  forced : Bool := false
  /-- A boundary has begun the cycle in progress; before the first one samples belong to no cycle (R116). -/
  running : Bool := false
  /-- A synchronising reset fell in the cycle in progress (R115). -/
  wasReset : Bool := false
  /-- The harmonic window in progress (R124): first cycle, cycles, whether one of them spoils it, its duration, the sums over its cycles of
  the 128 points of voltage and current, and the sums of their squares. -/
  hFirst : Nat := 0
  hCount : Nat := 0
  hBad : Bool := false
  hTime : Nat := 0
  hV : List Int := []
  hI : List Int := []
  hVV : Nat := 0
  hII : Nat := 0
  /-- The record of the metering block (R123). -/
  block : List Byte := []
  deriving DecidableEq, Repr

/-- The energy of one feeder in one balance window (R125). -/
structure WinEnergy where
  w : Nat
  f : Nat
  net : Int
  noZc : Bool
  settling : Bool
  deriving DecidableEq, Repr

/-- An accepted report (R127). -/
structure Report where
  short : Nat
  w : Nat
  branch : Bool
  imp : Nat
  exp : Nat
  deriving DecidableEq, Repr

/-- A half-band stage (R110): its filter's state, and the first of the two inputs of an output. -/
structure Band where
  state : List Int := []
  first : Option Int := none
  deriving DecidableEq, Repr

/-- A third-order CIC (R110): three integrators, and the last inputs of three combs, all modulo 2^24. -/
structure Cic where
  i1 : BitVec 24 := 0
  i2 : BitVec 24 := 0
  i3 : BitVec 24 := 0
  d1 : BitVec 24 := 0
  d2 : BitVec 24 := 0
  d3 : BitVec 24 := 0
  deriving DecidableEq, Repr

/-- A metering channel (06). -/
structure ChanSt where
  /-- Modulator bits, the latest first: at most the 1,024 that DELAY reaches (R111). -/
  line : List Bool := []
  cic : Cic := {}
  bands : List Band := []
  /-- Fine samples, the latest first: at most the 256 that QDLY reaches (R118). -/
  past : List Int := []
  /-- Fine samples for which the CLIP bit still stays set: 64 after a saturated one (MT_STAT.CLIP). -/
  clipLeft : Nat := 0
  /-- The samples of the FINEQ word in progress, with their tags SETTLING and CLIP (R113). -/
  words : List (Int × Bool × Bool) := []
  /-- Time of the last crossing, and the last period (R116). -/
  lastX : Option Nat := none
  period : Option Nat := none
  deriving DecidableEq, Repr

/-- Metering and the balance program (06). -/
structure MeterSt where
  /-- Modulator clock edges so far (R114); edge e comes at e × 512/3 of 1/256 converter sample. -/
  edge : Nat := 0
  /-- Clocks since the last fast sample, of 48 (R110). -/
  phase : Nat := 0
  /-- The edge of the last fine sample or synchronising reset, and of the last reset (R114, R59). -/
  lastFine : Nat := 0
  lastReset : Option Nat := none
  /-- Fine samples since the last reset, up to 64 (R114). -/
  fineN : Nat := 0
  /-- Fast samples that are still not valid after a reset (R112). -/
  fastLeft : Nat := 0
  /-- Channels (R110). -/
  chans : SMap ChanSt := []
  /-- Modulator edges for which a synchronising reset is scheduled, rising (R114, R115). -/
  resets : List Nat := []
  /-- The resets for which SYNC_M is driven (R114). -/
  driven : List Nat := []
  /-- Feeders (R116). -/
  feeders : SMap FeederSt := []
  energy : List WinEnergy := []
  reports : List Report := []
  /-- Result packets not yet committed (R129). -/
  results : List (Nat × List Byte × Bool) := []
  deriving DecidableEq, Repr

/-! ### Fabric -/

/-- A filter tile as cast (R157, R164, R166), and what it holds of its stream. -/
structure FiltSt where
  entry : Word
  coefs : List (BitVec 24)
  /-- An FIR's inputs, I and Q, the latest first: as many as it has taps (R157). -/
  past : List (Int × Int) := []
  /-- Inputs since the last output (R157). -/
  skip : Nat := 0
  /-- An IIR's state, of I and of Q (R157). -/
  iirI : List (BitVec 48) := []
  iirQ : List (BitVec 48) := []
  deriving DecidableEq, Repr

/-- The loader and the cast configuration (08). -/
structure FabSt where
  /-- Bytes pushed so far (R171). -/
  push : List Byte := []
  /-- The ingot that passed its checks and is being cast. -/
  ingot : List Byte := []
  /-- Source and kind of the load in progress (R171): slot 0, 1 or push 2; partial. -/
  src : Nat := 0
  partialLoad : Bool := false
  /-- What a failure of the load leads to (R171, R177): 0 nothing, 1 slot A next (a full START while the device ran), 2 slot B next
  (Assay's slot A), 3 both slots have failed (Assay's slot B). -/
  chain : Nat := 0
  /-- A load that begins once the self-tests of Assay have passed: its source, and its `chain` (R293). -/
  due : Option (Nat × Nat) := none
  /-- Bytes that free cells could stage at START (R171). -/
  stageLimit : Nat := 0
  /-- The load is the verify pass and restore cast of R309. -/
  restore : Bool := false
  /-- Outage was entered in this fabric-clock cycle (R177). -/
  outNow : Bool := false
  /-- POLICY: CODE_BLK, CAPT_BLK, RATE, of the ingot cast (R163). -/
  codeBlk : Nat := 0
  captBlk : Nat := 0
  rate : Nat := 0
  /-- Filter tiles, routes, and sinks' sources (R159, R165). -/
  filters : SMap FiltSt := []
  routes : List (Nat × Nat) := []
  /-- Items on their way into the queue of a Q_IN sink, with their tags SETTLING and CLIP: fewer than ten (R159). -/
  packs : SMap (List (Int × Bool × Bool)) := []
  /-- ISLAND.BUFQ (R170). -/
  bufq : Option Nat := none
  /-- Cores named in RUN bitmaps (R167). -/
  runs : Nat := 0
  /-- Pool cells that stage a partial ingot (R171). -/
  stage : List Nat := []
  /-- The ingot runs a metering program (R208); the model's free choice at each cast. -/
  mtProg : Bool := false
  /-- Iron RAM: digest, INGOT_VER and BUILD_ID of the last full cast (R309). -/
  digest : List Byte := []
  lastVer : Nat := 0
  lastBuild : List Byte := []
  /-- Every pool bank was retained in the last sleep (R309). -/
  poolKept : Bool := false
  deriving DecidableEq, Repr

/-! ### Sequencer cores -/

/-- What a core waits for: the instruction that SEQ_PC points to (R188, R195). -/
inductive Stall where
  | none
  /-- WAIT RD (R188). -/
  | wait (rd : Nat)
  /-- QGET or QGETE: RD, queue, address, and whether an event ends it (R185). -/
  | qget (rd q addr : Nat) (events : Bool)
  /-- SIN (R186). -/
  | sin (r port : Nat)
  /-- SOUT (R186). -/
  | sout (r port : Nat)
  deriving DecidableEq, Repr

/-- A line of the instruction cache (R179). -/
structure CacheLine where
  addr : Nat
  words : List Word
  deriving DecidableEq, Repr

/-- A core's state that no register shows (09). -/
structure CoreSt where
  /-- s1 to s31 (R179). -/
  s : SMap Word := []
  /-- a0 to a3 (R179). -/
  a : SMap (BitVec 48) := []
  /-- Instruction cache: the lines of each set, most recently used first (R179). -/
  cache : SMap (List CacheLine) := []
  /-- Input and output FIFOs by port: I and Q of each sample (R186). -/
  fin : SMap (List (Int × Int)) := []
  fout : SMap (List (Int × Int)) := []
  /-- The stalled instruction (R195). -/
  stall : Stall := .none
  /-- The value last written to SEQ_TIMER.COUNT (SEQ_TIMER). -/
  reload : Nat := 0
  /-- A counter-overflow interrupt waits, and how many instructions have retired since (R194). -/
  irq : Bool := false
  since : Nat := 0
  /-- A STEP taken by a register write, which runs with the next tick (R195). -/
  step : Bool := false
  deriving DecidableEq, Repr

/-! ### Radio -/

/-- A RADIO_SEND on a link, or a LINK_CMD (R232, R233, R241). -/
structure RfItem where
  /-- Tag of the transaction; none for a LINK_CMD. -/
  tag : Option Nat
  prio : Nat
  ackreq : Bool
  coded : Bool
  /-- FCTL type and body (R224). -/
  type : Nat
  body : List Byte
  /-- The frame once protected (R91), its SEQ and the attempts made. -/
  frame : List Byte
  seq : Nat
  attempts : Nat
  /-- Events to let pass before it is sent again (R232). -/
  skip : Nat
  /-- Sent in the current event, and not yet judged. -/
  onAir : Bool
  deriving DecidableEq, Repr

/-- A link context's state that no register shows (R227 to R233). -/
structure RfLink where
  /-- Tick of the anchor of the current event, of event 0 until that has come (R228, R231); while the CONN_ACK is on the air, its
  OFFSET. -/
  anchor : Nat := 0
  /-- Event 0 has come (R228). -/
  begun : Bool := false
  /-- Offset of the last received frame, in Hz (R222). -/
  fofs : Int := 0
  /-- CONN_REQs that failed (R228). -/
  fails : Nat := 0
  /-- Items to send, in the order of R241. -/
  items : List RfItem := []
  /-- The map in use, and one that holds from an event on, and whether both ends know it (R233). -/
  inUse : BitVec 64 := 0
  map : Option (Nat × BitVec 64) := none
  agreed : Bool := false
  /-- The neighbour's beacon interval in ticks, and its discovery channels (R231). -/
  bcnInt : Nat := 0
  chans : List Nat := []
  /-- Discovery channel being scanned (R231). -/
  scan : Nat := 0
  deriving DecidableEq, Repr

/-- What the radio sends (R219, R230, R234). -/
inductive RfTx where
  | none
  /-- A flood: tag of its transaction, and whether it is the LAST_GASP. -/
  | flood (tag : Option Nat) (gasp : Bool)
  /-- The item of link c that is marked, a poll, an ACK or NACK (none for one outside a link), and the ACK after which the link ends
  (R233). -/
  | item (c : Nat)
  | poll (c : Nat)
  | ack (c : Option Nat)
  | bye (c : Nat)
  /-- A CONN_REQ, and a CONN_ACK; none for one that refuses. -/
  | conn (c : Nat)
  | connAck (c : Option Nat)
  | beacon
  /-- The forward of a flood (R237). -/
  | forward (orig : List Byte) (fseq : Nat)
  deriving DecidableEq, Repr

/-- A flood waiting to be forwarded (R237). -/
structure RfFwd where
  orig : List Byte
  fseq : Nat
  body : List Byte
  coded : Bool
  /-- Tick from which it may start, and further copies heard. -/
  due : Nat
  copies : Nat
  deriving DecidableEq, Repr

/-- The frame that the baseband receives, from its sync word on: the gain is frozen and the offset fixed (R222). -/
structure RfRx where
  chan : Nat
  /-- 16 times the amplitude of its decision values (R50). -/
  amp : Nat
  /-- Its offset in Hz, and in FOFS's unit of 25 Hz (R223). -/
  hz : Int
  fofs : BitVec 16
  /-- The tick at which the sync word ended. -/
  tick : Nat
  /-- The link whose event is in progress, whether the sync word ended in its window, and whether the window has closed since (R231). -/
  link : Option Nat
  inWin : Bool
  closed : Bool := false
  deriving DecidableEq, Repr

/-- The radio (11). -/
structure RadioSt where
  links : SMap RfLink := []
  /-- What is on the air, the MAC frame last sent, and CODED of its header (R221). -/
  tx : RfTx := .none
  air : List Byte := []
  airCoded : Bool := false
  /-- Originated floods that wait: tag, LAST_GASP or not, CODED, TTL to CONTENT of the body (R237, R238). -/
  floods : List (Option Nat × Bool × Bool × List Byte) := []
  /-- BSEQ and T0 (R227). -/
  bseq : Nat := 0
  t0 : Nat := 0
  /-- Iron domain: flood counter and seen-cache, oldest first (R237). -/
  fseq : BitVec 16 := 0
  seen : List (List Byte × Nat) := []
  fwds : List RfFwd := []
  /-- Own transmissions: channel, end tick and airtime in us (R235). -/
  dwell : List (Nat × Nat × Nat) := []
  /-- The sniffer has detected, and whether a sync word has followed (R239). -/
  sniffed : Bool := false
  synced : Bool := false
  /-- The tick at which the sniffer stops listening (R239). -/
  sniffEnd : Nat := 0
  /-- Frame held in iron RAM until the cast completes (R310). -/
  held : Option (RfRx × RfSeen) := none
  /-- The frame the baseband receives (R222). -/
  rx : Option RfRx := none
  /-- The link whose event is in progress (R230, R234), and whether its window for the leader's frame is open (R231). -/
  event : Option Nat := none
  listen : Bool := false
  /-- RF_PAEN stays asserted for 1 symbol after a transmission (R219). -/
  paTail : Bool := false
  deriving DecidableEq, Repr

/-! ### Serial ports -/

/-- A UART_SEND in progress or waiting (R257). -/
structure UaSend where
  tag : Nat
  chars : List Nat
  sent : Nat
  deriving DecidableEq, Repr

/-- The settings of one direction of a UART (R245, R246): data bits, parity (even or odd), second stop bit, DIV in 1/64. -/
structure UaSet where
  width : Nat := 8
  parity : Option Bool := none
  stop2 : Bool := false
  div : Nat := 40000
  deriving DecidableEq, Repr

/-- A character on the wire: of the send with this tag, or a flow character; the settings it began with (R246, R253). -/
structure UaOut where
  data : Nat
  flow : Bool
  tag : Option Nat
  set : UaSet
  deriving DecidableEq, Repr

/-- A UART's state that no register shows (12). -/
structure UartSt where
  /-- Units of the word being filled, and words of the packet so far (R256). -/
  units : List Nat := []
  words : Nat := 0
  /-- Divider held pending, in 1/64 (R255). -/
  pend : Option Nat := none
  sends : List UaSend := []
  /-- The character being sent (R252, R253). -/
  cur : Option UaOut := none
  /-- The settings that a character already begun keeps: those before the first write since the last search (R246). -/
  rxOld : Option UaSet := none
  /-- On U4: the bit time after the last stop bit sent (R254). -/
  deaf : Bool := false
  /-- Flow characters to send (R253). -/
  flow : List Nat := []
  /-- A break holds the line low (R249). -/
  inBreak : Bool := false
  deriving DecidableEq, Repr

/-! ### Control -/

/-- Control outputs and guards (13). -/
structure CtlSt where
  /-- Commanded levels (R267). -/
  cmd : BitVec 16 := 0
  /-- Pairs whose dead time runs (R261). -/
  dead : List Nat := []
  /-- Counts of the guards (R265). -/
  count : SMap Nat := []
  /-- Feedback checks that run: output o (R263). -/
  check : List Nat := []
  /-- Counts of the raw samples of input i that differ from its debounced level (R264). -/
  bounce : SMap Nat := []
  /-- The outputs that the trip of guard g holds: its map when it tripped (R265, R267). -/
  held : SMap (BitVec 16) := []
  /-- Guards that tripped on the modulator clock edge just past (R267). -/
  justNow : List Nat := []
  /-- CONTROL transactions in progress: tag, SET, CLR (R262). -/
  acts : List (Nat × Nat × Nat) := []
  deriving DecidableEq, Repr

/-! ### Warden -/

/-- A key slot (R276). -/
structure KeySlot where
  /-- Material: bits [255:128] hold an AES128 key. -/
  key : BitVec 256 := 0
  type : Nat := 0
  usage : BitVec 8 := 0
  version : Word := 0
  counter : Word := 0
  /-- COUNTER reached its end by a use or CTR_RAISE (R277). -/
  exhausted : Bool := false
  /-- CTR_WARN was set since the last load (R278). -/
  warned : Bool := false
  deriving DecidableEq, Repr

/-- The OTP (R292). -/
structure OtpSt where
  eui : List Byte := []
  attest : Nat := 0
  /-- Root rows written: hash, and whether in force (revoked otherwise). -/
  roots : List (List Byte × Bool) := []
  floors : List (Word × Bool) := []
  windows : List (Nat × Bool) := []
  debugOff : Bool := false
  testOff : Bool := false
  /-- PGA calibration: port × 31 + code (R292). -/
  pgacal : List Nat := []
  deriving DecidableEq, Repr

/-- A host cipher job (R280 to R285). -/
structure CipherJob where
  tag : Nat
  op : Nat
  slot : Nat
  slot2 : Nat
  tagLen : Nat
  prehash : Bool
  k256 : Bool
  inp : List Byte
  inp2 : List Byte
  /-- OUT: KIND, QUEUE or LEN, ADDR (R207). -/
  outKind : Nat
  outQ : Nat
  outAddr : Nat
  st : List Byte
  ic : Nat
  slv : Nat
  usage : Nat
  count : Nat
  /-- VERSION bound when the descriptor was taken (R280). -/
  ver : Word
  /-- In the engine: its private copy of the key, and the counter taken (R280). -/
  entered : Bool
  key : KeySlot
  ctr : Nat
  /-- What ends it, decided before it leaves the engine (R280, R294). -/
  verdict : Option (Byte × Byte)
  deriving DecidableEq, Repr

/-- The warden (14). -/
structure WardenSt where
  slots : SMap KeySlot := []
  otp : OtpSt := {}
  /-- The presence logic is armed (R273). -/
  presArmed : Bool := false
  /-- Real-time count at which the window opened, and its length in seconds (R273). -/
  presFrom : Nat := 0
  presLen : Nat := 0
  /-- The command START named, until it has run (R289). -/
  mbxOp : Option Nat := none
  /-- A window was open in the cycle in which START was accepted (R274). -/
  mbxPres : Bool := false
  /-- Outcome of the command that has run and not yet ended: STATUS and DETAIL (R291). -/
  mbxRes : Option (Byte × Byte) := none
  jobs : List CipherJob := []
  deriving DecidableEq, Repr

/-! ### Iron domain and power -/

/-- The iron domain and the clocks (15). -/
structure IronSt where
  /-- The 48-bit real-time counter, and the fraction of an iron cycle in fabric cycles (R317). -/
  rtc : Nat := 0
  frac : Nat := 0
  /-- VIRON is in range. -/
  viron : Bool := false
  /-- RST_N is low, or power-on holds the device (R299, R305). -/
  held : Bool := false
  /-- Dormant or Sentinel was entered by a sleep, not by a reset (R305). -/
  asleep : Bool := false
  /-- The sleep was entered from Outage (R309). -/
  fromOutage : Bool := false
  /-- The alarm is armed (PWR_ALARM). -/
  alarm : Bool := false
  /-- MAINS_SENSE monitor: time of the last edge and of the last rising edge, rising edges of the run (R311). -/
  lastEdge : Option Nat := none
  lastRise : Option Nat := none
  run : Nat := 0
  /-- The last eight half-periods, newest first (R311). -/
  halves : List Nat := []
  /-- Mains was lost and is not yet restored (R314). -/
  lost : Bool := false
  /-- The device powers up, with this cause, and waits for its supplies (R298, R308). -/
  boot : Option Nat := none
  /-- Real-time count at Outage entry (R305). -/
  outSince : Nat := 0
  /-- Mains lost was acted on in Maintenance (R305). -/
  maintOut : Bool := false
  /-- Real-time count at the last loss that entered Outage (R306). -/
  lossAt : Option Nat := none
  deriving DecidableEq, Repr

/-! ### Alloy -/

/-- What the unit has sent over the alloy link (16). -/
inductive AlloyMsg where
  | heartbeat
  /-- A hand-off: number, tag, descriptor and body (R325). -/
  | handoff (number tag : Nat) (desc body : List Byte)
  /-- A completion or event for the lead's rings, with a delivered body and its queue (R325). -/
  | record (rkind handoff : Nat) (rec : List Byte) (dlvq : Nat) (body : List Byte)
  /-- The lead's whole registry, after the first pairing of a cast (R323). -/
  | registry (bytes : List Byte)
  /-- A replica write (R323). -/
  | replica (index part : Nat) (value : Word)
  /-- A frame for the acting unit (R323). -/
  | frame (f : LinkRx)
  /-- An ACK or NACK that the acting unit owes on a lane of the other unit (R94, R323). -/
  | answer (lane : Nat) (a : PendAns)
  /-- A sync mark, or its confirmation (R327). -/
  | mark (cycle : Word)
  /-- The epoch the lead raised (R326). -/
  | epoch (e : BitVec 16)
  /-- A follower access through the mirror (R321). -/
  | mirror (addr : Word) (value : Option Word)
  /-- A hand-off that the follower is to abandon (R328, R331). -/
  | abandon (number : Nat)
  deriving DecidableEq, Repr

/-- The alloy link (16). -/
structure AlloySt where
  /-- Consecutive heartbeats received (R319). -/
  beats : Nat := 0
  /-- Messages sent, oldest first. -/
  outbox : List AlloyMsg := []
  /-- Lead: handed-off tags with their numbers, and fenced numbers (R325, R328). -/
  handoffs : List (Nat × Nat) := []
  fenced : List Nat := []
  nextNumber : Nat := 0
  /-- Follower: the pinned home set, registry indexes (R327). -/
  pinned : List Nat := []
  /-- A heal runs (R331). -/
  healing : Bool := false
  /-- The registry has been copied since the cast (R323). -/
  copied : Bool := false
  /-- Lead: cycle of the last sync mark sent (R327). -/
  lastMark : Option Word := none
  /-- A heal has ended in this fabric-clock cycle (R333). -/
  healedNow : Bool := false
  /-- Replica writes of the other unit in this split: index, part, value (R332). -/
  replica : List (Nat × Nat × Word) := []
  deriving DecidableEq, Repr

/-! ### Performance counters -/

/-- The counters (17). -/
structure PmSt where
  /-- 48-bit counts (R336). -/
  count : SMap Nat := []
  /-- Pending high bits (R340). -/
  hi : SMap Nat := []
  /-- Microseconds of the sequencer timers: fabric cycles since the last (R187). -/
  usFrac : Nat := 0
  deriving DecidableEq, Repr

/-! ### The machine -/

/-- The state of an MZG-256 and the commands that wait. -/
structure State where
  /-- Commands that wait, the first in front (the model's queue). -/
  pending : List Instr
  /-- The registers by host address; an unlisted one holds its reset value (R345, R351). -/
  regs : SMap Word
  /-- SRAM bytes by host address (R132). -/
  sram : Memory
  /-- Poisoned SRAM words, by word index, rising (R133). -/
  poison : List Nat
  /-- Words with bits in error that no read has found yet, by word index (R133): what their code shows when they are read. -/
  upsets : SMap Ecc
  /-- How many open values have been drawn: the model's own field (log 3). -/
  freeCtr : Nat
  /-- Host port (10). -/
  hp : HostSt
  /-- Pewter pool (07). -/
  pool : PoolSt
  /-- Line ports by number (02, 04). -/
  ports : SMap PortSt
  /-- Lanes by number (03). -/
  lanes : SMap LaneSt
  /-- Trellis tiles (03). -/
  dec : DecSt
  /-- Link layer (05). -/
  link : LinkSt
  /-- Metering (06). -/
  meter : MeterSt
  /-- Fabric and loader (08). -/
  fab : FabSt
  /-- Sequencer cores by number (09). -/
  cores : SMap CoreSt
  /-- Radio (11). -/
  radio : RadioSt
  /-- UARTs by number (12). -/
  uarts : SMap UartSt
  /-- Control outputs (13). -/
  ctl : CtlSt
  /-- Warden (14). -/
  wd : WardenSt
  /-- Iron domain and power (15). -/
  iron : IronSt
  /-- Alloy link (16). -/
  al : AlloySt
  /-- Performance counters (17). -/
  pm : PmSt
  deriving DecidableEq, Repr

/-- A lane as it stands before any ingot: its mask is full (LN_MASK reset, R67). -/
def laneInit : LaneSt := { mask := 2 ^ 60 - 1 }

/-- FACTOR of PGA code `c` at its nominal value, 2^23 × 10^(−1.5 c / 20) (LP_PGACAL; log 1). -/
def pgaNominal : List Nat :=
  [8388608, 7058134, 5938680, 4996776, 4204263, 3537447, 2976390, 2504320, 2107123, 1772923,
   1491729, 1255133, 1056063, 888566, 747635, 629057, 529285, 445338, 374705, 315275,
   265271, 223198, 187798, 158012, 132950, 111864, 94122, 79194, 66633, 56065,
   47173]

/-- The reset value of the register at address `a` (R350, R351): the table's, but for the two registers whose reset
value depends on their index. -/
def resetValue (a : Nat) : Word :=
  match regFind a with
  | none => 0
  | some (d, ix) =>
    if d.name = "SEQ_STAT" then BitVec.ofNat 32 (0x20000000 + ix.headD 0)
    else if d.name = "MT_PCFG" then BitVec.ofNat 32 (ix.headD 0 * 0x11)
    else BitVec.ofNat 32 d.reset

/-- The machine right after VIRON power-on (R299, R305): Dormant and held, every register at its reset value, SRAM
scrubbed to zero, every queue, buffer and counter empty (log 2), OTP and key slots as log 1 says. -/
def State.reset : State where
  pending := []
  regs := []
  sram := []
  poison := []
  upsets := []
  freeCtr := 0
  hp := {}
  pool := {}
  ports := []
  lanes := []
  dec := {}
  link := {}
  meter := {}
  fab := {}
  cores := []
  radio := {}
  uarts := []
  ctl := {}
  wd := { otp := { eui := [0, 0, 0, 0, 0, 0, 0, 0], attest := 1, pgacal := pgaNominal ++ pgaNominal ++ pgaNominal ++ pgaNominal } }
  iron := { viron := true, held := true }
  al := {}
  pm := {}

end Sys2Proof.Machine
end

