-- ==== Sys2Proof/Machine/Ops.lean ====
section
/-! DEFINITION. The named operations over the state: registers and fields, SRAM, free values, and access to
the parts of the state that are kept by number. -/

namespace Sys2Proof.Machine

/-! ### Registers -/

/-- The register at host address `a`. -/
def State.reg (s : State) (a : Nat) : Word := mget resetValue s.regs a

/-- Put `v` into the register at host address `a`. -/
def State.setReg (s : State) (a : Nat) (v : Word) : State := { s with regs := mset resetValue s.regs a v }

/-- The value of a field. -/
def State.get (s : State) (f : Fld) : Nat := bits (s.reg f.addr).toNat f.hi f.lo

/-- Put `v` into a field; the other bits of its register stay. -/
def State.put (s : State) (f : Fld) (v : Nat) : State :=
  s.setReg f.addr (BitVec.ofNat 32 (putBits (s.reg f.addr).toNat f.hi f.lo v))

/-- A one-bit field. -/
def State.flag (s : State) (f : Fld) : Bool := s.get f != 0

/-- Put a Boolean into a one-bit field. -/
def State.putFlag (s : State) (f : Fld) (b : Bool) : State := s.put f (b2n b)

/-- A signed field. -/
def State.getInt (s : State) (f : Fld) : Int := sgn (f.hi + 1 - f.lo) (s.get f)

/-- Put a signed value into a field. -/
def State.putInt (s : State) (f : Fld) (v : Int) : State := s.put f (unsgn (f.hi + 1 - f.lo) v)

/-- Count `n` occurrences in a field that saturates (R5, RC counters). -/
def State.count (s : State) (f : Fld) (n : Nat) : State :=
  s.put f (clampNat (2 ^ (f.hi + 1 - f.lo) - 1) (s.get f + n))

/-- Bit `i` of a field that is a bit map. -/
def State.bitOf (s : State) (f : Fld) (i : Nat) : Bool := bit (s.get f) i

/-- Set or clear bit `i` of a field that is a bit map. -/
def State.putBit (s : State) (f : Fld) (i : Nat) (b : Bool) : State :=
  s.put f (putBits (s.get f) i i (b2n b))

/-- Bit k of a pair of registers that hold a 64-bit map, LO and HI. -/
def State.mapBit (s : State) (lo hi : Fld) (k : Nat) : Bool :=
  if k < 32 then s.bitOf lo k else s.bitOf hi (k - 32)

/-- Set or clear bit k of such a pair. -/
def State.putMapBit (s : State) (lo hi : Fld) (k : Nat) (b : Bool) : State :=
  if k < 32 then s.putBit lo k b else s.putBit hi (k - 32) b

/-! ### Free values -/

/-- Draw an open value below `n` (0 if `n` is 0), and step the counter. -/
def State.free (s : State) (n : Nat) : Nat × State :=
  (Config.freeNat s.freeCtr % n, { s with freeCtr := s.freeCtr + 1 })

/-- A quotient whose rounding is open: exact where it is whole, else one of its two neighbours. -/
def State.divFree (s : State) (a : Int) (b : Nat) : Int × State :=
  if a % b = 0 then (a / b, s) else let r := s.free 2; (a / b + r.1, r.2)

/-- A quotient rounded to nearest; of a tie, which way is open. -/
def State.nearest (s : State) (a : Int) (b : Nat) : Int × State :=
  let q := (2 * a + b) / (2 * b : Nat)
  if (2 * a + b) % (2 * b : Nat) = 0 then let r := s.free 2; (q - r.1, r.2) else (q, s)

/-- An open signed value of `n` bits. -/
def State.freeInt (s : State) (n : Nat) : Int × State := let r := s.free (2 ^ n); (sgn n r.1, r.2)

/-- The first `n` of the values given, and for each that is missing an open one, `f` of a draw below `m` (log 5). -/
def State.padOpen {α : Type} (s : State) (n m : Nat) (f : Nat → α) (l : List α) : List α × State :=
  match n, l with
  | 0, _ => ([], s)
  | n + 1, [] => let d := s.free m; let r := State.padOpen d.2 n m f []; (f d.1 :: r.1, r.2)
  | n + 1, x :: t => let r := State.padOpen s n m f t; (x :: r.1, r.2)

/-- Draw `n` open bytes. -/
def State.freeBytes (s : State) (n : Nat) : List Byte × State :=
  ((List.range n).map (Config.freeByte s.freeCtr), { s with freeCtr := s.freeCtr + 1 })

/-! ### SRAM -/

/-- First byte of the SRAM (R132). -/
def sramBase : Nat := 0x01000000
/-- First address past the SRAM (R132). -/
def sramEnd : Nat := 0x02000000

/-- The byte at host address `a`. -/
def State.byte (s : State) (a : Nat) : Byte := mget memDefault s.sram a

/-- `n` bytes from host address `a` upwards. -/
def State.bytes (s : State) (a n : Nat) : List Byte := (List.range n).map (fun i => s.byte (a + i))

/-- Write bytes from address `a` upwards into a memory. -/
def memWrite (m : Memory) (a : Nat) (l : List Byte) : Memory :=
  match l with
  | [] => m
  | b :: t => memWrite (mset memDefault m a b) (a + 1) t

/-- Write bytes from host address `a` upwards. -/
def State.setBytes (s : State) (a : Nat) (l : List Byte) : State := { s with sram := memWrite s.sram a l }

/-- The 32-bit part at host address `a`, little-endian. -/
def State.word (s : State) (a : Nat) : Word := BitVec.ofNat 32 (leNat (s.bytes a 4))

/-- Index of the SRAM word that holds address `a` (R132). -/
def wordIndex (a : Nat) : Nat := (a - sramBase) / 32

/-- Address of the SRAM word that holds address `a`. -/
def wordAddr (a : Nat) : Nat := a - a % 32

/-- The SRAM word that holds `a` is poisoned (R133). -/
def State.poisoned (s : State) (a : Nat) : Bool := s.poison.contains (wordIndex a)

/-- An unlisted word has no bit in error. -/
def eccDef (_ : Nat) : Ecc := .clean

/-- What the code of the word that holds `a` shows (R133). -/
def State.upset (s : State) (a : Nat) : Ecc := mget eccDef s.upsets (wordIndex a)
/-- The code of the word that holds `a` shows `e` from now on. -/
def State.setUpset (s : State) (a : Nat) (e : Ecc) : State := { s with upsets := mset eccDef s.upsets (wordIndex a) e }

/-- Fresh check bits for the word that holds `a` (R134). -/
def State.freshCode (s : State) (a : Nat) : State :=
  { s with poison := setErase (wordIndex a) s.poison, upsets := mset eccDef s.upsets (wordIndex a) .clean }

/-- A full-word write: data and fresh check bits (R132, R134). -/
def State.setWord (s : State) (a : Nat) (l : List Byte) : State := (s.setBytes (wordAddr a) (l.take 32)).freshCode a

/-- A partial write inside one word (R132): merged into what the read of the word gave; in a poisoned word the rest becomes 0 (R134). -/
def State.setPart (s : State) (a : Nat) (l : List Byte) : State :=
  (if s.poisoned a then (s.setBytes (wordAddr a) (List.replicate 32 0#8)).setBytes a l else s.setBytes a l).freshCode a

/-- Write bytes from `a` upwards word by word (R132). `fuel` bounds the number of words touched. -/
def State.setSpanFuel (fuel : Nat) (s : State) (a : Nat) (l : List Byte) : State :=
  match fuel with
  | 0 => s
  | fuel + 1 =>
    if l.isEmpty then s
    else
      let n := 32 - a % 32
      State.setSpanFuel fuel (if n = 32 ∧ 32 ≤ l.length then s.setWord a l else s.setPart a (l.take n)) (a + n) (l.drop n)

/-- Write bytes from `a` upwards, each SRAM word in one bank operation (R132). -/
def State.setSpan (s : State) (a : Nat) (l : List Byte) : State := State.setSpanFuel (l.length + 1) s a l

/-! ### Parts of the state kept by number -/

def portDef (_ : Nat) : PortSt := {}
def laneDef (_ : Nat) : LaneSt := laneInit
def chanDef (_ : Nat) : ChanSt := {}
def feederDef (_ : Nat) : FeederSt := { block := List.replicate 352 0#8, live := { acc := List.replicate 6 0#64 } }
def coreDef (_ : Nat) : CoreSt := {}
def linkDef (_ : Nat) : RfLink := {}
def uartDef (_ : Nat) : UartSt := {}
def queueDef (_ : Nat) : QueueSt := {}
def winDef (_ : Nat) : WinSt := {}
def slotDef (_ : Nat) : KeySlot := {}
def natDef (_ : Nat) : Nat := 0
def wordDef (_ : Nat) : Word := 0
def accDef (_ : Nat) : BitVec 48 := 0
def noneDef {α : Type} (_ : Nat) : Option α := none
def nilDef {α : Type} (_ : Nat) : List α := []

/-- Port p. -/
def State.port (s : State) (p : Nat) : PortSt := mget portDef s.ports p
/-- Change port p. -/
def State.modPort (s : State) (p : Nat) (f : PortSt → PortSt) : State :=
  { s with ports := mmod portDef s.ports p f }
/-- Lane n. -/
def State.lane (s : State) (n : Nat) : LaneSt := mget laneDef s.lanes n
/-- Change lane n. -/
def State.modLane (s : State) (n : Nat) (f : LaneSt → LaneSt) : State :=
  { s with lanes := mmod laneDef s.lanes n f }
/-- Feeder f. -/
def State.feeder (s : State) (f : Nat) : FeederSt := mget feederDef s.meter.feeders f
/-- Change feeder f. -/
def State.modFeeder (s : State) (f : Nat) (g : FeederSt → FeederSt) : State :=
  { s with meter := { s.meter with feeders := mmod feederDef s.meter.feeders f g } }
/-- Metering channel c. -/
def State.chan (s : State) (c : Nat) : ChanSt := mget chanDef s.meter.chans c
/-- Change metering channel c. -/
def State.modChan (s : State) (c : Nat) (g : ChanSt → ChanSt) : State :=
  { s with meter := { s.meter with chans := mmod chanDef s.meter.chans c g } }
/-- Core k. -/
def State.core (s : State) (k : Nat) : CoreSt := mget coreDef s.cores k
/-- Change core k. -/
def State.modCore (s : State) (k : Nat) (f : CoreSt → CoreSt) : State :=
  { s with cores := mmod coreDef s.cores k f }
/-- Radio link c. -/
def State.rlink (s : State) (c : Nat) : RfLink := mget linkDef s.radio.links c
/-- Change radio link c. -/
def State.modRlink (s : State) (c : Nat) (f : RfLink → RfLink) : State :=
  { s with radio := { s.radio with links := mmod linkDef s.radio.links c f } }
/-- UART u. -/
def State.uart (s : State) (u : Nat) : UartSt := mget uartDef s.uarts u
/-- Change UART u. -/
def State.modUart (s : State) (u : Nat) (f : UartSt → UartSt) : State :=
  { s with uarts := mmod uartDef s.uarts u f }
/-- Queue q. -/
def State.queue (s : State) (q : Nat) : QueueSt := mget queueDef s.pool.queues q
/-- Change queue q. -/
def State.modQueue (s : State) (q : Nat) (f : QueueSt → QueueSt) : State :=
  { s with pool := { s.pool with queues := mmod queueDef s.pool.queues q f } }
/-- Window w. -/
def State.win (s : State) (w : Nat) : WinSt := mget winDef s.pool.wins w
/-- Put window w. -/
def State.setWin (s : State) (w : Nat) (x : WinSt) : State :=
  { s with pool := { s.pool with wins := mset winDef s.pool.wins w x } }
/-- Key slot i. -/
def State.slot (s : State) (i : Nat) : KeySlot := mget slotDef s.wd.slots i
/-- Put key slot i. -/
def State.setSlot (s : State) (i : Nat) (x : KeySlot) : State :=
  { s with wd := { s.wd with slots := mset slotDef s.wd.slots i x } }

/-! ### The mode and the roles -/

/-- SYS_MODE.MODE (R304). -/
def State.mode (s : State) : Nat := s.get SYS_MODE.MODE

/-- A mode above Sentinel. -/
def State.awake (s : State) : Bool := decide (2 ≤ s.mode)

/-- The running modes are 4 to 9 (R305). -/
def State.running (s : State) : Bool := decide (4 ≤ s.mode ∧ s.mode ≤ 9)

/-- The modes in which the line ports run (R304); a loss of mains stops them in Maintenance too (R305). -/
def State.lineMode (s : State) : Bool :=
  [4, 5, 7, 8, 9, 11].contains s.mode && !(decide (s.mode = 9) && s.iron.maintOut)

/-- The modes in which the radio runs (R304). -/
def State.radioMode (s : State) : Bool := [4, 5, 6, 7, 8, 9, 11].contains s.mode

/-- The modes in which metering runs (R109): 4 to 10, and Test while the test program enables it. -/
def State.meterMode (s : State) : Bool := decide (4 ≤ s.mode ∧ s.mode ≤ 11)

/-- Metering runs (R109, MT_CFG). -/
def State.metering (s : State) : Bool := s.meterMode && s.flag MT_CFG.ENABLE

/-- Channel c has power (MT_CFG.CH_EN). -/
def State.powered (s : State) (c : Nat) : Bool := s.bitOf MT_CFG.CH_EN c
/-- The modes in which the sequencers run (R304). -/
def State.seqMode (s : State) : Bool := decide (4 ≤ s.mode)

/-- ROLE: 0 standalone, 1 lead, 2 follower, 3 promoted (AL_STAT). -/
def State.role (s : State) : Nat := s.get AL_STAT.ROLE

/-- The alloy link is UP (R319). -/
def State.linkUp (s : State) : Bool := s.get AL_STAT.LINK = 2

/-- An Alloyed follower. -/
def State.follower (s : State) : Bool := s.role = 2 ∧ s.mode = 7

/-- A follower in Island. -/
def State.island (s : State) : Bool := s.role = 2 ∧ s.mode = 8

/-- The joint number of the unit's own lane n (R322). -/
def State.jointLane (s : State) (n : Nat) : Nat :=
  if (s.role = 2 ∨ s.role = 3) ∧ (s.mode = 7 ∨ s.mode = 8) then n + 256 else n

/-- The outcome of a command that always completes. -/
abbrev Result := Host.Outcome State Fault Refusal

end Sys2Proof.Machine
end

