-- ==== Sys2Proof/Machine/Pool.lean ====
section
/-! DEFINITION. The pewter pool (07): cells, queues, packets and their words. Each operation answers the new state and the
notes it gives rise to, which Flags.lean turns into events and notices. -/

namespace Sys2Proof.Machine

/-- What an operation on a queue gives rise to. -/
inductive PoolNote where
  /-- A packet of so many words committed (R144). -/
  | packet (q words : Nat)
  /-- A watermark latch was set: high or low (R152). -/
  | mark (q : Nat) (hi : Bool)
  /-- A bit of QP_EVT is set. -/
  | evt (f : Fld)
  /-- A single-bit error of a bank was corrected (R133, R337). -/
  | corr (bank : Nat)
  deriving DecidableEq, Repr

/-- Outcome of a word for its producer, in the encoding of QP_WIN_STAT.RESULT (R154, R185). -/
def doomCode (d : Option Doom) : Nat :=
  match d with
  | none => 1
  | some .flushed => 2
  | some .full => 3
  | some .bad => 4

/-! ### Error correction (R133) -/

/-- What reading an SRAM word does to it (R133): correct it, or poison it. `e` is what the read meets beside the errors that stand there. -/
def State.eccRead (s : State) (a : Nat) (e : Ecc) : State × List PoolNote :=
  let b := bits (a - sramBase) 23 20
  let s1 := s.setUpset a .clean
  match (if e = .clean then s.upset a else e) with
  | .clean => (s, [])
  | .single => if s.poisoned a then (s, []) else (s1.count (QP_ECC.CORR b) 1, [.corr b])
  | .double =>
    if s.poisoned a then (s, [])
    else
      (({ s1 with poison := setInsert (wordIndex a) s.poison }.count (QP_ECC.UNCORR b) 1).put QP_ECC_LAST.ADDR (wordAddr a),
        [.evt QP_EVT.POISON])
  | .multi =>
    -- Detection is not assured: the bits read are open (R133).
    let r := s1.freeBytes 32
    (r.2.setBytes (wordAddr a) r.1, [])

/-- Reads of several words, at these addresses. -/
def State.eccWords (s : State) (l : List Nat) : State × List PoolNote :=
  match l with
  | [] => (s, [])
  | a :: t =>
    let r := s.eccRead a .clean
    let u := State.eccWords r.1 t
    (u.1, r.2 ++ u.2)

/-- The addresses of the words that hold `n` bytes from `a` upwards. -/
def wordsOf (a n : Nat) : List Nat := if n = 0 then [] else (List.range ((a % 32 + n + 31) / 32)).map (fun i => wordAddr a + 32 * i)

/-! ### Layout (R139) -/

/-- Cells of the pool. -/
def State.poolCells (s : State) : Nat :=
  if s.get QP_POOL.LAST = 0 then 0 else s.get QP_POOL.LAST + 1 - s.get QP_POOL.FIRST
/-- First cell of the link table. -/
def State.linkCell (s : State) : Nat := s.get QP_POOL.FIRST + 128
/-- First data cell. -/
def State.dataCell (s : State) : Nat := s.linkCell + (4 * s.poolCells + 255) / 256
/-- Number of data cells. -/
def State.dataCells (s : State) : Nat := s.get QP_POOL.FIRST + s.poolCells - s.dataCell
/-- Free data cells (QP_FREE). -/
def State.freeCells (s : State) : Nat := s.dataCells - s.pool.used.length
/-- Address of word w of cell c. -/
def cellAddr (c w : Nat) : Nat := sramBase + c * 256 + w * 32
/-- Address of queue q's descriptor. -/
def State.descAddr (s : State) (q : Nat) : Nat := sramBase + s.get QP_POOL.FIRST * 256 + q * 32
/-- Address of cell c's link entry. -/
def State.linkAddr (s : State) (c : Nat) : Nat :=
  sramBase + s.linkCell * 256 + (c - s.get QP_POOL.FIRST) * 4

/-- The free cell with `i` free cells before it, the first data cell being `c`; `used` is rising. -/
def nthFree (used : List Nat) (c i : Nat) : Nat :=
  match used with
  | [] => c + i
  | u :: t => if u ≤ c + i then nthFree t c (i + 1) else c + i

/-- Take a free cell: which one is open. A cell whose link entry is poisoned leaves the free list (R153).
`fuel` bounds the cells that leave it: no more than there are. -/
def State.takeCellFuel (fuel : Nat) (s : State) : Option Nat × State × List PoolNote :=
  match fuel with
  | 0 => (none, s, [])
  | fuel + 1 =>
    if s.freeCells = 0 then (none, s, [])
    else
      let r := s.free s.freeCells
      let c := nthFree s.pool.used s.dataCell r.1
      let u := ({ r.2 with pool := { r.2.pool with used := setInsert c r.2.pool.used } }).eccRead (s.linkAddr c) .clean
      if u.1.poisoned (s.linkAddr c) then let v := State.takeCellFuel fuel u.1; (v.1, v.2.1, u.2 ++ v.2.2) else (some c, u)

/-- Take a free cell; the last one sets POOL_EXHAUSTED (R150). -/
def State.takeCell (s : State) : Option Nat × State × List PoolNote :=
  let r := State.takeCellFuel s.freeCells s
  (r.1, r.2.1, r.2.2 ++ (if r.1.isSome ∧ r.2.1.freeCells = 0 then [.evt QP_EVT.POOL_EXHAUSTED] else []))

/-- Give cells back to the free list. -/
def State.freeThese (s : State) (cells : List Nat) : State :=
  { s with pool := { s.pool with used := s.pool.used.filter (fun c => !cells.contains c) } }

/-! ### Queues -/

/-- Cells that the open packets of queue q hold. -/
def State.openCells (s : State) (q : Nat) : Nat :=
  ((s.pool.opens.filter (fun o => o.q = q)).map (fun o => o.cells.length)).sum

/-- USED of queue q (R140). -/
def State.usedCells (s : State) (q : Nat) : Nat := (s.queue q).cells.length + s.openCells q

/-- FULL of queue q (R150). -/
def State.queueFull (s : State) (q : Nat) : Bool :=
  ((s.queue q).limit ≠ 0 ∧ (s.queue q).limit ≤ s.usedCells q) ∨ s.freeCells = 0

/-- A committed word is ready: a BROKEN queue, and one with EN = 0, reads as empty (R153, R365). -/
def State.ready (s : State) (q : Nat) : Bool :=
  (s.queue q).en && !(s.queue q).broken && !(s.queue q).chain.isEmpty

/-- LEVEL of queue q (R140). -/
def State.level (s : State) (q : Nat) : Nat := (s.queue q).chain.length
/-- PKTS of queue q (R140). -/
def State.pkts (s : State) (q : Nat) : Nat := ((s.queue q).chain.filter (·.eop)).length

/-- After an operation that changes USED of queue q from `before`, set the watermark latches (R152). -/
def State.marks (s : State) (q before : Nat) : State × List PoolNote :=
  let x := s.queue q
  let now := s.usedCells q
  let hi := decide (x.wmHi ≠ 0 ∧ before < x.wmHi ∧ x.wmHi ≤ now)
  let lo := decide (x.wmLo ≠ 0xFFFF ∧ x.wmLo < before ∧ now ≤ x.wmLo)
  if hi ∨ lo then
    (s.modQueue q (fun y => { y with wmhL := y.wmhL || hi, wmlL := y.wmlL || lo }),
      if x.broken then [] else (if hi then [.mark q true] else []) ++ (if lo then [.mark q false] else []))
  else (s, [])

/-- The queue manager reads queue q's descriptor and the link entries of its cells: a poisoned one makes the queue BROKEN (R153). -/
def State.touch (s : State) (q : Nat) : State × List PoolNote :=
  let x := s.queue q
  let words := s.descAddr q :: (x.cells ++ (s.pool.opens.filter (fun o => o.q = q)).flatMap (·.cells)).map s.linkAddr
  if ¬ x.en then (s, [])
  else
    let r := s.eccWords words
    if ¬ x.broken ∧ words.any r.1.poisoned then
      (r.1.modQueue q (fun y => { y with broken := true }), r.2 ++ [.evt QP_EVT.QUEUE_BROKEN])
    else r

/-- The open packet of a producer on queue q (R144). -/
def State.openOf (s : State) (prod : Producer) (q : Nat) : Option OpenPkt :=
  s.pool.opens.find? (fun o => o.prod = prod ∧ o.q = q)

/-- Put an open packet in place of the producer's former one, or after all others. -/
def State.setOpen (s : State) (o : OpenPkt) : State :=
  { s with pool := { s.pool with opens :=
      if (s.openOf o.prod o.q).isSome then s.pool.opens.map (fun p => if p.prod = o.prod ∧ p.q = o.q then o else p)
      else s.pool.opens ++ [o] } }

/-- Take an open packet off the list. -/
def State.dropOpen (s : State) (prod : Producer) (q : Nat) : State :=
  { s with pool := { s.pool with opens := s.pool.opens.filter (fun o => ¬ (o.prod = prod ∧ o.q = q)) } }

/-- An open packet ends without a commit: its cells return to the free list, but those of a BROKEN queue, which keeps them (R145, R153). -/
def State.endOpen (s : State) (o : OpenPkt) : State :=
  let s1 := s.dropOpen o.prod o.q
  if (s.queue o.q).broken then s1.modQueue o.q (fun y => { y with cells := y.cells ++ o.cells }) else s1.freeThese o.cells

/-- Poison an open packet, unless it is poisoned already (R145). -/
def OpenPkt.condemn (o : OpenPkt) (d : Doom) : OpenPkt := { o with doom := o.doom.orElse (fun _ => some d) }

/-! ### Words (R141 to R143) -/

/-- Bits of an item, and items of a word, that a producer writes to a queue of this format. -/
def itemBits (fmt : Nat) : Nat := if fmt = 1 then 8 else if fmt = 2 then 16 else 24
def itemMax (fmt : Nat) : Nat := if fmt = 1 then 30 else if fmt = 2 then 15 else 10

/-- EOP of a word that a producer writes. -/
def lineEop (w : Line) : Bool := bit w.toNat 255
/-- COUNT of such a word. -/
def lineCount (w : Line) : Nat := bits w.toNat 244 240

/-- A word keeps the rules of R142. -/
def lineOk (fmt : Nat) (w : Line) : Bool :=
  let x := w.toNat
  let n := lineCount w
  n ≤ itemMax fmt ∧ (n = 0 → lineEop w) ∧ (n * itemBits fmt < 240 → bits x 239 (n * itemBits fmt) = 0) ∧
    bits x 251 245 = 0 ∧ (fmt = 1 ∨ fmt = 2 → bit x 252 = false) ∧ (fmt = 1 → bit x 253 = false)

/-- A word from its items, flags and EOP. -/
def mkLine (fmt : Nat) (items : List Nat) (eop f1 f0 : Bool) : Line :=
  let body := (items.zipIdx.map (fun (v, i) => (v % 2 ^ itemBits fmt) * 2 ^ (itemBits fmt * i))).sum
  BitVec.ofNat 256 (body + items.length * 2 ^ 240 + b2n f0 * 2 ^ 252 + b2n f1 * 2 ^ 253 + b2n eop * 2 ^ 255)

/-- The items of a word of a queue of this format, as delivered. -/
def lineItems (fmt : Nat) (w : Line) : List Nat :=
  (List.range (lineCount w)).map (fun i => bits w.toNat (itemBits fmt * (i + 1) - 1) (itemBits fmt * i))

/-- The smallest exponent from `e` up to 13 under which every sample's mantissa fits (R143). -/
def bfpExp (l : List Int) (fuel e : Nat) : Nat :=
  match fuel with
  | 0 => e
  | fuel + 1 =>
    if l.all (fun x => decide (-2048 ≤ roundDiv x (2 ^ e) ∧ roundDiv x (2 ^ e) ≤ 2047)) then e
    else bfpExp l fuel (e + 1)

/-- A BFP20 word of at most 20 samples (R143). -/
def bfpLine (l : List (BitVec 24 × Bool × Bool)) (eop : Bool) : Line :=
  let xs := l.map (fun t => t.1.toInt)
  let e := bfpExp xs 13 0
  let body := (xs.zipIdx.map (fun (x, i) => unsgn 12 (roundDiv x (2 ^ e)) * 2 ^ (12 * i))).sum
  BitVec.ofNat 256 (body + e * 2 ^ 240 + l.length * 2 ^ 244 + b2n (l.any (fun t => t.2.2)) * 2 ^ 252 +
    b2n (l.any (fun t => t.2.1)) * 2 ^ 253 + b2n eop * 2 ^ 255)

/-- The samples of a sample word with its flags. -/
def lineSamples (w : Line) : List (BitVec 24 × Bool × Bool) :=
  (lineItems 0 w).map (fun v => (BitVec.ofNat 24 v, bit w.toNat 253, bit w.toNat 252))

/-- Pack buffered samples: full words, then the last at the packet's end (R143). -/
def bfpPack (fuel : Nat) (buf : List (BitVec 24 × Bool × Bool)) (eop : Bool) :
    List Line × List (BitVec 24 × Bool × Bool) :=
  match fuel with
  | 0 => ([], buf)
  | fuel + 1 =>
    if 20 < buf.length ∨ (buf.length = 20 ∧ eop = false) then
      let r := bfpPack fuel (buf.drop 20) eop
      (bfpLine (buf.take 20) false :: r.1, r.2)
    else if eop then ([bfpLine buf true], [])
    else ([], buf)

/-! ### Writing (R144, R149, R150, R365) -/

/-- Append one stored word to an open packet, in a fresh cell if need be; a word that gets no cell dooms the packet. -/
def State.placeOpen (s : State) (o : OpenPkt) (w : Line) : OpenPkt × State × List PoolNote :=
  if o.doom.isSome then (o, s, [])
  else
    let n := o.slots.length % 8
    if n = 0 then
      if s.queueFull o.q then
        (o.condemn .full, s.modQueue o.q (fun y => { y with ovr := true }), [])
      else
        match s.takeCell with
        | (none, s1, l) => (o.condemn .full, s1.modQueue o.q (fun y => { y with ovr := true }), l)
        | (some c, s1, l) =>
          ({ o with cells := o.cells ++ [c], slots := o.slots ++ [⟨c, 0, false, 0⟩] },
            s1.setWord (cellAddr c 0) (leBytes 32 w.toNat), l)
    else
      let c := o.cells.getLastD 0
      ({ o with slots := o.slots ++ [⟨c, n, false, 0⟩] }, s.setWord (cellAddr c n) (leBytes 32 w.toNat), [])

/-- Append several stored words to an open packet. -/
def State.placeAll (s : State) (o : OpenPkt) (ws : List Line) : OpenPkt × State × List PoolNote :=
  match ws with
  | [] => (o, s, [])
  | w :: t =>
    let r := s.placeOpen o w
    -- The packet counts towards USED while its words are placed.
    let s1 := r.2.1.setOpen r.1
    let r2 := State.placeAll s1 r.1 t
    (r2.1, r2.2.1, r.2.2 ++ r2.2.2)

/-- Commit an open packet (R144). -/
def State.commit (s : State) (o : OpenPkt) : State × List PoolNote :=
  let seq := s.pool.commits + 1
  let n := o.slots.length
  let slots := o.slots.zipIdx.map (fun (x, i) => { x with eop := decide (i + 1 = n), seq := seq })
  let s1 := { s with pool := { s.pool with commits := seq } }
  let s2 := (s1.dropOpen o.prod o.q).modQueue o.q (fun y =>
    { y with chain := y.chain ++ slots, cells := y.cells ++ o.cells,
             tailCell := o.cells.getLastD 0, tailFill := (n + 7) % 8 + 1 })
  (s2, [.packet o.q n])

/-- One word on a stream queue (R149): it commits as it is written. -/
def State.placeStream (s : State) (q : Nat) (w : Line) : Bool × State × List PoolNote :=
  let x := s.queue q
  let seq := s.pool.commits + 1
  let put := fun (t : State) (c n : Nat) (fresh : Bool) =>
    (({ t with pool := { t.pool with commits := seq } }).setWord (cellAddr c n) (leBytes 32 w.toNat)).modQueue q (fun (y : QueueSt) =>
      { y with chain := y.chain ++ [(⟨c, n, false, seq⟩ : QSlot)], tailCell := c, tailFill := n + 1,
               cells := if fresh then y.cells ++ [c] else y.cells })
  if x.cells ≠ [] ∧ x.tailFill < 8 then (true, put s x.tailCell x.tailFill false, [])
  else if s.queueFull q then (false, s.modQueue q (fun y => { y with ovr := true }), [])
  else
    match s.takeCell with
    | (none, s1, l) => (false, s1.modQueue q (fun y => { y with ovr := true }), l)
    | (some c, s1, l) => (true, put s1 c 0 true, l)

/-- Several words on a stream queue; the answer is for the last. -/
def State.placeStreams (s : State) (q : Nat) (ws : List Line) : Bool × State × List PoolNote :=
  match ws with
  | [] => (true, s, [])
  | w :: t =>
    let r := s.placeStream q w
    let r2 := State.placeStreams r.2.1 q t
    (r.1 && r2.1, r2.2.1, r.2.2 ++ r2.2.2)

/-- The packet of a refused word is poisoned (opened if none is open), and ends if the word has EOP (R145, R150, R365). -/
def State.refuseWord (s : State) (prod : Producer) (q : Nat) (d : Doom) (eop : Bool) : Nat × State :=
  let o := ((s.openOf prod q).getD ⟨prod, q, [], [], none, []⟩).condemn d
  if eop then (doomCode o.doom, s.endOpen o) else (0, s.setOpen o)

/-- A producer writes one word to a queue. The answer is the outcome in the encoding of R185. -/
def State.putWord (s : State) (prod : Producer) (q : Nat) (w : Line) : Nat × State × List PoolNote :=
  let t := s.touch q
  let s := t.1
  let x := s.queue q
  let eop := lineEop w
  let before := s.usedCells q
  let done := fun (c : Nat) (u : State) (l : List PoolNote) => let m := u.marks q before; (c, m.1, t.2 ++ l ++ m.2)
  if ¬ x.en then
    let r := s.refuseWord prod q .full eop
    (r.1, r.2, t.2 ++ [.evt QP_EVT.UNCAST_WRITE])
  else if x.broken then
    let s1 := s.modQueue q (fun y => { y with ovr := true })
    if x.stream then (3, s1, t.2) else let r := s1.refuseWord prod q .full eop; (r.1, r.2, t.2)
  else if ¬ lineOk x.fmt w then
    let s1 := s.modQueue q (fun y => { y with ovr := true })
    if x.stream then (3, s1, t.2) else let r := s1.refuseWord prod q .bad eop; done r.1 r.2 []
  else if x.stream then
    if x.fmt = 3 then
      let o := (s.openOf prod q).getD ⟨prod, q, [], [], none, []⟩
      let pk := bfpPack (o.buf.length + 2) (o.buf ++ lineSamples w) false
      let r := (s.setOpen { o with buf := pk.2 }).placeStreams q pk.1
      done (if r.1 then 1 else 3) r.2.1 r.2.2
    else
      let r := s.placeStream q w
      done (if r.1 then 1 else 3) r.2.1 r.2.2
  else
    let o := (s.openOf prod q).getD ⟨prod, q, [], [], none, []⟩
    let r :=
      if o.doom.isSome then (o, s, [])
      else if x.fmt = 3 then
        let pk := bfpPack (o.buf.length + 2) (o.buf ++ lineSamples w) eop
        (s.setOpen { o with buf := pk.2 }).placeAll { o with buf := pk.2 } pk.1
      else (s.setOpen o).placeAll o [w]
    let o1 := r.1
    let s1 := r.2.1.setOpen o1
    if eop then
      if o1.doom.isSome then done (doomCode o1.doom) (s1.endOpen o1) r.2.2
      else let c := s1.commit o1; done 1 c.1 (r.2.2 ++ c.2)
    else done 0 s1 r.2.2

/-- A producer writes several words; the answer is the last word's outcome. -/
def State.putWords (s : State) (prod : Producer) (q : Nat) (ws : List Line) : Nat × State × List PoolNote :=
  match ws with
  | [] => (0, s, [])
  | [w] => s.putWord prod q w
  | w :: t =>
    let r := s.putWord prod q w
    let r2 := State.putWords r.2.1 prod q t
    (r2.1, r2.2.1, r.2.2 ++ r2.2.2)

/-- The words of one packet that carries these bytes: thirty a word, the last with EOP (R141). -/
def byteLines (l : List Byte) : List Line :=
  let ps := if l.isEmpty then [[]] else pieces 30 l
  ps.zipIdx.map (fun (p, i) => mkLine 1 (p.map (·.toNat)) (decide (i + 1 = ps.length)) false false)

/-- Append bytes as one packet of a queue. The answer is 1 OK, 2 FLUSHED, 3 QUEUE_FULL or 4 BAD_DESCRIPTOR. -/
def State.putPacket (s : State) (prod : Producer) (q : Nat) (l : List Byte) : Nat × State × List PoolNote :=
  s.putWords prod q (byteLines l)

/-- A producer rewinds its open packet (R145). -/
def State.rewind (s : State) (prod : Producer) (q : Nat) : State × List PoolNote :=
  match s.openOf prod q with
  | none => (s, [])
  | some o =>
    if (s.queue q).stream then (s, [])
    else
      let t := s.touch q
      let r := (t.1.endOpen o).marks q (s.usedCells q)
      (r.1, t.2 ++ r.2)

/-! ### Reading (R133, R146, R147, R148) -/

/-- The head word of a queue as it is delivered, and whether it was found poisoned (R146). -/
def State.peekWord (s : State) (q : Nat) (e : Ecc) : Option (Line × QSlot) × State × List PoolNote :=
  let t := s.touch q
  let s := t.1
  if ¬ s.ready q then (none, s, t.2)
  else
    match (s.queue q).chain with
    | [] => (none, s, t.2)
    | x :: _ =>
      let a := cellAddr x.cell x.word
      let r := s.eccRead a e
      let s1 := r.1
      let data := leNat (s1.bytes a 32)
      let fmt := (s1.queue q).fmt
      if s1.poisoned a then
        let low := if fmt = 3 then bits data 243 0 else bits data 239 0
        (some (BitVec.ofNat 256 (low + b2n x.eop * 2 ^ 255 + 2 ^ 254), x),
          s1.modQueue q (fun y => { y with badRun := !y.stream }), t.2 ++ r.2)
      else if (s1.queue q).badRun then (some (BitVec.ofNat 256 (putBits data 254 254 1), x), s1, t.2 ++ r.2)
      else (some (BitVec.ofNat 256 data, x), s1, t.2 ++ r.2)

/-- Remove the first `n` words of a queue's chain; cells whose last word has passed return to the free list (R139). -/
def State.popWords (s : State) (q n : Nat) : State × List PoolNote :=
  let x := s.queue q
  let before := s.usedCells q
  let gone := x.chain.take n
  let rest := x.chain.drop n
  let live := fun (c : Nat) => rest.any (fun y => y.cell = c) || (x.stream && c == x.tailCell && decide (x.tailFill < 8))
  let dead := x.cells.filter (fun c => !live c && gone.any (fun y => y.cell = c))
  let bad := if (gone.any (·.eop)) then false else x.badRun
  ((s.modQueue q (fun y =>
      { y with chain := rest, cells := y.cells.filter (fun c => !dead.contains c), badRun := bad })).freeThese dead).marks q before

/-- Words of the head packet: up to and including the next EOP word. -/
def headLen (l : List QSlot) : Nat :=
  match l with
  | [] => 0
  | x :: t => if x.eop then 1 else headLen t + 1

/-- Take the head word (R146). -/
def State.takeWord (s : State) (q : Nat) (e : Ecc) : Option Line × State × List PoolNote :=
  match s.peekWord q e with
  | (none, s1, l) => (none, s1, l)
  | (some (w, _), s1, l) => let r := s1.popWords q 1; (some w, r.1, l ++ r.2)

/-- Drop-rest (R147). -/
def State.dropRest (s : State) (q : Nat) : State × List PoolNote :=
  let t := s.touch q
  if (t.1.queue q).stream ∨ ¬ t.1.ready q then t
  else let r := t.1.popWords q (headLen (t.1.queue q).chain); (r.1, t.2 ++ r.2)

/-- What a flush makes of an open packet of queue q: it is poisoned, or, on a stream queue, the samples not yet packed go (R148, R149). -/
def OpenPkt.flushed (o : OpenPkt) (q : Nat) (stream : Bool) : OpenPkt :=
  if o.q ≠ q then o else if stream then { o with buf := [] } else { o with doom := some .flushed }

/-- Flush (R148): committed words go, open packets are poisoned, the latches keep their values. -/
def State.flush (s : State) (q : Nat) : State × List PoolNote :=
  let t := s.touch q
  let x := t.1.queue q
  if x.broken then t
  else
    let s1 := (t.1.modQueue q (fun y => { y with chain := [], cells := [], tailFill := 8, badRun := false })).freeThese x.cells
    ({ s1 with pool := { s1.pool with opens := s1.pool.opens.map (fun o => o.flushed q x.stream) } }, t.2)

/-- The words of the packet with commit number `seq`, as stored. -/
def State.packetWords (s : State) (q seq : Nat) : List Line :=
  ((s.queue q).chain.filter (fun x => x.seq = seq)).map (fun x => BitVec.ofNat 256 (leNat (s.bytes (cellAddr x.cell x.word) 32)))

/-- The bytes of a packet of byte words. -/
def linesBytes (l : List Line) : List Byte := l.flatMap (fun w => (lineItems 1 w).map (BitVec.ofNat 8))

/-- Remove the packet with commit number `seq` from a queue, wherever it stands (R74). -/
def State.removePacket (s : State) (q seq : Nat) : State × List PoolNote :=
  let t := s.touch q
  let x := t.1.queue q
  if x.broken then t
  else
    let gone := x.chain.filter (fun y => y.seq = seq)
    let rest := x.chain.filter (fun y => y.seq ≠ seq)
    let dead := x.cells.filter (fun c => gone.any (fun y => y.cell = c) && !rest.any (fun y => y.cell = c))
    let head := x.chain.head?.any (fun y => decide (y.seq = seq))
    let r := ((t.1.modQueue q (fun y =>
      { y with chain := rest, cells := y.cells.filter (fun c => !dead.contains c), badRun := y.badRun && !head })).freeThese dead).marks q
        (s.usedCells q)
    (r.1, t.2 ++ r.2)

/-- The addresses of the words of the packet with commit number `seq`. -/
def State.packetAddrs (s : State) (q seq : Nat) : List Nat :=
  ((s.queue q).chain.filter (fun x => x.seq = seq)).map (fun x => cellAddr x.cell x.word)

/-- Commit numbers of a queue's packets, in delivery order. -/
def State.packetSeqs (s : State) (q : Nat) : List Nat :=
  ((s.queue q).chain.filter (·.eop)).map (·.seq)

/-- A word of the head packet is poisoned, or was found so (R207, R146). -/
def State.packetBad (s : State) (q : Nat) : Bool :=
  (s.queue q).badRun ||
    ((s.queue q).chain.take (headLen (s.queue q).chain)).any (fun x => s.poisoned (cellAddr x.cell x.word))

/-! ### What a read of the pool's own words shows (R139, R140) -/

/-- A queue descriptor as eight 32-bit words. -/
def State.descWords (s : State) (q : Nat) : List Nat :=
  let x := s.queue q
  let opens := (s.pool.opens.filter (fun o => o.q = q)).length
  let h := x.chain.headD ⟨0, 0, false, 0⟩
  if ¬ x.en then [0, 0, 0, 0, 0, 0, 0, 0]
  else
    [b2n x.en * 2 ^ 31 + x.fmt * 2 ^ 29 + b2n x.stream * 2 ^ 28 + b2n (s.queueFull q) * 2 ^ 27 + b2n x.ovr * 2 ^ 26 +
        b2n x.broken * 2 ^ 25 + b2n x.wmhL * 2 ^ 24 + b2n x.wmlL * 2 ^ 23 + x.notify * 2 ^ 21 + x.nseq * 2 ^ 16 +
        clampNat 255 (if x.stream then 0 else opens) * 2 ^ 8,
      h.cell * 2 ^ 16 + h.word * 2 ^ 13, x.tailCell * 2 ^ 16 + x.tailFill * 2 ^ 12, s.level q * 2 ^ 12,
      x.limit * 2 ^ 16 + s.usedCells q, x.wmHi * 2 ^ 16 + x.wmLo, s.pkts q, 0]

/-- The cell that follows cell `c` in the chain that holds it (0 if none does), and its EOPMAP. -/
def State.linkEntry (s : State) (c : Nat) : Nat :=
  let qs := s.pool.queues.map (fun e => (e.2.cells, e.2.chain))
  let os := s.pool.opens.map (fun o => (o.cells, o.slots))
  match (qs ++ os).find? (fun p => p.1.contains c) with
  | none => 0
  | some (cells, slots) =>
    let next := ((cells.dropWhile (· ≠ c)).drop 1).headD 0
    let eops := ((slots.filter (fun x => x.cell = c ∧ x.eop)).map (fun x => 2 ^ x.word)).sum
    next + eops * 2 ^ 16

/-- A 32-bit part of the SRAM as it reads: the pool's descriptors and link table show the queue manager's state. -/
def State.sramPart (s : State) (a : Nat) : Word :=
  let base := s.descAddr 0
  let links := sramBase + s.linkCell * 256
  if s.poolCells = 0 then s.word a
  else if base ≤ a ∧ a < base + 32768 then
    BitVec.ofNat 32 (nth 0 (s.descWords ((a - base) / 32)) ((a - base) % 32 / 4))
  else if links ≤ a ∧ a < links + 4 * s.poolCells then
    BitVec.ofNat 32 (s.linkEntry (s.get QP_POOL.FIRST + (a - links) / 4))
  else s.word a

end Sys2Proof.Machine
end

