-- ==== Sys2Proof/Machine/Flags.lean ====
section
/-! DEFINITION. Events, completions, interrupt levels and the counters: how a setting of an event bit, a notice of a queue, a
refused access or an outcome reaches the event ring, the completion ring, the cores and the counters (10, 17, R5 to R8). -/

namespace Sys2Proof.Machine

/-! ### Rings (R201, R211) -/

/-- `n` bytes, cut or filled with zeros. -/
def padTo (n : Nat) (l : List Byte) : List Byte := (l ++ List.replicate n 0#8).take n

/-- Entries between two indexes of a ring, modulo 65,536 (R201). -/
def ringCount (tail head : Nat) : Nat := (tail + 65536 - head) % 65536

/-- Address of entry `i` of a ring of `2^l` entries of `size` bytes. -/
def ringAddr (base l size i : Nat) : Nat := base + (i % 2 ^ l) * size

/-- The rings are in use (HP_CFG.ENABLE). -/
def State.rings (s : State) : Bool := s.flag HP_CFG.ENABLE

/-- Entries of the event ring, and its size. -/
def State.evCount (s : State) : Nat := ringCount (s.get HP_EV_IDX.TAIL) (s.get HP_EV_IDX.HEAD)
def State.evSize (s : State) : Nat := 2 ^ s.get HP_EV_BASE.LOG2N
/-- Entries of the completion ring, and its size. -/
def State.cplCount (s : State) : Nat := ringCount (s.get HP_CPL_IDX.TAIL) (s.get HP_CPL_IDX.HEAD)
def State.cplSize (s : State) : Nat := 2 ^ s.get HP_CPL_BASE.LOG2N
/-- Entries of the command ring. -/
def State.crCount (s : State) : Nat := ringCount (s.get HP_CR_IDX.TAIL) (s.get HP_CR_IDX.HEAD)

/-- Put one record at the event ring's TAIL and advance it (R204). -/
def State.pushEvent (s : State) (rec : List Byte) : State :=
  let t := s.get HP_EV_IDX.TAIL
  let s1 := s.setWord (ringAddr (s.get HP_EV_BASE.ADDR * 4096) (s.get HP_EV_BASE.LOG2N) 32 t) (padTo 32 rec)
  s1.put HP_EV_IDX.TAIL ((t + 1) % 65536)

/-- An event reaches this unit's own ring, or is lost (R211). -/
def State.ringEvent (s : State) (rec : List Byte) : State :=
  if ¬ s.rings then s.count HP_EV_LOST.COUNT 1
  else if s.evCount + 1 < s.evSize then s.pushEvent rec
  else { (s.count HP_EV_LOST.COUNT 1) with hp := { s.hp with lostSince := s.hp.lostSince + 1 } }

/-- An event record (R210). -/
def eventRec (kind status source info : Nat) (detail : List Byte) : List Byte :=
  leBytes 1 kind ++ leBytes 1 status ++ leBytes 2 source ++ leBytes 4 info ++ padTo 24 detail

/-- After the host frees an entry: one OVERFLOW record for the losses since the last (R211). -/
def State.overflowRecord (s : State) : State :=
  if s.rings ∧ 0 < s.hp.lostSince ∧ s.evCount < s.evSize then
    let s1 := s.pushEvent (eventRec 8 0 0 s.hp.lostSince [])
    { s1 with hp := { s1.hp with lostSince := 0 } }
  else s

/-! ### Core events (R187) -/

/-- Latch event `b` in SEQ_EV.PEND of core k. -/
def State.coreEvent (s : State) (k b : Nat) : State := s.putBit (SEQ_EV.PEND k) b true

/-- Latch event `b` in every core. -/
def State.coresEvent (s : State) (b : Nat) : State :=
  foldState (List.range 32) (fun k t => t.coreEvent k b) s

/-- Cores whose register at page offset `off` is not at its reset value. -/
def State.listedCores (s : State) (off : Nat) : List Nat :=
  (s.regs.filter (fun e => decide (0x30000 ≤ e.1 ∧ e.1 < 0x32000 ∧ (e.1 - 0x30000) % 256 = off))).map
    (fun e => (e.1 - 0x30000) / 256)

/-- Lane n had a frame outcome or a transmit report: its bit of SEQ_LPEND rises (R196). -/
def State.lanePend (s : State) (n : Nat) : State :=
  match (s.listedCores 0x24).find? (fun k =>
      decide (s.get (SEQ_LANE.FIRST k) ≤ n ∧ n < s.get (SEQ_LANE.FIRST k) + clampNat 32 (s.get (SEQ_LANE.COUNT k)))) with
  | none => s
  | some k =>
    let i := n - s.get (SEQ_LANE.FIRST k)
    if s.bitOf (SEQ_LPEND.LANES k) i then s else (s.putBit (SEQ_LPEND.LANES k) i true).coreEvent k 1

/-! ### The warden's status words (R273, R292, R296) -/

/-- A presence window is open. -/
def State.presence (s : State) : Bool := s.flag WD_STAT.PRES_OPEN

/-- The window's length in force: the last LEN row written, 60 s if none (R292). -/
def OtpSt.len (o : OtpSt) : Nat := ((o.windows.filter (·.2)).getLast?.map (·.1)).getD 60

/-- The floor in force: the last row written (R292). -/
def OtpSt.floor (o : OtpSt) : Nat := ((o.floors.filter (·.2)).getLast?.map (fun r => r.1.toNat)).getD 0

/-- The root hash in force, if any (R292). -/
def OtpSt.root (o : OtpSt) : Option (List Byte) := (o.roots.filter (·.2)).getLast?.map (·.1)

/-- WD_PRES.LEFT: the seconds left, rounded up, 0 while closed. -/
def State.presLeft (s : State) : Nat :=
  if s.presence then
    (s.wd.presLen * 32768 - (s.iron.rtc + 2 ^ 48 - s.wd.presFrom) % 2 ^ 48 + 32767) / 32768
  else 0

/-- WD_STAT as it reads: debug in effect, root row in force and jobs held are taken from the warden's state. -/
def State.wdStat (s : State) : Word :=
  let dbg := s.flag WD_POLICY.DBG_UNLOCK && !s.wd.otp.debugOff && decide (s.mode = 9 ∨ s.mode = 11)
  let x := putBits (s.reg WD_STAT).toNat 27 26 (2 * b2n dbg + b2n s.wd.otp.root.isSome)
  BitVec.ofNat 32 (putBits x 6 0 s.wd.jobs.length)

/-- WD_PRES as it reads. -/
def State.wdPres (s : State) : Word := BitVec.ofNat 32 (s.wd.otp.len * 65536 + s.presLeft)

/-! ### Announcements -/

/-- Something that the rings, the cores or the counters must be told. -/
inductive Note where
  /-- A note of the pool. -/
  | pool (n : PoolNote)
  /-- A bit of an event register is set; the second list stands in DETAIL from byte 4 on (R210). -/
  | bit (f : Fld) (more : List Byte)
  /-- An event record, its kind first; with the queue and body that an RX_FRAME of a follower carries (R325). -/
  | event (rec : List Byte) (dlvq : Nat) (body : List Byte)
  /-- A completion record for the lead: hand-off number and record (R325). -/
  | handed (number : Nat) (rec : List Byte)
  /-- Occurrences of an E event: event, qualifier, how many (R336). -/
  | occurs (event qual n : Nat)
  /-- Counter k counts `n` more (R338). -/
  | counts (k n : Nat)
  deriving DecidableEq, Repr

/-- The enable bit of an event bit: LP_EVT has its own enable register, every other event register has EN in bits 16 up. -/
def State.evtEnabled (s : State) (f : Fld) : Bool :=
  if 0x80000 ≤ f.addr ∧ f.addr < 0x84000 ∧ f.addr % 4096 = 8 then bit (s.reg (f.addr + 4)).toNat f.lo
  else bit (s.reg f.addr).toNat (16 + f.lo)

/-- The record that the setting of an event bit places: BLOCK, or the kind its block puts in place of it (R210, R258,
R295, CT_EVT). -/
def State.bitRecord (s : State) (f : Fld) (more : List Byte) : List Byte :=
  let blk := f.addr / 65536
  let word := fun a => leBytes 4 (s.reg a).toNat
  if blk = 0x0B then
    let page := f.addr - f.addr % 256
    eventRec 10 0 ((f.addr - 0xB0000) / 256) f.lo (word (page + 8) ++ word (page + 4))
  else if blk = 0x0C then eventRec 11 0 0 f.lo (word (CT_OUT) ++ word (CT_TRIP))
  else if blk = 0x07 then
    eventRec 12 (if f.lo = WD_EVT.MBX_DONE.lo then s.get WD_MBX_STAT.STATUS else 0) 0
      (f.lo + leNat more * 256 + s.get WD_STAT.QCAUSE * 65536) (leBytes 4 s.wdStat.toNat ++ leBytes 4 s.wdPres.toNat)
  else eventRec 5 0 blk f.addr (word f.addr ++ more)

/-- Number of an event kind whose records a follower sends to the lead: RX_FRAME, FRAME_ERR and BLOCK (R325). -/
def forwarded (kind : Nat) : Bool := kind = 1 ∨ kind = 2 ∨ kind = 5

/-- A follower's BLOCK event carries the mirror's block base (R325). -/
def mirrorSource (rec : List Byte) : List Byte :=
  if leNat (rec.take 1) = 5 then rec.take 3 ++ leBytes 1 (leNat ((rec.drop 3).take 1) + 0x80) ++ rec.drop 4 else rec

/-- A record that an Island unit keeps in BUFQ (R329, R330). -/
def State.keepRecord (s : State) (rkind number : Nat) (rec body : List Byte) : State × List Note :=
  match s.fab.bufq with
  | none => (s.count AL_CNT.BUF_LOST 1, [])
  | some q =>
    let r := s.putPacket (.engine 3) q
      (leBytes 1 rkind ++ [0#8] ++ leBytes 2 number ++ leBytes 4 (s.get PWR_MCYC.CYCLE) ++ padTo 32 rec ++ body)
    (if r.1 = 1 then r.2.1 else r.2.1.count AL_CNT.BUF_LOST 1, r.2.2.map .pool)

/-- Counters that count occurrences of `event` under qualifier `qual` (R337). -/
def State.counters (s : State) (event qual : Nat) : List Nat :=
  (s.regs.filter (fun e => decide (0x40100 ≤ e.1 ∧ e.1 < 0x40500 ∧ e.1 % 16 = 0) &&
      decide (bits e.2.toNat 4 0 = event) &&
      (let q := bits e.2.toNat 15 8
       if event = 9 then decide (q = 0) else decide (q = 0xFF ∨ q = qual)))).map (fun e => (e.1 - 0x40100) / 16)

/-- The S cores that take counter-overflow interrupts are signalled (R338, R194). -/
def State.signalCores (s : State) : State :=
  foldState ((s.listedCores 0x08).filter (fun k => !s.flag (SEQ_CFG.PRIV k) && s.flag (SEQ_CFG.INT_PM k)))
    (fun k t => t.modCore k (fun c => { c with irq := true, since := if c.irq then c.since else 0 })) s

/-- The OVF bit of counter k. -/
def ovfBit (k : Nat) : Fld :=
  if k < 32 then ⟨PM_OVF_LO.OVF.addr, k, k⟩ else ⟨PM_OVF_HI.OVF.addr, k - 32, k - 32⟩

/-- Deal with one note; what it gives rise to comes next. -/
def State.note (s : State) (n : Note) : State × List Note :=
  match n with
  | .pool (.packet q words) =>
    if (s.queue q).notify = 1 then (s, [.event (eventRec 3 0 q words []) 0 []])
    else if (s.queue q).notify = 2 then (s.coreEvent (s.queue q).nseq 0, []) else (s, [])
  | .pool (.mark q hi) =>
    if (s.queue q).notify = 1 then
      (s, [.event (eventRec 3 0 q ((if hi then 1 else 2) * 2 ^ 30 + s.usedCells q) []) 0 []])
    else if (s.queue q).notify = 2 then (s.coreEvent (s.queue q).nseq 0, []) else (s, [])
  | .pool (.evt f) => (s, [.bit f []])
  | .pool (.corr b) => (s, [.occurs 8 b 1])
  | .bit f more =>
    if s.flag f then (s, [])
    else
      let s1 := s.putFlag f true
      (s1, if s1.evtEnabled f then [.event (s1.bitRecord f more) 0 []] else [])
  | .event rec dlvq body =>
    if forwarded (leNat (rec.take 1)) ∧ s.follower then
      ({ s with al := { s.al with outbox := s.al.outbox ++ [.record 1 0 (mirrorSource rec) dlvq body] } }, [])
    else if forwarded (leNat (rec.take 1)) ∧ s.island then s.keepRecord 1 0 (mirrorSource rec) body
    else (s.ringEvent rec, [])
  | .handed number rec =>
    if s.island then s.keepRecord 0 number rec []
    else ({ s with al := { s.al with outbox := s.al.outbox ++ [.record 0 number rec 0 []] } }, [])
  | .occurs event qual n =>
    if s.flag PM_CTL.FREEZE then (s, []) else (s, (s.counters event qual).map (fun k => .counts k n))
  | .counts k n =>
    let c := mget natDef s.pm.count k + n
    let s1 := { s with pm := { s.pm with count := mset natDef s.pm.count k (c % 2 ^ 48) } }
    if c < 2 ^ 48 then (s1, [])
    else
      let f := ovfBit k
      let s2 := if s1.flag (PM_SEL.INT k) then s1.signalCores else s1
      if s2.flag f then (s2, [])
      else
        let s3 := s2.putFlag f true
        (s3, if s3.flag (PM_SEL.EV k) then [.event (eventRec 5 0 4 f.addr (leBytes 4 (s3.reg f.addr).toNat)) 0 []] else [])

/-- Deal with a list of notes in order, each with what it gives rise to. -/
def State.tellFuel (fuel : Nat) (s : State) (l : List Note) : State :=
  match fuel with
  | 0 => s
  | fuel + 1 =>
    match l with
    | [] => s
    | n :: t => let r := s.note n; State.tellFuel fuel r.1 (r.2 ++ t)

/-- Deal with notes. One note gives rise to at most a few dozen, 64 counters among them. -/
def State.tell (s : State) (l : List Note) : State := State.tellFuel (160 * l.length + 1) s l

/-- Deal with the notes of a pool operation. -/
def State.tellPool (s : State) (l : List PoolNote) : State := s.tell (l.map .pool)

/-- The `n` bytes from `a` upwards are read: each word's code is checked (R133). -/
def State.readSpan (s : State) (a n : Nat) : State := let r := s.eccWords (wordsOf a n); r.1.tellPool r.2

/-- The words of the packet with commit number `seq` are read. -/
def State.readPacket (s : State) (q seq : Nat) : State := let r := s.eccWords (s.packetAddrs q seq); r.1.tellPool r.2

/-- Set a bit of an event register (W1C), and place its event if it is enabled and was 0. -/
def State.setEvt (s : State) (f : Fld) : State := s.tell [.bit f []]

/-- The same, with bytes for DETAIL from byte 4 on (R210), or the slot of a warden event (R295). -/
def State.setEvtWith (s : State) (f : Fld) (more : List Byte) : State := s.tell [.bit f more]

/-- Place an event. -/
def State.event (s : State) (kind status source info : Nat) (detail : List Byte) : State :=
  s.tell [.event (eventRec kind status source info detail) 0 []]

/-- An event of `n` occurrences for the counters. -/
def State.occurs (s : State) (event qual n : Nat) : State := s.tell [.occurs event qual n]

/-- SOURCE of a REFUSED event (R210). -/
def accSource (who : Accessor) : Nat :=
  match who with
  | .host => 0xFFFF
  | .core k => 0x8000 + k.val

/-- Status codes (R214). -/
def stOk : Nat := 0x00
def stAuthFail : Nat := 0x01
def stKeyChanged : Nat := 0x02
def stKeyErased : Nat := 0x03
def stExhausted : Nat := 0x04
def stAborted : Nat := 0x05
def stAbortLate : Nat := 0x06
def stMainsLost : Nat := 0x07
def stFlushed : Nat := 0x08
def stNoAck : Nat := 0x09
def stRouteFail : Nat := 0x0A
def stQueueFull : Nat := 0x0B
def stBad : Nat := 0x0C
def stNotPermitted : Nat := 0x0D
def stPresence : Nat := 0x0E
def stFrameOk : Nat := 0x20
def stHdrCrc : Nat := 0x21
def stPayCrc : Nat := 0x22
def stFalseSync : Nat := 0x23
def stCaptureLost : Nat := 0x24
def stDupRx : Nat := 0x25
def stBlockedTx : Nat := 0x26

/-- Status of a packet outcome in the encoding of R185: OK, FLUSHED, QUEUE_FULL, BAD_DESCRIPTOR. -/
def packetStatus (c : Nat) : Nat :=
  if c = 1 then stOk else if c = 2 then stFlushed else if c = 4 then stBad else stQueueFull

/-- A REFUSED event (R7, R210). -/
def State.refuse (s : State) (who : Accessor) (addr status : Nat) : State :=
  s.event 4 status (accSource who) addr []

/-! ### Completions (R209) -/

/-- A completion record. -/
def cplRec (tag status type info : Nat) (result : List Byte) : List Byte :=
  leBytes 2 tag ++ leBytes 1 status ++ leBytes 1 type ++ leBytes 4 info ++ padTo 24 result

/-- Write a completion record at the ring's TAIL and advance it (R204). -/
def State.pushCpl (s : State) (rec : List Byte) : State :=
  let t := s.get HP_CPL_IDX.TAIL
  let s1 := s.setWord (ringAddr (s.get HP_CPL_BASE.ADDR * 4096) (s.get HP_CPL_BASE.LOG2N) 32 t) (padTo 32 rec)
  s1.put HP_CPL_IDX.TAIL ((t + 1) % 65536)

/-- The outstanding transaction with this tag. -/
def State.outstanding (s : State) (tag : Nat) : Option Trans := s.hp.outst.find? (fun t => t.tag = tag)

/-- A transaction ends: it is no longer outstanding and its record is written. A transaction ended already is not ended again. -/
def State.complete (s : State) (tag status info : Nat) (result : List Byte) : State :=
  match s.outstanding tag with
  | none => s
  | some t =>
    let s1 := { s with hp := { s.hp with outst := s.hp.outst.filter (fun u => u.tag ≠ tag) } }
    s1.pushCpl (cplRec tag status t.type info result)

/-! ### Interrupt levels (R212, R213) -/

/-- CPL of HP_IRQ. -/
def State.irqCpl (s : State) : Bool :=
  let n := s.cplCount
  let thr := if s.get HP_COAL.CPL_THR = 0 then 1 else s.get HP_COAL.CPL_THR
  thr ≤ n || (0 < n && (s.get HP_COAL.CPL_TIME = 0 || s.hp.cplAged))

/-- EVT of HP_IRQ. -/
def State.irqEvt (s : State) : Bool :=
  let n := s.evCount
  let thr := if s.get HP_COAL.EV_THR = 0 then 1 else s.get HP_COAL.EV_THR
  thr ≤ n || (0 < n && (s.get HP_COAL.EV_TIME = 0 || s.hp.evAged))

/-- ERR of HP_IRQ. -/
def State.irqErr (s : State) : Bool :=
  s.flag HP_STAT.PROTO_ERR || s.flag HP_STAT.RING_ERR || s.flag HP_STAT.EMPTY_TIMEOUT

/-- HP_IRQ as it reads. -/
def State.irqWord (s : State) : Nat := b2n s.irqCpl + 2 * b2n s.irqEvt + 4 * b2n s.irqErr

/-- HIRQ_N is low (R213). -/
def State.hirq (s : State) : Bool := (s.irqWord &&& (s.reg HP_IRQ_EN).toNat % 8) ≠ 0

/-- Level of HIRQ_N; none where an open-drain output leaves it to the board (R213). -/
def State.hirqN (s : State) : Option Bool := if s.hirq then some false else if s.flag HP_CFG.IRQ_OD then none else some true

/-- Level of HRDY between two transfers: low in Sentinel and Dormant (R368), and while a part-0 read waits for a word (R151, R200). -/
def State.hrdy (s : State) : Bool := s.awake && s.hp.wait.isNone

/-- Whether the oldest of `n` unconsumed records has waited, once its time is `new` in place of `old`: open where neither follows from
what was so before (log 66). -/
def State.agedAfter (s : State) (aged : Bool) (n old new : Nat) : Bool × State :=
  if n = 0 then (false, s)
  else if (aged && decide (new ≤ old)) || (!aged && decide (old ≠ 0 ∧ old ≤ new)) then (aged, s)
  else let r := s.free 2; (decide (r.1 = 1), r.2)

/-- The same once `n` records are left, others having been consumed: the next one is younger. -/
def State.agedNext (s : State) (aged : Bool) (n : Nat) : Bool × State :=
  if n = 0 ∨ ¬ aged then (false, s) else let r := s.free 2; (decide (r.1 = 1), r.2)

end Sys2Proof.Machine
end

