-- ==== Sys2Proof/Machine/Operands.lean ====
section
/-! DEFINITION. Operand forms: the partitions of the SRAM (R136, R137), the fields of a descriptor (R205) and the data
references in it (R207). -/

namespace Sys2Proof.Machine

/-! ### Partitions -/

/-- The partitions of the SRAM (R136). -/
inductive Part where
  | code | registry | capture | pool
  deriving DecidableEq, Repr

/-- An ingot has been cast: the pool has cells. -/
def State.isCast (s : State) : Bool := s.poolCells ≠ 0

/-- First address of the registry (LK_REG.BASE). -/
def State.regBase (s : State) : Nat := sramBase + s.get LK_REG.BASE * 64

/-- Bytes of the registry partition: 64 an entry, rounded up to 64 KiB (R136). -/
def State.regBytes (s : State) : Nat := (64 * s.get LK_REG.ENTRIES + 65535) / 65536 * 65536

/-- First address of the capture partition, and the first past it. -/
def State.captBase (s : State) : Nat := s.regBase + s.regBytes
def State.captEnd (s : State) : Nat := s.captBase + s.fab.captBlk * 65536

/-- The partition that holds address `a`; none before the first cast, and outside every partition. -/
def State.partOf (s : State) (a : Nat) : Option Part :=
  if ¬ s.isCast ∨ a < sramBase ∨ sramEnd ≤ a then none
  else if a < sramBase + s.fab.codeBlk * 65536 then some .code
  else if s.regBase ≤ a ∧ a < s.captBase then some .registry
  else if s.captBase ≤ a ∧ a < s.captEnd then some .capture
  else if sramBase + s.get QP_POOL.FIRST * 256 ≤ a ∧ a < sramBase + (s.get QP_POOL.LAST + 1) * 256 then some .pool
  else none

/-- `n` bytes from `a` lie wholly in the capture partition. -/
def State.inCapture (s : State) (a n : Nat) : Bool :=
  s.isCast && decide (s.captBase ≤ a ∧ a + n ≤ s.captEnd)

/-! ### The registry (R89) -/

/-- Address of registry entry `i`. -/
def State.entryAddr (s : State) (i : Nat) : Nat := s.regBase + 64 * i

/-! ### Descriptors (R205) -/

/-- Byte, 16-bit, 32-bit and longer little-endian fields of a descriptor or record. -/
def u8 (d : List Byte) (i : Nat) : Nat := (nth 0#8 d i).toNat
def u16 (d : List Byte) (i : Nat) : Nat := leNat ((d.drop i).take 2)
def u32 (d : List Byte) (i : Nat) : Nat := leNat ((d.drop i).take 4)
/-- Bytes `i` to `j` of a descriptor are 0. -/
def zeros (d : List Byte) (i j : Nat) : Bool := ((d.take (j + 1)).drop i).all (· = 0#8)

/-- The header's reserved bits are 0 (R205). -/
def headerOk (d : List Byte) : Bool := decide (u8 d 1 = 0 ∧ u16 d 2 < 1024) && zeros d 4 7

/-- A data reference (R207). -/
structure Dref where
  kind : Nat
  rsv : Nat
  /-- QUEUE or LEN. -/
  ql : Nat
  addr : Nat
  deriving DecidableEq, Repr

/-- The data reference at byte `i` of a descriptor. -/
def drefAt (d : List Byte) (i : Nat) : Dref := ⟨u8 d i, u8 d (i + 1), u16 d (i + 2), u32 d (i + 4)⟩

/-- The words of the head packet of a queue, as stored. -/
def State.headWords (s : State) (q : Nat) : List Line :=
  match (s.queue q).chain with
  | [] => []
  | x :: _ => s.packetWords q x.seq

/-- The queue can give its head packet whole to the device: a cast packet queue with a committed packet none of whose words
carries BAD (R207). -/
def State.packetReady (s : State) (q : Nat) : Bool :=
  s.ready q && !(s.queue q).stream && !s.packetBad q

/-- The form of a data reference: KIND 0 to 2, its reserved byte 0, QUEUE a queue number, ADDR 0 but under KIND 2. -/
def drefForm (r : Dref) : Bool :=
  decide (r.kind ≤ 2 ∧ r.rsv = 0 ∧ (r.kind = 1 → r.ql < 1024) ∧ (r.kind ≠ 2 → r.addr = 0))

/-- The bytes an input reference names; none if it must complete BAD_DESCRIPTOR (R207, log 12). -/
def State.drefBytes (s : State) (r : Dref) : Option (List Byte) :=
  if ¬ drefForm r then none
  else if r.kind = 0 then some []
  else if r.kind = 1 then
    if s.packetReady r.ql ∧ (s.queue r.ql).fmt = 1 then some (linesBytes (s.headWords r.ql)) else none
  else if s.inCapture r.addr r.ql then some (s.bytes r.addr r.ql) else none

/-- The device reads what a data reference names: the words of the head packet, or a span of the capture partition (R133, R207). -/
def State.readRef (s : State) (r : Dref) : State :=
  if ¬ drefForm r then s
  else if r.kind = 1 then s.readPacket r.ql ((s.queue r.ql).chain.headD ⟨0, 0, false, 0⟩).seq
  else if r.kind = 2 ∧ s.inCapture r.addr r.ql then s.readSpan r.addr r.ql else s

/-- Where a descriptor of this TYPE holds its input references (R205). -/
def refPlaces (type : Nat) : List Nat :=
  match type with
  | 1 | 2 => [20]
  | 4 => [12, 20]
  | 5 | 6 => [12]
  | _ => []

/-- The device reads what the references of a descriptor name. -/
def State.readRefs (s : State) (d : List Byte) : State := foldState (refPlaces (u8 d 0)) (fun i t => t.readRef (drefAt d i)) s

/-- Once the checks have passed, the packet that a reference of KIND 1 names is removed whole (R207). -/
def State.drefTake (s : State) (r : Dref) : State :=
  if r.kind = 1 then let t := s.dropRest r.ql; t.1.tellPool t.2 else s

end Sys2Proof.Machine
end

