-- ==== Sys2Proof/Machine/Keys.lean ====
section
/-! DEFINITION. Key slots (R276 to R280), the open window (R273), and the protection of line and radio frames (R90, R91, R286). -/

namespace Sys2Proof.Machine

/-! ### Slots -/

/-- STATE of a slot as WD_SLOT shows it: 0 EMPTY, 1 ACTIVE, 2 EXHAUSTED (R277). -/
def KeySlot.state (k : KeySlot) : Nat := if k.type = 0 then 0 else if k.exhausted then 2 else 1

/-- The slot holds an AES key. -/
def KeySlot.isAes (k : KeySlot) : Bool := k.type = 1 ∨ k.type = 2

/-- USAGE bit `b` of a slot: 0 ENC, 1 DEC, 2 MAC, 3 SIGN, 4 AGREE, 5 DERIVE, 6 WRAP, 7 EXPORT (R276). -/
def KeySlot.may (k : KeySlot) (b : Nat) : Bool := bit k.usage.toNat b

/-- A USAGE that makes a master key: DERIVE or WRAP (R275). -/
def masterUsage (u : Nat) : Bool := bit u 5 || bit u 6

/-- The key's bytes: 16 of an AES128 key, else 32. -/
def KeySlot.bytes (k : KeySlot) : List Byte := (beBytes 32 k.key.toNat).take (if k.type = 1 then 16 else 32)

/-- Bytes of key material of a TYPE (R276). -/
def keyLen (type : Nat) : Nat := if type = 1 then 16 else 32

/-- Load, unwrap, generate, ECDH or KDF output: the slot becomes ACTIVE, VERSION + 1 (R277). -/
def State.loadSlot (s : State) (i type usage counter : Nat) (key : List Byte) : State :=
  let old := s.slot i
  s.setSlot i { key := BitVec.ofNat 256 (beNat (padTo 32 key)), type := type, usage := BitVec.ofNat 8 usage,
                version := old.version + 1, counter := BitVec.ofNat 32 counter, exhausted := false, warned := false }

/-- What an erase, a rewrite of slot i does to the jobs bound to it (R280): queued jobs will find another VERSION; a job in
the engine ends KEY_ERASED if the slot was erased. -/
def State.eraseJobs (s : State) (i : Nat) : State :=
  { s with wd := { s.wd with jobs := s.wd.jobs.map (fun j =>
      if j.entered ∧ j.verdict = none ∧ j.op ≠ 7 ∧ j.op ≠ 9 ∧ j.op ≠ 12 ∧ j.slot = i then
        { j with verdict := some (3#8, 0#8) } else j) } }

/-- Erase a slot: EMPTY, material zeroed, VERSION + 1, COUNTER 0 (R277); an EMPTY slot stays as it is. -/
def State.eraseSlot (s : State) (i : Nat) : State :=
  let old := s.slot i
  if old.type = 0 then s
  else (s.setSlot i { version := old.version + 1 }).eraseJobs i

/-- Take the next counter value of slot i (R278); none if it is EXHAUSTED. -/
def State.takeCounter (s : State) (i : Nat) : Option Nat × State :=
  let k := s.slot i
  let v := k.counter.toNat
  if v = 0xFFFFFFFF then (none, s)
  else
    let warn := !k.warned && decide (s.get WD_CTRWARN.THRESH ≤ v)
    let s1 := s.setSlot i { k with counter := k.counter + 1, exhausted := k.exhausted || decide (v = 0xFFFFFFFE),
                                   warned := k.warned || warn }
    let s2 := if warn then s1.setEvtWith WD_EVT.CTR_WARN (leBytes 1 i) else s1
    (some v, if v = 0xFFFFFFFE then s2.setEvtWith WD_EVT.EXHAUSTED (leBytes 1 i) else s2)

/-! ### Presence (R273) -/

/-- The window closes, in every mode (R273, log 49). -/
def State.closeWindow (s : State) : State :=
  if s.presence then (s.putFlag WD_STAT.PRES_OPEN false).setEvt WD_EVT.PRES_CLOSE else s

/-! ### Frame protection -/

/-- The device's own EUI-64 (R90). -/
def State.ownEui (s : State) : List Byte := s.wd.otp.eui

/-- The link key of a meter or neighbour under a master key (R90, R225). -/
def linkKeyOf (k : KeySlot) (prefix2 eui gen : List Byte) : List Byte := cmac k.bytes (prefix2 ++ eui ++ gen) 16

/-- The nonce: the sender's EUI-64, FC most significant byte first, SLV (R90). -/
def frameNonce (eui : List Byte) (fc slv : Nat) : List Byte := eui ++ beBytes 4 fc ++ leBytes 1 slv

/-- Protect a body under level 2 or 6: body and tag as they are sent (R90). -/
def protect (key nonce : List Byte) (slv : Nat) (aad body : List Byte) : List Byte :=
  if slv % 8 = 6 then ccmEnc key nonce aad body 8
  else body ++ ccmEnc key nonce (aad ++ body) [] 8

/-- Check and open what follows AUX: the body, if the tag holds (R90). -/
def unprotect (key nonce : List Byte) (slv : Nat) (aad rest : List Byte) : Option (List Byte) :=
  if slv % 8 = 6 then ccmDec key nonce aad rest 8
  else
    let n := rest.length - 8
    if 8 ≤ rest.length ∧ (ccmDec key nonce (aad ++ rest.take n) (rest.drop n) 8).isSome then some (rest.take n) else none

/-- The slot may serve the link: an AES key with DERIVE (R286). -/
def KeySlot.linkOk (k : KeySlot) : Bool := k.isAes && k.may 5
/-- The slot may serve broadcasts and floods: an AES128 key with ENC and DEC (R286). -/
def KeySlot.groupOk (k : KeySlot) : Bool := decide (k.type = 1) && k.may 0 && k.may 1

/-- Take key and counter to protect one frame: status, FC, the key, and the state after. In Quarantine every protection is
refused (R294). -/
def State.takeFrameKey (s : State) (i : Nat) (group : Bool) (key : KeySlot → List Byte) : Nat × Nat × List Byte × State :=
  let k := s.slot i
  if s.mode = 10 ∨ ¬ (if group then k.groupOk else k.linkOk) then (stNotPermitted, 0, [], s)
  else
    match s.takeCounter i with
    | (none, s1) => (stExhausted, 0, [], s1)
    | (some v, s1) => (stOk, v, key k, s1)

/-- The key to verify one frame with, if the slot may serve it. -/
def State.frameKey (s : State) (i : Nat) (group : Bool) (key : KeySlot → List Byte) : Option (List Byte) :=
  let k := s.slot i
  if s.mode = 10 ∨ ¬ (if group then k.groupOk else k.linkOk) then none else some (key k)

end Sys2Proof.Machine
end

