-- ==== Sys2Proof/Machine/LinePort.lean ====
section
/-! DEFINITION. Line ports and the channelizer (02): coefficient banks, the headroom loop, lane limits, the cancellation
tile and the impedance probe. -/

namespace Sys2Proof.Machine

/-- Whose reads reach the device now: the host port runs in every mode above Sentinel (R368), the cores in the modes of R304. -/
def State.reads (s : State) (who : Accessor) : Bool :=
  match who with
  | .host => s.awake
  | .core _ => s.seqMode

/-- Whose writes reach the device now. An Alloyed follower takes the host's writes from the lead, through the mirror, while the link
is UP; in Island it takes a write of AL_CTL alone (R321, R329). -/
def State.reach (s : State) (who : Accessor) : Bool :=
  match who with
  | .host => s.awake && !s.island && (!s.follower || s.linkUp)
  | .core _ => s.seqMode

/-- Address `a` lies in the scope of the partial cast that holds the machine (R175, R176). -/
def State.inScope (s : State) (a : Nat) : Bool :=
  let sc := s.get FAB_STAT.SCOPE
  let st := s.get FAB_STAT.STATE
  s.fab.partialLoad && decide (st = 4 ∨ st = 5) &&
    (if 1 ≤ sc ∧ sc ≤ 4 then
      decide ((a ≥ 0x80000 + (sc - 1) * 4096 ∧ a < 0x80000 + sc * 4096) ∨
        (a ≥ 0x100000 + (sc - 1) * 4096 ∧ a < 0x100000 + sc * 4096))
    else if sc = 5 then decide (a / 65536 = 9) else decide (sc = 6 ∧ a / 65536 = 10))

/-- A write of a register at `a` that reaches the device has its effect; a host write into the scope of a partial cast is
discarded with an event (R176). -/
def State.enter (s : State) (who : Accessor) (a : Nat) (f : State → State) : State :=
  if ¬ s.reach who then s
  else if who = .host ∧ s.inScope a then s.refuse .host a stNotPermitted
  else f s

/-- The fields of the register at `a` that a writer may not change now: RWF outside Forge, RWP without presence, and for a core
always (R5, R7, R184). -/
def State.refusedFields (s : State) (who : Accessor) (a : Nat) : List FieldDesc :=
  match regFind a with
  | none => []
  | some (d, _) => d.fields.filter (fun f =>
      (decide (f.acc = .rwf) && decide (s.mode ≠ 3)) ||
        (decide (f.acc = .rwp) && (decide (who ≠ .host) || !s.flag WD_STAT.PRES_OPEN)))

/-- Rule R7: the value that takes effect, refused fields kept, and the event if one of them would have changed. -/
def State.gate (s : State) (who : Accessor) (a : Nat) (value : Word) : Word × State :=
  let old := (s.reg a).toNat
  let l := s.refusedFields who a
  let v := l.foldl (fun x f => putBits x f.hi f.lo (bits old f.hi f.lo)) value.toNat
  let hit := l.filter (fun f => decide (bits old f.hi f.lo ≠ bits value.toNat f.hi f.lo))
  let status := if who = .host ∧ hit.any (fun f => f.acc = .rwp) then stPresence else stNotPermitted
  (BitVec.ofNat 32 v, if hit.isEmpty then s else s.refuse who a status)

/-- The words that a read drives to the host (R199); a core takes the value into its register instead. -/
def State.answer (s : State) (who : Accessor) (v : Word) : State :=
  match who with
  | .host => { s with hp := { s.hp with out := [v] } }
  | .core _ => s

/-- Write the plainly writable bits of a register: `mask` bits taken from `value`, the others kept. -/
def State.merge (s : State) (a : Nat) (mask : Nat) (value : Word) : State :=
  s.setReg a ((s.reg a &&& ~~~ BitVec.ofNat 32 mask) ||| (value &&& BitVec.ofNat 32 mask))

/-! ### Coefficient banks (R20 to R23) -/

/-- The fade length a swap request carries: FADE_LEN from 16 to 4,096 (LP_BANK). -/
def fadeLen (v : Nat) : Nat := if v < 16 then 16 else clampNat 4096 v

/-- A swap request with FADE_LEN `n` (R21, R22). A queued fade begins on the first filterbank output after the end of the one before it:
until then FADING = 0 and QUEUED = 1, and a request replaces the queued one. -/
def State.swap (s : State) (p n : Nat) : State :=
  if s.flag (LP_BANK.FADING p) ∨ s.flag (LP_BANK.QUEUED p) then
    let s1 := (s.modPort p (fun x => { x with queued := some n })).putFlag (LP_BANK.QUEUED p) true
    if s.flag (LP_BANK.QUEUED p) then s1.setEvt (LP_EVT.BANK_SWAP_COLLAPSED p) else s1
  else (s.modPort p (fun x => { x with fade := n })).putFlag (LP_BANK.FADING p) true

/-- A write of LP_BANK. -/
def State.writeLpBank (s : State) (p : Nat) (value : Word) : State :=
  let s1 := s.merge (LP_BANK p) 0x1FFF value
  if bit value.toNat 31 then s1.swap p (fadeLen (s1.get (LP_BANK.FADE_LEN p))) else s1

def execSwapRequest (who : Accessor) (p : Port) (value : Word) (s : State) : Result :=
  .next (s.enter who (LP_BANK p) (fun t => t.writeLpBank p value))

/-- The port runs: cast with ENABLE = 1, in a mode in which the line ports run; a partial cast of the port goes on through Outage
entry (R177). -/
def State.portOn (s : State) (p : Nat) : Bool :=
  s.flag (LP_CFG.ENABLE p) && (s.lineMode || ((s.port p).quiesce && decide (s.mode = 6)))

/-- The last output of a fade: the other bank is active (R21). -/
def State.fadeEnd (s : State) (p : Nat) : State :=
  (((s.putFlag (LP_BANK.ACTIVE p) (!s.flag (LP_BANK.ACTIVE p))).putFlag (LP_BANK.FADING p) false).modPort p
    (fun x => { x with fade := 0 })).setEvt (LP_EVT.BANK_SWAP_DONE p)

/-- The next output: the queued fade begins, back to the bank that was just left (R22). -/
def State.fadeBack (s : State) (p : Nat) : State :=
  ((s.putFlag (LP_BANK.QUEUED p) false).putFlag (LP_BANK.FADING p) true).modPort p
    (fun x => { x with fade := x.queued.getD 0, queued := none })

/-- The filterbank of a running port ends a fade, or begins the queued one. A port that does not run gives no output: its fade and its
queued swap wait (log 23). -/
def execFadeComplete (p : Port) (s : State) : Result :=
  .next (
    if ¬ s.portOn p then s
    else if s.flag (LP_BANK.FADING p) then s.fadeEnd p
    else if s.flag (LP_BANK.QUEUED p) then s.fadeBack p else s)

/-- Where LP_COEF_IDX points: tap i of bank A at i, of bank B at 512 + i. -/
def State.coefKey (s : State) (p : Nat) : Nat := s.get (LP_COEF_IDX.BANK p) * 512 + s.get (LP_COEF_IDX.INDEX p)

/-- After an access to LP_COEF_DATA, INDEX rises by 1 if AUTOINC = 1. -/
def State.coefStep (s : State) (p : Nat) : State :=
  if s.flag (LP_COEF_IDX.AUTOINC p) then s.put (LP_COEF_IDX.INDEX p) (s.get (LP_COEF_IDX.INDEX p) + 1) else s

def coefDef (_ : Nat) : BitVec 24 := 0

/-- A write of LP_COEF_DATA (R23). -/
def State.writeCoef (s : State) (p : Nat) (value : Word) : State :=
  let ok := !s.flag (LP_BANK.FADING p) && !s.flag (LP_BANK.QUEUED p) &&
    decide (s.get (LP_COEF_IDX.BANK p) ≠ s.get (LP_BANK.ACTIVE p) ∧ s.get (LP_COEF_IDX.INDEX p) ≤ 383)
  let s1 := if ok then s.modPort p (fun x => { x with taps := mset coefDef x.taps (s.coefKey p) (value.setWidth 24) })
    else s.setEvt (LP_EVT.COEF_WR_REFUSED p)
  s1.coefStep p

def execCoefWrite (who : Accessor) (p : Port) (value : Word) (s : State) : Result :=
  .next (s.enter who (LP_COEF_DATA p) (fun t => t.writeCoef p value))

/-- A read of LP_COEF_DATA; what an index above 383 reads as is open (log 13). -/
def State.readCoef (s : State) (p : Nat) : Word × State :=
  if s.get (LP_COEF_IDX.INDEX p) ≤ 383 then
    ((mget coefDef (s.port p).taps (s.coefKey p)).setWidth 32, s.coefStep p)
  else
    let r := s.free (2 ^ 24)
    (BitVec.ofNat 32 r.1, r.2.coefStep p)

def execCoefRead (who : Accessor) (p : Port) (s : State) : Result :=
  .next (if s.reads who then let r := s.readCoef p; r.2.answer who r.1 else s)

/-! ### Headroom loop (R24 to R26) -/

/-- The PGA code in force becomes `c`; a change sets PGA_STEP (R26). -/
def State.setPga (s : State) (p c : Nat) : State :=
  if c = s.get (LP_PGA.CODE p) then s else (s.put (LP_PGA.CODE p) c).setEvt (LP_EVT.PGA_STEP p)

/-- The port is locked to its mains phase (LP_STAT.LOCKED). -/
def State.locked (s : State) (p : Nat) : Bool := s.flag (LP_STAT.LOCKED p)

/-- MANUAL_CODE as a code: 31 acts as 30. -/
def State.manualCode (s : State) (p : Nat) : Nat := clampNat 30 (s.get (LP_PGA.MANUAL_CODE p))

/-- MODE and MANUAL_CODE come into force (R25). -/
def State.takeMode (s : State) (p : Nat) : State :=
  let on := s.flag (LP_PGA.MODE p)
  let s1 := s.modPort p (fun x => { x with manual := on, lowSlots := 0 })
  if on then s1.setPga p (s.manualCode p) else s1

/-- A write of LP_PGA: while the port is not locked, MODE and MANUAL_CODE take effect at once (R25). -/
def State.writeLpPga (s : State) (p : Nat) (value : Word) : State :=
  let s1 := s.merge (LP_PGA p) 0x83FFFFFF value
  if s.locked p then s1 else s1.takeMode p

/-- The loop's decision on a slot spent in AUTO (R24). -/
def State.loopStep (s : State) (p : Nat) (m : SlotMeasure) : State :=
  let c := s.get (LP_PGA.CODE p)
  let low := if 50 * s.get (LP_PGA.LO_THR p) < m.atten ∧ ¬ m.overload then (s.port p).lowSlots + 1 else 0
  let hold := max 1 (s.get (LP_PGA.HOLD p))
  let keep := fun (t : State) (n : Nat) => t.modPort p (fun x => { x with lowSlots := n })
  if m.overload then (keep (s.setPga p (c - (s.get (LP_PGA.OVL_STEP p) + 1))) low).setEvt (LP_EVT.RX_OVERLOAD p)
  else if m.atten ≤ 50 * s.get (LP_PGA.HI_THR p) then keep (s.setPga p (c - 1)) low
  else if hold ≤ low then keep (s.setPga p (clampNat 30 (c + 1))) 0
  else keep s low

/-- A slot boundary: a write of MODE or MANUAL_CODE takes effect, or the loop decides (R24, R25). The loop takes no decision on a slot
that was spent in MANUAL, and counts only slots in a row spent locked and in AUTO (log 23). -/
def State.headroom (s : State) (p : Nat) (m : SlotMeasure) : State :=
  if ¬ s.locked p ∨ s.flag (LP_PGA.MODE p) ∨ (s.port p).manual then s.takeMode p else s.loopStep p m

/-! ### Lanes and their limits (R18, R28) -/

/-- D, L, M and FREQ of the grid in force (R18). -/
def State.grid (s : State) (p : Nat) : Nat × Nat × Nat × Nat :=
  if s.get (LP_CFG.GRID p) = 0 then (48, 15, 16, 0x32A00)
  else if s.get (LP_CFG.GRID p) = 1 then (8, 25, 32, 0x120200)
  else (s.get (LP_DEC.D p), s.get (LP_DEC.L p), s.get (LP_DEC.M p), s.get (LP_NCO.FREQ p))

/-- Lane spacing Δ as a fraction of Hz: 64,000 L over D M. -/
def State.spacing (s : State) (p : Nat) : Nat × Nat :=
  let (d, l, m, _) := s.grid p
  (64000 * l, d * m)

/-- Centre of lane k and half its cell, in units of 1 / (1024 D M) Hz. -/
def State.laneCentre (s : State) (p k : Nat) : Int :=
  let (d, l, m, f) := s.grid p
  (f * 250 * d * m : Nat) + ((k : Int) - 32) * (l * 64000 * 1024 : Nat)
def State.laneHalf (s : State) (p : Nat) : Int :=
  let (_, l, _, _) := s.grid p
  (l * 64000 * 512 : Nat)
/-- So many of those units make 1 Hz. -/
def State.hzUnit (s : State) (p : Nat) : Nat :=
  let (d, _, m, _) := s.grid p
  1024 * d * m

/-- The whole cell of lane k lies from `lo` to `hi` Hz. -/
def State.cellWithin (s : State) (p k lo hi : Nat) : Bool :=
  decide ((lo * s.hzUnit p : Nat) ≤ s.laneCentre p k - s.laneHalf p ∧
    s.laneCentre p k + s.laneHalf p ≤ (hi * s.hzUnit p : Nat))

/-- Lane k is permitted under the port's profile (R28). -/
def State.permitted (s : State) (p k : Nat) : Bool :=
  match s.get (LP_LIM.PROFILE p) with
  | 1 => s.cellWithin p k 3000 95000
  | 2 => s.cellWithin p k 95000 125000
  | 3 => s.cellWithin p k 125000 140000
  | 4 => s.cellWithin p k 140000 148500
  | 5 => s.cellWithin p k 10000 490000
  | 6 => s.mapBit (LP_PERMIT_LO.LANES p) (LP_PERMIT_HI.LANES p) k
  | _ => false

/-- LP_PERMIT as it reads under profiles 1 to 5: bits `base` to `base + 31`. -/
def State.permitWord (s : State) (p base : Nat) : Nat :=
  ((List.range 32).map (fun i => b2n (s.permitted p (base + i)) * 2 ^ i)).sum

/-- The least `j` from `j` on with `num^56 × 9^j ≤ den^56 × 95^j`: quarter decibels below 134 dBµV at `num / den` × 9 kHz. -/
def enaDrop (num den fuel j : Nat) : Nat :=
  match fuel with
  | 0 => j
  | fuel + 1 => if num ^ 56 * 9 ^ j ≤ den ^ 56 * 95 ^ j then j else enaDrop num den fuel (j + 1)

/-- The profile's ceiling at the centre of lane k, in 0.25 dBµV, rounded down (R28). -/
def State.ceiling (s : State) (p k : Nat) : Nat :=
  match s.get (LP_LIM.PROFILE p) with
  | 1 => 536 - enaDrop (s.laneCentre p k).toNat (9000 * s.hzUnit p) 60 0
  | 2 | 3 | 4 => if s.flag (LP_LIM.CLASS134 p) then 536 else 464
  | _ => s.get (LP_LIM.CEIL p)

/-- The level used on lane k, in 0.25 dB below a full-scale sine, and whether it was lowered (R28). -/
def State.level28 (s : State) (p k : Nat) : Nat × Bool :=
  let want := s.get (LN_TXLVL.ATTEN (p * 64 + k))
  let cap := s.get (LP_LIM.GAIN p) - s.ceiling p k
  if want < cap then (cap, true) else (want, false)

/-! ### What is on the line (R66, R73) -/

/-- Ones among the low `n` bits of `x`. -/
def ones (n x : Nat) : Nat := ((List.range n).filter (fun i => bit x i)).length

/-- Contexts of port p in use, with their numbers. -/
def State.ctxs (s : State) (p : Nat) : List (Nat × TxCtx) :=
  (s.port p).ctxs.filterMap (fun e => e.2.map (fun c => (e.1, c)))

/-- The lane's frame is on the line. -/
def State.sending (s : State) (p k : Nat) : Bool := (s.ctxs p).any (fun c => decide (c.2.k = k) && c.2.started)

/-- S of the port: symbols per mains cycle (R64). -/
def State.slots (s : State) (p : Nat) : Nat :=
  if s.get (LP_CFG.GRID p) = 0 then 12 else if s.get (LP_CFG.GRID p) = 1 then 60
  else 6 * (1 + Config.customSlots (s.reg (LP_DEC p)).toNat (s.reg (LP_NCO p)).toNat % 10)

/-- The current slot of the grid in force, or of the one that a lock replaced (R62, R64). -/
def State.slotOf (s : State) (p : Nat) (old : Bool) : Nat :=
  if old then (s.port p).oldSlot.getD 0 else s.get (LP_MSTAT.SLOT p)

/-- Lane and level of a frame on the line. -/
def TxCtx.onLane (x : TxCtx) : Nat × Nat := (x.k, x.atten)

/-- The frames on the line that pass `f` in the current slot: their lanes, with their levels. -/
def State.lineLanes (s : State) (p : Nat) (f : TxCtx → Nat → Bool) : List (Nat × Nat) :=
  ((s.ctxs p).filter (fun c => c.2.started && f c.2 (s.slotOf p c.2.old))).map (fun c => c.2.onLane)

/-- The frame's mask enables the slot; its output falls in the slot, and rises in it (R66). -/
def TxCtx.enabled (x : TxCtx) (slot : Nat) : Bool := bit x.mask slot
def TxCtx.falls (n : Nat) (x : TxCtx) (slot : Nat) : Bool := !bit x.mask slot && bit x.mask ((slot + n - 1) % n)
def TxCtx.rises (n : Nat) (x : TxCtx) (slot : Nat) : Bool := !bit x.mask slot && bit x.mask ((slot + 1) % n)

/-! ### Crest limiter (R29, R30) -/

/-- The stretch that runs now: LP_CREST and the lanes that count as active. -/
def State.crestNow (s : State) (p : Nat) : CrestSpan := ⟨s.reg (LP_CREST p), s.lineLanes p TxCtx.enabled⟩

/-- The composite changes: the stretch that ran is kept until the slot ends. -/
def State.cutSpan (s : State) (p : Nat) : State :=
  s.modPort p (fun x => { x with spans := x.spans ++ [s.crestNow p] })

/-- The stretches of the slot that ends in which some lane was active: the fall of lanes whose masked run begins with it, what ran
between, and the rise of lanes whose masked run ends with it (R66). -/
def State.crestSpans (s : State) (p : Nat) : List CrestSpan :=
  let n := s.slots p
  let mid := (s.port p).spans ++ [s.crestNow p]
  let fall := s.lineLanes p (TxCtx.falls n)
  let rise := s.lineLanes p (TxCtx.rises n)
  let first := mid.headD (s.crestNow p)
  let head := if fall.isEmpty then [] else [{ first with lanes := first.lanes ++ fall }]
  let tail := if rise.isEmpty then [] else [{ s.crestNow p with lanes := (s.crestNow p).lanes ++ rise }]
  (head ++ mid ++ tail).filter (fun x => !x.lanes.isEmpty)

/-- BYPASS and PAPR of LP_CREST, PAPR above 16 acting as 16. -/
def CrestSpan.bypass (x : CrestSpan) : Bool := bit x.cfg.toNat 31
def CrestSpan.papr (x : CrestSpan) : Nat := clampNat 16 (bits x.cfg.toNat 4 0)

/-- The limiter may engage on `n` active lanes: BYPASS = 0, and P below 10 log10(2n) dB (R30). -/
def CrestSpan.may (x : CrestSpan) : Bool :=
  !x.bypass && decide (10 ^ (8 + x.papr) < (2 * x.lanes.length) ^ 20)

/-- 2^80 × 10^(−r/40), rounded down, for r from 0 to 39. -/
def crestTable : List Nat :=
  [1208925819614629174706176, 1141299568630064958042263, 1077456270865645474897400, 1017184311233184484497780,
   960283912207093561425989, 906566471641503463301563, 855853937629315467618255, 807978218331089574585179,
   762780624817587545263366, 720111345079215852912322, 679828947458919477517284, 641799911862604486685443,
   605898187193238783659107, 572004773541701445217332, 540007327749509827337945, 509799791036022076738945,
   481282037455847628883582, 454359542021242110904390, 428943067389444653984013, 404948368076451005005520,
   382295911216808977030050, 360910612943866248014244, 340721589516676091389451, 321661922368645916083114,
   303668436299158522649395, 286681490072959698771875, 270644778733232577864831, 255505146973105387784186,
   241212412946993516154906, 227719201937780708923174, 214980789328512397553842, 202954952358114899809751,
   191601830169769784062970, 180883791688059534026961, 170765310886949907606221, 161212849035172061680619,
   152194743528694814115240, 143681102941810992893705, 135643707948974049625266, 128055917788980312092426]

/-- 2^80 × 10^(−e/40). -/
def crestPower (e : Nat) : Nat := nth 0 crestTable (e % 40) / 10 ^ (e / 40)

/-- 2^81 × T² for T in DAC full scale: T = min(1, R × 10^(P/20)), where a lane at a × 0.25 dB below a full-scale sine adds
10^(−a/40) / 2 to R², and P is 4.0 + 0.5 × PAPR dB (R29). -/
def CrestSpan.threshold (x : CrestSpan) : Nat :=
  min (2 ^ 81) (100 * (x.lanes.map (fun l => crestPower (l.2 + 80 - 2 * (8 + x.papr)))).sum)

/-- The composite of peak magnitude `peak` (2^−23 of DAC full scale) has an excess over ±T, which the limiter removes (R29). -/
def CrestSpan.excess (x : CrestSpan) (peak : Nat) : Bool := x.may && decide (x.threshold < peak ^ 2 * 2 ^ 35)

/-- CREST_ACTIVE rises if some stretch of the slot had an excess (R29); the peak of a stretch that is not measured is open. -/
def State.crestSlot (s : State) (p : Nat) (m : SlotMeasure) : State :=
  let l := s.crestSpans p
  let r := s.padOpen l.length (2 ^ 24) id m.peaks
  if (l.zip r.1).any (fun e => e.1.excess e.2) then r.2.setEvt (LP_EVT.CREST_ACTIVE p) else r.2

/-- A write of LP_CREST. -/
def State.writeLpCrest (s : State) (p : Nat) (value : Word) : State :=
  (s.cutSpan p).merge (LP_CREST p) 0x8000001F value

/-! ### Cancellation (R31) -/

/-- What a slot's end does to the cancellation state. -/
def State.echoSlot (s : State) (p : Nat) (m : SlotMeasure) : State :=
  let s2 := match m.resid with
    | none => s
    | some r => s.put (LP_CANC.RESID p) r.toNat
  if ¬ s.flag (LP_CANC.ENABLE p) then s2
  else
    match s.get (LP_CANC.STATE p), m.resid with
    | 1, some r => if 100 ≤ r.toNat then s2.put (LP_CANC.STATE p) 2 else s2
    | 2, some r =>
      if r.toNat < 80 then (s2.put (LP_CANC.STATE p) 3).setEvt (LP_EVT.CANC_DIVERGED p) else s2
    | 3, _ => s2.put (LP_CANC.STATE p) 1
    | _, _ => s2

/-- A write of LP_CANC: OFF while ENABLE = 0, TRAINING from enable and from RESET (R31). -/
def State.writeCanc (s : State) (p : Nat) (value : Word) : State :=
  let was := s.flag (LP_CANC.ENABLE p)
  let s1 := s.merge (LP_CANC p) 0x20000000 value
  if ¬ s1.flag (LP_CANC.ENABLE p) then s1.put (LP_CANC.STATE p) 0
  else if ¬ was ∨ bit value.toNat 28 then s1.put (LP_CANC.STATE p) 1 else s1

def execCancReset (who : Accessor) (p : Port) (value : Word) (s : State) : Result :=
  .next (s.enter who (LP_CANC p) (fun t => t.writeCanc p value))

/-! ### The amplifier's enable (R27) -/

/-- The level of the pin LP_TXEN. -/
def State.txenPin (s : State) (p : Nat) : Bool := s.flag (LP_STAT.TXEN p) != s.flag (LP_CFG.TXEN_POL p)

/-- Some context of the port has not sent its first DAC sample. -/
def State.ctxWaits (s : State) (p : Nat) : Bool := (s.ctxs p).any (fun c => !c.2.started)

/-- Some frame of the port is on the line. -/
def State.lineBusy (s : State) (p : Nat) : Bool := (s.ctxs p).any (fun c => c.2.started)

/-- The lead of a context begins. A mute does not hold LP_TXEN: R35 takes it away once, at its start (log 29). -/
def execTxenAssert (p : Port) (s : State) : Result :=
  .next (
    if s.portOn p ∧ s.locked p ∧ s.ctxWaits p then
      (s.modPort p (fun x => { x with lead := true })).putFlag (LP_STAT.TXEN p) true
    else s)

/-- The tail has run out: LP_TXEN falls, unless the lead of a context has begun. -/
def execTxenTailExpiry (p : Port) (s : State) : Result :=
  .next (
    if ¬ (s.port p).tail ∨ s.lineBusy p then s
    else (s.modPort p (fun x => { x with tail := false })).putFlag (LP_STAT.TXEN p) (s.port p).lead)

/-- The first DAC sample of a context: LP_TXEN is asserted, a running tail is over. -/
def State.txenStart (s : State) (p : Nat) : State :=
  (s.modPort p (fun x => { x with lead := x.lead && s.ctxWaits p, tail := false })).putFlag (LP_STAT.TXEN p) true

/-- The last DAC sample of a context: with none left on the line the tail begins. -/
def State.txenEnd (s : State) (p : Nat) : State :=
  if s.lineBusy p then s else s.modPort p (fun x => { x with tail := true })

/-- A context that does not start is freed: LP_TXEN is not asserted for it (R369). -/
def State.txenDrop (s : State) (p : Nat) : State :=
  if s.ctxWaits p then s
  else
    let keep := s.lineBusy p || (s.port p).tail
    let s1 := s.modPort p (fun x => { x with lead := false })
    if keep then s1 else s1.putFlag (LP_STAT.TXEN p) false

/-! ### Impedance probe (R34) -/

/-- The probe of port p stands at `x`. -/
def State.setProbe (s : State) (p : Nat) (x : ProbeSt) : State := s.modPort p (fun y => { y with probe := x })

/-- A probe ends: BUSY falls, DONE rises. -/
def State.probeEnd (s : State) (p : Nat) : State :=
  ((s.setProbe p .idle).putFlag (LP_ZPROBE.BUSY p) false).putFlag (LP_ZPROBE.DONE p) true

/-- A tone on a lane that R28 or TX_EN bars is refused. -/
def State.refuseTone (s : State) (p : Nat) : State :=
  ((s.setReg (LP_ZRES p) 0).probeEnd p).setEvt (LP_EVT.TX_LANE_REFUSED p)

/-- A probe starts, unless one is busy; a tone on a lane it may not use is refused. -/
def State.writeZprobe (s : State) (p : Nat) (value : Word) : State :=
  let s1 := s.merge (LP_ZPROBE p) 0x0100003F value
  if ¬ bit value.toNat 31 ∨ s.flag (LP_ZPROBE.BUSY p) then s1
  else
    let k := s1.get (LP_ZPROBE.LANE p)
    let tone := s1.flag (LP_ZPROBE.MODE p)
    let s2 := ((s1.putFlag (LP_ZPROBE.DONE p) false).putFlag (LP_ZPROBE.BUSY p) true).setProbe p (.waits k tone)
    if ¬ tone then s2
    else if s1.permitted p k ∧ s1.flag (LN_TXCFG.TX_EN (p * 64 + k)) then
      s2.modPort p (fun x => { x with waits := x.waits ++ [.tone k] })
    else s2.refuseTone p

def execZprobeStart (who : Accessor) (p : Port) (value : Word) (s : State) : Result :=
  .next (s.enter who (LP_ZPROBE p) (fun t => t.writeZprobe p value))

/-- A frame or tone of lane k sends its first symbol: a probe that waits for it measures it. -/
def State.probeStart (s : State) (p k : Nat) (tone : Bool) : State :=
  if (s.port p).probe = .waits k tone then s.setProbe p (.runs k tone) else s

/-- The 32nd symbol of a frame of lane k has been sent, or its tone has ended. -/
def State.probeFull (s : State) (p k : Nat) (tone : Bool) : State :=
  if (s.port p).probe = .runs k tone then s.setProbe p .measured else s

/-- The frame or tone of lane k is cut before that: the probe waits for the next (log 23). -/
def State.probeCut (s : State) (p k : Nat) : State :=
  match (s.port p).probe with
  | .runs j tone =>
    if j ≠ k then s
    else if tone then (s.setProbe p (.waits k true)).modPort p (fun x => { x with waits := .tone k :: x.waits })
    else s.setProbe p (.waits k false)
  | _ => s

/-- The probe's magnitude in 1/16 Ω (R34). The quotient's rounding is open, and so is a quotient that has no code. -/
def State.probeMag (s : State) (p v i : Nat) : Nat × State :=
  let num := 16 * s.get (LP_ZCAL.KV p) * v
  let den := s.get (LP_ZCAL.KI p) * i
  if den = 0 ∨ 65535 * den < num then s.free 65536
  else if num % den = 0 then (num / den, s)
  else let r := s.free 2; (clampNat 65535 (num / den + r.1), r.2)

def execZprobeDone (p : Port) (v : Nat) (i : Nat) (phase : Int) (s : State) : Result :=
  .next (
    if (s.port p).probe ≠ .measured then s
    else
      let r := s.probeMag p v i
      ((r.2.put (LP_ZRES.MAG p) r.1).putInt (LP_ZRES.PHASE p) (clampInt (-18000) 18000 phase)).probeEnd p)

end Sys2Proof.Machine
end

