-- ==== Sys2Proof/Machine/Sends.lean ====
section
/-! DEFINITION. The registry (R89), the acting unit (R323), the protection of line frames (R90, R91), and how an attempt of a send
fails or a send completes (R95, R96, R207). -/

namespace Sys2Proof.Machine

/-! ### Registry entries -/

/-- Number of entries (LK_REG). -/
def State.entries (s : State) : Nat := s.get LK_REG.ENTRIES

/-- `n` bytes at offset `off` of entry `i`, as a little-endian number. -/
def State.entNat (s : State) (i off n : Nat) : Nat := leNat (s.bytes (s.entryAddr i + off) n)

def State.entEui (s : State) (i : Nat) : List Byte := s.bytes (s.entryAddr i) 8
/-- STATE: 0 EMPTY, 1 PROVISIONED, 2 JOINED, 3 LOST. -/
def State.entState (s : State) (i : Nat) : Nat := s.entNat i 10 1 % 4
def State.entHome (s : State) (i : Nat) : Nat := s.entNat i 32 2
def State.entLane (s : State) (i : Nat) : Nat := s.entHome i % 512
def State.entCp (s : State) (i : Nat) : Nat := bits (s.entHome i) 10 9
def State.entSet (s : State) (i : Nat) : Bool := bit (s.entHome i) 11
def State.entGen (s : State) (i : Nat) : Nat := s.entNat i 34 1
def State.entHops (s : State) (i : Nat) : Nat := s.entNat i 35 1 % 8
/-- PATH of `n` elements, as bytes. -/
def State.entPath (s : State) (i n : Nat) : List Byte := s.bytes (s.entryAddr i + 36) (2 * n)

/-- The unit takes part in a pair. -/
def State.paired (s : State) : Bool := s.role ≠ 0 ∧ (s.mode = 7 ∨ s.mode = 8)

/-- The device writes part of an entry; the write is copied to the other replica (R323). -/
def State.putEntry (s : State) (i off : Nat) (l : List Byte) : State :=
  let a := s.entryAddr i + off
  let s0 := s.readSpan a l.length
  let s1 := if a / 32 = (a + l.length - 1) / 32 then s0.setPart a l else s0.setSpan a l
  if s.paired ∧ s.linkUp then
    let parts := (List.range 16).filter (fun j => decide (off / 4 ≤ j ∧ j ≤ (off + l.length - 1) / 4))
    let msgs := parts.map (fun j => AlloyMsg.replica i j (s1.word (s1.entryAddr i + 4 * j)))
    { s1 with al := { s1.al with outbox := s1.al.outbox ++ msgs } }
  else s1

/-- The entry whose EUI is `eui`, other than an EMPTY one. -/
def State.findEui (s : State) (eui : List Byte) : Option Nat :=
  (List.range s.entries).find? (fun i => decide (s.entState i ≠ 0 ∧ s.entEui i = eui))

/-- The EMPTY entry of the lowest index. -/
def State.findEmpty (s : State) : Option Nat := (List.range s.entries).find? (fun i => decide (s.entState i = 0))

/-! ### Lanes and units of a pair (R322, R323) -/

/-- The unit's lanes are joint lanes 256 to 511. -/
def State.upper (s : State) : Bool := s.paired && decide (s.role = 2 ∨ s.role = 3)

/-- The unit's own lane with joint number `n`. -/
def State.ownLane (s : State) (n : Nat) : Option Nat :=
  if s.upper then (if 256 ≤ n ∧ n < 512 then some (n - 256) else none) else if n < 256 then some n else none

/-- This unit is the acting unit of entry `i`. -/
def State.acting (s : State) (i : Nat) : Bool :=
  let far := s.entSet i && decide (256 ≤ s.entLane i)
  if ¬ s.paired then true else if s.upper then far else !far

/-- In Island the unit acts on pinned entries alone (R329). -/
def State.barred (s : State) (i : Nat) : Bool := s.island && !s.al.pinned.contains i

/-! ### Protection (R90, R91) -/

/-- Build a frame and take the counter value it needs: status, frame, state after. A device frame has HOP = 0, so its own head
is what the tag covers. -/
def State.seal (s : State) (m : MacOut) : Nat × List Byte × State :=
  if m.slv = 0 then (stOk, m.head ++ m.body, s)
  else
    let group := bit m.slv 3
    let eui := (m.entry.map s.entEui).getD m.eui
    let gen := (m.entry.map s.entGen).getD m.gen
    let r := s.takeFrameKey (if group then s.get LK_CFG.GROUP_SLOT else s.get LK_CFG.LINK_SLOT) group
      (fun k => if group then k.bytes else linkKeyOf k [0x4C#8, 0x4B#8] eui (leBytes 1 gen))
    if r.1 ≠ stOk then (r.1, [], r.2.2.2)
    else
      let aad := m.head ++ leBytes 1 m.slv ++ leBytes 4 r.2.1
      (stOk, aad ++ protect r.2.2.1 (frameNonce s.ownEui r.2.1 m.slv) m.slv aad m.body, r.2.2.2)

/-- The device checks a frame from a meter: its body, if the tag holds under the meter's link key (R90, R286). -/
def State.unseal (s : State) (eui : List Byte) (gen slv fc : Nat) (aad rest : List Byte) : Option (List Byte) :=
  match s.frameKey (s.get LK_CFG.LINK_SLOT) false (fun k => linkKeyOf k [0x4C#8, 0x4B#8] eui (leBytes 1 gen)) with
  | none => none
  | some key => unprotect key (frameNonce eui fc slv) slv aad rest

/-! ### Completion of a send (R96, R207, R209) -/

/-- The send with this id. -/
def State.sendOf (s : State) (id : Nat) : Option SendSt := s.link.sends.find? (fun x => x.id = id)

/-- Change the sends with this id. -/
def State.modSend (s : State) (id : Nat) (f : SendSt → SendSt) : State :=
  { s with link := { s.link with sends := s.link.sends.map (fun x => if x.id = id then f x else x) } }

/-- Change the copy on lane `n` of a send. -/
def State.modCopy (s : State) (id n : Nat) (f : Copy → Copy) : State :=
  s.modSend id (fun x => { x with copies := x.copies.map (fun c => if c.n = n then f c else c) })

/-- Joint port of a copy's lane. -/
def State.jointPort (s : State) (n : Nat) : Nat := (if n < 256 then s.jointLane n else n) / 64

/-- INFO of a send's completion: attempts made, or the ports whose copies were sent in full, and SEQ (R209). -/
def State.sendInfo (s : State) (x : SendSt) : Nat :=
  let made := ((x.copies.map (·.attempts)).foldl max 0)
  let sent := ((x.copies.filter (fun c => c.result = some stOk)).map (fun c => 2 ^ s.jointPort c.n)).sum
  (if x.bcast then sent else clampNat 255 made) + 256 * x.seq

/-- The send ends: its completion record goes to this unit's ring, or to the lead (R325). -/
def State.endSend (s : State) (x : SendSt) (status : Nat) (result : List Byte) : State :=
  let s1 := { s with link := { s.link with sends := s.link.sends.filter (fun y => y.id ≠ x.id) } }
  let info := s.sendInfo x
  match x.handoff with
  | none => s1.complete x.tag status info result
  | some h => s1.tell [.handed h (cplRec x.tag status (if x.bcast then 2 else 1) info result)]

/-- The outcome of the copy on the lowest port that was not sent in full (R207). -/
def bcastStatus (l : List Copy) : Nat :=
  let bad := l.filter (fun c => c.result ≠ some stOk)
  let low := bad.foldl (fun (a : Option Copy) c => match a with
    | none => some c
    | some b => if c.n < b.n then some c else some b) none
  (low.bind (·.result)).getD stOk

/-- End the send once every copy has its outcome. -/
def State.judge (s : State) (id : Nat) (result : List Byte) : State :=
  match s.sendOf id with
  | none => s
  | some x => if x.copies.any (fun c => c.result.isNone) then s else s.endSend x (bcastStatus x.copies) result

/-- The packet with this commit number in lane n's LN_TXQ holds a context. -/
def State.itemHeld (s : State) (n item : Nat) : Bool :=
  (s.ctxs (n / 64)).any (fun c => decide (c.2.k = n % 64 ∧ c.2.kind = .item item))

/-- Take an item that has no context out of lane n's LN_TXQ. -/
def State.dropItem (s : State) (n item : Nat) : State :=
  if n < 256 ∧ ¬ s.itemHeld n item then let r := s.removePacket (s.get (LN_TXQ.QUEUE n)) item; r.1.tellPool r.2 else s

/-- A copy has its outcome. -/
def State.endCopy (s : State) (id n status : Nat) (result : List Byte) : State :=
  match (s.sendOf id).bind (fun x => x.copies.find? (fun c => c.n = n)) with
  | none => s
  | some c => ((s.dropItem n c.item).modCopy id n (fun c => { c with result := some status })).judge id result

/-- Failed attempt r is followed by a back-off of 0 to min(2^r, 32) − 1 cycles, drawn at random (R96, R288). -/
def State.backOff (s : State) (id n r : Nat) : State :=
  let w := s.free (min (2 ^ r) 32)
  w.2.modCopy id n (fun c => { c with phase := .backoff ((s.get (LP_MCYC.CYCLE (n / 64)) + w.1) % 2 ^ 32) })

/-- An attempt has failed (R96): back-off, or the outcome once the retries are exhausted. -/
def State.failAttempt (s : State) (id n : Nat) (busy : Bool) : State :=
  match s.sendOf id with
  | none => s
  | some x =>
    match x.copies.find? (fun c => c.n = n) with
    | none => s
    | some c =>
      let s1 := s.modSend id (fun y => { y with busy := busy })
      if s.get LK_CFG.RETRY_MAX < c.attempts then
        s1.endCopy id n (if busy then stQueueFull else if 0 < x.nhop then stRouteFail else stNoAck) []
      else s1.backOff id n c.attempts

/-! ### Frames that count as an answer (R95, R98) -/

/-- A frame with this LEN, CP and mask may be the answer to an attempt of the send. -/
def SendSt.fits (x : SendSt) (len cp : Nat) (full : Bool) : Bool :=
  decide (len = (if 0 < x.nhop then 22 + 2 * x.nhop else 20) ∧ cp = x.cp ∧ (0 < x.nhop → full = true))

/-- A reception past its header may be that answer. -/
def SendSt.fitsRx (x : SendSt) (r : Reception) : Bool := r.hdr.any (fun h => x.fits h.1 h.2 r.full)

/-- A frame that may be the answer on lane n is being received, decoded or taken by the link layer. -/
def State.mayAnswer (s : State) (x : SendSt) (n : Nat) : Bool :=
  (s.lane n).rx.any x.fitsRx || s.dec.pays.any (fun j => decide (j.n = n) && x.fitsRx j.rx) ||
    s.dec.tiles.any (fun e => e.2.any (fun (j : DecJob) => decide (j.n = n) && !j.hdr && x.fitsRx j.rx)) ||
    s.link.rx.any (fun f => decide (f.lane = s.jointLane n) && x.fits f.bytes.length f.cp f.full)

/-- Sends whose copy on lane n waits for an answer. -/
def State.waiters (s : State) (n : Nat) : List (SendSt × Bool) :=
  s.link.sends.filterMap (fun x => (x.copies.find? (fun c => c.n = n)).bind (fun c =>
    match c.phase with
    | .waiting _ late => some (x, late)
    | _ => none))

/-- Attempts on lane n whose deadline has passed fail once no frame in time may still be their answer. -/
def State.recheck (s : State) (n : Nat) : State :=
  foldState ((s.waiters n).filter (fun w => w.2 && !s.mayAnswer w.1 n)) (fun w t => t.failAttempt w.1.id n false) s

/-- A frame on lane n that may have been the answer ended PAY_CRC: the attempt fails there. -/
def State.lostAnswer (s : State) (n len cp : Nat) (full : Bool) : State :=
  foldState ((s.waiters n).filter (fun w => w.1.fits len cp full)) (fun w t => t.failAttempt w.1.id n false) s

end Sys2Proof.Machine
end

