-- ==== Sys2Proof/Machine/Phy.lean ====
section
/-! DEFINITION. The PHY frame of Drevline (R80 to R84): CRCs, the convolutional code, interleaving, the CP3 copies (R76) and
the trellis decoder (R53, R55). -/

namespace Sys2Proof.Machine

/-! ### Bits and CRCs (R81) -/

/-- The bits of a byte string, most significant first. -/
def msbBits (l : List Byte) : List Nat :=
  l.flatMap (fun b => (List.range 8).map (fun i => b2n (bit b.toNat (7 - i))))

/-- A byte string from its bits, most significant first. -/
def bitsBytes (l : List Nat) : List Byte :=
  (pieces 8 l).map (fun p => BitVec.ofNat 8 (p.foldl (fun a b => 2 * a + b) 0))

/-- One step of a CRC of `w` bits with polynomial `poly`. -/
def crcStep (w poly c b : Nat) : Nat :=
  let x := (c >>> (w - 1)) ^^^ b
  ((c * 2) % 2 ^ w) ^^^ (if x % 2 = 1 then poly else 0)

/-- CRC-8 with polynomial 0x07 from 0x00, and CRC-16 with polynomial 0x1021 from 0xFFFF (R81). -/
def crc8 (l : List Byte) : Nat := (msbBits l).foldl (crcStep 8 0x07) 0
def crc16 (l : List Byte) : Nat := (msbBits l).foldl (crcStep 16 0x1021) 0xFFFF

/-! ### The code (R83) -/

/-- Parity of the low seven bits. -/
def parity7 (x : Nat) : Nat := ((List.range 7).filter (fun i => bit x i)).length % 2

/-- X and Y for a shift register whose bit 6 is the current input (generators 171 and 133 octal). -/
def genX (r : Nat) : Nat := parity7 (r &&& 0b1111001)
def genY (r : Nat) : Nat := parity7 (r &&& 0b1011011)

/-- Encode bits from a state of six earlier bits, the latest in bit 5. -/
def encodeFrom (st : Nat) (l : List Nat) : List Nat :=
  match l with
  | [] => []
  | b :: t => let r := b * 64 + st; genX r :: genY r :: encodeFrom (r / 2) t

def convEncode (l : List Nat) : List Nat := encodeFrom 0 l

/-- CP0 keeps X0, Y0, Y1 and X2 of each three steps. -/
def puncture (l : List Nat) : List Nat :=
  (pieces 6 l).flatMap (fun p => (nth 0 p 0) :: (nth 0 p 1) :: (nth 0 p 3) :: [nth 0 p 4])

/-- The inverse: a punctured position has value 0 (R51); the second part says whether the position was sent. -/
def unpuncture (l : List Int) : List (Int × Bool) :=
  (pieces 4 l).flatMap (fun p =>
    [(nth 0 p 0, true), (nth 0 p 1, true), (0, false), (nth 0 p 2, true), (nth 0 p 3, true), (0, false)])

/-- Where bit `j` of the interleaved stream comes from, for `n` bits: column by column of sixteen columns. -/
def interleaveOrder (n : Nat) : List Nat :=
  (List.range 16).flatMap (fun c => (List.range ((n + 15 - c) / 16)).map (fun r => 16 * r + c))

def interleave (l : List Nat) : List Nat := (interleaveOrder l.length).map (fun i => nth 0 l i)

/-- The inverse: value `i` of the result is the value that carries coded bit `i`. -/
def deinterleave (l : List Int) : List Int :=
  let n := l.length
  let rows := (n + 15) / 16
  let full := if n % 16 = 0 then 16 else n % 16
  (List.range n).map (fun i =>
    let c := i % 16
    nth 0 l (i / 16 + (if c ≤ full then c * rows else full * rows + (c - full) * (rows - 1))))

/-- Four copies of one block of CP3, each turned by a quarter (R76). -/
def copies4 (b : List Nat) : List Nat :=
  let n := b.length
  let s := n / 4
  (List.range 4).flatMap (fun c => (List.range n).map (fun o => nth 0 b ((o + n - (c * s) % n) % n)))

/-- CP3 places the bits as copies of blocks of `e` bits. -/
def spread (e : Nat) (l : List Nat) : List Nat := (pieces e l).flatMap copies4

/-- Add the four copies of each bit of one block. -/
def gather4 (n : Nat) (l : List Int) : List Int :=
  let s := n / 4
  (List.range n).map (fun j => ((List.range 4).map (fun c => nth 0 l (c * n + (j + c * s) % n))).foldl (· + ·) 0)

/-- Combine the copies under CP3: `n` coded bits, `e` enabled slots (R52, R76). -/
def gather (e n fuel : Nat) (l : List Int) : List Int :=
  match fuel with
  | 0 => []
  | fuel + 1 => let b := if n < e then n else e
    if b = 0 then [] else gather4 b l ++ gather e (n - b) fuel (l.drop (4 * b))

/-! ### The trellis decoder (R53) -/

/-- One path metric and its predecessor's low bit: the better of two, a tie as `tie` says. -/
def acs (inp i : Nat) (m : Int × Int) (x y : Int) (tie : Bool) : Int × Bool :=
  let gain := fun (r : Nat) => (if genX r = 1 then x else -x) + (if genY r = 1 then y else -y)
  let a := m.1 + gain (inp * 64 + 2 * i)
  let b := m.2 + gain (inp * 64 + 2 * i + 1)
  (if a < b then b else a, if a < b then true else if b < a then false else tie)

/-- The metrics of states 2i and 2i + 1, in pairs. -/
def pairUp (l : List Int) : List (Int × Int) := (pieces 2 l).map (fun p => (nth 0 p 0, nth 0 p 1))

/-- One step: new metrics and survivors of states 0 to 63. -/
def trellisStep (m : List Int) (x y : Int) (ties : Nat) : List (Int × Bool) :=
  let ps := (pairUp m).zipIdx
  ps.map (fun (p, i) => acs 0 i p x y (bit ties i)) ++ ps.map (fun (p, i) => acs 1 i p x y (bit ties (32 + i)))

/-- Follow survivors, the latest step first, from a state: the input bits, the earliest first. -/
def traceBack (sv : List (List Bool)) (st : Nat) (acc : List Nat) : List Nat :=
  match sv with
  | [] => acc
  | v :: t => traceBack t ((st % 32) * 2 + b2n (nth false v st)) (st / 32 :: acc)

/-- The state from which a traceback of 64 steps begins: the one with the best metric, the lowest on a tie. R53 names no state: DESIGN
CHOICE, log 14. -/
def bestState (m : List Int) : Nat :=
  (m.zipIdx.foldl (fun (a : Int × Nat) (b : Int × Nat) => if a.1 < b.1 then b else a) (m.headD 0, 0)).2

/-- Run the trellis over the soft pairs: survivors, the latest first, and the bits that left the 64-step window, latest first. -/
def trellis (l : List (Int × Int)) (m : List Int) (ties : Nat) (sv : List (List Bool)) (out : List Nat) :
    List (List Bool) × List Nat :=
  match l with
  | [] => (sv, out)
  | (x, y) :: t =>
    let r := trellisStep m x y ties
    let m' := r.map (·.1)
    let sv' := r.map (·.2) :: sv
    let out' := if sv.length < 64 then out else (traceBack (sv'.take 65) (bestState m') []).headD 0 :: out
    trellis t m' (ties / 2 ^ 64) sv' out'

def startMetrics : List Int := 0 :: List.replicate 63 (-1000000)

/-- Decode soft pairs to information bits: each bit leaves the window of 64 steps, traced back from the state of best metric; the last
64 are traced back from state 0, in which the code ends (R53, log 14). -/
def viterbi (l : List (Int × Int)) (ties : Nat) : List Nat :=
  let r := trellis l startMetrics ties [] []
  let u := traceBack r.1 0 []
  r.2.reverse ++ u.drop r.2.length

/-- Pairs of a list. -/
def softPairs (l : List Int) : List (Int × Int) := (pieces 2 l).map (fun p => (nth 0 p 0, nth 0 p 1))

/-- Coded bits whose hard decision, the sign, disagrees with the re-encoded bit; and those whose value is 0 (R55). -/
def disagree (soft : List (Int × Bool)) (coded : List Nat) : Nat × Nat :=
  let z := (soft.zip coded).filter (fun e => e.1.2)
  ((z.filter (fun e => (0 < e.1.1 ∧ e.2 = 0) ∨ (e.1.1 < 0 ∧ e.2 = 1))).length, (z.filter (fun e => e.1.1 = 0)).length)

/-- Trellis steps B and coded bits N of a payload of `len` bytes (R84). -/
def trellisSteps (len cp : Nat) : Nat := if cp = 0 then 3 * ((8 * len + 22 + 2) / 3) else 8 * len + 22
def codedBits (len cp : Nat) : Nat := if cp = 0 then 4 * trellisSteps len cp / 3 else 2 * trellisSteps len cp
/-- Soft values of a payload as received, and its symbols (R84). -/
def softCount (len cp : Nat) : Nat := if cp = 3 then 4 * codedBits len cp else codedBits len cp
def paySymbols (len cp : Nat) : Nat := if cp ≤ 1 then codedBits len cp / 2 else softCount len cp

/-- Decode a codeword: its bits, the coded bits corrected, and the state with the open values drawn (ties of the trellis, the
hard decision of a value 0). `sent` gives each coded position's value. -/
def State.decode (s : State) (sent : List (Int × Bool)) : List Nat × Nat × State :=
  let ps := softPairs (sent.map (·.1))
  let t := s.free (2 ^ (64 * ps.length))
  let u := viterbi ps t.1
  let d := disagree sent (convEncode u)
  let z := t.2.free (d.2 + 1)
  (u, d.1 + z.1, z.2)

/-- The header codeword: LEN and H1 if its CRC-8 holds, and the bits corrected (R55, R81). -/
def State.decodeHeader (s : State) (soft : List Int) : Option (Nat × Nat) × Nat × State :=
  let r := s.decode ((deinterleave soft).map (fun x => (x, true)))
  let b := bitsBytes (r.1.take 24)
  let ok := decide (crc8 (b.take 2) = u8 b 2)
  (if ok then some (u8 b 0, u8 b 1) else none, r.2.1, r.2.2)

/-- The payload codeword: its bytes if the CRC-16 holds, and the bits corrected. `e` is the number of enabled slots. -/
def State.decodePayload (s : State) (soft : List Int) (len cp e : Nat) : List Byte × Bool × Nat × State :=
  let n := codedBits len cp
  let one := if cp = 3 then gather (if e = 0 then n else e) n (n + 1) soft else soft
  let d := deinterleave one
  let r := s.decode (if cp = 0 then unpuncture d else d.map (fun x => (x, true)))
  let b := bitsBytes (r.1.take (8 * len + 16))
  (b.take len, decide (crc16 (b.take len) = beNat (b.drop len)), r.2.1, r.2.2)

/-- A header is permitted (R82): its reserved bits 0, LEN at least 4, and at most 64 under CP3. -/
def headerPermitted (len h1 : Nat) : Bool :=
  decide (h1 % 64 = 0 ∧ 4 ≤ len ∧ (h1 / 64 = 3 → len ≤ 64))

/-! ### Demodulation (R50, R51) -/

/-- A soft value: a quotient scaled so that half the distance of two decision levels is 4, saturated at 7. Its rounding is open, and so
is the value where the amplitude is 0 (log 14). -/
def State.softOf (s : State) (num : Int) (den : Nat) : Int × State :=
  if den = 0 then let r := s.free 15; ((r.1 : Int) - 7, r.2)
  else let r := s.divFree num den; (clampInt (-7) 7 r.1, r.2)

/-- The soft values of quotients. -/
def State.softList (s : State) (l : List (Int × Nat)) : List Int × State :=
  match l with
  | [] => ([], s)
  | x :: t => let a := s.softOf x.1 x.2; let b := State.softList a.2 t; (a.1 :: b.1, b.2)

/-- 2-GFSK: levels ±A, so the half-distance is A; `amp` is 16 A. A 1 has the positive deviation. -/
def softs2 (amp : Nat) (y : Int) : List (Int × Nat) := [(64 * y, amp)]

/-- 4-GFSK: levels ±2A/3 and ±2A, so the half-distance is 2A/3. The first bit is 1 below zero; the second is 1 at the outer levels, its
max-log value that of |y| − 4A/3. The slope of the first bit beyond 4A/3 does not show: its value saturates at 7A/6. -/
def softs4 (amp : Nat) (y : Int) : List (Int × Nat) := [(-96 * y, amp), (96 * (y.natAbs : Int) - 8 * (amp : Int), amp)]

/-- `n` soft values of decision values; one that is not given is open (log 5). -/
def State.demod (s : State) (four : Bool) (amp n : Nat) (ys : List Int) : List Int × State :=
  let r := s.softList ((ys.flatMap (if four then softs4 amp else softs2 amp)).take n)
  r.2.padOpen n 15 (fun x => (x : Int) - 7) r.1

/-! ### Correlators (R45, R81) -/

/-- Sum of outputs, each with the sign of its symbol. -/
def corrSum (w : List Nat) (o : List (Int × Int)) : Int × Int :=
  (w.zip o).foldl (fun (a : Int × Int) e => if e.1 = 1 then (a.1 + e.2.1, a.2 + e.2.2) else (a.1 - e.2.1, a.2 - e.2.2)) (0, 0)

/-- Squared magnitude. -/
def sqMag (c : Int × Int) : Nat := (c.1 * c.1 + c.2 * c.2).toNat

/-- `num / den` is at most 10 to the power `-(x / 160)`. -/
def powerAtMost (num den : Nat) (x : Int) : Bool :=
  if 0 ≤ x then decide (num ^ 160 * 10 ^ x.toNat ≤ den ^ 160) else decide (num ^ 160 ≤ den ^ 160 * 10 ^ (-x).toNat)

/-- The largest v below `v + 2^fuel` with 10^v × a at most b. -/
def tenLog (a b fuel v : Nat) : Nat :=
  match fuel with
  | 0 => v
  | fuel + 1 => let w := v + 2 ^ fuel; tenLog a b fuel (if 10 ^ w * a ≤ b then w else v)

/-- 40 log10(`c` / (16 `num` / `den`)), rounded down, from −512 to 511: a metric in 0.25 dB. -/
def metricOf (c num den : Nat) : Int := (tenLog ((16 * num) ^ 40) ((c * den) ^ 40 * 10 ^ 512) 10 0 : Nat) - 512

/-! ### A frame's symbols (R80, R81), as deviations in units of Rs / 12 -/

def gfsk2 (l : List Nat) : List Int := l.map (fun b => if b = 1 then 3 else -3)
def gfsk4 (l : List Nat) : List Int :=
  (pieces 2 l).map (fun p => if nth 0 p 0 = 0 then (if nth 0 p 1 = 0 then 2 else 6) else (if nth 0 p 1 = 0 then -2 else -6))

/-- Preamble and sync word. -/
def preamble : List Nat := (List.range 32).map (fun i => (i + 1) % 2)
def syncWord (full : Bool) : List Nat := msbBits (beBytes 2 (if full then 0x7A0D else 0x5B36))

/-- |C|² of a sync word and |P|² at the best of the sampling phases, the first of equal ones; the two phases of the alternating pattern
give one |P| (R45). -/
def corrBest (word : List Nat) (outs : List (List (Int × Int))) : Nat × Nat :=
  outs.foldl (fun (a : Nat × Nat) o =>
    let c := sqMag (corrSum word o)
    if a.1 < c then (c, sqMag (corrSum preamble o)) else a) (0, 0)

/-- The same for the lane's two sync words. -/
def syncBest (full : Bool) (outs : List (List (Int × Int))) : Nat × Nat := corrBest (syncWord full) outs

/-- Coded and interleaved bits of a header with its two bytes, and of header and payload. -/
def codeHeader (h : List Byte) : List Nat :=
  interleave (convEncode (msbBits (h ++ leBytes 1 (crc8 h)) ++ List.replicate 6 0))
def headerBits (len cp : Nat) : List Nat := codeHeader (leBytes 1 len ++ leBytes 1 (cp * 64))
def payloadBits (l : List Byte) (cp : Nat) : List Nat :=
  let u := msbBits (l ++ beBytes 2 (crc16 l)) ++ List.replicate 6 0
  let v := u ++ List.replicate (trellisSteps l.length cp - u.length) 0
  interleave (if cp = 0 then puncture (convEncode v) else convEncode v)

/-- The symbols of a frame with payload `l` under profile `cp`, sync word of its mask, and `e` enabled slots. -/
def frameSymbols (l : List Byte) (cp : Nat) (full : Bool) (e : Nat) : List Int :=
  let b := payloadBits l cp
  gfsk2 (preamble ++ syncWord full ++ headerBits l.length cp) ++
    (if cp ≤ 1 then gfsk4 b else if cp = 2 then gfsk2 b else gfsk2 (spread (if e = 0 then b.length else e) b))

end Sys2Proof.Machine
end

