-- ==== Sys2Proof/Machine/Lane.lean ====
section
/-! DEFINITION. The lane receiver (03): finding a frame, decoding it, what a reception reports, blocking and parking. -/

namespace Sys2Proof.Machine

/-! ### Slots and masks -/

/-- The full mask of the port. -/
def State.fullMask (s : State) (p : Nat) : Nat := 2 ^ s.slots p - 1

/-- A mask cut to the port's slots. -/
def State.cutMask (s : State) (p m : Nat) : Nat := m % 2 ^ s.slots p

/-- The pending mask of lane n: LN_MASK (R67). -/
def State.pendingMask (s : State) (n : Nat) : Nat := s.get (LN_MASK_LO.SLOTS n) + s.get (LN_MASK_HI.SLOTS n) * 2 ^ 32

/-! ### What holds a lane -/

/-- Engine time per second that the context of lane n needs (R36). -/
def State.laneLoad (s : State) (n : Nat) : Nat := 12000 * (8 * s.slots (n / 64) * 65)

/-- The fabric rate in force, in Hz: CLK_STAT.RATE (R36). -/
def State.fabricHz (s : State) : Nat := 375000000 * 2 ^ s.get CLK_STAT.RATE

/-- Lane n is parked: the contexts of its engine at its position and below do not fit the fabric rate (R37). -/
def State.parked (s : State) (n : Nat) : Bool :=
  let e := s.get (LN_CFG.ENGINE n)
  let pos := s.get (LN_CFG.CTX n)
  let below := s.lanes.filter (fun x =>
    x.2.bound && decide (s.get (LN_CFG.ENGINE x.1) = e ∧ s.get (LN_CFG.CTX x.1) ≤ pos))
  decide (s.fabricHz < (below.map (fun x => s.laneLoad x.1)).sum)

/-- Lane n is blocked by a transmission within two spacings on its port (R32). -/
def State.blocked (s : State) (n : Nat) : Bool :=
  let k := n % 64
  (List.range 5).any (fun d => decide (2 ≤ k + d ∧ k + d < 66) && decide ((s.lane (n - k + (k + d - 2))).blk ≠ 0))

/-- Port p is being cast by a partial ingot: FAB_STAT.STATE = CAST, its lanes receive nothing (R176). -/
def State.casting (s : State) (p : Nat) : Bool := (s.port p).quiesce && decide (s.get FAB_STAT.STATE = 5)

/-- STATE of a lane that no reception holds (LN_STAT): 0 OFF, 1 PARKED, 2 BLOCKED, 3 SEARCH. A lane that is being cast shows OFF
(log 43). -/
def State.restState (s : State) (n : Nat) : Nat :=
  if ¬ s.flag (LN_CFG.ENABLE n) ∨ ¬ (s.lane n).bound ∨ ¬ s.portOn (n / 64) ∨ s.casting (n / 64) then 0
  else if s.parked n then 1 else if s.blocked n then 2 else 3

/-- The lane's STATE. -/
def State.laneState (s : State) (n : Nat) : Nat := s.get (LN_STAT.STATE n)

/-! ### Gain (R39 to R42) -/

/-- The gain range of R39, in 0.125 dB. -/
def gainClamp (g : Int) : Int := clampInt (-192) 672 g

/-- MAN_GAIN within the range. -/
def State.manGain (s : State) (n : Nat) : Int := gainClamp (s.getInt (LN_AGC.MAN_GAIN n))

/-- The lane's gain in force, in 0.125 dB: MAN_GAIN, the frozen gain, or the AGC's to the nearest step. -/
def State.laneGain (s : State) (n : Nat) : Int :=
  if s.flag (LN_AGC.MAN n) then s.manGain n
  else if s.flag (LN_GAIN.FROZEN n) then s.getInt (LN_GAIN.GAIN_FRZ n)
  else gainClamp (((s.lane n).agc + 32768) / 65536)

/-- One lane sample: the AGC moves the gain towards the target by 2^−k of what is missing, k being ATTACK for a level above the
target, DECAY for one below (R39). In units of 2^−16 of 0.125 dB; that a time constant of 2^k samples is such a step is a DESIGN CHOICE
(log 27). -/
def agcStep (target : Int) (attack decay : Nat) (g level : Int) : Int :=
  let e := 65536 * (target - level) - g
  clampInt (-192 * 65536) (672 * 65536) (g + e / 2 ^ (if e < 0 then attack else decay))

/-- The AGC of lane n over some lane samples, while no reception holds the lane. -/
def State.agcRun (s : State) (n : Nat) (levels : List Int) : State :=
  if s.flag (LN_AGC.MAN n) ∨ (s.laneState n ≠ 2 ∧ s.laneState n ≠ 3) then s
  else
    let step := agcStep (-4 * (s.get (LN_AGC.TARGET n) : Int)) (s.get (LN_AGC.ATTACK n)) (s.get (LN_AGC.DECAY n))
    s.modLane n (fun x => { x with agc := levels.foldl step x.agc })

/-- A write of LN_AGC: with MAN = 1 the gain is MAN_GAIN and not frozen, and the AGC goes on from it once MAN is 0 again (R39, log 27). -/
def State.writeLnAgc (s : State) (n : Nat) (value : Word) : State :=
  let s1 := s.merge (LN_AGC n) 0xFFFF8FFF value
  if s1.flag (LN_AGC.MAN n) then
    (s1.putFlag (LN_GAIN.FROZEN n) false).modLane n (fun x => { x with agc := 65536 * s1.manGain n })
  else s1

/-- A freeze at gain `g` (R40), which MAN = 1 bars (R39). -/
def State.putFreeze (s : State) (n : Nat) (g : Int) (pga : Nat) : State :=
  if s.flag (LN_AGC.MAN n) then s
  else ((s.putInt (LN_GAIN.GAIN_FRZ n) g).put (LN_GAIN.PGA_FRZ n) pga).putFlag (LN_GAIN.FROZEN n) true

/-- The AGC resumes from the frozen value (R40). -/
def State.thaw (s : State) (n : Nat) : State :=
  if s.flag (LN_GAIN.FROZEN n) then
    (s.putFlag (LN_GAIN.FROZEN n) false).modLane n (fun x => { x with agc := 65536 * s.getInt (LN_GAIN.GAIN_FRZ n) })
  else s

/-- The lane takes up no reception: its STATE, gain released (R40), symbol count 0. It takes up the grid in force, unless it is BLOCKED
by a frame of its own on an older one (R62). -/
def State.rest (s : State) (n : Nat) : State :=
  let st := s.restState n
  let own := decide (st = 2) && s.sending (n / 64) (n % 64)
  (((s.put (LN_STAT.STATE n) st).put (LN_STAT.SYM n) 0).thaw n).modLane n
    (fun x => { x with rx := none, sync := none, nextRx := none, symMain := 0, symFull := 0, searched := false, old := x.old && own })

/-- A decode of lane n is queued or running (DEC_PEND). -/
def State.decPending (s : State) (n : Nat) : Bool :=
  s.dec.hdrs.any (fun j => j.n = n) || s.dec.pays.any (fun j => j.n = n) ||
    s.dec.tiles.any (fun e => e.2.any (fun j => j.n = n))

def State.setDecPend (s : State) (n : Nat) : State := s.putFlag (LN_STAT.DEC_PEND n) (s.decPending n)

/-- Withdraw the header decode of a reception that ends before it is done. -/
def State.dropHeaderJob (s : State) (n : Nat) : State :=
  ({ s with dec := { s.dec with
      hdrs := s.dec.hdrs.filter (fun j => j.n ≠ n),
      tiles := s.dec.tiles.filter (fun e => !(e.2.any (fun (j : DecJob) => decide (j.n = n) && j.hdr))) } }).setDecPend n

/-- Withdraw every decode of lane n: its reception is rewound with no outcome (R56). -/
def State.dropJobs (s : State) (n : Nat) : State :=
  ({ s with dec := { s.dec with
      hdrs := s.dec.hdrs.filter (fun j => j.n ≠ n), pays := s.dec.pays.filter (fun j => j.n ≠ n),
      tiles := s.dec.tiles.filter (fun e => !(e.2.any (fun (j : DecJob) => decide (j.n = n)))) } }).setDecPend n

/-- Rewind the packet that lane n has open in LN_RXQ (R55, R145). -/
def State.rewindRx (s : State) (n : Nat) : State :=
  let q := s.get (LN_RXQ.QUEUE n)
  match (List.range 256).find? (fun m => m = n) with
  | none => s
  | some m => let r := s.rewind (.lane (Fin.ofNat 256 m)) q; r.1.tellPool r.2

/-! ### What a reception reports (R56, R57) -/

/-- Angle difference around the circle of 192 units. -/
def circle (a b : Nat) : Nat := let d := (a + 192 - b) % 192; if 96 < d then 192 - d else d

/-- PH_VALID and PH_CH of an angle on port p (R78). With PH_VALID = 0 the rule gives PH_CH no value: the model shows the nearest channel
at whatever distance, and 0 if no channel has a crossing (DESIGN CHOICE, log 27). -/
def State.phase (s : State) (p angle : Nat) (locked : Bool) : Bool × Nat :=
  let refs := [s.get (LP_PHREF.V0 p), s.get (LP_PHREF.V1 p), s.get (LP_PHREF.V2 p), s.get (LP_PHREF.V3 p)]
  let cand := refs.zipIdx.filter (fun e => decide (e.1 ≠ 255))
  let best := cand.foldl (fun (a : Nat × Nat) (e : Nat × Nat) =>
    if circle e.1 angle < a.1 then (circle e.1 angle, e.2) else a) (1000, 0)
  (locked && decide (best.1 ≤ s.get (LP_MAINS.PH_TOL p)), if cand.isEmpty then 0 else best.2)

/-- The quality block's six words (R57). LEN, CP, PH_ANGLE and PH_CH read 0 of every reception whose header has not been decoded, be it
failed, cut by a block or restarted: the rule gives the 0 for a header that failed only (DEDUCED, log 27). -/
def State.quality (s : State) (n : Nat) (r : Reception) (snr : Int) (locked : Bool) : List Word :=
  let p := n / 64
  let ph := s.phase p r.angle locked
  let h := r.hdr.isSome
  let (len, cp) := r.hdr.getD (0, 0)
  [BitVec.ofNat 32 (clampNat 255 r.metric * 2 ^ 24 + unsgn 8 (clampInt (-128) 127 snr) * 2 ^ 16 + unsgn 16 r.fofs),
   BitVec.ofNat 32 (unsgn 12 r.gain * 2 ^ 20 + r.pga * 2 ^ 15 + b2n r.pgaStep * 2 ^ 14 + b2n r.full * 2 ^ 13 +
     clampNat 8191 r.corrected),
   BitVec.ofNat 32 r.mask, BitVec.ofNat 32 (r.mask / 2 ^ 32),
   BitVec.ofNat 32 ((if h then r.angle else 0) * 2 ^ 24 + b2n (h && ph.1) * 2 ^ 23 + (if h then ph.2 else 0) * 2 ^ 21 +
     r.cyc % 65536),
   BitVec.ofNat 32 (len * 2 ^ 24 + cp * 2 ^ 22 + r.slot * 2 ^ 16 + s.jointLane n)]

/-- The bytes of words, each little-endian. -/
def wordBytes (l : List Word) : List Byte := l.flatMap (fun w => leBytes 4 w.toNat)

/-- The counter of a frame outcome (LN_CNT_ERR). -/
def State.countOutcome (s : State) (n code : Nat) : State :=
  if code = stFrameOk then s.count (LN_CNT_OK.COUNT n) 1
  else if code = stHdrCrc then s.count (LN_CNT_ERR.HDR_CRC n) 1
  else if code = stPayCrc then s.count (LN_CNT_ERR.PAY_CRC n) 1
  else if code = stFalseSync then s.count (LN_CNT_ERR.FALSE_SYNC n) 1
  else if code = stCaptureLost then s.count (LN_CNT_ERR.CAPTURE_LOST n) 1
  else if code = stBlockedTx then s.count (LN_CNT_ERR.BLOCKED_TX n) 1
  else s

/-- A frame outcome is recorded (R56): LAST_OUT, its counter, SEQ_LPEND, the FRAMES event, and a frame-error event. Then the
attempts that this frame might have answered are judged (R95). -/
def State.outcome (s : State) (n code : Nat) (q : List Word) : State :=
  let s1 := ((s.put (LN_STAT.LAST_OUT n) code).countOutcome n code).lanePend n
  let s2 := s1.occurs 10 (if 0x20 ≤ code then code else 0x100) 1
  let s3 := if code ≠ stFrameOk ∧ s2.flag (LN_CFG.ERR_REC n) then s2.event 2 code (s2.jointLane n) 0 (wordBytes q) else s2
  let w := fun (i : Nat) => (nth 0 q i).toNat
  if code = stFrameOk then s3
  else (if code = stPayCrc then s3.lostAnswer n (bits (w 5) 31 24) (bits (w 5) 23 22) (bit (w 1) 13) else s3).recheck n

/-- A reception that has no SNR yet ends: what its quality block shows as SNR is open, and LN_SNR shows the same of a reception
that passed its header. -/
def State.outcomeEarly (s : State) (n code : Nat) (r : Reception) : State :=
  let f := s.free 256
  let t := if r.hdr.isSome then f.2.put (LN_SNR.SNR n) f.1 else f.2
  t.outcome n code (s.quality n r (sgn 8 f.1) r.locked)

/-! ### Finding a frame (R43 to R48) -/

/-- Every bound lane, and those of port p. -/
def State.boundLanes (s : State) : List Nat := (s.lanes.filter (fun e => e.2.bound)).map (·.1)
def State.portLanes (s : State) (p : Nat) : List Nat := s.boundLanes.filter (fun n => n / 64 = p)

/-- The noise estimate N as a fraction of units of LaneSlot.power: the mean over the last 64 symbols, or as many as there were. Of a lane
that has not searched for a whole symbol yet it is open, and held (R43, log 27). -/
def State.holdNoise (s : State) (n : Nat) : State :=
  if (s.lane n).noise.isEmpty then let r := s.free (2 ^ 64); r.2.modLane n (fun x => { x with noise := [r.1] }) else s
def State.noiseEst (s : State) (n : Nat) : Nat × Nat := ((s.lane n).noise.sum, (s.lane n).noise.length)

/-- The largest v up to 255 for which the power is at most 10^(−0.0375 v) of full scale. -/
def noiseFloor (num den fuel v : Nat) : Nat :=
  match fuel with
  | 0 => v
  | fuel + 1 => let w := v + 2 ^ fuel; noiseFloor num den fuel (if powerAtMost num den (6 * (w : Int)) then w else v)

/-- N as LN_SNR.NOISE shows it, in −0.375 dB; the rounding is open. -/
def State.showNoise (s : State) (n : Nat) : State :=
  let e := s.noiseEst n
  let v := noiseFloor e.1 (e.2 * 2 ^ 64) 8 0
  let f := s.free 2
  f.2.put (LN_SNR.NOISE n) (clampNat 255 (v + f.1))

/-- What a slot's samples do to a lane that no reception holds: the AGC runs, and N takes in a slot spent in SEARCH. -/
def State.laneSlot (s : State) (p : Nat) (x : LaneSlot) : State :=
  let n := p * 64 + x.k.val
  let s1 := s.agcRun n x.levels
  if s.laneState n = 3 ∧ (s.lane n).searched then
    (s1.modLane n (fun y => { y with noise := (x.power :: y.noise).take 64 })).showNoise n
  else s1

/-- The match power exceeds N by PRE (R43). -/
def State.matchOk (s : State) (n power : Nat) : Bool :=
  let e := s.noiseEst n
  decide (10 ^ s.get (LN_PRE_THR.PRE n) * e.1 ^ 40 ≤ (power * e.2) ^ 40)

/-- The port's lock is in the state LOCKED (R60). -/
def State.lockedState (s : State) (p : Nat) : Bool := s.get (LP_MSTAT.STATE p) = 2

def execPreambleDetect (n : LaneN) (power : Nat) (levels : List Int) (s : State) : Result :=
  .next (
    if s.laneState n ≠ 3 then s
    else
      let s1 := (s.agcRun n levels).holdNoise n
      if ¬ s1.matchOk n power then s
      else
        let g := s1.laneGain n
        let pga := s1.get (LP_PGA.CODE (n / 64))
        let c : Reception :=
          { mask := s.cutMask (n / 64) (s.lane n).mask, full := false, metric := 0, gain := g, pga := pga, pgaStep := false,
            fofs := 0, slot := 0, cyc := 0, angle := 0, locked := s.lockedState (n / 64), hdr := none, corrected := 0 }
        ((s1.put (LN_STAT.STATE n) 4).putFreeze n g pga).modLane n
          (fun x => { x with sync := some c, symMain := 0, symFull := 0, searched := false }))

/-- Δ in Hz, rounded down: the bound of the preamble estimate in 0.125 Hz (R44). -/
def State.deltaHz (s : State) (p : Nat) : Int := ((s.spacing p).1 / (s.spacing p).2 : Nat)

/-- The estimate is loaded at the end of the 8th symbol after the detection (R44). -/
def execFofsLoad (n : LaneN) (fofs : Int) (s : State) : Result :=
  .next (
    if s.laneState n ≠ 4 ∨ (s.lane n).symFull < 8 then s
    else
      let d := s.deltaHz (n / 64)
      (s.putInt (LN_FOFS.FOFS n) (clampInt (-d) d fofs)).putFlag (LN_FOFS.SRC n) false)

/-- SYNC_WIN, 0 acting as 48 (LN_PRE_THR). -/
def State.syncWin (s : State) (n : Nat) : Nat := if s.get (LN_PRE_THR.SYNC_WIN n) = 0 then 48 else s.get (LN_PRE_THR.SYNC_WIN n)

/-- Both searches have given up, each after SYNC_WIN symbols of its own timeline (R43). -/
def execSyncSearchTimeout (n : LaneN) (s : State) : Result :=
  .next (
    if s.laneState n = 4 ∧ s.syncWin n ≤ (s.lane n).symMain ∧ s.syncWin n ≤ (s.lane n).symFull then s.rest n else s)

/-- The metric of a correlator's outputs (R45). -/
def State.syncMetric (s : State) (n : Nat) (full : Bool) (y : SyncSeen) : Int :=
  let e := s.noiseEst n
  metricOf (syncBest full y.outs).1 e.1 e.2

/-- A sync detection: metric at SYNC or above, and |C|² at least 3.00 dB over |P|² (R45). -/
def State.syncOk (s : State) (n : Nat) (full : Bool) (y : SyncSeen) : Bool :=
  let c := syncBest full y.outs
  decide ((s.get (LN_PRE_THR.SYNC n) : Int) ≤ s.syncMetric n full y ∧ 10 ^ 3 * c.2 ^ 10 ≤ c.1 ^ 10)

/-- Slot and cycle number of the symbol that ends now, `shift` before or after the boundary of the lane's grid. -/
def State.symbolAt (s : State) (n : Nat) (shift : Int) : Nat × Nat :=
  let p := n / 64
  let cur := s.slotOf p (s.lane n).old
  let cyc := s.get (LP_MCYC.CYCLE p)
  if shift < 0 ∨ (¬ (s.lane n).old ∧ (s.port p).slotEnd) then (cur, cyc)
  else if cur = 0 then (s.slots p - 1, (cyc + 2 ^ 32 - 1) % 2 ^ 32) else (cur - 1, cyc)

/-- How many slots lie from the start of the `need`-th enabled slot, counted backwards, to the end of `slot` (R77 step 2). -/
def backSlots (m n need fuel slot : Nat) : Nat :=
  match fuel with
  | 0 => 0
  | fuel + 1 =>
    if need = 0 then 0 else 1 + backSlots m n (if bit m slot then need - 1 else need) fuel ((slot + n - 1) % n)

/-- The lowest enabled slot of a mask. -/
def lowSlot (m n : Nat) : Nat := ((List.range n).find? (fun i => bit m i)).getD 0

/-- PH_ANGLE (R77): the end of the last sync symbol lies (slot + 1) slots and `shift` / 64 of a slot after the cycle start; 48 enabled slots
and then f slots before it is t₀; a slot is P / S. -/
def State.syncAngle (s : State) (p mask slot : Nat) (shift : Int) : Nat :=
  let n := s.slots p
  let back := backSlots mask n 48 2880 slot + lowSlot mask n
  let off : Int := (64 * ((slot : Int) + 1 - back) + shift) % (64 * n : Nat)
  (roundDiv (192 * off) (64 * n)).toNat % 192

/-- What a detected sync fixes: metric, timing, phase and decision amplitude. -/
def State.fixRx (s : State) (n : Nat) (r : Reception) (y : SyncSeen) : Reception :=
  let t := s.symbolAt n y.shift
  { r with metric := (s.syncMetric n r.full y).toNat, slot := t.1, cyc := t.2, angle := s.syncAngle (n / 64) r.mask t.1 y.shift,
           amp := (y.ys.map Int.natAbs).sum }

/-- The lane takes up a reception after its sync. -/
def State.startRx (s : State) (n : Nat) (r : Reception) : State :=
  let s1 := (((s.put (LN_STAT.STATE n) 5).put (LN_STAT.SYM n) 0).put (LN_SNR.CORR n) (clampNat 255 r.metric))
  ((s1.putInt (LN_FOFS.FOFS n) r.fofs).putFlag (LN_FOFS.SRC n) true).modLane n
    (fun x => { x with rx := some r, sync := none })

/-- The sync that wins a symbol boundary, with true for the full-mask word: the higher metric, the lane timeline on a tie. A search that has
given up detects nothing (R43). -/
def State.syncPick (s : State) (n : Nat) (main shadow : Option SyncSeen) : Option (Bool × SyncSeen) :=
  let x := s.lane n
  let a := main.filter (fun y => decide (x.symMain ≤ s.syncWin n) && s.syncOk n false y)
  let b := shadow.filter (fun y => decide (x.symFull ≤ s.syncWin n) && s.syncOk n true y)
  match a, b with
  | none, none => none
  | some y, none => some (false, y)
  | none, some z => some (true, z)
  | some y, some z => if s.syncMetric n false y < s.syncMetric n true z then some (true, z) else some (false, y)

def execSyncDetect (n : LaneN) (main shadow : Option SyncSeen) (s : State) : Result :=
  .next (
    match s.laneState n, (s.lane n).sync, s.syncPick n main shadow with
    | 4, some c, some (full, y) =>
      let d := s.deltaHz (n / 64) / 2
      s.startRx n (s.fixRx n
        { c with full := full, mask := if full then s.fullMask (n / 64) else c.mask,
                 fofs := s.getInt (LN_FOFS.FOFS n) + clampInt (-d) d y.fofs } y)
    | _, _, _ => s)

/-- MARGIN of LN_CAPT, from 12 to 48. -/
def State.captMargin (s : State) (n : Nat) : Nat := max 12 (clampNat 48 (s.get (LN_CAPT.MARGIN n)))

/-- What the shadow's detection makes the lane's reception (R46). Its gain is the shadow's, or MAN_GAIN; PH_VALID counts from the preamble
detection that this reception goes back to (DEDUCED, log 28). -/
def State.shadowRx (s : State) (n : Nat) (c : Reception) (y : SyncSeen) (gain : Int) : Reception :=
  s.fixRx n { c with gain := if s.flag (LN_AGC.MAN n) then s.manGain n else gainClamp gain, pga := s.get (LP_PGA.CODE (n / 64)),
                     pgaStep := false, fofs := y.fofs, hdr := none, corrected := 0 } y

/-- The current reception ends with `code`, and the lane receives what the shadow saw (R46, R47). -/
def State.restartRx (s : State) (n code : Nat) (c r : Reception) : State :=
  let s1 := ((s.dropHeaderJob n).rewindRx n).outcomeEarly n code c
  ((s1.putFreeze n r.gain r.pga).startRx n r).recheck n

/-- Symbols from sync to the frame's last, once its header has passed. -/
def Reception.last (c : Reception) : Nat := (c.hdr.map (fun h => 60 + paySymbols h.1 h.2)).getD 0

/-- The shadow searches on the reception's timeline, for its kind of sync word (R45 to R48). -/
def execShadowSyncDetect (n : LaneN) (y : SyncSeen) (gain : Int) (s : State) : Result :=
  .next (
    match (s.lane n).rx with
    | none => s
    | some c =>
      let r := s.shadowRx n c y gain
      let sym := s.get (LN_STAT.SYM n)
      let strong := decide (c.metric + s.captMargin n ≤ r.metric)
      if ¬ s.syncOk n c.full y then s
      else if sym ≤ 60 then if strong then s.restartRx n stFalseSync c r else s
      else if sym = c.last then s.modLane n (fun x => { x with nextRx := some r })
      else if s.flag (LN_CAPT.MODE n) ∧ strong then s.restartRx n stCaptureLost c r
      else s)

def execPgaTagArrival (n : LaneN) (code : PgaCode) (withDetect : Bool) (s : State) : Result :=
  .next (
    let mark := fun (r : Reception) => if withDetect then ({ r with pga := code.val } : Reception) else { r with pgaStep := true }
    if s.laneState n = 4 then
      let s1 := s.modLane n (fun x => { x with sync := x.sync.map mark })
      if withDetect ∧ s.flag (LN_GAIN.FROZEN n) then s1.put (LN_GAIN.PGA_FRZ n) code.val else s1
    else if withDetect then s
    else s.modLane n (fun x => { x with rx := x.rx.map mark }))

/-- The port is no longer LOCKED: neither its slot in progress nor any reception in progress is LOCKED throughout (R69, R78). -/
def State.unlock (s : State) (p : Nat) : State :=
  foldState (s.portLanes p) (fun n t => t.modLane n (fun x =>
      let f := fun (r : Reception) => { r with locked := false }
      { x with rx := x.rx.map f, sync := x.sync.map f, nextRx := x.nextRx.map f }))
    (s.modPort p (fun x => { x with slotLocked := false }))

/-! ### Decoding (R49, R53 to R55) -/

/-- The header's last symbol: 60 decision values give the 60 soft values of its codeword (R50, R51, R53). -/
def execHeaderEnd (n : LaneN) (ys : List Int) (s : State) : Result :=
  .next (
    match s.laneState n, (s.lane n).rx with
    | 5, some r =>
      if s.get (LN_STAT.SYM n) < 60 ∨ s.dec.hdrs.any (fun j => j.n = n.val) ∨
          s.dec.tiles.any (fun e => e.2.any (fun (j : DecJob) => decide (j.n = n.val) && j.hdr)) then s
      else
        let f := s.demod false r.amp 60 ys
        let j : DecJob := { n := n, hdr := true, soft := f.1, rx := r, snr := 0, locked := false, endCyc := 0 }
        ({ f.2 with dec := { f.2.dec with hdrs := f.2.dec.hdrs ++ [j] } }).setDecPend n
    | _, _ => s)

def tileDef (_ : Nat) : Option DecJob := none

/-- A free tile takes the oldest header request, else the oldest payload request (R54). -/
def execDecodeDispatch (tile : Tile) (s : State) : Result :=
  .next (
    if (mget tileDef s.dec.tiles tile).isSome then s
    else
      match s.dec.hdrs, s.dec.pays with
      | j :: t, _ => { s with dec := { s.dec with hdrs := t, tiles := mset tileDef s.dec.tiles tile (some j) } }
      | [], j :: t => { s with dec := { s.dec with pays := t, tiles := mset tileDef s.dec.tiles tile (some j) } }
      | [], [] => s)

/-- The header has passed: the lane receives the payload, and opens a packet in LN_RXQ (R55). LN_SNR is this reception's from now
on; until the payload ends its value is open. -/
def State.headerPass (s : State) (n : LaneN) (r : Reception) (len cp fixed : Nat) : State :=
  let q := s.get (LN_RXQ.QUEUE n)
  let f := s.free 256
  let s1 := ((f.2.put (LN_SNR.SNR n) f.1).put (LN_STAT.STATE n) 6).modLane n
    (fun x => { x with rx := some { r with hdr := some (len, cp), corrected := fixed } })
  if (s1.queue q).stream then s1 else s1.setOpen ⟨.lane n, q, [], [], none, []⟩

def execHeaderDecodeDone (tile : Tile) (s : State) : Result :=
  .next (
    match mget tileDef s.dec.tiles tile with
    | none => s
    | some j =>
      if ¬ j.hdr then s
      else
        let n := Fin.ofNat 256 j.n
        let s1 := ({ s with dec := { s.dec with tiles := mset tileDef s.dec.tiles tile none } }).setDecPend n
        match (s1.lane n).rx with
        | none => s1
        | some r =>
          let d := s1.decodeHeader j.soft
          let s2 := d.2.2
          match d.1 with
          | some (len, h1) =>
            if headerPermitted len h1 then s2.headerPass n r len (h1 / 64) d.2.1
            else (s2.rest n).outcomeEarly n stHdrCrc { r with corrected := d.2.1 }
          | none =>
            (s2.rest n).outcomeEarly n (if r.metric < s2.get (LN_PRE_THR.CONF n) then stFalseSync else stHdrCrc)
              { r with corrected := d.2.1 })

/-- The lane leaves its reception: it searches, or takes up a sync seen at the last symbol (R48, R55), on the grid it was on (R62). -/
def State.leaveRx (s : State) (n : Nat) : State :=
  let old := (s.lane n).old
  match (s.lane n).nextRx with
  | none => s.rest n
  | some r => (((s.rest n).putFreeze n r.gain r.pga).startRx n r).modLane n (fun x => { x with old := old })

/-- The payload's last symbol: its decision values, in the modulation of the header's profile, give the soft values of its codeword. -/
def execPayloadEnd (n : LaneN) (ys : List Int) (snr : Int) (s : State) : Result :=
  .next (
    match s.laneState n, (s.lane n).rx with
    | 6, some r =>
      let (len, cp) := r.hdr.getD (0, 0)
      if s.get (LN_STAT.SYM n) < r.last then s
      else
        let f := s.demod (decide (cp ≤ 1)) r.amp (softCount len cp) ys
        let j : DecJob := { n := n, hdr := false, soft := f.1, rx := r, snr := snr, locked := r.locked,
                            endCyc := s.get (LP_MCYC.CYCLE (n.val / 64)) }
        let s1 := { f.2 with dec := { f.2.dec with pays := f.2.dec.pays ++ [j] } }
        ((s1.putInt (LN_SNR.SNR n) (clampInt (-128) 127 snr)).leaveRx n).setDecPend n
    | _, _ => s)

/-- Write a frame whose CRC failed, to see what the queue makes of it, and rewind it: FLUSHED and QUEUE_FULL go before
PAY_CRC (R55). -/
def State.failPacket (s : State) (n : LaneN) (q : Nat) (l : List Byte) : Nat × State :=
  let r := s.putWords (.lane n) q ((pieces 30 l).map (fun p => mkLine 1 (p.map (·.toNat)) false false false))
  let s1 := r.2.1.tellPool r.2.2
  let doom := (s1.openOf (.lane n) q).bind (·.doom)
  let w := s1.rewind (.lane n) q
  (match doom with
    | none => stPayCrc
    | some d => packetStatus (doomCode (some d)), w.1.tellPool w.2)

/-- The link layer takes the committed packet with its quality block (R55). -/
def State.toLink (s : State) (j : DecJob) (q : Nat) (bytes : List Byte) (qual : List Word) : State :=
  let r := s.removePacket q s.pool.commits
  let s1 := r.1.tellPool r.2
  { s1 with link := { s1.link with rx := s1.link.rx ++
      [{ lane := s1.jointLane j.n, bytes := bytes, full := j.rx.full, cp := (j.rx.hdr.getD (0, 0)).2, endCyc := j.endCyc,
         quality := qual }] } }

def execPayloadDecodeDone (tile : Tile) (s : State) : Result :=
  .next (
    match mget tileDef s.dec.tiles tile with
    | none => s
    | some j =>
      if j.hdr then s
      else
        let n := Fin.ofNat 256 j.n
        let q := s.get (LN_RXQ.QUEUE n)
        let s1 := ({ s with dec := { s.dec with tiles := mset tileDef s.dec.tiles tile none } }).setDecPend n
        let (len, cp) := j.rx.hdr.getD (0, 0)
        let (bytes, ok, fixed, s2) := s1.decodePayload j.soft len cp (ones 60 j.rx.mask)
        let rx := { j.rx with corrected := j.rx.corrected + fixed }
        let qual := s2.quality n rx j.snr j.locked
        if ok then
          let r := s2.putPacket (.lane n) q bytes
          let s3 := r.2.1.tellPool r.2.2
          if r.1 = 1 then (s3.outcome n stFrameOk qual).toLink { j with rx := rx } q bytes qual
          else s3.outcome n (packetStatus r.1) qual
        else
          let r := s2.failPacket n q bytes
          r.2.outcome n r.1 qual)

/-! ### Enabling, blocking and parking -/

/-- A reception ends with no outcome: its packet is rewound, its decodes are withdrawn (R56). -/
def State.cutRx (s : State) (n : Nat) : State := (((s.dropJobs n).rewindRx n).rest n).recheck n

/-- A write of LN_CFG: ENABLE and ERR_REC; a lane that no ingot binds refuses ENABLE (R56, R156). -/
def State.writeLnCfg (s : State) (n : Nat) (value : Word) : State :=
  let was := s.flag (LN_CFG.ENABLE n)
  let s1 := s.merge (LN_CFG n) 0x40000000 value
  let on := bit value.toNat 31 && (s1.lane n).bound
  let s2 := s1.putFlag (LN_CFG.ENABLE n) on
  if was = on then s2 else if on then s2.rest n else s2.cutRx n

def execLaneEnable (who : Accessor) (n : LaneN) (value : Word) (s : State) : Result :=
  .next (s.enter who (LN_CFG n) (fun t => t.writeLnCfg n value))

/-- The lanes that lane k of port p blocks: k − 2 to k + 2 within 0 to 63 (R32). -/
def blockSpan (p k : Nat) : List Nat :=
  ((List.range 5).filter (fun d => decide (2 ≤ k + d ∧ k + d < 66))).map (fun d => p * 64 + (k + d - 2))

/-- Show lane n's block in LP_BLK. -/
def State.showBlock (s : State) (n : Nat) : State :=
  s.putMapBit (LP_BLK_LO.LANES (n / 64)) (LP_BLK_HI.LANES (n / 64)) (n % 64) (s.blocked n)

/-- Lane n becomes blocked (R32): a reception past its sync ends BLOCKED_TX, a preamble search is abandoned. A sync detected in the same
symbol, so that no symbol of the reception has ended yet, is discarded without a record. -/
def State.blockLane (s : State) (n : Nat) : State :=
  let s1 := s.showBlock n
  match (s1.lane n).rx with
  | some r =>
    let s2 := ((s1.dropHeaderJob n).rewindRx n).rest n
    if s1.laneState n = 5 ∧ s1.get (LN_STAT.SYM n) = 0 then s2 else s2.outcomeEarly n stBlockedTx r
  | none => if s1.laneState n = 3 ∨ s1.laneState n = 4 then s1.rest n else s1

/-- The block of lane k's transmission begins with its first DAC sample (R32). -/
def State.blockBegin (s : State) (p k : Nat) : State :=
  foldState (blockSpan p k) (fun n t => t.blockLane n) (s.modLane (p * 64 + k) (fun x => { x with blk := 1 }))

/-- Two symbols after the last symbol the block ends: its lanes search afresh (R32). -/
def execLaneBlockEnd (p : Port) (k : LaneK) (s : State) : Result :=
  .next (
    if (s.lane (p.val * 64 + k.val)).blk ≠ 2 then s
    else
      foldState (blockSpan p k) (fun n t => let u := t.showBlock n; if u.laneState n = 2 then u.rest n else u)
        (s.modLane (p.val * 64 + k.val) (fun x => { x with blk := 0 })))

/-- After a change of the fabric rate: contexts are parked or resume (R37). A reception in progress is rewound and counted; a frame
that has ended and waits for its decoding is still decoded. -/
def State.parkLane (s : State) (n : Nat) : State :=
  let st := s.laneState n
  if s.restState n = 1 then
    if (s.lane n).rx.isSome then
      ((((s.dropHeaderJob n).rewindRx n).rest n).recheck n).count (LN_CNT_ERR.PARKED n) 1
    else if st ≠ 1 then s.rest n else s
  else if st = 1 then s.rest n else s

def State.repark (s : State) : State := foldState s.boundLanes (fun n t => t.parkLane n) s

/-- Symbols of a frame with payload of `len` bytes (R84). -/
def frameLen (len cp : Nat) : Nat := 108 + paySymbols len cp

/-- How many enabled slots the frame in a context takes; a tone lasts one mains cycle (R34). -/
def State.ctxLen (s : State) (p : Nat) (x : TxCtx) : Nat := if x.kind = .tone then s.slots p else frameLen x.frame.length x.cp

/-- A slot of a lane's grid ends: SYM of a reception, and the symbols of its searches, count the slots of their timelines. -/
def State.laneSymbol (s : State) (slot n : Nat) : State :=
  let x := s.lane n
  let s1 := if x.rx.any (fun r => bit r.mask slot) then s.put (LN_STAT.SYM n) (clampNat 32767 (s.get (LN_STAT.SYM n) + 1)) else s
  if x.sync.isSome then
    s1.modLane n (fun y => { y with symFull := y.symFull + 1, symMain := y.symMain + b2n (y.sync.any (fun r => bit r.mask slot)) })
  else s1

/-- A symbol of a frame on the line ends with its slot; the 32nd ends a passive probe's measurement (R34). -/
def State.ctxSymbol (s : State) (p slot : Nat) (e : Nat × TxCtx) : State :=
  let x := { e.2 with sent := if bit e.2.mask slot then min (e.2.sent + 1) (s.ctxLen p e.2) else e.2.sent }
  let s1 := s.modPort p (fun y => { y with ctxs := mset noneDef y.ctxs e.1 (some x) })
  if 32 ≤ x.sent ∧ x.kind ≠ .tone then s1.probeFull p x.k false else s1

/-- A slot ends on the grid in force, or on the one that a lock replaced (R62, R64, R66). -/
def State.countSymbols (s : State) (p : Nat) (old : Bool) : State :=
  let slot := s.slotOf p old
  let s1 := foldState ((s.portLanes p).filter (fun n => (s.lane n).old = old)) (fun n t => t.laneSymbol slot n) s
  foldState ((s1.ctxs p).filter (fun e => e.2.started && decide (e.2.old = old))) (fun e t => t.ctxSymbol p slot e) s1

end Sys2Proof.Machine
end

