-- ==== Sys2Proof/Machine/Mains.lean ====
section
/-! DEFINITION. Mains lock, slots, masks and the noise map (04, R59 to R70, R77, R78). Times are in 1/256 converter sample. -/

namespace Sys2Proof.Machine

/-! ### The lock (R59 to R63) -/

/-- A time of `n` microseconds or less: `t` is in 1/256 converter sample (1 µs is 1,048.576 of them). -/
def atMostUs (t n : Nat) : Bool := decide (t * 1000 ≤ n * 1048576)
def atLeastUs (t n : Nat) : Bool := decide (n * 1048576 ≤ t * 1000)

/-- A period is in range: 15.385 ms to 22.222 ms (R60). -/
def inRange (per : Nat) : Bool := atLeastUs per 15385 && atMostUs per 22222

/-- `n` microseconds, signed, in 1/256 converter sample. -/
def usTime (n : Int) : Int := roundDiv (n * 1048576) 1000

/-- The period in force (LP_MPER). -/
def State.period (s : State) (p : Nat) : Nat := s.get (LP_MPER.PERIOD p)

/-- The angle of a time offset within a period, in units of 1.875°. -/
def angleOf (off : Int) (per : Nat) : Nat :=
  if per = 0 then 0 else ((roundDiv (192 * (off % per)) per).toNat) % 192

/-- LP_PHREF: voltage channel `c` crosses at `t`, in range or not, as every port sees it (R78). -/
def State.phref (s : State) (c t : Nat) (ok : Bool) : State :=
  foldState (List.range 4) (fun p u =>
    let f : Fld := ⟨LP_PHREF p, 8 * c + 7, 8 * c⟩
    u.put f (if ok ∧ 0 < u.period p then angleOf ((t : Int) - ((u.port p).z : Int)) (u.period p) else 255)) s

/-- The nominal period of the port (LP_MAINS.NOM): 20,971,520 units at 50 Hz, and 17,476,266.67 at 60 Hz, whose rounding is open. -/
def State.nominal (s : State) (p : Nat) : Int × State := s.divFree 1048576000 (if s.flag (LP_MAINS.NOM p) then 60 else 50)

/-- The port enters ACQUIRE (R60, R62): no run, not locked, the grid running on at the period in force. -/
def State.acquire (s : State) (p : Nat) : State :=
  ((((s.unlock p).put (LP_MSTAT.STATE p) 1).putFlag (LP_STAT.LOCKED p) false).put (LP_MSTAT.HOLD_CNT p) 0).modPort p
    (fun x => { x with run := 0, lastX := none, lastPer := none, taken := false, begun := false, lowSlots := 0, readAt := none,
                       pred := some (if x.begun then x.z + s.period p else x.pred.getD (x.z + s.period p)) })

/-- The port starts: OFF to ACQUIRE, free-running at the last locked period, or at NOM if it has not locked since it was cast (R60); its
enabled lanes search. -/
def State.portStart (s : State) (p : Nat) : State :=
  if ¬ s.portOn p ∨ s.get (LP_MSTAT.STATE p) ≠ 0 then s
  else
    let r := s.nominal p
    let s1 := if (s.port p).wasLocked then s else r.2.put (LP_MPER.PERIOD p) r.1.toNat
    let s2 := (s1.acquire p).modPort p (fun x => { x with slotEnd := true, oldSlot := none, spans := [] })
    foldState (s2.portLanes p) (fun n t => t.rest n) s2

/-- α is measurable at `z` (R63): the last rising MAINS_SENSE crossing before it, within 22.222 ms. -/
def State.lastSense (s : State) (z : Nat) : Option Nat :=
  match s.iron.lastRise with
  | none => none
  | some c => let m := c * 32000; if m < z ∧ atMostUs (z - m) 22222 then some m else none

/-- The lane keeps the old grid when a lock replaces it: it receives, or is BLOCKED by a frame of its own, or parked or off it has no use of
either (R62). -/
def State.keepsGrid (s : State) (n : Nat) : Bool :=
  decide (4 ≤ s.laneState n) || (decide (s.laneState n = 2) && s.sending (n / 64) (n % 64))

/-- The locked grid replaces the free-running one lane by lane: lanes that receive, and frames on the line, run on the old one to their end
(R62). A frame that still runs on a grid replaced earlier goes on with this one (log 24). -/
def State.splitGrid (s : State) (p : Nat) : State :=
  let keep := (s.portLanes p).filter s.keepsGrid
  let s1 := foldState keep (fun n t => t.modLane n (fun x => { x with old := true })) s
  s1.modPort p (fun x =>
    { x with ctxs := x.ctxs.map (fun e => (e.1, e.2.map (fun c => if c.started then { c with old := true } else c))),
             oldSlot := if keep.isEmpty ∧ ¬ s.lineBusy p then none else some (s.get (LP_MSTAT.SLOT p)), slotEnd := true })

/-- Enter LOCKED at crossing `z` with the last period (R60, R63). -/
def State.lock (s : State) (p z m per : Nat) : State :=
  let off := ((m : Int) - z) % per
  let s1 := (((s.splitGrid p).put (LP_MPER.PERIOD p) per).put (LP_MSTAT.STATE p) 2).putFlag (LP_STAT.LOCKED p) true
  let s2 := s1.modPort p (fun x => { x with pred := some z, taken := true, begun := false, next := z + per, z := z,
                                            alpha := off, alphaPer := per, wasLocked := true })
  (s2.put (LP_MSTAT.ALPHA p) (angleOf off per)).setEvt (LP_MEVT.LOCK_ACQ p)

/-- A crossing while the port acquires: the run of R60. -/
def State.runCrossing (s : State) (p x : Nat) : State :=
  let y := s.port p
  let per := y.lastX.map (fun l => x - l)
  let good := match per, y.lastPer with
    | none, _ => false
    | some q, none => inRange q
    | some q, some l => inRange q && decide (200 * (q - l) ≤ l ∧ 200 * (l - q) ≤ l)
  let run := if good then y.run + 1 else 1
  let s1 := s.modPort p (fun z => { z with run := run, lastX := some x, lastPer := if good then per else none })
  match per, s1.lastSense x with
  | some q, some m => if 8 ≤ run then s1.lock p x m q else s1
  | _, _ => s1

/-- After a crossing has been taken or missed and its cycle has begun, the next prediction is judged. -/
def State.roll (s : State) (p : Nat) : State :=
  s.modPort p (fun x => if x.taken ∧ x.begun then { x with pred := some x.next, taken := false, begun := false } else x)

/-- A valid crossing with error `e` (R61): P + e/16, next z + P + e/4. -/
def State.follow (s : State) (p : Nat) (e : Int) : State :=
  let a := s.divFree e 16
  let b := a.2.divFree e 4
  let per := ((s.period p : Int) + a.1).toNat
  let s1 := ((b.2.put (LP_MPER.PERIOD p) per).put (LP_MSTAT.STATE p) 2).put (LP_MSTAT.HOLD_CNT p) 0
  (s1.modPort p (fun x => { x with taken := true, next := (((x.pred.getD 0 : Nat) : Int) + per + b.1).toNat })).roll p

/-- A change of ZC_TRIM moves the crossing before, the predicted crossing and α; where the cycle of the predicted crossing has begun, its
start moves with it, so that the cycle that ends there takes the change (R59). -/
def State.moveTrim (s : State) (p : Nat) (trim : Int) : State :=
  let y := s.port p
  let move := trim - y.trim
  let moved := fun (t : Nat) => ((t : Int) + move).toNat
  if move = 0 then s
  else
    let off := (y.alpha - move) % (max y.alphaPer 1 : Nat)
    let s1 := s.modPort p (fun x =>
      { x with trim := trim, lastX := x.lastX.map moved, pred := x.pred.map moved, z := if x.begun then moved x.z else x.z, alpha := off })
    if s.locked p then s1.put (LP_MSTAT.ALPHA p) (angleOf off y.alphaPer) else s1

/-- A crossing within the samples that follow a synchronising reset of the channel counts as the predicted one (R59). -/
def State.blind (s : State) (p : Nat) : Bool :=
  s.locked p && !(s.port p).taken && decide (0 < s.meter.fastLeft)

/-- A crossing while the port is LOCKED or in HOLDOVER (R60, R61). -/
def State.lockedCrossing (s : State) (p x : Nat) : State :=
  match (s.port p).pred with
  | none => s
  | some q =>
    let e : Int := (x : Int) - q
    if (s.port p).taken ∨ ¬ (360 * e ≤ s.period p ∧ 360 * (-e) ≤ s.period p) then s else s.follow p e

/-- The channel of port p crosses at `x`, ZC_TRIM added, after `last`. -/
def State.crossing (s : State) (p x : Nat) : State :=
  let ok := (s.port p).lastX.any (fun l => inRange (x - l))
  let s1 := if s.get (LP_MSTAT.STATE p) = 1 then s.runCrossing p x
    else (s.lockedCrossing p x).modPort p (fun y => { y with lastX := some x })
  s1.phref (s.get (LP_MAINS.VCH p)) ((x : Int) - (s.port p).trim).toNat ok

/-- A port takes its crossings from the fast path of its channel, which stands still where metering does not run (R59, R109). -/
def execMainsZeroCrossing (p : Port) (t : Nat) (s : State) : Result :=
  .next (
    if s.get (LP_MSTAT.STATE p) = 0 ∨ ¬ (s.metering ∧ s.powered (s.get (LP_MAINS.VCH p))) then s
    else
      let trim := usTime (s.getInt (LP_MAINS.ZC_TRIM p))
      let s1 := s.moveTrim p trim
      let x := ((t : Int) + trim).toNat
      s1.crossing p (if s1.blind p then (s1.port p).pred.getD x else x))

/-- The predicted crossing and 1° have passed without a valid crossing (R60). The channel has no crossing (R78). -/
def execCrossingMissed (p : Port) (s : State) : Result :=
  .next (
    let st := s.get (LP_MSTAT.STATE p)
    if (st ≠ 2 ∧ st ≠ 3) ∨ (s.port p).taken then s
    else
      let hold := s.get (LP_MAINS.HOLDOVER p)
      let cnt := if st = 2 then 0 else s.get (LP_MSTAT.HOLD_CNT p) + 1
      let s1 := if st = 2 then ((s.unlock p).put (LP_MSTAT.STATE p) 3).setEvt (LP_MEVT.LOCK_LOST p) else s
      let s2 := (s1.put (LP_MSTAT.HOLD_CNT p) (clampNat 255 cnt)).phref (s.get (LP_MAINS.VCH p)) 0 false
      if hold ≤ cnt then (s2.acquire p).setEvt (LP_MEVT.HOLDOVER_END p)
      else (s2.modPort p (fun x => { x with taken := true, next := x.pred.getD 0 + s.period p })).roll p)

/-- Twice the instant at which the number of the cycle that begins now reads the iron counter: z + α − 180° (R63). -/
def PortSt.readTwice (y : PortSt) : Int := 2 * (y.z : Int) + 2 * y.alpha - y.alphaPer

/-- The number of the cycle that begins now (R63): PWR_MCYC at that instant, which lies before now or after it, and 1 more if α is below
180°. An edge that comes between now and a later instant is counted when it comes (State.lateEdge). -/
def State.cycleNumber (s : State) (p : Nat) : Nat :=
  let y := s.port p
  let since := s.iron.lastRise.any (fun c => decide (y.readTwice < 2 * (c * 32000 : Nat)))
  (s.get PWR_MCYC.CYCLE + 2 ^ 32 + (if 2 * y.alpha < y.alphaPer then 1 else 0) - b2n since) % 2 ^ 32

/-- A rising MAINS_SENSE edge at `t` before the instant at which the number of a port's cycle reads the counter: the number, which a frame
of the cycle carries too, rises by 1 (R63). -/
def State.lateEdge (s : State) (t : Nat) : State :=
  foldState (List.range 4) (fun p u =>
    let c := u.get (LP_MCYC.CYCLE p)
    let next := (c + 1) % 2 ^ 32
    match (u.port p).readAt with
    | none => u
    | some r =>
      if (t : Int) ≤ r then
        (u.modPort p (fun x =>
          { x with readAt := none,
                   ctxs := x.ctxs.map (fun e => (e.1, e.2.map (fun (y : TxCtx) => if e.1 < 8 ∧ y.cyc = c then { y with cyc := next } else y))) })).put
          (LP_MCYC.CYCLE p) next
      else u.modPort p (fun x => { x with readAt := none })) s

/-- The same edge, for the numbers of the feeders' cycles (R63, R116). -/
def State.lateFeeders (s : State) (t : Nat) : State :=
  foldState (List.range 4) (fun f u => u.modFeeder f (fun x =>
    { x with readAt := none,
             number := if x.readAt.any (fun r => decide ((t : Int) ≤ r)) then x.number.map (fun n => (n + 1) % 2 ^ 32) else x.number })) s

/-! ### Masks (R67) -/

/-- A write of LN_MASK_LO changes the pending mask and arms it. -/
def State.writeMaskLo (s : State) (n : Nat) (value : Word) : State :=
  (s.setReg (LN_MASK_LO n) value).modLane n (fun x => { x with armed := true })

def execMaskArm (who : Accessor) (n : LaneN) (value : Word) (s : State) : Result :=
  .next (s.enter who (LN_MASK_LO n) (fun t => t.writeMaskLo n value))

/-- A mask enables fewer than S/2 of S slots. -/
def maskThin (m slots : Nat) : Bool := decide (2 * ones slots m < slots)

/-- At a cycle boundary an armed mask takes effect on a lane that neither receives nor transmits (R67). -/
def State.applyMask (s : State) (n : Nat) : State :=
  let st := s.laneState n
  if ¬ (s.lane n).armed ∨ (4 ≤ st ∧ st ≤ 6) ∨ s.sending (n / 64) (n % 64) then s
  else if maskThin (s.pendingMask n) (s.slots (n / 64)) then
    (s.modLane n (fun x => { x with armed := false })).setEvtWith (LP_MEVT.MASK_REFUSED (n / 64)) (leBytes 2 (s.jointLane n))
  else s.modLane n (fun x => { x with armed := false, mask := s.cutMask (n / 64) (s.pendingMask n) })

/-- Every lane of the port whose pending mask is armed. -/
def State.applyMasks (s : State) (p : Nat) : State :=
  foldState ((s.lanes.filter (fun e => e.2.armed && decide (e.1 / 64 = p))).map (·.1)) (fun n t => t.applyMask n) s

/-! ### Noise map (R69, R70) -/

def nmapDef (_ : Nat) : Nat × Nat := (0, 0)

/-- One update of an entry with a slot's mean power `x`. -/
def nmapStep (avg : Nat) (m : Nat × Nat) (x : Nat) : Nat × Nat :=
  if m.2 = 0 then (x, 1) else (m.1 * (2 ^ avg - 1) + x * m.2, m.2 * 2 ^ avg)

/-- Lane n searched, and its port was LOCKED, throughout the slot that ends (R69). -/
def State.nmapTakes (s : State) (n : Nat) : Bool :=
  (s.lane n).searched && decide (s.laneState n = 3) && (s.port (n / 64)).slotLocked && s.lockedState (n / 64)

/-- The slot that ended updates the entries of the lanes that searched throughout it. -/
def State.nmapSlot (s : State) (p slot : Nat) (lanes : List LaneSlot) : State :=
  if s.flag (LP_NMAP_CFG.FREEZE p) then s
  else
    let avg := clampNat 10 (s.get (LP_NMAP_CFG.AVG p))
    let ok := lanes.filter (fun e => s.nmapTakes (p * 64 + e.k.val))
    let upd := fun (m : SMap (Nat × Nat)) (e : LaneSlot) => mmod nmapDef m (64 * e.k.val + slot) (fun v => nmapStep avg v e.cell)
    s.modPort p (fun y => { y with nmap := ok.foldl upd y.nmap })

/-- The largest v of at most `hi` for which the entry is at or below v's upper edge, by bisection over `bits`. -/
def nmapValue (num den base fuel v : Nat) : Nat :=
  match fuel with
  | 0 => v
  | fuel + 1 =>
    let w := v + 2 ^ fuel
    nmapValue num den base fuel (if powerAtMost num den (6 * (w : Int) + 96 * base - 3) then w else v)

/-- Entry v of lane k and slot (R69), 0 for a slot at or above S (R70). Before its first update it reads 255 after a CLEAR, and else 0, the
reset value of LP_NMAP_DATA (log 26). -/
def State.nmapEntry (s : State) (p k slot : Nat) : Nat :=
  if s.slots p ≤ slot then 0
  else
    let m := mget nmapDef (s.port p).nmap (64 * k + slot)
    if m.2 = 0 then (if (s.port p).cleared then 255 else 0) else nmapValue m.1 (m.2 * 2 ^ 64) (s.get (LP_NMAP_CFG.BASE p)) 8 0

/-- A write of LP_NMAP_CFG. -/
def State.writeNmapCfg (s : State) (p : Nat) (value : Word) : State :=
  let s1 := s.merge (LP_NMAP_CFG p) 0x400000FF value
  if bit value.toNat 31 then s1.modPort p (fun x => { x with nmap := [], cleared := true }) else s1

def execNmapClear (who : Accessor) (p : Port) (value : Word) (s : State) : Result :=
  .next (s.enter who (LP_NMAP_CFG p) (fun t => t.writeNmapCfg p value))

/-- A read of LP_NMAP_DATA (R70). -/
def State.readNmap (s : State) (p : Nat) : Word × State :=
  let k := s.get (LP_NMAP_IDX.LANE p)
  let w := s.get (LP_NMAP_IDX.WORD p)
  let v := ((List.range 4).map (fun j => s.nmapEntry p k (4 * w + j) * 2 ^ (8 * j))).sum
  (BitVec.ofNat 32 v,
    if ¬ s.flag (LP_NMAP_IDX.AUTOINC p) then s
    else if w = 15 then (s.put (LP_NMAP_IDX.WORD p) 0).put (LP_NMAP_IDX.LANE p) (k + 1)
    else s.put (LP_NMAP_IDX.WORD p) (w + 1))

def execNmapDataRead (who : Accessor) (p : Port) (s : State) : Result :=
  .next (if s.reads who then let r := s.readNmap p; r.2.answer who r.1 else s)

/-! ### Slots (R64) -/

/-- A slot begins: what must hold throughout it is noted (R69). -/
def State.beginSlot (s : State) (p : Nat) : State :=
  foldState (s.portLanes p) (fun n t => t.modLane n (fun x => { x with searched := decide (s.laneState n = 3) }))
    (s.modPort p (fun x => { x with slotLocked := s.lockedState p, spans := [] }))

/-- The measurement of each lane of a slot; of a lane that is named twice the first. -/
def onceLanes (m : SlotMeasure) : List LaneSlot :=
  (List.finRange 64).filterMap (fun k => m.lanes.find? (fun e => e.k = k))

/-- Slot `slot` of the grid in force ends: symbols are counted, the headroom loop decides, the noise map is updated, the limiter's event and
the cancellation state are judged, and each lane's AGC and noise estimate have taken its samples. -/
def State.endSlot (s : State) (p : Nat) (m : SlotMeasure) : State :=
  let slot := s.get (LP_MSTAT.SLOT p)
  let s1 := (((s.crestSlot p m).countSymbols p false).headroom p m).nmapSlot p slot (onceLanes m)
  let s2 := foldState (onceLanes m) (fun e t => t.laneSlot p e) (s1.echoSlot p m)
  let s3 := if slot + 1 < s.slots p then s2.put (LP_MSTAT.SLOT p) (slot + 1) else s2.modPort p (fun x => { x with slotEnd := true })
  s3.beginSlot p

/-- A slot of the grid that a lock replaced ends; with no lane and no frame left on it the grid is gone (R62). -/
def State.endOld (s : State) (p : Nat) : State :=
  let s1 := s.countSymbols p true
  let used := (s1.portLanes p).any (fun n => (s1.lane n).old) || (s1.ctxs p).any (fun c => c.2.old)
  s1.modPort p (fun x => { x with oldSlot := if used then x.oldSlot.map (fun k => (k + 1) % s.slots p) else none })

/-- A slot boundary. Slots follow one another from 0 to S − 1; the next cycle's first begins with PORT_CYCLE_START. -/
def execSlotBoundary (p : Port) (old : Bool) (m : SlotMeasure) (s : State) : Result :=
  .next (
    if ¬ s.portOn p ∨ s.get (LP_MSTAT.STATE p) = 0 then s
    else if old then (if (s.port p).oldSlot.isSome then s.endOld p else s)
    else if (s.port p).slotEnd then s else s.endSlot p m)

end Sys2Proof.Machine
end

