-- ==== Sys2Proof/Machine/Link.lean ====
section
/-! DEFINITION. The link layer (05): MAC frames, acceptance, answers, echo, joining, answer deadlines and the registry's word 0. -/

namespace Sys2Proof.Machine

/-! ### MAC frames (R85) -/

/-- A received MAC frame. -/
structure Mac where
  type : Nat
  sec : Bool
  ackreq : Bool
  seq : Nat
  dst : List Byte
  src : List Byte
  /-- INNER type, HOP and PATH of a ROUTED frame. -/
  route : Option (Nat × Nat × List Byte)
  /-- FCTL to the end of ROUTE, with HOP taken as 0 (R90), and what follows it. -/
  head : List Byte
  rest : List Byte
  deriving DecidableEq, Repr

/-- ROUTE at offset `i` of a frame: INNER, HOP, PATH, and its length; none if it is malformed. -/
def parseRoute (l : List Byte) (i : Nat) : Option (Nat × Nat × List Byte) :=
  let r0 := u8 l i
  let r1 := u8 l (i + 1)
  let n := r0 % 8
  if i + 2 + 2 * n ≤ l.length ∧ 3 ≤ r0 / 32 ∧ r0 / 32 ≤ 5 ∧ bits r0 4 3 = 0 ∧ 1 ≤ n ∧ n ≤ 6 ∧ r1 ≤ n then
    some (r0 / 32, r1, (l.drop (i + 2)).take (2 * n))
  else none

/-- Read a MAC frame; none for TYPE 7 and for one cut short of its own parts. -/
def parseMac (l : List Byte) : Option Mac :=
  let c := u8 l 0
  let dl := if c / 32 = 0 then 0 else if bit c 2 then 8 else 2
  let sl := if bit c 1 then 8 else 2
  let i := 2 + dl + sl
  if l.length < i ∨ c / 32 = 7 then none
  else
    let make := fun (route : Option (Nat × Nat × List Byte)) (n : Nat) (head : List Byte) =>
      ({ type := c / 32, sec := bit c 4, ackreq := bit c 3, seq := u8 l 1, dst := (l.drop 2).take dl,
         src := (l.drop (2 + dl)).take sl, route := route, head := head, rest := l.drop n } : Mac)
    if c / 32 ≠ 6 then some (make none i (l.take i))
    else
      match parseRoute l i with
      | none => none
      | some r =>
        let n := i + 2 + r.2.2.length
        some (make (some r) n (l.take (i + 1) ++ [0#8] ++ (l.drop (i + 2)).take r.2.2.length))

/-- The type that decides what becomes of a frame: INNER of a ROUTED frame at its last hop. -/
def Mac.kind (m : Mac) : Nat := (m.route.map (·.1)).getD m.type

/-- A ROUTED frame that has not passed its last hop. -/
def Mac.onWay (m : Mac) : Bool := m.route.any (fun r => decide (2 * r.2.1 < r.2.2.length))

/-- Addressed to the concentrator, 0x0000 (R86). -/
def Mac.toMe (m : Mac) : Bool := decide (m.dst = [0#8, 0#8]) && !m.onWay

/-- The element PATH[HOP] of a frame on its way. -/
def Mac.element (m : Mac) : Nat := (m.route.map (fun r => leNat ((r.2.2.drop (2 * r.2.1)).take 2))).getD 0

/-- FCTL of a frame the device builds. -/
def fctl (type : Nat) (sec ackreq dstLong srcLong lcmd : Bool) : List Byte :=
  leBytes 1 (type * 32 + b2n sec * 16 + b2n ackreq * 8 + b2n dstLong * 4 + b2n srcLong * 2 + b2n lcmd)

/-- The octets of a PATH in reverse order of its elements (R97). -/
def reversePath (l : List Byte) : List Byte := ((pieces 2 l).reverse).flatten

/-- What the link layer must do with a received frame. -/
inductive RxKind where
  | data | ack | join | echo
  deriving DecidableEq, Repr

/-- Port b of the echo element PATH[HOP] of a frame heard on port a (R99). -/
def State.echoPort (s : State) (a : Nat) (m : Mac) : Option Nat :=
  let e := m.element
  if m.onWay ∧ 0xFFF0 ≤ e ∧ e < 0xFFF4 ∧ e - 0xFFF0 ≠ a ∧ s.bitOf (LP_LINK.ECHO_TO a) (e - 0xFFF0) then some (e - 0xFFF0)
  else none

/-- Sort a received frame; LINK_RX_DATA also discards what is of no other kind. -/
def State.rxKind (s : State) (f : LinkRx) : RxKind :=
  match parseMac f.bytes with
  | none => .data
  | some m =>
    if m.onWay then
      if ((s.ownLane f.lane).bind (fun n => s.echoPort (n / 64) m)).isSome then .echo else .data
    else if m.type = 1 ∧ m.toMe then .join
    else if (m.kind = 4 ∨ m.kind = 5) ∧ m.toMe then .ack
    else .data

/-- Take the oldest received frame, if it is of this kind. -/
def State.takeRx (s : State) (k : RxKind) : Option (LinkRx × State) :=
  match s.link.rx with
  | [] => none
  | f :: t => if s.rxKind f = k then some (f, { s with link := { s.link with rx := t } }) else none

/-- After a frame has been dealt with, the attempts it might have answered are judged (R95). -/
def State.afterRx (s : State) (f : LinkRx) : State :=
  match s.ownLane f.lane with
  | none => s
  | some n => s.recheck n

/-! ### Answers (R87, R92, R94) -/

/-- RSNR or REASON (R87). -/
def ackBody (f : LinkRx) (reason : Option Nat) : List Byte :=
  match reason with
  | none => leBytes 1 (bits (nth 0 f.quality 0).toNat 23 16)
  | some r => leBytes 1 r

/-- The MAC frame of an ACK (no reason) or NACK to a frame; `i` is the sender's entry, if it has one. A NACK to an unknown
sender goes to the SRC of the frame, a long one included: it has no short address (log 30). -/
def ackMac (f : LinkRx) (m : Mac) (i reason : Option Nat) : MacOut :=
  let type := if reason.isNone then 4 else 5
  let sec := m.sec && i.isSome
  let dst := (i.map (fun e => leBytes 2 (e + 1))).getD m.src
  let route := (m.route.map (fun r => leBytes 1 (type * 32 + r.2.2.length / 2) ++ [0#8] ++ reversePath r.2.2)).getD []
  { head := fctl (if m.route.isSome then 6 else type) sec false (decide (dst.length = 8)) false false ++ leBytes 1 m.seq ++
      dst ++ [0#8, 0#8] ++ route,
    slv := if sec then 2 else 0, body := ackBody f reason, entry := i, eui := [], gen := 0 }

/-- Queue an ACK or NACK for cycle E + 2 on the frame's lane; on a lane of the other unit it is sent there over the link. -/
def State.reply (s : State) (f : LinkRx) (m : Mac) (i reason : Option Nat) : State :=
  let a : PendAns :=
    { k := f.lane % 64, cyc := (f.endCyc + 2) % 2 ^ 32, mac := ackMac f m i reason, cp := f.cp,
      full := f.full || m.route.isSome, src := leNat m.src, seq := m.seq }
  match s.ownLane f.lane with
  | some n => s.modPort (n / 64) (fun x => { x with answers := x.answers ++ [a] })
  | none => { s with al := { s.al with outbox := s.al.outbox ++ [.answer f.lane a] } }

/-- An ACK or NACK to this SRC and SEQ is allocated or waits for its allocation (R92 step 4). -/
def State.answering (s : State) (src seq : Nat) : Bool :=
  (List.range 4).any (fun p =>
    (s.port p).answers.any (fun a => decide (a.src = src ∧ a.seq = seq)) ||
      (s.ctxs p).any (fun c => decide (c.2.kind = .answer src seq)))

/-! ### Acceptance (R92, R93) -/

/-- The entry that a SRC names: SRC − 1, or the entry with that EUI; not an EMPTY one. -/
def State.sender (s : State) (src : List Byte) : Option Nat :=
  if src.length = 8 then s.findEui src
  else
    let v := leNat src
    if 1 ≤ v ∧ v ≤ s.entries ∧ s.entState (v - 1) ≠ 0 then some (v - 1) else none

/-- A frame of an entry that another unit acts on is forwarded over the link, or dropped while the pair is split; in Island a frame
of an entry outside the pinned set is dropped (R323, R328, R329). -/
def State.pass (s : State) (f : LinkRx) (i : Nat) : Option State :=
  if ¬ s.acting i then
    if s.linkUp then some { s with al := { s.al with outbox := s.al.outbox ++ [.frame f] } }
    else some (s.count AL_CNT.FOREIGN 1)
  else if s.barred i then some (s.count AL_CNT.FOREIGN 1)
  else none

/-- A frame fails its tag (R92 step 2). -/
def State.micFail (s : State) : State := (s.count LK_CNT.MIC_FAIL 1).setEvt LK_EVT.MIC_FAIL

/-- The body of a frame from entry `i`, if it is protected as R87 requires and its tag holds. -/
def State.openFrame (s : State) (m : Mac) (i : Nat) : Option (List Byte) :=
  let slv := if m.kind = 3 then 6 else 2
  if m.sec ∧ 13 ≤ m.rest.length ∧ u8 m.rest 0 = slv then
    s.unseal (s.entEui i) (s.entGen i) slv (u32 m.rest 1) (m.head ++ m.rest.take 5) (m.rest.drop 5)
  else none

/-- R93 for an arriving sequence number: what RX_SEQ and DUP_MAP become; none for a duplicate. -/
def dupCheck (rxSeq map sq : Nat) : Option (Nat × Nat) :=
  let d := (rxSeq + 256 - sq) % 256
  if d < 16 then (if bit map d then none else some (rxSeq, putBits map d d 1))
  else if d < 128 then none
  else some (sq, (map * 2 ^ (256 - d) + 1) % 65536)

/-- Steps 6 and 7 of R92: delivery, the entry's fields, the acknowledgement and the received-frame event. A follower delivers into
the lead's queue, or into BUFQ, with its event (R325, R329). LAST_CYC is the cycle of the frame's last symbol (log 30). -/
def State.deliver (s : State) (f : LinkRx) (m : Mac) (i rxSeq map fc : Nat) (body : List Byte) : State :=
  let port := f.lane % 256 / 64
  let q := s.get (LP_LINK.DLVQ port)
  let away := s.follower || s.island
  let r := if away then (1, s, []) else s.putPacket (.engine 0) q body
  let s1 := r.2.1.tellPool r.2.2
  if r.1 ≠ 1 then s1.reply f m (some i) (some 1)
  else
    let w := fun (j : Nat) => (nth 0 f.quality j).toNat
    let s2 := (s1.putEntry i 12 (leBytes 1 rxSeq)).putEntry i 14 (leBytes 2 map ++ leBytes 4 fc ++ leBytes 4 f.endCyc)
    let s3 := s2.putEntry i 28 (leBytes 2 (putBits (s2.entNat i 28 2) 8 0 f.lane) ++ leBytes 1 (bits (w 4) 31 24) ++
      leBytes 1 (bits (w 0) 23 16))
    let s4 := if m.ackreq then s3.reply f m (some i) none else s3
    s4.tell [.event (eventRec 1 stFrameOk (i + 1) (q + body.length * 65536) (wordBytes f.quality)) q
      (if away then body else [])]

/-- The DUP_RX report of lane n (R56, R92). -/
def State.reportDup (s : State) (f : LinkRx) (n : Nat) : State :=
  if s.flag (LN_CFG.ERR_REC n) then (s.occurs 10 stDupRx 1).event 2 stDupRx f.lane 0 (wordBytes f.quality) else s

/-- A duplicate (R92 step 4). -/
def State.duplicate (s : State) (f : LinkRx) (m : Mac) (i : Nat) : State :=
  let s1 := s.count LK_CNT.DUP_RX 1
  let s2 := ((s.ownLane f.lane).map (fun n => s1.reportDup f n)).getD s1
  if m.ackreq && !s2.answering (leNat m.src) m.seq then s2.reply f m (some i) none else s2

/-- A DATA frame to 0x0000 (R92). -/
def State.rxData (s : State) (f : LinkRx) (m : Mac) : State :=
  match s.sender m.src with
  | none =>
    if s.island then s.count AL_CNT.FOREIGN 1
    else if m.ackreq then s.reply f m none (some 2) else s
  | some i =>
    match s.pass f i with
    | some t => t
    | none =>
      match s.openFrame m i with
      | none => s.micFail
      | some body =>
        if s.entState i ≠ 2 then s.reply f m (some i) (some 2)
        else
          match dupCheck (s.entNat i 12 1) (s.entNat i 14 2) m.seq with
          | none => s.duplicate f m i
          | some (r, d) =>
            if u32 m.rest 1 ≤ s.entNat i 16 4 then (s.count LK_CNT.REPLAY 1).setEvt LK_EVT.REPLAY
            else s.deliver f m i r d (u32 m.rest 1) body

def execLinkRxData (s : State) : Result :=
  .next (
    match s.takeRx .data with
    | none => s
    | some (f, s1) =>
      match parseMac f.bytes with
      | none => s1.afterRx f
      | some m => (if m.kind = 3 ∧ m.toMe then s1.rxData f m else s1).afterRx f)

/-- The attempt that an ACK or NACK of entry `i` answers: the send and its lane (R95). -/
def State.answered (s : State) (i seq : Nat) : Option (SendSt × Nat) :=
  (s.link.sends.find? (fun x => !x.bcast && decide (x.entry = i ∧ x.seq = seq) &&
    x.copies.any (fun c => match c.phase with
      | .waiting _ _ => true
      | _ => false))).map (fun x => (x, (x.copies.map (·.n)).headD 0))

/-- An ACK or NACK to 0x0000 (R92, R95, R96). -/
def State.rxAck (s : State) (f : LinkRx) (m : Mac) : State :=
  match s.sender m.src with
  | none => if s.island then s.count AL_CNT.FOREIGN 1 else s
  | some i =>
    match s.pass f i with
    | some t => t
    | none =>
      match s.openFrame m i with
      | none => s.micFail
      | some body =>
        match s.answered i m.seq with
        | none => s
        | some (x, n) =>
          if m.kind = 4 then s.endCopy x.id n stOk (wordBytes f.quality)
          else if u8 body 0 = 1 then s.failAttempt x.id n true
          else if u8 body 0 = 2 then
            (s.putEntry i 10 (leBytes 1 (putBits (s.entNat i 10 1) 1 0 3))).endCopy x.id n stNoAck []
          else s

def execLinkRxAck (s : State) : Result :=
  .next (
    match s.takeRx .ack with
    | none => s
    | some (f, s1) =>
      match parseMac f.bytes with
      | none => s1.afterRx f
      | some m => (s1.rxAck f m).afterRx f)

/-! ### Echo (R97, R99) -/

/-- Two cycle numbers of 32 bits are less than `n` apart; those of two ports may differ either way. -/
def nearCycles (a b n : Nat) : Bool :=
  decide ((a + 2 ^ 32 - b % 2 ^ 32) % 2 ^ 32 < n ∨ (b + 2 ^ 32 - a % 2 ^ 32) % 2 ^ 32 < n)

/-- The frame with HOP + 1 and nothing else changed. -/
def hopOn (m : Mac) (l : List Byte) : List Byte := modNth l (3 + m.dst.length + m.src.length) (fun b => b + 1#8)

def execEchoForwardRx (s : State) : Result :=
  .next (
    match s.takeRx .echo with
    | none => s
    | some (f, s1) =>
      match parseMac f.bytes, s1.ownLane f.lane with
      | some m, some n =>
        match s1.echoPort (n / 64) m with
        | none => s1
        | some b =>
          let key := (leNat m.src, m.seq, (m.route.map (fun r => r.2.1)).getD 0)
          let live := s1.link.echoes.filter (fun e => nearCycles f.endCyc e.2.2.2 64)
          if live.any (fun e => decide ((e.1, e.2.1, e.2.2.1) = key)) then
            { s1 with link := { s1.link with echoes := live } }
          else
            let s2 := { s1 with link := { s1.link with echoes := live ++ [(key.1, key.2.1, key.2.2, f.endCyc)] } }
            s2.modPort b (fun x => { x with waits := x.waits ++ [.fwd (n % 64) ((f.endCyc + 2) % 2 ^ 32) (hopOn m f.bytes) f.cp] })
      | _, _ => s1)

/-! ### Joining (R103 to R105, R108) -/

/-- Cycle `a` is later than cycle `b`, numbers of 32 bits that wrap. -/
def laterCycle (a b : Nat) : Bool := decide (0 < (a + 2 ^ 32 - b % 2 ^ 32) % 2 ^ 32 ∧ (a + 2 ^ 32 - b % 2 ^ 32) % 2 ^ 32 < 2 ^ 31)

/-- LP_JOIN holds a valid value (R108). -/
def joinValid (v : Nat) : Bool :=
  let reqLo := bits v 5 0
  let reqHi := bits v 13 8
  let ansLo := bits v 21 16
  let ansHi := bits v 29 24
  decide (3 ≤ reqLo ∧ 3 ≤ ansLo ∧ reqLo ≤ reqHi ∧ ansLo ≤ ansHi ∧ ansHi - ansLo ≤ 15 ∧ (ansHi < reqLo ∨ reqHi < ansLo))

def State.joinOk (s : State) (p : Nat) : Bool := joinValid (s.reg (LP_JOIN p)).toNat

/-- ANS_WIN in cycles: 0 acts as 1 (LP_LINK). -/
def State.ansCycles (s : State) (p : Nat) : Nat := 8 * max (s.get (LP_LINK.ANS_WIN p)) 1

/-- The answer lane of a request on lane k (R103). -/
def State.ansLane (s : State) (p k : Nat) : Nat :=
  s.get (LP_JOIN.ANS_LO p) + k % (s.get (LP_JOIN.ANS_HI p) + 1 - s.get (LP_JOIN.ANS_LO p))

/-- Queue a JOIN_ACK (R104). What SEQ it carries is open; SHORT and HOME of one that admits nobody are sent as 0 (log 31). -/
def State.queueJoin (s : State) (f : LinkRx) (n : Nat) (m : Mac) (result : Nat) (entry : Option Nat) : State :=
  let p := n / 64
  let sq := s.free 256
  let short := (entry.map (· + 1)).getD 0
  let home := (entry.map (fun i => s.entCp i * 64 + s.entLane i % 64)).getD 0
  let mac : MacOut :=
    { head := fctl 2 true false true true false ++ leBytes 1 sq.1 ++ m.src ++ s.ownEui, slv := 2,
      body := leBytes 1 result ++ leBytes 2 short ++ leBytes 1 home, entry := none, eui := m.src, gen := u8 m.rest 8 }
  let j : PendJoin :=
    { k := s.ansLane p (n % 64), first := (f.endCyc + 2) % 2 ^ 32, last := (f.endCyc + 1 + s.ansCycles p) % 2 ^ 32,
      mac := mac, frame := [], eui := m.src, seq := m.seq }
  sq.2.modPort p (fun x => { x with joins := x.joins ++ [j] })

/-- HOME of a joining entry: the request's lane and that lane's CP, written only while SET = 0 (R89). -/
def State.setHome (s : State) (i n lane : Nat) : State :=
  s.putEntry i 32 (leBytes 2 (s.entHome i / 4096 * 4096 + 2048 + s.get (LN_TXCFG.CP n) * 512 + lane))

/-- A JOIN_REQ handled before is remembered until its answer window ends (log 31). -/
def State.joinLives (s : State) (f : LinkRx) (j : JoinSeen) : Bool :=
  !laterCycle f.endCyc ((j.endCyc + 1 + s.ansCycles (j.port % 4)) % 2 ^ 32)

/-- The request of which this frame is a further copy (R105). -/
def State.joinSeen (s : State) (f : LinkRx) (m : Mac) : Option JoinSeen :=
  s.link.joined.find? (fun j => decide (j.eui = m.src ∧ j.seq = m.seq) && s.joinLives f j)

/-- A JOIN_REQ is remembered for its further copies (R105). -/
def State.noteJoin (s : State) (f : LinkRx) (m : Mac) (port : Nat) (entry : Option Nat) (homed : Bool) : State :=
  let live := s.link.joined.filter (fun j => s.joinLives f j && !decide (j.eui = m.src ∧ j.seq = m.seq))
  { s with link := { s.link with joined := live ++
    [{ eui := m.src, seq := m.seq, endCyc := f.endCyc, port := port, corr := bits (nth 0 f.quality 0).toNat 31 24,
       best := f.lane / 64, entry := entry, homed := homed, closed := false }] } }

/-- An entry joins (R104). -/
def State.allot (s : State) (f : LinkRx) (n : Nat) (m : Mac) (i : Nat) : State :=
  if u32 m.rest 1 ≤ s.entNat i 16 4 then (s.count LK_CNT.REPLAY 1).setEvt LK_EVT.REPLAY
  else
    let s1 := s.putEntry i 10 (leBytes 1 (putBits (s.entNat i 10 1) 1 0 2) ++ leBytes 1 0 ++ leBytes 1 m.seq)
    let s2 := (s1.putEntry i 14 (leBytes 2 1 ++ leBytes 4 (u32 m.rest 1))).putEntry i 34 (leBytes 1 (u8 m.rest 8))
    let homed := !s2.entSet i
    let s3 := if homed then s2.setHome i n f.lane else s2
    (s3.noteJoin f m (n / 64) (some i) homed).queueJoin f n m 0 (some i)

/-- The first copy of a JOIN_REQ that has passed its checks (R104). -/
def State.firstJoin (s : State) (f : LinkRx) (n : Nat) (m : Mac) : State :=
  match s.findEui m.src with
  | some i => s.allot f n m i
  | none =>
    match s.findEmpty with
    | none => (((s.noteJoin f m (n / 64) none false).setEvt LK_EVT.REGISTRY_FULL)).queueJoin f n m 1 none
    | some i =>
      if s.flag LK_CFG.AUTO_ADMIT then
        ((s.putEntry i 0 m.src).putEntry i 8 (leBytes 2 (i + 1))).allot f n m i
      else ((s.noteJoin f m (n / 64) none false).setEvtWith LK_EVT.JOIN_UNKNOWN m.src).queueJoin f n m 2 none

/-- A later copy of a JOIN_REQ (R105): heard better, or as well on a lower port, it moves the answer to its own port. -/
def State.laterJoin (s : State) (f : LinkRx) (m : Mac) (j : JoinSeen) : State :=
  let c := bits (nth 0 f.quality 0).toNat 31 24
  if j.closed ∨ ¬ (j.corr < c ∨ (c = j.corr ∧ f.lane / 64 < j.best)) then s
  else
    let mine := (List.range 4).flatMap (fun p => (s.port p).joins.filter (fun x => decide (x.eui = m.src ∧ x.seq = m.seq)))
    let entry := j.entry.orElse (fun _ => s.findEui m.src)
    let result := (mine.head?.map (fun x => u8 x.mac.body 0)).getD
      (if entry.isSome then 0 else if s.findEmpty.isNone then 1 else 2)
    let homed := j.homed || entry.any (fun i => j.entry.isNone && decide (s.entLane i / 64 = j.best))
    let s1 := foldState (List.range 4) (fun p t => t.modPort p (fun x =>
      { x with joins := x.joins.filter (fun y => ¬ (y.eui = m.src ∧ y.seq = m.seq)) })) s
    let seen := s1.link.joined.map (fun x => if x.eui = m.src ∧ x.seq = m.seq then 
      { x with corr := c, best := f.lane / 64, entry := entry, homed := homed } else x)
    let s2 := { s1 with link := { s1.link with joined := seen } }
    match s2.ownLane f.lane with
    | none => s2
    | some n =>
      let s3 := match entry, homed with
        | some i, true => s2.setHome i n f.lane
        | _, _ => s2
      if s3.joinOk (n / 64) then s3.queueJoin f n m result entry else s3

/-- A JOIN_REQ can be authenticated: a long SRC, SEC = 1 at level 2 under the link key, and a body of 4 bytes or more. -/
def State.joinTag (s : State) (m : Mac) : Bool :=
  decide (m.src.length = 8 ∧ m.sec ∧ 17 ≤ m.rest.length ∧ u8 m.rest 0 = 2) &&
    (s.unseal m.src (u8 m.rest 8) 2 (u32 m.rest 1) (m.head ++ m.rest.take 5) (m.rest.drop 5)).isSome

/-- A JOIN_REQ (R104, R105, R108). -/
def State.rxJoin (s : State) (f : LinkRx) (m : Mac) : State :=
  if s.island ∧ ¬ (s.sender m.src).any (fun i => s.al.pinned.contains i) then s.count AL_CNT.FOREIGN 1
  else
    let away := s.paired && !s.linkUp && (s.sender m.src).any (fun i => !s.acting i)
    if away then s.count AL_CNT.FOREIGN 1
    else
      match s.ownLane f.lane with
      | none =>
        -- A copy the other unit heard: it answers there if it was heard better (R323).
        match s.joinSeen f m with
        | some j => s.laterJoin f m j
        | none => s.noteJoin f m 0 none false
      | some n =>
        if ¬ s.joinTag m then s.micFail
        else if ¬ s.joinOk (n / 64) ∨ m.rest.length ≠ 17 ∨ 2 ≤ u8 m.rest 7 then s
        else
          let s1 := if s.paired ∧ s.linkUp then { s with al := { s.al with outbox := s.al.outbox ++ [.frame f] } } else s
          match s1.joinSeen f m with
          | some j => s1.laterJoin f m j
          | none => s1.firstJoin f n m

def execJoinReqRx (s : State) : Result :=
  .next (
    match s.takeRx .join with
    | none => s
    | some (f, s1) =>
      match parseMac f.bytes with
      | none => s1.afterRx f
      | some m => (s1.rxJoin f m).afterRx f)

/-- A JOIN_ACK of lane k of port p holds a context. -/
def State.joinHeld (s : State) (p k : Nat) : Bool :=
  (s.ctxs p).any (fun c => decide (c.2.k = k ∧ c.2.kind = .joinAck) && !c.2.started)

/-- The JOIN_ACKs of port p that hold no context: on each lane the first may hold one. -/
def State.freeJoins (s : State) (p : Nat) (l : List PendJoin) (seen : List Nat) : List PendJoin :=
  match l with
  | [] => []
  | j :: t => (if s.joinHeld p j.k ∧ ¬ seen.contains j.k then [] else [j]) ++ s.freeJoins p t (j.k :: seen)

/-- Remove the first occurrence of a JOIN_ACK. -/
def State.dropJoin (s : State) (p : Nat) (j : PendJoin) : State := s.modPort p (fun x => { x with joins := x.joins.erase j })

def execJoinAckLate (p : Port) (s : State) : Result :=
  .next (
    match s.freeJoins p (s.port p).joins [] with
    | [] => s
    | j :: _ =>
      if s.locked p ∧ ¬ laterCycle (s.get (LP_MCYC.CYCLE p) + 1) j.last then s
      else (s.dropJoin p j).count LK_CNT.JOIN_LATE 1)

/-- A write of LP_JOIN: one that would leave it invalid is discarded, with a REFUSED event (R108). -/
def State.writeLpJoin (s : State) (who : Accessor) (p : Nat) (value : Word) : State :=
  let v := value &&& 0x3F3F3F3F#32
  if joinValid v.toNat then s.setReg (LP_JOIN p) v else s.refuse who (LP_JOIN p) stNotPermitted

def execLpJoinWrite (who : Accessor) (p : Port) (value : Word) (s : State) : Result :=
  .next (s.enter who (LP_JOIN p) (fun t => t.writeLpJoin who p value))

/-! ### Attempts (R95, R96) -/

/-- The sends with this tag whose copy satisfies `f`, with its lane. -/
def State.copyWith (s : State) (tag : Nat) (f : Copy → Bool) : Option (SendSt × Copy) :=
  (s.link.sends.filterMap (fun x => if x.tag = tag then (x.copies.find? f).map (fun c => (x, c)) else none)).head?

def execAckTimeout (tag : TagN) (s : State) : Result :=
  .next (
    match s.copyWith tag (fun c => match c.phase with
        | .waiting _ late => !late
        | _ => false) with
    | none => s
    | some (x, c) =>
      match c.phase with
      | .waiting d _ =>
        if s.locked (c.n / 64) ∧ ¬ laterCycle (s.get (LP_MCYC.CYCLE (c.n / 64))) d then s
        else if s.mayAnswer x c.n then s.modCopy x.id c.n (fun y => { y with phase := .waiting d true })
        else s.failAttempt x.id c.n false
      | _ => s)

/-- The back-off of a copy has lasted its cycles; without a mains lock the port numbers none (log 29). -/
def State.backedOff (s : State) (p : Nat) (c : Copy) : Bool :=
  match c.phase with
  | .backoff till => !s.locked p || !laterCycle till (s.get (LP_MCYC.CYCLE p))
  | _ => false

def execRetryBackoffEnd (tag : TagN) (p : Port) (s : State) : Result :=
  .next (
    match s.copyWith tag (fun c => decide (c.n / 64 = p.val ∧ c.result = none) && (s.backedOff p c)) with
    | none => s
    | some (x, c) => s.modCopy x.id c.n (fun y => { y with phase := .retry }))

/-! ### Sends (R207) -/

/-- The transmit item of a link-layer frame (R71); FC and tag stand as zeros until the frame is protected. -/
def itemBytes (m : MacOut) (cp : Nat) (full timed : Bool) (prio ref notBefore : Nat) : List Byte :=
  let pay := m.head ++ leBytes 1 m.slv ++ [0#8, 0#8, 0#8, 0#8] ++ m.body ++ List.replicate 8 0#8
  leBytes 1 pay.length ++ leBytes 1 (cp * 64 + b2n full * 32 + b2n timed * 16 + prio) ++ leBytes 2 ref ++ leBytes 4 notBefore ++
    List.replicate 8 0#8 ++ pay

/-- Bytes of the MAC frame that a protected body makes. -/
def macLen (m : MacOut) : Nat := m.head.length + 13 + m.body.length

/-- Put a copy's item into its lane's LN_TXQ; a copy that may not be sent, or whose item is refused, fails at once (R207). -/
def State.queueCopy (s : State) (x : SendSt) (n : Nat) (timed : Bool) (notBefore : Nat) : Copy × State :=
  let c : Copy := { n := n, item := 0, attempts := 0, phase := .queued, result := none, defer := 0, frame := [] }
  if ¬ s.flag (LN_TXCFG.TX_EN n) then ({ c with result := some stNotPermitted }, s)
  else
    let r := s.putPacket (.engine 1) (s.get (LN_TXQ.QUEUE n)) (itemBytes x.mac x.cp x.full timed x.prio x.tag notBefore)
    let s1 := r.2.1.tellPool r.2.2
    if r.1 = 1 then ({ c with item := s1.pool.commits }, s1) else ({ c with result := some stQueueFull }, s1)

/-- Copies on several lanes. -/
def State.queueCopies (s : State) (x : SendSt) (l : List Nat) (timed : Bool) (notBefore : Nat) : List Copy × State :=
  match l with
  | [] => ([], s)
  | n :: t =>
    let r := s.queueCopy x n timed notBefore
    let r2 := State.queueCopies r.2 x t timed notBefore
    (r.1 :: r2.1, r2.2)

/-- Start a send on the lanes given. -/
def State.startSend (s : State) (x : SendSt) (lanes : List Nat) (timed : Bool) (notBefore : Nat) : State :=
  let r := s.queueCopies x lanes timed notBefore
  let y := { x with copies := r.1 ++ x.copies }
  ({ r.2 with link := { r.2.link with sends := r.2.link.sends ++ [y] } }).judge x.id []

/-- The unicast frame of a SEND to entry `i` (R87, R97). -/
def State.sendMac (s : State) (i seq : Nat) (ackreq lcmd : Bool) (body : List Byte) : MacOut :=
  let n := s.entHops i
  { head := fctl (if 0 < n then 6 else 3) true ackreq false false lcmd ++ leBytes 1 seq ++ leBytes 2 (i + 1) ++
      [0#8, 0#8] ++ (if 0 < n then leBytes 1 (3 * 32 + n) ++ [0#8] ++ s.entPath i n else []),
    slv := 6, body := body, entry := some i, eui := [], gen := 0 }

/-- The frame of a BROADCAST (R87). -/
def bcastMac (seq : Nat) (lcmd : Bool) (body : List Byte) : MacOut :=
  { head := fctl 3 true false false false lcmd ++ leBytes 1 seq ++ [0xFF#8, 0xFF#8, 0#8, 0#8], slv := 0x0E, body := body,
    entry := none, eui := [], gen := 0 }

/-- The fields of a SEND descriptor are in range (R206, R207). -/
def State.sendForm (s : State) (d : List Byte) : Bool :=
  decide (u8 d 10 < 128 ∧ u8 d 11 < 8 ∧ 1 ≤ u16 d 8 ∧ u16 d 8 ≤ s.entries) && zeros d 12 15 && zeros d 28 63

/-- What word 1 of the meter's entry gives a SEND as it is read: PATH, PATH_LEN and the CP of HOME (R89, R97). -/
def State.readWord1 (s : State) (x : SendSt) : SendSt :=
  if x.bcast then x
  else
    let n := s.entHops x.entry
    { x with cp := x.ovr.getD (s.entCp x.entry), full := x.fullAsk || decide (0 < n), nhop := n,
             mac := s.sendMac x.entry x.seq x.ackreq x.lcmd x.mac.body }

/-- The frame of a SEND descriptor to entry `i`, as word 1 stands when the descriptor is taken. -/
def State.firstMac (s : State) (i : Nat) (d body : List Byte) : MacOut :=
  s.sendMac i (s.entNat i 11 1) (bit (u8 d 10) 0) (bit (u8 d 10) 1) body

/-- Start a SEND to entry `i` whose checks have passed, on this unit's lane n; TX_SEQ rises (R93). -/
def State.runSend (s : State) (id tag : Nat) (handoff : Option Nat) (d : List Byte) (i n : Nat) (body : List Byte) : State :=
  let f := u8 d 10
  let x : SendSt :=
    { id := id, tag := tag, bcast := false, entry := i, seq := s.entNat i 11 1, ackreq := bit f 0, prio := u8 d 11, cp := 0,
      full := false, nhop := 0, mac := s.firstMac i d body, copies := [], busy := false, handoff := handoff, lcmd := bit f 1,
      ovr := if bit f 4 then some (bits f 6 5) else none, fullAsk := bit f 2 }
  (s.putEntry i 11 (leBytes 1 (x.seq + 1))).startSend (s.readWord1 x) [n] (bit f 3) (u32 d 16)

/-- The fields of a BROADCAST descriptor are in range; in a pair's lead PORTS has eight bits (R322). -/
def bcastForm (d : List Byte) (wide : Bool) : Bool :=
  decide (u8 d 8 ≠ 0 ∧ (wide = true ∨ u8 d 8 < 16) ∧ u8 d 9 = 0 ∧ u8 d 11 < 8 ∧ u8 d 12 < 64) &&
    decide (u8 d 10 &&& 0x95 = 0) && zeros d 13 15 && zeros d 28 63

/-- Start a BROADCAST on this unit's lanes; `far` are the copies handed to the other unit (R325). -/
def State.runBcast (s : State) (id tag : Nat) (handoff : Option Nat) (d : List Byte) (seq : Nat) (lanes far : List Nat)
    (mac : MacOut) : State :=
  let f := u8 d 10
  let x : SendSt :=
    { id := id, tag := tag, bcast := true, entry := 0, seq := seq, ackreq := false, prio := u8 d 11, cp := bits f 6 5,
      full := true, nhop := 0, mac := mac, busy := false, handoff := handoff,
      copies := far.map (fun n => { n := n, item := 0, attempts := 0, phase := .queued, result := none, defer := 0, frame := [] }) }
  s.startSend x lanes (bit f 3) (u32 d 16)

/-! ### Writes of registry word 0 by the host (R89, R328) -/

/-- A write of the 32-bit part at `a`, which lies in word 0 of an entry. -/
def State.writeWord0 (s : State) (a : Nat) (value : Word) : State :=
  let i := (a - s.regBase) / 64
  let j := (a - s.regBase) % 64 / 4
  let pinnedAway := s.paired && !s.linkUp && s.al.pinned.contains i
  if pinnedAway then s.refuse .host a stNotPermitted
  else if s.entState i = 0 then s.putEntry i (4 * j) (leBytes 4 value.toNat)
  else if j = 2 ∧ bits value.toNat 17 16 = 0 then s.putEntry i 10 (leBytes 1 (putBits (s.entNat i 10 1) 1 0 0))
  else s.refuse .host a stNotPermitted

def execRegistryWord0Write (addr : Word) (value : Word) (s : State) : Result :=
  .next (
    let a := addr.toNat - addr.toNat % 4
    if s.reach .host ∧ s.partOf a = some .registry ∧ a < s.regBase + 64 * s.entries ∧ (a - s.regBase) % 64 < 32 then
      s.writeWord0 a value
    else s)

end Sys2Proof.Machine
end

