-- ==== Sys2Proof/Machine/Uart.lean ====
section
/-! DEFINITION. The UARTs (12): characters into the pool, flow control, and the transmitter. -/

namespace Sys2Proof.Machine

/-- UART u runs. -/
def State.uaOn (s : State) (u : Nat) : Bool := s.flag (UA_CFG.ENABLE u) && s.seqMode

/-- XON/XOFF is in use (R253). -/
def State.uaFlowOn (s : State) (u : Nat) : Bool := s.flag (UA_FLOW.XEN u) && !s.flag (UA_CFG.NINE u)

/-- The receive queue. -/
def State.uaQueue (s : State) (u : Nat) : Nat := s.get (UA_RX.QUEUE u)

/-! ### Frame and line (R245, R246, R252, R254) -/

/-- Data bits of a character. -/
def State.uaWidth (s : State) (u : Nat) : Nat :=
  if s.flag (UA_CFG.NINE u) then 9 else if s.flag (UA_CFG.DATA7 u) then 7 else 8

/-- Parity in use: none, even or odd; 3 acts as none. -/
def State.uaParity (s : State) (u : Nat) : Option Bool :=
  if s.flag (UA_CFG.NINE u) then none
  else if s.get (UA_CFG.PARITY u) = 1 then some false
  else if s.get (UA_CFG.PARITY u) = 2 then some true else none

/-- The settings in force. -/
def State.uaSet (s : State) (u : Nat) : UaSet :=
  ⟨s.uaWidth u, s.uaParity u, s.flag (UA_CFG.STOP2 u), 64 * s.get (UA_BAUD.DIV_I u) + s.get (UA_BAUD.DIV_F u)⟩

/-- The bits of a character's frame: start, data, parity, stop (R245). -/
def UaSet.frame (x : UaSet) (data : Nat) : List Bool :=
  let d := (List.range x.width).map (fun i => bit data i)
  let p := match x.parity with
    | none => []
    | some odd => [d.foldl xor odd]
  false :: (d ++ p ++ (if x.stop2 then [true, true] else [true]))

/-- Bits of a frame up to its first stop bit. -/
def UaSet.bits (x : UaSet) : Nat := 2 + x.width + b2n x.parity.isSome

/-- The levels of one bit at UTXu over its 16 sample periods (R254). On U4 in NRZ the active level is that of a 1 bit (DESIGN CHOICE,
log 68). -/
def State.utxBit (s : State) (u : Nat) (b : Bool) : List Bool :=
  let pol := decide (u = 4) && s.flag (UA_OPT.TX_POL u)
  (List.range 16).map (fun i =>
    if u = 4 ∧ s.flag (UA_OPT.SIR u) then xor pol (!b && decide (7 ≤ i ∧ i < 10)) else xor pol b)

/-- What UTXu drives: the character being sent, or the idle line. -/
def State.utxPin (s : State) (u : Nat) : List Bool :=
  match (s.uart u).cur with
  | none => s.utxBit u true
  | some c => (c.set.frame c.data).flatMap (fun b => s.utxBit u b)

/-- The level of UDEu (R252, R259). -/
def State.udePin (s : State) (u : Nat) : Bool := xor (s.flag (UA_STAT.DE u)) (s.flag (UA_DE.POL u))

/-! ### Sending (R252, R253, R257) -/

/-- Sends at the front that have no character left complete OK; INFO gives the characters sent. -/
def State.uaFinish (s : State) (fuel : Nat) (u : Nat) : State :=
  match fuel with
  | 0 => s
  | fuel + 1 =>
    match (s.uart u).sends with
    | [] => s
    | x :: t =>
      if x.sent < x.chars.length then s
      else
        let s1 := (s.modUart u (fun y => { y with sends := t })).complete x.tag stOk x.sent []
        State.uaFinish s1 fuel u

/-- A character starts under the settings in force: UDE asserts on U0 to U3. -/
def State.uaStart (s : State) (u c : Nat) (tag : Option Nat) : State :=
  let s1 := (s.modUart u (fun y => { y with cur := some ⟨c, tag.isNone, tag, s.uaSet u⟩, deaf := false })).putFlag (UA_STAT.TX_BUSY u) true
  if u < 4 then s1.putFlag (UA_STAT.DE u) true else s1

/-- The transmitter takes its next character: a flow character first, then one of the first send unless XOFF holds it. -/
def State.uaKick (s : State) (u : Nat) : State :=
  if (s.uart u).cur.isSome ∨ ¬ s.uaOn u then s
  else
    match (s.uart u).flow with
    | c :: t => (s.modUart u (fun y => { y with flow := t })).uaStart u c none
    | [] =>
      if s.uaFlowOn u ∧ s.flag (UA_STAT.XOFF_RX u) then s
      else
        let s1 := s.uaFinish ((s.uart u).sends.length + 1) u
        match (s1.uart u).sends with
        | [] => s1
        | x :: _ => s1.uaStart u (nth 0 x.chars x.sent) (some x.tag)

/-- The last flow character owed, on the wire or sent is XOFF. -/
def State.uaHeld (s : State) (u : Nat) : Bool :=
  match (s.uart u).flow.getLast?, (s.uart u).cur with
  | some c, _ => decide (c = 0x13)
  | none, some ⟨c, true, _, _⟩ => decide (c = 0x13)
  | none, _ => s.flag (UA_STAT.XOFF_TX u)

/-- XOFF when USED of the receive queue reaches XOFF_AT, XON when it has fallen to XON_AT after an XOFF. -/
def State.uaFlow (s : State) (u : Nat) : State :=
  if ¬ s.uaOn u ∨ ¬ s.uaFlowOn u then s
  else
    let used := s.usedCells (s.uaQueue u)
    if ¬ s.uaHeld u then
      if s.get (UA_FLOW.XOFF_AT u) ≤ used then
        (s.modUart u (fun y => { y with flow := y.flow ++ [0x13] })).uaKick u else s
    else if used ≤ s.get (UA_FLOW.XON_AT u) then
      (s.modUart u (fun y => { y with flow := y.flow ++ [0x11] })).uaKick u
    else s

/-- After words have left queues, the flow of every UART is judged. -/
def State.uaFlows (s : State) : State := foldState (List.range 6) (fun u t => t.uaFlow u) s

/-! ### Into the pool (R256) -/

/-- Write the word being filled. A packet that its queue has refused is lost. -/
def State.uaWord (s : State) (u : Uart) (eop rto : Bool) : State :=
  let x := s.uart u
  let q := s.uaQueue u
  let last := eop || (decide (s.get (UA_RX.PKT_MAX u) ≠ 0) && decide (s.get (UA_RX.PKT_MAX u) ≤ x.words + 1))
  let r := s.putWord (.uart u) q (mkLine 2 x.units last rto false)
  let s1 := (r.2.1.tellPool r.2.2).modUart u (fun y => { y with units := [], words := if last then 0 else y.words + 1 })
  let s2 := if r.1 = 3 ∨ r.1 = 4 then (s1.count (UA_CNT.RX_LOST u) 1).setEvt (UA_EVT.RX_LOST u) else s1
  s2.uaFlow u

/-- Store one unit. -/
def State.uaStore (s : State) (u : Uart) (data : Nat) (parity framing noise brk : Bool) : State :=
  let v := data + 2 ^ 9 * b2n parity + 2 ^ 10 * b2n framing + 2 ^ 11 * b2n noise + 2 ^ 12 * b2n brk
  let s1 := if framing then s.count (UA_CNT.FRAMING u) 1 else s
  let s2 := if parity then s1.count (UA_CNT.PARITY u) 1 else s1
  let s3 := if noise then s2.count (UA_CNT.NOISE u) 1 else s2
  let s4 := s3.modUart u (fun y => { y with units := y.units ++ [v] })
  if brk then s4.uaWord u true false
  else if (s4.uart u).units.length = 15 then s4.uaWord u false false else s4

/-- The device hears its line: not while UDE is asserted, unless LISTEN_TX, nor on U4 while it sends and, for a character that began then
(`near`), in the bit time after (R252, R254). -/
def State.uaHears (s : State) (u : Nat) (near : Bool) : Bool :=
  s.uaOn u && !(decide (u < 4) && s.flag (UA_STAT.DE u) && !s.flag (UA_CFG.LISTEN_TX u)) &&
    !(decide (u = 4) && ((s.uart u).cur.isSome || ((s.uart u).deaf && near)))

/-- Sends of every UART end with a status; INFO gives the characters sent. -/
def State.endUarts (s : State) (status : Nat) : State :=
  foldState (List.range 6) (fun u t =>
    (foldState (t.uart u).sends (fun x v => v.complete x.tag status x.sent []) t).modUart u (fun y => { y with sends := [] })) s

end Sys2Proof.Machine
end

