-- ==== Sys2Proof/Machine/PoolCmd.lean ====
section
/-! DEFINITION. Commands on the pool (07): words of producers, flush and drop-rest, the host queue windows, watermarks, the SRAM
window, the scrubber. -/

namespace Sys2Proof.Machine

/-! ### Producers (R141 to R150, R365) -/

/-- A word of a producer; a window's packet that ends sets its RESULT (R154). -/
def State.produce (s : State) (prod : Producer) (q : Nat) (word : Line) : State :=
  let r := s.putWord prod q word
  let s1 := r.2.1.tellPool r.2.2
  match prod with
  | .win w => if r.1 ≠ 0 ∧ ¬ (s.queue q).stream then s1.put (QP_WIN_STAT.RESULT w) r.1 else s1
  | _ => s1

def execQueueWordWrite (prod : Producer) (q : QId) (word : Line) (s : State) : Result :=
  .next (if s.awake then s.produce prod q word else s)

/-! ### QP_CMD (R147, R148) -/

/-- The window's held parts go, and PART returns to 0. -/
def State.clearWin (s : State) (w : Nat) : State := (s.setWin w {}).put (QP_WIN_STAT.PART w) 0

/-- The windows that hold the head word of queue q, a queue of packets, in part (R147). -/
def State.holders (s : State) (q : Nat) : List Nat :=
  if (s.queue q).stream ∨ ¬ s.ready q then []
  else (s.pool.wins.filter (fun e => decide (s.get (QP_WIN_CFG.QUEUE e.1) = q) &&
    e.2.at_.any (fun x => decide ((s.queue q).chain.head? = some x)))).map (·.1)

/-- Flush and drop-rest, of which a word that a window holds is the first; a UART may now send XON (R253). -/
def State.doFlush (s : State) (q : Nat) : State := let r := s.flush q; (r.1.tellPool r.2).uaFlows
def State.doDropRest (s : State) (q : Nat) : State :=
  let r := (foldState (s.holders q) (fun w t => t.clearWin w) s).dropRest q
  (r.1.tellPool r.2).uaFlows

def execFlush (who : Accessor) (q : QId) (s : State) : Result :=
  .next (s.enter who QP_CMD (fun t => t.doFlush q))

def execDropRest (who : Accessor) (q : QId) (s : State) : Result :=
  .next (s.enter who QP_CMD (fun t => t.doDropRest q))

/-- A write of QP_CMD: other values of OP are ignored. -/
def State.writeQpCmd (s : State) (value : Word) : State :=
  let q := bits value.toNat 9 0
  match bits value.toNat 31 29 with
  | 1 => s.doFlush q
  | 2 => s.doDropRest q
  | _ => s

/-! ### Windows (R154) -/

/-- The window is in use, and produces or consumes. -/
def State.winProduces (s : State) (w : Nat) : Bool := s.flag (QP_WIN_CFG.EN w) && s.flag (QP_WIN_CFG.DIR w)
def State.winConsumes (s : State) (w : Nat) : Bool := s.flag (QP_WIN_CFG.EN w) && !s.flag (QP_WIN_CFG.DIR w)

/-- A packet is open through the window (QP_WIN_STAT.OPEN). -/
def State.winOpen (s : State) (w : Win) : Bool :=
  let q := s.get (QP_WIN_CFG.QUEUE w)
  !(s.queue q).stream && (s.openOf (.win w) q).isSome

/-- QP_WIN_STAT as it reads. -/
def State.winStatWord (s : State) (w : Win) : Word :=
  let empty := s.winConsumes w && !s.ready (s.get (QP_WIN_CFG.QUEUE w))
  BitVec.ofNat 32 (s.get (QP_WIN_STAT.RESULT w) * 2 ^ 29 + b2n (s.winOpen w) * 2 ^ 28 + b2n empty * 2 ^ 27 +
    s.get (QP_WIN_STAT.PART w))

/-- Rewind the packet open through a window. -/
def State.rewindWin (s : State) (w : Win) : State :=
  if s.winOpen w then
    let r := s.rewind (.win w) (s.get (QP_WIN_CFG.QUEUE w))
    (r.1.tellPool r.2).put (QP_WIN_STAT.RESULT w) 5
  else s

/-- A write of QP_WIN_CFG (R154). -/
def State.writeWinCfg (s : State) (w : Win) (value : Word) : State :=
  ((s.rewindWin w).clearWin w).merge (QP_WIN_CFG w) 0xC00003FF value

def execWinCfgWrite (who : Accessor) (w : Win) (value : Word) (s : State) : Result :=
  .next (s.enter who (QP_WIN_CFG w) (fun t => t.writeWinCfg w value))

/-- The word that eight parts make, part 0 lowest. -/
def partsLine (l : List Word) : Line := BitVec.ofNat 256 (leNat (l.flatMap (fun x => leBytes 4 x.toNat)))

/-- A write of QP_WIN_DATA: the eighth appends the word. -/
def State.writeWinData (s : State) (w : Win) (value : Word) : State :=
  if ¬ s.winProduces w then s
  else
    let parts := (s.win w).held ++ [value]
    if parts.length < 8 then
      (s.setWin w { held := parts }).put (QP_WIN_STAT.PART w) parts.length
    else (s.clearWin w).produce (.win w) (s.get (QP_WIN_CFG.QUEUE w)) (partsLine parts)

def execWinDataWrite (w : Win) (value : Word) (s : State) : Result :=
  .next (if s.reach .host then s.writeWinData w value else s)

/-- Part 7 consumes the held word, if it still heads the queue; a UART may now send XON (R253). -/
def State.consumeHeld (s : State) (q : Nat) (x : Option QSlot) : State :=
  if s.ready q ∧ (s.queue q).chain.head? = x then let r := s.popWords q 1; (r.1.tellPool r.2).uaFlows else s

/-- Take the next part of a held word. -/
def State.nextPart (s : State) (w : Win) (q : Nat) : Word × State :=
  let h := s.win w
  let p := s.get (QP_WIN_STAT.PART w)
  (nth 0 h.held p,
    if p = 7 then (s.clearWin w).consumeHeld q h.at_ else s.put (QP_WIN_STAT.PART w) (p + 1))

/-- A read of QP_WIN_DATA; none while the queue is empty, and the read waits (R151). -/
def State.readWinData (s : State) (w : Win) (e : Ecc) : Option Word × State :=
  let q := s.get (QP_WIN_CFG.QUEUE w)
  if ¬ s.winConsumes w then (some 0, s)
  else if (s.win w).held ≠ [] then let r := s.nextPart w q; (some r.1, r.2)
  else
    match s.peekWord q e with
    | (none, s1, l) => (none, s1.tellPool l)
    | (some (line, slot), s1, l) =>
      let parts := (List.range 8).map (fun i => BitVec.ofNat 32 (bits line.toNat (32 * i + 31) (32 * i)))
      let r := ((s1.tellPool l).setWin w { held := parts, at_ := some slot }).nextPart w q
      (some r.1, r.2)

/-- The window whose part-0 read waits is remembered by the host port. -/
def State.setWait (s : State) (w : Option Nat) : State := { s with hp := { s.hp with wait := w } }

def execWinDataRead (w : Win) (ecc : Ecc) (s : State) : Result :=
  .next (
    if ¬ s.reads .host then s
    else
      match s.readWinData w ecc with
      | (none, s1) => s1.setWait (some w)
      | (some v, s1) => (s1.setWait none).answer .host v)

/-- The held read ends with 0 (R151). -/
def State.timeoutRead (s : State) : State := s.putFlag HP_STAT.EMPTY_TIMEOUT true

/-- The wait of R151 ends; a commit in the same cycle wins. -/
def execWinEmptyTimeout (w : Win) (s : State) : Result :=
  .next (
    if ¬ s.reads .host ∨ s.hp.wait ≠ some w.val then s
    else
      match s.readWinData w .clean with
      | (none, s1) => ((s1.setWait none).timeoutRead).answer .host 0
      | (some v, s1) => (s1.setWait none).answer .host v)

def execWinRewind (w : Win) (s : State) : Result :=
  .next (if s.reach .host then s.rewindWin w else s)

/-- Drop-rest on the queue of a window, whatever its EN and DIR: a word that it holds is the first word of the drop (R147). -/
def State.winDropRest (s : State) (w : Win) : State :=
  let q := s.get (QP_WIN_CFG.QUEUE w)
  if (s.queue q).stream then s
  else
    match (s.win w).at_ with
    | none => s.doDropRest q
    | some x =>
      let s1 := s.clearWin w
      -- Words of the held word's packet that still stand in the queue go.
      if (s1.queue q).chain.head?.any (fun y => decide (y.seq = x.seq)) then s1.doDropRest q else s1

def execWinDropRest (w : Win) (s : State) : Result :=
  .next (if s.reach .host then s.winDropRest w else s)

/-- RESTART: PART = 0; a producing window discards the parts it has taken. -/
def State.winRestart (s : State) (w : Win) : State :=
  if s.winProduces w then s.clearWin w else s.put (QP_WIN_STAT.PART w) 0

def execWinRestart (w : Win) (s : State) : Result :=
  .next (if s.reach .host then s.winRestart w else s)

/-- A write of QP_WIN_CMD: its bits in their order. -/
def State.writeWinCmd (s : State) (w : Win) (value : Word) : State :=
  let s1 := if bit value.toNat 31 then s.rewindWin w else s
  let s2 := if bit value.toNat 30 then s1.winDropRest w else s1
  if bit value.toNat 29 then s2.winRestart w else s2

/-! ### QP_QSTAT, QP_QWM and QP_QLVL -/

/-- The queue that QP_QSEL selects. -/
def State.qsel (s : State) : Nat := s.get QP_QSEL.QUEUE

/-- QP_QWM as it reads. -/
def State.qwmWord (s : State) : Word :=
  let x := s.queue s.qsel
  BitVec.ofNat 32 (x.wmHi * 2 ^ 16 + x.wmLo)

/-- QP_QLVL as it reads. -/
def State.qlvlWord (s : State) : Word :=
  BitVec.ofNat 32 (clampNat 4095 (s.pkts s.qsel) * 2 ^ 20 + s.level s.qsel)

/-- QP_QSTAT as it reads. -/
def State.qstatWord (s : State) : Word :=
  let q := s.qsel
  let x := s.queue q
  let used := s.usedCells q
  BitVec.ofNat 32 (if ¬ x.en then 0 else
    b2n x.en * 2 ^ 31 + x.fmt * 2 ^ 29 + b2n x.stream * 2 ^ 28 + b2n (s.queueFull q) * 2 ^ 27 + b2n x.broken * 2 ^ 26 +
      b2n (decide (x.wmHi ≠ 0 ∧ x.wmHi ≤ used)) * 2 ^ 25 + b2n (decide (x.wmLo ≠ 0xFFFF ∧ used ≤ x.wmLo)) * 2 ^ 24 +
      b2n x.wmhL * 2 ^ 23 + b2n x.wmlL * 2 ^ 22 + b2n x.ovr * 2 ^ 21 + used)

/-- A write of QP_QSTAT clears the latches named by ones (R5). -/
def State.writeQstat (s : State) (value : Word) : State :=
  let v := value.toNat
  s.modQueue s.qsel (fun x =>
    { x with wmhL := x.wmhL && !bit v 23, wmlL := x.wmlL && !bit v 22, ovr := x.ovr && !bit v 21 })

/-- A write of QP_QWM: the level bits follow, no latch is set (R152). -/
def State.writeQwm (s : State) (value : Word) : State :=
  if ¬ (s.queue s.qsel).en then s
  else s.modQueue s.qsel (fun x => { x with wmHi := bits value.toNat 31 16, wmLo := bits value.toNat 15 0 })

def execQwmWrite (who : Accessor) (value : Word) (s : State) : Result :=
  .next (s.enter who QP_QWM (fun t => t.writeQwm value))

/-! ### The SRAM window (R132, R137) -/

/-- A host read of the 32-bit part at `a`: the value, and the state after. -/
def State.readSram (s : State) (a : Nat) (e : Ecc) : Word × State :=
  if s.partOf a = none then (0, s.refuse .host a stNotPermitted)
  else
    let r := s.eccRead a e
    let s1 := r.1.tellPool r.2
    (s1.sramPart a, s1)

/-- `a` is an address of the SRAM window. -/
def inSram (a : Nat) : Bool := decide (sramBase ≤ a ∧ a < sramEnd)

def execSramWindowRead (addr : Word) (ecc : Ecc) (s : State) : Result :=
  .next (
    let a := addr.toNat - addr.toNat % 4
    if s.reads .host ∧ inSram a then let r := s.readSram a ecc; r.2.answer .host r.1 else s)

/-- A host write of the 32-bit part at `a`. -/
def State.writeSram (s : State) (a : Nat) (value : Word) : State :=
  match s.partOf a with
  | some .capture => (s.readSpan a 4).setPart a (leBytes 4 value.toNat)
  | some .code => if s.mode = 3 then (s.readSpan a 4).setPart a (leBytes 4 value.toNat) else s.refuse .host a stNotPermitted
  | some .registry =>
    if (a - s.regBase) % 64 < 32 then s.writeWord0 a value
    else s.putEntry ((a - s.regBase) / 64) ((a - s.regBase) % 64) (leBytes 4 value.toNat)
  | _ => s.refuse .host a stNotPermitted

def execSramWindowWrite (addr : Word) (value : Word) (s : State) : Result :=
  .next (
    let a := addr.toNat - addr.toNat % 4
    if s.reach .host ∧ inSram a then s.writeSram a value else s)

/-! ### The scrubber (R135) -/

/-- Bank `b` is powered: all are above Sentinel, and the scrubber stands still below. -/
def State.scrubNext (s : State) : State :=
  if s.pool.scrub + 1 < 524288 then { s with pool := { s.pool with scrub := s.pool.scrub + 1 } }
  else
    let s1 := { s with pool := { s.pool with scrub := 0 } }
    (s1.put QP_SCRUB.PASSES (s1.get QP_SCRUB.PASSES + 1)).setEvt QP_EVT.SCRUB_PASS

/-- The scrubber reads its next word. A word that is poisoned already is counted again in UNCORR (R134, log 18). -/
def execScrubRead (ecc : Ecc) (s : State) : Result :=
  .next (
    if s.awake ∧ s.flag QP_SCRUB.EN then
      let a := sramBase + 32 * s.pool.scrub
      let r := s.eccRead a ecc
      let s1 := r.1.tellPool r.2
      (if s.poisoned a then s1.count (QP_ECC.UNCORR (bits (a - sramBase) 23 20)) 1 else s1).scrubNext
    else s)

end Sys2Proof.Machine
end

