-- ==== Sys2Proof/Machine/Tx.lean ====
section
/-! DEFINITION. Transmission on the line ports: allocation of contexts, the frames' start and end, reports, and the overcurrent mute
(R27, R32, R35, R71 to R75, R94, R100, R369). -/

namespace Sys2Proof.Machine

/-! ### Contexts -/

/-- How many of the eight contexts the list holds. -/
def ctxCount (l : List (Nat × TxCtx)) : Nat := ((List.range 8).filter (fun i => l.any (fun c => decide (c.1 % 8 = i)))).length

/-- Show the contexts of port p and of its lane k: LP_STAT.TX_CNT, LN_TXCFG.ACTIVE and CTX. -/
def State.showCtx (s : State) (p k : Nat) : State :=
  let l := s.ctxs p
  let s1 := s.put (LP_STAT.TX_CNT p) (ctxCount l)
  match l.find? (fun c => c.2.k = k) with
  | none => s1.putFlag (LN_TXCFG.ACTIVE (p * 64 + k)) false
  | some c => (s1.putFlag (LN_TXCFG.ACTIVE (p * 64 + k)) true).put (LN_TXCFG.CTX (p * 64 + k)) (c.1 % 8)

/-- Put or free the context with key `c`. -/
def State.setCtx (s : State) (p c : Nat) (x : Option TxCtx) : State :=
  s.modPort p (fun y => { y with ctxs := mset noneDef y.ctxs c x })

/-- The context with key `c`. -/
def State.ctx (s : State) (p c : Nat) : Option TxCtx := mget noneDef (s.port p).ctxs c

/-- The mask a frame on lane k sends under now (R66, R67). -/
def State.txMask (s : State) (p k : Nat) (full : Bool) : Nat :=
  if full then s.fullMask p else s.cutMask p (s.lane (p * 64 + k)).mask

/-- The frame ends before the cycle `coming` starts. A tone lasts one cycle (R34). -/
def State.endsBefore (s : State) (p : Nat) (x : TxCtx) (coming : Nat) : Bool :=
  let e := max (ones (s.slots p) x.mask) 1
  let last := x.cyc + (if x.kind = .tone then 0 else (frameLen x.frame.length x.cp - 1) / e)
  x.started && laterCycle coming last

/-- Contexts still held at the coming cycle start (R73). -/
def State.heldAt (s : State) (p coming : Nat) : List (Nat × TxCtx) :=
  (s.ctxs p).filter (fun c => decide (8 ≤ c.1) || !s.endsBefore p c.2 coming)

/-! ### Reports (R75, R95, R96, R98) -/

/-- The cycle by whose end an answer must have passed its header: `e` holds the attempt's last symbol (R95, R98). -/
def State.answerBy (s : State) (p : Nat) (x : SendSt) (c : TxCtx) (e : Nat) : Nat :=
  let n := max (s.slots p) 1
  let hop := if x.nhop = 0 then 0 else
    x.nhop * ((frameLen c.frame.length c.cp - 1) / n + (frameLen (22 + 2 * x.nhop) c.cp - 1) / n + 4)
  let en := if x.nhop = 0 then max (ones (s.slots p) c.mask) 1 else n
  (e + hop + 3 + 107 / en) % 2 ^ 32

/-- The send and copy on lane n that a frame in a context belongs to. -/
def State.sendIn (s : State) (n : Nat) (kind : TxKind) : Option SendSt :=
  s.link.sends.find? (fun x => x.copies.any (fun c => decide (c.n = n ∧ c.result = none) &&
    (match kind with
      | .item q => decide (c.item = q ∧ c.phase = .queued)
      | .retry id => decide (x.id = id ∧ (c.phase = .onAir ∨ c.phase = .retry))
      | _ => false)))

/-- What a report does to the send it belongs to (R96, R207). -/
def State.toSend (s : State) (p : Nat) (c : TxCtx) (r : Report75) : State :=
  let n := p * 64 + c.k
  match s.sendIn n c.kind with
  | none => s
  | some x =>
    match r with
    | .ok =>
      if x.ackreq ∧ ¬ x.bcast then
        s.modCopy x.id n (fun y => { y with phase := .waiting (s.answerBy p x c (s.get (LP_MCYC.CYCLE p))) false })
      else s.endCopy x.id n stOk []
    | .muted => s.failAttempt x.id n false
    | .mainsLost => s.endCopy x.id n stMainsLost []
    | .notPermitted => s.endCopy x.id n stNotPermitted []
    | .bad => s.endCopy x.id n stBad []

/-- A report of an item or a retry: REF and the result, the item leaves its queue, SEQ_LPEND rises, the link layer acts (R74, R75, R196). -/
def State.report (s : State) (p : Nat) (c : TxCtx) (r : Report75) : State :=
  let n := p * 64 + c.k
  let tell := fun (t : State) => (((t.modLane n (fun x => { x with report := some (c.ref, r) })).toSend p c r).lanePend n)
  match c.kind with
  | .item q => let t := s.removePacket (s.get (LN_TXQ.QUEUE n)) q; tell (t.1.tellPool t.2)
  | .retry _ => tell s
  | _ => s

/-- The transmission of lane k leaves the line: two symbols later its block ends (R32), and the tail of LP_TXEN begins (R27). -/
def State.lineOff (s : State) (p k : Nat) : State :=
  ((s.putMapBit (LP_TXACT_LO.LANES p) (LP_TXACT_HI.LANES p) k false).modLane (p * 64 + k)
    (fun x => { x with blk := if x.blk = 1 then 2 else x.blk })).txenEnd p

/-- A probe that measures the frame or tone of a context that ends: a tone sent in full has been measured, what is cut has not (R34). -/
def State.probeOff (s : State) (p : Nat) (x : TxCtx) (r : Report75) : State :=
  if x.kind = .tone ∧ r = .ok then s.probeFull p x.k true else s.probeCut p x.k

/-- The frame in context `c` ends: its context is freed and its report written. A tone that is cut before it has begun waits again. -/
def State.endFrame (s : State) (p c : Nat) (r : Report75) : State :=
  match s.ctx p c with
  | none => s
  | some x =>
    let s1 := ((if x.started then s.cutSpan p else s).setCtx p c none).showCtx p x.k
    let s2 := if x.started then (s1.lineOff p x.k).probeOff p x r
      else if x.kind = .tone then s1.modPort p (fun y => { y with waits := .tone x.k :: y.waits }) else s1
    s2.report p x r

/-! ### Items (R71, R73) -/

/-- Lane n's LN_TXQ, if it is a cast packet queue of byte words. -/
def State.txQueue (s : State) (n : Nat) : Option Nat :=
  let q := s.get (LN_TXQ.QUEUE n)
  if s.ready q ∧ (s.queue q).fmt = 1 ∧ ¬ (s.queue q).stream then some q else none

/-- The next item of lane n: its queue and commit number (R73). -/
def State.nextItem (s : State) (n : Nat) : Option (Nat × Nat) :=
  (s.txQueue n).bind (fun q => ((s.packetSeqs q).find? (fun i => !s.itemHeld n i)).map (fun i => (q, i)))

/-- The bytes of an item. -/
def State.itemOf (s : State) (q i : Nat) : List Byte := linesBytes (s.packetWords q i)

/-- A word of the packet is poisoned (R146). -/
def State.itemPoisoned (s : State) (q i : Nat) : Bool :=
  (s.queue q).chain.any (fun x => decide (x.seq = i) && s.poisoned (cellAddr x.cell x.word))

/-- An item is as R71 and R82 require. -/
def itemOk (l : List Byte) : Bool :=
  decide (16 ≤ l.length ∧ u8 l 0 + 16 = l.length ∧ bit (u8 l 1) 3 = false) && zeros l 8 15 &&
    headerPermitted (u8 l 0) (u8 l 1 / 64 * 64)

/-- A context that stands for an item in its report before it has one: its REF (R75). -/
def itemCtx (n i ref : Nat) : TxCtx :=
  { k := n % 64, kind := .item i, frame := [], cp := 0, full := false, mask := 0, ref := ref, atten := 0, cyc := 0, started := false,
    syms := [] }

/-- The lane checks its next item; a malformed one is removed with report BAD (R71). -/
def State.headCheck (s : State) (n : Nat) : State :=
  match s.nextItem n with
  | none => s
  | some (q, i) =>
    if itemOk (s.itemOf q i) ∧ ¬ s.itemPoisoned q i then s
    else (s.setEvt (LP_MEVT.TX_ITEM_BAD (n / 64))).report (n / 64) (itemCtx n i (u16 (s.itemOf q i) 2)) .bad

def execTxItemHeadCheck (n : LaneN) (s : State) : Result := .next (if s.portOn (n / 64) then s.headCheck n else s)

/-- Remove malformed items until the next item is sound. -/
def State.headChecks (s : State) (fuel n : Nat) : State :=
  match fuel with
  | 0 => s
  | fuel + 1 => State.headChecks (s.headCheck n) fuel n

/-! ### Allocation (R73, R74, R94, R369) -/

/-- The port gives out no context: TX_HOLD = 1, or a partial cast of the port (R176). -/
def State.txHeld (s : State) (p : Nat) : Bool := s.flag (LP_CFG.TX_HOLD p) || (s.port p).quiesce

/-- R369 lets a frame of lane k have a context, but for the contexts themselves. -/
def State.mayAir (s : State) (p k : Nat) : Bool :=
  s.locked p && !s.txHeld p && s.flag (LN_TXCFG.TX_EN (p * 64 + k)) && s.permitted p k

/-- A context is free for lane k at the coming cycle start. -/
def State.room (s : State) (p k coming : Nat) : Bool :=
  let h := s.heldAt p coming
  decide (ctxCount h < 8) && !h.any (fun c => decide (c.2.k = k))

/-- Give a frame a context: which of the free ones is open. The level is that of R28. -/
def State.giveCtx (s : State) (p k coming : Nat) (kind : TxKind) (frame : List Byte) (cp : Nat) (full : Bool) (ref : Nat) : State :=
  let h := (s.heldAt p coming).map (fun c => c.1 % 8)
  let free := (List.range 8).filter (fun i => !h.contains i)
  let r := s.free free.length
  let lvl := r.2.level28 p k
  let x : TxCtx :=
    { k := k, kind := kind, frame := frame, cp := cp, full := full, mask := 0, ref := ref, atten := lvl.1, cyc := coming,
      started := false, syms := [] }
  let s1 := ((r.2.setCtx p (8 + nth 0 free r.1) (some x)).showCtx p k).put (LN_TXLVL.USED (p * 64 + k)) lvl.1
  if lvl.2 then s1.setEvt (LP_EVT.LVL_CLIPPED p) else s1

/-- Beacon period in force (R100). -/
def State.bcnPeriod (s : State) (p : Nat) : Nat :=
  let n := s.slots p
  max (s.get (LP_BCN.PERIOD p)) ((frameLen (4 + 17 + (n + 7) / 8) 2 - 1) / max n 1 + 1)

/-- The beacon of port p (R87, R101). -/
def State.beacon (s : State) (p coming : Nat) : List Byte :=
  let j := fun (f : Fld) => leBytes 1 (s.get f)
  fctl 0 false false false false false ++ [0#8, 0#8, 0#8] ++ leBytes 4 coming ++ leBytes 2 (s.get LK_EPOCH.EPOCH) ++ leBytes 1 p ++
    leBytes 1 (s.bcnPeriod p) ++ leBytes ((s.slots p + 7) / 8) (s.txMask p 0 false) ++
    j (LP_JOIN.REQ_LO p) ++ j (LP_JOIN.REQ_HI p) ++ j (LP_JOIN.ANS_LO p) ++ j (LP_JOIN.ANS_HI p) ++
    leBytes 2 (s.get (LP_STORM.SALT p)) ++ leBytes 2 (s.get (LP_STORM.SPREAD_W p)) ++ leBytes 1 (s.get (LP_LINK.ANS_WIN p))

def State.allocBeacon (s : State) (p coming : Nat) : State :=
  if s.flag (LP_BCN.ENABLE p) ∧ coming % s.bcnPeriod p = 0 ∧ s.joinOk p ∧ s.mayAir p 0 ∧ s.room p 0 coming then
    s.giveCtx p 0 coming .beacon (s.beacon p coming) 2 true 0
  else s

/-- One ACK or NACK that is due (R94): protected once it has its context. -/
def State.allocAnswer (s : State) (p coming : Nat) (a : PendAns) : State :=
  if s.mayAir p a.k ∧ s.room p a.k coming then
    let r := s.seal a.mac
    if r.1 = stOk then r.2.2.giveCtx p a.k coming (.answer a.src a.seq) r.2.1 a.cp a.full 0 else r.2.2
  else s.count LK_CNT.ACK_DROP 1

/-- ACKs and NACKs of the coming cycle are served, those whose cycle has gone by are dropped (R94). -/
def State.allocAnswers (s : State) (p coming : Nat) : State :=
  let l := (s.port p).answers
  let s1 := s.modPort p (fun x => { x with answers := x.answers.filter (fun a => laterCycle a.cyc coming) })
  let s2 := s1.count LK_CNT.ACK_DROP (l.filter (fun a => decide (a.cyc ≠ coming) && !laterCycle a.cyc coming)).length
  foldState (l.filter (fun a => decide (a.cyc = coming))) (fun a t => t.allocAnswer p coming a) s2

/-- The first JOIN_ACK of its lane may be given a context in its window (R104). -/
def State.allocJoin (s : State) (p coming : Nat) (j : PendJoin) : State :=
  let first := ((s.port p).joins.find? (fun x => x.k = j.k)) = some j
  if first ∧ ¬ laterCycle j.first coming ∧ ¬ laterCycle coming j.last ∧ s.mayAir p j.k ∧ s.room p j.k coming then
    let r := if j.frame.isEmpty then s.seal j.mac else (stOk, j.frame, s)
    if r.1 = stOk then
      (r.2.2.modPort p (fun x => { x with joins := x.joins.map (fun y => if y = j then { y with frame := r.2.1 } else y) })).giveCtx
        p j.k coming .joinAck r.2.1 2 true 0
    else r.2.2.dropJoin p j
  else s

/-- A forward of the coming cycle, or a tone (R34, R99). -/
def State.allocWait (s : State) (p coming : Nat) (w : PendAir) : State :=
  let keep := fun (t : State) => t.modPort p (fun x => { x with waits := x.waits ++ [w] })
  match w with
  | .fwd k cyc frame cp =>
    if laterCycle cyc coming then keep s
    else if cyc = coming ∧ s.mayAir p k ∧ s.room p k coming then s.giveCtx p k coming .forward frame cp true 0 else s
  | .tone k =>
    if ¬ s.permitted p k ∨ ¬ s.flag (LN_TXCFG.TX_EN (p * 64 + k)) then s.refuseTone p
    else if s.mayAir p k ∧ s.room p k coming then s.giveCtx p k coming .tone [] 0 true 0
    else keep s

def State.allocWaits (s : State) (p coming : Nat) : State :=
  foldState (s.port p).waits (fun w t => t.allocWait p coming w) (s.modPort p (fun x => { x with waits := [] }))

/-- A lane within two spacings of lane k receives a header or a payload (R73). -/
def State.besideRx (s : State) (p k : Nat) : Bool :=
  (blockSpan p k).any (fun n => decide (s.laneState n = 5 ∨ s.laneState n = 6))

/-- A candidate of R73: its lane, what it is, and what it is served by. -/
structure Cand where
  k : Nat
  kind : TxKind
  prio : Nat
  defer : Nat
  commit : Nat
  cp : Nat
  full : Bool
  ref : Nat
  frame : List Byte
  deriving DecidableEq, Repr

/-- The retry that stands in place of lane n's next item: the one whose first attempt was committed first (R96). -/
def State.retryOf (s : State) (n : Nat) : Option (SendSt × Copy) :=
  let l := s.link.sends.filterMap (fun x => (x.copies.find? (fun c => decide (c.n = n ∧ c.phase = .retry ∧ c.result = none))).map
    (fun c => (x, c)))
  l.foldl (fun (a : Option (SendSt × Copy)) e => match a with
    | none => some e
    | some b => if e.2.item < b.2.item then some e else some b) none

/-- Deferrals of the next item of lane n. -/
def State.deferOf (s : State) (n item : Nat) : Nat := if (s.lane n).deferSeq = item then (s.lane n).defer else 0

/-- The candidate of lane n, if it has one (R73). -/
def State.candOf (s : State) (p coming k : Nat) : Option Cand :=
  let n := p * 64 + k
  match s.retryOf n with
  | some (x, c) => some ⟨k, .retry x.id, x.prio, c.defer, c.item, x.cp, x.full, x.tag, c.frame⟩
  | none =>
    match s.nextItem n with
    | none => none
    | some (q, i) =>
      let l := s.itemOf q i
      if bit (u8 l 1) 4 ∧ coming < u32 l 4 then none
      else some ⟨k, .item i, u8 l 1 % 8, s.deferOf n i, i, u8 l 1 / 64, bit (u8 l 1) 5, u16 l 2, l.drop 16⟩

/-- A deferral of the candidate (R73). -/
def State.deferCand (s : State) (p : Nat) (c : Cand) : State :=
  match c.kind with
  | .item i => s.modLane (p * 64 + c.k) (fun x => { x with defer := c.defer + 1, deferSeq := i })
  | .retry id => s.modCopy id (p * 64 + c.k) (fun y => { y with defer := c.defer + 1 })
  | _ => s

/-- The send of a candidate goes to an entry it may not be sent to: not JOINED at its first allocation (R89), or outside the
pinned set of an Island unit (R329). -/
def State.sendBarred (s : State) (x : SendSt) (retry : Bool) : Bool :=
  !x.bcast && ((!retry && decide (s.entState x.entry ≠ 2)) || s.barred x.entry)

/-- The frame a copy on lane n already has: one given a context before is not protected again (R15, R91, log 29). -/
def SendSt.kept (x : SendSt) (n : Nat) : List Byte := ((x.copies.find? (fun y => y.n = n)).map (·.frame)).getD []

/-- The frame of a send's copy at its allocation. Word 1 is read, and the frame protected, unless that has been done (R89, R91, R97). -/
def State.airFrame (s : State) (x : SendSt) (n : Nat) : Nat × List Byte × SendSt × State :=
  if x.kept n ≠ [] then (stOk, x.kept n, x, s)
  else
    let y := s.readWord1 x
    if ¬ headerPermitted (macLen y.mac) (y.cp * 64) then (stBad, [], x, s)
    else let r := s.seal y.mac; (r.1, r.2.1, y, r.2.2)

/-- The candidate is served: its frame is given a context (R74). A routed frame that no header permits any longer is reported BAD (R82). -/
def State.serve (s : State) (p coming : Nat) (c : Cand) : State :=
  let n := p * 64 + c.k
  let retry := match c.kind with
    | .retry _ => true
    | _ => false
  let own := match c.kind with
    | .retry id => s.sendOf id
    | k => s.sendIn n k
  let say := fun (t : State) (r : Report75) => t.report p { itemCtx n 0 c.ref with kind := c.kind } r
  match own with
  | none => s.giveCtx p c.k coming c.kind c.frame c.cp c.full c.ref
  | some x =>
    if s.sendBarred x retry then say s .notPermitted
    else
      let r := s.airFrame x n
      if r.1 = stBad then say (s.setEvt (LP_MEVT.TX_ITEM_BAD p)) .bad
      else if r.1 ≠ stOk then r.2.2.2.endCopy x.id n r.1 []
      else
        let y := r.2.2.1
        ((r.2.2.2.modSend x.id (fun z => { z with cp := y.cp, full := y.full, nhop := y.nhop, mac := y.mac })).modCopy x.id n
          (fun z => { z with attempts := z.attempts + 1, frame := r.2.1, phase := if retry then .onAir else .queued })).giveCtx
            p c.k coming c.kind r.2.1 y.cp y.full c.ref

/-- Candidates in the order of R73: higher PRIO, more deferrals, earlier commit, lower k. -/
def candBefore (a b : Cand) : Bool :=
  decide (b.prio < a.prio ∨ (a.prio = b.prio ∧ (b.defer < a.defer ∨ (a.defer = b.defer ∧
    (a.commit < b.commit ∨ (a.commit = b.commit ∧ a.k ≤ b.k))))))

/-- Insert in the order of R73. -/
def insertCand (c : Cand) (l : List Cand) : List Cand :=
  match l with
  | [] => [c]
  | d :: t => if candBefore c d then c :: d :: t else d :: insertCand c t

/-- Lane k's candidate is judged: removed where R28 bars it, deferred, or kept for service. -/
def State.judgeCand (s : State) (p coming k : Nat) : Option Cand × State :=
  let n := p * 64 + k
  if ¬ s.flag (LN_TXCFG.TX_EN n) ∨ (s.heldAt p coming).any (fun c => decide (c.2.k = k)) then (none, s)
  else
    let s1 := s.headChecks (((s.txQueue n).map s.pkts).getD 0) n
    match s1.candOf p coming k with
    | none => (none, s1)
    | some c =>
      if ¬ s1.permitted p k then
        (none, (s1.setEvt (LP_EVT.TX_LANE_REFUSED p)).report p { itemCtx n 0 c.ref with kind := c.kind } .notPermitted)
      else if s1.flag (LP_TXSCH.DEFER p) ∧ c.defer < s1.get (LP_TXSCH.DEFER_MAX p) ∧ s1.besideRx p k then
        (none, s1.deferCand p c)
      else (some c, s1)

/-- Lanes of port p whose LN_TXQ holds a packet, or that have a retry. -/
def State.busyLanes (s : State) (p : Nat) : List Nat :=
  (List.range 64).filter (fun k => (s.txQueue (p * 64 + k)).isSome || (s.retryOf (p * 64 + k)).isSome)

/-- Judge the candidates of several lanes. -/
def State.judgeAll (s : State) (p coming : Nat) (l : List Nat) : List Cand × State :=
  match l with
  | [] => ([], s)
  | k :: t =>
    let r := s.judgeCand p coming k
    let r2 := State.judgeAll r.2 p coming t
    ((match r.1 with
      | none => r2.1
      | some c => insertCand c r2.1), r2.2)

def State.allocItems (s : State) (p coming : Nat) : State :=
  if s.txHeld p then s
  else
    let r := s.judgeAll p coming (s.busyLanes p)
    foldState r.1 (fun c t => if t.room p c.k coming then t.serve p coming c else t) r.2

/-- JOIN_REQs whose answer is decided at this allocation point take no further copies (R105). -/
def State.closeJoins (s : State) (p coming : Nat) : State :=
  { s with link := { s.link with joined := s.link.joined.map (fun j =>
      if j.port = p ∧ ¬ laterCycle ((j.endCyc + 2) % 2 ^ 32) coming then { j with closed := true } else j) } }

/-- The copies on port p whose item left LN_TXQ with no report: a flush or a newer word took it. -/
def State.goneCopies (s : State) (p : Nat) : List (Nat × Nat) :=
  s.link.sends.flatMap (fun x => (x.copies.filter (fun c =>
    decide (c.n / 64 = p ∧ c.phase = .queued ∧ c.result = none) && !s.itemHeld c.n c.item &&
      !(s.txQueue c.n).any (fun q => (s.packetSeqs q).contains c.item))).map (fun c => (x.id, c.n)))

/-- Each of them ends FLUSHED, so that its transaction has its one completion (R209, log 29). -/
def State.sweep (s : State) (p : Nat) : State :=
  foldState (s.goneCopies p) (fun c t => t.endCopy c.1 c.2 stFlushed []) s

/-- The device reads the items that stand next on the port's lanes (R133). -/
def State.readItems (s : State) (p : Nat) : State :=
  foldState ((s.portLanes p).filterMap s.nextItem) (fun x t => t.readPacket x.1 x.2) s

def execAllocationPoint (p : Port) (s : State) : Result :=
  .next (
    if ¬ s.portOn p then s
    else if ¬ s.locked p then
      -- No cycle of this port is numbered: no ACK or NACK can start in its cycle E + 2 (R94).
      (s.count LK_CNT.ACK_DROP (s.port p).answers.length).modPort p (fun x => { x with answers := [] })
    else
      let coming := (s.get (LP_MCYC.CYCLE p) + 1) % 2 ^ 32
      let s1 := ((((s.sweep p).readItems p).closeJoins p coming).allocBeacon p coming).allocAnswers p coming
      let s2 := foldState (s1.port p).joins (fun j t => t.allocJoin p coming j) s1
      (s2.allocWaits p coming).allocItems p coming)

/-! ### The start of a cycle and of a frame (R61, R63, R67, R72, R369) -/

/-- A context whose frame does not start is freed, and the frame fares as one that was not given a context (R369). -/
def State.releaseCtx (s : State) (p key : Nat) (x : TxCtx) : State :=
  let s1 := ((s.setCtx p key none).showCtx p x.k).txenDrop p
  match x.kind with
  | .answer _ _ => s1.count LK_CNT.ACK_DROP 1
  | .tone => s1.modPort p (fun y => { y with waits := .tone x.k :: y.waits })
  | .retry id => s1.modCopy id (p * 64 + x.k) (fun y => { y with attempts := y.attempts - 1, phase := .retry })
  | .item _ =>
    match s1.sendIn (p * 64 + x.k) x.kind with
    | none => s1
    | some y => s1.modCopy y.id (p * 64 + x.k) (fun c => { c with attempts := c.attempts - 1 })
  | _ => s1

/-- Contexts whose frames did not start are freed: those given for the cycle that starts if the port is not locked, else those of the cycle
that ends. -/
def State.dropCtxs (s : State) (p : Nat) : State :=
  foldState ((s.ctxs p).filter (fun c => !c.2.started && (decide (c.1 < 8) || !s.locked p)))
    (fun c t => t.releaseCtx p c.1 c.2) s

/-- Contexts given for the cycle that starts may start. A frame that was to end before is ended first. -/
def State.startCtxs (s : State) (p : Nat) : State :=
  let s0 := s.dropCtxs p
  foldState ((s0.ctxs p).filter (fun c => decide (8 ≤ c.1))) (fun c t =>
    let t1 := if (t.ctx p (c.1 - 8)).isSome then t.endFrame p (c.1 - 8) .ok else t
    ((t1.setCtx p c.1 none).setCtx p (c.1 - 8) (some { c.2 with cyc := t1.get (LP_MCYC.CYCLE p) })).showCtx p c.2.k) s0

/-- The cycle begins at its predicted crossing (R61); in ACQUIRE it takes no number (R62). -/
def State.beginCycle (s : State) (p : Nat) : State :=
  let s1 := s.modPort p (fun x => { x with z := x.pred.getD x.z, begun := true })
  let y := s1.port p
  let s2 := s1.modPort p (fun x => { x with readAt := if 2 * (y.z : Int) < y.readTwice then some (y.readTwice / 2) else none })
  if s.locked p then (s2.put (LP_MCYC.CYCLE p) (s1.cycleNumber p)).roll p
  else s1.modPort p (fun x => { x with pred := some (x.z + s.period p), begun := false })

/-- Slot 0 of a port cycle begins. If its last boundary has not come, the last slot of the cycle before is counted here. -/
def State.cycleSlot (s : State) (p : Nat) : State :=
  let s1 := if (s.port p).slotEnd then s else s.countSymbols p false
  (((s1.beginCycle p).put (LP_MSTAT.SLOT p) 0).modPort p (fun x => { x with slotEnd := false })).beginSlot p

def execPortCycleStart (p : Port) (s : State) : Result :=
  .next (
    if ¬ s.portOn p ∨ s.get (LP_MSTAT.STATE p) = 0 ∨ (s.port p).begun then s
    else (((s.cycleSlot p).applyMasks p).putFlag (LP_STAT.TX_MUTED p) false).startCtxs p)

/-- The frame's symbols; a tone has none. -/
def State.txSymbols (s : State) (p : Nat) (x : TxCtx) (mask : Nat) : List Int :=
  if x.kind = .tone then [] else frameSymbols x.frame x.cp x.full (ones (s.slots p) mask)

/-- What leaves its list of waiting frames once its frame starts: a JOIN_ACK. The deferral count of an item or retry is cleared. -/
def State.onStart (s : State) (p : Nat) (x : TxCtx) : State :=
  match x.kind with
  | .joinAck =>
    match (s.port p).joins.find? (fun j => j.k = x.k) with
    | none => s
    | some j => s.dropJoin p j
  | .item _ => s.modLane (p * 64 + x.k) (fun y => { y with defer := 0 })
  | .retry id => s.modCopy id (p * 64 + x.k) (fun y => { y with defer := 0 })
  | _ => s

/-- The frame in a context of the current cycle may send its first symbol now: the port is locked, and the current slot is the first that
the frame's mask enables (R62, R72). -/
def State.mayStart (s : State) (p : Nat) (x : TxCtx) : Bool :=
  s.portOn p && s.locked p && !(s.port p).slotEnd && !x.started &&
    decide (s.get (LP_MSTAT.SLOT p) = lowSlot (s.txMask p x.k x.full) (s.slots p))

/-- The first DAC sample of the frame in context `c`: its mask is fixed (R67), LP_TXEN is asserted (R27), a probe that waits for it measures
it (R34), and its lanes are blocked (R32). -/
def State.startFrame (s : State) (p c : Nat) (x : TxCtx) : State :=
  let m := s.txMask p x.k x.full
  let s1 := ((s.cutSpan p).setCtx p c (some { x with started := true, mask := m, syms := s.txSymbols p x m })).onStart p x
  (((s1.txenStart p).probeStart p x.k (decide (x.kind = .tone))).putMapBit
    (LP_TXACT_LO.LANES p) (LP_TXACT_HI.LANES p) x.k true).blockBegin p x.k

def execTxFrameStart (p : Port) (ctx : Ctx) (s : State) : Result :=
  .next (
    match s.ctx p ctx with
    | none => s
    | some x => if s.mayStart p x then s.startFrame p ctx x else s)

/-- The last symbol of the frame, or the last slot of a tone's cycle, has been sent. -/
def execTxFrameEnd (p : Port) (ctx : Ctx) (s : State) : Result :=
  .next (
    match s.ctx p ctx with
    | none => s
    | some x => if x.started ∧ s.ctxLen p x ≤ x.sent then s.endFrame p ctx .ok else s)

/-! ### Overcurrent (R35) -/

/-- Contexts of the current cycle are cut. -/
def State.cutFrames (s : State) (p : Nat) (r : Report75) : State :=
  foldState ((s.ctxs p).filter (fun c => decide (c.1 < 8))) (fun c t => t.endFrame p c.1 r) s

def execOvercurrent (p : Port) (mag : Nat) (samples : Nat) (s : State) : Result :=
  .next (
    let lim := s.get (LP_ISNS.OC_LIMIT p)
    if ¬ s.portOn p ∨ lim = 0 ∨ mag < lim ∨ samples < max 1 (s.get (LP_ISNS.OC_TIME p)) then s
    else
      let s1 := (((s.cutFrames p .muted).modPort p (fun x => { x with lead := false, tail := false })).putFlag (LP_STAT.TXEN p) false)
      (s1.putFlag (LP_STAT.TX_MUTED p) true).setEvt (LP_EVT.OVERCURRENT p))

end Sys2Proof.Machine
end

