-- ==== Sys2Proof/Machine/Modes.lean ====
section
/-! DEFINITION. What a change of mode does to the clocks and the line ports (R303, R304, R37, R60), and how line transactions end
with it (R16). -/

namespace Sys2Proof.Machine

/-- The mode changes (R305): MODE, PREV and CAUSE, and a MODE event, but for RST_N, power-on and a brown-out. -/
def State.setMode (s : State) (m cause : Nat) : State :=
  let old := s.mode
  let s1 := ((s.put SYS_MODE.PREV old).put SYS_MODE.CAUSE cause).put SYS_MODE.MODE m
  if cause = 0 ∨ cause = 1 ∨ cause = 14 then s1 else s1.event 6 0 0 (m + old * 256 + cause * 65536) []

/-! ### The fabric rate (R303) -/

/-- Service and Full-Line rates of POLICY (R163). -/
def State.serviceRate (s : State) : Nat := bits s.fab.rate 1 0
def State.fullLineRate (s : State) : Nat := bits s.fab.rate 3 2

/-- The rate of a mode, as CLK_STAT.RATE shows it (R304); Test keeps the rate. -/
def State.rateOf (s : State) (m : Nat) : Nat :=
  match m with
  | 2 | 3 => 1
  | 4 => s.serviceRate
  | 9 => if s.iron.maintOut then 0 else s.serviceRate
  | 5 => s.fullLineRate
  | 7 | 8 => if s.flag SYS_CTL.FULL then s.fullLineRate else s.serviceRate
  | 6 | 10 => 0
  | _ => s.get CLK_STAT.RATE

/-- The rate of the mode in force comes into force; contexts are parked or resume (R37). -/
def State.applyRate (s : State) : State := (s.put CLK_STAT.RATE (s.rateOf s.mode)).repark

/-! ### Ports stop and start (R60, R37, R16) -/

/-- Lane n stops with its port: its reception is rewound, not counted (R37). -/
def State.laneStop (s : State) (n : Nat) : State :=
  ((s.dropJobs n).rewindRx n).modLane n (fun x => { x with blk := 0, old := false }) |>.rest n

/-- A port that no longer runs goes to OFF. Frames on the line are cut with the report MAINS_LOST, contexts not started are freed,
waiting answers are dropped and echo forwards lost. A fade in progress and a queued swap stay as they are, and go on with the outputs that
follow the next start; a tone or a passive probe waits for the next context or frame, BUSY staying 1 (log 23). -/
def State.portStop (s : State) (p : Nat) : State :=
  if s.get (LP_MSTAT.STATE p) = 0 then s
  else
    let s1 := foldState ((s.ctxs p).filter (fun c => !c.2.started)) (fun c t => t.releaseCtx p c.1 c.2) s
    let s2 := ((s1.cutFrames p .mainsLost).putFlag (LP_STAT.TXEN p) false).unlock p
    let s3 := (s2.count LK_CNT.ACK_DROP (s2.port p).answers.length).modPort p (fun x =>
      { x with answers := [], waits := x.waits.filter (fun w => match w with | .tone _ => true | .fwd _ _ _ _ => false),
               run := 0, lastX := none, lastPer := none, taken := false, begun := false, pred := none, lowSlots := 0,
               lead := false, tail := false, slotEnd := true, oldSlot := none, spans := [], readAt := none })
    let s4 := ((((s3.put (LP_MSTAT.STATE p) 0).put (LP_MSTAT.HOLD_CNT p) 0).putFlag (LP_STAT.LOCKED p) false).putFlag
      (LP_STAT.TX_MUTED p) false)
    let s5 := ((s4.setReg (LP_BLK_LO p) 0).setReg (LP_BLK_HI p) 0)
    let s6 := ((s5.setReg (LP_TXACT_LO p) 0).setReg (LP_TXACT_HI p) 0)
    foldState (s6.portLanes p) (fun n t => t.laneStop n) s6

/-- After a change of mode or of LP_CFG.ENABLE: each port runs or stops as R60 says. -/
def State.followPorts (s : State) : State :=
  foldState (List.range 4) (fun p t => if t.portOn p then t.portStart p else t.portStop p) s

/-! ### Line transactions (R16) -/

/-- The line sends that the link layer carries end with a status; their waiting items leave LN_TXQ. -/
def State.endSends (s : State) (status : Nat) : State :=
  foldState s.link.sends (fun x t =>
    (foldState (x.copies.filter (fun c => c.result.isNone)) (fun c u => u.dropItem c.n c.item) t).endSend x status []) s

/-- SENDs and BROADCASTs outstanding in this unit's rings that its link layer does not carry, being handed over, end too. -/
def State.endLine (s : State) (status : Nat) : State :=
  let s1 := s.endSends status
  let far := s1.hp.outst.filter (fun t => decide (t.type = 1 ∨ t.type = 2))
  foldState far (fun t u =>
    ({ u with al := { u.al with handoffs := u.al.handoffs.filter (fun h => h.1 ≠ t.tag) } }).complete t.tag status 0 []) s1

end Sys2Proof.Machine
end

