-- ==== Sys2Proof/Machine/Ring.lean ====
section
/-! DEFINITION. The command ring (R201, R203, R205, R206): taking the descriptor at its HEAD. -/

namespace Sys2Proof.Machine

/-- TYPE, TAG and the address of the descriptor at HEAD. -/
def State.crAddr (s : State) : Nat :=
  ringAddr (s.get HP_CR_BASE.ADDR * 4096) (s.get HP_CR_BASE.LOG2N) 64 (s.get HP_CR_IDX.HEAD)

/-- TAG of a descriptor. -/
def descTag (d : List Byte) : Nat := u16 d 2 % 1024

/-- The device may take a descriptor now (R203). -/
def State.mayTake (s : State) : Bool :=
  s.rings && s.hp.rung && s.reach .host && decide (0 < s.crCount) && decide (s.hp.outst.length < 1024) &&
    decide (s.hp.outst.length + s.cplCount < s.cplSize)

/-- The descriptor at HEAD, if the device may take one. -/
def State.headDesc (s : State) : Option (List Byte) := if s.mayTake then some (s.bytes s.crAddr 64) else none

/-- Take descriptor `d`: HEAD advances, the tag's bit is set (R215); none if the descriptor has completed BAD_DESCRIPTOR, its tag
colliding or its header malformed (R206), else the transaction is outstanding. -/
def State.admitDesc (s : State) (d : List Byte) : Option State × State :=
  let tag := descTag d
  let s1 := s.put HP_CR_IDX.HEAD ((s.get HP_CR_IDX.HEAD + 1) % 65536)
  let s2 := { s1 with hp := { s1.hp with taken := setInsert tag s1.hp.taken } }
  if (s.outstanding tag).isSome then (none, s2.pushCpl (cplRec tag stBad (u8 d 0) (2 ^ 31) []))
  else
    let s3 := { s2 with hp := { s2.hp with outst := s2.hp.outst ++ [(⟨tag, u8 d 0⟩ : Trans)] } }
    if headerOk d then (some s3, s3) else (none, s3.complete tag stBad 0 [])

/-- Take the descriptor at HEAD if it satisfies `p`, and deal with it by `f` once it has been admitted. -/
def State.takeDesc (s : State) (p : List Byte → Bool) (f : List Byte → State → State) : State :=
  match s.headDesc with
  | none => s
  | some d =>
    if ¬ p d then s
    else
      match (s.readSpan s.crAddr 64).admitDesc d with
      | (none, s1) => s1
      | (some s1, _) => f d (s1.readRefs d)

/-- TYPE is listed in R205. -/
def listedType (t : Nat) : Bool := decide (1 ≤ t ∧ t ≤ 8)

end Sys2Proof.Machine
end

