-- ==== Sys2Proof/Machine/Control.lean ====
section
/-! DEFINITION. Control outputs, guards and the demand limiter's primitives (13), and the plain write of a register field by
field (R5). -/

namespace Sys2Proof.Machine

/-! ### Plain writes (R5) -/

/-- What a write does to one field: RW, RWP and RWF take the value, W1C and W1S act where a 1 is written; the rest stay. -/
def putField (old value : Nat) (f : FieldDesc) : Nat :=
  let x := bits old f.hi f.lo
  let v := bits value f.hi f.lo
  match f.acc with
  | .rw | .rwp | .rwf => putBits old f.hi f.lo v
  | .w1c => putBits old f.hi f.lo (x - (x &&& v))
  | .w1s => putBits old f.hi f.lo (x ||| v)
  | .ro | .wo | .rc => old

/-- A register after a write, each field under its access code. -/
def writtenWord (d : RegDesc) (old value : Word) : Word :=
  BitVec.ofNat 32 (d.fields.foldl (fun x f => putField x value.toNat f) old.toNat)

/-- Write a register field by field. -/
def State.writePlain (s : State) (a : Nat) (value : Word) : State :=
  match regFind a with
  | none => s
  | some (d, _) => s.setReg a (writtenWord d (s.reg a) value)

/-! ### Levels (R260, R261) -/

def heldDef (_ : Nat) : BitVec 16 := 0

/-- Output o is held by a trip (CT_OUT.HELD): a guard that is latched named it when it tripped (R265, R267). -/
def State.ctHeld (s : State) (o : Nat) : Bool :=
  (List.range 8).any (fun g => s.bitOf CT_TRIP.GUARD g && (mget heldDef s.ctl.held g).getLsbD o)

/-- The HELD bit map. -/
def State.heldMap (s : State) : Nat := ((List.range 16).map (fun o => b2n (s.ctHeld o) * 2 ^ o)).sum

/-- Commanded level of output o. -/
def State.ctCmd (s : State) (o : Nat) : Bool := s.ctl.cmd.getLsbD o

/-- The level output o is driven to: SAFE while held, else its commanded level (R260). -/
def State.ctWant (s : State) (o : Nat) : Bool := if s.ctHeld o then s.flag (CT_OCFG.SAFE o) else s.ctCmd o

/-- The level that pin CTLo is driven to; none while it is high impedance (R260). -/
def State.ctlPin (s : State) (o : Nat) : Option Bool := if s.flag CT_CFG.OE then some (s.bitOf CT_OUT.LEVEL o) else none

/-- Pair i is interlocked. -/
def State.paired2 (s : State) (i : Nat) : Bool := s.bitOf CT_PAIR.PAIRS i

/-- The other member of an output's pair. -/
def partner (o : Nat) : Nat := if o % 2 = 0 then o + 1 else o - 1

/-- Set the commanded level of output o. -/
def State.command (s : State) (o : Nat) (on : Bool) : State :=
  { s with ctl := { s.ctl with cmd := BitVec.ofNat 16 (putBits s.ctl.cmd.toNat o o (b2n on)) } }

/-- No interlocked pair is wanted on whole: a member that a trip holds on leaves its partner off; of two members commanded on
before their pair was interlocked, which one turns off is open. -/
def State.settlePair (s : State) (i : Nat) : State :=
  let a := 2 * i
  let b := 2 * i + 1
  if s.paired2 i && s.ctWant a && s.ctWant b then
    if s.ctHeld a then s.command b false
    else if s.ctHeld b then s.command a false
    else let r := s.free 2; r.2.command (a + r.1) false
  else s

/-- Output o's level after a change of what is wanted, given the levels before (R261): turning off is immediate; turning on waits
where a dead time runs, or begins one where the partner was on. -/
def State.nextLevel (s : State) (before o : Nat) : Bool :=
  if ¬ s.ctWant o then false
  else if bit before o ∨ ¬ s.paired2 (o / 2) then true
  else decide (¬ bit before (partner o) ∧ o / 2 ∉ s.ctl.dead)

/-- The feedback input of output o shows what its level calls for (R263). -/
def State.fbMatch (s : State) (o : Nat) : Bool :=
  s.bitOf CT_DIN.LEVEL (s.get (CT_OCFG.FB_DIN o)) == (s.bitOf CT_OUT.LEVEL o != s.flag (CT_OCFG.FB_INV o))

/-- A feedback check whose input matches has passed. -/
def State.fbPass (s : State) : State :=
  { s with ctl := { s.ctl with check := s.ctl.check.filter (fun o => !s.fbMatch o) } }

/-- Outputs at new levels: the checks of those that changed start anew. -/
def State.putLevels (s : State) (after : Nat) : State :=
  let before := s.get CT_OUT.LEVEL
  let moved := (List.range 16).filter (fun o => bit before o != bit after o && s.flag (CT_OCFG.FB_EN o))
  let s1 := (s.put CT_OUT.LEVEL after).put CT_OUT.HELD s.heldMap
  ({ s1 with ctl := { s1.ctl with check := foldState moved (fun o l => setInsert o l) s1.ctl.check } }).fbPass

/-- A CONTROL action has reached its levels (R262). -/
def State.actDone (s : State) (x : Nat × Nat × Nat) : Bool :=
  let lvl := s.get CT_OUT.LEVEL
  decide (x.2.1 &&& lvl = x.2.1 ∧ x.2.2 &&& lvl = 0)

/-- Complete the CONTROL transactions whose outputs have reached their levels. -/
def State.finishActs (s : State) : State :=
  let l := s.ctl.acts.filter (fun x => s.actDone x)
  let s1 := { s with ctl := { s.ctl with acts := s.ctl.acts.filter (fun x => !s.actDone x) } }
  foldState l (fun x t => t.complete x.1 stOk (t.get CT_OUT.LEVEL) []) s1

/-- Bring every output to what is wanted of it, as far as the interlocks let it. -/
def State.relevel (s : State) : State :=
  let s1 := foldState (List.range 8) (fun i t => t.settlePair i) s
  let before := s1.get CT_OUT.LEVEL
  let after := ((List.range 16).map (fun o => b2n (s1.nextLevel before o) * 2 ^ o)).sum
  let begin_ := (List.range 8).filter (fun i => s1.paired2 i &&
    ((s1.ctWant (2 * i) && bit before (2 * i + 1)) || (s1.ctWant (2 * i + 1) && bit before (2 * i))) &&
    !(s1.ctWant (2 * i) && bit before (2 * i)) && !(s1.ctWant (2 * i + 1) && bit before (2 * i + 1)))
  let s2 := { s1 with ctl := { s1.ctl with
    dead := foldState begin_ (fun i l => setInsert i l) (s1.ctl.dead.filter (fun i => s1.paired2 i)) } }
  (s2.putLevels after).finishActs

/-! ### Requests (R261, R262, R267) -/

/-- The request names an output that a trip holds. -/
def State.namesHeld (s : State) (set clr : Nat) : Bool := decide ((set ||| clr) &&& s.heldMap ≠ 0)

/-- The request would turn both members of an interlocked pair on: it names both, or the partner of a member it names is held on. -/
def State.bothOn (s : State) (set : Nat) : Bool :=
  (List.range 16).any (fun o => bit set o && s.paired2 (o / 2) &&
    (bit set (partner o) || (s.ctHeld (partner o) && s.flag (CT_OCFG.SAFE (partner o)))))

/-- Take a request's commands: the latest request for an interlocked pair wins. -/
def State.request (s : State) (set clr : Nat) : State :=
  (foldState (List.range 16) (fun o t =>
    if bit clr o then t.command o false
    else if bit set o then
      (if t.paired2 (o / 2) then (t.command (partner o) false).command o true else t.command o true)
    else t) s).relevel

/-- A write of CT_SET or CT_CLR: discarded whole where a trip or the interlock refuses it. -/
def State.writeCtl (s : State) (set clr : Nat) : State :=
  if s.namesHeld set clr then s
  else if s.bothOn set then s.setEvt CT_EVT.INTERLOCK
  else s.request set clr

def execCtSet (who : Accessor) (value : Word) (s : State) : Result :=
  .next (s.enter who CT_SET (fun t => t.writeCtl (bits value.toNat 15 0) 0))

def execCtClr (who : Accessor) (value : Word) (s : State) : Result :=
  .next (s.enter who CT_CLR (fun t => t.writeCtl 0 (bits value.toNat 15 0)))

/-- Take a CONTROL descriptor (R262). -/
def State.runControl (s : State) (d : List Byte) : State :=
  let set := u16 d 8
  let clr := u16 d 10
  let tag := descTag d
  if ¬ zeros d 12 63 ∨ set &&& clr ≠ 0 then s.complete tag stBad 0 []
  else if s.namesHeld set clr then s.complete tag stNotPermitted 0 []
  else if s.bothOn set then (s.setEvt CT_EVT.INTERLOCK).complete tag stNotPermitted 0 []
  else ({ s with ctl := { s.ctl with acts := s.ctl.acts ++ [(tag, set, clr)] } }).request set clr

def execControl (s : State) : Result :=
  .next (s.takeDesc (fun d => decide (u8 d 0 = 7)) (fun d t => t.runControl d))

/-! ### Configuration (R261) -/

/-- An interlocked pair would have SAFE = 1 in both members. -/
def State.bothSafe (s : State) : Bool :=
  (List.range 8).any (fun i => s.paired2 i && s.flag (CT_OCFG.SAFE (2 * i)) && s.flag (CT_OCFG.SAFE (2 * i + 1)))

/-- A write of CT_PAIR or CT_OCFG. -/
def State.writeCtCfg (s : State) (who : Accessor) (a : Nat) (value : Word) : State :=
  let s1 := s.writePlain a value
  if s1.bothSafe then s.refuse who a stNotPermitted else s1.relevel

def execCtPairWrite (who : Accessor) (value : Word) (s : State) : Result :=
  .next (s.enter who CT_PAIR (fun t => t.writeCtCfg who CT_PAIR value))

def execCtOcfgWrite (who : Accessor) (o : CtlO) (value : Word) (s : State) : Result :=
  .next (s.enter who (CT_OCFG o) (fun t => t.writeCtCfg who (CT_OCFG o) value))

/-- DEAD microseconds after its partner turned off, the member that is wanted on now turns on (R261). -/
def execDeadTimeExpiry (i : PairN) (s : State) : Result :=
  .next (
    if i.val ∈ s.ctl.dead then
      ({ s with ctl := { s.ctl with dead := s.ctl.dead.filter (fun j => j ≠ i.val) } }).relevel
    else s)

/-! ### Guards (R265 to R267) -/

/-- The condition that MODE sets. -/
def guardHit (mode thr : Nat) (x : Int) : Bool :=
  let t : Int := thr * 256
  match mode with
  | 1 => decide (t ≤ x ∨ x ≤ -t)
  | 2 => decide (t ≤ x)
  | 3 => decide (x ≤ -t)
  | _ => false

/-- Consecutive samples that trip guard g: 1 to 15. -/
def State.guardM (s : State) (g : Nat) : Nat :=
  let m := s.get (CT_GCFG.M g)
  if m = 0 then 1 else clampNat 15 m

/-- Guard g trips: it is latched, and every output of its map, besides those it holds already, is forced to its SAFE level (R265, R267). -/
def State.trip (s : State) (g : Nat) : State :=
  let old := if s.bitOf CT_TRIP.GUARD g then mget heldDef s.ctl.held g else 0
  let s1 := { s with ctl := { s.ctl with
    held := mset heldDef s.ctl.held g (old ||| BitVec.ofNat 16 (s.get (CT_GMAP.OUT g))), justNow := setInsert g s.ctl.justNow } }
  ((s1.putBit CT_TRIP.GUARD g true).relevel).setEvt CT_EVT.TRIP

/-- Guard g tests a fast sample: it trips when its count reaches M, whether or not it is latched. -/
def State.guardSample (s : State) (g : Nat) (x : Int) (valid : Bool) : State :=
  let hit := valid && guardHit (s.get (CT_GCFG.MODE g)) (s.get (CT_GCFG.THR g)) x
  let old := mget natDef s.ctl.count g
  let n := if hit then clampNat 15 (old + 1) else 0
  let s1 := { s with ctl := { s.ctl with count := mset natDef s.ctl.count g n } }
  if decide (old < s.guardM g ∧ s.guardM g ≤ n) then s1.trip g else s1

/-- Guards that a write of CT_TRIP clears: of one that tripped on the modulator clock edge just past, whether that trip falls in the write's
cycle is open, and if it does the trip wins (R8, R267, log 64). -/
def State.cleared (s : State) (l : List Nat) : List Nat × State :=
  match l with
  | [] => ([], s)
  | g :: t =>
    let r := State.cleared s t
    if g ∈ s.ctl.justNow then let d := r.2.free 2; (if d.1 = 0 then g :: r.1 else r.1, d.2) else (g :: r.1, r.2)

/-- A write of CT_TRIP: a cleared guard counts from 0 and its outputs return to their commanded levels (R267). -/
def State.writeCtTrip (s : State) (value : Word) : State :=
  let r := s.cleared ((List.range 8).filter (fun g => bit value.toNat g && s.bitOf CT_TRIP.GUARD g))
  let s1 := foldState r.1 (fun g t => t.putBit CT_TRIP.GUARD g false) r.2
  ({ s1 with ctl := { s1.ctl with count := mkeep (fun g => decide (g ∉ r.1)) s1.ctl.count,
                                  held := mkeep (fun g => decide (g ∉ r.1)) s1.ctl.held } }).relevel

def execTripClear (who : Accessor) (value : Word) (s : State) : Result :=
  .next (s.enter who CT_TRIP (fun t => t.writeCtTrip value))

/-! ### Feedback, inputs, limiter (R263, R264, R268) -/

/-- FB_TIME has passed since output o changed, and its input has not matched (R263). -/
def execFbMismatch (o : CtlO) (s : State) : Result :=
  .next (
    if o.val ∈ s.ctl.check then
      let s1 := { s with ctl := { s.ctl with check := s.ctl.check.filter (fun p => p ≠ o.val) } }
      if s.flag (CT_OCFG.FB_EN o) then s1.setEvt CT_EVT.FB_MISMATCH else s1
    else s)

/-- DIN i changes its debounced level, in every mode (R264, log 49). -/
def State.dinChange (s : State) (i : Nat) (level : Bool) : State :=
  (((s.putBit CT_DIN.LEVEL i level).putBit CT_DIN.EDGE i true).fbPass).setEvt CT_EVT.DIN_EDGE

/-- One raw sample of DIN i: after DEB of them in a row that differ from the debounced level, that level changes; 0 acts as 1 (R264). -/
def State.dinSample (s : State) (i : Nat) (raw : Bool) : State :=
  let n := if s.bitOf CT_DIN.LEVEL i = raw then 0 else mget natDef s.ctl.bounce i + 1
  let go := decide (max (s.get CT_CFG.DEB) 1 ≤ n)
  let s1 := { s with ctl := { s.ctl with bounce := mset natDef s.ctl.bounce i (if go then 0 else n) } }
  if go then s1.dinChange i raw else s1

def execDinEdge (i : CtlO) (raw : List Bool) (s : State) : Result :=
  .next (if s.iron.viron then foldState raw (fun b t => t.dinSample i.val b) s else s)

/-- A write of CT_DLIM (R268). -/
def State.writeDlim (s : State) (value : Word) : State :=
  let s1 := s.writePlain CT_DLIM value
  if s1.get CT_DLIM.LEVEL = s.get CT_DLIM.LEVEL then s1 else s1.setEvt CT_EVT.DLIM_LEVEL

def execDlimLevelWrite (who : Accessor) (value : Word) (s : State) : Result :=
  .next (s.enter who CT_DLIM (fun t => t.writeDlim value))

end Sys2Proof.Machine
end

