-- ==== Sys2Proof/Machine/Stream.lean ====
section
/-! DEFINITION. The solder crossbar (08, R157 to R159): how a sample goes from its source along the routes, through filter tiles, into
sequencers, queues and feeders. -/

namespace Sys2Proof.Machine

/-! ### Routes (R158, R164, R165) -/

/-- A crossbar endpoint's class and index (R158). -/
def epClass (e : Nat) : Nat := e / 4096
def epIndex (e : Nat) : Nat := e % 4096

/-- The source of sink `dst`. -/
def sourceOf (routes : List (Nat × Nat)) (dst : Nat) : Option Nat := (routes.find? (fun r => r.2 = dst)).map (·.1)

/-- The sources that feed filter tile i, along its chain; `fuel` bounds the chain. -/
def feeds (routes : List (Nat × Nat)) (fuel i : Nat) : Option Nat :=
  match fuel with
  | 0 => none
  | fuel + 1 =>
    match sourceOf routes (0x3000 + i) with
    | none => none
    | some e => if epClass e = 4 then feeds routes fuel (epIndex e) else some e

/-- A source carries complex samples: a lane tap, filter tiles that it feeds, or an output port that sends them. -/
def complexSource (routes : List (Nat × Nat)) (e : Nat) : Bool :=
  let x := if epClass e = 4 then (feeds routes 49 (epIndex e)).getD 0 else e
  decide (epClass x = 9) || (decide (epClass x = 6) && Config.complexOut (epIndex x))

/-- The sinks of source `src`. -/
def sinksOf (routes : List (Nat × Nat)) (src : Nat) : List Nat := (routes.filter (fun r => r.1 = src)).map (·.2)

/-- A filter entry's fields. -/
def filtOn (e : Nat) : Bool := bit e 31
def filtMode (e : Nat) : Nat := bits e 30 29
def filtTaps (e : Nat) : Nat := bits e 28 20
def filtDecim (e : Nat) : Nat := bits e 19 16


/-! ### Samples -/

/-- A sample on the crossbar: I and Q, of which a real one has I alone; the tags SETTLING and CLIP of a fine sample (R113). -/
structure Sample where
  re : Int
  im : Int := 0
  cplx : Bool := false
  settling : Bool := false
  clip : Bool := false
  deriving DecidableEq, Repr

/-! ### Filter tiles (R157) -/

/-- An FIR's output, from its inputs, the latest first: exact to 48 bits, rounded to nearest on output. A sum beyond 48 bits, or a result
beyond 24, has no stated value and is open (log 63). -/
def State.fir (s : State) (coefs : List (BitVec 24)) (xs : List Int) : Int × State :=
  let sum := ((coefs.zip xs).map (fun e => e.1.toInt * e.2)).foldl (· + ·) 0
  if sum < -(2 ^ 47) ∨ 2 ^ 47 ≤ sum then s.freeInt 24
  else
    let r := s.nearest sum (2 ^ 23)
    if r.1 < -(2 ^ 23) ∨ 2 ^ 23 ≤ r.1 then r.2.freeInt 24 else r

/-- Inputs before the tile's first are open (log 63). -/
def State.firPast (s : State) (n : Nat) (l : List (Int × Int)) : List (Int × Int) × State :=
  s.padOpen n (2 ^ 48) (fun x => (sgn 24 (x % 2 ^ 24), sgn 24 (x / 2 ^ 24))) l

/-- The output of a tile that has taken its inputs; an IIR's goes through its state, which takes every input. -/
def State.filtOut (s : State) (f : FiltSt) (x : Sample) (y : Int × Int) : Sample × State :=
  if filtMode f.entry.toNat = 0 then
    let xs := s.firPast (filtTaps f.entry.toNat) f.past
    let a := xs.2.fir f.coefs (xs.1.map (·.1))
    let b := if x.cplx then a.2.fir f.coefs (xs.1.map (·.2)) else (0, a.2)
    ({ re := a.1, im := b.1, cplx := x.cplx }, b.2)
  else ({ re := y.1, im := if x.cplx then y.2 else 0, cplx := x.cplx }, s)

/-- Filter tile i takes one input: it gives an output for every DECIM of them. I and Q of a complex sample pass the same coefficients
(log 63). -/
def State.filtStep (s : State) (i : Nat) (x : Sample) : Option Sample × State :=
  match s.fab.filters.find? (fun e => e.1 = i) with
  | none => (none, s)
  | some (_, f) =>
    let a := Config.iir f.coefs f.iirI x.re
    let b := Config.iir f.coefs f.iirQ x.im
    let full := decide (filtDecim f.entry.toNat ≤ f.skip + 1)
    let g := { f with past := ((x.re, x.im) :: f.past).take (filtTaps f.entry.toNat), iirI := a.1, iirQ := b.1,
                      skip := if full then 0 else f.skip + 1 }
    let s1 := { s with fab := { s.fab with filters := s.fab.filters.map (fun e => if e.1 = i then (i, g) else e) } }
    if full then let r := s1.filtOut g x (a.2.toInt, b.2.toInt); (some r.1, r.2) else (none, s1)

/-! ### Sinks (R159, R186) -/

def fifoDef (_ : Nat) : List (Int × Int) := []

/-- A routed sample arrives at input port p of core k: a full FIFO drops it; the first sample of an empty one latches SIN. -/
def State.sampleIn (s : State) (k p : Nat) (x : Int × Int) : State :=
  let l := mget fifoDef (s.core k).fin p
  if 16 ≤ l.length then s.putFlag (SEQ_STAT.SIN_OVF k) true
  else
    let s1 := s.modCore k (fun c => { c with fin := mset fifoDef c.fin p (l ++ [x]) })
    if l.isEmpty then s1.coreEvent k 6 else s1

def packDef (_ : Nat) : List (Int × Bool × Bool) := []

/-- A sample word of items with their tags SETTLING and CLIP, which are its F1 and F0 (R113, R141). -/
def sampleLine (l : List (Int × Bool × Bool)) : Line :=
  mkLine 0 (l.map (fun x => unsgn 24 x.1)) false (l.any (·.2.1)) (l.any (·.2.2))

/-- A sample goes into queue q, a complex one as two items, I first; ten items are a word (R159). -/
def State.packSample (s : State) (q : Nat) (x : Sample) : State :=
  let tag := fun (y : Int) => (y, x.settling, x.clip)
  let l := mget packDef s.fab.packs q ++ (if x.cplx then [tag x.re, tag x.im] else [tag x.re])
  let keep := fun (t : State) (m : List (Int × Bool × Bool)) => { t with fab := { t.fab with packs := mset packDef t.fab.packs q m } }
  if l.length < 10 then keep s l
  else
    let r := (keep s (l.drop 10)).putWord (.tile 8) q (sampleLine (l.take 10))
    r.2.1.tellPool r.2.2

/-- Source `src` puts a sample on the crossbar: each of its sinks takes it. `fuel` bounds a chain of filter tiles. -/
def State.emit (fuel : Nat) (s : State) (src : Nat) (x : Sample) : State :=
  match fuel with
  | 0 => s
  | fuel + 1 =>
    foldState (sinksOf s.fab.routes src) (fun dst t =>
      match epClass dst with
      | 3 =>
        match t.filtStep (epIndex dst) x with
        | (none, u) => u
        | (some y, u) => State.emit fuel u (0x4000 + epIndex dst) y
      | 5 => if t.seqMode then t.sampleIn (epIndex dst / 4) (epIndex dst % 4) (x.re, x.im) else t
      | 7 => t.packSample (epIndex dst) x
      | 8 => t.modFeeder (epIndex dst) (fun f => { f with v90 := some x.re })
      | _ => t) s

/-- The crossbar takes the oldest sample of output port `p` of core k to the port's sinks (R159, R186). -/
def State.drainPort (s : State) (k p : Nat) : State :=
  match mget fifoDef (s.core k).fout p with
  | [] => s
  | x :: t =>
    State.emit 50 (s.modCore k (fun c => { c with fout := mset fifoDef c.fout p t })) (0x6000 + k * 4 + p)
      { re := x.1, im := x.2, cplx := Config.complexOut (k * 4 + p) }

end Sys2Proof.Machine
end

