-- ==== Sys2Proof/Machine/Metering.lean ====
section
/-! DEFINITION. Metering (06, R109 to R124): the decimation chain and the fast path, cycles and energy, the synchronising reset, the
metering block. -/

namespace Sys2Proof.Machine

/-- Half-band stages of the preset: LEAD 5, COPPER 4, TITANIUM 3, MAGNESIUM 2 (R110). -/
def State.stages (s : State) : Nat := 5 - s.get MT_CFG.PRESET
/-- Fine samples per second (R110). -/
def State.fineRate (s : State) : Nat := 128000 / 2 ^ s.stages
/-- SETTLING samples (R110). -/
def State.settleCount (s : State) : Nat := 8 + 4 * s.stages
/-- Modulator clocks of one fine sample. -/
def State.fineClocks (s : State) : Nat := 48 * 2 ^ s.stages

/-- Channels of feeder f. -/
def State.vch (s : State) (f : Nat) : Nat := s.get (MT_PCFG.VCH f)
def State.ich (s : State) (f : Nat) : Nat := s.get (MT_PCFG.ICH f)

/-- The largest magnitude of a fine sample (R109). -/
def fineMax : Int := 8388607

/-! ### FINEQ words (R113) -/

/-- Ten samples of channel c go into its queue as one word, if they are there. -/
def State.flushWord (s : State) (c : Nat) : State :=
  let l := (s.chan c).words
  if l.length < 10 then s
  else
    let r := (s.modChan c (fun x => { x with words := l.drop 10 })).putWord (.tile c) (s.get (MT_CHCFG.FINEQ c)) (sampleLine (l.take 10))
    r.2.1.tellPool r.2.2

def execFineqWordWrite (c : Chan) (s : State) : Result := .next (if s.metering then s.flushWord c else s)

/-! ### Modulator and CIC (R110, R111) -/

/-- One modulator bit enters a CIC. -/
def Cic.add (x : Cic) (b : Bool) : Cic :=
  let i1 := x.i1 + (if b then 1 else -1)
  let i2 := x.i2 + i1
  { x with i1 := i1, i2 := i2, i3 := x.i3 + i2 }

/-- The output of a CIC. Its magnitude is at most 48^3, so that arithmetic modulo 2^24 gives it exactly. -/
def Cic.take (x : Cic) : Int × Cic :=
  let a := x.i3 - x.d1
  let b := a - x.d2
  ((b - x.d3).toInt, { x with d1 := x.i3, d2 := a, d3 := b })

/-- One modulator clock of channel c: its bit enters the delay line, and the bit DELAY clocks before it the CIC. A bit before the first of
the line is open (log 34). -/
def State.chanBit (s : State) (c : Nat) (b : Bool) : State :=
  let seen := (b :: (s.chan c).line).take 1024
  let r := match seen[s.get (MT_CHCFG.DELAY c)]? with
    | some v => (v, s)
    | none => let d := s.free 2; (decide (d.1 = 1), d.2)
  r.2.modChan c (fun x => { x with line := seen, cic := x.cic.add r.1 })

/-- The half-band chain takes one sample: each stage gives an output for every two inputs. -/
def runBands (l : List Band) (x : Int) : List Band × Option Int :=
  match l with
  | [] => ([], some x)
  | b :: t =>
    match b.first with
    | none => ({ b with first := some x } :: t, none)
    | some y =>
      let r := Config.halfBand t.length b.state y x
      let u := runBands t r.2
      (⟨r.1, none⟩ :: u.1, u.2)

/-! ### The fast path (R112) -/

/-- Channel c gives a fast sample: MT_FAST holds it, guard c tests it, its sinks take it; the half-band chain may give a fine one. -/
def State.fastChan (s : State) (c : Nat) (valid : Bool) : Option Int × State :=
  let x := s.chan c
  let r := x.cic.take
  let raw := if s.flag (MT_CHCFG.INVERT c) then -r.1 else r.1
  let b := runBands (if x.bands.length = s.stages then x.bands else List.replicate s.stages {}) raw
  let y := Config.cicScale raw
  let s1 := s.modChan c (fun z => { z with cic := r.2, bands := b.1 })
  let s2 := ((s1.put (MT_FAST.SAMPLE c) y.toNat).putFlag (MT_FAST.VALID c) valid).guardSample c y.toInt valid
  (b.2, State.emit 50 s2 (0x2000 + c) { re := y.toInt })

/-- The channels of a list give their fast samples; the fine samples that come of them. -/
def State.fastChans (s : State) (valid : Bool) (l : List Nat) : List (Nat × Int) × State :=
  match l with
  | [] => ([], s)
  | c :: t =>
    let r := s.fastChan c valid
    let u := State.fastChans r.2 valid t
    (match r.1 with
      | none => u.1
      | some x => (c, x) :: u.1, u.2)

/-! ### The fine path (R109, R113, R118) -/

/-- A fine sample saturates at ±(2^23 − 1). -/
def saturate (x : Int) : Int := if x < -fineMax then -fineMax else if fineMax < x then fineMax else x

/-- A fine sample of channel c: it saturates, setting the CLIP flags, enters the FINEQ word in progress, and its sinks take it. -/
def State.fineChan (s : State) (c : Nat) (x : Int) (tag : Bool) : State :=
  let y := saturate x
  let clip := decide (y ≠ x)
  let left := if clip then 64 else (s.chan c).clipLeft - 1
  let s1 := s.modChan c (fun z => { z with past := (y :: z.past).take 256, clipLeft := left })
  let s2 := s1.putBit MT_STAT.CLIP c (decide (0 < left))
  let s3 := if clip then s2.setEvt MT_EVT.CLIP else s2
  let s4 := if s3.flag (MT_CHCFG.FINEQ_EN c) then
      (s3.flushWord c).modChan c (fun z => { z with words := z.words ++ [(y, tag, clip)] })
    else s3
  State.emit 50 s4 (0x1000 + c) { re := y, settling := tag, clip := clip }

/-- The fine sample of channel c that left `n` samples ago; one of a channel without power, or before its first, is open (log 34). -/
def State.fineAt (s : State) (c n : Nat) : Int × State :=
  match (if s.powered c then (s.chan c).past[n]? else none) with
  | some x => (x, s)
  | none => let r := s.free (2 ^ 24 - 1); ((r.1 : Int) - fineMax, r.2)

/-- The sample just taken by a powered channel c saturated. -/
def State.clipNow (s : State) (c : Nat) : Bool := s.powered c && decide ((s.chan c).clipLeft = 64)

/-- An enabled feeder f takes its fine sample. Without a quadrature stream v90 is open (log 34). -/
def State.feedSample (s : State) (f : Nat) (tag : Bool) (instant : Int) : State :=
  if ¬ s.flag (MT_PCFG.ENABLE f) then s
  else
    let v := s.fineAt (s.vch f) 0
    let i := v.2.fineAt (4 + s.ich f) 0
    let q := s.flag (MT_PCFG.Q_EN f)
    let iq := if q then i.2.fineAt (4 + s.ich f) (s.get (MT_PCFG.QDLY f)) else (0, i.2)
    let v90 := if q then (match (s.feeder f).v90 with
        | some x => (x, iq.2)
        | none => iq.2.freeInt 24)
      else (0, iq.2)
    let x : FeedSample := ⟨v.1, i.1, v90.1, iq.1, tag, s.clipNow (s.vch f) || s.clipNow (4 + s.ich f), instant⟩
    v90.2.modFeeder f (fun y => { y with samples := y.samples ++ [x], since := y.since + 1 })

/-- Settling ends (R114). -/
def State.settleDone (s : State) : State := ((s.put MT_SYNC.SETTLE 0).putFlag MT_STAT.SETTLING false).setEvt MT_EVT.SYNC_DONE

/-- The input instant of a fine sample that leaves now, in thirds of 1/256 converter sample: the chain's group delay is SETTLING samples. -/
def State.instantNow (s : State) (edge : Nat) : Int := 512 * ((edge : Int) - s.settleCount * s.fineClocks)

/-- Fine sample k after a reset leaves the chain: the first samples are SETTLING; SETTLE counts them (R114). -/
def State.fineTick (s : State) (l : List (Nat × Int)) : State :=
  let k := s.meter.fineN
  let tag := s.flag MT_STAT.SETTLING && decide (k < s.settleCount)
  let s1 := { s with meter := { s.meter with fineN := clampNat 64 (k + 1), lastFine := s.meter.edge } }
  let s2 := foldState l (fun x t => t.fineChan x.1 x.2 tag) s1
  let s3 := foldState (List.range 4) (fun f t => t.feedSample f tag (s.instantNow s.meter.edge)) s2
  if ¬ s3.flag MT_STAT.SETTLING then s3 else if tag then s3.put MT_SYNC.SETTLE (s.settleCount - k) else s3.settleDone

/-- Every 48 clocks the channels with power give a fast sample; samples 0 to 2 after a reset are not valid. -/
def State.fastTick (s : State) : State :=
  let valid := decide (s.meter.fastLeft = 0)
  let s1 := { s with meter := { s.meter with phase := 0, fastLeft := s.meter.fastLeft - 1 } }
  let r := s1.fastChans valid ((List.range 8).filter s.powered)
  if s.meter.lastFine + s.fineClocks ≤ s.meter.edge then r.2.fineTick r.1 else r.2

/-! ### The synchronising reset (R114, R115) -/

/-- The modulator clock edge `e` comes, after edges that no command carried if it is not the next: their bits are open. -/
def State.edgeTo (s : State) (e : Nat) : State :=
  let s1 := { s with meter := { s.meter with edge := e, driven := s.meter.driven.filter (fun x => decide (e < x + 12)) } }
  if e = s.meter.edge + 1 then s1 else foldState (List.range 8) (fun c t => t.modChan c (fun x => { x with line := [] })) s1

/-- A synchronising reset on the edge just come: every stage is zeroed, the modulators run on; the cycles in progress go on (R115). A FINEQ
word of fewer than ten samples is dropped (log 34). -/
def State.resetChain (s : State) : State :=
  let s1 := foldState (List.range 8) (fun c t =>
    (t.flushWord c).modChan c (fun x => { x with cic := {}, bands := [], words := [] })) s
  let s2 := foldState (List.range 4) (fun f t => t.modFeeder f (fun x => { x with wasReset := x.running })) s1
  let s3 := { s2 with meter := { s2.meter with
    phase := 0, lastFine := s.meter.edge, lastReset := some s.meter.edge, fineN := 0, fastLeft := 3,
    resets := setErase s.meter.edge s2.meter.resets } }
  ((s3.put MT_SYNC.COUNT (s.get MT_SYNC.COUNT + 1)).put MT_SYNC.SETTLE s.settleCount).putFlag MT_STAT.SETTLING true

/-- The resets scheduled for edges before `e` come, in the order of their edges. -/
def State.resetsTo (s : State) (e : Nat) : State :=
  foldState (s.meter.resets.filter (fun t0 => decide (t0 < e))) (fun t0 t => (t.edgeTo (max t0 (t.meter.edge + 1))).resetChain) s

/-- One modulator clock. -/
def State.modClock (s : State) (bits : BitVec 8) : State :=
  let s1 := s.edgeTo (s.meter.edge + 1)
  let s2 := foldState ((List.range 8).filter s.powered) (fun c t => t.chanBit c (bits.getLsbD c))
    { s1 with ctl := { s1.ctl with justNow := [] } }
  if s2.meter.resets.contains s2.meter.edge then s2.resetChain
  else if s2.meter.phase + 1 < 48 then { s2 with meter := { s2.meter with phase := s2.meter.phase + 1 } }
  else s2.fastTick

/-- Clocks from modulator edge `first` on; edges do not come twice. -/
def State.modClocks (s : State) (first : Nat) (clocks : List (BitVec 8)) : State :=
  let e := max first (s.meter.edge + 1)
  let s1 := s.resetsTo e
  foldState clocks (fun b t => t.modClock b) (if e = s1.meter.edge + 1 then s1 else s1.edgeTo (e - 1))

def execGuardTrip (first : Nat) (clocks : List (BitVec 8)) (s : State) : Result :=
  .next (if s.metering then s.modClocks first clocks else s)

/-- A reset is scheduled for modulator edge `t0`; in output mode SYNC_M is driven for it. -/
def State.schedule (s : State) (t0 : Nat) : State :=
  { s with meter := { s.meter with
      resets := setInsert t0 s.meter.resets,
      driven := if s.get MT_CFG.SYNC_MODE = 2 then setInsert t0 s.meter.driven else s.meter.driven } }

/-- The level of SYNC_M, which the device drives in output mode alone: active from edge t0 − 4 for 16 clocks. -/
def State.syncM (s : State) : Option Bool :=
  if s.get MT_CFG.SYNC_MODE ≠ 2 then none
  else some (s.meter.driven.any (fun t0 => decide (t0 ≤ s.meter.edge + 4 ∧ s.meter.edge < t0 + 12)) != s.flag MT_CFG.SYNC_EDGE)

/-- A write of MT_SYNC. -/
def State.writeMtSync (s : State) (value : Word) : State :=
  if bit value.toNat 31 ∧ s.metering then s.schedule (s.meter.edge + 2) else s

def execSyncResetWrite (who : Accessor) (value : Word) (s : State) : Result :=
  .next (s.enter who MT_SYNC (fun t => t.writeMtSync value))

def execSyncMInput (rising : Bool) (s : State) : Result :=
  .next (
    if s.metering ∧ s.get MT_CFG.SYNC_MODE = 1 ∧ rising ≠ s.flag MT_CFG.SYNC_EDGE then s.schedule (s.meter.edge + 3) else s)

def execSynchronisingReset (s : State) : Result :=
  .next (
    match s.meter.resets with
    | [] => s
    | t0 :: _ => if s.metering then s.resetsTo (t0 + 1) else s)

def execSettleEnd (s : State) : Result :=
  .next (if s.flag MT_STAT.SETTLING ∧ s.settleCount ≤ s.meter.fineN then s.settleDone else s)

/-! ### The energy of a cycle (R118, R119) -/

/-- Pc and Qc. -/
def sumP (l : List FeedSample) : Int := (l.map (fun x => x.v * x.i)).foldl (· + ·) 0
def sumQ (l : List FeedSample) : Int := (l.map (fun x => x.v90 * x.iq)).foldl (· + ·) 0

/-- What Pc and Qc add to the accumulators ACC0 to ACC5. -/
def accAdds (p q : Int) : List Nat :=
  let pos := fun (b : Bool) (x : Int) => if b then x.toNat else 0
  [pos (0 ≤ p) p, pos (p < 0) (-p), pos (0 ≤ p ∧ 0 ≤ q) q, pos (p < 0 ∧ 0 ≤ q) q, pos (p < 0 ∧ q < 0) (-q), pos (0 ≤ p ∧ q < 0) (-q)]

/-- The energy of a cycle counts in its balance window (R117, R125). -/
def addEnergy (l : List WinEnergy) (x : WinEnergy) : List WinEnergy :=
  if l.any (fun e => decide (e.w = x.w ∧ e.f = x.f)) then
    l.map (fun e => if e.w = x.w ∧ e.f = x.f then
      { e with net := e.net + x.net, noZc := e.noZc || x.noZc, settling := e.settling || x.settling } else e)
  else l ++ [x]

/-- N of the balance windows: 0 acts as 1 (MT_BAL_WIN). -/
def State.balN (s : State) : Nat := max (s.get MT_BAL_WIN.N) 1

/-! ### The metering block (R123, R124) -/

/-- An exact value with one of its two roundings. -/
def State.near (s : State) (num den : Nat) : Nat × State :=
  if den = 0 then s.free (2 ^ 32) else
    let r := s.divFree (num : Int) den
    (r.1.toNat, r.2)

/-- A square root with one of its two roundings. -/
def State.rootFree (s : State) (num den : Nat) : Nat × State :=
  if den = 0 then s.free (2 ^ 32) else
    let r := isqrt (num / den)
    if r * r * den = num then (r, s) else let f := s.free 2; (r + f.1, f.2)

/-- PF: Pc over the product of the two RMS values and the samples, signed Q1.15; open where it has no code. -/
def State.powerFactor (s : State) (p : Int) (vv ii : Nat) : Nat × State :=
  if vv * ii = 0 then s.free 65536
  else
    let r := s.rootFree (p.natAbs ^ 2 * 2 ^ 30) (vv * ii)
    if r.1 ≤ 32767 ∨ (p < 0 ∧ r.1 = 32768) then (unsgn 16 (if p < 0 then -(r.1 : Int) else r.1), r.2) else r.2.free 65536

/-- HMAX of a window of `cycles` cycles that took `time` (R124). -/
def State.hmax (s : State) (cycles time : Nat) : Nat :=
  if cycles = 0 then 0 else clampNat 63 (4 * s.fineRate * time / (10 * cycles * 1048576000))

/-- 2^30 cos(2πk/128), k from 0 to 32. -/
def cosTable : List Int :=
  [1073741824, 1072448455, 1068571464, 1062120190, 1053110176, 1041563127, 1027506862, 1010975242, 992008094, 970651112,
   946955747, 920979082, 892783698, 862437520, 830013654, 795590213, 759250125, 721080937, 681174602, 639627258, 596538995,
   552013618, 506158392, 459083786, 410903207, 361732726, 311690799, 260897982, 209476638, 157550647, 105245103, 52686014, 0]

/-- 2^30 cos(2πk/128). -/
def cos128 (k : Nat) : Int :=
  let j := k % 128
  if j ≤ 32 then nth 0 cosTable j
  else if j ≤ 64 then -nth 0 cosTable (64 - j)
  else if j ≤ 96 then -nth 0 cosTable (j - 64)
  else nth 0 cosTable (128 - j)

/-- The squared magnitude, in units of 2^−60, of order h of 128 points. -/
def orderPower (xs : List Int) (h : Nat) : Nat :=
  let sum := fun (shift : Nat) => (xs.zipIdx.map (fun e => e.1 * cos128 (h * e.2 + shift))).foldl (· + ·) 0
  (sum 0).natAbs ^ 2 + (sum 96).natAbs ^ 2

/-- The entry of order h: its RMS over the window's total RMS, from the sums of the window's points over its `n` cycles and the sum of
their squares. The entry's error is open within 0.05% of the total RMS, 32.8 codes; without a signal the entry is open. -/
def State.harmonic (s : State) (xs : List Int) (sq n h : Nat) : Nat × State :=
  if sq = 0 then s.free 65536
  else
    let r := isqrt (2 * orderPower xs h * 2 ^ 32 / (2 ^ 60 * 128 * n * sq))
    let e := s.free 66
    (clampNat 65535 (r + e.1 - 32), e.2)

/-- Entries h to `top`, as bytes. -/
def State.harmonicsFrom (s : State) (xs : List Int) (sq n fuel h : Nat) : List Byte × State :=
  match fuel with
  | 0 => ([], s)
  | fuel + 1 =>
    let a := s.harmonic xs sq n h
    let b := State.harmonicsFrom a.2 xs sq n fuel (h + 1)
    (leBytes 2 a.1 ++ b.1, b.2)

/-- Entry 0 is HMAX, then orders 1 to HMAX; entries above read 0. -/
def State.harmonics (s : State) (xs : List Int) (sq n top : Nat) : List Byte × State :=
  let r := s.harmonicsFrom xs sq n top 1
  (padTo 128 (leBytes 2 top ++ r.1), r.2)

/-- The 128 points of a cycle that begins at `start`. -/
def cyclePoints (l : List FeedSample) (g : FeedSample → Int) (start per : Nat) : List Int :=
  let off := ((l.head?.map (·.instant)).getD 0) - 3 * start
  (List.range 128).map (Config.resample (l.map g) off (3 * per))

/-- The sums of points, and of their squares, after one more cycle. -/
def addPoints (sums pts : List Int) : List Int := if sums.isEmpty then pts else List.zipWith (· + ·) sums pts
def squares (pts : List Int) : Nat := (pts.map (fun x => x.natAbs ^ 2)).foldl (· + ·) 0

/-- A cycle joins the harmonic window in progress: `span` is the start of a cycle between crossings and its period. -/
def FeederSt.joinWindow (x : FeederSt) (c : CycleLatch) (l : List FeedSample) (span : Option (Nat × Nat)) : FeederSt :=
  let pv := (span.map (fun e => cyclePoints l (·.v) e.1 e.2)).getD []
  let pi := (span.map (fun e => cyclePoints l (·.i) e.1 e.2)).getD []
  { x with
    hFirst := if x.hCount = 0 then c.cyc else x.hFirst, hCount := x.hCount + 1,
    hBad := x.hBad || c.noZc || c.settling || span.isNone, hTime := x.hTime + (span.map (·.2)).getD 0,
    hV := addPoints x.hV pv, hI := addPoints x.hI pi, hVV := x.hVV + squares pv, hII := x.hII + squares pi }

/-- The harmonic part of a record, bytes 20 to 23 and 96 to 351, once the window has all its cycles; a spoiled one is not written. -/
def State.endWindow (s : State) (f : Nat) : State :=
  let x := s.feeder f
  let want := if s.flag MT_CFG.NOM then 12 else 10
  if x.hCount < want then s
  else
    let clear := fun (y : FeederSt) =>
      { y with hFirst := 0, hCount := 0, hBad := false, hTime := 0, hV := [], hI := [], hVV := 0, hII := 0 }
    if x.hBad then s.modFeeder f clear
    else
      let top := s.hmax x.hCount x.hTime
      let vh := s.harmonics x.hV x.hVV x.hCount top
      let ih := vh.2.harmonics x.hI x.hII x.hCount top
      ih.2.modFeeder f (fun y => clear { y with
        block := y.block.take 20 ++ leBytes 4 x.hFirst ++ (y.block.drop 24).take 72 ++ vh.1 ++ ih.1 })

/-- The metering program writes feeder f's record at a cycle end: the cycle's part, then the harmonic window's. -/
def State.writeRecord (s : State) (f : Nat) (c : CycleLatch) (l : List FeedSample) (span : Option (Nat × Nat)) : State :=
  let n := l.length
  let vv := squares (l.map (·.v))
  let ii := squares (l.map (·.i))
  let v := s.rootFree (vv * 65536) n
  let i := v.2.rootFree (ii * 65536) n
  let fr := match span with
    | none => (0, i.2)
    | some p => if c.noZc then (0, i.2) else i.2.near (1000 * 1048576000) p.2
  let pf := fr.2.powerFactor c.pc vv ii
  let head := leBytes 4 c.cyc ++ leBytes 4 v.1 ++ leBytes 4 i.1 ++ leBytes 4 fr.1 ++ leBytes 2 pf.1 ++
    leBytes 2 (b2n c.noZc + 2 * b2n c.settling + 4 * b2n c.clip)
  let body := leBytes 8 (unsgn 64 c.pc) ++ leBytes 8 (unsgn 64 c.qc) ++ c.acc.flatMap (fun a => leBytes 8 a.toNat) ++
    List.replicate 8 0#8
  (pf.2.modFeeder f (fun y =>
    ({ y with block := head ++ (y.block.drop 20).take 4 ++ body ++ y.block.drop 96 }).joinWindow c l span)).endWindow f

/-! ### Cycle ends (R116, R117, R119, R122) -/

/-- The cycle in progress of feeder f ends with these samples and this number, at a forced boundary or not; the cores are told (R187). -/
def State.endCycle (s : State) (f : Nat) (l : List FeedSample) (number : Nat) (forced : Bool) (span : Option (Nat × Nat)) : State :=
  let x := s.feeder f
  let pc := sumP l
  let qc := sumQ l
  let adds := accAdds pc qc
  let acc := (x.live.acc.zip adds).map (fun e => e.1 + BitVec.ofNat 64 e.2)
  let wraps := (x.live.acc.zip adds).any (fun e => decide (2 ^ 64 ≤ e.1.toNat + e.2))
  let c : CycleLatch :=
    { pc := sgn 64 (unsgn 64 pc), qc := sgn 64 (unsgn 64 qc), cyc := number, samples := l.length % 65536, noZc := forced || x.forced,
      settling := x.wasReset || l.any (·.settling), clip := l.any (·.clip), acc := acc }
  let s1 := s.modFeeder f (fun y => { y with live := c, wasReset := false })
  let s2 := if wraps then s1.setEvt MT_EVT.ACC_WRAP else s1
  let s3 := if s2.flag MT_BAL_CFG.ENABLE then
      let e : WinEnergy := { w := number / s.balN, f := f, net := c.pc, noZc := c.noZc, settling := c.settling }
      { s2 with meter := { s2.meter with energy := addEnergy s2.meter.energy e } }
    else s2
  let s4 := if s.fab.mtProg then s3.writeRecord f c l span else s3
  if s4.seqMode then s4.coresEvent 3 else s4

/-- The number of the cycle of a voltage channel that begins at crossing `t` of period `per`, by the rule of R63, and the instant, doubled,
at which it reads the iron counter; none where α cannot be measured (R116). -/
def State.feederNumber (s : State) (t per : Nat) : Option (Nat × Int) :=
  match s.iron.lastRise with
  | none => none
  | some c =>
    let m := c * 32000
    if ¬ atMostUs (max m t - min m t) 22222 then none
    else
      let off := ((m : Int) - t) % (per : Int)
      let read := 2 * (t : Int) + 2 * off - per
      some ((s.get PWR_MCYC.CYCLE + 2 ^ 32 + b2n (decide (2 * off < per)) - b2n (decide (read < 2 * (m : Int)))) % 2 ^ 32, read)

/-- The number of the cycle that ends: its own, or one less than the next cycle's where it had none yet; else it is open (log 34). -/
def State.endNumber (s : State) (own next : Option Nat) : Nat × State :=
  match own, next with
  | some n, _ => (n, s)
  | none, some m => ((m + 2 ^ 32 - 1) % 2 ^ 32, s)
  | none, none => s.free (2 ^ 32)

/-- Feeder f's voltage channel crosses at `t`, `span` being the start and period of the cycle that ends if it is between crossings; `good` if
in range. While boundaries are forced, a crossing that is not in range is none (log 34). -/
def State.feederCrossing (s : State) (f t : Nat) (span : Option (Nat × Nat)) (good : Bool) : State :=
  let x := s.feeder f
  if x.forced ∧ ¬ good then s
  else
    let n := (s.chan (s.vch f)).period.bind (fun p => s.feederNumber t p)
    let own := s.endNumber x.number (n.map (·.1))
    let s1 := if x.running then
        own.2.endCycle f (x.samples.filter (fun a => decide (a.instant < 3 * (t : Int)))) own.1 false (if x.forced then none else span)
      else s
    let rest := x.samples.filter (fun a => decide (3 * (t : Int) ≤ a.instant))
    s1.modFeeder f (fun y =>
      { y with samples := rest, since := if good then rest.length else y.since, number := n.map (·.1), readAt := n.map (fun e => e.2 / 2),
               forced := false, running := true, wasReset := false })

/-- Every fine sample with an input instant before `t` has left its chain. -/
def State.sampledTo (s : State) (t : Nat) : Bool := decide (3 * (t : Int) ≤ s.instantNow (s.meter.lastFine + s.fineClocks))

/-- The crossing falls within the 3 fast samples that follow a synchronising reset (R59). -/
def State.nearReset (s : State) (t : Nat) : Bool :=
  s.meter.lastReset.any (fun e => decide (512 * e ≤ 3 * t ∧ 3 * t ≤ 512 * (e + 144)))

/-- The time of a crossing found at `t`: near a reset the predicted one (R59, R116). -/
def State.crossTime (s : State) (v t : Nat) : Nat :=
  match (s.chan v).lastX, (s.chan v).period with
  | some a, some p => if s.nearReset t then a + p else t
  | _, _ => t

/-- A rising crossing of voltage channel v at `t` (R116): LP_PHREF takes it, and the cycles of the feeders on the channel end. -/
def State.voltCrossing (s : State) (v t : Nat) : State :=
  let last := (s.chan v).lastX
  let good := last.any (fun a => inRange (t - a))
  let s1 := (s.phref v t good).modChan v (fun x => { x with lastX := some t, period := if good then last.map (t - ·) else x.period })
  let fs := (List.range 4).filter (fun f => s.flag (MT_PCFG.ENABLE f) && decide (s.vch f = v))
  let s2 := foldState fs (fun f u => u.feederCrossing f t (last.map (fun a => (a, t - a))) good) s1
  if good then s2.putBit MT_STAT.NO_ZC v false else s2

def execMeteringCycleEnd (v : VChan) (t : Nat) (s : State) : Result :=
  .next (
    let x := s.crossTime v t
    if s.metering ∧ s.powered v ∧ s.sampledTo x ∧ (s.chan v).lastX.all (fun a => decide (a < x)) then s.voltCrossing v x else s)

/-- Fine samples of a forced cycle: round(rate / nominal frequency) (R117). -/
def State.forcedLen (s : State) : Nat :=
  let nom := if s.flag MT_CFG.NOM then 60 else 50
  (2 * s.fineRate + nom) / (2 * nom)

/-- Feeder f has had no in-range crossing for 1.5 nominal periods, and the samples of a forced cycle have left. -/
def State.mayForce (s : State) (f : Nat) : Bool :=
  let nom := if s.flag MT_CFG.NOM then 60 else 50
  s.flag (MT_PCFG.ENABLE f) && decide (3 * s.fineRate ≤ 2 * nom * (s.feeder f).since ∧ s.forcedLen ≤ (s.feeder f).samples.length)

/-- A cycle boundary is forced (R117); the first one of a feeder counts from its first sample (log 34). -/
def State.forceBoundary (s : State) (f : Nat) : State :=
  let x := s.feeder f
  let v := s.vch f
  let s1 := if x.forced then s else ((s.putBit MT_STAT.NO_ZC v true).setEvt MT_EVT.NO_ZC).phref v 0 false
  let n := s1.endNumber x.number none
  (n.2.endCycle f (x.samples.take s.forcedLen) n.1 true none).modFeeder f (fun y =>
    { y with samples := x.samples.drop s.forcedLen, number := some n.1, readAt := none, forced := true, running := true })

def execForcedCycleBoundary (f : Feeder) (s : State) : Result := .next (if s.metering ∧ s.mayForce f then s.forceBoundary f else s)

/-! ### Snapshots (R122) -/

/-- The registers of feeder f's cycle block take the live values (R122). -/
def State.snapshot (s : State) (f : Nat) : State :=
  let c := (s.feeder f).live
  let p := unsgn 64 c.pc
  let q := unsgn 64 c.qc
  let s1 := ((((s.put (MT_PC_LO.VALUE f) p).put (MT_PC_HI.VALUE f) (p / 2 ^ 32)).put (MT_QC_LO.VALUE f) q).put
    (MT_QC_HI.VALUE f) (q / 2 ^ 32)).put (MT_CYCN.CYCLE f) c.cyc
  let s2 := (((s1.putFlag (MT_CYCS.NO_ZC f) c.noZc).putFlag (MT_CYCS.SETTLING f) c.settling).putFlag (MT_CYCS.CLIP f) c.clip).put
    (MT_CYCS.SAMPLES f) c.samples
  foldState (c.acc.take 6).zipIdx (fun e t =>
    (t.put (MT_ACC_LO.VALUE f e.2) e.1.toNat).put (MT_ACC_HI.VALUE f e.2) (e.1.toNat / 2 ^ 32)) s2

def execMtSnapshotRead (who : Accessor) (f : Feeder) (s : State) : Result :=
  .next (if s.reads who then let s1 := s.snapshot f; s1.answer who (s1.reg (MT_PC_LO f)) else s)

end Sys2Proof.Machine
end

