-- ==== Sys2Proof/Machine/Balance.lean ====
section
/-! DEFINITION. The balance program (06, R125 to R130). -/

namespace Sys2Proof.Machine

/-- GRACE: 0 acts as 1, more than 3 N as 3 N (R125). -/
def State.balGrace (s : State) : Nat := clampNat (3 * s.balN) (max (s.get MT_BAL_WIN.GRACE) 1)

/-- Window w has closed; it has been finalised (R125). -/
def State.winClosed (s : State) (w : Nat) : Bool := decide ((w + 1) * s.balN ≤ s.get PWR_MCYC.CYCLE)
def State.winFinal (s : State) (w : Nat) : Bool := decide ((w + 1) * s.balN + s.balGrace ≤ s.get PWR_MCYC.CYCLE)

/-! ### Reports (R126, R127) -/

/-- One record of a report packet. -/
def State.takeRecord (s : State) (d : List Byte) : State :=
  let short := u16 d 0
  let w := u32 d 4
  let branch := bit (u8 d 2) 0
  if 2 ≤ u8 d 2 ∨ u8 d 3 ≠ 0 then s.count MT_BAL_CNT.BAD 1
  else if short = 0 ∨ s.entries < short ∨ s.entState (short - 1) = 0 then s.count MT_BAL_CNT.UNKNOWN 1
  else if ¬ s.winClosed w then s.count MT_BAL_CNT.FUTURE 1
  else if s.winFinal w then s.count MT_BAL_CNT.LATE 1
  else if s.meter.reports.any (fun r => decide (r.short = short ∧ r.w = w ∧ r.branch = branch)) then s.count MT_BAL_CNT.DUP 1
  else
    let r : Report := { short := short, w := w, branch := branch, imp := u32 d 8, exp := u32 d 12 }
    let s1 := { s with meter := { s.meter with reports := s.meter.reports ++ [r] } }
    if s.entNat (short - 1) 24 4 < w then s1.putEntry (short - 1) 24 (leBytes 4 w) else s1

def execBalReportPacket (s : State) : Result :=
  .next (
    let q := s.get MT_BAL_CFG.REPQ
    if ¬ s.flag MT_BAL_CFG.ENABLE ∨ ¬ s.seqMode ∨ ¬ s.ready q ∨ (s.queue q).stream ∨ (s.queue q).fmt ≠ 1 then s
    else
      let s0 := s.readPacket q ((s.queue q).chain.headD ⟨0, 0, false, 0⟩).seq
      let bad := s0.packetBad q
      let l := linesBytes (s0.headWords q)
      let t := s0.dropRest q
      let s1 := t.1.tellPool t.2
      if bad ∨ l.length % 16 ≠ 0 ∨ 1024 < l.length then s1.count MT_BAL_CNT.BAD 1
      else foldState (pieces 16 l) (fun d u => u.takeRecord d) s1)

/-! ### Finalisation (R128 to R130) -/

/-- Phase group of an entry: the voltage channel that R78 finds, or 4. A meter heard by the other unit matches none. -/
def State.phaseOf (s : State) (i : Nat) : Nat :=
  match s.ownLane (s.entNat i 28 2 % 512) with
  | none => 4
  | some n =>
    let r := s.phase (n / 64) (s.entNat i 30 1) true
    if r.1 then r.2 else 4

/-- PATH[0] of an entry, if it is a meter's short address. -/
def State.branchOf (s : State) (i : Nat) : Option Nat :=
  let r := leNat (s.entPath i 1)
  if 0 < s.entHops i ∧ 1 ≤ r ∧ r ≤ s.entries then some r else none

/-- A group of the result packet. -/
inductive Group where
  | phase (v : Nat)
  | port (p : Nat)
  | branch (r : Nat)
  | unassigned
  deriving DecidableEq, Repr

/-- Entry `i` belongs to the group. -/
def State.inGroup (s : State) (g : Group) (i : Nat) : Bool :=
  match g with
  | .phase v => decide (s.phaseOf i = v)
  | .unassigned => decide (s.phaseOf i = 4)
  | .port p => decide (s.entLane i / 64 = s.jointLane (p * 64) / 64)
  | .branch r => decide (s.branchOf i = some r ∨ i + 1 = r)

/-- The energy of the feeders that name voltage channel v, in mWh; none if no enabled feeder does. -/
def State.feedOf (s : State) (w v : Nat) : Option Int :=
  let fs := (List.range 4).filter (fun f => s.flag (MT_PCFG.ENABLE f) && decide (s.vch f = v))
  if fs.isEmpty then none
  else
    let raw := fs.map (fun f => ((s.meter.energy.filter (fun e => decide (e.w = w ∧ e.f = f))).map (·.net)).foldl (· + ·) 0 *
      (s.get (MT_KE.KE f) : Int))
    some (roundDiv (raw.foldl (· + ·) 0) (2 ^ 64))

/-- FEED of a group (R129). -/
def State.groupFeed (s : State) (w : Nat) (g : Group) (rs : List Report) : Option Int :=
  match g with
  | .phase v => s.feedOf w v
  | .port p => s.feedOf w (s.get (LP_MAINS.VCH p))
  | .unassigned => none
  | .branch r => (rs.find? (fun x => x.branch && decide (x.short = r))).map (fun x => (x.imp : Int) - x.exp)

/-- LOSS in 0.001 %; a value that does not fit the field is open. -/
def State.lossOf (s : State) (feed : Option Int) (sum : Int) : Int × State :=
  match feed with
  | none => (0, s)
  | some x =>
    if x = 0 then (0, s)
    else
      let n := 100000 * (x - sum)
      let v := roundDiv (if x < 0 then -n else n) x.natAbs
      if -2147483648 ≤ v ∧ v ≤ 2147483647 then (v, s) else let r := s.free (2 ^ 32); (sgn 32 r.1, r.2)

/-- KIND and ID of a group. -/
def Group.kind (g : Group) : Nat × Nat :=
  match g with
  | .phase v => (0, v)
  | .port p => (1, p)
  | .branch r => (2, r)
  | .unassigned => (3, 4)

/-- The record of a group, and whether it alarms. -/
def State.groupRecord (s : State) (w : Nat) (rs : List Report) (g : Group) : List Byte × Bool × State :=
  let uses := rs.filter (fun r => !r.branch && s.inGroup g (r.short - 1))
  let sum := (uses.map (fun r => (r.imp : Int) - r.exp)).foldl (· + ·) 0
  let missing := ((List.range s.entries).filter (fun i => decide (s.entState i = 2) && s.inGroup g i &&
    !rs.any (fun r => !r.branch && decide (r.short = i + 1)))).length
  let feed := s.groupFeed w g rs
  let loss := s.lossOf feed sum
  let thr := match g with
    | .branch _ => s.get MT_BAL_THR.BRANCH_THR
    | _ => s.get MT_BAL_THR.PHASE_THR
  let whole := decide (missing = 0)
  let alarm := feed.isSome && decide ((thr : Int) ≤ loss.1) && (whole || s.flag MT_BAL_CFG.ALARM_PARTIAL)
  let es := s.meter.energy.filter (fun e => decide (e.w = w))
  let flags := b2n whole + 2 * b2n alarm + 4 * b2n feed.isNone + 8 * b2n (es.any (·.noZc)) + 16 * b2n (es.any (·.settling))
  (leBytes 1 g.kind.1 ++ [0#8] ++ leBytes 2 g.kind.2 ++ leBytes 1 flags ++ [0#8, 0#8, 0#8] ++ leBytes 2 uses.length ++
     leBytes 2 missing ++ leBytes 4 (unsgn 32 loss.1) ++ leBytes 8 (unsgn 64 (feed.getD 0)) ++ leBytes 8 (unsgn 64 sum),
    alarm, loss.2)

/-- Records of several groups. -/
def State.groupRecords (s : State) (w : Nat) (rs : List Report) (l : List Group) : List Byte × Bool × State :=
  match l with
  | [] => ([], false, s)
  | g :: t =>
    let a := s.groupRecord w rs g
    let b := State.groupRecords a.2.2 w rs t
    (a.1 ++ b.1, a.2.1 || b.2.1, b.2.2)

/-- The groups of a result packet, in the order of R129; branches by rising address. -/
def State.groups (s : State) (rs : List Report) : List Group :=
  let phases := (List.range 4).filter (fun v =>
    (List.range 4).any (fun f => s.flag (MT_PCFG.ENABLE f) && decide (s.vch f = v)))
  let ports := (List.range 4).filter (fun p => s.flag (LP_CFG.ENABLE p))
  let joined := (List.range s.entries).filter (fun i =>
    decide (s.entState i = 2) || rs.any (fun r => !r.branch && decide (r.short = i + 1)))
  let heads := (joined.filterMap s.branchOf).foldl (fun l r => setInsert r l) []
  phases.map .phase ++ ports.map .port ++ [.unassigned] ++ heads.map .branch

/-- Window w is finalised: its result packet is fixed; the program commits it next. -/
def State.finalise (s : State) (w : Nat) : State :=
  let rs := s.meter.reports.filter (fun r => decide (r.w = w))
  let gs := s.groups rs
  let r := s.groupRecords w rs gs
  let packet := leBytes 4 w ++ leBytes 2 gs.length ++ List.replicate 10 0#8 ++ r.1
  { r.2.2 with meter := { r.2.2.meter with
      results := r.2.2.meter.results ++ [(w, packet, r.2.1)],
      reports := r.2.2.meter.reports.filter (fun x => decide (w < x.w)),
      energy := r.2.2.meter.energy.filter (fun e => decide (w < e.w)) } }

/-- The iron mains cycle counter has stepped to a value: the window that reaches its finalisation there (R125). -/
def State.balanceStep (s : State) : State :=
  let c := s.get PWR_MCYC.CYCLE
  let g := s.balGrace
  if s.flag MT_BAL_CFG.ENABLE ∧ s.seqMode ∧ g + s.balN ≤ c ∧ (c - g) % s.balN = 0 then s.finalise ((c - g) / s.balN - 1) else s

def execBalResultCommit (s : State) : Result :=
  .next (
    match s.meter.results with
    | [] => s
    | (w, packet, alarm) :: t =>
      let s1 := { s with meter := { s.meter with results := t } }
      let r := s1.putPacket (.engine 2) (s.get MT_BAL_CFG.RESQ) packet
      let s2 := ((r.2.1.tellPool r.2.2).put MT_BAL_STAT.LAST w).setEvt MT_EVT.BAL_DONE
      if alarm then s2.setEvt MT_EVT.BAL_ALARM else s2)

end Sys2Proof.Machine
end

