-- ==== Sys2Proof/Machine/Counters.lean ====
section
/-! DEFINITION. Performance counters (17): levels, overflow, snapshot and the 48-bit accesses. -/

namespace Sys2Proof.Machine

/-- The count of counter k. -/
def State.pmCount (s : State) (k : Nat) : Nat := mget natDef s.pm.count k

/-- EVENT and QUAL of counter k name something that counts (R337). -/
def State.pmValid (s : State) (k : Nat) : Bool :=
  let q := s.get (PM_SEL.QUAL k)
  match s.get (PM_SEL.EVENT k) with
  | 1 | 3 | 4 | 5 | 6 | 9 => q == 0
  | 2 => decide (q < 16)
  | 7 => decide (q = 0xFF ∨ q < 32)
  | 8 => decide (q = 0xFF ∨ q < 16)
  | 10 => decide (q = 0xFF ∨ (0x20 ≤ q ∧ q ≤ 0x26))
  | _ => false

/-- Counter k counts a level (R336). -/
def State.pmLevelEvent (s : State) (k : Nat) : Bool := decide (1 ≤ s.get (PM_SEL.EVENT k) ∧ s.get (PM_SEL.EVENT k) ≤ 7)

/-- Lanes in PREAMBLE, HEADER or PAYLOAD on the ports of a mask. -/
def State.activeRx (s : State) (mask : Nat) : Nat :=
  ((s.regs.filter (fun e => decide (0x100000 ≤ e.1 ∧ e.1 < 0x104000))).map (fun e => (e.1 - 0x100000) / 64)).eraseDups.countP
    (fun n => bit mask (n / 64) && decide (4 ≤ s.get (LN_STAT.STATE n) ∧ s.get (LN_STAT.STATE n) ≤ 6))

/-- Core k is in STALL_Q or STALL_S. -/
def State.stalled (s : State) (k : Nat) : Bool := s.get (SEQ_STAT.STATE k) = 2 ∨ s.get (SEQ_STAT.STATE k) = 3

/-- The level o that counter k looks at (R337). -/
def State.pmLevel (s : State) (k : Nat) : Nat :=
  let q := s.get (PM_SEL.QUAL k)
  match s.get (PM_SEL.EVENT k) with
  | 1 => 1
  | 2 => s.activeRx (if q = 0 then 15 else q)
  | 3 => (s.dec.tiles.filter (fun e => e.2.isSome)).length
  | 4 => s.pool.used.length
  | 5 => s.crCount
  | 6 => s.wd.jobs.length
  | 7 => if q = 0xFF then (List.range 32).countP (fun i => s.stalled i) else b2n (s.stalled q)
  | _ => 0

/-- A level counter adds 1 in a cycle in which its level exceeds THR. -/
def State.pmHit (s : State) (k : Nat) : Bool := decide (s.get (PM_THR.THR k) < s.pmLevel k)

/-- Counters with a selection. -/
def State.pmUsed (s : State) : List Nat :=
  (s.regs.filter (fun e => decide (0x40100 ≤ e.1 ∧ e.1 < 0x40500 ∧ e.1 % 16 = 0))).map (fun e => (e.1 - 0x40100) / 16)

/-- One fabric-clock cycle of the level counters, all judged on the same state. -/
def State.pmCycle (s : State) : State :=
  if s.flag PM_CTL.FREEZE then s
  else s.tell ((s.pmUsed.filter (fun k => s.pmValid k && s.pmLevelEvent k && s.pmHit k)).map (fun k => .counts k 1))

/-- One cycle of counter k alone, in which so many occurrences fall (R338). -/
def execCounterOverflow (k : CtrN) (occ : Nat) (s : State) : Result :=
  .next (
    if s.flag PM_CTL.FREEZE ∨ ¬ s.pmValid k then s
    else s.tell [.counts k.val (if s.pmLevelEvent k then clampNat (b2n (s.pmHit k)) occ else occ)])

/-- Copy all counts and OVF bits (R342). -/
def State.pmShadow (s : State) : State :=
  let s1 := (s.setReg PM_SOVF_LO (s.reg PM_OVF_LO)).setReg PM_SOVF_HI (s.reg PM_OVF_HI)
  foldState (List.range 64) (fun k t =>
    (t.setReg (PM_SHD_LO k) (BitVec.ofNat 32 (t.pmCount k))).setReg (PM_SHD_HI k) (BitVec.ofNat 32 (t.pmCount k / 2 ^ 32))) s1

/-- A write of PM_SNAP. -/
def State.writeSnap (s : State) (value : Word) : State := if bit value.toNat 31 then s.pmShadow else s

def execPmSnapshot (who : Accessor) (value : Word) (s : State) : Result :=
  .next (s.enter who PM_SNAP (fun t => t.writeSnap value))

/-- A write of PM_CTR_LO loads the count with the pending high bits (R340). -/
def State.writeCtrLo (s : State) (k : Nat) (value : Word) : State :=
  { s with pm := { s.pm with count := mset natDef s.pm.count k (mget natDef s.pm.hi k * 2 ^ 32 + value.toNat) } }

def execPmCtrLoWrite (who : Accessor) (k : CtrN) (value : Word) (s : State) : Result :=
  .next (s.enter who (PM_CTR_LO k) (fun t => t.writeCtrLo k value))

/-- A write of PM_CTR_HI sets the pending high bits (R340). -/
def State.writeCtrHi (s : State) (k : Nat) (value : Word) : State :=
  { s with pm := { s.pm with hi := mset natDef s.pm.hi k (bits value.toNat 15 0) } }

def execPmCtrHiWrite (who : Accessor) (k : CtrN) (value : Word) (s : State) : Result :=
  .next (s.enter who (PM_CTR_HI k) (fun t => t.writeCtrHi k value))

/-- A read of PM_CTR_LO latches the high bits into the view of PM_CTR_HI (R340). -/
def State.readCtrLo (s : State) (k : Nat) : Word × State :=
  (BitVec.ofNat 32 (s.pmCount k), s.setReg (PM_CTR_HI k) (BitVec.ofNat 32 (s.pmCount k / 2 ^ 32)))

def execPmCtrLoRead (who : Accessor) (k : CtrN) (s : State) : Result :=
  .next (if s.reads who then let r := s.readCtrLo k; r.2.answer who r.1 else s)

end Sys2Proof.Machine
end

