-- ==== Sys2Proof/Machine/Warden.lean ====
section
/-! DEFINITION. The warden's mailbox and registers (14). The commands that change the mode stand with the modes. -/

namespace Sys2Proof.Machine

/-! ### DETAIL codes (R291) -/

def dSlot : Byte := 1#8
def dEmpty : Byte := 2#8
def dType : Byte := 3#8
def dUsage : Byte := 4#8
def dLength : Byte := 5#8
def dCounter : Byte := 6#8
def dPoint : Byte := 7#8
def dOtpFull : Byte := 8#8
def dValue : Byte := 9#8
def dStrap : Byte := 10#8
def dLifecycle : Byte := 11#8
def dMode : Byte := 12#8
def dPolicy : Byte := 13#8
def dOtpFail : Byte := 14#8

/-! ### Mailbox (R289, R367) -/

/-- An outcome of a mailbox command: STATUS and DETAIL. -/
abbrev MbxOut := Nat × Byte

def mbxOk : MbxOut := (stOk, 0#8)

/-- The first failing check of a list, in order (R367); OK if none fails. -/
def firstFail (l : List (Bool × MbxOut)) : MbxOut :=
  match l with
  | [] => mbxOk
  | (bad, o) :: t => if bad then o else firstFail t

/-- The mailbox command with this OP has been started and has not yet run. -/
def State.mbxReady (s : State) (op : Nat) : Bool := s.wd.mbxOp = some op && s.wd.mbxRes.isNone

/-- The outcome of the command that ran; MBX_DONE reports it. -/
def State.mbxSet (s : State) (o : MbxOut) : State :=
  { s with wd := { s.wd with mbxRes := some (BitVec.ofNat 8 o.1, o.2) } }

/-- Run the command with this OP: the checks in their order, then its effect, which may itself end in a failure. -/
def State.mbxRun (s : State) (op : Nat) (checks : State → List (Bool × MbxOut)) (eff : State → MbxOut × State) : State :=
  if ¬ s.mbxReady op then s
  else
    let c := firstFail (checks s)
    if c ≠ mbxOk then s.mbxSet c else let r := eff s; r.2.mbxSet r.1

/-- ARG0, ARG1 and the DATA string. -/
def State.arg0 (s : State) : Nat := (s.reg (WD_MBX_ARG 0)).toNat
def State.arg1 (s : State) : Nat := (s.reg (WD_MBX_ARG 1)).toNat
def State.mbxData (s : State) (n : Nat) : List Byte :=
  ((List.range ((n + 3) / 4)).flatMap (fun i => leBytes 4 (s.reg (WD_MBX_DATA i)).toNat)).take n

/-- Put a data string into DATA from word `i` on. -/
def State.putMbxData (s : State) (i : Nat) (l : List Byte) : State :=
  match pieces 4 l with
  | ps => foldState ps.zipIdx (fun (p, j) t => t.setReg (WD_MBX_DATA (i + j)) (BitVec.ofNat 32 (leNat p))) s

/-- Fields of ARG0 (R289). -/
def argSlot (a : Nat) : Nat := bits a 6 0
def argType (a : Nat) : Nat := bits a 15 8
def argUsage (a : Nat) : Nat := bits a 23 16
def argKek (a : Nat) : Nat := bits a 30 24

/-- A TYPE code that names a key (R276). -/
def typeCode (t : Nat) : Bool := decide (1 ≤ t ∧ t ≤ 4)

/-- An EC_PRIV scalar lies from 1 to n − 1 (R276). -/
def scalarOk (key : List Byte) : Bool := decide (1 ≤ beNat key ∧ beNat key < p256n)

/-- Check 1 of R367: the mode (R294). -/
def State.chkMode (s : State) : Bool × MbxOut := (decide (s.mode = 10), (stNotPermitted, dMode))
/-- Check 3: bit 7 of ARG0 would make the slot number exceed 127. -/
def State.chkSlot (s : State) : Bool × MbxOut := (bit s.arg0 7, (stBad, dSlot))
/-- Check 4 for a slot that must hold a key. -/
def State.chkEmpty (s : State) (i : Nat) : Bool × MbxOut := (decide ((s.slot i).type = 0), (stNotPermitted, dEmpty))
/-- Check 5 of KEY_LOAD, and of KEY_UNWRAP and KEY_GEN, whose cell of R290 says 'As KEY_LOAD' (log 54). -/
def State.chkPlain (s : State) : Bool × MbxOut := (!s.flag WD_POLICY.PLAIN_LOAD, (stNotPermitted, dPolicy))
/-- Check 6: presence, as judged when START was accepted (R274). -/
def State.chkPres (s : State) (need : Bool) : Bool × MbxOut := (need && !s.wd.mbxPres, (stPresence, 0#8))

/-- The material is the slot's own, and the counter it carries is not above the slot's (R279). -/
def State.staleCounter (s : State) (i counter : Nat) (key : List Byte) : Bool :=
  let k := s.slot i
  decide (k.type ≠ 0 ∧ k.key.toNat = beNat (padTo 32 key) ∧ counter ≤ k.counter.toNat)

/-- KEY_LOAD (R279, R290). -/
def execKeyLoad (s : State) : Result :=
  .next (s.mbxRun 0x01
    (fun t =>
      let ty := argType t.arg0
      let key := t.mbxData (keyLen ty)
      [t.chkMode, t.chkSlot, (!typeCode ty || (decide (ty = 3) && !scalarOk key), (stBad, dType)),
       t.chkPlain, t.chkPres (masterUsage (argUsage t.arg0)),
       (t.staleCounter (argSlot t.arg0) t.arg1 key, (stNotPermitted, dCounter))])
    (fun t =>
      let ty := argType t.arg0
      (mbxOk, t.loadSlot (argSlot t.arg0) ty (argUsage t.arg0) t.arg1 (t.mbxData (keyLen ty)))))

/-- The plaintext of the blob in DATA under the KEK: 24 bytes of a 32-byte blob, else 40 of a 48-byte one (R290). -/
def State.blobPlain (s : State) (kek : KeySlot) : Option (List Byte) :=
  match keyUnwrap kek.bytes (s.mbxData 32) with
  | some p => some p
  | none => keyUnwrap kek.bytes (s.mbxData 48)

/-- What a blob carries: key, TYPE, USAGE, COUNTER. -/
def blobParts (p : List Byte) : List Byte × Nat × Nat × Nat :=
  let n := p.length - 8
  (p.take n, u8 p n, u8 p (n + 1), beNat (p.drop (n + 4)))

/-- KEY_UNWRAP (R290). -/
def execKeyUnwrap (s : State) : Result :=
  .next (s.mbxRun 0x02
    (fun t =>
      let kek := t.slot (argKek t.arg0)
      let b := (t.blobPlain kek).map blobParts
      let bad := b.any (fun x => !typeCode x.2.1 || decide (keyLen x.2.1 ≠ x.1.length) || (decide (x.2.1 = 3) && !scalarOk x.1))
      [t.chkMode, t.chkSlot, t.chkEmpty (argKek t.arg0), (!kek.isAes, (stNotPermitted, dType)),
       (!kek.may 6, (stNotPermitted, dUsage)), (bad, (stBad, dType)), t.chkPlain,
       t.chkPres (b.any (fun x => masterUsage x.2.2.1)), (b.isNone, (stAuthFail, 0#8)),
       (b.any (fun x => t.staleCounter (argSlot t.arg0) x.2.2.2 x.1), (stNotPermitted, dCounter))])
    (fun t =>
      match (t.blobPlain (t.slot (argKek t.arg0))).map blobParts with
      | none => ((stAuthFail, 0#8), t)
      | some x => (mbxOk, t.loadSlot (argSlot t.arg0) x.2.1 x.2.2.1 x.2.2.2 x.1)))

/-- KEY_WRAP (R290). -/
def execKeyWrap (s : State) : Result :=
  .next (s.mbxRun 0x03
    (fun t =>
      let k := t.slot (argSlot t.arg0)
      let kek := t.slot (argKek t.arg0)
      [t.chkMode, t.chkSlot, t.chkEmpty (argSlot t.arg0), t.chkEmpty (argKek t.arg0), (!kek.isAes, (stNotPermitted, dType)),
       (!kek.may 6 || !k.may 7, (stNotPermitted, dUsage)), (!t.flag WD_POLICY.EXPORT_EN, (stNotPermitted, dPolicy))])
    (fun t =>
      let k := t.slot (argSlot t.arg0)
      let plain := k.bytes ++ leBytes 1 k.type ++ leBytes 1 k.usage.toNat ++ [0#8, 0#8] ++ beBytes 4 k.counter.toNat
      (mbxOk, t.putMbxData 0 (keyWrap (t.slot (argKek t.arg0)).bytes plain))))

/-- A new private scalar from the DRBG. -/
def State.newScalar (s : State) : Nat × State := let r := s.free (p256n - 1); (r.1 + 1, r.2)

/-- KEY_GEN (R288, R290). The counter of a generated key is not stated: a free value. -/
def execKeyGen (s : State) : Result :=
  .next (s.mbxRun 0x04
    (fun t =>
      [t.chkMode, t.chkSlot, (!typeCode (argType t.arg0), (stBad, dType)), t.chkPlain,
       t.chkPres (masterUsage (argUsage t.arg0))])
    (fun t =>
      let ty := argType t.arg0
      let c := t.free (2 ^ 32)
      if ty = 3 then
        let d := c.2.newScalar
        (mbxOk, (d.2.loadSlot (argSlot t.arg0) ty (argUsage t.arg0) c.1 (beBytes 32 d.1)).putMbxData 0 (ecPublic d.1))
      else
        let k := c.2.freeBytes (keyLen ty)
        (mbxOk, k.2.loadSlot (argSlot t.arg0) ty (argUsage t.arg0) c.1 k.1)))

/-- The slot whose key protects this frame (R286). -/
def State.macSlot (s : State) (m : MacOut) : Option Nat :=
  if m.slv = 0 then none else some (if bit m.slv 3 then s.get LK_CFG.GROUP_SLOT else s.get LK_CFG.LINK_SLOT)

/-- Slot i has been erased: a lane frame that is in an engine is not sent, and its send completes KEY_ERASED (R286). Whether an engine
still holds a frame that has been given a context and has not started is open (log 69). -/
def State.eraseFrame (s : State) (i p key : Nat) (x : TxCtx) : State :=
  let n := p * 64 + x.k
  match x.kind, s.sendIn n x.kind with
  | .item _, some y =>
    if s.macSlot y.mac = some i then
      let d := s.free 2
      if d.1 = 1 then (((d.2.setCtx p key none).showCtx p x.k).txenDrop p).endCopy y.id n stKeyErased [] else d.2
    else s
  | _, _ => s

/-- An erase of slot i, with the jobs and frames in the engines that it stops (R280, R286). -/
def State.eraseKey (s : State) (i : Nat) : State :=
  if (s.slot i).type = 0 then s
  else
    foldState (List.range 4) (fun p t =>
      foldState ((t.ctxs p).filter (fun c => !c.2.started)) (fun c u => u.eraseFrame i p c.1 c.2) t) (s.eraseSlot i)

/-- Erase every slot (ZEROISE, entry to Test). -/
def State.eraseAll (s : State) : State := foldState (List.range 128) (fun i t => t.eraseKey i) s

/-- KEY_ERASE (R275, R277). -/
def execKeyErase (s : State) : Result :=
  .next (s.mbxRun 0x05
    (fun t =>
      let i := argSlot t.arg0
      [t.chkMode, t.chkSlot, t.chkEmpty i, t.chkPres (masterUsage (t.slot i).usage.toNat)])
    (fun t => (mbxOk, t.eraseKey (argSlot t.arg0))))

/-- PUBKEY (R290). -/
def execPubkey (s : State) : Result :=
  .next (s.mbxRun 0x06
    (fun t =>
      let i := argSlot t.arg0
      [t.chkMode, t.chkSlot, t.chkEmpty i, (decide ((t.slot i).type ≠ 3), (stNotPermitted, dType))])
    (fun t => (mbxOk, t.putMbxData 0 (ecPublic (beNat (t.slot (argSlot t.arg0)).bytes)))))

/-- CTR_RAISE (R277). -/
def execCtrRaise (s : State) : Result :=
  .next (s.mbxRun 0x07
    (fun t =>
      let i := argSlot t.arg0
      [t.chkMode, t.chkSlot, t.chkEmpty i, (decide (t.arg1 ≤ (t.slot i).counter.toNat), (stNotPermitted, dValue))])
    (fun t =>
      let i := argSlot t.arg0
      let last := decide (t.arg1 = 0xFFFFFFFF)
      let t1 := t.setSlot i { t.slot i with counter := BitVec.ofNat 32 t.arg1, exhausted := last }
      (mbxOk, if last then t1.setEvtWith WD_EVT.EXHAUSTED (leBytes 1 i) else t1)))

/-! ### The OTP (R292) -/

/-- WD_FLOOR and WD_LIFE as they read. -/
def State.wdFloor (s : State) : Nat := s.wd.otp.floor
def State.wdLife (s : State) : Nat :=
  let o := s.wd.otp
  b2n o.debugOff + 2 * b2n o.testOff + 16 * o.windows.length + 256 * o.roots.length + 65536 * o.floors.length

/-- An OTP row has been written; `good` says that it read back right. -/
def State.otpDone (s : State) (good : Bool) : MbxOut × State :=
  if good then (mbxOk, s.setEvt WD_EVT.OTP_WRITTEN) else ((stNotPermitted, dOtpFail), s)

/-- Change the OTP. -/
def State.modOtp (s : State) (f : OtpSt → OtpSt) : State := { s with wd := { s.wd with otp := f s.wd.otp } }

/-- ROOT_SET (R290). -/
def execRootSet (readback : Bool) (s : State) : Result :=
  .next (s.mbxRun 0x10
    (fun t => [t.chkMode, t.chkPres true, (decide (8 ≤ t.wd.otp.roots.length), (stNotPermitted, dOtpFull))])
    (fun t =>
      (t.modOtp (fun o =>
        { o with roots := (if readback then o.roots.map (fun r => (r.1, false)) else o.roots) ++ [(t.mbxData 32, readback)] })).otpDone
          readback))

/-- FLOOR_SET (R290). -/
def execFloorSet (readback : Bool) (s : State) : Result :=
  .next (s.mbxRun 0x11
    (fun t => [t.chkMode, (decide ((t.reg FAB_INGOT).toNat < t.arg1), (stBad, dValue)), t.chkPres true,
      (decide (t.arg1 ≤ t.wd.otp.floor), (stNotPermitted, dValue)),
      (decide (16 ≤ t.wd.otp.floors.length), (stNotPermitted, dOtpFull))])
    (fun t => (t.modOtp (fun o => { o with floors := o.floors ++ [(BitVec.ofNat 32 t.arg1, readback)] })).otpDone readback))

/-- WINDOW_SET (R290). -/
def execWindowSet (readback : Bool) (s : State) : Result :=
  .next (s.mbxRun 0x12
    (fun t => [t.chkMode, (decide (t.arg1 < 10 ∨ 300 < t.arg1), (stBad, dValue)), t.chkPres true,
      (decide (4 ≤ t.wd.otp.windows.length), (stNotPermitted, dOtpFull))])
    (fun t => (t.modOtp (fun o => { o with windows := o.windows ++ [(t.arg1, readback)] })).otpDone readback))

/-- LIFE_BURN (R290). -/
def execLifeBurn (readback : Bool) (s : State) : Result :=
  .next (s.mbxRun 0x13
    (fun t => [t.chkMode, (decide (4 ≤ t.arg1), (stBad, dValue)), t.chkPres true])
    (fun t => (t.modOtp (fun o =>
      { o with debugOff := o.debugOff || (readback && bit t.arg1 0), testOff := o.testOff || (readback && bit t.arg1 1) })).otpDone
        readback))

/-- ZEROISE (R277). -/
def execZeroise (s : State) : Result :=
  .next (s.mbxRun 0x0A (fun t => [t.chkMode, t.chkPres true]) (fun t => (mbxOk, t.eraseAll)))

/-! ### Attestation (R290) -/

/-- A signature under a nonce from the DRBG; a nonce that gives none is drawn again, and what a second failure gives is open. -/
def State.signDigest (s : State) (d : Nat) (digest : List Byte) : List Byte × State :=
  let k := s.newScalar
  match ecdsaSign d k.1 digest with
  | some sig => (sig, k.2)
  | none => let k2 := k.2.newScalar; match ecdsaSign d k2.1 digest with
    | some sig => (sig, k2.2)
    | none => k2.2.freeBytes 64

/-- The attestation record. -/
def State.attRecord (s : State) : List Byte :=
  s.wd.otp.eui ++ leBytes 1 s.mode ++ leBytes 1 (s.get WD_STAT.QCAUSE) ++ leBytes 1 (s.get WD_STAT.STATE) ++
    leBytes 1 s.wdLife ++ leBytes 4 (s.reg FAB_INGOT).toNat ++ leBytes 4 (s.reg FAB_PARTIAL).toNat ++
    leBytes 4 s.wdFloor ++ leBytes 4 (s.reg WD_ID).toNat ++ leBytes 4 0 ++ (s.wd.otp.root.getD (List.replicate 32 0#8))

/-- ATTEST. -/
def execAttest (s : State) : Result :=
  .next (s.mbxRun 0x08 (fun _ => [])
    (fun t =>
      if bit t.arg0 0 then (mbxOk, t.putMbxData 0 (ecPublic t.wd.otp.attest))
      else
        let rec_ := t.attRecord
        let r := t.signDigest t.wd.otp.attest (sha256 (t.mbxData 32 ++ rec_))
        (mbxOk, (r.2.putMbxData 0 r.1).putMbxData 16 rec_)))

/-! ### Start and end (R289) -/

/-- A write of WD_MBX_CMD. -/
def State.writeMbxCmd (s : State) (value : Word) : State :=
  if ¬ bit value.toNat 31 then s
  else if s.flag WD_MBX_STAT.BUSY then s.refuse .host WD_MBX_CMD stNotPermitted
  else
    { ((s.putFlag WD_MBX_STAT.BUSY true).putFlag WD_MBX_STAT.DONE false) with
      wd := { s.wd with mbxOp := some (bits value.toNat 7 0), mbxPres := s.presence, mbxRes := none } }

/-- A write of WD_MBX_ARG or WD_MBX_DATA. -/
def State.writeMbxArg (s : State) (a : Nat) (value : Word) : State :=
  if s.flag WD_MBX_STAT.BUSY then s.refuse .host a stNotPermitted else s.setReg a value

/-- The OPs of R290. -/
def mbxOps : List Nat := [1, 2, 3, 4, 5, 6, 7, 8, 9, 10, 0x10, 0x11, 0x12, 0x13, 0x18, 0x19]

/-- DATA words that held the plaintext key of a KEY_LOAD are zeroed. -/
def State.wipeInput (s : State) (op : Nat) : State :=
  if op = 1 then s.putMbxData 0 (List.replicate (if typeCode (argType s.arg0) then keyLen (argType s.arg0) else 32) 0#8) else s

/-- The command that runs ends: an unlisted OP ends BAD_DESCRIPTOR. -/
def State.mbxEnd (s : State) (op : Nat) (o : Byte × Byte) : State :=
  let s1 := (s.wipeInput op).setReg WD_MBX_STAT (BitVec.ofNat 32 (2 ^ 30 + o.2.toNat * 65536 + o.1.toNat))
  ({ s1 with wd := { s1.wd with mbxOp := none, mbxRes := none } }).setEvt WD_EVT.MBX_DONE

def execMbxDone (s : State) : Result :=
  .next (
    match s.wd.mbxOp, s.wd.mbxRes with
    | some op, some o => s.mbxEnd op o
    | some op, none =>
      if op ∈ mbxOps then s
      else if s.mode = 10 then s.mbxEnd op (BitVec.ofNat 8 stNotPermitted, dMode)
      else s.mbxEnd op (BitVec.ofNat 8 stBad, 0#8)
    | none, _ => s)

/-! ### Registers -/

/-- A read of WD_SLOT copies VERSION and COUNTER (R296). -/
def State.readSlot (s : State) : Word × State :=
  let k := s.slot (s.get WD_SLOTSEL.SLOT)
  (BitVec.ofNat 32 (k.state * 2 ^ 30 + k.type * 2 ^ 24 + k.usage.toNat * 2 ^ 16),
    (s.setReg WD_SLOT_VER k.version).setReg WD_SLOT_CTR k.counter)

def execWdSlotRead (s : State) : Result :=
  .next (if s.reads .host then let r := s.readSlot; r.2.answer .host r.1 else s)

/-- A write of WD_PRES. -/
def State.writeWdPres (s : State) (value : Word) : State := if bit value.toNat 31 then s.closeWindow else s

def execPresenceClose (value : Word) (s : State) : Result :=
  .next (s.enter .host WD_PRES (fun t => t.writeWdPres value))

/-- A write of WD_POLICY: DBG_UNLOCK takes a 1 only in Maintenance and Test with DEBUG_DISABLE not burned. -/
def State.writePolicy (s : State) (who : Accessor) (value : Word) : State :=
  let g := s.gate who WD_POLICY value
  let bad := bit g.1.toNat 31 && !s.flag WD_POLICY.DBG_UNLOCK && (!decide (s.mode = 9 ∨ s.mode = 11) || s.wd.otp.debugOff)
  if bad then (g.2.refuse who WD_POLICY stNotPermitted).merge WD_POLICY 0x60000000 g.1
  else g.2.merge WD_POLICY 0xE0000000 g.1

def execDebugUnlock (value : Word) (s : State) : Result :=
  .next (s.enter .host WD_POLICY (fun t => t.writePolicy .host value))

/-- WD_EUI as it reads: HI holds octets 0 to 3, the first most significant. -/
def State.wdEui (s : State) (hi : Bool) : Nat := beNat (if hi then s.wd.otp.eui.take 4 else (s.wd.otp.eui.drop 4).take 4)

/-! ### Presence (R273) -/

/-- A window opens, or restarts: the logic is disarmed. So in every mode (log 49). -/
def State.openWindow (s : State) : State :=
  (({ s with wd := { s.wd with presArmed := false, presFrom := s.iron.rtc, presLen := s.wd.otp.len } }).putFlag
    WD_STAT.PRES_OPEN true).setEvt WD_EVT.PRES_OPEN

def execPresenceRelease (s : State) : Result :=
  .next ({ (s.putFlag WD_STAT.PRES_LVL false) with wd := { s.wd with presArmed := true } })

/-- Iron-clock cycles since the window opened or restarted. -/
def State.presAge (s : State) : Nat := (s.iron.rtc + 2 ^ 48 - s.wd.presFrom) % 2 ^ 48

/-- LEN has run out; a window that has restarted since runs on (R274). -/
def execPresenceWindowExpiry (s : State) : Result :=
  .next (if s.wd.presLen * 32768 ≤ s.presAge then s.closeWindow else s)

end Sys2Proof.Machine
end

