-- ==== Sys2Proof/Machine/Cipher.lean ====
section
/-! DEFINITION. CIPHER transactions (R280 to R285). -/

namespace Sys2Proof.Machine

/-! ### The operations of R282 -/

/-- What an operation uses; a field it does not use must be 0. -/
structure CipherOp where
  /-- Slot TYPEs and the USAGE bit; none: no slot. -/
  slot : Option (List Nat × Nat)
  slot2 : Bool
  /-- Tag lengths. -/
  tags : List Nat
  prehash : Bool
  k256 : Bool
  inp : Bool
  inp2 : Bool
  out : Bool
  st : Bool
  ic : Bool
  slv : Bool
  usage : Bool
  count : Bool
  deriving DecidableEq, Repr

def opNone : CipherOp := ⟨none, false, [0], false, false, false, false, false, false, false, false, false, false⟩

/-- The rows of R282. -/
def cipherOp (op : Nat) : Option CipherOp :=
  let gcm := { opNone with tags := [12, 13, 14, 15, 16], inp := true, inp2 := true, out := true, st := true }
  let ccm := { gcm with tags := [4, 6, 8, 10, 12, 14, 16], slv := true }
  let mac := { opNone with slot := some ([1, 2], 2), tags := [8, 9, 10, 11, 12, 13, 14, 15, 16], inp := true }
  match op with
  | 0x01 => some { gcm with slot := some ([1, 2], 0) }
  | 0x02 => some { gcm with slot := some ([1, 2], 1), ic := true }
  | 0x03 => some { ccm with slot := some ([1, 2], 0) }
  | 0x04 => some { ccm with slot := some ([1, 2], 1), ic := true }
  | 0x05 => some { mac with out := true }
  | 0x06 => some { mac with inp2 := true }
  | 0x07 => some { opNone with inp := true, out := true }
  | 0x08 => some { opNone with slot := some ([3], 3), prehash := true, inp := true, out := true }
  | 0x09 => some { opNone with prehash := true, inp := true, inp2 := true }
  | 0x0A => some { opNone with slot := some ([3], 4), slot2 := true, inp2 := true }
  | 0x0B => some { opNone with slot := some ([4, 1, 2], 5), slot2 := true, k256 := true, inp := true, usage := true }
  | 0x0C => some { opNone with out := true, count := true }
  | _ => none

/-- Bytes of output of a job. -/
def outLen (op inLen tagLen count : Nat) : Nat :=
  match op with
  | 0x01 | 0x03 => inLen + tagLen
  | 0x02 | 0x04 => inLen - tagLen
  | 0x05 => tagLen
  | 0x07 => 32
  | 0x08 => 64
  | 0x0C => count
  | _ => 0

/-! ### Taking a descriptor (R283) -/

/-- The OUT reference of a job: a cast byte-format packet queue, or bytes of the capture partition. -/
def State.outOk (s : State) (r : Dref) : Bool :=
  drefForm r &&
    ((decide (r.kind = 1) && (s.queue r.ql).en && !(s.queue r.ql).stream && decide ((s.queue r.ql).fmt = 1)) ||
      (decide (r.kind = 2) && s.inCapture r.addr r.ql))

/-- The fields that need no input bytes, in order, each with the DETAIL of its failure. -/
def cipherForm (o : CipherOp) (d : List Byte) : List (Bool × MbxOut) :=
  let tagLen := u8 d 10 % 32
  [(bit (u8 d 9) 7 || bit (u8 d 11) 7, (stBad, dSlot)),
   (o.slot2 && decide (u8 d 9 = u8 d 11), (stBad, dSlot)),
   (!o.tags.contains tagLen, (stBad, dLength)),
   (o.count && decide (u16 d 50 < 1 ∨ 4096 < u16 d 50), (stBad, dValue)),
   (bit (u8 d 10) 7 || !zeros d 52 63 || (o.slot.isNone && decide (u8 d 9 ≠ 0)) || (!o.slot2 && decide (u8 d 11 ≠ 0)) ||
      (!o.prehash && bit (u8 d 10) 5) || (!o.k256 && bit (u8 d 10) 6) || (!o.inp && !zeros d 12 19) ||
      (!o.inp2 && !zeros d 20 27) || (!o.out && !zeros d 28 35) || (!o.st && !zeros d 36 43) || (!o.ic && !zeros d 44 47) ||
      (!o.slv && decide (u8 d 48 ≠ 0)) || (!o.usage && decide (u8 d 49 ≠ 0)) || (!o.count && decide (u16 d 50 ≠ 0)),
    (stBad, 0#8))]

/-- The lengths of the inputs and of OUT. -/
def cipherLens (op : Nat) (o : CipherOp) (d : List Byte) (a b : List Byte) : List (Bool × MbxOut) :=
  let tagLen := u8 d 10 % 32
  let out := drefAt d 28
  [(decide (4096 < a.length ∨ 1024 < b.length) || ((op == 2 || op == 4) && decide (a.length < tagLen)) ||
      (decide (op = 6) && decide (b.length ≠ tagLen)) || (bit (u8 d 10) 5 && decide (a.length ≠ 32)) ||
      (decide (op = 9) && decide (b.length ≠ 128)) || (decide (op = 10) && decide (b.length ≠ 64)) ||
      (o.out && decide (out.kind = 2) && decide (out.ql < outLen op a.length tagLen (u16 d 50))), (stBad, dLength))]

/-- Steps 2 and 3 of R283: the slot, then presence. -/
def State.cipherSlot (s : State) (op : Nat) (o : CipherOp) (d : List Byte) : List (Bool × MbxOut) :=
  let k := s.slot (u8 d 9)
  let master := decide (op = 10) || (decide (op = 11) && masterUsage (u8 d 49))
  [(o.slot.isSome && decide (k.type = 0), (stNotPermitted, dEmpty)),
   (o.slot.any (fun x => !x.1.contains k.type), (stNotPermitted, dType)),
   (o.slot.any (fun x => !k.may x.2), (stNotPermitted, dUsage)),
   (master && !s.presence, (stPresence, 0#8))]

/-- A CIPHER transaction ends: INFO holds the bytes written and DETAIL (R283). -/
def State.endCipher (s : State) (tag status written : Nat) (detail : Byte) (ctr ver : Nat) : State :=
  s.complete tag status (written + detail.toNat * 65536) (leBytes 4 ctr ++ leBytes 4 ver)

/-- Check an admitted descriptor, and queue its job. -/
def State.runCipher (s : State) (op : Nat) (d : List Byte) : State :=
  let tag := descTag d
  let fail := fun (o : MbxOut) => s.endCipher tag o.1 0 o.2 0 0
  match cipherOp op with
  | none => fail (stBad, 0#8)
  | some o =>
    let c1 := firstFail (cipherForm o d)
    if c1 ≠ mbxOk then fail c1
    else
      match s.drefBytes (drefAt d 12) with
      | none => fail (stBad, 0#8)
      | some a =>
        let s1 := s.drefTake (drefAt d 12)
        match s1.drefBytes (drefAt d 20) with
        | none => fail (stBad, 0#8)
        | some b =>
          let c2 := firstFail (cipherLens op o d a b ++
            [(o.out && !s.outOk (drefAt d 28), (stBad, 0#8))] ++ s.cipherSlot op o d)
          if c2 ≠ mbxOk then fail c2
          else
            let s2 := s1.drefTake (drefAt d 20)
            let out := drefAt d 28
            let job : CipherJob :=
              { tag := tag, op := op, slot := u8 d 9, slot2 := u8 d 11, tagLen := u8 d 10 % 32, prehash := bit (u8 d 10) 5,
                k256 := bit (u8 d 10) 6, inp := a, inp2 := b, outKind := out.kind, outQ := out.ql, outAddr := out.addr,
                st := (d.drop 36).take 8, ic := u32 d 44, slv := u8 d 48, usage := u8 d 49, count := u16 d 50,
                ver := if o.slot.isSome then (s.slot (u8 d 9)).version else 0,
                entered := false, key := {}, ctr := 0, verdict := none }
            { s2 with wd := { s2.wd with jobs := s2.wd.jobs ++ [job] } }

/-- Take the CIPHER descriptor at HEAD whose OP satisfies `p`; the warden holds at most 64 jobs (R285). -/
def State.takeCipher (s : State) (p : Nat → Bool) : State :=
  if 64 ≤ s.wd.jobs.length then s
  else s.takeDesc (fun d => decide (u8 d 0 = 4) && p (u8 d 8)) (fun d t => t.runCipher (u8 d 8) d)

def execGcmEnc (s : State) : Result := .next (s.takeCipher (· == 0x01))
def execGcmDec (s : State) : Result := .next (s.takeCipher (· == 0x02))
def execCcmEnc (s : State) : Result := .next (s.takeCipher (· == 0x03))
def execCcmDec (s : State) : Result := .next (s.takeCipher (· == 0x04))
def execCmacGen (s : State) : Result := .next (s.takeCipher (· == 0x05))
def execCmacVer (s : State) : Result := .next (s.takeCipher (· == 0x06))
/-- SHA256, and an OP that is not listed. -/
def execSha256 (s : State) : Result := .next (s.takeCipher (fun op => op == 0x07 || (cipherOp op).isNone))
def execEcdsaSign (s : State) : Result := .next (s.takeCipher (· == 0x08))
def execEcdsaVer (s : State) : Result := .next (s.takeCipher (· == 0x09))
def execEcdh (s : State) : Result := .next (s.takeCipher (· == 0x0A))
def execKdf (s : State) : Result := .next (s.takeCipher (· == 0x0B))
def execRandom (s : State) : Result := .next (s.takeCipher (· == 0x0C))

/-! ### Outcomes (R284) -/

/-- Change the jobs with this tag. -/
def State.modJob (s : State) (tag : Nat) (f : CipherJob → CipherJob) : State :=
  { s with wd := { s.wd with jobs := s.wd.jobs.map (fun j => if j.tag = tag then f j else j) } }

/-- A job ends without output: a capture OUT has all its bytes overwritten with zeros. -/
def State.failJob (s : State) (j : CipherJob) (status : Nat) (detail : Byte) : State :=
  let s1 := { s with wd := { s.wd with jobs := s.wd.jobs.filter (fun x => x.tag ≠ j.tag) } }
  let s2 := if j.outKind = 2 then s1.setSpan j.outAddr (List.replicate j.outQ 0#8) else s1
  s2.endCipher j.tag status 0 detail (if j.entered then j.ctr else 0) (if j.entered then j.ver.toNat else 0)

/-- A job ends with this output. -/
def State.passJob (s : State) (j : CipherJob) (out : List Byte) : State :=
  let s1 := { s with wd := { s.wd with jobs := s.wd.jobs.filter (fun x => x.tag ≠ j.tag) } }
  if j.outKind = 1 then
    let r := s1.putPacket (.engine 4) j.outQ out
    let st := packetStatus r.1
    (r.2.1.tellPool r.2.2).endCipher j.tag st (if st = stOk then out.length else 0) 0#8 j.ctr j.ver.toNat
  else if j.outKind = 2 then (s1.setSpan j.outAddr out).endCipher j.tag stOk out.length 0#8 j.ctr j.ver.toNat
  else s1.endCipher j.tag stOk 0 0#8 j.ctr j.ver.toNat

/-! ### Engine entry (R280, R285) -/

/-- The operations that take counter values (R278). -/
def takesCounter (op : Nat) : Bool := op == 1 || op == 3

/-- SELFTEST runs, and jobs wait (R290). -/
def State.selftesting (s : State) : Bool := s.wd.mbxOp = some 0x09

/-- The first queued job enters an engine, if the mode, its slot's VERSION and its counter let it; jobs wait while SELFTEST runs. -/
def execCipherEngineEntry (s : State) : Result :=
  .next (
    if s.selftesting then s
    else
    match s.wd.jobs.find? (fun j => !j.entered) with
    | none => s
    | some j =>
      let uses := ((cipherOp j.op).bind (·.slot)).isSome
      if s.mode = 10 then s.failJob j stNotPermitted dMode
      else if uses && decide ((s.slot j.slot).version ≠ j.ver) then s.failJob j stKeyChanged 0#8
      else if takesCounter j.op then
        match s.takeCounter j.slot with
        | (none, s1) => s1.failJob j stExhausted 0#8
        | (some v, s1) => s1.modJob j.tag (fun x => { x with entered := true, key := s.slot j.slot, ctr := v })
      else s.modJob j.tag (fun x => { x with entered := true, key := if uses then s.slot j.slot else {} }))

/-! ### The engines (R282) -/

/-- A digest: the message's, or the message itself under PREHASH. -/
def digestOf (j : CipherJob) : List Byte := if j.prehash then j.inp else sha256 j.inp

/-- The output of a decryption, or the failure of its tag. -/
def opened (r : Option (List Byte)) : MbxOut × List Byte :=
  match r with
  | none => ((stAuthFail, 0#8), [])
  | some p => (mbxOk, p)

/-- ECDSA_VER: the key's validity, then the signature. -/
def verifyJob (j : CipherJob) : MbxOut :=
  let part := fun i => beNat ((j.inp2.drop (32 * i)).take 32)
  if ¬ ecValid (part 0) (part 1) then (stBad, dPoint)
  else if ecdsaVerify (part 0) (part 1) (part 2) (part 3) (digestOf j) then mbxOk else (stAuthFail, 0#8)

/-- The operations without an output slot or random values. -/
def cipherPure (j : CipherJob) : MbxOut × List Byte :=
  let iv := fun c => j.st ++ beBytes 4 c
  let nonce := fun c => j.st ++ beBytes 4 c ++ leBytes 1 j.slv
  match j.op with
  | 0x01 => (mbxOk, gcmEnc j.key.bytes (iv j.ctr) j.inp2 j.inp j.tagLen)
  | 0x02 => opened (gcmDec j.key.bytes (iv j.ic) j.inp2 j.inp j.tagLen)
  | 0x03 => (mbxOk, ccmEnc j.key.bytes (nonce j.ctr) j.inp2 j.inp j.tagLen)
  | 0x04 => opened (ccmDec j.key.bytes (nonce j.ic) j.inp2 j.inp j.tagLen)
  | 0x05 => (mbxOk, cmac j.key.bytes j.inp j.tagLen)
  | 0x06 => (if cmac j.key.bytes j.inp j.tagLen = j.inp2 then mbxOk else (stAuthFail, 0#8), [])
  | 0x07 => (mbxOk, sha256 j.inp)
  | 0x09 => (verifyJob j, [])
  | _ => (mbxOk, [])

/-- ECDH (R282): Z goes to SLOT2 as a SECRET with DERIVE; its counter is not stated. -/
def State.runEcdh (s : State) (j : CipherJob) : MbxOut × State :=
  let x := beNat (j.inp2.take 32)
  let y := beNat (j.inp2.drop 32)
  if ¬ ecValid x y then ((stBad, dPoint), s)
  else
    match ecMul (beNat j.key.bytes) (some (x, y)) with
    | none => ((stBad, dPoint), s)
    | some (z, _) => let c := s.free (2 ^ 32); (mbxOk, c.2.loadSlot j.slot2 4 0x20 c.1 (beBytes 32 z))

/-- KDF (R282): the key goes to SLOT2 with USAGE; its counter is not stated. -/
def State.runKdf (s : State) (j : CipherJob) : State :=
  let c := s.free (2 ^ 32)
  c.2.loadSlot j.slot2 (if j.k256 then 2 else 1) j.usage c.1 (kdf j.key.bytes j.inp (if j.k256 then 32 else 16))

/-- A job leaves the engine: its outcome, output and the state after. -/
def State.engine (s : State) (j : CipherJob) : MbxOut × List Byte × State :=
  if j.op = 0x08 then let r := s.signDigest (beNat j.key.bytes) (digestOf j); (mbxOk, r.1, r.2)
  else if j.op = 0x0A then let r := s.runEcdh j; (r.1, [], r.2)
  else if j.op = 0x0B then (mbxOk, [], s.runKdf j)
  else if j.op = 0x0C then let r := s.freeBytes j.count; (mbxOk, r.1, r.2)
  else let r := cipherPure j; (r.1, r.2, s)

/-- The first job in an engine leaves it and completes (R280, R284), but not while SELFTEST runs (R290). -/
def execCipherJobDone (s : State) : Result :=
  .next (
    if s.selftesting then s
    else
    match s.wd.jobs.find? (fun j => j.entered) with
    | none => s
    | some j =>
      match j.verdict with
      | some v => s.failJob j v.1.toNat v.2
      | none =>
        let r := s.engine j
        if r.1 = mbxOk then r.2.2.passJob j r.2.1 else r.2.2.failJob j r.1.1 r.1.2)

end Sys2Proof.Machine
end

