-- ==== Sys2Proof/Machine/Radio.lean ====
section
/-! DEFINITION. The Drevair transceiver (11): channels, airtime and dwell, frames and neighbours, and how an item, a link or a
flood ends. Time is in ticks of 32 iron-clock cycles. -/

namespace Sys2Proof.Machine

/-! ### Channels and airtime (R217, R218, R221, R229) -/

/-- Centre spacing in Hz; 3 acts as 2. -/
def State.rfSpacing (s : State) : Nat :=
  match s.get RF_PHY.SPACING with
  | 0 => 25000
  | 1 => 100000
  | _ => 200000

/-- Rs in Bd; 7 acts as 6. -/
def State.rfRate (s : State) : Nat :=
  match s.get RF_PHY.RATE with
  | 0 => 2400
  | 1 => 4800
  | 2 => 9600
  | 3 => 19200
  | 4 => 38400
  | 5 => 50000
  | _ => 100000

/-- The band in Hz; 3 acts as 0 (R217). -/
def State.rfBand (s : State) : Nat × Nat :=
  match s.get RF_CFG.BAND with
  | 1 => (470000000, 510000000)
  | 2 => (863000000, 928000000)
  | _ => (433050000, 434790000)

/-- Channel `i` is usable (R217, R236): twice its edges, within twice the band. That PROFILE 1, under which BAND must be 0 or 2, makes
every channel of BAND 1 unusable, so that R218 refuses ENABLE, is a DESIGN CHOICE (log 67). -/
def State.rfUsable (s : State) (i : Nat) : Bool :=
  let c := s.get RF_SYNTH.F0 * 25 + i * s.rfSpacing
  let lo := 2 * c - s.rfSpacing
  let hi := 2 * c + s.rfSpacing
  let b := s.rfBand
  decide (s.rfSpacing ≤ 2 * c ∧ 2 * b.1 ≤ lo ∧ hi ≤ 2 * b.2) &&
    (decide (s.get RF_CFG.PROFILE ≠ 2) || decide (2 * 902000000 ≤ lo ∧ hi ≤ 2 * 928000000)) &&
    (decide (s.get RF_CFG.PROFILE ≠ 1) || decide (s.get RF_CFG.BAND ≠ 1))

/-- Usable channels of a map, ascending. -/
def State.rfUsed (s : State) (map : Nat) : List Nat := (List.range 64).filter (fun i => bit map i && s.rfUsable i)

/-- Symbols of the preamble; PRE below 4 acts as 4. -/
def State.rfPre (s : State) : Nat := 8 * max 4 (s.get RF_PHY.PRE)

/-- Payload bits of a frame of `n` bytes (R221). -/
def rfBits (n : Nat) (coded : Bool) : Nat := if coded then 16 * n + 44 else 8 * n + 16

/-- Symbols of a frame of `n` bytes (R221). -/
def State.rfSymbols (s : State) (n : Nat) (coded : Bool) : Nat :=
  s.rfPre + 76 + (if s.flag RF_PHY.MOD then (rfBits n coded + 1) / 2 else rfBits n coded)

/-- The sync word, bit 15 first (R221). -/
def rfSyncWord : List Nat := msbBits (beBytes 2 0x9E2B)

/-- The payload's bits: coded as a line frame's under CP2 is, or LEN bytes and the CRC-16 alone (R221). -/
def rfPayloadBits (l : List Byte) (coded : Bool) : List Nat :=
  if coded then payloadBits l 2 else msbBits (l ++ beBytes 2 (crc16 l))

/-- The symbols of a frame with MAC frame `l`, as deviations in units of Rs / 12 (R80, R218, R221): H1 carries CODED in bit 7. -/
def State.rfFrame (s : State) (l : List Byte) (coded : Bool) : List Int :=
  gfsk2 ((List.range s.rfPre).map (fun i => (i + 1) % 2) ++ rfSyncWord ++
      codeHeader (leBytes 1 l.length ++ leBytes 1 (128 * b2n coded))) ++
    (if s.flag RF_PHY.MOD then gfsk4 (rfPayloadBits l coded) else gfsk2 (rfPayloadBits l coded))

/-- Airtime in µs, rounded up. -/
def State.rfAir (s : State) (n : Nat) (coded : Bool) : Nat :=
  (s.rfSymbols n coded * 1000000 + s.rfRate - 1) / s.rfRate

/-- The tick now. -/
def State.tick (s : State) : Nat := s.iron.rtc / 32

/-- The radio runs (R304). -/
def State.radioOn (s : State) : Bool := s.flag RF_CFG.ENABLE && s.radioMode

/-! ### Dwell (R235, R236) -/

/-- Airtime of one LAST_GASP frame, 43 bytes coded. -/
def State.rfReserve (s : State) : Nat := s.rfAir 43 true

/-- LIMIT in µs and WINDOW in ticks. -/
def State.rfLimit (s : State) : Nat := if s.get RF_CFG.PROFILE = 2 then 400000 else s.get RF_DWELL.LIMIT * 1000
def State.rfWindow (s : State) : Nat :=
  1024 * (if s.get RF_CFG.PROFILE = 2 then 20 else max 1 (s.get RF_DWELL.WINDOW))

/-- The reserve that applies to a frame on channel `ch`. -/
def State.rfReserveOn (s : State) (ch : Nat) (gasp : Bool) : Nat :=
  if ch = s.get RF_FLOOD.CHAN ∧ ¬ gasp then s.rfReserve else 0

/-- Ticks that `a` µs take, rounded up. -/
def rfTicks (a : Nat) : Nat := (a * 1024 + 999999) / 1000000

/-- The on-air time of a recorded transmission after tick `lo`, in µs. A transmission is recorded at the resolution of one tick, and so is
the part of it that lies after `lo` (R235, log 67). -/
def dwellAfter (lo : Nat) (e : Nat × Nat × Nat) : Nat := min e.2.2 ((e.2.1 - lo) * 15625 / 16)

/-- A frame of airtime `a` may start on channel `ch` at tick `t`. -/
def State.rfDwell (s : State) (ch t a : Nat) (gasp : Bool) : Bool :=
  let sum := fun (w : Nat) (l : List (Nat × Nat × Nat)) => (l.map (dwellAfter (t + rfTicks a - w))).sum
  let here := sum s.rfWindow (s.radio.dwell.filter (fun e => e.1 = ch))
  let all := sum (3600 * 1024) s.radio.dwell
  let r := s.rfReserveOn ch gasp
  decide (here + a + r ≤ s.rfLimit) &&
    (decide (s.get RF_CFG.PROFILE ≠ 1) ||
      decide (all + a + (if gasp then 0 else s.rfReserve) ≤ s.get RF_DWELL.DUTY * 3600000))

/-! ### Showing and sending -/

/-- RF_STAT follows what the radio does: in a link event it receives while it does not send. A detection of the
sniffer keeps the receiver on (R239). -/
def State.rfShow (s : State) : State :=
  let scan := (List.range 16).any (fun c => decide (s.get (RF_LCFG.STATE c) = 2))
  let st := if ¬ s.radioOn then (if s.radio.sniffed ∧ s.mode ≤ 3 then 4 else 0)
    else if s.radio.tx ≠ .none then 3
    else if s.radio.rx.isSome ∨ s.radio.event.isSome then 2
    else if scan then 5 else 1
  let links := ((List.range 16).map (fun c => if s.get (RF_LCFG.STATE c) = 4 then 2 ^ c else 0)).sum
  ((s.put RF_STAT.STATE st).putFlag RF_STAT.PA_ON (decide (s.radio.tx ≠ .none) || s.radio.paTail)).put RF_STAT.LINKS links

/-- Levels of RF_PAEN and RF_LNAEN (R219): the PA is on from the lead of a transmission to 1 symbol after it, the LNA while the receiver
or the sniffer listens. -/
def State.paPin (s : State) : Bool := s.flag RF_STAT.PA_ON ^^ s.flag RF_PWR.PA_POL
def State.lnaPin (s : State) : Bool := decide (s.get RF_STAT.STATE = 2 ∨ s.get RF_STAT.STATE = 4 ∨ s.get RF_STAT.STATE = 5) ^^ s.flag RF_PWR.LNA_POL

/-- The internal output level in 0.5 dBm (R219); LEVEL above 48 acts as 48. -/
def State.rfLevel (s : State) : Int := -20 + (min 48 (s.get RF_PWR.LEVEL) : Nat)

/-- Class of an activity in the order of R234. A flood of the host, which the order does not name, stands with the forwards (log 67). -/
def RfTx.cls (x : RfTx) : Nat :=
  match x with
  | .none => 9
  | .flood Option.none _ => 1
  | .flood (some _) _ => 4
  | .beacon => 3
  | .forward _ _ => 4
  | _ => 2

/-- An activity of class `c` gets the transceiver: no link event is in progress, which nothing cuts (R234), and it is free or a lower
class holds it. -/
def State.rfFree (s : State) (c : Nat) : Bool := decide (c < s.radio.tx.cls) && s.radio.event.isNone

/-- What is on the air ends at tick `t`: so long the record of dwell counts it. -/
def State.rfCut (s : State) (t : Nat) : State :=
  if s.radio.tx = .none then s
  else
    let cut := fun (e : Nat × Nat × Nat) => (e.1, min t e.2.1, min e.2.2 ((t + 1 - (e.2.1 - rfTicks e.2.2)) * 15625 / 16))
    { s with radio := { s.radio with
        tx := .none, paTail := true, dwell := s.radio.dwell.dropLast ++ (s.radio.dwell.getLast?.map cut).toList } }

/-- A frame starts: what is on the air, and the record of dwell. A leader's frame begins its link's event (R230). -/
def State.rfSend (s : State) (x : RfTx) (frame : List Byte) (coded : Bool) (ch t : Nat) : State :=
  let s1 := s.rfCut t
  let a := s1.rfAir frame.length coded
  let old := s1.radio.dwell.filter (fun d => decide (t < d.2.1 + 3600 * 1024))
  let event := match x with
    | .item c | .poll c => some c
    | _ => s1.radio.event
  ({ s1 with radio := { s1.radio with
      tx := x, air := frame, airCoded := coded, dwell := old ++ [(ch, t + rfTicks a, a)], rx := none, listen := false,
      event := event } }).rfShow

/-- The event in progress ends. -/
def State.rfEndEvent (s : State) : State := ({ s with radio := { s.radio with event := none, listen := false } }).rfShow

/-- The event of link c ends, if it is in progress. -/
def State.rfEndOf (s : State) (c : Nat) : State := if s.radio.event = some c then s.rfEndEvent else s

/-- A frame is deferred (R235). -/
def State.rfDefer (s : State) : State := s.setEvt RF_EVT.DWELL_DEFER

/-! ### Neighbours (R225) -/

/-- Address of neighbour entry `i`. -/
def State.nbrAddr (s : State) (i : Nat) : Nat := sramBase + s.get RF_NBR.BASE * 256 + 32 * i
/-- `n` bytes at offset `off` of entry `i`. -/
def State.nbrBytes (s : State) (i off n : Nat) : List Byte := s.bytes (s.nbrAddr i + off) n
def State.nbrNat (s : State) (i off n : Nat) : Nat := leNat (s.nbrBytes i off n)
def State.nbrEui (s : State) (i : Nat) : List Byte := s.nbrBytes i 0 8
def State.nbrState (s : State) (i : Nat) : Nat := s.nbrNat i 8 1 % 4
/-- The device writes part of an entry. -/
def State.putNbr (s : State) (i off : Nat) (l : List Byte) : State :=
  let a := s.nbrAddr i + off
  (s.readSpan a l.length).setPart a l
/-- STATE of an entry. -/
def State.setNbrState (s : State) (i v : Nat) : State :=
  s.putNbr i 8 (leBytes 1 (putBits (s.nbrNat i 8 1) 1 0 v))
/-- The entry of a sender that is not EMPTY. -/
def State.findNbr (s : State) (eui : List Byte) : Option Nat :=
  (List.range 256).find? (fun i => decide (s.nbrState i ≠ 0 ∧ s.nbrEui i = eui))

/-! ### Link contexts (R227) -/

/-- ROLE of context c: 0 LEADER (3 acts as it), 1 FOLLOWER, 2 TRACK. -/
def State.rfRole (s : State) (c : Nat) : Nat := if s.get (RF_LCFG.ROLE c) = 3 then 0 else s.get (RF_LCFG.ROLE c)
def State.rfState (s : State) (c : Nat) : Nat := s.get (RF_LCFG.STATE c)
def State.rfNbr (s : State) (c : Nat) : Nat := s.get (RF_LCFG.NBR c)
/-- A link is open on context c; tracking is not a link. -/
def State.rfLinked (s : State) (c : Nat) : Bool := decide (s.rfState c = 4 ∧ s.rfRole c ≠ 2)

/-- INTERVAL of context c in ticks, for a tracked neighbour its beacons' (R231). -/
def State.rfInterval (s : State) (c : Nat) : Nat :=
  if s.rfRole c = 2 then (s.rlink c).bcnInt else s.get (RF_LTIME.INTERVAL c)

/-- The tick of the next anchor of context c (R228, R231). -/
def State.rfNext (s : State) (c : Nat) : Nat := (s.rlink c).anchor + (if (s.rlink c).begun then s.rfInterval c else 0)

/-- A transmission of airtime `a` from tick `t` on overlaps the next event of an open link, whose first frame begins its preamble and
sync word before the anchor (R234). -/
def State.rfClash (s : State) (t a : Nat) : Bool :=
  let lead := ((s.rfPre + 16) * 1024 + s.rfRate - 1) / s.rfRate
  (List.range 16).any (fun c => decide (s.rfState c = 4 ∧ t ≤ s.rfNext c ∧ s.rfNext c ≤ t + rfTicks a + lead))

/-- A radio event (R242). -/
def State.rfEvent (s : State) (reason status source body : Nat) (quality eui : List Byte) : State :=
  s.event 9 status source (reason + body * 65536) (padTo 8 quality ++ padTo 8 eui)

/-- An item completes. -/
def State.endItem (s : State) (x : RfItem) (status info : Nat) (quality : List Byte) : State :=
  match x.tag with
  | none => s
  | some t => s.complete t status (clampNat 255 x.attempts + x.seq * 256 + info) quality

/-- The state an armed context enters, without a link (R227, R231). -/
def State.rfRest (s : State) (c : Nat) : Nat :=
  if ¬ s.flag (RF_LCFG.ENABLE c) ∨ ¬ s.radioOn then 0 else if s.rfRole c = 0 then 1 else 2

/-- Context c enters the state it rests in; a scan begins on CH0 (R231). -/
def State.rfPark (s : State) (c : Nat) : State :=
  (s.put (RF_LCFG.STATE c) (s.rfRest c)).modRlink c (fun x => { x with scan := 0 })

/-- Another context has a link to the neighbour of context c open. -/
def State.rfOther (s : State) (c : Nat) : Bool :=
  (List.range 16).any (fun d => decide (d ≠ c ∧ s.rfNbr d = s.rfNbr c) && s.rfLinked d)

/-- A link ends (R231, R233, R240) with a reason: 0, 3 BEACON_LOST or 4 SUPERVISION. Its pending sends complete NO_ACK, LINK_LOST. -/
def State.endLink (s : State) (c reason : Nat) : State :=
  if s.rfState c ≠ 4 then s.rfPark c
  else
    let i := s.rfNbr c
    let s1 := foldState (s.rlink c).items (fun x t => t.endItem x stNoAck (2 ^ 30) []) s
    let s2 := s1.modRlink c (fun x => { x with items := [], begun := false, map := none, agreed := false, fails := 0 })
    let s3 := if s2.rfLinked c ∧ s2.nbrState i = 2 ∧ ¬ s2.rfOther c then s2.setNbrState i 1 else s2
    let s4 := if s3.radio.event = some c then
      { s3 with radio := { s3.radio with rx := none, event := none, listen := false } } else s3
    let s5 := ((s4.put (RF_LSTAT.LAST_END c) reason).rfPark c).rfShow
    if reason = 0 then s5
    else (s5.setEvt RF_EVT.LINK_LOST).rfEvent reason 0 c 0 (s5.nbrBytes i 20 8) (s5.nbrEui i)

/-- Every link ends, and each context rests as its role and the mode say. -/
def State.endLinks (s : State) (reason : Nat) : State :=
  foldState (List.range 16) (fun c t => t.endLink c reason) s

/-- The radio's transactions end with a status: items of links and floods. -/
def State.endRadio (s : State) (status info : Nat) : State :=
  let s1 := foldState (List.range 16) (fun c t =>
    (foldState (t.rlink c).items (fun x u => u.endItem x status info []) t).modRlink c (fun y => { y with items := [] })) s
  let s2 := foldState s1.radio.floods (fun f t => (f.1.map (fun g => t.complete g status info [])).getD t) s1
  { s2 with radio := { s2.radio with floods := s2.radio.floods.filter (fun f => f.1.isNone) } }

/-- The transceiver stops: nothing on the air, nothing received, no forward pending. -/
def State.rfStop (s : State) : State :=
  let s1 := s.rfCut s.tick
  ({ s1 with radio := { s1.radio with rx := none, event := none, listen := false, fwds := [] } }).rfShow

/-- After a change of mode or of RF_CFG.ENABLE: the radio stops, its links ending with no reason, or its contexts resume as armed. -/
def State.followRadio (s : State) (was : Bool) : State :=
  if was = s.radioOn then s
  else if was then
    (s.endLinks 0).rfStop
  else (s.endLinks 0).rfShow

/-! ### Retries (R232) -/

/-- Change the item of link c that is on the air. -/
def State.modItem (s : State) (c : Nat) (f : RfItem → RfItem) : State :=
  s.modRlink c (fun x => { x with items := x.items.map (fun y => if y.onAir then f y else y) })

/-- The item of link c that is on the air, or was sent in this event and is not yet judged. -/
def State.itemOn (s : State) (c : Nat) : Option RfItem := (s.rlink c).items.find? (·.onAir)

/-- The item on the air leaves its list. -/
def State.dropOn (s : State) (c : Nat) : State :=
  s.modRlink c (fun x => { x with items := x.items.filter (fun y => !y.onAir) })

/-- Its attempt has failed: so many events pass after this one, and it is sent in the next. -/
def State.failItem (s : State) (c : Nat) (busy : Bool) : State :=
  match s.itemOn c with
  | none => s
  | some x =>
    if s.get RF_CFG.RETRY_MAX < x.attempts then
      (s.dropOn c).endItem x (if busy then stQueueFull else stNoAck) 0 []
    else
      let r := s.free (min (2 ^ x.attempts) 16)
      r.2.modItem c (fun y => { y with onAir := false, skip := r.1 + 1 })

/-- Its attempt has been acknowledged. A MAP_SET is then known to both ends. -/
def State.ackItem (s : State) (c : Nat) (quality : List Byte) : State :=
  match s.itemOn c with
  | none => s
  | some x =>
    let s1 := (s.dropOn c).endItem x stOk 0 quality
    if x.type = 7 ∧ u8 x.body 0 = 1 then s1.modRlink c (fun y => { y with agreed := true }) else s1

/-! ### Protection (R224, R90, R91) -/

/-- FCTL to SRC of a frame the device sends. -/
def State.rfHead (s : State) (type : Nat) (sec ackreq ackd : Bool) (seq : Nat) (dst : List Byte) : List Byte :=
  leBytes 1 (type * 32 + b2n sec * 16 + b2n ackreq * 8 + b2n (decide (dst.length = 8)) * 4 + 2 + b2n ackd) ++
    leBytes 1 seq ++ dst ++ s.ownEui

/-- Protect and take the counter value: status, frame, state after. SLV 0 stands for an unsecured frame. -/
def State.rfSeal (s : State) (slv : Nat) (eui : List Byte) (gen : Nat) (head body : List Byte) : Nat × List Byte × State :=
  if slv = 0 then (stOk, head ++ body, s)
  else
    let group := bit slv 3
    let r := s.takeFrameKey (if group then s.get RF_CFG.GROUP_SLOT else s.get RF_CFG.LINK_SLOT) group
      (fun k => if group then k.bytes else linkKeyOf k [0x52#8, 0x4B#8] eui (leBytes 1 gen))
    if r.1 ≠ stOk then (r.1, [], r.2.2.2)
    else
      let aad := head ++ leBytes 1 slv ++ leBytes 4 r.2.1
      (stOk, aad ++ protect r.2.2.1 (frameNonce s.ownEui r.2.1 slv) slv aad body, r.2.2.2)

/-- A received radio frame. -/
structure RfMac where
  type : Nat
  sec : Bool
  ackreq : Bool
  ackd : Bool
  seq : Nat
  dst : List Byte
  src : List Byte
  /-- FCTL to SRC, and what follows. -/
  head : List Byte
  rest : List Byte
  deriving DecidableEq, Repr

/-- Read a radio MAC frame whose addresses are as R224 says. -/
def parseRf (l : List Byte) : Option RfMac :=
  let c := u8 l 0
  let t := c / 32
  let dl := if t = 0 then 0 else if t = 6 then 2 else 8
  let n := 2 + dl + 8
  if l.length < n ∨ ¬ bit c 1 ∨ (t ≠ 0 ∧ bit c 2 ≠ decide (dl = 8)) then none
  else
    let m : RfMac :=
      { type := t, sec := bit c 4, ackreq := bit c 3, ackd := bit c 0, seq := u8 l 1, dst := (l.drop 2).take dl,
        src := (l.drop (2 + dl)).take 8, head := l.take n, rest := l.drop n }
    if t = 6 ∧ m.dst ≠ [0xFF#8, 0xFF#8] then none else some m

/-- FC of a secured frame. -/
def RfMac.fc (m : RfMac) : Nat := u32 m.rest 1

/-- Check and open a frame under the group key. -/
def State.rfOpenGroup (s : State) (m : RfMac) : Option (List Byte) :=
  if m.sec ∧ 13 ≤ m.rest.length ∧ u8 m.rest 0 = 10 then
    match s.frameKey (s.get RF_CFG.GROUP_SLOT) true (·.bytes) with
    | none => none
    | some key => unprotect key (frameNonce m.src m.fc 10) 10 (m.head ++ m.rest.take 5) (m.rest.drop 5)
  else none

/-- Check and open a frame under the link key of neighbour `i`, at SLV `slv`. -/
def State.rfOpenLink (s : State) (m : RfMac) (i slv : Nat) : Option (List Byte) :=
  if m.sec ∧ 13 ≤ m.rest.length ∧ u8 m.rest 0 = slv then
    match s.frameKey (s.get RF_CFG.LINK_SLOT) false
        (fun k => linkKeyOf k [0x52#8, 0x4B#8] (s.nbrEui i) (s.nbrBytes i 11 1)) with
    | none => none
    | some key => unprotect key (frameNonce m.src m.fc slv) slv (m.head ++ m.rest.take 5) (m.rest.drop 5)
  else none

/-! ### Quality (R223) -/

/-- A radio frame whose PHY part has been received and whose CRC holds (R221, R222): the MAC frame, CODED of its header, what the quality
block reports, the link in whose event it came, and the ticks of the sync word's end and of its own. -/
structure RfGot where
  frame : List Byte
  coded : Bool
  rssi : Byte
  snr : Byte
  fofs : BitVec 16
  chan : Nat
  link : Option Nat
  sync : Nat
  tick : Nat
  deriving DecidableEq, Repr

/-- The quality block of a frame. -/
def rfQuality (r : RfGot) (flood : Bool) (event : Nat) : List Byte :=
  [r.rssi, r.snr] ++ leBytes 2 r.fofs.toNat ++ leBytes 1 r.chan ++ leBytes 1 (r.link.getD 0 + b2n flood * 128) ++ leBytes 2 event

/-- EVENT of the link that a frame belongs to. -/
def State.rfEventNo (s : State) (r : RfGot) : Nat := (r.link.map (fun c => s.get (RF_LSTAT.EVENT c))).getD 0

/-! ### Floods (R237, R238) -/

/-- Insert a pair into the seen-cache of 256 entries. -/
def State.remember (s : State) (orig : List Byte) (fseq : Nat) : State :=
  let l := s.radio.seen ++ [(orig, fseq)]
  { s with radio := { s.radio with seen := l.drop (l.length - 256) } }

/-- TTL of originated floods; 0 acts as 1. -/
def State.floodTtl (s : State) : Nat := max 1 (s.get RF_FLOOD.TTL)

/-- The device originates a flood: its own pair enters the cache, the body is queued. -/
def State.originate (s : State) (tag : Option Nat) (kind ttl : Nat) (coded : Bool) (content : List Byte) : State :=
  let n := s.radio.fseq.toNat
  let body := s.ownEui ++ leBytes 2 n ++ leBytes 1 ttl ++ leBytes 1 kind ++ content
  let s1 := s.remember s.ownEui n
  { s1 with radio := { s1.radio with
      fseq := s1.radio.fseq + 1, floods := s1.radio.floods ++ [(tag, decide (kind = 1), coded, body)] } }

/-- A flood leaves the queue, and its transaction completes. INFO counts one attempt, and shows the SEQ of the frame sent. -/
def State.endFlood (s : State) (tag : Option Nat) (gasp : Bool) (status : Nat) : State :=
  match s.radio.floods.find? (fun f => decide (f.1 = tag) && f.2.1 == gasp) with
  | none => s
  | some f =>
    let s1 := { s with radio := { s.radio with floods := s.radio.floods.erase f } }
    (tag.map (fun g => s1.complete g status (if status = stOk then 1 + 256 * u8 s1.radio.air 1 else 0) [])).getD s1

/-- Start the flood `f`, which stays queued until it has been sent, on the flood channel: protected with a new group counter value. -/
def State.startFlood (s : State) (f : Option Nat × Bool × Bool × List Byte) (t : Nat) : State :=
  let ch := s.get RF_FLOOD.CHAN
  let n := 25 + f.2.2.2.length
  if ¬ s.rfDwell ch t (s.rfAir n f.2.2.1) f.2.1 then s.rfDefer
  else
    -- Which SEQ a flood carries is open.
    let sq := s.free 256
    let r := sq.2.rfSeal 10 [] 0 (s.rfHead 6 true false false sq.1 [0xFF#8, 0xFF#8]) f.2.2.2
    if r.1 ≠ stOk then r.2.2.endFlood f.1 f.2.1 r.1
    else r.2.2.rfSend (.flood f.1 f.2.1) r.2.1 f.2.2.1 ch t

/-- A flood of the host waits for a link event that it would overlap (R234, log 67). -/
def State.floodWaits (s : State) (f : Option Nat × Bool × Bool × List Byte) : Bool :=
  f.1.isSome && s.rfClash s.tick (s.rfAir (25 + f.2.2.2.length) f.2.2.1)

/-- Start the oldest RESTORED flood, else the oldest of the host that need not wait, if the transceiver is free. -/
def State.kickFloods (s : State) : State :=
  if ¬ s.radioOn ∨ s.radio.tx ≠ .none ∨ s.radio.event.isSome then s
  else
    let l := s.radio.floods.filter (fun f => !f.2.1)
    match (l.find? (fun f => f.1.isNone)).or (l.find? (fun f => !s.floodWaits f)) with
    | none => s
    | some f => s.startFlood f s.tick

/-- The LAST_GASP flood at Outage entry (R238). -/
def State.lastGasp (s : State) : State :=
  if ¬ s.flag RF_CFG.ENABLE then s
  else s.originate none 1 s.floodTtl true (leBytes 4 (s.get PWR_MCYC.CYCLE) ++ leBytes 2 (s.get CT_DIN.LEVEL))

/-- What Outage entry does to a transmission and a reception in progress (R238). -/
def State.cutRadio (s : State) : State :=
  let s1 := s.rfCut s.tick
  let s2 := ({ s1 with radio := { s1.radio with rx := none, event := none, listen := false } }).rfShow
  match s.radio.tx with
  | .item c => s2.failItem c false
  | .bye c => s2.endLink c 0
  | _ => s2

/-- The restore epoch is raised (R102): EPOCH, each port's SALT from the DRBG, the event, the RESTORED flood (R238), and the
follower is told (R326). -/
def State.raiseEpoch (s : State) : State :=
  let e := s.get LK_EPOCH.EPOCH
  let next := if e = 0xFFFF then 1 else e + 1
  let s1 := s.put LK_EPOCH.EPOCH next
  let s2 := foldState (List.range 4) (fun p t => let r := t.free 65536; r.2.put (LP_STORM.SALT p) r.1) s1
  let s3 := s2.setEvt LK_EVT.EPOCH_RAISED
  let s4 := if s3.role = 1 ∧ s3.linkUp then
      { s3 with al := { s3.al with outbox := s3.al.outbox ++ [.epoch (BitVec.ofNat 16 next)] } }
    else s3
  if s4.flag RF_CFG.ENABLE then
    (s4.originate none 2 s4.floodTtl true (leBytes 2 next ++ leBytes 4 (s4.get PWR_MCYC.CYCLE))).kickFloods
  else s4

end Sys2Proof.Machine
end

