-- ==== Sys2Proof/Machine/RadioCmd.lean ====
section
/-! DEFINITION. Commands of the radio (11): registers, beacons, link events, received frames, floods, the sniffer, RADIO_SEND. -/

namespace Sys2Proof.Machine

/-! ### Registers (R218, R227, R229, R233, R236) -/

/-- The occupied bandwidth exceeds the spacing, or fewer than 3 channels are usable. -/
def State.rfBadCfg (s : State) : Bool :=
  decide ((if s.flag RF_PHY.MOD then 2 * s.rfRate else 3 * s.rfRate / 2) > s.rfSpacing) ||
    decide ((s.rfUsed (2 ^ 64 - 1)).length < 3)

/-- A write of RF_CFG whose refused fields already hold their own value. -/
def State.writeRfCfg (s : State) (value : Word) : State :=
  let was := s.radioOn
  let on := s.flag RF_CFG.ENABLE
  let s1 := s.merge RF_CFG 0x7FFF7F7F value
  let s2 := if ¬ bit value.toNat 31 then s1.putFlag RF_CFG.ENABLE false
    else if s1.rfBadCfg then (s1.putFlag RF_CFG.ENABLE on).setEvt RF_EVT.CFG_REFUSED
    else s1.putFlag RF_CFG.ENABLE true
  s2.followRadio was

def execRadioEnable (who : Accessor) (value : Word) (s : State) : Result :=
  .next (s.enter who RF_CFG (fun t => let g := t.gate who RF_CFG value; g.2.writeRfCfg g.1))

/-- The leader's map of context c, as its registers hold it. -/
def State.rfMap (s : State) (c : Nat) : Nat := s.get (RF_LMAP_LO.CHANNELS c) + s.get (RF_LMAP_HI.CHANNELS c) * 2 ^ 32

/-- The map bits of usable channels; the others read 0 (R217). -/
def State.rfMask (s : State) : Nat := ((List.range 64).map (fun i => b2n (s.rfUsable i) * 2 ^ i)).sum

/-- RF_LMAP_LO and RF_LMAP_HI of context c as they read. -/
def State.lmapReg (s : State) (c : Nat) (hi : Bool) : Word :=
  BitVec.ofNat 32 ((s.rfMap c &&& s.rfMask) / (if hi then 2 ^ 32 else 1))

/-- A leader's map that R229 or R236 refuses. -/
def State.rfThinMap (s : State) (map : Nat) : Bool :=
  let n := (s.rfUsed map).length
  decide (n < 2) || (decide (s.get RF_CFG.PROFILE = 2) && decide (n < 50))

/-- A write of RF_LCFG: ROLE and NBR only while ENABLE = 0; arming a leader whose map R236 refuses is discarded. -/
def State.writeRfLcfg (s : State) (c : Nat) (value : Word) : State :=
  let was := s.flag (RF_LCFG.ENABLE c)
  let s1 := if was then s else s.merge (RF_LCFG c) 0x600000FF value
  let on := bit value.toNat 31
  if was = on then s1
  else if ¬ on then
    let s2 := if s1.rfState c = 4 then s1.endLink c 0 else s1
    ((s2.putFlag (RF_LCFG.ENABLE c) false).put (RF_LCFG.STATE c) 0).rfShow
  else if s1.rfRole c = 0 ∧ s1.get RF_CFG.PROFILE = 2 ∧ (s1.rfUsed (s1.rfMap c)).length < 50 then
    s1.setEvt RF_EVT.CFG_REFUSED
  else
    ((s1.putFlag (RF_LCFG.ENABLE c) true).rfPark c).rfShow

def execLinkArm (who : Accessor) (c : LinkC) (value : Word) (s : State) : Result :=
  .next (s.enter who (RF_LCFG c) (fun t => t.writeRfLcfg c value))

/-- A write of RF_LTIME: a leader's alone. -/
def State.writeRfLtime (s : State) (c : Nat) (value : Word) : State :=
  if s.rfRole c = 0 then s.setReg (RF_LTIME c) value else s

/-- The MAP_SET of the map with its FROM, event + 8 (R233). -/
def State.mapItem (s : State) (c : Nat) (map : Nat) : State :=
  let from_ := (s.get (RF_LSTAT.EVENT c) + 8) % 65536
  let x : RfItem :=
    { tag := none, prio := 7, ackreq := true, coded := true, type := 7, frame := [], seq := 0, attempts := 0, skip := 0,
      onAir := false, body := [1#8] ++ leBytes 2 from_ ++ leBytes 8 (map &&& s.rfMask) }
  s.modRlink c (fun y =>
    { y with map := some (from_, BitVec.ofNat 64 map), agreed := false,
             items := x :: y.items.filter (fun i => !(decide (i.type = 7) && decide (u8 i.body 0 = 1))) })

/-- A write of half a leader's map; a write of the low half arms a MAP_SET on an open link. -/
def State.writeRfLmap (s : State) (c : Nat) (high : Bool) (value : Word) : State :=
  let old := s.rfMap c
  let new := if high then old % 2 ^ 32 + value.toNat * 2 ^ 32 else old / 2 ^ 32 * 2 ^ 32 + value.toNat
  if s.rfRole c ≠ 0 then s
  else if s.rfThinMap new then s.setEvt RF_EVT.CFG_REFUSED
  else
    let s1 := s.setReg (if high then RF_LMAP_HI c else RF_LMAP_LO c) value
    if ¬ high ∧ s1.rfLinked c then s1.mapItem c new else s1

def execMapSetArm (who : Accessor) (c : LinkC) (value : Word) (s : State) : Result :=
  .next (s.enter who (RF_LMAP_LO c) (fun t => t.writeRfLmap c false value))

/-- Event FROM − 1 has come, and the MAP_SET has not been acknowledged: it is dropped and replaced with a new FROM (R233). -/
def execMapSetResend (c : LinkC) (s : State) : Result :=
  .next (
    match (s.rlink c).map with
    | none => s
    | some m =>
      let late := decide ((s.get (RF_LSTAT.EVENT c) + 65537 - m.1) % 65536 < 32768)
      if s.rfLinked c ∧ s.rfRole c = 0 ∧ ¬ (s.rlink c).agreed ∧ late then s.mapItem c m.2.toNat else s)

/-! ### Beacons (R224, R227) -/

/-- The beacon's interval in ticks; 0 acts as 1. -/
def State.bcnTicks (s : State) : Nat := 64 * max 1 (s.get RF_DISC.BCN_INT)

/-- CH0 to CH2 of the device. -/
def State.discChans (s : State) : List Nat := [s.get RF_DISC.CH0, s.get RF_DISC.CH1, s.get RF_DISC.CH2]

/-- Body of the device's beacon. -/
def State.beaconBody (s : State) : List Byte :=
  leBytes 4 (s.get PWR_MCYC.CYCLE) ++ leBytes 2 (s.get LK_EPOCH.EPOCH) ++ leBytes 2 s.bcnTicks ++ leBytes 2 s.radio.bseq ++
    s.discChans.flatMap (fun c => leBytes 1 c) ++ leBytes 1 (s.get RF_DISC.ACCEPT)

/-- BSEQ rises with every beacon, sent or skipped. -/
def State.nextBeacon (s : State) : State :=
  { s with radio := { s.radio with bseq := (s.radio.bseq + 1) % 65536 } }

def execRadioBeaconTx (s : State) : Result :=
  .next (
    if ¬ s.radioOn ∨ ¬ s.flag RF_DISC.BCN_EN then s
    else
      let ch := nth 0 s.discChans (s.radio.bseq % 3)
      let sq := s.free 256
      let cd := sq.2.free 2
      let air := s.rfAir (23 + s.beaconBody.length) (decide (cd.1 = 1))
      if ¬ s.rfFree 3 ∨ s.rfClash s.tick air then s.nextBeacon else
      let head := leBytes 1 (2 + 16) ++ leBytes 1 sq.1 ++ s.ownEui
      if ¬ s.rfDwell ch s.tick air false then s.rfDefer.nextBeacon
      else
        let r := cd.2.rfSeal 10 [] 0 head s.beaconBody
        if r.1 ≠ stOk then r.2.2.nextBeacon
        else
          let s1 := (r.2.2.rfSend .beacon r.2.1 (decide (cd.1 = 1)) ch s.tick).nextBeacon
          if s.radio.bseq = 0 then { s1 with radio := { s1.radio with t0 := s.tick } } else s1)

/-! ### Sending in a link event (R230, R232) -/

/-- Protect an item when it is first sent (R91): it takes TX_SEQ of the neighbour. -/
def State.sealItem (s : State) (c : Nat) (x : RfItem) : Nat × RfItem × State :=
  if x.frame ≠ [] then (stOk, x, s)
  else
    let i := s.rfNbr c
    let seq := s.nbrNat i 9 1
    let sec := !x.body.isEmpty
    let head := s.rfHead x.type sec x.ackreq (decide (s.rfRole c = 1)) seq (s.nbrEui i)
    let r := s.rfSeal (if sec then 6 else 0) (s.nbrEui i) (s.nbrNat i 11 1) head x.body
    if r.1 ≠ stOk then (r.1, x, r.2.2)
    else (stOk, { x with frame := r.2.1, seq := seq }, r.2.2.putNbr i 9 (leBytes 1 (seq + 1)))

/-- Every waiting item lets one event pass. -/
def RfItem.wait (x : RfItem) : RfItem := { x with skip := x.skip - 1 }

/-- The first item that may be sent. -/
def State.rfReady (s : State) (c : Nat) : Option RfItem := (s.rlink c).items.find? (fun x => decide (x.skip = 0))

/-- Send item `x` of link c in the event now. A frame that dwell defers, or that no key protects, leaves `other`. -/
def State.sendItem (s : State) (c : Nat) (x : RfItem) (ch t : Nat) (other : State → State) : State :=
  let n := x.body.length + (if x.body.isEmpty then 18 else 31)
  if ¬ s.rfDwell ch t (s.rfAir n x.coded) false then s.rfDefer
  else
    let r := s.sealItem c x
    let drop := r.2.2.modRlink c (fun y => { y with items := y.items.erase x })
    if r.1 ≠ stOk then other (drop.endItem x r.1 0 [])
    else
      let y := { r.2.1 with attempts := r.2.1.attempts + 1, onAir := true }
      let s1 := r.2.2.modRlink c (fun z => { z with items := z.items.map (fun i => if i = x then y else i) })
      s1.rfSend (.item c) y.frame y.coded ch t

/-- Send a short frame of the device: its PHY coding is open. -/
def State.sendShort (s : State) (kind : RfTx) (frame : List Byte) (ch t : Nat) : State :=
  let cd := s.free 2
  if ¬ s.rfDwell ch t (s.rfAir frame.length (decide (cd.1 = 1))) false then cd.2.rfDefer
  else cd.2.rfSend kind frame (decide (cd.1 = 1)) ch t

/-- A poll: an empty unsecured DATA frame. Its SEQ is open. -/
def State.sendPoll (s : State) (c ch t : Nat) : State :=
  let sq := s.free 256
  sq.2.sendShort (.poll c) (s.rfHead 3 false false false sq.1 (s.nbrEui (s.rfNbr c))) ch t

/-- The leader's frame of an event. -/
def State.leaderEvent (s : State) (c ch t : Nat) : State :=
  match s.rfReady c with
  | none => s.sendPoll c ch t
  | some x => s.sendItem c x ch t (fun u => u.sendPoll c ch t)

/-- An ACK, or a NACK BUSY, to a frame of neighbour `i`, TURN after it; secured as the frame answered was. -/
def State.sendAck (s : State) (i : Nat) (kind : RfTx) (m : RfMac) (busy : Bool) (ch t : Nat) : State :=
  let head := s.rfHead (if busy then 5 else 4) m.sec false false m.seq (s.nbrEui i)
  let r := s.rfSeal (if m.sec then 2 else 0) (s.nbrEui i) (s.nbrNat i 11 1) head (if busy then [1#8] else [])
  if r.1 ≠ stOk then r.2.2 else r.2.2.sendShort kind r.2.1 ch t

/-! ### Link events (R230, R231, R234) -/

/-- The channel of event `e` (R229); with no usable mapped channel it is open. -/
def State.rfEventChan (s : State) (c e : Nat) : Nat × State :=
  let used := s.rfUsed (s.rlink c).inUse.toNat
  let id := s.get (RF_LWIN.CONN_ID c)
  if used.isEmpty then s.free 64
  else (nth 0 used (crc16 (leBytes 2 id ++ leBytes 2 e) % used.length), s)

/-- A miss (R231). -/
def State.rfMiss (s : State) (c : Nat) : State :=
  let m := s.get (RF_LSTAT.MISSES c) + 1
  let s1 := s.put (RF_LSTAT.MISSES c) m
  if 3 ≤ m then s1.endLink c 3 else s1

/-- The event counter steps, a MAP_SET that has reached its FROM holds, items let an event pass. -/
def State.rfStep (s : State) (c : Nat) : State :=
  let y := s.rlink c
  let e := if y.begun then (s.get (RF_LSTAT.EVENT c) + 1) % 65536 else s.get (RF_LSTAT.EVENT c)
  let s1 := (s.rfEndOf c).put (RF_LSTAT.EVENT c) e
  let now := y.map.any (fun m => decide (m.1 = e) && (y.agreed || decide (s.rfRole c ≠ 0)))
  let s2 := s1.modRlink c (fun z =>
    { z with begun := true, anchor := s.rfNext c, items := z.items.map (fun x => if y.begun then x.wait else x),
             inUse := if now then (z.map.map (·.2)).getD z.inUse else z.inUse,
             map := if now then none else z.map })
  let r := if s.rfRole c = 2 then (nth 0 y.chans (e % 3), s2) else s2.rfEventChan c e
  let s3 := r.2.put (RF_LSTAT.CHAN c) r.1
  if now ∧ s.rfRole c = 1 then
    (s3.setReg (RF_LMAP_LO c) (BitVec.ofNat 32 (s3.rlink c).inUse.toNat)).setReg (RF_LMAP_HI c)
      (BitVec.ofNat 32 ((s3.rlink c).inUse.toNat / 2 ^ 32))
  else s3

/-- A link with a lower number has its anchor at the same tick (R234). -/
def State.rfYields (s : State) (c : Nat) : Bool :=
  (List.range c).any (fun d => decide (s.rfState d = 4 ∧ s.rfNext d = s.rfNext c))

/-- The anchor of the next event of link c. An event that loses the transceiver is skipped, which a follower counts as a miss. A frame of a
lower class that is still on the air is cut (R234). -/
def execLinkEvent (c : LinkC) (now : Nat) (s : State) : Result :=
  .next (
    if ¬ s.radioOn ∨ s.rfState c ≠ 4 then s
    else
      let s1 := s.rfStep c
      let lost := s.rfYields c || !s1.rfFree 2
      if s1.rfRole c = 0 then (if lost then s1 else s1.leaderEvent c (s1.get (RF_LSTAT.CHAN c)) now)
      else if lost then s1.rfMiss c
      else
        let s2 := s1.rfCut now
        ({ s2 with radio := { s2.radio with rx := none, event := some c.val, listen := true } }).rfShow)

/-- The window of link c closes. A frame whose sync word ended in it is still received; whether the event is a miss follows from its header. -/
def execLinkWindowClose (c : LinkC) (s : State) : Result :=
  .next (
    if s.rfState c = 4 ∧ s.rfRole c ≠ 0 ∧ s.radioOn ∧ s.radio.event = some c.val ∧ s.radio.listen then
      match s.radio.rx.filter (·.inWin) with
      | some x => { s with radio := { s.radio with rx := some { x with closed := true }, listen := false } }
      | none => s.rfEndEvent.rfMiss c
    else s)

def execSupervision (c : LinkC) (s : State) : Result :=
  .next (if s.rfState c = 4 ∧ s.radioOn then s.endLink c 4 else s)

def execScanChannelTimeout (c : LinkC) (s : State) : Result :=
  .next (if s.rfState c = 2 ∧ s.radioOn then s.modRlink c (fun x => { x with scan := (x.scan + 1) % 3 }) else s)

/-- The event ends without an acknowledgement (R232). -/
def execLinkEventEnd (c : LinkC) (s : State) : Result :=
  .next (if s.rfState c = 4 then (s.rfEndOf c).failItem c false else s)

/-- The last symbol of the frame being sent leaves the antenna; RF_PAEN stays asserted for 1 symbol (R219). An event ends with its last
frame (R230). -/
def execRfTxEnd (s : State) : Result :=
  .next (
    if s.radio.tx = .none then s
    else
      let s1 := ({ s with radio := { s.radio with tx := .none, paTail := true } }).rfShow
      let s2 := match s.radio.tx with
        | .flood tag gasp => s1.endFlood tag gasp stOk
        | .forward orig fseq =>
          { s1 with radio := { s1.radio with fwds := s1.radio.fwds.filter (fun f => ¬ (f.orig = orig ∧ f.fseq = fseq)) } }
        | .item c =>
          match s1.itemOn c with
          | some x =>
            if x.ackreq then s1
            else ((if s1.rfRole c = 0 then s1 else s1.rfEndOf c).dropOn c).endItem x stOk 0 []
          | none => s1
        | .ack (some c) => s1.rfEndOf c
        | .bye c => s1.endLink c 0
        | .connAck (some c) => s1.modRlink c (fun y => { y with anchor := y.anchor + s1.tick })
        | _ => s1
      s2.kickFloods)

/-- RF_PAEN deasserts 1 symbol after the last symbol (R219); when in the flow of ticks that is, is open. -/
def State.paOff (s : State) : State :=
  if s.radio.paTail then
    let r := s.free 2
    if r.1 = 0 then r.2 else ({ r.2 with radio := { r.2.radio with paTail := false } }).rfShow
  else s

/-! ### The receiver (R221, R222, R231) -/

/-- The sniffer has detected: the baseband receives ahead of the cast (R310). -/
def State.sniffing (s : State) : Bool := s.radio.sniffed && decide (1 ≤ s.mode ∧ s.mode ≤ 3)

/-- Sync detection (R222): a metric of 6.00 dB at least, and |C|² at least 3.00 dB over |P|² (R45). -/
def rfSyncOk (y : RfSync) : Bool :=
  let c := corrBest rfSyncWord y.outs
  decide (0 < c.1 ∧ 10 ^ 6 * (16 * y.noise) ^ 10 ≤ c.1 ^ 10 ∧ 10 ^ 3 * c.2 ^ 10 ≤ c.1 ^ 10)

/-- D and the half-width h of the window of context c's event, in µs (R231). -/
def State.rfDrift (s : State) (c : Nat) : Nat :=
  ((s.get RF_CFG.SCA_LOCAL + s.get (RF_LWIN.SCA_PEER c)) * s.rfInterval c * 9765625 + 9999999999) / 10000000000
def State.rfHalf (s : State) (c : Nat) : Nat :=
  10 * s.get (RF_LWIN.WIN_BASE c) + (s.get (RF_LSTAT.MISSES c) + 1) * s.rfDrift c

/-- The offset of a frame in Hz (R222): the receiver starts at that of the link's last frame, the estimate moves it within ±spacing/4 and
the refinement by ±Rs/16 at most. That the first bound is one of the whole offset is DEDUCED (log 67). -/
def State.rfOffset (s : State) (y : RfSync) : Int :=
  let start := (s.radio.event.map (fun c => (s.rlink c).fofs)).getD 0
  let a : Int := (s.rfSpacing / 4 : Nat)
  let b : Int := (s.rfRate / 16 : Nat)
  clampInt (-a) a (start + y.est) + clampInt (-b) b y.fine

/-- The reception that a detected sync word begins; FOFS is its offset in steps of 25 Hz, whose rounding is open. -/
def State.rfBegin (s : State) (y : RfSync) : State :=
  let hz := s.rfOffset y
  let f := s.divFree hz 25
  let inWin := s.radio.listen && s.radio.event.any (fun c => decide (y.dev.natAbs ≤ s.rfHalf c))
  ({ f.2 with radio := { f.2.radio with
      rx := some { chan := y.chan, amp := (y.ys.map Int.natAbs).sum, hz := hz, fofs := BitVec.ofInt 16 f.1, tick := y.tick,
                   link := s.radio.event, inWin := inWin },
      synced := true } }).rfShow

/-- In a link event the receiver is on its channel; a reception goes on to its end (R222). -/
def execRfSyncDetect (y : RfSync) (s : State) : Result :=
  .next (
    let tuned := s.radio.event.all (fun c => decide (s.get (RF_LSTAT.CHAN c) = y.chan))
    if (s.radioOn ∨ s.sniffing) ∧ s.radio.tx = .none ∧ s.radio.rx.isNone ∧ s.radio.held.isNone ∧ tuned ∧ rfSyncOk y then s.rfBegin y else s)

/-- The header of a frame (R221): LEN and CODED, if its CRC-8 holds, its reserved bits are 0 and LEN is 12 at least. -/
def State.rfHeader (s : State) (amp : Nat) (ys : List Int) : Option (Nat × Bool) × State :=
  let f := s.demod false amp 60 ys
  let d := f.2.decodeHeader f.1
  (d.1.bind (fun h => if h.2 % 128 = 0 ∧ 12 ≤ h.1 then some (h.1, bit h.2 7) else none), d.2.2)

/-- The bits of uncoded soft values; that of a value 0 is open. -/
def State.hardBits (s : State) (l : List Int) : List Nat × State :=
  match l with
  | [] => ([], s)
  | x :: t =>
    let r := if x = 0 then s.free 2 else (b2n (decide (0 < x)), s)
    let u := State.hardBits r.2 t
    (r.1 :: u.1, u.2)

/-- The payload of a frame, if its CRC-16 holds. -/
def State.rfPayload (s : State) (amp len : Nat) (coded : Bool) (ys : List Int) : Option (List Byte) × State :=
  let f := s.demod (s.flag RF_PHY.MOD) amp (rfBits len coded) ys
  if coded then
    let d := f.2.decodePayload f.1 len 2 0
    (if d.2.1 then some d.1 else none, d.2.2.2)
  else
    let h := f.2.hardBits f.1
    let b := bitsBytes h.1
    (if crc16 (b.take len) = beNat (b.drop len) then some (b.take len) else none, h.2)

/-- What a frame's end gives: whether its header passed, its payload with CODED, and the state with the open values drawn. -/
def State.rfDecode (s : State) (x : RfRx) (r : RfSeen) : Bool × Option (List Byte × Bool) × State :=
  match s.rfHeader x.amp r.hdr with
  | (none, t) => (false, none, t)
  | (some (len, coded), t) =>
    let p := t.rfPayload x.amp len coded r.pay
    (true, p.1.map (fun l => (l, coded)), p.2)

/-- The reception `x` is over. A header that passed, its sync word in the window, is an event received: no misses, a new anchor; the miss of
a window that has closed is counted now (R231). -/
def State.rfEndRx (s : State) (x : RfRx) (passed : Bool) : State :=
  let s1 := { s with radio := { s.radio with rx := none } }
  match x.link with
  | none => s1.rfShow
  | some c =>
    if passed && x.inWin then
      (({ s1 with radio := { s1.radio with listen := false } }.put (RF_LSTAT.MISSES c) 0).modRlink c (fun z =>
        { z with anchor := x.tick })).rfShow
    else if x.closed then s1.rfEndEvent.rfMiss c else s1.rfShow

/-- Airtime limit of a frame of link c's events (R230): three times it plus 2 ms fill the interval at most. -/
def State.rfTooLong (s : State) (c air : Nat) : Bool :=
  decide (s.get (RF_LTIME.INTERVAL c) * 9765625 < (3 * air + 2000) * 10000)

/-- RF_LAST and the offset of the link, of a frame received whole. -/
def State.rfLast (s : State) (x : RfRx) (r : RfSeen) : State :=
  let s1 := s.setReg RF_LAST (BitVec.ofNat 32 (r.rssi.toNat * 2 ^ 24 + r.snr.toNat * 2 ^ 16 + x.fofs.toNat))
  match x.link with
  | none => s1
  | some c => s1.modRlink c (fun z => { z with fofs := x.hz })

/-- A frame ends, for a row about frames of these types: what of it the MAC is to act on. A frame of another type leaves the state to its own
row; one that the sniffer's wake brought is held (R310). -/
def State.rfSeen (s : State) (r : RfSeen) (types : List Nat) : Option (RfGot × RfMac) × State :=
  match s.radio.rx with
  | none => (none, s)
  | some x =>
    if ¬ s.radioOn then
      (none, if s.sniffing then { s with radio := { s.radio with held := some (x, r), rx := none } } else s)
    else
      match s.rfDecode x r with
      | (passed, none, t) => (none, t.rfEndRx x passed)
      | (_, some (l, coded), t) =>
        let m := parseRf l
        if m.any (fun f => !types.contains f.type) then (none, s)
        else
          let g : RfGot := { frame := l, coded := coded, rssi := r.rssi, snr := r.snr, fofs := x.fofs, chan := x.chan, link := x.link,
                             sync := x.tick, tick := r.tick }
          let long := x.link.any (fun c => s.rfState c = 4 && s.rfRole c != 2 && s.rfTooLong c (s.rfAir l.length coded))
          let mine := m.any (fun f => decide (f.dst = s.ownEui ∨ f.type = 0 ∨ f.type = 6))
          (if long ∨ ¬ mine then none else m.map (fun f => (g, f)), (t.rfLast x r).rfEndRx x true)

/-! ### Received frames (R226) -/

/-- A frame fails its tag. -/
def State.rfMicFail (s : State) : State := s.count RF_CNT.MIC_FAIL 1

/-- The entry's record of an accepted frame. -/
def State.rfNote (s : State) (i : Nat) (r : RfGot) : State := s.putNbr i 20 (rfQuality r false (s.rfEventNo r))

/-- The open link with neighbour `i` in whose event a frame came. -/
def State.rfLinkOf (s : State) (r : RfGot) (i : Nat) : Option Nat := r.link.filter (fun c => s.rfLinked c && decide (s.rfNbr c = i))

/-- Steps 2, 3 and 5 of R226 for a secured frame under the link key that is not checked for duplicates. -/
def State.rfCheck (s : State) (m : RfMac) (slv : Nat) : Option (Nat × List Byte) × State :=
  match s.findNbr m.src with
  | none => (none, s)
  | some i =>
    match s.rfOpenLink m i slv with
    | none => (none, s.rfMicFail)
    | some body => if m.fc ≤ s.nbrNat i 16 4 then (none, s.count RF_CNT.REPLAY 1) else (some (i, body), s)

/-- RX_FC of an accepted frame. -/
def State.rfSetFc (s : State) (i : Nat) (m : RfMac) : State := s.putNbr i 16 (leBytes 4 m.fc)

/-- After a frame of neighbour `i` has been dealt with: in an event of link c the follower answers with an item or an ACK, the leader with an
ACK if one is due; outside a link's events an ACK is sent if one is due (log 67). A queue that is full is answered NACK BUSY (R226). -/
def State.rfAnswer (s : State) (c : Option Nat) (i : Nat) (r : RfGot) (m : RfMac) (busy bye : Bool) : State :=
  match c with
  | none => if m.ackreq ∨ busy then s.sendAck i (.ack none) m busy r.chan s.tick else s
  | some c =>
    let ack := fun (t : State) => t.sendAck i (if bye then .bye c else .ack (some c)) m busy r.chan t.tick
    let u :=
      if s.rfRole c ≠ 1 then (if m.ackreq ∨ busy then ack s else s)
      else if busy ∨ bye then ack s
      else
        match s.rfReady c with
        | none => ack s
        | some x => s.sendItem c x r.chan s.tick ack
    if u.radio.tx = .none then u.rfEndOf c else u

/-- A DATA or LINK_CMD frame passes step 4 of R226: duplicate, replay, or what RX_SEQ and DUP_MAP become. -/
inductive RfDup where
  | dup | replay | fresh (seq map : Nat)
  deriving DecidableEq, Repr

def State.rfDup (s : State) (i : Nat) (m : RfMac) : RfDup :=
  match dupCheck (s.nbrNat i 10 1) (s.nbrNat i 12 2) m.seq with
  | none => .dup
  | some (q, d) => if m.fc ≤ s.nbrNat i 16 4 then .replay else .fresh q d

/-- RX_SEQ, DUP_MAP and RX_FC of a new frame. -/
def State.rfAccept (s : State) (i q d : Nat) (m : RfMac) : State :=
  ((s.putNbr i 10 (leBytes 1 q)).putNbr i 12 (leBytes 2 d)).rfSetFc i m

/-- ACKD of a DATA frame acknowledges what the device sent in the event. -/
def State.rfAckd (s : State) (r : RfGot) (m : RfMac) (c : Option Nat) : State :=
  match c with
  | some k => if m.ackd ∧ m.type = 3 then s.ackItem k (rfQuality r false (s.rfEventNo r)) else s
  | none => s

/-- A secured DATA or LINK_CMD frame of neighbour `i`: its tag, duplicates and replays are dealt with, a new one goes to `f`. -/
def State.rfSecured (s : State) (r : RfGot) (m : RfMac) (i : Nat) (c : Option Nat) (f : List Byte → Nat → Nat → State → State) :
    State :=
  match s.rfOpenLink m i 6 with
  | none => s.rfMicFail
  | some body =>
    match s.rfDup i m with
    | .dup => ((s.rfAckd r m c).count RF_CNT.DUP_RX 1).rfAnswer c i r m false false
    | .replay => s.count RF_CNT.REPLAY 1
    | .fresh q d => f body q d (s.rfAckd r m c)

/-- A DATA frame (R226, R230). -/
def State.rxRfData (s : State) (r : RfGot) (m : RfMac) (i : Nat) (c : Option Nat) : State :=
  if ¬ m.sec then
    -- A poll, or an empty answer: nothing is delivered.
    if m.rest ≠ [] then s.rfMicFail else ((s.rfAckd r m c).rfNote i r).rfAnswer c i r m false false
  else
    s.rfSecured r m i c (fun body q d t =>
      let p := t.putPacket (.engine 1) (t.get RF_NBR.DLVQ) body
      let t1 := p.2.1.tellPool p.2.2
      if p.1 ≠ 1 then t1.rfAnswer c i r m true false
      else
        let t2 := ((t1.rfAccept i q d m).rfNote i r).rfEvent 1 stFrameOk (c.getD 0xFF) body.length
          (rfQuality r false (t1.rfEventNo r)) (t1.nbrEui i)
        t2.rfAnswer c i r m false false)

def execRfDataRx (r : RfSeen) (s : State) : Result :=
  .next (
    match s.rfSeen r [3] with
    | (none, s1) => s1
    | (some (g, m), s1) =>
      match s1.findNbr m.src with
      | none => s1
      | some i => s1.rxRfData g m i (s1.rfLinkOf g i))

/-- A LINK_CMD with command `cmd` and `n` bytes of arguments. One outside its link's events has nothing to act on. -/
def State.rxLinkCmd (s : State) (r : RfSeen) (cmd n : Nat) (f : RfGot → Nat → Nat → List Byte → RfMac → State → State) : State :=
  match s.rfSeen r [7] with
  | (none, s1) => s1
  | (some (g, m), s1) =>
    match s1.findNbr m.src with
    | none => s1
    | some i =>
      let c := s1.rfLinkOf g i
      s1.rfSecured g m i c (fun body q d t =>
        if u8 body 0 ≠ cmd ∨ body.length ≠ n + 1 then t
        else
          let u := (t.rfAccept i q d m).rfNote i g
          match c with
          | some k => f g i k (body.drop 1) m u
          | none => u.rfAnswer none i g m false false)

def execMapSetRx (r : RfSeen) (s : State) : Result :=
  .next (s.rxLinkCmd r 1 10 (fun g i c args m t =>
    (t.modRlink c (fun x => { x with map := some (u16 args 0, BitVec.ofNat 64 (leNat (args.drop 2))), agreed := true })).rfAnswer
      (some c) i g m false false))

def execDisconnectRx (r : RfSeen) (s : State) : Result :=
  .next (s.rxLinkCmd r 2 0 (fun g i c _ m t =>
    let u := t.rfAnswer (some c) i g m false true
    -- Without the ACK on the air the link ends at once.
    if u.radio.tx = .none then u.endLink c 0 else u))

/-- An ACK or NACK: the item of its link's event that it answers, if SEQ and protection fit. The event ends with it. -/
def State.rxRfAck (s : State) (r : RfSeen) (type : Nat) (f : RfGot → Nat → List Byte → State → State) : State :=
  match s.rfSeen r [type] with
  | (none, s1) => s1
  | (some (g, m), s1) =>
    -- An unsecured one answers an unsecured frame: a poll, or an item whose frame was not secured.
    let a : Option (Nat × List Byte) × State := if m.sec then s1.rfCheck m 2 else ((s1.findNbr m.src).map (fun i => (i, m.rest)), s1)
    match a with
    | (none, s2) => s2
    | (some (i, body), s2) =>
      let s3 := (if m.sec then s2.rfSetFc i m else s2).rfNote i g
      match s3.rfLinkOf g i with
      | none => s3
      | some c =>
        let hit := (s3.itemOn c).any (fun x => decide (x.seq = m.seq) && (m.sec || x.body.isEmpty))
        (if hit then f g c body s3 else s3).rfEndOf c

def execRfAckRx (r : RfSeen) (s : State) : Result :=
  .next (s.rxRfAck r 4 (fun g c _ t =>
    let x := t.itemOn c
    let t1 := t.ackItem c (rfQuality g false (t.rfEventNo g))
    if x.any (fun y => decide (y.type = 7 ∧ u8 y.body 0 = 2)) then t1.endLink c 0 else t1))

def execRfNackRx (r : RfSeen) (s : State) : Result :=
  .next (s.rxRfAck r 5 (fun _ c body t => if u8 body 0 = 1 then t.failItem c true else t))

/-! ### Connecting (R228) -/

/-- A link opens on context c with neighbour i. -/
def State.rfOpen (s : State) (c i : Nat) (map : Nat) : State :=
  let s1 := (s.modRlink c (fun x => { x with begun := false, fails := 0, inUse := BitVec.ofNat 64 map, map := none, agreed := false }))
  let s2 := (((s1.put (RF_LSTAT.EVENT c) 0).put (RF_LSTAT.MISSES c) 0).put (RF_LCFG.STATE c) 4).setNbrState i 2
  ((s2.setEvt RF_EVT.LINK_UP).rfEvent 2 0 c 0 (s2.nbrBytes i 20 8) (s2.nbrEui i)).rfShow

/-- The CONN_ACK of a CONN_REQ from neighbour `i`; what a refusal carries after RESULT is open. -/
def State.sendConnAck (s : State) (c : Option Nat) (i seq gen ch : Nat) (fields : List Byte) : State :=
  let r := s.rfSeal 6 (s.nbrEui i) gen (s.rfHead 2 true false false seq (s.nbrEui i)) fields
  if r.1 ≠ stOk then r.2.2 else r.2.2.sendShort (.connAck c) r.2.1 ch s.tick

def execConnReqRx (r : RfSeen) (s : State) : Result :=
  .next (
    match s.rfSeen r [1] with
    | (none, s1) => s1
    | (some (g, m), s1) =>
      if (s1.findNbr m.src).isNone then
        (s1.setEvt RF_EVT.CONN_UNKNOWN).rfEvent 6 0 0xFF 0 (rfQuality g false 0) m.src
      else
        match s1.rfCheck m 2 with
        | (none, s2) => s2
        | (some (i, body), s2) =>
          if body.length ≠ 2 then s2
          else
            let sq := s2.free 256
            match (List.range 16).find? (fun c => decide (s2.rfRole c = 0 ∧ s2.rfNbr c = i) && s2.flag (RF_LCFG.ENABLE c)) with
            | none =>
              let x := sq.2.freeBytes 17
              (x.2.rfNote i g).sendConnAck none i sq.1 (s2.nbrNat i 11 1) g.chan ([1#8] ++ x.1)
            | some c =>
              let old := if sq.2.rfState c = 4 then sq.2.endLink c 0 else sq.2
              let id := old.free 65536
              let ofs := id.2.free 65534
              let s3 := ((ofs.2.put (RF_LWIN.CONN_ID c) id.1).put (RF_LWIN.SCA_PEER c) (u8 body 1)).modRlink c
                (fun x => { x with anchor := ofs.1 + 2 })
              let s4 := (((((s3.putNbr i 11 (body.take 1)).putNbr i 10 (leBytes 1 m.seq)).putNbr i 12 (leBytes 2 1)).rfSetFc i m).putNbr
                i 9 [0#8]).rfNote i g
              let fields := [0#8] ++ leBytes 2 id.1 ++ leBytes 2 (s4.get (RF_LTIME.INTERVAL c)) ++
                leBytes 2 (s4.get (RF_LTIME.SUP_TO c)) ++ leBytes 2 (ofs.1 + 2) ++ leBytes 1 (s4.get RF_CFG.SCA_LOCAL) ++
                leBytes 8 (s4.rfMap c &&& s4.rfMask)
              let s5 := s4.sendConnAck (some c) i sq.1 (u8 body 0) g.chan fields
              if s5.radio.tx = .none then s5 else s5.rfOpen c i (s5.rfMap c))

/-- A CONN_REQ has failed (R228). -/
def State.connFailed (s : State) (c : Nat) : State :=
  let n := (s.rlink c).fails + 1
  if n < 3 then s.modRlink c (fun x => { x with fails := n })
  else ((s.modRlink c (fun x => { x with fails := 0, scan := 0 })).put (RF_LCFG.STATE c) 2).rfShow

def execConnAckTimeout (c : LinkC) (s : State) : Result :=
  .next (if s.rfState c = 3 ∧ s.radioOn then s.connFailed c else s)

/-- The follower takes the leader's parameters. -/
def State.connAccept (s : State) (c i : Nat) (b : List Byte) : State :=
  let s1 := (((s.put (RF_LWIN.CONN_ID c) (u16 b 1)).put (RF_LTIME.INTERVAL c) (u16 b 3)).put (RF_LTIME.SUP_TO c) (u16 b 5)).put
    (RF_LWIN.SCA_PEER c) (u8 b 9)
  let s2 := (s1.setReg (RF_LMAP_LO c) (BitVec.ofNat 32 (u32 b 10))).setReg (RF_LMAP_HI c) (BitVec.ofNat 32 (u32 b 14))
  let s3 := (s2.putNbr i 10 [255#8]).putNbr i 12 [0#8, 0#8]
  (s3.modRlink c (fun x => { x with anchor := s.tick + u16 b 7 })).rfOpen c i (s3.rfMap c)

def execConnAckRx (r : RfSeen) (s : State) : Result :=
  .next (
    match s.rfSeen r [2] with
    | (none, s1) => s1
    | (some (g, m), s1) =>
      match s1.rfCheck m 6 with
      | (none, s2) => s2
      | (some (i, body), s2) =>
        match (List.range 16).find? (fun c => decide (s2.rfState c = 3 ∧ s2.rfNbr c = i)) with
        | none => s2
        | some c =>
          let s3 := (s2.rfSetFc i m).rfNote i g
          if body.length ≠ 18 then s3
          else if u8 body 0 = 0 then s3.connAccept c i body else s3.connFailed c)

/-- The CONN_REQ of a follower to the neighbour whose beacon it found. -/
def State.sendConnReq (s : State) (c i ch : Nat) : State :=
  let seq := s.nbrNat i 9 1
  let gen := s.nbrNat i 11 1
  let r := s.rfSeal 2 (s.nbrEui i) gen (s.rfHead 1 true false false seq (s.nbrEui i))
    (leBytes 1 gen ++ leBytes 1 (s.get RF_CFG.SCA_LOCAL))
  if r.1 ≠ stOk then r.2.2
  else
    let s1 := (r.2.2.putNbr i 9 (leBytes 1 (seq + 1))).sendShort (.conn c) r.2.1 ch s.tick
    if s1.radio.tx = .none then s1 else (s1.put (RF_LCFG.STATE c) 3).rfShow

/-- What the beacon of neighbour `i` does to one context. -/
def State.beaconOn (s : State) (r : RfGot) (i : Nat) (b : List Byte) (c : Nat) : State :=
  if s.rfNbr c ≠ i ∨ ¬ s.flag (RF_LCFG.ENABLE c) then s
  else
    let s1 := s.modRlink c (fun x => { x with bcnInt := u16 b 6, chans := [u8 b 10, u8 b 11, u8 b 12] })
    if s.rfRole c = 1 ∧ (s.rfState c = 2 ∨ s.rfState c = 3) then
      if bit (u8 b 13) 0 ∧ s1.radio.tx = .none then s1.sendConnReq c i r.chan else s1
    else if s.rfRole c = 2 ∧ s.rfState c = 4 then
      -- In its event the header has counted already (R231).
      if r.link = some c then ((s1.put (RF_LSTAT.EVENT c) (u16 b 8)).put (RF_LSTAT.CHAN c) r.chan).rfEndOf c else s1
    else if s.rfRole c = 2 ∧ s.rfState c = 2 then
        let s2 := ((s1.put (RF_LSTAT.EVENT c) (u16 b 8)).put (RF_LSTAT.MISSES c) 0).put (RF_LSTAT.CHAN c) r.chan
        let s3 := s2.modRlink c (fun x => { x with anchor := r.sync, begun := true })
        let s4 := (s3.put (RF_LCFG.STATE c) 4).setEvt RF_EVT.LINK_UP
        (s4.rfEvent 2 0 c 0 (rfQuality r false (u16 b 8)) (s4.nbrEui i)).rfShow
    else s1

def execRfBeaconRx (r : RfSeen) (s : State) : Result :=
  .next (
    match s.rfSeen r [0] with
    | (none, s1) => s1
    | (some (g, m), s1) =>
      match s1.rfOpenGroup m with
      | none => s1.rfMicFail
      | some b =>
        match s1.findNbr m.src with
        | none => s1
        | some i =>
          if b.length ≠ 14 then s1
          else
            let s2 := s1.putNbr i 20 (rfQuality g false (u16 b 8))
            foldState (List.range 16) (fun c t => t.beaconOn g i b c) s2)

/-! ### Floods (R237, R238) -/

/-- A copy of a flood already seen: it may cancel the pending forward. -/
def State.floodCopy (s : State) (orig : List Byte) (fseq : Nat) : State :=
  let n := s.get RF_FLOOD.SUPPRESS
  let on := decide (s.radio.tx = .forward orig fseq)
  let l := s.radio.fwds.map (fun f => if f.orig = orig ∧ f.fseq = fseq then { f with copies := f.copies + 1 } else f)
  { s with radio := { s.radio with fwds := if n = 0 ∨ on then l else l.filter (fun f => decide (f.copies < n)) } }

/-- A new flood: inserted, delivered with its event, and its forward scheduled. -/
def State.floodNew (s : State) (r : RfGot) (b : List Byte) : State :=
  let orig := b.take 8
  let fseq := u16 b 8
  let ttl := u8 b 10 % 16
  let s1 := s.remember orig fseq
  let p := s1.putPacket (.engine 1) (s1.get RF_NBR.DLVQ) b
  let s2 := p.2.1.tellPool p.2.2
  let s3 := if p.1 ≠ 1 then s2
    else (s2.setEvt RF_EVT.FLOOD_RX).rfEvent 5 stFrameOk 0xFF b.length (rfQuality r true 0) orig
  if s3.flag RF_FLOOD.FWD_EN ∧ 1 < ttl then
    let j := s3.free (s3.get RF_FLOOD.JIT + 1)
    let f : RfFwd :=
      { orig := orig, fseq := fseq, body := modNth b 10 (fun x => x - 1#8), coded := r.coded, due := r.tick + j.1, copies := 0 }
    { j.2 with radio := { j.2.radio with fwds := j.2.radio.fwds ++ [f] } }
  else s3

/-- A flood accepted from a neighbour gives the entry's LASTQ (R225). -/
def State.floodNote (s : State) (src : List Byte) (r : RfGot) : State :=
  (s.findNbr src).elim s (fun i => s.putNbr i 20 (rfQuality r true 0))

/-- A FLOOD that has passed its tag. -/
def State.rxFlood (s : State) (r : RfGot) (src b : List Byte) : State :=
  if b.length < 12 ∨ u8 b 10 % 16 = 0 ∨ 16 ≤ u8 b 10 then s
  else if s.radio.seen.contains (b.take 8, u16 b 8) then
    (s.count RF_CNT.FLOOD_DUP 1).floodCopy (b.take 8) (u16 b 8)
  else (s.floodNote src r).floodNew r b

def execFloodRx (r : RfSeen) (s : State) : Result :=
  .next (
    match s.rfSeen r [6] with
    | (none, s1) => s1
    | (some (g, m), s1) =>
      match s1.rfOpenGroup m with
      | none => s1.rfMicFail
      | some b => s1.rxFlood g m.src b)

/-- A forward of airtime `a` would overlap a link event or the device's next beacon: it waits (R234). -/
def State.forwardWaits (s : State) (t a : Nat) : Bool :=
  let b := s.radio.t0 + s.radio.bseq * s.bcnTicks
  s.rfClash t a || (s.flag RF_DISC.BCN_EN && decide (t ≤ b ∧ b ≤ t + rfTicks a))

def execFloodForward (now : Nat) (s : State) : Result :=
  .next (
    if ¬ s.radioOn ∨ ¬ s.rfFree 4 then s
    else
      match s.radio.fwds.find? (fun f => decide (f.due ≤ now)) with
      | none => s
      | some f =>
        let ch := s.get RF_FLOOD.CHAN
        if s.forwardWaits now (s.rfAir (25 + f.body.length) f.coded) then s
        else if ¬ s.rfDwell ch now (s.rfAir (25 + f.body.length) f.coded) false then s.rfDefer
        else
          let sq := s.free 256
          let r := sq.2.rfSeal 10 [] 0 (s.rfHead 6 true false false sq.1 [0xFF#8, 0xFF#8]) f.body
          if r.1 ≠ stOk then { r.2.2 with radio := { r.2.2.radio with fwds := r.2.2.radio.fwds.erase f } }
          else r.2.2.rfSend (.forward f.orig f.fseq) r.2.1 f.coded ch now)

def execLastGasp (now : Nat) (s : State) : Result :=
  .next (
    if ¬ s.radioOn ∨ ¬ s.rfFree 1 then s
    else
      match s.radio.floods.find? (fun f => f.2.1) with
      | none => s
      | some f => s.startFlood f now)

/-! ### Transactions (R241) -/

/-- The form of a RADIO_SEND descriptor. -/
def radioForm (d : List Byte) : Bool :=
  decide (u8 d 8 ≤ 1 ∧ u8 d 10 < 4 ∧ bit (u8 d 11) 3 = false ∧ (u8 d 8 = 0 → u8 d 9 < 16) ∧ (u8 d 8 = 1 → u8 d 9 = 0)) &&
    zeros d 20 63

/-- Insert an item in order of PRIO, highest first, then of submission. -/
def insertItem (x : RfItem) (l : List RfItem) : List RfItem :=
  match l with
  | [] => [x]
  | y :: t => if y.prio < x.prio ∧ ¬ y.onAir then x :: y :: t else y :: insertItem x t

/-- A RADIO_SEND on a link, once admitted. -/
def State.radioLink (s : State) (d : List Byte) : State :=
  let tag := descTag d
  let c := u8 d 9
  let f := u8 d 10
  match (if radioForm d then s.drefBytes (drefAt d 12) else none) with
  | none => s.complete tag stBad 0 []
  | some body =>
    let n := body.length + (if body.isEmpty then 18 else 31)
    let air := s.rfAir n (bit f 1)
    if 255 < n then s.complete tag stBad 0 []
    else if ¬ s.flag RF_CFG.ENABLE ∨ ¬ s.rfLinked c ∨ s.rfTooLong c air ∨ s.rfLimit < air then
      s.complete tag stNotPermitted 0 []
    else
      let x : RfItem :=
        { tag := some tag, prio := u8 d 11 % 8, ackreq := bit f 0, coded := bit f 1, type := 3, body := body, frame := [],
          seq := 0, attempts := 0, skip := 0, onAir := false }
      (s.drefTake (drefAt d 12)).modRlink c (fun y => { y with items := insertItem x y.items })

def execRadioSendLink (s : State) : Result :=
  .next (s.takeDesc (fun d => decide (u8 d 0 = 5 ∧ u8 d 8 ≠ 1)) (fun d t => t.radioLink d))

/-- A RADIO_SEND as a flood, once admitted. -/
def State.radioFlood (s : State) (d : List Byte) : State :=
  let tag := descTag d
  match (if radioForm d then s.drefBytes (drefAt d 12) else none) with
  | none => s.complete tag stBad 0 []
  | some body =>
    let n := body.length + 37
    let air := s.rfAir n (bit (u8 d 10) 1)
    if 255 < n then s.complete tag stBad 0 []
    else if ¬ s.flag RF_CFG.ENABLE ∨ s.rfLimit < air + s.rfReserve then s.complete tag stNotPermitted 0 []
    else
      let ttl := if u8 d 11 / 16 = 0 then s.floodTtl else u8 d 11 / 16
      ((s.drefTake (drefAt d 12)).originate (some tag) 0 ttl (bit (u8 d 10) 1) body).kickFloods

def execRadioSendFlood (s : State) : Result :=
  .next (s.takeDesc (fun d => decide (u8 d 0 = 5 ∧ u8 d 8 = 1)) (fun d t => t.radioFlood d))

/-! ### The restore epoch (R102) -/

/-- A write of LK_EPOCH. -/
def State.writeEpoch (s : State) (value : Word) : State := if bit value.toNat 31 then s.raiseEpoch else s

def execEpochRaise (who : Accessor) (value : Word) (s : State) : Result :=
  .next (s.enter who LK_EPOCH (fun t => t.writeEpoch value))

end Sys2Proof.Machine
end

