-- ==== Sys2Proof/Machine/UartCmd.lean ====
section
/-! DEFINITION. Commands of the UARTs (12). -/

namespace Sys2Proof.Machine

/-! ### Reception (R245 to R251) -/

/-- A received bit: its value, and whether its three samples disagree. -/
structure UaBit where
  value : Bool
  noisy : Bool
  low : Bool

/-- What the receiver makes of a bit's samples: the majority of samples 7 to 9 (R247), or on U4 in SIR a 0 where the input was active for
two UCLK cycles (R254). -/
def State.uaSense (s : State) (u : Nat) (x : Sample3) : UaBit :=
  let pol := decide (u = 4) && s.flag (UA_OPT.RX_POL u)
  if u = 4 ∧ s.flag (UA_OPT.SIR u) then
    let v := decide ((if pol then x.low else x.high) < 2)
    ⟨v, false, !v⟩
  else
    let a := xor pol x.s7
    let b := xor pol x.s8
    let c := xor pol x.s9
    ⟨(a && b) || (a && c) || (b && c), !((a == b) && (b == c)), !a && !b && !c⟩

/-- The samples of bit draws: a bit that no command gives is open (log 5). -/
def openSample (d : Nat) : Sample3 := ⟨bit d 0, bit d 1, bit d 2, 2 * b2n (bit d 3), 2 * b2n (bit d 4)⟩

/-- The level of the receive pin while the line idles. -/
def State.urxIdle (s : State) (u : Nat) : Bool := !(decide (u = 4) && s.flag (UA_OPT.RX_POL u))

/-- The settings under which a character is received: those before the last change if it began before (R246). -/
def State.uaRxSet (s : State) (u : Nat) (early : Bool) : UaSet :=
  match early, (s.uart u).rxOld with
  | true, some x => x
  | _, _ => s.uaSet u

/-- A write of the settings: a character in progress keeps those it began with. -/
def State.uaKeep (s : State) (u : Nat) : State :=
  s.modUart u (fun y => { y with rxOld := some (y.rxOld.getD (s.uaSet u)) })

/-- A break: one unit with BREAK and FRAMING, whose word is closed at once (R249, R256). A frame begins with a start edge, so a
second one means that the line was high in between. -/
def State.uaBreak (s : State) (u : Uart) : State :=
  let s1 := (s.modUart u (fun y => { y with inBreak := true })).putFlag (UA_STAT.LINE u) (!s.urxIdle u)
  (s1.uaStore u 0 false true false true).setEvt (UA_EVT.BREAK u)

/-- The pending divider comes into force at a character equal to SW_CHAR (R255). -/
def State.uaSwitch (s : State) (u data : Nat) : State :=
  match (s.uart u).pend with
  | none => s
  | some d =>
    if data ≠ s.get (UA_OPT.SW_CHAR u) then s
    else
      let s1 := (s.modUart u (fun y => { y with pend := none })).putFlag (UA_BAUD.PEND u) false
      ((s1.put (UA_BAUD.DIV_I u) (d / 64)).put (UA_BAUD.DIV_F u) d).setEvt (UA_EVT.BAUD_SWITCHED u)

/-- XON or XOFF is received (R253): the state after, and whether the character is stored. -/
def State.uaFlowRx (s : State) (u data : Nat) : Bool × State :=
  if s.uaFlowOn u ∧ (data = 0x11 ∨ data = 0x13) then
    (!s.flag (UA_FLOW.XSTRIP u), (s.putFlag (UA_STAT.XOFF_RX u) (data = 0x13)).uaKick u)
  else (true, s)

/-- Address match and mute (R251): the state after, and whether the character is stored. -/
def State.uaMute (s : State) (u data : Nat) (bad : Bool) : Bool × State :=
  if ¬ (s.flag (UA_CFG.NINE u) ∧ s.flag (UA_CFG.AMATCH u)) then (true, s)
  else
    let muted := s.flag (UA_STAT.MUTED u)
    if data < 256 then (!muted, s)
    else
      let a := data % 256
      let mask := s.get (UA_ADDR.MASK u)
      let hit := !bad && (decide (a &&& mask = s.get (UA_ADDR.ADDR u) &&& mask) ||
        (decide (a = 0xFF) && s.flag (UA_ADDR.BCAST u)))
      (hit || !muted, s.putFlag (UA_STAT.MUTED u) (!hit))

/-- A character whose start bit is low and which is no break. -/
def State.uaChar (s : State) (u : Uart) (x : UaSet) (l : List UaBit) (level : Bool) : State :=
  let data := (((l.drop 1).take x.width).zipIdx.map (fun (b, i) => b2n b.value * 2 ^ i)).sum
  let ones := (((l.drop 1).take (l.length - 2)).filter (·.value)).length
  let parity := match x.parity with
    | none => false
    | some odd => decide (ones % 2 ≠ b2n odd)
  let stop := (l.getLastD ⟨true, false, false⟩).value
  let noise := l.any (·.noisy)
  let s1 := (s.modUart u (fun y => { y with inBreak := false })).putFlag (UA_STAT.LINE u) level
  let f := s1.uaFlowRx u data
  let m := f.2.uaMute u data (noise || !stop)
  let s2 := if f.1 && m.1 then m.2.uaStore u data parity (!stop) noise false else m.2
  s2.uaSwitch u data

/-- A character's samples: those of the bits that its settings give it. -/
def execUartCharRx (u : Uart) (bits : List Sample3) (early near : Bool) (s : State) : Result :=
  .next (
    if ¬ s.uaHears u near ∨ s.flag (UA_CFG.AUTOBAUD u) ∨ s.flag (UA_STAT.LINE_STUCK u) then s
    else
      let x := s.uaRxSet u early
      let p := s.padOpen x.bits 32 openSample bits
      let l := p.1.map (fun y => s.uaSense u y)
      let s1 := p.2.modUart u (fun y => { y with rxOld := none, deaf := y.deaf && near })
      if l.all (·.low) then s1.uaBreak u
      else if (l.headD ⟨true, false, false⟩).value then s1
      else s1.uaChar u x l (p.1.getLastD (openSample 0)).s9)

def execUartBreak (u : Uart) (s : State) : Result :=
  .next (
    if ¬ s.uaHears u false ∨ s.flag (UA_CFG.AUTOBAUD u) ∨ s.flag (UA_STAT.LINE_STUCK u) then s
    else (s.modUart u (fun y => { y with rxOld := none, deaf := false })).uaBreak u)

/-- LINE_STUCK: storage stops, and the packet ends. -/
def execLineStuck (u : Uart) (s : State) : Result :=
  .next (
    if ¬ (s.uart u).inBreak ∨ s.flag (UA_STAT.LINE_STUCK u) then s
    else
      let s1 := (s.putFlag (UA_STAT.LINE_STUCK u) true).setEvt (UA_EVT.LINE_STUCK u)
      if (s1.uart u).units ≠ [] ∨ (s1.uart u).words ≠ 0 then s1.uaWord u true false else s1)

def execLineStuckClear (u : Uart) (s : State) : Result :=
  .next (
    if s.flag (UA_STAT.LINE_STUCK u) then
      ((s.putFlag (UA_STAT.LINE_STUCK u) false).putFlag (UA_STAT.LINE u) (s.urxIdle u)).modUart u (fun y => { y with inBreak := false })
    else s)

/-- Receive timeout (R256): the line has idled, and the partial word is written with RTO and EOP. -/
def execUartRxTimeout (u : Uart) (s : State) : Result :=
  .next (
    let x := s.uart u
    if ¬ s.uaOn u ∨ s.get (UA_RX.RTO u) = 0 ∨ s.flag (UA_STAT.LINE_STUCK u) then s
    else
      let s1 := (s.modUart u (fun y => { y with inBreak := false })).putFlag (UA_STAT.LINE u) (s.urxIdle u)
      if x.units ≠ [] ∨ (x.words ≠ 0 ∧ ¬ (s.queue (s.uaQueue u)).stream) then s1.uaWord u true true
      else s1)

/-! ### Autobaud (R250) -/

/-- DIV of a measurement in 1/64: 4 t / n; a half is rounded to either side. -/
def State.abDiv (s : State) (t n : Nat) : Nat × State :=
  let x := 4 * t / n
  let y := 4 * t % n
  if 2 * y < n then (x, s) else if n < 2 * y then (x + 1, s) else let r := s.free 2; (x + r.1, r.2)

def execAutobaudMeasure (u : Uart) (t : Nat) (edgesOk : Bool) (s : State) : Result :=
  .next (
    if ¬ s.uaHears u false ∨ ¬ s.flag (UA_CFG.AUTOBAUD u) then s
    else
      let iec := s.flag (UA_CFG.AB_CHAR u)
      let r := (s.putFlag (UA_STAT.LINE u) (s.urxIdle u)).abDiv t (if iec then 8 else 9)
      if edgesOk = true ∧ 300 * r.1 ≤ 384000000 ∧ 384000000 ≤ 1000000 * r.1 then
        let s1 := (r.2.put (UA_BAUD.DIV_I u) (r.1 / 64)).put (UA_BAUD.DIV_F u) r.1
        let s2 := s1.uaStore u (if iec then 0x2F else 0x55) false false false false
        (s2.putFlag (UA_CFG.AUTOBAUD u) false).setEvt (UA_EVT.AB_DONE u)
      else (r.2.count (UA_CNT.AB_FAIL u) 1).setEvt (UA_EVT.AB_FAIL u))

/-! ### Registers (R246, R251, R255) -/

/-- A write of UA_CFG. -/
def State.writeUaCfg (s : State) (u : Nat) (value : Word) : State :=
  let was := s.flag (UA_CFG.AMATCH u)
  let s1 := (s.uaKeep u).merge (UA_CFG u) 0xFFC000FF value
  let on := s1.flag (UA_CFG.AMATCH u)
  let s2 := if on ∧ ¬ was then s1.putFlag (UA_STAT.MUTED u) true
    else if ¬ on then s1.putFlag (UA_STAT.MUTED u) false else s1
  (s2.uaFlow u).uaKick u

def execUaCfgWrite (who : Accessor) (u : Uart) (value : Word) (s : State) : Result :=
  .next (s.enter who (UA_CFG u) (fun t => t.writeUaCfg u value))

/-- A write of UA_BAUD: with PEND the divider is held, without it takes effect and discards a held one. DIV_I 0 acts as 1. -/
def State.writeUaBaud (s : State) (u : Nat) (value : Word) : State :=
  let v := bits value.toNat 21 0
  let d := if v / 64 = 0 then v + 64 else v
  if bit value.toNat 31 then (s.modUart u (fun y => { y with pend := some d })).putFlag (UA_BAUD.PEND u) true
  else ((s.uaKeep u).modUart u (fun y => { y with pend := none })).setReg (UA_BAUD u) (BitVec.ofNat 32 d)

def execBaudWrite (who : Accessor) (u : Uart) (value : Word) (s : State) : Result :=
  .next (s.enter who (UA_BAUD u) (fun t => t.writeUaBaud u value))

/-! ### The transmitter (R252, R253, R257) -/

def execUartTxCharDone (u : Uart) (s : State) : Result :=
  .next (
    match (s.uart u).cur with
    | none => s
    | some c =>
      let s1 := (s.modUart u (fun y =>
        { y with cur := none, deaf := decide (u.val = 4),
                 sends := y.sends.map (fun x => if c.tag = some x.tag then { x with sent := x.sent + 1 } else x) })).putFlag
        (UA_STAT.TX_BUSY u) false
      let s2 := if c.flow then s1.putFlag (UA_STAT.XOFF_TX u) (c.data = 0x13) else s1
      let s3 := s2.uaFinish ((s2.uart u).sends.length + 1) u
      (s3.uaFlow u).uaKick u)

def execUdeTailExpiry (u : Uart) (s : State) : Result :=
  .next (if (s.uart u).cur.isNone then s.putFlag (UA_STAT.DE u) false else s)

/-! ### UART_SEND (R257) -/

/-- The form of a UART_SEND descriptor. -/
def uartForm (d : List Byte) : Bool :=
  decide (u8 d 8 < 6 ∧ u8 d 9 < 2) && zeros d 10 11 && zeros d 20 63

/-- The characters that a reference names; none if the send must complete BAD_DESCRIPTOR. -/
def State.uaChars (s : State) (r : Dref) : Option (List Nat) :=
  if r.kind = 1 ∧ drefForm r ∧ s.packetReady r.ql ∧ (s.queue r.ql).fmt = 2 then
    let l := (s.headWords r.ql).flatMap (lineItems 2)
    if l.all (fun v => decide (v < 512)) then some l else none
  else (s.drefBytes r).map (fun l => l.map (·.toNat))

/-- A UART_SEND, once admitted. -/
def State.uartSend (s : State) (d : List Byte) : State :=
  let tag := descTag d
  let u := u8 d 8
  match (if uartForm d then s.uaChars (drefAt d 12) else none) with
  | none => s.complete tag stBad 0 []
  | some l =>
    if ¬ s.flag (UA_CFG.ENABLE u) ∨ s.flag (UA_CFG.AUTOBAUD u) then s.complete tag stNotPermitted 0 []
    else
      let chars := if bit (u8 d 9) 0 then modNth l 0 (fun c => c % 256 + 256) else l
      ((s.drefTake (drefAt d 12)).modUart u (fun y => { y with sends := y.sends ++ [⟨tag, chars, 0⟩] })).uaKick u

def execUartSend (s : State) : Result :=
  .next (s.takeDesc (fun d => decide (u8 d 0 = 6)) (fun d t => t.uartSend d))

end Sys2Proof.Machine
end

