-- ==== Sys2Proof/Machine/HostCmd.lean ====
section
/-! DEFINITION. The host port's registers and the transactions SEND, BROADCAST, READ_MT and ABORT (10). -/

namespace Sys2Proof.Machine

/-! ### Ring registers (R202 to R204, R211) -/

/-- A ring write was discarded. -/
def State.ringErr (s : State) : State := s.putFlag HP_STAT.RING_ERR true

/-- First address and length of the three rings (R201). -/
def State.ringSpans (s : State) : List (Nat × Nat) :=
  [(s.get HP_CR_BASE.ADDR * 4096, 64 * 2 ^ s.get HP_CR_BASE.LOG2N),
   (s.get HP_CPL_BASE.ADDR * 4096, 32 * 2 ^ s.get HP_CPL_BASE.LOG2N),
   (s.get HP_EV_BASE.ADDR * 4096, 32 * 2 ^ s.get HP_EV_BASE.LOG2N)]

/-- No two spans of a list overlap. -/
def disjoint (l : List (Nat × Nat)) : Bool :=
  match l with
  | [] => true
  | a :: t => t.all (fun b => decide (a.1 + a.2 ≤ b.1 ∨ b.1 + b.2 ≤ a.1)) && disjoint t

/-- The rings may be enabled: sizes from 2^4 to 2^12, each ring in the capture partition, none over another (R202). -/
def State.ringsOk (s : State) : Bool :=
  [s.get HP_CR_BASE.LOG2N, s.get HP_CPL_BASE.LOG2N, s.get HP_EV_BASE.LOG2N].all (fun l => decide (4 ≤ l ∧ l ≤ 12)) &&
    s.ringSpans.all (fun r => s.inCapture r.1 r.2) && disjoint s.ringSpans

/-- ENABLE takes another value: lost events are forgotten; a ring enabled afresh has no tag taken and no doorbell (R203, R211,
R215). -/
def State.ringsTurned (s : State) (on : Bool) : State :=
  { s with hp := { s.hp with lostSince := 0, taken := if on then [] else s.hp.taken, rung := if on then false else s.hp.rung } }

/-- A write of HP_CFG. -/
def State.writeHpCfg (s : State) (value : Word) : State :=
  let e := bit value.toNat 31
  if (e && (!s.ringsOk || s.follower || s.island)) || (!e && !s.hp.outst.isEmpty) then s.ringErr
  else
    let s1 := s.writePlain HP_CFG value
    if e = s.rings then s1 else s1.ringsTurned e

def execRingEnable (who : Accessor) (value : Word) (s : State) : Result :=
  .next (s.enter who HP_CFG (fun t => t.writeHpCfg value))

/-- A write of a ring's base register, writable only while ENABLE = 0. -/
def State.writeBase (s : State) (a : Nat) (value : Word) : State := if s.rings then s.ringErr else s.writePlain a value

/-- A doorbell (R203). -/
def State.writeDb (s : State) (value : Word) : State :=
  let t := bits value.toNat 15 0
  if ¬ s.rings ∨ 2 ^ s.get HP_CR_BASE.LOG2N < ringCount t (s.get HP_CR_IDX.HEAD) then s.ringErr
  else { s.put HP_CR_IDX.TAIL t with hp := { s.hp with rung := true } }

def execDoorbell (who : Accessor) (value : Word) (s : State) : Result :=
  .next (s.enter who HP_DB (fun t => t.writeDb value))

/-- A write of HP_CPL_IDX: a HEAD beyond TAIL is discarded (R204). -/
def State.writeCplHead (s : State) (value : Word) : State :=
  let h := bits value.toNat 15 0
  if s.cplCount < ringCount (s.get HP_CPL_IDX.TAIL) h then s.ringErr
  else if h = s.get HP_CPL_IDX.HEAD then s
  else
    let s1 := s.put HP_CPL_IDX.HEAD h
    let r := s1.agedNext s1.hp.cplAged s1.cplCount
    { r.2 with hp := { r.2.hp with cplAged := r.1 } }

def execCplHeadWrite (who : Accessor) (value : Word) (s : State) : Result :=
  .next (s.enter who HP_CPL_IDX (fun t => t.writeCplHead value))

/-- A write of HP_EV_IDX: a freed entry lets a waiting OVERFLOW record be written (R211). -/
def State.writeEvHead (s : State) (value : Word) : State :=
  let h := bits value.toNat 15 0
  if s.evCount < ringCount (s.get HP_EV_IDX.TAIL) h then s.ringErr
  else if h = s.get HP_EV_IDX.HEAD then s
  else
    let s1 := s.put HP_EV_IDX.HEAD h
    let r := s1.agedNext s1.hp.evAged s1.evCount
    ({ r.2 with hp := { r.2.hp with evAged := r.1 } }).overflowRecord

def execEvHeadWrite (who : Accessor) (value : Word) (s : State) : Result :=
  .next (s.enter who HP_EV_IDX (fun t => t.writeEvHead value))

/-- A write of HP_COAL: whether the oldest records have waited is judged by the new times (R212). -/
def State.writeCoal (s : State) (value : Word) : State :=
  let s1 := s.writePlain HP_COAL value
  let c := s1.agedAfter s1.hp.cplAged s1.cplCount (s.get HP_COAL.CPL_TIME) (s1.get HP_COAL.CPL_TIME)
  let e := c.2.agedAfter s1.hp.evAged s1.evCount (s.get HP_COAL.EV_TIME) (s1.get HP_COAL.EV_TIME)
  { e.2 with hp := { e.2.hp with cplAged := c.1, evAged := e.1 } }

/-- The oldest unconsumed record has waited its time (R212). -/
def execIrqCoalesceTimeout (events : Bool) (s : State) : Result :=
  .next (
    if events then (if 0 < s.evCount then { s with hp := { s.hp with evAged := true } } else s)
    else if 0 < s.cplCount then { s with hp := { s.hp with cplAged := true } } else s)

/-! ### SEND (R207, R325, R328) -/

/-- Hand a transaction to the follower under the next hand-off number (R325). -/
def State.handOver (s : State) (tag : Nat) (desc body : List Byte) : State :=
  let h := s.al.nextNumber
  { s with al := { s.al with
      nextNumber := (h + 1) % 65536, handoffs := s.al.handoffs ++ [(tag, h)],
      outbox := s.al.outbox ++ [.handoff h tag desc body] } }

/-- The unit leads a pair: it may hand sends over while the link is UP. -/
def State.leads (s : State) : Bool := s.paired && decide (s.role = 1)

/-- A SEND once admitted; a TYPE that is not listed completes here too. -/
def State.takeSend (s : State) (d : List Byte) : State :=
  let tag := descTag d
  let i := u16 d 8 - 1
  let own := s.ownLane (s.entLane i)
  if u8 d 0 ≠ 1 ∨ ¬ s.sendForm d then s.complete tag stBad 0 []
  else if s.entState i ≠ 2 then s.complete tag stNotPermitted 0 []
  else if own.isNone ∧ ¬ (s.leads ∧ s.linkUp ∧ ¬ s.acting i) then s.complete tag stNotPermitted 0 []
  else if own.any (fun n => !s.flag (LN_TXCFG.TX_EN n)) then s.complete tag stNotPermitted 0 []
  else
    match s.drefBytes (drefAt d 20) with
    | none => s.complete tag stBad 0 []
    | some body =>
      if 255 < macLen (s.firstMac i d body) then s.complete tag stBad 0 []
      else
        let s1 := s.drefTake (drefAt d 20)
        match own with
        | some n => s1.runSend tag tag none d i n body
        | none => s1.handOver tag d body

def execSend (s : State) : Result :=
  .next (s.takeDesc (fun d => decide (u8 d 0 = 1) || !listedType (u8 d 0)) (fun d t => t.takeSend d))

/-! ### BROADCAST (R207, R322, R370) -/

/-- Lanes of the copies that this unit sends, its own numbers, and those handed over, as joint numbers. In a pair bits 7 to 4 of
PORTS are LP4 to LP7; while it is split the other unit's bits are ignored. -/
def State.bcastLanes (s : State) (d : List Byte) : List Nat × List Nat :=
  let k := u8 d 12
  let four := fun (base : Nat) => ((List.range 4).filter (fun p => bit (u8 d 8) (base + p))).map (fun p => p * 64 + k)
  if s.upper then (four 4, [])
  else (four 0, if s.leads && s.linkUp then (four 4).map (· + 256) else [])

/-- A BROADCAST once admitted. -/
def State.takeBcast (s : State) (d : List Byte) : State :=
  let tag := descTag d
  let l := s.bcastLanes d
  if ¬ bcastForm d (s.leads || s.upper) ∨ (l.1 = [] ∧ l.2 = []) then s.complete tag stBad 0 []
  else
    match s.drefBytes (drefAt d 20) with
    | none => s.complete tag stBad 0 []
    | some body =>
      let seq := s.link.bcast.toNat
      let mac := bcastMac seq (bit (u8 d 10) 1) body
      if 255 < macLen mac then s.complete tag stBad 0 []
      else
        let s1 := s.drefTake (drefAt d 20)
        let s2 := { s1 with link := { s1.link with bcast := s1.link.bcast + 1 } }
        let s3 := if l.2 = [] then s2 else s2.handOver tag (d.take 13 ++ leBytes 1 seq ++ d.drop 14) body
        s3.runBcast tag tag none d seq l.1 l.2 mac

def execBroadcast (s : State) : Result :=
  .next (s.takeDesc (fun d => decide (u8 d 0 = 2)) (fun d t => t.takeBcast d))

/-! ### READ_MT (R208) -/

/-- The metering block (R123). -/
def State.meterBlock (s : State) : List Byte := (List.range 4).flatMap (fun f => padTo 352 (s.feeder f).block)

/-- A READ_MT once admitted. -/
def State.takeReadMt (s : State) (d : List Byte) : State :=
  let tag := descTag d
  let q := u16 d 8
  if ¬ zeros d 10 63 ∨ 1024 ≤ q ∨ ¬ ((s.queue q).en ∧ ¬ (s.queue q).stream ∧ (s.queue q).fmt = 1) then s.complete tag stBad 0 []
  else if ¬ s.fab.mtProg then s.complete tag stNotPermitted 0 []
  else
    let r := s.putPacket (.engine 5) q s.meterBlock
    (r.2.1.tellPool r.2.2).complete tag (packetStatus r.1) 47 []

def execReadMt (s : State) : Result :=
  .next (s.takeDesc (fun d => decide (u8 d 0 = 3)) (fun d t => t.takeReadMt d))

/-! ### ABORT (R215, R328) -/

/-- What an aborted SEND or BROADCAST leaves: an item not yet allocated is removed, no retry follows; a hand-off is fenced. -/
def State.abortSend (s : State) (tag : Nat) : State :=
  let mine := s.link.sends.filter (fun x => decide (x.tag = tag) && x.handoff.isNone)
  let s1 := foldState mine (fun x t =>
    foldState (x.copies.filter (fun c => c.result.isNone)) (fun c u => u.dropItem c.n c.item) t) s
  let nums := (s.al.handoffs.filter (fun h => h.1 = tag)).map (·.2)
  let s2 := { s1 with link := { s1.link with sends := s1.link.sends.filter (fun x => !(decide (x.tag = tag) && x.handoff.isNone)) } }
  { s2 with al := { s2.al with
      handoffs := s2.al.handoffs.filter (fun h => h.1 ≠ tag), fenced := s2.al.fenced ++ nums,
      outbox := if s.linkUp then s2.al.outbox ++ nums.map AlloyMsg.abandon else s2.al.outbox } }

/-- INFO of an aborted SEND or BROADCAST (R209). What the other unit has done with a SEND handed over to it is open here. -/
def State.abortInfo (s : State) (tag : Nat) : Nat × State :=
  match s.link.sends.find? (fun x => decide (x.tag = tag) && x.handoff.isNone) with
  | some x => (s.sendInfo x, s)
  | none => s.free 0x10000

/-- An aborted RADIO_SEND: nothing further is sent, and it completes with its attempts and SEQ (R241). A flood on the air goes on as a
forward of no pair. -/
def State.abortRadio (s : State) (tag : Nat) : State :=
  let s1 := foldState (List.range 16) (fun c t =>
    let own := (t.rlink c).items.filter (fun i => i.tag = some tag)
    foldState own (fun x u => u.endItem x stAborted 0 [])
      (t.modRlink c (fun l => { l with items := l.items.filter (fun i => i.tag ≠ some tag) }))) s
  let onAir := decide (s1.radio.tx = .flood (some tag) false)
  let s2 := { s1 with radio := { s1.radio with
    tx := if onAir then .forward [] 0 else s1.radio.tx, floods := s1.radio.floods.filter (fun f => f.1 ≠ some tag) } }
  s2.complete tag stAborted (if onAir then 1 + 256 * u8 s2.radio.air 1 else 0) []

/-- What an aborted UART_SEND leaves: the character on the wire finishes. -/
def State.abortUart (s : State) (tag : Nat) : State :=
  foldState (List.range 6) (fun u t => t.modUart u (fun x =>
    { x with sends := x.sends.filter (fun y => y.tag ≠ tag),
             cur := x.cur.map (fun c => if c.tag = some tag then { c with tag := none } else c) })) s

/-- INFO of an aborted UART_SEND: the characters sent (R257). -/
def State.uaSent (s : State) (tag : Nat) : Nat :=
  ((List.range 6).map (fun u => (((s.uart u).sends.filter (fun y => y.tag = tag)).map (·.sent)).sum)).sum

/-- End an outstanding transaction ABORTED (R215). -/
def State.abortTag (s : State) (t : Trans) : State :=
  match t.type with
  | 1 | 2 => let r := s.abortInfo t.tag; (r.2.abortSend t.tag).complete t.tag stAborted r.1 []
  | 4 =>
    match s.wd.jobs.find? (fun j => j.tag = t.tag) with
    | none => s.complete t.tag stAborted 0 []
    | some j => s.failJob j stAborted 0#8
  | 5 => s.abortRadio t.tag
  | 6 => (s.abortUart t.tag).complete t.tag stAborted (s.uaSent t.tag) []
  | _ => s.complete t.tag stAborted 0 []

/-- An ABORT once admitted. -/
def State.takeAbort (s : State) (d : List Byte) : State :=
  let tag := descTag d
  let target := u16 d 8
  if 1024 ≤ target ∨ ¬ zeros d 10 63 then s.complete tag stBad 0 []
  else
    match s.outstanding target with
    | none => s.complete tag stAbortLate (target + (if target ∈ s.hp.taken then 0 else 2 ^ 30)) []
    | some t =>
      if target = tag then s.complete tag stAbortLate target []
      else if t.type = 7 then s.complete tag stAbortLate (target + 2 * 2 ^ 30) []
      else (s.abortTag t).complete tag stOk target []

def execAbort (s : State) : Result :=
  .next (s.takeDesc (fun d => decide (u8 d 0 = 8)) (fun d t => t.takeAbort d))

end Sys2Proof.Machine
end

