-- ==== Sys2Proof/Machine/Alloy.lean ====
section
/-! DEFINITION. The alloy link and the pair (16). -/

namespace Sys2Proof.Machine

/-! ### Roles (R318) -/

/-- The unit takes part in a pair, and its link runs (R319). -/
def State.alloyOn (s : State) : Bool := s.flag AL_CFG.ENABLE && s.awake

/-- The strap makes the unit the lead. -/
def State.strapLead (s : State) : Bool := s.flag SYS_STRAP.ALLOY_ROLE

/-- ROLE follows AL_CFG.ENABLE and the strap; a promoted unit keeps its role (R334). -/
def State.followRole (s : State) : State :=
  if s.role = 3 then s
  else s.put AL_STAT.ROLE (if s.flag AL_CFG.ENABLE then (if s.strapLead then 1 else 2) else 0)

/-- Put a message on the link. -/
def State.post (s : State) (m : AlloyMsg) : State := { s with al := { s.al with outbox := s.al.outbox ++ [m] } }

/-- The two units may pair: opposite straps, neither promoted, the same registry size, and the same beacon period on every port that
both enable. -/
def State.pairs (s : State) (b : Beat) : Bool :=
  let own := (List.range 4).map (fun p => if s.flag (LP_CFG.ENABLE p) then some (s.get (LP_BCN.PERIOD p)) else none)
  (b.lead != s.strapLead) && !b.promoted && decide (s.role ≠ 3) && decide (b.entries = s.entries) &&
    (own.zip b.periods).all (fun x => match x with
      | (some a, some c) => decide (a = c)
      | _ => true)

/-! ### Link UP and loss (R319, R320, R326, R331) -/

/-- The follower's timing at each link UP. -/
def State.takeTiming (s : State) (b : Beat) : State :=
  if s.role ≠ 2 then s
  else
    let slip := decide (s.reg PWR_MCYC ≠ b.mcyc)
    let s1 := (s.setReg PWR_MCYC b.mcyc).put LK_EPOCH.EPOCH b.epoch.toNat
    if slip then s1.setEvt AL_EVT.CYC_SLIP else s1

/-- The lead copies its whole registry to the follower when the pair first pairs after a cast (R323). -/
def State.copyRegistry (s : State) : State :=
  if s.role = 1 ∧ s.mode = 7 ∧ s.linkUp ∧ ¬ s.al.copied then
    (({ s with al := { s.al with copied := true } }).post (.registry (s.bytes s.regBase (64 * s.entries))))
  else s

/-- The link becomes UP: timing first; a split pair begins to heal. -/
def State.becomeUp (s : State) (b : Beat) : State :=
  let s1 := (s.put AL_STAT.LINK 2).setEvt AL_EVT.LINK_UP
  let s2 := s1.takeTiming b
  let split := decide (s2.mode = 8) || (s2.leads && s2.al.copied)
  ({ s2 with al := { s2.al with healing := split, replica := [] } }).copyRegistry

/-- Pairing is refused (R318). -/
def State.conflict (s : State) : State := (s.put AL_STAT.LINK 3).setEvt AL_EVT.ROLE_CONFLICT

/-- A heartbeat of the other unit. -/
def State.beat (s : State) (b : Beat) : State :=
  let s1 := ({ s with al := { s.al with beats := clampNat 16 (s.al.beats + 1) } }).put AL_STAT.MISSES 0
  if ¬ s.pairs b then s1.conflict
  else if s.linkUp then
    (if s.role = 2 then s1.put LK_EPOCH.EPOCH b.epoch.toNat else s1)
  else if 16 ≤ s1.al.beats ∧ b.heard then s1.becomeUp b
  else s1.put AL_STAT.LINK 1

def execHeartbeatRx (b : Beat) (s : State) : Result := .next (if s.alloyOn then s.beat b else s)

def execHeartbeatTx (s : State) : Result := .next (if s.alloyOn then s.post .heartbeat else s)

/-- Loss is declared (R320): the link retrains, a heal stops, and an Alloyed follower goes to Island (R329). -/
def State.loseLink (s : State) (cause : Nat) : State :=
  if ¬ s.linkUp then s
  else
    let s1 := ((s.put AL_STAT.LINK 1).put AL_STAT.LOST_CAUSE cause).setEvt AL_EVT.LINK_LOST
    let s2 := { s1 with al := { s1.al with beats := 0, healing := false, replica := [] } }
    if s2.follower then ((s2.setMode 8 11).applyRate).followPorts else s2

/-- A 100 us period without a heartbeat; the eighth in a row loses the link. -/
def execHeartbeatMiss (s : State) : Result :=
  .next (
    if ¬ s.alloyOn then s
    else
      let n := clampNat 8 (s.get AL_STAT.MISSES + 1)
      let s1 := ({ s with al := { s.al with beats := 0 } }).put AL_STAT.MISSES n
      if n = 8 then s1.loseLink 1 else s1)

/-- A link frame fails its CRC (R320). -/
def execLinkFrameCrcFail (inWindow : Nat) (s : State) : Result :=
  .next (
    if ¬ s.alloyOn then s
    else
      let s1 := s.count AL_CNT.CRC_ERR 1
      if max 1 (s.get AL_CFG.CRC_BURST) ≤ inWindow then s1.loseLink 2 else s1)

/-! ### Shared work (R323, R325) -/

/-- A registry write of the other unit: applied to the local replica, or kept for the reconciliation of a heal (R332). -/
def execReplicaWriteRx (index : Nat) (part : EntPart) (value : Word) (s : State) : Result :=
  .next (
    if ¬ (s.paired ∧ s.linkUp ∧ index < s.entries) then s
    else if s.al.healing then { s with al := { s.al with replica := s.al.replica ++ [(index, part.val, value)] } }
    else
      let a := s.entryAddr index + 4 * part.val
      (s.readSpan a 4).setPart a (leBytes 4 value.toNat))

/-- A frame that the other unit received: this unit processes it as its own. -/
def execForwardedFrameRx (fr : RxFrame) (s : State) : Result :=
  .next (
    if s.paired ∧ s.linkUp then
      let cp := bits (nth 0 fr.quality 5).toNat 23 22
      { s with link := { s.link with rx := s.link.rx ++
          [{ lane := fr.lane, bytes := fr.bytes, full := fr.full, cp := cp, endCyc := fr.endCyc, quality := fr.quality }] } }
    else s)

/-- The follower takes a hand-off: a SEND on the entry's home lane, or the copies of a BROADCAST on its ports. A check that fails
here ends it with a record to the lead. -/
def State.takeHandoff (s : State) (number tag : Nat) (d body : List Byte) : State :=
  let id := 1024 * (number + 1) + tag
  let fail := fun (st : Nat) => s.tell [.handed number (cplRec tag st (u8 d 0) 0 [])]
  if u8 d 0 = 1 then
    let i := u16 d 8 - 1
    match s.ownLane (s.entLane i) with
    | none => fail stNotPermitted
    | some n =>
      if ¬ s.sendForm d then fail stBad
      else if s.entState i ≠ 2 ∨ ¬ s.flag (LN_TXCFG.TX_EN n) then fail stNotPermitted
      else s.runSend id tag (some number) d i n body
  else
    let lanes := ((List.range 4).filter (fun p => bit (u8 d 8) (4 + p))).map (fun p => p * 64 + u8 d 12 % 64)
    let seq := u8 d 13
    s.runBcast id tag (some number) d seq lanes [] (bcastMac seq (bit (u8 d 10) 1) body)

def execHandoffRx (number : BitVec 16) (tag : TagN) (desc : List Byte) (body : List Byte) (s : State) : Result :=
  .next (if s.follower ∧ s.linkUp then s.takeHandoff number.toNat tag desc body else s)

/-! ### Sync marks (R327) -/

/-- JOINED entries whose acting unit is the follower. -/
def State.homeSet (s : State) : List Nat :=
  (List.range s.entries).filter (fun i => decide (s.entState i = 2) && s.entSet i && decide (256 ≤ s.entLane i))

/-- A confirmed mark pins the follower's home set. -/
def State.pin (s : State) (cycle : Word) : State :=
  let l := s.homeSet
  (({ s with al := { s.al with pinned := l } }).setReg AL_SYNC cycle).put AL_STAT.PINNED l.length

/-- A sync mark goes out, after the replica writes that wait before it in the outbox. -/
def State.sendMark (s : State) : State :=
  ({ s with al := { s.al with lastMark := some (s.reg PWR_MCYC) } }).post (.mark (s.reg PWR_MCYC))

/-- SYNC_CYC mains cycles have passed since the last mark; 0 acts as 1. -/
def State.markDue (s : State) : Bool :=
  s.al.lastMark.all (fun c => decide (max 1 (s.get AL_CFG.SYNC_CYC) ≤ (s.reg PWR_MCYC - c).toNat))

def execSyncMarkSend (s : State) : Result :=
  .next (if s.leads ∧ s.linkUp ∧ ¬ s.al.healing ∧ s.markDue then s.sendMark else s)

def execSyncMarkConfirm (cycle : Word) (s : State) : Result :=
  .next (
    if ¬ s.linkUp ∨ s.al.healing then s
    else if s.follower then (s.pin cycle).post (.mark cycle)
    else if s.leads ∧ s.al.lastMark = some cycle then s.pin cycle
    else s)

/-! ### Records of the follower at the lead (R325, R331) -/

/-- HANDOFF, RECORD and BODY of a record in the form of R330. -/
def recHandoff (r : List Byte) : Nat := u16 r 2
def recBody32 (r : List Byte) : List Byte := (r.drop 8).take 32
def recTail (r : List Byte) : List Byte := r.drop 40

/-- The handed-off copies of a BROADCAST have their outcomes: INFO names the ports that sent in full. -/
def State.farCopies (s : State) (x : SendSt) (status info : Nat) : State :=
  foldState (x.copies.filter (fun c => decide (256 ≤ c.n) && c.result.isNone))
    (fun c t => t.endCopy x.id c.n (if bit info (c.n / 64) then stOk else status) []) s

/-- A hand-off with this tag ends. -/
def State.endHandoff (s : State) (tag status info : Nat) (result : List Byte) : State :=
  let s1 := { s with al := { s.al with handoffs := s.al.handoffs.filter (fun h => h.1 ≠ tag) } }
  match s1.sendOf tag with
  | some x => s1.farCopies x status info
  | none => s1.complete tag status info result

/-- A completion: written only if its tag is outstanding with the same hand-off number and that number is not fenced. -/
def State.farCompletion (s : State) (r : List Byte) : State :=
  let c := recBody32 r
  let tag := u16 c 0 % 1024
  if s.al.handoffs.contains (tag, recHandoff r) ∧ recHandoff r ∉ s.al.fenced then
    s.endHandoff tag (u8 c 2) (u32 c 4) (c.drop 8)
  else s

/-- A received frame of the follower, with its body, which goes to the queue its INFO names. -/
def State.farFrame (s : State) (r : List Byte) : State :=
  let e := recBody32 r
  let p := s.putPacket (.engine 0) (u32 e 4 % 1024) (recTail r)
  let s1 := p.2.1.tellPool p.2.2
  if p.1 = 1 then s1.ringEvent e else s1

/-- An event. In a heal, whether R93 finds a frame new is open: the record does not carry its SEQ. -/
def State.farEvent (s : State) (r : List Byte) (judge : Bool) : State :=
  if u8 (recBody32 r) 0 ≠ 1 then s.ringEvent (recBody32 r)
  else if judge then
    let f := s.free 2
    if f.1 = 0 then f.2.farFrame r else f.2.count AL_CNT.REPLAY_DUP 1
  else s.farFrame r

/-- One record at the lead. -/
def State.farRecord (s : State) (r : List Byte) (judge : Bool) : State :=
  if u8 r 0 = 0 then s.farCompletion r else s.farEvent r judge

/-! ### Reconciliation and the end of a heal (R331, R332) -/

/-- One 32-bit part of an entry, reconciled: `far` is the other replica's value, `acted` says that the other unit acted on the
entry during the split, and `lead` that the other unit is the lead. -/
def reconciled (part : Nat) (own far : Word) (acted lead : Bool) : Word :=
  if part = 6 then (if laterCycle far.toNat own.toNat then far else own)
  else if part < 8 then (if acted then far else own)
  else if part = 8 then
    let home := (if acted then far else own) &&& 0x00FFFFFF#32
    let path := (if lead then far else own) &&& 0xFF000000#32
    home ||| path
  else if lead then far else own

/-- The two replicas are reconciled. -/
def State.reconcile (s : State) : State :=
  let lead := decide (s.role = 2)
  foldState s.al.replica (fun x t =>
    let a := t.entryAddr x.1 + 4 * x.2.1
    let acted := if lead then !t.al.pinned.contains x.1 else t.al.pinned.contains x.1
    let u := t.readSpan a 4
    u.setPart a (leBytes 4 (reconciled x.2.1 (u.word a) x.2.2 acted lead).toNat)) s

/-- Steps 5 to 7 of R331 at the lead: handed-off tags that are neither live nor completed end ABORTED. -/
def State.healLead (s : State) (live : List Nat) : State :=
  let lost := s.al.handoffs.filter (fun h => !live.contains h.2)
  let s1 := foldState lost (fun h t => t.endHandoff h.1 stAborted 0 []) s
  let s2 := s1.reconcile
  (({ s2 with al := { s2.al with healing := false, replica := [], fenced := [] } }).setEvt AL_EVT.HEALED).sendMark

/-- Steps 4, 6 and 7 at the follower: fenced hand-offs are abandoned without a record, and it enters Alloyed. -/
def State.healFollower (s : State) (live : List Nat) : State :=
  let gone := s.link.sends.filter (fun x => x.handoff.any (fun h => !live.contains h))
  let s1 := foldState gone (fun x t =>
    foldState (x.copies.filter (fun c => c.result.isNone)) (fun c u => u.dropItem c.n c.item) t) s
  let s2 := { s1 with link := { s1.link with sends := s1.link.sends.filter (fun x => !x.handoff.any (fun h => !live.contains h)) } }
  let s3 := s2.reconcile
  let s4 := { s3 with al := { s3.al with healing := false, healedNow := true, replica := [] } }
  ((s4.setMode 7 11).applyRate.followPorts).setEvt AL_EVT.HEALED

/-- The head packet of BUFQ, as bytes. -/
def State.bufHead (s : State) : List Byte := (s.fab.bufq.map (fun q => linesBytes (s.headWords q))).getD []

/-- Remove the head packet of BUFQ. -/
def State.bufPop (s : State) : State :=
  match s.fab.bufq with
  | none => s
  | some q => let r := s.dropRest q; r.1.tellPool r.2

def execBufqRecordReplay (rec : List Byte) (live : List Nat) (s : State) : Result :=
  .next (
    if ¬ s.linkUp then s
    else if s.leads then
      (if rec ≠ [] then s.farRecord rec s.al.healing else if s.al.healing then s.healLead live else s)
    else if s.island ∧ s.al.healing then
      (if rec = [] then s.healFollower live else if rec = s.bufHead then s.bufPop else s)
    else s)

/-! ### Promotion (R334) -/

/-- Replay BUFQ into the unit's own rings; `fuel` bounds its packets. -/
def State.replayOwn (s : State) (fuel : Nat) : State :=
  match fuel with
  | 0 => s
  | fuel + 1 =>
    let r := s.bufHead
    if r = [] then s else State.replayOwn ((s.bufPop).farRecord r false) fuel

/-- An Island follower becomes the lead. -/
def State.promoted (s : State) : State :=
  let n := (s.fab.bufq.map (fun q => s.pkts q)).getD 0
  let s1 := (s.putFlag AL_CTL.PROMOTE true).put AL_STAT.ROLE 3
  let s2 := { s1 with al := { s1.al with healing := false, replica := [] } }
  let s3 := (s2.setMode 7 11).applyRate.followPorts
  (s3.writeHpCfg (s3.reg HP_CFG ||| 0x80000000#32)).replayOwn n

/-- A write of AL_CTL: PROMOTE is taken only in Island, with presence; in the cycle in which a heal ends it is refused (R333). -/
def State.writeAlCtl (s : State) (who : Accessor) (value : Word) : State :=
  let g := s.gate who AL_CTL value
  if bit g.1.toNat 31 ∧ s.island then g.2.promoted
  else if bit g.1.toNat 31 ∧ s.al.healedNow then g.2.refuse who AL_CTL stNotPermitted
  else g.2

def execPromote (value : Word) (s : State) : Result :=
  .next (if s.island ∨ s.al.healedNow then s.writeAlCtl .host value else s.enter .host AL_CTL (fun t => t.writeAlCtl .host value))

end Sys2Proof.Machine
end

