-- ==== Sys2Proof/Machine/Stop.lean ====
section
/-! DEFINITION. How what is in progress ends (R177, R294, R307), what the resets keep (R299, R350), sleep, wake and the way into
Assay (R305, R307 to R309). -/

namespace Sys2Proof.Machine

/-! ### Transactions and producers -/

/-- Every outstanding transaction other than the line's and the radio's ends with a status. -/
def State.endOthers (s : State) (status : Nat) : State :=
  let s1 := s.endUarts status
  let s2 := foldState s1.wd.jobs (fun j t => t.failJob j status 0#8) s1
  let s3 := { s2 with ctl := { s2.ctl with acts := [] } }
  foldState s3.hp.outst (fun x t => t.complete x.tag status 0 []) s3

/-- Every outstanding transaction ends with one status. -/
def State.endAll (s : State) (status : Nat) : State := ((s.endLine status).endRadio status 0).endOthers status

/-- The packets that these producers hold open are rewound with no outcome (R145). -/
def State.rewindAll (s : State) (p : Producer → Bool) : State :=
  foldState (s.pool.opens.filter (fun o => p o.prod)) (fun o t => let r := t.rewind o.prod o.q; r.1.tellPool r.2) s

/-- Core k stops: STOPPED, its stalled instruction abandoned, its packets rewound (R195). -/
def State.stopCore (s : State) (k : Core) : State :=
  ((s.put (SEQ_STAT.STATE k.val) 7).modCore k.val (fun c => { c with stall := .none })).rewindAll
    (fun p => decide (p = .core k))

/-- Every core stops. -/
def State.stopCores (s : State) : State :=
  foldState (List.finRange 32) (fun k t => t.stopCore k) s

/-! ### Mode changes with their blocks (R304) -/

/-- The modes in which JTAG debug may be unlocked. -/
def debugMode (m : Nat) : Bool := decide (m = 9 ∨ m = 11)

/-- The mode becomes `m`: the rate, the line ports and the radio follow it. DBG_UNLOCK clears on leaving Maintenance and Test. -/
def State.enterMode (s : State) (m cause : Nat) : State :=
  let was := s.radioOn
  let s1 := if debugMode s.mode ∧ ¬ debugMode m then s.putFlag WD_POLICY.DBG_UNLOCK false else s
  let s2 := { s1 with iron := { s1.iron with
    outSince := if m = 6 then s1.iron.rtc else s1.iron.outSince, maintOut := decide (m = 9) && s1.iron.maintOut } }
  (((s2.setMode m cause).applyRate).followPorts).followRadio was

/-- The mode that Forge chooses (R305). -/
def State.choice (s : State) : Nat :=
  if s.linkUp then 7 else if ¬ s.flag PWR_STAT.MAINS then 6 else if s.flag SYS_CTL.FULL then 5 else 4

/-! ### What a reset keeps (R299, R350) -/

/-- The bits of the register at `a` that RST_N, or a sleep, keeps. -/
def keptMask (sleep : Bool) (a : Nat) : Nat :=
  match regFind a with
  | none => 0
  | some (d, _) =>
    match d.cls with
    | .v | .o => 0xFFFFFFFF
    | .k => if sleep then 0xFFFFFFFF else 0
    -- LK_EPOCH.EPOCH is class V; the presence window and the iron clock's source run on in the iron domain.
    | .q => if a = LK_EPOCH then 0xFFFF else if a = WD_STAT then 0x30000000 else if a = CLK_STAT then 0xC0000000 else 0

/-- An entry of the register map after a reset; none if it holds its reset value then. -/
def keptReg (sleep : Bool) (e : Nat × Word) : Option (Nat × Word) :=
  let m := BitVec.ofNat 32 (keptMask sleep e.1)
  let v := (e.2 &&& m) ||| (resetValue e.1 &&& ~~~m)
  if v = resetValue e.1 then none else some (e.1, v)

/-- The SRAM bank that holds `a` is retained (R138). -/
def State.retained (s : State) (a : Nat) : Bool := s.bitOf PWR_RETAIN.BANKS (bits (a - sramBase) 23 20)

/-- Banks not named in PWR_RETAIN lose their contents: they are zero when they return to use. -/
def State.loseBanks (s : State) : State :=
  { s with sram := mkeep s.retained s.sram,
           poison := s.poison.filter (fun w => s.retained (sramBase + 32 * w)),
           upsets := mkeep (fun w => s.retained (sramBase + 32 * w)) s.upsets }

/-- Every bank that holds part of the pool is retained (R138). The pool reaches to the end of the SRAM (R136). -/
def State.poolSafe (s : State) : Bool :=
  s.pool.first.any (fun c => (List.range 16).all (fun b => decide (b < c / 4096) || s.bitOf PWR_RETAIN.BANKS b))

/-- A host window. -/
def isWin (p : Producer) : Bool :=
  match p with
  | .win _ => true
  | _ => false

/-- Host windows lose their held words and open packets; RESULT stays (R138). -/
def State.loseWins (s : State) : State :=
  let s1 := foldState (s.pool.wins.map (·.1)) (fun w t => t.put (QP_WIN_STAT.PART w) 0) s
  { s1 with pool := { s1.pool with wins := [] } }

/-- The quicksilver domain is reset: registers by their class, everything the iron domain does not hold empty. -/
def State.resetQuick (s : State) (sleep : Bool) : State :=
  let s1 := { s with regs := s.regs.filterMap (keptReg sleep) }
  { s1 with
      hp := {}, ports := [], lanes := [], dec := {}, link := { bcast := s.link.bcast }, meter := {}, cores := [], uarts := [],
      al := {}, pm := {},
      fab := { digest := s.fab.digest, lastVer := s.fab.lastVer, lastBuild := s.fab.lastBuild, poolKept := s.fab.poolKept },
      radio := { fseq := s.radio.fseq, seen := s.radio.seen, dwell := s.radio.dwell },
      ctl := { cmd := s.ctl.cmd, dead := s.ctl.dead, held := s.ctl.held, bounce := s.ctl.bounce },
      wd := { s.wd with mbxOp := none, mbxPres := false, mbxRes := none, jobs := [] } }

/-- The cells that staged a partial ingot return to the free list (R171). -/
def State.unstage (s : State) : State :=
  let s1 := s.freeThese s.fab.stage
  { s1 with fab := { s1.fab with stage := [] } }

/-- Steps 3 to 5 of R307, the mode having changed: producers stop, banks lose power, the domain is reset, the supplies fall. -/
def State.dropPower (s : State) (outage : Bool) : State :=
  let s1 := s.unstage.rewindAll (fun p => !isWin p)
  let had := s1.pool.queues.any (fun e => e.2.en)
  let safe := s1.poolSafe
  let s2 := if safe then
      { s1 with pool := { s1.pool with opens := s1.pool.opens.filter (fun o => isWin o.prod), hadQueues := had } }
    else
      let t := s1.loseWins
      { t with pool := { scrub := t.pool.scrub, commits := t.pool.commits, hadQueues := had } }
  let s3 := { s2 with fab := { s2.fab with poolKept := safe } }
  let s4 := (s3.loseBanks).resetQuick true
  let s5 := { s4 with iron := { s4.iron with asleep := true, fromOutage := outage, maintOut := false, boot := none } }
  let m := s5.mode
  (s5.putFlag PWR_STAT.QS_PWREN (m = 1)).putFlag PWR_STAT.RF_PWREN (m = 1 && s5.flag RF_SNIFF.EN)

/-- Entry to Dormant or Sentinel by REQUEST or TIMEOUT (R307). -/
def State.sleep (s : State) (m cause : Nat) : State :=
  let outage := decide (s.mode = 6)
  let s1 := ((s.endLine stMainsLost).endRadio stNoAck (2 ^ 30)).endOthers stAborted
  (s1.enterMode m cause).dropPower outage

/-! ### Wake and Assay (R305, R308, R309) -/

/-- Assay begins: the clocks start on the ring oscillator, the self-tests run, and slot A is due (R171, R293, R301). -/
def State.enterAssay (s : State) (cause : Nat) : State :=
  let s1 := s.setMode 2 cause
  let s2 := { s1 with iron := { s1.iron with boot := none, asleep := false } }
  let s3 := (s2.put CLK_STAT.RATE 1).putFlag CLK_STAT.RING true
  let s4 := { s3 with fab := { s3.fab with
    due := some (0, 2), restore := decide (cause = 3) && s3.fab.poolKept && !s3.fab.digest.isEmpty } }
  if cause = 3 ∧ s4.pool.hadQueues ∧ ¬ s4.fab.poolKept then
    let s5 := { s4 with pool := { s4.pool with hadQueues := false } }
    s5.setEvt QP_EVT.POOL_LOST
  else s4

/-- The device leaves Dormant or Sentinel: it raises its supplies. In Sentinel the quicksilver domain is powered already. -/
def State.powerUp (s : State) (cause : Nat) : State :=
  if s.iron.boot.isSome then s
  else
    let s1 := (s.putFlag PWR_STAT.QS_PWREN true).putFlag PWR_STAT.RF_PWREN true
    if s.mode = 1 then s1.enterAssay cause else { s1 with iron := { s1.iron with boot := some cause } }

/-- A wake source, if PWR_WAKE enables it (R305). -/
def State.wake (s : State) (f : Fld) : State :=
  if s.iron.asleep ∧ ¬ s.awake ∧ ¬ s.iron.held ∧ s.flag f then s.powerUp 3 else s

/-- Dormant after a reset: with RST_N high, the device boots once mains is present, or at once with BOOT_ANY (R305). -/
def State.tryBoot (s : State) : State :=
  if s.mode = 0 ∧ ¬ s.iron.asleep ∧ ¬ s.iron.held ∧ s.iron.viron ∧ (s.flag PWR_STAT.MAINS ∨ s.flag PWR_CFG.BOOT_ANY) then s.powerUp 2
  else s

/-- Assay starts again from a mode above it: the transactions end, the cores stop, the tests run, then `due` is loaded. -/
def State.backToAssay (s : State) (cause : Nat) (due : Nat × Nat) : State :=
  let s1 := (((s.endAll stAborted).stopCores).enterMode 2 cause).put WD_STAT.STATE 0
  { s1 with fab := { s1.fab with due := some due, restore := false } }

/-- A bit of an iron-domain event register: below Assay no event can be placed. -/
def State.ironEvt (s : State) (f : Fld) : State := if s.awake then s.setEvt f else s.putFlag f true

end Sys2Proof.Machine
end

