-- ==== Sys2Proof/Machine/Ingot.lean ====
section
/-! DEFINITION. The ingot container, its sections, and the checks of R172 that need no cast: steps 1 to 3 and 5 to 7 (R160 to
R170, R175). -/

namespace Sys2Proof.Machine

/-- A failed check: FAB_STAT.ERR, and ERR_SECT where the failure names a section or the header; what ERR_SECT shows of any
other failure is open. -/
abbrev IngErr := Nat × Option Nat

def errRoot : IngErr := (6, none)
def errSignature : IngErr := (7, none)
def errVersion : IngErr := (8, some 0xFF)
def errStage : IngErr := (15, none)
def errAborted : IngErr := (16, none)
def errFlash : IngErr := (1, none)
/-- A failure of the header or of the section table. -/
def errHead (code : Nat) : IngErr := (code, some 0xFF)

/-- The first failure of a list of checks, each with whether it holds. -/
def firstErr (l : List (Bool × IngErr)) : Option IngErr := (l.find? (fun x => !x.1)).map (·.2)

/-! ### Header (R160) -/

def ingFormat (h : List Byte) : Nat := u16 h 4
def ingVer (h : List Byte) : Nat := u32 h 8
def ingFlags (h : List Byte) : Nat := u8 h 12
def ingScope (h : List Byte) : Nat := u8 h 13
def ingSects (h : List Byte) : Nat := u16 h 14
def ingLen (h : List Byte) : Nat := u32 h 16
def ingSig (h : List Byte) : Nat := u32 h 20
def ingCores (h : List Byte) : Nat := u32 h 32
def ingBase (h : List Byte) : Nat := u32 h 36
/-- Bytes of the header and the section table. -/
def ingHead (h : List Byte) : Nat := 64 + 16 * ingSects h

/-- Steps 1 and 2, and the header's part of step 3 (R172), for a load of this kind. -/
def headerCheck (part : Bool) (h : List Byte) : Option IngErr :=
  firstErr [
    (decide (ingFormat h = 1), errHead 4),
    (decide (u16 h 6 = 0x0256), errHead 3),
    (decide (h.take 4 = [0x4D#8, 0x5A#8, 0x49#8, 0x47#8]), errHead 2),
    (decide (ingFlags h < 2), errHead 9),
    (decide (bit (ingFlags h) 0 = part ∧ (if part then 1 ≤ ingScope h ∧ ingScope h ≤ 6 else ingScope h = 0)), errHead 14),
    (decide (ingLen h ≤ 4194304 ∧ ingLen h % 32 = 0 ∧ ingSig h + 128 = ingLen h ∧ ingHead h ≤ ingSig h), errHead 5),
    (decide (1 ≤ ingSects h ∧ ingSects h ≤ 64), errHead 9),
    (part || decide (ingCores h = 0 ∧ ingBase h = 0), errHead 9),
    (zeros h 40 63, errHead 9)]

/-! ### Section table (R161) -/

/-- A section: its index in the table, TYPE, INST and where it lies. -/
structure Sect where
  idx : Nat
  type : Nat
  inst : Nat
  off : Nat
  len : Nat
  deriving DecidableEq, Repr

/-- The sections of an ingot, in table order. -/
def sects (g : List Byte) : List Sect :=
  (List.range (ingSects g)).map (fun i =>
    let e := g.drop (64 + 16 * i)
    ⟨i, u8 e 0, u8 e 1, u32 e 4, u32 e 8⟩)

/-- The bytes of a section. -/
def Sect.bytes (g : List Byte) (x : Sect) : List Byte := (g.drop x.off).take x.len

/-- INST is one that the TYPE may carry. -/
def instOk (x : Sect) : Bool := if x.type = 4 then decide (x.inst ≤ 3 ∨ (16 ≤ x.inst ∧ x.inst ≤ 63)) else decide (x.inst = 0)

/-- At most one section of this TYPE and INST. -/
def single (x : Sect) : Bool := decide (x.type ≠ 5)

/-- A partial ingot may carry the TYPE; ISLAND stands on a unit strapped as a follower alone. -/
def typeOk (part lead : Bool) (t : Nat) : Bool :=
  decide (1 ≤ t ∧ t ≤ 8) && (if part then decide (t ≠ 1 ∧ t ≠ 6 ∧ t ≠ 8) else decide (t ≠ 8) || !lead)

/-- The rules of one entry, given the entries before it. -/
def entryOk (g : List Byte) (part lead : Bool) (before : List Sect) (x : Sect) : Bool :=
  let e := g.drop (64 + 16 * x.idx)
  zeros e 2 3 && zeros e 12 15 && typeOk part lead x.type && instOk x && decide (x.off % 32 = 0) &&
    decide (ingHead g ≤ x.off ∧ x.off + x.len ≤ ingSig g) &&
    before.all (fun y => decide (y.off + y.len ≤ x.off ∨ x.off + x.len ≤ y.off)) &&
    !(single x && before.any (fun y => decide (y.type = x.type ∧ y.inst = x.inst)))

/-- The first entry that breaks a rule. -/
def badEntry (g : List Byte) (part lead : Bool) (before : List Sect) (l : List Sect) : Option Nat :=
  match l with
  | [] => none
  | x :: t => if entryOk g part lead before x then badEntry g part lead (x :: before) t else some x.idx

/-- Step 3 (R172): the section table and the multiplicities. -/
def tableCheck (part lead : Bool) (g : List Byte) : Option IngErr :=
  let l := sects g
  match badEntry g part lead [] l with
  | some i => some (9, some i)
  | none =>
    let need := if part then [] else if lead then [1, 2, 6] else [1, 2, 6, 8]
    if need.all (fun t => l.any (fun x => decide (x.type = t))) then none else some (errHead 9)

/-! ### Signature and version (R162, R172) -/

/-- Step 5: the root hash, then the signature. -/
def State.signCheck (s : State) (g : List Byte) : Option IngErr :=
  let b := g.drop (ingSig g)
  let x := beNat (b.take 32)
  let y := beNat ((b.drop 32).take 32)
  if s.wd.otp.root ≠ some (sha256 (b.take 64)) then some errRoot
  else if ecValid x y && ecdsaVerify x y (beNat ((b.drop 64).take 32)) (beNat ((b.drop 96).take 32)) (sha256 (g.take (ingSig g)))
  then none else some errSignature

/-- Step 6: the floor, and the full ingot that a partial one applies to. -/
def State.versionCheck (s : State) (part : Bool) (g : List Byte) : Option IngErr :=
  if s.wd.otp.floor ≤ ingVer g ∧ (part = false ∨ ingBase g = (s.reg FAB_INGOT).toNat) then none else some errVersion

/-! ### Sections (R163 to R170) -/

/-- The section of a TYPE that stands at most once. -/
def sectOf (g : List Byte) (t : Nat) : Option Sect := (sects g).find? (fun x => x.type = t)

/-- Its bytes; none if it is not there. -/
def sectBytes (g : List Byte) (t : Nat) : List Byte := ((sectOf g t).map (fun x => x.bytes g)).getD []

/-- The sections of a TYPE. -/
def sectsOf (g : List Byte) (t : Nat) : List Sect := (sects g).filter (fun x => x.type = t)

/-- POLICY (R163): CODE_BLK, REG_ENTRIES, CAPT_BLK, RATE, RETAIN. -/
def polCode (b : List Byte) : Nat := u16 b 0
def polEntries (b : List Byte) : Nat := u16 b 2
def polCapt (b : List Byte) : Nat := u8 b 4
def polRate (b : List Byte) : Nat := u8 b 5
def polRetain (b : List Byte) : Nat := u16 b 6

def policyOk (b : List Byte) : Bool :=
  decide (b.length = 64 ∧ 1 ≤ polCode b ∧ polEntries b ≤ 8192 ∧ polCapt b ≤ 64 ∧ polRate b < 16) && zeros b 8 63

/-- TILE (R164): the entry of lane n, and of filter tile i. -/
def laneEntry (b : List Byte) (n : Nat) : Nat := u32 b (4 * n)
def filtEntry (b : List Byte) (i : Nat) : Nat := u32 b (1024 + 4 * i)

/-- A lane entry: BOUND = 0 leaves every other bit 0. Bits [29:24] and [7:0] are reserved in LN_CFG; that an entry with one of them set
is refused with SECTION, as one of a filter entry is, is a DESIGN CHOICE (log 43). -/
def laneEntryOk (e : Nat) : Bool := if bit e 31 then decide (e % 256 = 0 ∧ bits e 29 24 = 0) else decide (e = 0)

def filtEntryOk (e : Nat) : Bool :=
  decide (filtMode e ≤ 1 ∧ e % 65536 = 0) &&
    (!filtOn e || decide (1 ≤ filtTaps e ∧ filtTaps e ≤ (if filtMode e = 0 then 256 else 16) ∧ 1 ≤ filtDecim e))

/-- Multiplies of one output: taps, or 5 for each section (R157); they are also the entries of its COEF section (R166). -/
def filtWork (e : Nat) : Nat := if filtMode e = 0 then filtTaps e else 5 * filtTaps e

def tileOk (b : List Byte) : Bool :=
  decide (b.length = 1216) && (List.range 256).all (fun n => laneEntryOk (laneEntry b n)) &&
    (List.range 48).all (fun i => filtEntryOk (filtEntry b i))

/-- ROUTE (R165): the pairs of SRC and DST. -/
def routeList (b : List Byte) : List (Nat × Nat) := (pieces 4 b).map (fun e => (u16 e 0, u16 e 2))

/-- COEF (R166): the coefficients. -/
def coefList (b : List Byte) : List (BitVec 24) := (pieces 4 b).map (fun e => BitVec.ofNat 24 (u32 e 0))

/-- The entries fit the tile, and their top bytes are 0. -/
def coefOk (tiles : Nat → Nat) (x : Sect) (b : List Byte) : Bool :=
  let n := if x.inst ≤ 3 then 768 else (let e := tiles (x.inst - 16); if filtOn e then filtWork e else 0)
  decide (b.length = 4 * n) && (pieces 4 b).all (fun e => decide (u8 e 3 = 0))

/-- CODE (R167): its header and image. -/
def codeOfs (b : List Byte) : Nat := u32 b 0
def codeEntry (b : List Byte) : Nat := u32 b 4
def codeRun (b : List Byte) : Nat := u32 b 8
def codePriv (b : List Byte) : Nat := u8 b 12
def codeImage (b : List Byte) : List Byte := b.drop 16

/-- The rules of one CODE section, given those before it. -/
def codeOk (size : Nat) (before : List (List Byte)) (b : List Byte) : Bool :=
  let n := b.length - 16
  decide (16 ≤ b.length ∧ codeOfs b % 32 = 0 ∧ codeOfs b + n ≤ size ∧ codePriv b ≤ 1) && zeros b 13 15 &&
    (codeRun b = 0 || decide (codeEntry b % 4 = 0 ∧ codeEntry b < n)) &&
    before.all (fun c => decide (codeOfs c + (c.length - 16) ≤ codeOfs b ∨ codeOfs b + n ≤ codeOfs c) &&
      decide (codeRun c &&& codeRun b = 0))

def badCode (g : List Byte) (size : Nat) (before : List (List Byte)) (l : List Sect) : Option Nat :=
  match l with
  | [] => none
  | x :: t => if codeOk size before (x.bytes g) then badCode g size (x.bytes g :: before) t else some x.idx

/-- QUEUE (R168): the entries, and one entry's rules. -/
def queueEntries (b : List Byte) : List (List Byte) := pieces 16 b

def queueEntryOk (e : List Byte) : Bool :=
  decide (u16 e 0 < 1024 ∧ u8 e 2 % 8 = 0 ∧ u8 e 3 < 32) && zeros e 10 15

/-- No number stands twice in a list. -/
def distinct (l : List Nat) : Bool :=
  match l with
  | [] => true
  | a :: t => !t.contains a && distinct t

def queueOk (b : List Byte) : Bool :=
  decide (b.length % 16 = 0) && (queueEntries b).all queueEntryOk && distinct ((queueEntries b).map (fun e => u16 e 0))

/-- REGDEF (R169): ADDR, VALUE and MASK of each entry. -/
def regdefList (b : List Byte) : List (Nat × Nat × Nat) := (pieces 12 b).map (fun e => (u32 e 0, u32 e 4, u32 e 8))

/-- Bits of a register that an ingot may write: RW, RWF, W1C, W1S and RC fields. -/
def castable (d : RegDesc) : Nat :=
  d.fields.foldl (fun m f => match f.acc with
    | .rw | .rwf | .w1c | .w1s | .rc => putBits m f.hi f.lo (2 ^ (f.hi + 1 - f.lo) - 1)
    | .ro | .wo | .rwp => m) 0

/-- ADDR is a register of the SYS to AL blocks or of the LN block, not of WD, and MASK covers castable bits alone. -/
def regdefEntryOk (e : Nat × Nat × Nat) : Bool :=
  match regFind e.1 with
  | none => false
  | some (d, _) => decide (e.1 / 65536 ≠ 7 ∧ e.2.2 &&& castable d = e.2.2)

/-- The value that an entry gives a register which holds `old`. -/
def regdefValue (old : Word) (e : Nat × Nat × Nat) : Word :=
  (old &&& ~~~BitVec.ofNat 32 e.2.2) ||| (BitVec.ofNat 32 e.2.1 &&& BitVec.ofNat 32 e.2.2)

/-- Every entry keeps its rules, LP_JOIN among them: entries apply in order. -/
def State.regdefOk (s : State) (l : List (Nat × Nat × Nat)) : Bool :=
  match l with
  | [] => true
  | e :: t =>
    let v := regdefValue (s.reg e.1) e
    let join := decide (e.1 / 4096 ∈ [0x80, 0x81, 0x82, 0x83]) && decide (e.1 % 4096 = 0x90)
    regdefEntryOk e && (!join || joinValid v.toNat) && State.regdefOk (s.setReg e.1 v) t

/-- ISLAND (R170): BUFQ is a packet queue of byte format that the ingot casts. -/
def islandOk (g b : List Byte) : Bool :=
  decide (b.length = 16) && zeros b 2 15 &&
    (queueEntries (sectBytes g 6)).any (fun e => decide (u16 e 0 = u16 b 0 ∧ bits (u8 e 2) 7 5 = 1))

/-! ### Scope of a partial ingot (R175) -/

/-- MT and FILT endpoints. -/
def mtOrFilt (e : Nat) : Bool := [1, 2, 3, 4, 8].contains (epClass e)

/-- ADDR lies in the scope. -/
def addrInScope (sc a : Nat) : Bool :=
  if 1 ≤ sc ∧ sc ≤ 4 then
    decide ((0x80000 + (sc - 1) * 4096 ≤ a ∧ a < 0x80000 + sc * 4096) ∨
      (0x100000 + (sc - 1) * 4096 ≤ a ∧ a < 0x100000 + sc * 4096))
  else if sc = 5 then decide (a / 65536 = 9) else decide (sc = 6 ∧ a / 65536 = 10)

/-- Lane n, and the filter tiles, belong to the scope. -/
def laneInScope (sc n : Nat) : Bool := decide (1 ≤ sc ∧ sc ≤ 4 ∧ n / 64 = sc - 1)

/-- A section lies wholly in the scope of a partial ingot. -/
def scopeOk (g : List Byte) (x : Sect) : Bool :=
  let sc := ingScope g
  let b := x.bytes g
  match x.type with
  | 2 => decide (sc ≤ 5) && (List.range 256).all (fun n => laneInScope sc n || decide (laneEntry b n = 0)) &&
      (decide (sc = 5) || (List.range 48).all (fun i => decide (filtEntry b i = 0)))
  | 3 => decide (sc = 5) && (routeList b).all (fun r => mtOrFilt r.1 && mtOrFilt r.2)
  | 4 => if sc = 5 then decide (16 ≤ x.inst) else decide (1 ≤ sc ∧ sc ≤ 4 ∧ x.inst = sc - 1)
  | 5 => decide (codeRun b &&& ingCores g = codeRun b)
  | 7 => (regdefList b).all (fun e => addrInScope sc e.1)
  | _ => true

/-! ### Step 7 (R172) -/

/-- One section's layout. -/
def State.layoutOk (s : State) (g : List Byte) (tiles : Nat → Nat) (x : Sect) : Bool :=
  let b := x.bytes g
  match x.type with
  | 1 => policyOk b
  | 2 => tileOk b
  | 3 => decide (b.length % 4 = 0)
  | 4 => coefOk tiles x b
  | 5 => true
  | 6 => queueOk b
  | 7 => decide (b.length % 12 = 0) && s.regdefOk (regdefList b)
  | 8 => islandOk g b
  | _ => false

/-- The TILE entry of filter tile i that the cast would leave. -/
def State.tileAfter (s : State) (part : Bool) (g : List Byte) (i : Nat) : Nat :=
  let b := sectBytes g 2
  if part ∧ (b = [] ∨ ingScope g ≠ 5) then
    ((s.fab.filters.find? (fun e => e.1 = i)).map (fun e => e.2.entry.toNat)).getD 0
  else filtEntry b i

/-- Step 7: the layout of every section, in table order, and the scope. -/
def State.layoutCheck (s : State) (part : Bool) (g : List Byte) : Option IngErr :=
  let tiles := s.tileAfter part g
  let size := 65536 * (if part then s.fab.codeBlk else polCode (sectBytes g 1))
  match (sects g).find? (fun x => !s.layoutOk g tiles x) with
  | some x => some (9, some x.idx)
  | none =>
    match badCode g size [] (sectsOf g 5) with
    | some i => some (9, some i)
    | none =>
      if part then ((sects g).find? (fun x => !scopeOk g x)).map (fun x => (14, some x.idx)) else none

end Sys2Proof.Machine
end

