-- ==== Sys2Proof/Machine/Load.lean ====
section
/-! DEFINITION. Fetching an ingot (R171, R177): START, the push path, staging, and what a failure leads to. -/

namespace Sys2Proof.Machine

/-! ### A load begins and fails -/

/-- FAB_STAT.STATE. -/
def State.fabState (s : State) : Nat := s.get FAB_STAT.STATE

/-- A load of `src` begins: FETCH, nothing fetched yet. -/
def State.beginLoad (s : State) (src : Nat) (part : Bool) (chain : Nat) : State :=
  let s1 := ((s.put FAB_STAT.STATE 1).put FAB_STAT.ERR 0).put FAB_STAT.ERR_SECT 0
  { s1 with fab := { s1.fab with
      push := [], ingot := [], src := src, partialLoad := part, chain := chain, due := none, stage := [],
      stageLimit := 256 * s1.freeCells } }

/-- The duration of a load that no operand gives: an open value. -/
def State.openTime (s : State) : State := let r := s.free (2 ^ 32); r.2.put FAB_TIME.US r.1

/-- A load ends with an error: it is reported, and Assay goes on as R171 states. -/
def State.loadFail (s : State) (e : IngErr) : State :=
  let chain := s.fab.chain
  let r := match e.2 with
    | some n => (n, s)
    | none => s.free 256
  let s1 := ((r.2.put FAB_STAT.ERR e.1).put FAB_STAT.ERR_SECT r.1).put FAB_STAT.STATE 0
  let s2 := s1.unstage
  let s3 := ({ s2 with fab := { s2.fab with push := [], ingot := [], partialLoad := false, chain := 0 } }).setEvt FAB_EVT.LOAD_FAIL
  if s3.mode ≠ 2 then s3
  else if chain = 1 then s3.beginLoad 0 false 2
  else if chain = 2 then s3.beginLoad 1 false 3
  else if chain = 3 then s3.setMode 2 4 else s3

/-- The same, with an open duration. -/
def State.loadFailNow (s : State) (e : IngErr) : State := (s.openTime).loadFail e

/-! ### START (R171, R177) -/

/-- A START is ignored: a load runs or is due, or the mode takes none of this kind. -/
def State.startRefused (s : State) (part : Bool) : Bool :=
  decide (s.fabState ≠ 0) || s.fab.due.isSome ||
    (if part then !s.running else !(s.running || decide (s.mode = 2)))

/-- A write of FAB_LOAD. -/
def State.writeFabLoad (s : State) (value : Word) : State :=
  let s1 := s.merge FAB_LOAD 0x70000000 value
  let src := min 2 (s1.get FAB_LOAD.SRC)
  let part := s1.flag FAB_LOAD.KIND
  if ¬ bit value.toNat 31 then s1
  else if s1.startRefused part then s1.setEvt FAB_EVT.REFUSED
  else if part then s1.beginLoad src true 0
  else if s1.running then s1.backToAssay 15 (src, 1)
  else s1.beginLoad src false 0

def execLoadStart (who : Accessor) (value : Word) (s : State) : Result :=
  .next (s.enter who FAB_LOAD (fun t => t.writeFabLoad value))

/-! ### The push path and staging -/

/-- Stage of a full ingot (R171). -/
def stageBase : Nat := 0x01C00000

/-- Take `n` cells to stage a partial ingot; none if the pool runs out. -/
def State.takeStage (s : State) (n : Nat) : Bool × State :=
  match n with
  | 0 => (true, s)
  | n + 1 =>
    match s.takeCell with
    | (none, s1, l) => (false, s1.tellPool l)
    | (some c, s1, l) => State.takeStage ({ s1 with fab := { s1.fab with stage := s1.fab.stage ++ [c] } }.tellPool l) n

/-- Write the bytes `l`, which begin at ingot byte `i`, where the ingot is staged. -/
def State.stageBytes (s : State) (i : Nat) (l : List Byte) : State :=
  if s.fab.partialLoad then
    -- Each piece lies in one cell: pushes are 4 bytes on 4-byte boundaries, and the rest is cut by cells.
    if i % 256 + l.length ≤ 256 then s.setSpan (cellAddr (nth 0 s.fab.stage (i / 256)) 0 + i % 256) l
    else foldState ((pieces 256 l).zipIdx) (fun p t => t.setSpan (cellAddr (nth 0 s.fab.stage (p.2 + i / 256)) 0) p.1) s
  else s.setSpan (stageBase + i) l

/-- The header and the table, once they have been fetched (R172 steps 1 to 3); none if nothing is wrong so far. -/
def State.earlyCheck (s : State) (g : List Byte) : Option IngErr :=
  let part := s.fab.partialLoad
  if g.length < 64 then none
  else
    match headerCheck part g with
    | some e => some e
    | none =>
      if part ∧ s.fab.stageLimit < ingLen g then some errStage
      else if g.length < ingHead g then none else tableCheck part s.strapLead g

/-- FAB_STAT.SCOPE shows the header's SCOPE. -/
def State.showScope (s : State) (g : List Byte) : State := if 64 ≤ g.length then s.put FAB_STAT.SCOPE (ingScope g) else s

/-- Once the header of a partial ingot has passed, its cells are taken and its first bytes staged. -/
def State.openStage (s : State) (g : List Byte) : Option IngErr × State :=
  if s.fab.partialLoad ∧ s.fab.stage = [] then
    let r := s.takeStage ((ingLen g + 255) / 256)
    if r.1 then (none, r.2.stageBytes 0 g) else (some errStage, r.2)
  else (none, s)

/-- A push load takes 4 bytes. -/
def State.pushWord (s : State) (value : Word) : State :=
  let old := s.fab.push
  let l := leBytes 4 value.toNat
  let g := old ++ l
  let s1 := ({ s with fab := { s.fab with push := g } }).showScope g
  match s1.earlyCheck g with
  | some e => s1.loadFailNow e
  | none =>
    let r := if ¬ s1.fab.partialLoad ∨ 64 < g.length then (none, s1.stageBytes old.length l)
      else if g.length = 64 then s1.openStage g else (none, s1)
    match r.1 with
    | some e => r.2.loadFailNow e
    | none => if 64 ≤ g.length ∧ g.length = ingLen g then r.2.put FAB_STAT.STATE 2 else r.2

/-- A write of FAB_PUSH: discarded unless a push load is in FETCH; all bytes fetched, the load is in VERIFY. -/
def State.writeFabPush (s : State) (value : Word) : State :=
  if s.fabState = 1 ∧ s.fab.src = 2 then s.pushWord value else s

def execFabPushWrite (value : Word) (s : State) : Result :=
  .next (s.enter .host FAB_PUSH (fun t => t.writeFabPush value))

def execPushTimeout (s : State) : Result :=
  .next (if s.fabState = 1 ∧ s.fab.src = 2 ∧ s.fab.push ≠ [] then s.loadFailNow errAborted else s)

end Sys2Proof.Machine
end

