-- ==== Sys2Proof/Machine/SeqCtl.lean ====
section
/-! DEFINITION. Control of the sequencer cores: SEQ_CTL, SEQ_LANE and SEQ_TIMER, events, exceptions and interrupts (09). -/

namespace Sys2Proof.Machine

/-! ### A core's registers and state -/

/-- STATE of core k: 0 RUN, 1 WAIT, 2 STALL_Q, 3 STALL_S, 4 CALL, 5 HALT_EXC, 6 HALT_HOST, 7 STOPPED. -/
def State.coreState (s : State) (k : Nat) : Nat := s.get (SEQ_STAT.STATE k)

/-- PC of core k. -/
def State.pc (s : State) (k : Nat) : Nat := (s.reg (SEQ_PC k)).toNat

/-- PC becomes `a`; its two low bits do not exist. -/
def State.setPc (s : State) (k a : Nat) : State := s.setReg (SEQ_PC k) (BitVec.ofNat 32 (a - a % 4))

/-- Register i of core k; s0 reads as 0 (R179). -/
def State.sr (s : State) (k : Nat) (i : Sreg) : Word := if i.val = 0 then 0 else mget wordDef (s.core k).s i.val

/-- Write register i of core k; a write of s0 is discarded (R179). -/
def State.setSr (s : State) (k : Nat) (i : Sreg) (v : Word) : State :=
  if i.val = 0 then s else s.modCore k (fun c => { c with s := mset wordDef c.s i.val v })

/-- Core k runs at privilege L (R190). -/
def State.lCore (s : State) (k : Nat) : Bool := s.flag (SEQ_CFG.PRIV k)

/-- The core is halted: HALT_EXC or HALT_HOST. -/
def State.coreHalted (s : State) (k : Nat) : Bool := decide (s.coreState k = 5 ∨ s.coreState k = 6)

/-! ### Exceptions (R192, R193) -/

/-- The core halts on an exception: an event names it, and CALL is latched in the core that SUPER names (R187, R193). -/
def State.haltExc (s : State) (k : Nat) : State :=
  let s1 := (s.put (SEQ_STAT.STATE k) 5).modCore k (fun c => { c with stall := .none })
  let s2 := s1.coreEvent (s1.get (SEQ_CFG.SUPER k)) 7
  s2.event 7 0 k (s2.get (SEQ_STAT.CAUSE k)) (leBytes 4 (s2.reg (SEQ_PC k)).toNat ++ leBytes 4 (s2.reg (SEQ_EVAL k)).toNat)

/-- Core k takes an exception at its PC, which points to the faulting instruction. -/
def State.raise (s : State) (k cause value : Nat) : State :=
  let s1 := s.setReg (SEQ_EVAL k) (BitVec.ofNat 32 value)
  if s1.lCore k then (s1.put (SEQ_STAT.CAUSE k) cause).haltExc k
  else if s1.flag (SEQ_STAT.INEXC k) then (s1.put (SEQ_STAT.CAUSE k) 11).haltExc k
  else
    let s2 := ((s1.setReg (SEQ_EPC k) (s1.reg (SEQ_PC k))).put (SEQ_STAT.CAUSE k) cause).putFlag (SEQ_STAT.INEXC k) true
    if s2.reg (SEQ_VEC k) = 0 then s2.haltExc k
    else ((s2.setPc k (s2.reg (SEQ_VEC k)).toNat).put (SEQ_STAT.STATE k) 0).modCore k (fun c => { c with stall := .none })

/-- A counter-overflow interrupt waits that core k can take (R194): an S core that runs, waits or is stalled, not in a handler. -/
def State.irqDue (s : State) (k : Nat) : Bool :=
  (s.core k).irq && s.seqMode && !s.lCore k && s.flag (SEQ_CFG.INT_PM k) && !s.flag (SEQ_STAT.INEXC k) && decide (s.coreState k ≤ 3)

/-- Its entry. -/
def State.takeIrq (s : State) (k : Nat) : State :=
  if s.irqDue k then (s.modCore k (fun c => { c with irq := false })).raise k 10 0 else s

/-- Before an instruction: an interrupt for which 6 instructions have retired is entered first (R194). -/
def State.irqFirst (s : State) (k : Nat) : State := if 6 ≤ (s.core k).since then s.takeIrq k else s

/-- After an instruction: one that has retired counts, while an interrupt waits. -/
def State.irqCount (s : State) (k : Nat) : State :=
  if s.irqDue k && decide (s.coreState k = 0) then s.modCore k (fun c => { c with since := c.since + 1 }) else s

def execInterruptEntry (k : Core) (s : State) : Result := .next (s.takeIrq k.val)

/-! ### HALT, RESUME, RESTART, KICK (R195) -/

/-- HALT: the core halts before the instruction at its PC, which it runs again from its start on RESUME. -/
def State.halt (s : State) (k : Nat) : State :=
  if s.coreState k ≤ 4 then (s.put (SEQ_STAT.STATE k) 6).modCore k (fun c => { c with stall := .none }) else s

/-- RESUME: a halted core goes on; a core in CALL takes its results and goes on after the SUPC (R191). -/
def State.resume (s : State) (k : Nat) : State :=
  if s.coreHalted k then s.put (SEQ_STAT.STATE k) 0
  else if s.coreState k = 4 then
    let s1 := (s.setSr k 1 (s.reg (SEQ_RET k 0))).setSr k 2 (s.reg (SEQ_RET k 1))
    (s1.setPc k (s1.pc k + 4)).put (SEQ_STAT.STATE k) 0
  else s

/-- The state that RESTART and a cast leave: registers, events, exception and cache cleared, running at SEQ_PC. -/
def State.restartCore (s : State) (k : Nat) : State :=
  let s1 := s.modCore k (fun c => { c with s := [], a := [], cache := [], stall := .none, step := false })
  (((s1.put (SEQ_EV.PEND k) 0).putFlag (SEQ_STAT.INEXC k) false).put (SEQ_STAT.CAUSE k) 0).put (SEQ_STAT.STATE k) 0

/-- RESTART, only while halted. -/
def State.restart (s : State) (k : Nat) : State := if s.coreHalted k then s.restartCore k else s

/-- KICK latches its event. -/
def State.kick (s : State) (k : Nat) : State := s.coreEvent k 5

/-- A write of SEQ_CTL: with two of HALT, RESUME, RESTART and STEP it is discarded. A STEP is marked, and runs later. -/
def State.writeSeqCtl (s : State) (k : Nat) (value : Word) : State :=
  let v := value.toNat
  if 1 < b2n (bit v 31) + b2n (bit v 30) + b2n (bit v 29) + b2n (bit v 27) then s
  else
    let s1 := if bit v 28 then s.kick k else s
    if bit v 31 then s1.halt k
    else if bit v 30 then s1.resume k
    else if bit v 29 then s1.restart k
    else if bit v 27 ∧ s1.coreHalted k then s1.modCore k (fun c => { c with step := true }) else s1

def execHalt (who : Accessor) (k : Core) (s : State) : Result := .next (s.enter who (SEQ_CTL k.val) (fun t => t.writeSeqCtl k.val 0x80000000#32))
def execResume (who : Accessor) (k : Core) (s : State) : Result := .next (s.enter who (SEQ_CTL k.val) (fun t => t.writeSeqCtl k.val 0x40000000#32))
def execRestart (who : Accessor) (k : Core) (s : State) : Result := .next (s.enter who (SEQ_CTL k.val) (fun t => t.writeSeqCtl k.val 0x20000000#32))
def execKick (who : Accessor) (k : Core) (s : State) : Result := .next (s.enter who (SEQ_CTL k.val) (fun t => t.writeSeqCtl k.val 0x10000000#32))

/-! ### Lanes and timer (R187, R196) -/

/-- Lanes attached to core k: first and count. -/
def State.attached (s : State) (k : Nat) : Nat × Nat := (s.get (SEQ_LANE.FIRST k), clampNat 32 (s.get (SEQ_LANE.COUNT k)))

/-- A write of SEQ_LANE. -/
def State.writeSeqLane (s : State) (who : Accessor) (k : Nat) (value : Word) : State :=
  let first := bits value.toNat 7 0
  let n := clampNat 32 (bits value.toNat 21 16)
  let clash := (List.range 32).any (fun j =>
    let a := s.attached j
    decide (j ≠ k ∧ 0 < n ∧ 0 < a.2 ∧ first < a.1 + a.2 ∧ a.1 < first + n))
  if 256 < first + n ∨ clash then s.refuse who (SEQ_LANE k) stNotPermitted
  else (s.merge (SEQ_LANE k) 0x3F00FF value).put (SEQ_LPEND.LANES k) 0

def execSeqLaneWrite (who : Accessor) (k : Core) (value : Word) (s : State) : Result :=
  .next (s.enter who (SEQ_LANE k.val) (fun t => t.writeSeqLane who k.val value))

/-- A write of SEQ_TIMER loads COUNT. -/
def State.writeSeqTimer (s : State) (k : Nat) (value : Word) : State :=
  (s.merge (SEQ_TIMER k) 0x80FFFFFF value).modCore k (fun c => { c with reload := bits value.toNat 23 0 })

/-- COUNT of core k reaches 0: TIMER is latched, and a periodic timer reloads. -/
def State.timerEnd (s : State) (k : Nat) : State :=
  let s1 := s.coreEvent k 4
  s1.put (SEQ_TIMER.COUNT k) (if s1.flag (SEQ_TIMER.PERIODIC k) then (s1.core k).reload else 0)

def execSeqTimerExpiry (k : Core) (s : State) : Result :=
  .next (if s.seqMode ∧ s.get (SEQ_TIMER.COUNT k.val) ≠ 0 then s.timerEnd k.val else s)

/-- One microsecond of every running timer. -/
def State.timersTick (s : State) : State :=
  foldState (s.listedCores 0x20) (fun k t =>
    let c := t.get (SEQ_TIMER.COUNT k)
    if c = 0 then t else if c = 1 then t.timerEnd k else t.put (SEQ_TIMER.COUNT k) (c - 1)) s

/-- A read of SEQ_LPEND clears it; bits at or above COUNT read 0. -/
def State.readLpend (s : State) (k : Nat) : Word × State :=
  (BitVec.ofNat 32 (s.get (SEQ_LPEND.LANES k) % 2 ^ (s.attached k).2), s.put (SEQ_LPEND.LANES k) 0)

def execSeqLpendRead (who : Accessor) (k : Core) (s : State) : Result :=
  .next (if s.reads who then let r := s.readLpend k.val; r.2.answer who r.1 else s)

end Sys2Proof.Machine
end

