-- ==== Sys2Proof/Machine/Power.lean ====
section
/-! DEFINITION. Power, clocks and modes (15), the health tests and mode commands of the warden (R293, R294), and the sniffer (R239). -/

namespace Sys2Proof.Machine

/-! ### Resets and supplies (R298, R299, R305) -/

/-- The straps are latched (R350, R355). -/
def State.latchStraps (s : State) (role testEn : Bool) : State := (s.putFlag SYS_STRAP.ALLOY_ROLE role).putFlag SYS_STRAP.TEST_EN testEn

/-- VIRON power-on: every state but the OTP is reset. -/
def execVironPowerOn (role testEn : Bool) (s : State) : Result :=
  .next ({ State.reset with
    pending := s.pending, freeCtr := s.freeCtr, wd := { State.reset.wd with otp := s.wd.otp } }.latchStraps role testEn)

/-- RST_N low: Dormant, held. Retained banks, iron RAM, key slots, the counters and the control levels are kept. -/
def State.resetPin (s : State) : State :=
  let old := s.mode
  let s1 := (s.loseBanks).resetQuick false
  let s2 := { s1 with
    pool := {}, radio := { s1.radio with dwell := [] },
    wd := { s1.wd with presArmed := false, presLen := 0 },
    iron := { rtc := s1.iron.rtc, frac := s1.iron.frac, viron := s1.iron.viron, held := true } }
  ((s2.putFlag WD_STAT.PRES_OPEN false).putFlag WD_STAT.PRES_LVL false |>.put SYS_MODE.PREV old).put SYS_MODE.CAUSE 1

def execRstNAssert (s : State) : Result := .next (if s.iron.viron then s.resetPin else s)

def execRstNRelease (role testEn : Bool) (s : State) : Result :=
  .next (
    if ¬ s.iron.viron ∨ ¬ s.iron.held then s
    else ({ s with iron := { s.iron with held := false } }.latchStraps role testEn).tryBoot)

/-- Every requested supply is in range: a device that powers up enters Assay (R308). -/
def execSupplyInRange (s : State) : Result :=
  .next (
    let s1 := s.put PWR_STAT.BOD 0
    match s1.iron.boot with
    | none => s1
    | some c => if s1.iron.held then s1 else s1.enterAssay c)

/-- A brown-out (R298): outstanding transactions are lost, then steps 3 to 5 of R307. -/
def State.brownout (s : State) (supply : Nat) : State :=
  let outage := decide (s.mode = 6)
  let was := s.radioOn
  let s1 := { s with hp := { s.hp with outst := [] }, link := { s.link with sends := [] } }
  let s2 := ((s1.setMode 0 14).followRadio was).dropPower outage
  (s2.putBit PWR_STAT.BOD supply true).putFlag PWR_EVT.BROWNOUT true

def execBrownout (supply : SupplyN) (s : State) : Result := .next (if s.awake then s.brownout supply.val else s)

/-! ### Clocks (R300 to R302) -/

def execX32Proven (s : State) : Result := .next (if s.iron.viron then s.putFlag CLK_STAT.X32_OK true else s)

def execX32Fail (s : State) : Result :=
  .next (
    if ¬ s.iron.viron ∨ s.flag CLK_STAT.X32_OK then s
    else (s.putFlag CLK_STAT.X32_FAIL true).ironEvt PWR_EVT.X32_FAIL)

def execPllLock (s : State) : Result :=
  .next (
    if ¬ s.awake then s
    else ((s.putFlag CLK_STAT.XREF_ON true).putFlag CLK_STAT.PLL_LOCK true).putFlag CLK_STAT.RING false)

/-- XREF and the PLL are held running (R302). -/
def State.pllHeld (s : State) : Bool :=
  (List.range 4).any (fun p => s.flag (LP_CFG.ENABLE p)) || s.metering || (List.range 6).any (fun u => s.flag (UA_CFG.ENABLE u)) ||
    decide (s.get RF_STAT.STATE = 2 ∨ s.get RF_STAT.STATE = 3) || s.flag CLK_CFG.KEEP_XREF || s.flag CLK_CFG.KEEP_PLL

/-- Something has work to do, and so raises a clock request (R302): a core that runs, the warden, a load, a command of the mailbox. -/
def State.asksClock (s : State) : Bool :=
  (List.range 32).any (fun k => s.seqMode && decide (s.get (SEQ_STAT.STATE k) = 0)) ||
    !s.wd.jobs.isEmpty || s.flag WD_MBX_STAT.BUSY || decide (s.fabState ≠ 0)

/-- No clock request for IDLE us: the clocks stop as deep as R302 lets them. They start again on the ring oscillator. -/
def execClockIdleStop (s : State) : Result :=
  .next (
    if ¬ s.awake ∨ s.pllHeld ∨ s.asksClock then s
    else
      let s1 := (s.putFlag CLK_STAT.PLL_LOCK false).putFlag CLK_STAT.RING true
      if (s.listedCores 0x20).any (fun k => decide (s.get (SEQ_TIMER.COUNT k) ≠ 0)) then s1 else s1.putFlag CLK_STAT.XREF_ON false)

/-! ### Requests (R306) -/

/-- The junction is at or above LIMIT (R316). -/
def State.hot (s : State) : Bool := decide ((s.get PWR_TEMP.LIMIT : Int) ≤ s.getInt PWR_TEMP.TEMP)

/-- R305 has a REQUEST row from mode `m` to `t`. -/
def requestRow (m t : Nat) : Bool :=
  match m with
  | 4 => decide (t = 5 ∨ t ≤ 1)
  | 5 => decide (t = 4 ∨ t ≤ 1)
  | 6 => decide (t ≤ 1)
  | 9 => decide (t = 2)
  | _ => false

/-- A request for `t`. One in the iron-clock cycle of a loss of mains is discarded. -/
def State.requestMode (s : State) (who : Accessor) (t : Nat) : State :=
  if s.mode = 6 ∧ s.iron.lossAt = some s.iron.rtc then s.refuse who SYS_CTL stNotPermitted
  else if t = s.mode then s
  else if ¬ requestRow s.mode t ∨ (t = 5 ∧ s.hot) then s.refuse who SYS_CTL stNotPermitted
  else if t ≤ 1 then s.sleep t 6
  else if t = 2 then s.backToAssay 6 (0, 2)
  else s.enterMode t 6

/-- A write of SYS_CTL. -/
def State.writeSysCtl (s : State) (who : Accessor) (value : Word) : State :=
  let s1 := s.merge SYS_CTL 0x40000000 value
  let s2 := if s1.mode = 7 ∨ s1.mode = 8 then s1.applyRate else s1
  if bit value.toNat 31 then s2.requestMode who (bits value.toNat 3 0) else s2

def execModeRequest (who : Accessor) (value : Word) (s : State) : Result :=
  .next (s.enter who SYS_CTL (fun t => t.writeSysCtl who (value ||| 0x80000000#32)))

def execFullSelect (who : Accessor) (value : Word) (s : State) : Result :=
  .next (s.enter who SYS_CTL (fun t => t.writeSysCtl who (value &&& 0x7FFFFFFF#32)))

/-- The junction temperature, saturated to the 8 bits of TEMP. -/
def execTempMeasure (temp : Int) (s : State) : Result :=
  .next (
    if ¬ s.awake then s
    else
      let s1 := s.putInt PWR_TEMP.TEMP (clampInt (-128) 127 temp)
      if ¬ s1.hot then s1
      else if s1.mode = 5 then ((s1.putFlag SYS_CTL.FULL false).enterMode 4 7).setEvt PWR_EVT.THERMAL
      else if (s1.mode = 7 ∨ s1.mode = 8) ∧ s1.flag SYS_CTL.FULL then
        ((s1.putFlag SYS_CTL.FULL false).applyRate).setEvt PWR_EVT.THERMAL
      else s1)

/-! ### Outage (R305, R311, R312) -/

/-- What a loss of mains does to the blocks, around the change of mode `f`. -/
def State.outageActs (s : State) (f : State → State) : State := ((f (s.endLine stMainsLost)).cutRadio).lastGasp

/-- Mains is declared lost. -/
def State.mainsLost (s : State) : State :=
  let s1 := s.putFlag PWR_STAT.MAINS false
  let s2 := { s1 with iron := { s1.iron with lost := true, run := 0, halves := [], lastEdge := none } }
  let s3 := s2.ironEvt PWR_EVT.MAINS_LOST
  if [4, 5, 7, 8].contains s3.mode then s3.outageActs (fun t =>
    ({ t with fab := { t.fab with outNow := true }, iron := { t.iron with lossAt := some t.iron.rtc } }).enterMode 6 8)
  else if s3.mode = 9 then
    s3.outageActs (fun t => (({ t with iron := { t.iron with maintOut := true } }).applyRate).followPorts)
  else s3

/-- At iron-clock cycle `t` the time since the last edge has reached H + LOSS_MARGIN (R311). -/
def State.lossDue (s : State) (t : Nat) : Bool :=
  s.iron.lastEdge.all (fun e => decide (e + s.get PWR_STAT.HALF + s.get PWR_MAINS.LOSS_MARGIN ≤ t))

def execMainsLoss (t : Nat) (s : State) : Result := .next (if s.flag PWR_STAT.MAINS ∧ s.lossDue t then s.mainsLost else s)

/-- OUT_SLEEP names Sentinel or Dormant: the mode it names. -/
def State.outSleep (s : State) : Option Nat :=
  if s.get PWR_CFG.OUT_SLEEP = 1 then some 1 else if s.get PWR_CFG.OUT_SLEEP = 2 then some 0 else none

/-- The TIMEOUT row. -/
def State.outageEnd (s : State) : State :=
  match s.outSleep with
  | none => s
  | some m => if s.mode = 6 then s.sleep m 10 else s

/-- The time in Outage has reached OUT_HOLD; 0 acts as 1 (R305). -/
def State.outDue (s : State) : Bool :=
  decide (max 1 (s.get PWR_CFG.OUT_HOLD) * 32768 ≤ (s.iron.rtc + 2 ^ 48 - s.iron.outSince) % 2 ^ 48)

def execOutageTimeout (s : State) : Result := .next (if s.outDue then s.outageEnd else s)

/-- A write of PWR_CFG: the TIMEOUT row is judged against the values it holds at each moment; BOOT_ANY holds for the next boot. -/
def State.writePwrCfg (s : State) (value : Word) : State :=
  let s1 := s.writePlain PWR_CFG value
  if s1.outDue then s1.outageEnd else s1

/-! ### The MAINS_SENSE monitor (R311, R314) -/

/-- A period in iron-clock cycles lies between 15.385 ms and 22.222 ms. -/
def senseRange (p : Nat) : Bool := decide (15385 * 32768 ≤ p * 1000000 ∧ p * 1000000 ≤ 22222 * 32768)

/-- The device leaves Outage for the mode that Forge would choose: the epoch is raised first where the line ports run there (R102). -/
def State.leaveOutage (s : State) (m cause : Nat) : State :=
  let s1 := if s.mode = 6 ∧ [4, 5, 7, 8, 9, 11].contains m then s.raiseEpoch else s
  let s2 := s1.enterMode m cause
  if m = 7 then s2.copyRegistry else s2

/-- Mains is declared restored (R314). -/
def State.restored (s : State) : State :=
  let s1 := ({ s with iron := { s.iron with lost := false } }).ironEvt PWR_EVT.MAINS_BACK
  if s1.mode = 6 then s1.leaveOutage s1.choice 9
  else if s1.mode = 9 ∧ s1.iron.maintOut then
    ((({ s1 with iron := { s1.iron with maintOut := false } }).raiseEpoch).applyRate).followPorts
  else s1.wake PWR_WAKE.MAINS

/-- The half-period that ends at `t`: H is the mean of the last eight (PWR_STAT.HALF). -/
def State.halfPeriod (s : State) (t : Nat) : State :=
  match s.iron.lastEdge with
  | none => { s with iron := { s.iron with lastEdge := some t } }
  | some e =>
    let l := ((t - e) :: s.iron.halves).take 8
    let h := s.divFree (l.sum : Nat) l.length
    ({ h.2 with iron := { h.2.iron with lastEdge := some t, halves := l } }).put PWR_STAT.HALF (clampNat 0xFFFF h.1.toNat)

/-- A rising edge at `t` of the monitor's run: presence and restoration. -/
def State.riseRun (s : State) (t : Nat) : State :=
  let ok := s.iron.lastRise.any (fun e => senseRange (t - e))
  let run := if ok && decide (0 < s.iron.run) then s.iron.run + 1 else 1
  let s1 := { s with iron := { s.iron with run := run, lastRise := some t } }
  let s2 := s1.putFlag PWR_STAT.MAINS (s1.flag PWR_STAT.MAINS || decide (max 1 (s1.get PWR_MAINS.PRESENT_CYC) ≤ run))
  if s2.iron.lost && s2.flag PWR_STAT.MAINS && decide (max 1 (s2.get PWR_MAINS.RESTORE_CYC) < run) then s2.restored else s2.tryBoot

/-- The iron mains cycle counter steps: the cores are told, and the balance windows follow it (R63, R125, R187). -/
def State.stepCycle (s : State) : State :=
  let s1 := s.setReg PWR_MCYC (s.reg PWR_MCYC + 1)
  (if s1.seqMode then s1.coresEvent 2 else s1).balanceStep

/-- An edge of MAINS_SENSE at iron-clock cycle `t`. The monitor and PWR_MCYC run in every mode (R11), RST_N low included. -/
def execMainsSenseEdge (rising : Bool) (t : Nat) (s : State) : Result :=
  .next (
    if ¬ s.iron.viron then s
    else
      let s1 := (if rising then ((s.lateEdge (t * 32000)).lateFeeders (t * 32000)).stepCycle else s).halfPeriod t
      if rising then s1.riseRun t else s1)

/-! ### Real-time counter (R317) -/

/-- The alarm matches. -/
def State.alarmHit (s : State) : State :=
  (({ s with iron := { s.iron with alarm := false } }).ironEvt PWR_EVT.ALARM).wake PWR_WAKE.ALARM

/-- The comparison is armed and the counter equals SECONDS. -/
def State.alarmNow (s : State) : Bool := s.iron.alarm && decide (bits s.iron.rtc 46 15 = (s.reg PWR_ALARM).toNat)

def execRtcAlarm (s : State) : Result := .next (if s.alarmNow then s.alarmHit else s)

/-- A write of PWR_ALARM arms the comparison, which holds from that cycle on. -/
def State.writeAlarm (s : State) (value : Word) : State :=
  let s1 := { (s.setReg PWR_ALARM value) with iron := { s.iron with alarm := true } }
  if s1.alarmNow then s1.alarmHit else s1

/-- A read of PWR_RTC_LO latches bits [47:32]. -/
def State.readRtc (s : State) : Word × State :=
  (BitVec.ofNat 32 s.iron.rtc, s.setReg PWR_RTC_HI (BitVec.ofNat 32 (s.iron.rtc / 2 ^ 32)))

def execRtcRead (who : Accessor) (s : State) : Result :=
  .next (if s.reads who then let r := s.readRtc; r.2.answer who r.1 else s)

/-! ### Presence (R273, R274) -/

/-- A qualifying assertion while the logic is armed opens a window, or restarts one that is open; it may wake the device. -/
def execPresenceAssert (s : State) : Result :=
  .next (
    let s1 := s.putFlag WD_STAT.PRES_LVL true
    if s1.wd.presArmed then (s1.openWindow).wake PWR_WAKE.PRES else s1)

/-! ### Health tests (R293, R294) -/

/-- Jobs in an engine stop, and will complete NOT_PERMITTED (R294). -/
def State.stopJobs (s : State) : State :=
  { s with wd := { s.wd with jobs := s.wd.jobs.map (fun j =>
      if j.entered && j.verdict.isNone then { j with verdict := some (BitVec.ofNat 8 stNotPermitted, dMode) } else j) } }

/-- A load in progress ends, unless it is a partial cast that has begun. -/
def State.stopLoad (s : State) : State :=
  let s1 := { s with fab := { s.fab with chain := 0, due := none } }
  let st := s1.fabState
  if decide (st ≠ 0) && (decide (st ≤ 3) || decide (s1.mode = 3)) then s1.loadFailNow errAborted else s1

/-- A test fails: QCAUSE, the event, and Quarantine from a running mode, Assay or Forge. Line and radio transactions, which need the
warden, end NOT_PERMITTED. -/
def State.quarantine (s : State) (cause : Nat) : State :=
  let s1 := (((s.put WD_STAT.QCAUSE cause).put WD_STAT.STATE 2).setEvt WD_EVT.QUARANTINE).stopJobs
  if s1.running || decide (s1.mode = 2) || decide (s1.mode = 3) then
    ((s1.stopLoad.endLine stNotPermitted).endRadio stNotPermitted 0).enterMode 10 13
  else s1

/-- The power-up tests and the continuous tests of R293. -/
def powerUpCause (c : Nat) : Bool := decide ((1 ≤ c ∧ c ≤ 6) ∨ c = 11 ∨ c = 12)
def continuousCause (c : Nat) : Bool := decide (7 ≤ c ∧ c ≤ 10)

/-- The power-up self-tests run. -/
def State.selfTesting (s : State) : Bool := decide (s.mode = 2 ∧ s.get WD_STAT.STATE = 0)

def execHealthTestFail (cause : QCause) (s : State) : Result :=
  .next (
    if (powerUpCause cause.val && s.selfTesting) || (continuousCause cause.val && (s.running || decide (s.mode = 2 ∨ s.mode = 3))) then
      s.quarantine cause.val
    else s)

/-- Every power-up test has passed: READY, and the load that is due begins (R171, R293). -/
def execPowerUpSelftestDone (s : State) : Result :=
  .next (
    if ¬ s.selfTesting then s
    else
      let s1 := (s.put WD_STAT.STATE 1).setEvt WD_EVT.SELFTEST_DONE
      match s1.fab.due with
      | none => s1
      | some (src, chain) => s1.beginLoad src false chain)

/-! ### The mailbox's mode commands (R290, R293, R305) -/

def execSelftest (cause : QCause) (s : State) : Result :=
  .next (s.mbxRun 0x09 (fun t => [t.chkMode])
    (fun t =>
      if cause.val = 0 then (mbxOk, t.setEvt WD_EVT.SELFTEST_DONE)
      else ((stNotPermitted, dMode), t.quarantine cause.val)))

/-- Maintenance, entered from a running mode or Quarantine; every service is then available again. -/
def State.toMaintenance (s : State) : State :=
  if s.mode = 9 then s
  else
    let s1 := if s.mode = 10 then s.put WD_STAT.STATE 1 else s
    s1.leaveOutage 9 12

def execMaintEnter (s : State) : Result :=
  .next (s.mbxRun 0x18
    (fun t => [(!(t.running || decide (t.mode = 10)), (stNotPermitted, dMode)), t.chkPres true])
    (fun t => (mbxOk, t.toMaintenance)))

def execTestEnter (s : State) : Result :=
  .next (s.mbxRun 0x19
    (fun t => [t.chkMode, (!t.running, (stNotPermitted, dMode)), (!t.flag SYS_STRAP.TEST_EN, (stNotPermitted, dStrap)),
      (t.wd.otp.testOff, (stNotPermitted, dLifecycle)), t.chkPres true])
    (fun t => (mbxOk, (t.eraseAll).leaveOutage 11 12)))

/-! ### The sniffer (R239, R310) -/

/-- The sniffer runs. -/
def State.snifferOn (s : State) : Bool := decide (s.mode = 1) && s.flag RF_CFG.ENABLE && s.flag RF_SNIFF.EN

/-- The receiver is on for LISTEN ticks; 0 acts as 1. -/
def execSniffListen (s : State) : Result :=
  .next (
    if s.snifferOn ∧ ¬ s.radio.sniffed then
      { s.put RF_STAT.STATE 4 with radio := { s.radio with sniffEnd := s.tick + max 1 (s.get RF_SNIFF.LISTEN) } }
    else s)

/-- A radio event WAKE, once the device is awake (R242). -/
def State.wakeEvent (s : State) : State := if s.awake then s.rfEvent 7 0 0xFF 0 [] [] else s

/-- A detection, while the receiver is on, keeps it on and raises the wake request. -/
def execSniffDetect (s : State) : Result :=
  .next (
    if ¬ s.snifferOn ∨ s.get RF_STAT.STATE ≠ 4 then s
    else
      let s1 := { s with radio := { s.radio with sniffed := true, synced := false, rx := none } }
      if s1.flag PWR_WAKE.RADIO then ((s1.ironEvt RF_EVT.WAKE).wake PWR_WAKE.RADIO).wakeEvent else s1)

/-- No sync word has followed a detection, whatever mode the wake has reached (R239). -/
def execFalseWake (s : State) : Result :=
  .next (
    if s.radio.sniffed ∧ ¬ s.radio.synced then
      { (s.count RF_CNT.FALSE_WAKE 1) with radio := { s.radio with sniffed := false } }
    else s)

end Sys2Proof.Machine
end

