-- ==== Sys2Proof/Machine/Access.lean ====
section
/-! DEFINITION. Register accesses (R5 to R8, 18): what an accepted write of each register does, and what a read of each
register answers and changes. -/

namespace Sys2Proof.Machine

/-! ### Writes -/

/-- The gate of R7, where `read` is what the register reads as now. -/
def State.gateAs (s : State) (who : Accessor) (a : Nat) (read value : Word) : Word × State :=
  let g := (s.setReg a read).gate who a value
  (g.1, g.2.setReg a (s.reg a))

/-- LP_DEC as it reads: under grids A and F the values in use. -/
def State.decWord (s : State) (p : Nat) : Word :=
  let (d, l, m, _) := s.grid p
  if s.get (LP_CFG.GRID p) = 2 then s.reg (LP_DEC p) else BitVec.ofNat 32 (d * 2 ^ 24 + l * 2 ^ 16 + m * 2 ^ 8)

/-- LP_NCO as it reads. -/
def State.ncoWord (s : State) (p : Nat) : Word :=
  let (_, _, _, f) := s.grid p
  if s.get (LP_CFG.GRID p) = 2 then s.reg (LP_NCO p) else BitVec.ofNat 32 f

/-- LP_PERMIT_LO and LP_PERMIT_HI as they read: under profiles 1 to 5 the lanes that the profile permits. -/
def State.permitReg (s : State) (p : Nat) (hi : Bool) : Word :=
  if s.get (LP_LIM.PROFILE p) = 6 then s.reg (if hi then LP_PERMIT_HI p else LP_PERMIT_LO p)
  else BitVec.ofNat 32 (s.permitWord p (if hi then 32 else 0))

/-- A write of LP_CFG: a GRID of 3 is discarded. -/
def State.writeLpCfg (s : State) (who : Accessor) (p : Nat) (value : Word) : State :=
  let g := s.gate who (LP_CFG p) value
  let grid := g.2.get (LP_CFG.GRID p)
  let s1 := g.2.writePlain (LP_CFG p) g.1
  (if s1.get (LP_CFG.GRID p) = 3 then s1.put (LP_CFG.GRID p) grid else s1).followPorts

/-- A write of a register whose fields take it only under a condition on another register. -/
def State.writeIf (s : State) (who : Accessor) (a : Nat) (read : Word) (ok : Bool) (value : Word) : State :=
  let g := s.gateAs who a read value
  if ok then g.2.writePlain a g.1 else g.2

/-- A write of a register without a rule of its own. -/
def State.writeGated (s : State) (who : Accessor) (a : Nat) (value : Word) : State :=
  let g := s.gate who a value
  g.2.writePlain a g.1

/-- Writes of LP and LK registers. -/
def State.actLine (s : State) (who : Accessor) (a : Nat) (value : Word) : State :=
  let p := (a - 0x80000) / 4096
  if a = LK_EPOCH then s.writeEpoch value
  else if 4 ≤ p then s.writeGated who a value
  else if a = LP_CFG p then s.writeLpCfg who p value
  else if a = LP_PGA p then s.writeLpPga p value
  else if a = LP_BANK p then s.writeLpBank p value
  else if a = LP_COEF_DATA p then s.writeCoef p value
  else if a = LP_CREST p then s.writeLpCrest p value
  else if a = LP_CANC p then s.writeCanc p value
  else if a = LP_ZPROBE p then s.writeZprobe p value
  else if a = LP_NMAP_CFG p then s.writeNmapCfg p value
  else if a = LP_JOIN p then s.writeLpJoin who p value
  else if a = LP_DEC p then s.writeIf who a (s.decWord p) (decide (s.get (LP_CFG.GRID p) = 2)) value
  else if a = LP_NCO p then s.writeIf who a (s.ncoWord p) (decide (s.get (LP_CFG.GRID p) = 2)) value
  else if a = LP_PERMIT_LO p ∨ a = LP_PERMIT_HI p then
    if s.get (LP_LIM.PROFILE p) = 6 then s.writeGated who a value else s
  else s.writeGated who a value

/-- Writes of LN registers. -/
def State.actLane (s : State) (who : Accessor) (a : Nat) (value : Word) : State :=
  let n := (a - 0x100000) / 64
  if a = LN_CFG n then s.writeLnCfg n value
  else if a = LN_AGC n then s.writeLnAgc n value
  else if a = LN_MASK_LO n then s.writeMaskLo n value
  else s.writeGated who a value

/-- Writes of QP registers. -/
def State.actPool (s : State) (who : Accessor) (a : Nat) (value : Word) : State :=
  let w := (a - 0x60400) / 16
  if a = QP_CMD then s.writeQpCmd value
  else if a = QP_QSTAT then s.writeQstat value
  else if a = QP_QWM then s.writeQwm value
  else if h : 0x60400 ≤ a ∧ w < 64 then
    let win : Win := ⟨w, h.2⟩
    if a = QP_WIN_CFG w then s.writeWinCfg win value
    else if a = QP_WIN_DATA w then s.writeWinData win value
    else if a = QP_WIN_CMD w then s.writeWinCmd win value
    else s.writeGated who a value
  else s.writeGated who a value

/-- Writes of SEQ registers: SEQ_PC takes one only while its core is halted. -/
def State.actSeq (s : State) (who : Accessor) (a : Nat) (value : Word) : State :=
  let k := (a - 0x30000) / 256
  if a = SEQ_CTL k then s.writeSeqCtl k value
  else if a = SEQ_LANE k then s.writeSeqLane who k value
  else if a = SEQ_TIMER k then s.writeSeqTimer k value
  else if a = SEQ_PC k then (if s.coreHalted k then s.writePlain a value else s)
  else s.writeGated who a value

/-- Writes of HP registers. -/
def State.actHost (s : State) (who : Accessor) (a : Nat) (value : Word) : State :=
  if a = HP_CFG then s.writeHpCfg value
  else if a = HP_CR_BASE ∨ a = HP_CPL_BASE ∨ a = HP_EV_BASE then s.writeBase a value
  else if a = HP_DB then s.writeDb value
  else if a = HP_CPL_IDX then s.writeCplHead value
  else if a = HP_EV_IDX then s.writeEvHead value
  else if a = HP_COAL then s.writeCoal value
  else s.writeGated who a value

/-- Writes of RF registers. -/
def State.actRadio (s : State) (who : Accessor) (a : Nat) (value : Word) : State :=
  let c := (a - 0xA0100) / 32
  if a = RF_CFG then let g := s.gate who a value; g.2.writeRfCfg g.1
  else if a < 0xA0100 then s.writeGated who a value
  else if a = RF_LCFG c then s.writeRfLcfg c value
  else if a = RF_LTIME c then s.writeRfLtime c value
  else if a = RF_LMAP_LO c then s.writeRfLmap c false value
  else if a = RF_LMAP_HI c then s.writeRfLmap c true value
  else s.writeGated who a value

/-- A write of UA_FLOW: the transmitter and the queue's level are judged anew. -/
def State.writeUaFlow (s : State) (who : Accessor) (u : Nat) (value : Word) : State :=
  ((s.writeGated who (UA_FLOW u) value).uaFlow u).uaKick u

/-- Writes of UA registers. -/
def State.actUart (s : State) (who : Accessor) (a : Nat) (value : Word) : State :=
  let u := (a - 0xB0000) / 256
  if a = UA_CFG u then s.writeUaCfg u value
  else if a = UA_BAUD u then s.writeUaBaud u value
  else if a = UA_FLOW u then s.writeUaFlow who u value
  else s.writeGated who a value

/-- Writes of CT registers: a change of a trip's outputs or of the pins' drive shows at once. -/
def State.actCtl (s : State) (who : Accessor) (a : Nat) (value : Word) : State :=
  if a = CT_SET then s.writeCtl (bits value.toNat 15 0) 0
  else if a = CT_CLR then s.writeCtl 0 (bits value.toNat 15 0)
  else if a = CT_PAIR ∨ (CT_OCFG 0 ≤ a ∧ a ≤ CT_OCFG 15) then s.writeCtCfg who a value
  else if a = CT_TRIP then s.writeCtTrip value
  else if a = CT_DLIM then s.writeDlim value
  else (s.writeGated who a value).relevel

/-- Writes of WD registers. -/
def State.actWarden (s : State) (who : Accessor) (a : Nat) (value : Word) : State :=
  if a = WD_PRES then s.writeWdPres value
  else if a = WD_POLICY then s.writePolicy who value
  else if a = WD_MBX_CMD then s.writeMbxCmd value
  else if WD_MBX_ARG 0 ≤ a then s.writeMbxArg a value
  else s.writeGated who a value

/-- Writes of PM registers. -/
def State.actCount (s : State) (who : Accessor) (a : Nat) (value : Word) : State :=
  let k := (a - 0x40100) / 16
  if a = PM_SNAP then s.writeSnap value
  else if a = PM_CTR_LO k ∧ 0x40100 ≤ a ∧ k < 64 then s.writeCtrLo k value
  else if a = PM_CTR_HI k ∧ 0x40100 ≤ a ∧ k < 64 then s.writeCtrHi k value
  else s.writeGated who a value

/-- Writes of SYS, CLK, PWR, FAB, MT and AL registers. -/
def State.actMain (s : State) (who : Accessor) (a : Nat) (value : Word) : State :=
  if a = SYS_CTL then s.writeSysCtl who value
  else if a = PWR_CFG then s.writePwrCfg value
  else if a = PWR_ALARM then s.writeAlarm value
  else if a = FAB_LOAD then s.writeFabLoad value
  else if a = FAB_PUSH then s.writeFabPush value
  else if a = MT_SYNC then s.writeMtSync value
  else if a = AL_CTL then s.writeAlCtl who value
  else if a = AL_CFG then (s.writeGated who a value).followRole
  else s.writeGated who a value

/-- What a write that reaches the register at `a` does. -/
def State.act (s : State) (who : Accessor) (a : Nat) (value : Word) : State :=
  match a / 65536 with
  | 3 => s.actSeq who a value
  | 4 => s.actCount who a value
  | 5 => s.actHost who a value
  | 6 => s.actPool who a value
  | 7 => s.actWarden who a value
  | 8 => s.actLine who a value
  | 10 => s.actRadio who a value
  | 11 => s.actUart who a value
  | 12 => s.actCtl who a value
  | 16 => s.actLane who a value
  | _ => s.actMain who a value

/-- `a` names a register that `who` may address: the WD block is the host's alone (R296, R184). -/
def isReg (who : Accessor) (a : Nat) : Bool :=
  (regFind a).isSome && (decide (who = .host) || decide (a / 65536 ≠ 7))

/-- A write of the register at `a`; in Island a write of AL_CTL alone reaches the device (R329). -/
def State.regWrite (s : State) (who : Accessor) (a : Nat) (value : Word) : State :=
  if who = .host ∧ a = AL_CTL ∧ (s.island ∨ s.al.healedNow) then s.writeAlCtl .host value
  else s.enter who a (fun t => t.act who a value)

def execRegisterWrite (who : Accessor) (addr value : Word) (s : State) : Result :=
  .next (if isReg who addr.toNat then s.regWrite who addr.toNat value else s)

/-! ### Reads -/

/-- Clear the RC fields of a register after a read (R5). -/
def State.clearRc (s : State) (a : Nat) : State :=
  match regFind a with
  | none => s
  | some (d, _) => s.setReg a (BitVec.ofNat 32 ((d.fields.filter (fun f => decide (f.acc = .rc))).foldl
      (fun x f => putBits x f.hi f.lo 0) (s.reg a).toNat))

/-- The register holds an RC field. -/
def hasRc (a : Nat) : Bool := (regFind a).any (fun d => d.1.fields.any (fun f => decide (f.acc = .rc)))

/-- The value with a field replaced. -/
def withField (v : Word) (f : Fld) (x : Nat) : Word := BitVec.ofNat 32 (putBits v.toNat f.hi f.lo x)

/-- A plain read: the value, RC fields cleared. -/
def State.readPlain (s : State) (a : Nat) : Word × State := (s.reg a, s.clearRc a)

/-- A read whose field `f` is open now, from `lo` to `lo + n − 1`. -/
def State.readOpen (s : State) (a : Nat) (f : Fld) (lo : Int) (n : Nat) : Word × State :=
  let r := s.free n
  (withField (s.reg a) f (unsgn (f.hi + 1 - f.lo) (lo + r.1)), r.2)

/-- Reads of LP and LK registers. -/
def State.readLine (s : State) (a : Nat) : Word × State :=
  let p := (a - 0x80000) / 4096
  let off := a % 4096
  if a = LK_EPOCH then
    (withField (s.reg a) LK_EPOCH.USED ((List.range s.entries).filter (fun i => decide (s.entState i ≠ 0))).length, s)
  else if 4 ≤ p then s.readPlain a
  else if a = LP_STAT p ∧ s.portOn p then s.readOpen a (LP_STAT.RX_OVL p) 0 2
  else if a = LP_DEC p then (s.decWord p, s)
  else if a = LP_NCO p then (s.ncoWord p, s)
  else if a = LP_COEF_DATA p then s.readCoef p
  else if a = LP_PERMIT_LO p then (s.permitReg p false, s)
  else if a = LP_PERMIT_HI p then (s.permitReg p true, s)
  else if a = LP_NMAP_DATA p then s.readNmap p
  else if 0x100 ≤ off then (BitVec.ofNat 32 (nth 0 s.wd.otp.pgacal (p * 31 + (off - 0x100) / 4)), s)
  else s.readPlain a

/-- Reads of LN registers: LN_GAIN shows the gain in force (R39). -/
def State.readLane (s : State) (a : Nat) : Word × State :=
  let n := (a - 0x100000) / 64
  if a = LN_GAIN n then (withField (s.reg a) (LN_GAIN.GAIN n) (unsgn 12 (s.laneGain n)), s)
  else s.readPlain a

/-- Reads of QP registers; none where the read waits (R151), which a sequencer's does not: it reads 0. -/
def State.readPool (s : State) (who : Accessor) (a : Nat) (e : Ecc) : Option Word × State :=
  let w := (a - 0x60400) / 16
  if a = QP_FREE then (some (BitVec.ofNat 32 s.freeCells), s)
  else if a = QP_QSTAT then (some s.qstatWord, s)
  else if a = QP_QWM then (some s.qwmWord, s)
  else if a = QP_QLVL then (some s.qlvlWord, s)
  else if h : 0x60400 ≤ a ∧ w < 64 then
    let win : Win := ⟨w, h.2⟩
    if a = QP_WIN_DATA w then
      let r := s.readWinData win e
      (if who = .host then r.1 else some (r.1.getD 0), r.2)
    else if a = QP_WIN_STAT w then (some (s.winStatWord win), s)
    else (some (s.reg a), s)
  else let r := s.readPlain a; (some r.1, r.2)

/-- Reads of WD registers. -/
def State.readWarden (s : State) (a : Nat) : Word × State :=
  if a = WD_STAT then (s.wdStat, s)
  else if a = WD_PRES then (s.wdPres, s)
  else if a = WD_SLOT then s.readSlot
  else if a = WD_EUI_LO then (BitVec.ofNat 32 (s.wdEui false), s)
  else if a = WD_EUI_HI then (BitVec.ofNat 32 (s.wdEui true), s)
  else if a = WD_FLOOR then (BitVec.ofNat 32 s.wdFloor, s)
  else if a = WD_LIFE then (BitVec.ofNat 32 s.wdLife, s)
  else s.readPlain a

/-- A read of UA_STAT: after a break the line may have risen, which no command tells (R249). -/
def State.readUaStat (s : State) (u : Nat) : Word × State :=
  if (s.uart u).inBreak ∧ ¬ s.flag (UA_STAT.LINE_STUCK u) then
    let d := s.free 2
    (withField (s.reg (UA_STAT u)) (UA_STAT.LINE u) d.1, d.2)
  else (s.reg (UA_STAT u), s)

/-- Reads of the other blocks. -/
def State.readMain (s : State) (a : Nat) : Word × State :=
  let k := (a - 0x30000) / 256
  let c := (a - 0x40100) / 16
  let f := (a - 0x90100) / 128
  let u := (a - 0xB0000) / 256
  if a = PWR_RTC_LO then s.readRtc
  else if a = HP_STAT then (withField (s.reg a) HP_STAT.OUTST s.hp.outst.length, s)
  else if a = HP_IRQ then (BitVec.ofNat 32 s.irqWord, s)
  else if a = MT_PC_LO f ∧ 0x90100 ≤ a ∧ f < 4 then let t := s.snapshot f; (t.reg a, t)
  else if a / 65536 = 3 ∧ a = SEQ_STAT k then (withField (s.reg a) (SEQ_STAT.CORE k) k, s)
  else if a / 65536 = 3 ∧ a = SEQ_LPEND k then s.readLpend k
  else if a = PM_CTR_LO c ∧ 0x40100 ≤ a ∧ c < 64 then s.readCtrLo c
  else if a = UA_STAT u ∧ 0xB0000 ≤ a ∧ u < 6 then s.readUaStat u
  else s.readPlain a

/-- Reads of RF registers. -/
def State.readRadio (s : State) (a : Nat) : Word × State :=
  let c := (a - 0xA0100) / 32
  if a = RF_LMAP_LO c ∧ 0xA0100 ≤ a then (s.lmapReg c false, s)
  else if a = RF_LMAP_HI c ∧ 0xA0100 ≤ a then (s.lmapReg c true, s)
  else s.readPlain a

/-- What a read of the register at `a` answers, and the state after it; none where the host port waits (R151). -/
def State.readReg (s : State) (who : Accessor) (a : Nat) (e : Ecc) : Option Word × State :=
  if a / 65536 = 6 then s.readPool who a e
  else
    let r := match a / 65536 with
      | 7 => s.readWarden a
      | 8 => s.readLine a
      | 10 => s.readRadio a
      | 16 => s.readLane a
      | _ => s.readMain a
    (some r.1, r.2)

def execRcCounterRead (who : Accessor) (addr : Word) (s : State) : Result :=
  .next (
    if s.reads who ∧ isReg who addr.toNat ∧ hasRc addr.toNat then
      let r := s.readReg who addr.toNat .clean
      r.2.answer who (r.1.getD 0)
    else s)

/-! ### Holes (R346) -/

/-- `a` lies in the follower's mirror. -/
def inMirror (a : Nat) : Bool := decide (0x80000000 ≤ a)

/-- `a` names no register, SRAM word or mirror target that `who` may address; the WD block and the mirror are none of a core's (R184). -/
def isHole (who : Accessor) (a : Nat) : Bool :=
  !isReg who (a - a % 4) && !inSram a && !(decide (who = .host) && inMirror a)

/-- A host access to a hole. -/
def State.hostHole (s : State) (a : Nat) (isWrite : Bool) : State :=
  let s1 := s.refuse .host a stNotPermitted
  if isWrite then s1 else s1.answer .host 0

def execHoleAccess (who : Accessor) (addr : Word) (isWrite : Bool) (s : State) : Result :=
  .next (
    if ¬ isHole who addr.toNat then s
    else
      match who with
      | .host => if (if isWrite then s.reach .host else s.reads .host) then s.hostHole addr.toNat isWrite else s
      | .core k => if s.seqMode ∧ s.coreState k = 0 then s.raise k.val 4 addr.toNat else s)

end Sys2Proof.Machine
end

