-- ==== Sys2Proof/Machine/Cast.lean ====
section
/-! DEFINITION. Checking and casting an ingot (08): the configuration that a cast would produce and step 8 of R172, the cast of
R173, the partial cast of R176 and the restore cast of R309. -/

namespace Sys2Proof.Machine

/-! ### The configuration a cast produces -/

/-- Put the partitions of POLICY in force (R136, R163): the pool takes what the other three leave. -/
def State.castPolicy (s : State) (b : List Byte) : State :=
  let code := 65536 * polCode b
  let reg := (64 * polEntries b + 65535) / 65536 * 65536
  let first := (code + reg + 65536 * polCapt b) / 256
  let s1 := (s.put LK_REG.BASE (code / 64)).put LK_REG.ENTRIES (polEntries b)
  let s2 := ((s1.put QP_POOL.FIRST first).put QP_POOL.LAST 65535).put PWR_RETAIN.BANKS (polRetain b)
  { s2 with fab := { s2.fab with codeBlk := polCode b, captBlk := polCapt b, rate := polRate b },
            pool := { s2.pool with first := some (s2.get QP_POOL.FIRST) } }

/-- A queue as its entry casts it (R168). -/
def castQueue (e : List Byte) : QueueSt :=
  { en := true, fmt := bits (u8 e 2) 6 5, stream := bit (u8 e 2) 7, notify := bits (u8 e 2) 4 3, nseq := u8 e 3,
    limit := u16 e 4, wmHi := u16 e 6, wmLo := u16 e 8 }

/-- The queues of a QUEUE section; every other queue has EN = 0. -/
def castQueues (b : List Byte) : SMap QueueSt :=
  foldState (queueEntries b) (fun e m => mset queueDef m (u16 e 0) (castQueue e)) []

/-- Lane n takes its TILE entry: LN_CFG holds it, with ENABLE = BOUND (R164). -/
def State.castLane (s : State) (b : List Byte) (n : Nat) : State :=
  let e := laneEntry b n
  (s.setReg (LN_CFG n) (BitVec.ofNat 32 e)).modLane n (fun x => { x with bound := bit e 31 })

/-- The lanes of a list take their entries. -/
def State.castLanes (s : State) (b : List Byte) (l : List Nat) : State := foldState l (fun n t => t.castLane b n) s

/-- Filter tiles: an entry with EN = 1 binds its tile, with the coefficients of its COEF section. -/
def castFilters (g b : List Byte) (tiles : List Nat) : SMap FiltSt :=
  (tiles.filter (fun i => filtOn (filtEntry b i))).map (fun i =>
    (i, { entry := BitVec.ofNat 32 (filtEntry b i),
          coefs := (((sectsOf g 4).find? (fun x => x.inst = 16 + i)).map (fun x => coefList (x.bytes g))).getD [] }))

/-- A write of LP_CFG.GRID = 3 is discarded (LP_CFG). -/
def keepGrid (a : Nat) (old new : Word) : Word :=
  if a / 16384 = 0x20 ∧ a % 4096 = 0 ∧ bits new.toNat 2 1 = 3 then
    BitVec.ofNat 32 (putBits new.toNat 2 1 (bits old.toNat 2 1))
  else new

/-- The registers that REGDEF leaves, as values alone (R169). -/
def State.regdefPlain (s : State) (l : List (Nat × Nat × Nat)) : State :=
  foldState l (fun e t => t.setReg e.1 (keepGrid e.1 (t.reg e.1) (regdefValue (t.reg e.1) e))) s

/-- The metering endpoints (R175). -/
def isMtSource (e : Nat) : Bool := decide (epClass e = 1 ∨ epClass e = 2)

/-- Filter tile i lies in the metering scope: unbound, or fed from MT endpoints alone (R175). -/
def State.meterTile (s : State) (i : Nat) : Bool :=
  !s.fab.filters.any (fun e => decide (e.1 = i)) || ((feeds s.fab.routes 49 i).map isMtSource).getD true

/-- Filter tiles after a partial cast of the metering. -/
def State.partFilters (s : State) (g : List Byte) : SMap FiltSt :=
  let b := sectBytes g 2
  let own := (List.range 48).filter s.meterTile
  if b = [] then
    s.fab.filters.map (fun e => (e.1,
      match (sectsOf g 4).find? (fun x => x.inst = 16 + e.1) with
      | some x => { e.2 with coefs := coefList (x.bytes g) }
      | none => e.2))
  else
    let new := castFilters g b own
    ((List.range 48).filterMap (fun i => (new.find? (fun e => e.1 = i)).or (s.fab.filters.find? (fun e => decide (e.1 = i) && !own.contains i))))

/-- Routes after a partial cast of the metering: those between MT and FILT endpoints are the section's. -/
def State.partRoutes (s : State) (g : List Byte) : List (Nat × Nat) :=
  if (sectOf g 3).isNone then s.fab.routes
  else s.fab.routes.filter (fun r => !(mtOrFilt r.1 && mtOrFilt r.2)) ++ routeList (sectBytes g 3)

/-- Tiles and routes of a full ingot (R173 steps 3 and 4). -/
def State.castFabric (s : State) (g : List Byte) : State :=
  let b := sectBytes g 2
  let s1 := s.castLanes b (List.range 256)
  { s1 with fab := { s1.fab with filters := castFilters g b (List.range 48), routes := routeList (sectBytes g 3), packs := [] } }

/-- Tiles and routes of a partial ingot, within its scope. -/
def State.partFabric (s : State) (g : List Byte) : State :=
  let sc := ingScope g
  if 1 ≤ sc ∧ sc ≤ 4 then
    if (sectOf g 2).isNone then s
    else s.castLanes (sectBytes g 2) ((List.range 64).map (fun k => (sc - 1) * 64 + k))
  else if sc = 5 then { s with fab := { s.fab with filters := s.partFilters g, routes := s.partRoutes g } }
  else s

/-- The configuration that the cast would produce, as values alone (R172 step 8). -/
def State.wouldBe (s : State) (part : Bool) (g : List Byte) : State :=
  let l := regdefList (sectBytes g 7)
  if part then (s.partFabric g).regdefPlain l
  else
    let s1 := s.castPolicy (sectBytes g 1)
    (({ s1 with pool := { s1.pool with queues := castQueues (sectBytes g 6) } }).castFabric g).regdefPlain l

/-! ### Step 8: routes (R158, R159) -/

/-- CLASS and INDEX name a source, and a sink. -/
def isSource (e : Nat) : Bool :=
  match epClass e with
  | 1 | 2 => decide (epIndex e < 8)
  | 4 => decide (epIndex e < 48)
  | 6 => decide (epIndex e < 128)
  | 9 => decide (epIndex e < 256)
  | 10 => decide (epIndex e < 4)
  | _ => false
def isSink (e : Nat) : Bool :=
  match epClass e with
  | 3 => decide (epIndex e < 48)
  | 5 => decide (epIndex e < 128)
  | 7 => decide (epIndex e < 1024)
  | 8 => decide (epIndex e < 4)
  | _ => false

/-- The TILE entry of filter tile i in force; 0 for an unbound tile. -/
def State.tileEntry (s : State) (i : Nat) : Nat :=
  ((s.fab.filters.find? (fun e => e.1 = i)).map (fun e => e.2.entry.toNat)).getD 0

/-- Samples a second of source `e`, as a fraction; 0 where a program or nothing sets it. `fuel` bounds the chain. -/
def State.streamRate (s : State) (fuel e : Nat) : Nat × Nat :=
  match fuel with
  | 0 => (0, 1)
  | fuel + 1 =>
    match epClass e with
    | 1 => (s.fineRate, 1)
    | 2 => (128000, 1)
    | 4 =>
      match sourceOf s.fab.routes (0x3000 + epIndex e) with
      | none => (0, 1)
      | some x => let r := State.streamRate s fuel x; (r.1, r.2 * max 1 (filtDecim (s.tileEntry (epIndex e))))
    | 9 => (8 * 65 * s.slots (epIndex e / 64), 1)
    | 10 => (4096000, 1)
    | _ => (0, 1)

/-- The chain of filter tiles that ends at source `e` starts outside the tiles: it forms no loop. -/
def chainEnds (routes : List (Nat × Nat)) (fuel e : Nat) : Bool :=
  match fuel with
  | 0 => false
  | fuel + 1 =>
    if epClass e ≠ 4 then true
    else
      match sourceOf routes (0x3000 + epIndex e) with
      | none => true
      | some x => chainEnds routes fuel x

/-- The chain that ends at source `e` starts at MT_FINE, every DECIM of it 1. -/
def State.fineChain (s : State) (fuel e : Nat) : Bool :=
  match fuel with
  | 0 => false
  | fuel + 1 =>
    if epClass e = 1 then true
    else if epClass e ≠ 4 ∨ filtDecim (s.tileEntry (epIndex e)) ≠ 1 then false
    else
      match sourceOf s.fab.routes (0x3000 + epIndex e) with
      | none => false
      | some x => State.fineChain s fuel x

/-- The stream's rate keeps its sink's limit. -/
def State.rateFits (s : State) (r : Nat × Nat) : Bool :=
  let x := s.streamRate 50 r.1
  match epClass r.2 with
  | 3 | 7 => decide (x.1 ≤ 4096000 * x.2)
  | 5 => decide (x.1 ≤ 512000 * x.2)
  | 8 => decide (x.1 = s.fineRate * x.2)
  | _ => true

/-- A stream into a queue goes to a sample or BFP20 queue with STREAM = 1. -/
def State.sinkQueue (s : State) (r : Nat × Nat) : Bool :=
  decide (epClass r.2 ≠ 7) ||
    (let q := s.queue (epIndex r.2); q.en && q.stream && decide (q.fmt = 0 ∨ q.fmt = 3))

/-- The ROUTE rules. -/
def State.routesOk (s : State) : Bool :=
  let l := s.fab.routes
  decide (l.length ≤ 128) && distinct (l.map (·.2)) &&
    l.all (fun r => isSource r.1 && isSink r.2 && decide ((l.filter (fun x => x.1 = r.1)).length ≤ 4) &&
      chainEnds l 50 r.1 && s.rateFits r && s.sinkQueue r &&
      (decide (epClass r.2 ≠ 8) || s.fineChain 50 r.1))

/-! ### Step 8: bindings, partitions, grids, masks (R156, R157, R163, R19, R67) -/

/-- The engine position, and the correlator phase, of lane n as one number. -/
def State.enginePos (s : State) (n : Nat) : Nat := s.get (LN_CFG.ENGINE n) * 8 + s.get (LN_CFG.CTX n)
def State.corrPos (s : State) (n : Nat) : Nat := s.get (LN_CFG.CORR_TILE n) * 2 + s.get (LN_CFG.CORR_POS n)
def State.corrPhase (s : State) (n : Nat) : Nat := 2 * s.corrPos n + s.get (LN_CFG.CORR_PHASE n)

/-- Every lane has a position and a phase of its own, a correlator position serves one port, and every engine meets R36 at the
Full-Line rate. -/
def State.bindingsOk (s : State) : Bool :=
  let l := s.boundLanes
  distinct (l.map s.enginePos) && distinct (l.map s.corrPhase) &&
    l.all (fun n => l.all (fun m => decide (s.corrPos n = s.corrPos m → n / 64 = m / 64))) &&
    (List.range 32).all (fun e =>
      decide (((l.filter (fun n => s.get (LN_CFG.ENGINE n) = e)).map s.laneLoad).sum ≤ 375000000 * 2 ^ s.fullLineRate))

/-- A filter tile's work fits the Service rate (R157). -/
def State.worksOk (s : State) : Bool :=
  s.fab.filters.all (fun e =>
    let r := s.streamRate 50 ((sourceOf s.fab.routes (0x3000 + e.1)).getD 0)
    decide (filtWork e.2.entry.toNat * r.1 ≤ 375000000 * 2 ^ s.serviceRate * r.2))

/-- The pool keeps 1 MiB, and Full-Line is no slower than Service (R163). -/
def State.partitionsOk (s : State) : Bool :=
  decide (s.captEnd + 1048576 ≤ sramEnd ∧ s.serviceRate ≤ s.fullLineRate)

/-- A custom grid keeps R19: D, L and M in range, the cells within 3 kHz to 500 kHz, the spacing S × 65 Hz at least. -/
def State.gridOk (s : State) (p : Nat) : Bool :=
  if s.get (LP_CFG.GRID p) ≠ 2 then true
  else
    let (d, l, m, _) := s.grid p
    decide (4 ≤ d ∧ d ≤ 64 ∧ 1 ≤ l ∧ 1 ≤ m ∧ m ≤ 64 ∧ l ≤ m) &&
      decide ((3000 * s.hzUnit p : Nat) ≤ s.laneCentre p 0 - s.laneHalf p) &&
      decide (s.laneCentre p 63 + s.laneHalf p ≤ (500000 * s.hzUnit p : Nat)) &&
      decide (s.slots p * 65 * (d * m) ≤ 64000 * l)

/-- REGDEF names the mask of lane n. -/
def maskNamed (l : List (Nat × Nat × Nat)) (n : Nat) : Bool :=
  l.any (fun e => decide (e.1 = LN_MASK_LO n ∨ e.1 = LN_MASK_HI n))

/-- The mask that lane n has after the cast. -/
def State.maskAfter (s : State) (part : Bool) (l : List (Nat × Nat × Nat)) (n : Nat) : Nat :=
  if ¬ part ∨ maskNamed l n then s.pendingMask n else (s.lane n).mask

/-- Ports in the scope of the cast. -/
def portInScope (part : Bool) (g : List Byte) (p : Nat) : Bool := !part || decide (ingScope g = p + 1)

/-- The grid rule and the mask rule. -/
def State.gridsOk (s : State) (part : Bool) (g : List Byte) : Bool :=
  let l := regdefList (sectBytes g 7)
  (List.range 4).all (fun p => !portInScope part g p ||
    (s.gridOk p && (s.portLanes p).all (fun n =>
      !maskThin (s.cutMask p (s.maskAfter part l n)) (s.slots p))))

/-- The section that a failure names: the first of these types that the ingot has. -/
def sectIdx (g : List Byte) (types : List Nat) : Option Nat :=
  (types.filterMap (fun t => (sectOf g t).map (·.idx))).head?

/-- A filter tile that the metering scope does not hold is not bound anew (R175). -/
def State.tilesFree (s : State) (g : List Byte) : Bool :=
  decide (ingScope g ≠ 5) || (List.range 48).all (fun i => s.meterTile i || !filtOn (filtEntry (sectBytes g 2) i))

/-- Step 8 (R172). -/
def State.castCheck (s : State) (part : Bool) (g : List Byte) : Option IngErr :=
  let t := s.wouldBe part g
  if part ∧ (sectOf g 2).isSome ∧ ¬ s.tilesFree g then some (14, sectIdx g [2])
  else if ¬ t.routesOk then some (10, sectIdx g [3, 2])
  else if ¬ t.bindingsOk ∨ ¬ t.worksOk then some (11, sectIdx g [2])
  else if ¬ part ∧ ¬ t.partitionsOk then some (12, sectIdx g [1])
  else if ¬ t.gridsOk part g then some (13, sectIdx g [7, 2])
  else none

/-! ### Sections as the cast writes them (R173) -/

/-- The pool is laid out afresh (R139): queues empty, every cell free, windows without held words. -/
def State.layPool (s : State) : State :=
  let s1 := s.loseWins
  { s1 with pool := { scrub := s1.pool.scrub, commits := s1.pool.commits, first := s1.pool.first } }

/-- The bytes from `lo` to `hi` become 0 with fresh check bits. -/
def State.zeroSpan (s : State) (lo hi : Nat) : State :=
  { s with sram := mkeep (fun a => decide (a < lo ∨ hi ≤ a)) s.sram,
           poison := s.poison.filter (fun w => decide (sramBase + 32 * w < lo ∨ hi ≤ sramBase + 32 * w)),
           upsets := mkeep (fun w => decide (sramBase + 32 * w < lo ∨ hi ≤ sramBase + 32 * w)) s.upsets }

/-- A wake that lays the queues out afresh reports the loss (R138). -/
def State.poolLost (s : State) : State :=
  if s.pool.hadQueues then ({ s with pool := { s.pool with hadQueues := false } }).setEvt QP_EVT.POOL_LOST else s

/-- POLICY and QUEUE of a full cast: the code partition zeroed, the pool laid out, the queues cast. -/
def State.castMemory (s : State) (g : List Byte) : State :=
  let s1 := (s.castPolicy (sectBytes g 1)).layPool
  let s2 := (s1.zeroSpan sramBase (sramBase + 65536 * s1.fab.codeBlk)).zeroSpan (s1.descAddr 0) (cellAddr s1.dataCell 0)
  { s2 with pool := { s2.pool with queues := castQueues (sectBytes g 6) } }

/-- A port's two coefficient banks (R20, R166). -/
def castTaps (l : List (BitVec 24)) : SMap (BitVec 24) :=
  l.zipIdx.filterMap (fun (c, j) => if c = 0 then none else some (if j < 384 then j else 128 + j, c))

/-- Bank A of port p is active, with no fade in progress. -/
def State.restBank (s : State) (p : Nat) : State :=
  (((s.putFlag (LP_BANK.ACTIVE p) false).putFlag (LP_BANK.FADING p) false).putFlag (LP_BANK.QUEUED p) false).modPort p
    (fun x => { x with fade := 0, queued := none })

/-- A port is cast afresh by a full ingot: it has not locked, and its noise map is empty (R60, R69). -/
def State.freshPort (s : State) (p : Nat) : State :=
  s.modPort p (fun x => { x with wasLocked := false, nmap := [], cleared := false })

/-- COEF of the ports. -/
def State.castCoefs (s : State) (g : List Byte) : State :=
  foldState ((sectsOf g 4).filter (fun x => decide (x.inst ≤ 3)))
    (fun x t => (t.restBank x.inst).modPort x.inst (fun y => { y with taps := castTaps (coefList (x.bytes g)) })) s

/-- CODE: the images, and privilege and ENTRY of the cores that run them (R167). -/
def State.castCode (s : State) (g : List Byte) : State :=
  foldState (sectsOf g 5) (fun x t =>
    let b := x.bytes g
    let base := sramBase + codeOfs b
    foldState ((List.range 32).filter (fun k => bit (codeRun b) k)) (fun k u =>
      ((u.putFlag (SEQ_CFG.PRIV k) (decide (codePriv b = 1))).setReg (SEQ_PC k) (BitVec.ofNat 32 (base + codeEntry b))))
      (t.setSpan base (codeImage b))) s

/-- The cores that the ingot's RUN bitmaps name. -/
def runMap (g : List Byte) : Nat := ((sectsOf g 5).map (fun x => codeRun (x.bytes g))).foldl (· ||| ·) 0

/-- A core that no RUN bitmap names waits for an event, none enabled. -/
def State.idleCore (s : State) (k : Nat) : State :=
  ((s.put (SEQ_EV.MASK k) 0).putFlag (SEQ_CFG.PRIV k) false |>.put (SEQ_STAT.STATE k) 1).modCore k
    (fun c => { c with stall := .wait 0, step := false })

/-- Bits that the cast writes past the access codes: RWF and RC fields. -/
def directMask (d : RegDesc) : Nat :=
  d.fields.foldl (fun m f => if f.acc = .rwf ∨ f.acc = .rc then putBits m f.hi f.lo (2 ^ (f.hi + 1 - f.lo) - 1) else m) 0

/-- W1C bits of a register. -/
def w1cMask (d : RegDesc) : Nat :=
  d.fields.foldl (fun m f => if f.acc = .w1c then putBits m f.hi f.lo (2 ^ (f.hi + 1 - f.lo) - 1) else m) 0

/-- One REGDEF entry (R169): RWF fields are set; the rest is written, a masked W1C bit acting as in a write and the others kept. -/
def State.castReg (s : State) (e : Nat × Nat × Nat) : State :=
  match regFind e.1 with
  | none => s
  | some (d, _) =>
    let a := e.1
    let old := s.reg a
    let s1 := s.setReg a (keepGrid a old (regdefValue old (a, e.2.1, e.2.2 &&& directMask d)))
    if a / 65536 = 16 ∧ (a % 64 = 0x20 ∨ a % 64 = 0x24) ∨ a / 65536 = 3 ∧ a % 256 = 0x0C then s1.setReg a (regdefValue old e)
    else
      let keep := BitVec.ofNat 32 (w1cMask d &&& (0xFFFFFFFF ^^^ e.2.2))
      s1.act .host a (keepGrid a (s1.reg a) (regdefValue (s1.reg a) e) &&& ~~~keep)

/-- REGDEF. -/
def State.castRegs (s : State) (g : List Byte) : State := foldState (regdefList (sectBytes g 7)) (fun e t => t.castReg e) s

/-- Lane n's pending mask is at once the mask in force (R67). -/
def State.settleMask (s : State) (n : Nat) : State :=
  let m := s.pendingMask n
  s.modLane n (fun x => { x with mask := m, armed := false })

/-! ### INGOT_VERIFY_DONE (R172) -/

/-- The bytes of the load, once fetched: pushed, or read from flash; none where the flash gives no whole ingot. -/
def State.fetched (s : State) (flash : Option (List Byte)) : Option (List Byte) :=
  if s.fab.src = 2 then some s.fab.push
  else
    match flash with
    | none => none
    | some l => if 64 ≤ l.length then some (l.take (max 64 (ingLen l))) else none

/-- Steps 1 to 3 of a flash load, the whole ingot being there. -/
def State.fetchCheck (s : State) (g : List Byte) : Option IngErr :=
  if s.fab.src = 2 then none
  else
    match headerCheck s.fab.partialLoad g with
    | some e => some e
    | none => if g.length < ingLen g then some errFlash else s.earlyCheck g

/-- A flash load is staged: a full one in SRAM, a partial one in free cells; the verify pass of a wake stages nothing (R171, R309). -/
def State.stageFlash (s : State) (g : List Byte) : Option IngErr × State :=
  if s.fab.src = 2 then (none, s)
  else if s.fab.partialLoad then s.openStage g
  else (none, s.setSpan stageBase g)

/-- Steps 7 and 8, on the staged ingot. -/
def State.lateCheck (s : State) (g : List Byte) : Option IngErr :=
  match s.layoutCheck s.fab.partialLoad g with
  | some e => some e
  | none => s.castCheck s.fab.partialLoad g

/-- A full ingot has passed: Forge. POLICY and QUEUE are written first, so that the code partition stands while the host may write it (R137,
R173); a restore cast keeps what stands. -/
def State.openForge (s : State) (g : List Byte) : State :=
  let s1 := ({ s with fab := { s.fab with ingot := g } }.put FAB_STAT.STATE 5).enterMode 3 2
  if s1.fab.restore then s1.castPolicy (sectBytes g 1) else s1.poolLost.castMemory g

/-- A partial ingot has passed: its scope and the cores it names quiesce (R176, R195). -/
def State.quiesceScope (s : State) (g : List Byte) : State :=
  let sc := ingScope g
  let s1 := ({ s with fab := { s.fab with ingot := g } }).put FAB_STAT.STATE 4
  let s2 := if 1 ≤ sc ∧ sc ≤ 4 then s1.modPort (sc - 1) (fun x => { x with quiesce := true })
    else if sc = 6 then ((s1.endRadio stAborted 0).endLinks 4).rfStop else s1
  foldState ((List.finRange 32).filter (fun k => bit (ingCores g) k.val)) (fun k t => t.stopCore k) s2

/-- An ingot whose steps 1 to 6 have passed and which is not restored: staged, checked, and cast next. -/
def State.acceptIngot (s : State) (g : List Byte) (us : Nat) : State :=
  let r := s.stageFlash g
  match r.1 with
  | some e => (r.2.put FAB_TIME.US us).loadFail e
  | none =>
    match r.2.lateCheck g with
    | some e => (r.2.put FAB_TIME.US us).loadFail e
    | none => if r.2.fab.partialLoad then r.2.quiesceScope g else r.2.openForge g

/-- SHA-256 over the signed bytes (R162). -/
def ingDigest (g : List Byte) : List Byte := sha256 (g.take (ingSig g))

/-- The checks of a fetched ingot. A restore cast follows where the digest is that of the last full cast (R309). -/
def State.verify (s : State) (g : List Byte) (us : Nat) : State :=
  let fail := fun (e : IngErr) (t : State) => (t.put FAB_TIME.US us).loadFail e
  match s.fetchCheck g with
  | some e => fail e s
  | none =>
    let s1 := s.showScope g
    match s1.signCheck g with
    | some e => fail e s1
    | none =>
      match s1.versionCheck s1.fab.partialLoad g with
      | some e => fail e s1
      | none =>
        if s1.fab.restore ∧ s1.fab.src ≠ 2 ∧ ingDigest g = s1.fab.digest then s1.openForge g
        else ({ s1 with fab := { s1.fab with restore := false } }).acceptIngot g us

/-- All the bytes of the load are there: a push load has left FETCH; a flash load shows FETCH, VERIFY or CHECK. -/
def State.verifyReady (s : State) : Bool :=
  s.awake && decide (s.fabState ≤ 3 ∧ (if s.fab.src = 2 then 2 else 1) ≤ s.fabState)

/-- Outage was entered in the cycle in which the checks of a partial ingot end: Outage wins (R177). Without a fabric-clock cycle in
between, whether the two share one is open (log 59). -/
def State.outWins (s : State) : Bool × State :=
  if s.fab.partialLoad ∧ s.fab.outNow then let r := s.free 2; (decide (r.1 = 1), r.2) else (false, s)

/-- The end of the checks of a load that Outage has not aborted. -/
def State.endChecks (s : State) (flash : Option (List Byte)) (us : Nat) : State :=
  match s.fetched flash with
  | none => (s.put FAB_TIME.US us).loadFail errFlash
  | some g => s.verify g us

def execIngotVerifyDone (flash : Option (List Byte)) (us : Nat) (s : State) : Result :=
  .next (
    if ¬ s.verifyReady then s
    else
      let r := s.outWins
      if r.1 then (r.2.put FAB_TIME.US us).loadFail errAborted else r.2.endChecks flash us)

/-! ### CAST_COMPLETE (R173, R305, R309) -/

/-- Unwrap the state after a command that always gives one. -/
def State.after (s : State) (f : State → Result) : State :=
  match f s with
  | .next t => t
  | _ => s

/-- The frame that a wake held in iron RAM is received now (R310). -/
def State.deliverHeld (s : State) : State :=
  match s.radio.held with
  | none => s
  | some (x, r) =>
    foldState [execRfDataRx, execMapSetRx, execDisconnectRx, execRfAckRx, execRfNackRx, execConnReqRx, execConnAckRx,
        execRfBeaconRx, execFloodRx] (fun f t => t.after (f r))
      { s with radio := { s.radio with held := none, rx := some x } }

/-- The accumulators are cleared (R173), and the cycles and the decimation chains start afresh: COUNT counts the resets since the cast. -/
def State.clearEnergy (s : State) : State :=
  ({ s with meter := { s.meter with feeders := [], chans := [], phase := 0, lastFine := s.meter.edge, lastReset := none, fineN := 0,
                                    fastLeft := 0, resets := [], driven := [] } }.setReg MT_SYNC 0).setReg MT_STAT 0

/-- The sections of a full ingot after POLICY and QUEUE, in the order of R173. -/
def State.castSections (s : State) (g : List Byte) : State :=
  let s2 := s.castFabric g
  let s3 := (foldState (List.range 4) (fun p t => (t.restBank p).freshPort p) s2).castCoefs g
  let s4 := foldState ((List.range 32).filter (fun k => !bit (runMap g) k)) (fun k t => t.idleCore k) (s3.castCode g)
  let s5 := foldState s4.boundLanes (fun n t => t.settleMask n) (s4.castRegs g)
  (foldState (List.range 256) (fun n t => t.rest n) s5).clearEnergy

/-- What the cast of a full ingot records (FAB_INGOT, FAB_BUILD, iron RAM). -/
def State.castRecord (s : State) (g : List Byte) (us : Nat) : State :=
  let s1 := ((s.put FAB_INGOT.VERSION (ingVer g)).put FAB_PARTIAL.VERSION 0)
  let s2 := ((s1.put FAB_BUILD_LO.BUILD (u32 g 24)).put FAB_BUILD_HI.BUILD (u32 g 28)).put FAB_TIME.US us
  let s3 := (s2.put FAB_STAT.STATE 0).putFlag FAB_STAT.CAST_OK true
  let r := s3.free 2
  let bufq := (sectOf g 8).map (fun x => u16 (x.bytes g) 0)
  { r.2 with fab := { r.2.fab with
      push := [], ingot := [], chain := 0, restore := false, bufq := bufq, runs := runMap g, mtProg := decide (r.1 = 1),
      digest := ingDigest g, lastVer := ingVer g, lastBuild := (g.drop 24).take 8 } }

/-- Forge gives way to the mode it chooses; a wake from a sleep that Outage entered counts as leaving Outage (R102, R309). Where it
chooses Outage, the line transactions end (R16). -/
def State.leaveForge (s : State) : State :=
  let m := s.choice
  let s1 := if m = 6 then s.endLine stMainsLost else if s.iron.fromOutage then s.raiseEpoch else s
  let s2 := ({ s1 with iron := { s1.iron with fromOutage := false } }).enterMode m 5
  if m ≠ 7 then s2
  else if s2.role = 2 then s2.putFlag HP_CFG.ENABLE false else s2.copyRegistry

/-- A full cast ends. -/
def State.castDone (s : State) (g : List Byte) (us : Nat) : State :=
  let s0 := { s with pool := { s.pool with hadQueues := false } }
  let s1 := ((s0.castSections g).castRecord g us).followRole.relevel
  let s2 := foldState ((List.range 32).filter (fun k => bit (runMap g) k)) (fun k t => t.restartCore k) s1
  ((s2.setEvt FAB_EVT.LOAD_DONE).leaveForge).deliverHeld

/-- The second read of a restore cast differs from the first: Assay starts again with a full cast (R309). -/
def State.castAgain (s : State) : State :=
  let s1 := (s.put FAB_STAT.STATE 0).backToAssay 3 (0, 2)
  { s1 with fab := { s1.fab with ingot := [] } }

def execCastComplete (again : Option (List Byte)) (us : Nat) (s : State) : Result :=
  .next (
    if s.mode ≠ 3 ∨ s.fabState ≠ 5 then s
    else if s.fab.restore ∧ (again.map (fun l => ingDigest (l.take (ingLen l)))) ≠ some (ingDigest s.fab.ingot) then s.castAgain
    else s.castDone s.fab.ingot us)

/-! ### Partial casts (R175, R176) -/

/-- The scope has drained: a port's receptions are rewound with no outcome. -/
def execPartialQuiesceDone (s : State) : Result :=
  .next (
    let sc := ingScope s.fab.ingot
    if s.fabState ≠ 4 then s
    else if 1 ≤ sc ∧ sc ≤ 4 then
      if s.get (LP_STAT.TX_CNT (sc - 1)) ≠ 0 then s
      else foldState (s.portLanes (sc - 1)) (fun n t => t.cutRx n) (s.put FAB_STAT.STATE 5)
    else s.put FAB_STAT.STATE 5)

/-- The port re-enters ACQUIRE after a cast that changed VCH: it has not locked since then, so it free-runs at NOM (R60, R176, log 43). -/
def State.relock (s : State) (p : Nat) : State :=
  let r := s.nominal p
  ((r.2.put (LP_MPER.PERIOD p) r.1.toNat).acquire p).modPort p (fun x => { x with wasLocked := false })

/-- A port resumes: its lanes in SEARCH, the lock kept unless VCH changes, the noise map kept unless GRID changes. The contexts of other
ports' lanes on engines that the cast filled may no longer fit the rate in force (R37). -/
def State.resumePort (s : State) (p vch grid : Nat) : State :=
  let s1 := foldState ((List.range 64).map (fun k => p * 64 + k)) (fun n t => t.rest n)
    (s.modPort p (fun x => { x with quiesce := false }))
  let s2 := if s1.get (LP_CFG.GRID p) = grid then s1 else s1.modPort p (fun x => { x with nmap := [], cleared := false })
  let s3 := if s2.get (LP_MAINS.VCH p) = vch ∨ ¬ s2.portOn p then s2 else s2.relock p
  s3.followPorts.repark

/-- Metering resumes: the cast ends with a synchronising reset, whose edge is taken as that of a write is (log 43). -/
def State.resumeMeter (s : State) : State := if s.metering then s.schedule (s.meter.edge + 2) else s

/-- The sections of a partial ingot, in the order of R173. -/
def State.partSections (s : State) (g : List Byte) : State :=
  let l := regdefList (sectBytes g 7)
  let s1 := ((s.partFabric g).castCoefs g).castCode g
  foldState ((s1.boundLanes).filter (maskNamed l)) (fun n t => t.settleMask n) (s1.castRegs g)

/-- A partial cast ends. -/
def State.partDone (s : State) (g : List Byte) (us : Nat) : State :=
  let sc := ingScope g
  let p := sc - 1
  let vch := s.get (LP_MAINS.VCH p)
  let grid := s.get (LP_CFG.GRID p)
  let s1 := (s.partSections g).unstage
  let s2 := ((s1.put FAB_PARTIAL.VERSION (ingVer g)).put FAB_TIME.US us).put FAB_STAT.STATE 0
  let s3 := { s2 with fab := { s2.fab with
    push := [], ingot := [], partialLoad := false, runs := (s2.fab.runs &&& (0xFFFFFFFF ^^^ ingCores g)) ||| runMap g } }
  let s4 := if 1 ≤ sc ∧ sc ≤ 4 then s3.resumePort p vch grid else if sc = 5 then s3.resumeMeter
    else (s3.endLinks 0).rfShow
  let s5 := foldState ((List.range 32).filter (fun k => bit (runMap g) k)) (fun k t => t.restartCore k) s4
  s5.setEvt FAB_EVT.LOAD_DONE

def execPartialCastComplete (us : Nat) (s : State) : Result :=
  .next (if s.fabState = 5 ∧ s.fab.partialLoad then s.partDone s.fab.ingot us else s)

end Sys2Proof.Machine
end

