-- ==== Sys2Proof/Machine/SeqCore.lean ====
section
/-! DEFINITION. What every instruction of a sequencer core shares (09): fetching, the instruction cache, the rights of R190, and how
an instruction retires. -/

namespace Sys2Proof.Machine

/-! ### Rights (R137, R190) -/

/-- The L window of core k: `a` lies in it and in the code and data partition. -/
def State.inLwin (s : State) (k a : Nat) : Bool :=
  let lo := sramBase + 256 * s.get (SEQ_LWIN.BASE k)
  decide (lo ≤ a ∧ a < lo + 256 * s.get (SEQ_LWIN.SIZE k)) && decide (s.partOf a = some .code)

/-- Core k may fetch an instruction at `a`. -/
def State.mayFetch (s : State) (k a : Nat) : Bool :=
  if s.lCore k then s.inLwin k a else decide (s.partOf a = some .code)

/-- Core k may load from, or store to, the SRAM at `a`. -/
def State.mayLoad (s : State) (k a : Nat) : Bool :=
  if s.lCore k then s.inLwin k a || decide (s.partOf a = some .capture) else (s.partOf a).isSome
def State.mayStore (s : State) (k a : Nat) : Bool :=
  if s.lCore k then s.inLwin k a || decide (s.partOf a = some .capture)
  else decide (s.partOf a = some .code ∨ s.partOf a = some .registry ∨ s.partOf a = some .capture)

/-- Core k may load the register at `a`: an L program reads the LN registers of its attached lanes, and the PM block while
USER_EN = 1 (R343). -/
def State.mayReadReg (s : State) (k : Core) (a : Nat) : Bool :=
  isReg (.core k) a && (!s.lCore k ||
    (let n := (a - 0x100000) / 64
     (decide (a / 65536 = 16) && decide ((s.attached k).1 ≤ n ∧ n < (s.attached k).1 + (s.attached k).2)) ||
       (decide (a / 65536 = 4) && s.flag PM_CTL.USER_EN)))

/-- Core k may store to the register at `a`. -/
def State.mayWriteReg (s : State) (k : Core) (a : Nat) : Bool := isReg (.core k) a && !s.lCore k

/-- Core k may use queue q. -/
def State.mayQueue (s : State) (k q : Nat) : Bool := !s.lCore k || decide ((s.queue q).nseq = k)

/-! ### The instruction cache (R179, R180) -/

/-- The line of `a`, and its set. -/
def lineOf (a : Nat) : Nat := a - a % 32
def setOf (a : Nat) : Nat := a / 32 % 128

def cacheDef (_ : Nat) : List CacheLine := []

/-- The cached line of core k that holds `a`. -/
def State.cached (s : State) (k a : Nat) : Option CacheLine :=
  (mget cacheDef (s.core k).cache (setOf a)).find? (fun l => l.addr = lineOf a)

/-- A line becomes the most recently used one of its four ways. -/
def State.useLine (s : State) (k : Nat) (l : CacheLine) : State :=
  let touch := fun (ways : List CacheLine) => (l :: ways.filter (fun x => x.addr ≠ l.addr)).take 4
  s.modCore k (fun c => { c with cache := mmod cacheDef c.cache (setOf l.addr) touch })

/-- The line of `a` as the SRAM holds it. -/
def State.loadLine (s : State) (a : Nat) : CacheLine :=
  ⟨lineOf a, (List.range 8).map (fun i => s.word (lineOf a + 4 * i))⟩

/-- Fetch the instruction at the PC of core k: its word, or the exception that the fetch raises. -/
def State.fetch (s : State) (k : Core) : Option Word × State :=
  let a := s.pc k.val
  if ¬ s.mayFetch k.val a then (none, s.raise k.val 4 a)
  else
    match s.cached k.val a with
    | some l => (some (nth 0 l.words (a % 32 / 4)), s.useLine k.val l)
    | none =>
      let s1 := s.readSpan (lineOf a) 32
      if s1.poisoned a then (none, s1.raise k.val 5 a)
      else
        let l := s1.loadLine a
        (some (nth 0 l.words (a % 32 / 4)), s1.useLine k.val l)

/-! ### Running (R195) -/

/-- Core k runs. -/
def State.coreRuns (s : State) (k : Nat) : Bool := s.seqMode && decide (s.coreState k = 0)

/-- PC goes on to the next instruction. -/
def State.advance (s : State) (k : Nat) : State := s.setReg (SEQ_PC k) (s.reg (SEQ_PC k) + 4)

/-- RD takes a value, and the core goes on. -/
def State.retire (s : State) (k : Nat) (rd : Sreg) (v : Word) : State := (s.setSr k rd v).advance k

/-- PEND & MASK of core k. -/
def State.seqEvents (s : State) (k : Nat) : Nat := s.get (SEQ_EV.PEND k) &&& s.get (SEQ_EV.MASK k)

/-- The core stalls at its PC in `state` for what `x` names. -/
def State.stallCore (s : State) (k state : Nat) (x : Stall) : State :=
  (s.put (SEQ_STAT.STATE k) state).modCore k (fun c => { c with stall := x })

end Sys2Proof.Machine
end

