-- ==== Sys2Proof/Machine/SeqAlu.lean ====
section
/-! DEFINITION. Instructions of a sequencer core that compute, branch or use the accumulators (R182, R183). -/

namespace Sys2Proof.Machine

/-! ### Integer operations (R182) -/

/-- RD ← op (RA, RB). -/
def State.aluR (s : State) (k : Core) (rd ra rb : Sreg) (op : Word → Word → Word) : State :=
  s.retire k.val rd (op (s.sr k.val ra) (s.sr k.val rb))

/-- RD ← op (RA, x). -/
def State.aluI (s : State) (k : Core) (rd ra : Sreg) (x : Word) (op : Word → Word → Word) : State :=
  s.retire k.val rd (op (s.sr k.val ra) x)

/-- The shift operand RB[4:0]. -/
def shiftBy (x : Word) : Nat := x.toNat % 32

def opShl (x y : Word) : Word := x <<< shiftBy y
def opShr (x y : Word) : Word := x >>> shiftBy y
def opAsr (x y : Word) : Word := x.sshiftRight (shiftBy y)
def opClt (x y : Word) : Word := if x.toInt < y.toInt then 1 else 0
def opCltu (x y : Word) : Word := if x.toNat < y.toNat then 1 else 0
def opMulhi (x y : Word) : Word := BitVec.ofInt 32 (x.toInt * y.toInt / 2 ^ 32)
def opMulhiu (x y : Word) : Word := BitVec.ofNat 32 (x.toNat * y.toNat / 2 ^ 32)
def opMin (x y : Word) : Word := if x.toInt < y.toInt then x else y
def opMax (x y : Word) : Word := if x.toInt < y.toInt then y else x

/-- IMM16 sign-extended, and zero-extended. -/
def sext (i : Half) : Word := i.signExtend 32
def zext (i : Half) : Word := i.setWidth 32

/-- LIH. -/
def State.lih (s : State) (k : Core) (rd : Sreg) (imm : Half) : State := s.retire k.val rd (zext imm <<< 16)

/-! ### Hops, CALL and JMPR (R182) -/

/-- PC ← PC + 4 × off. -/
def State.hopBy (s : State) (k : Nat) (off : Word) : State := s.setReg (SEQ_PC k) (s.reg (SEQ_PC k) + off <<< 2)

/-- Hop if `c` holds of RA and RB. -/
def State.hop (s : State) (k : Core) (ra rb : Sreg) (off : Half) (c : Word → Word → Bool) : State :=
  if c (s.sr k.val ra) (s.sr k.val rb) then s.hopBy k.val (sext off) else s.advance k.val

def ifEq (x y : Word) : Bool := decide (x = y)
def ifNe (x y : Word) : Bool := decide (x ≠ y)
def ifLt (x y : Word) : Bool := decide (x.toInt < y.toInt)
def ifLe (x y : Word) : Bool := decide (x.toInt ≤ y.toInt)
def ifLtu (x y : Word) : Bool := decide (x.toNat < y.toNat)
def ifLeu (x y : Word) : Bool := decide (x.toNat ≤ y.toNat)

/-- CALL writes its link into s31. -/
def State.call (s : State) (k : Core) (off : Off26) : State :=
  (s.setSr k.val 31 (s.reg (SEQ_PC k.val) + 4)).hopBy k.val (off.signExtend 32)

/-- JMPR. -/
def State.jmpr (s : State) (k : Core) (rd ra : Sreg) (imm : Half) : State :=
  let a := s.sr k.val ra + sext imm
  if a.toNat % 4 ≠ 0 then s.raise k.val 3 a.toNat
  else (s.setSr k.val rd (s.reg (SEQ_PC k.val) + 4)).setReg (SEQ_PC k.val) a

/-! ### Accumulators (R183) -/

/-- Accumulator i of core k. -/
def State.acc (s : State) (k : Nat) (i : AccN) : Int := (mget accDef (s.core k).a i.val).toInt

/-- Put a value into accumulator i. -/
def State.setAcc (s : State) (k : Nat) (i : AccN) (v : Int) : State :=
  s.modCore k (fun c => { c with a := mset accDef c.a i.val (BitVec.ofInt 48 v) })

/-- The largest magnitude of a result that saturates to `w` bits. -/
def satMax (w : Nat) : Int := 2 ^ (w - 1) - 1

/-- A value limited to `w` bits. -/
def sat (w : Nat) (x : Int) : Int := clampInt (-satMax w) (satMax w) x

/-- A saturating result sets ACC_SAT. -/
def State.markSat (s : State) (k w : Nat) (x : Int) : State :=
  if sat w x = x then s else s.putFlag (SEQ_STAT.ACC_SAT k) true

/-- The 24-bit operand of a register. -/
def op24 (x : Word) : Int := sgn 24 x.toNat

/-- The product of two 24-bit operands. -/
def State.product (s : State) (k : Nat) (r1 r2 : Sreg) : Int := op24 (s.sr k r1) * op24 (s.sr k r2)

/-- aAD ← x, exact. -/
def State.putAcc (s : State) (k : Core) (ad : AccN) (x : Int) : State := (s.setAcc k.val ad x).advance k.val

/-- aAD ← sat48 (x). -/
def State.satAcc (s : State) (k : Core) (ad : AccN) (x : Int) : State :=
  ((s.markSat k.val 48 x).setAcc k.val ad (sat 48 x)).advance k.val

/-- The halves of an accumulator: HI is [47:24], LO is [23:0]. -/
def accHi (x : Int) : Int := sgn 24 (unsgn 48 x / 2 ^ 24)
def accLo (x : Int) : Int := sgn 24 (unsgn 48 x)
/-- The accumulator of two halves. -/
def accPair (hi lo : Int) : Int := sgn 48 (unsgn 24 hi * 2 ^ 24 + unsgn 24 lo)

/-- Each half of aAD ← sat24. -/
def State.satPair (s : State) (k : Core) (ad : AccN) (hi lo : Int) : State :=
  ((((s.markSat k.val 24 hi).markSat k.val 24 lo).setAcc k.val ad (accPair (sat 24 hi) (sat 24 lo)))).advance k.val

def State.mula (s : State) (k : Core) (r1 r2 : Sreg) (ad : AccN) : State := s.putAcc k ad (s.product k.val r1 r2)
def State.mac (s : State) (k : Core) (r1 r2 : Sreg) (ad : AccN) : State :=
  s.satAcc k ad (s.acc k.val ad + s.product k.val r1 r2)
def State.msu (s : State) (k : Core) (r1 r2 : Sreg) (ad : AccN) : State :=
  s.satAcc k ad (s.acc k.val ad - s.product k.val r1 r2)
def State.mta (s : State) (k : Core) (r1 : Sreg) (ad : AccN) : State := s.putAcc k ad (s.sr k.val r1).toInt
def State.mfa (s : State) (k : Core) (r1 : Sreg) (src : AccN) (sh : ShAmt) : State :=
  let x := roundDiv (s.acc k.val src) (2 ^ sh.val)
  (s.markSat k.val 32 x).retire k.val r1 (BitVec.ofInt 32 (sat 32 x))
def State.mfal (s : State) (k : Core) (r1 : Sreg) (src : AccN) : State :=
  s.retire k.val r1 (BitVec.ofInt 32 (s.acc k.val src))
def State.mfau (s : State) (k : Core) (r1 : Sreg) (src : AccN) : State :=
  s.retire k.val r1 (BitVec.ofInt 32 (s.acc k.val src / 2 ^ 32))
def State.pset (s : State) (k : Core) (r1 r2 : Sreg) (ad : AccN) : State :=
  s.putAcc k ad (accPair (op24 (s.sr k.val r1)) (op24 (s.sr k.val r2)))
def State.padd (s : State) (k : Core) (ad src : AccN) : State :=
  s.satPair k ad (accHi (s.acc k.val ad) + accHi (s.acc k.val src)) (accLo (s.acc k.val ad) + accLo (s.acc k.val src))
def State.psub (s : State) (k : Core) (ad src : AccN) : State :=
  s.satPair k ad (accHi (s.acc k.val ad) - accHi (s.acc k.val src)) (accLo (s.acc k.val ad) - accLo (s.acc k.val src))
def State.pscl (s : State) (k : Core) (r1 : Sreg) (ad : AccN) : State :=
  let m := op24 (s.sr k.val r1)
  s.satPair k ad (roundDiv (accHi (s.acc k.val ad) * m) (2 ^ 23)) (roundDiv (accLo (s.acc k.val ad) * m) (2 ^ 23))
def State.pgeth (s : State) (k : Core) (r1 : Sreg) (src : AccN) : State :=
  s.retire k.val r1 (BitVec.ofInt 32 (accHi (s.acc k.val src)))
def State.pgetl (s : State) (k : Core) (r1 : Sreg) (src : AccN) : State :=
  s.retire k.val r1 (BitVec.ofInt 32 (accLo (s.acc k.val src)))

end Sys2Proof.Machine
end

