-- ==== Sys2Proof/Machine/SeqMem.lean ====
section
/-! DEFINITION. Instructions of a sequencer core that load and store, use queues and streams, or control the core
(R180, R184 to R193). -/

namespace Sys2Proof.Machine

/-! ### Loads and stores (R184) -/

/-- Address RA + IMM16. -/
def State.memAddr (s : State) (k : Core) (ra : Sreg) (imm : Half) : Nat := (s.sr k.val ra + sext imm).toNat

/-- The `n` bytes at `a`, which lie in one 32-bit part. -/
def State.loadBytes (s : State) (a n : Nat) : Word :=
  BitVec.ofNat 32 ((s.sramPart (a - a % 4)).toNat / 2 ^ (8 * (a % 4)) % 2 ^ (8 * n))

/-- A load of `n` bytes from the SRAM: a poisoned word raises POISON. -/
def State.loadSram (s : State) (k : Core) (rd : Sreg) (a n : Nat) (e : Ecc) : State :=
  let r := s.eccRead a e
  let s1 := r.1.tellPool r.2
  if s1.poisoned a then s1.raise k.val 5 a else s1.retire k.val rd (s1.loadBytes a n)

/-- A load of `n` bytes. -/
def State.load (s : State) (k : Core) (rd ra : Sreg) (imm : Half) (n : Nat) (e : Ecc) : State :=
  let a := s.memAddr k ra imm
  if a % n ≠ 0 then s.raise k.val 3 a
  else if inSram a then
    if s.mayLoad k.val a then s.loadSram k rd a n e else s.raise k.val 4 a
  else if n = 4 ∧ s.mayReadReg k a then
    let r := s.readReg (.core k) a e
    r.2.retire k.val rd (r.1.getD 0)
  else s.raise k.val 4 a

/-- A store into the SRAM; one into the registry reaches the other unit too (R323). -/
def State.storeSram (s : State) (a : Nat) (l : List Byte) : State :=
  if s.partOf a = some .registry then s.putEntry ((a - s.regBase) / 64) ((a - s.regBase) % 64) l
  else if l.length = 32 then s.setSpan a l else (s.readSpan a l.length).setSpan a l

/-- A store of `n` bytes. A register takes it with the PC past the store, so a HALT that the core writes itself halts it there. -/
def State.store (s : State) (k : Core) (rd ra : Sreg) (imm : Half) (n : Nat) : State :=
  let a := s.memAddr k ra imm
  let v := s.sr k.val rd
  if a % n ≠ 0 then s.raise k.val 3 a
  else if inSram a then
    if s.mayStore k.val a then (s.storeSram a (leBytes n v.toNat)).advance k.val else s.raise k.val 4 a
  else if n = 4 ∧ s.mayWriteReg k a then (s.advance k.val).act (.core k) a v
  else s.raise k.val 4 a

/-! ### Queues (R185) -/

/-- The queue that RA names. -/
def State.qreg (s : State) (k : Core) (ra : Sreg) : Nat := (s.sr k.val ra).toNat % 1024

/-- The exception of a queue operation that names the word at `a`, if any: MISALIGN, ACCESS, then QUEUE. -/
def State.queueFault (s : State) (k : Core) (q a : Nat) (may : Bool) : Option (Nat × Nat) :=
  if a % 32 ≠ 0 then some (3, a)
  else if ¬ (inSram a && may && s.mayQueue k.val q) then some (4, a)
  else if ¬ (s.queue q).en then some (6, q) else none

/-- The head word goes to the word at `a`, its tag to RD. -/
def State.takenWord (s : State) (k : Core) (rd : Sreg) (a : Nat) (w : Line) : State :=
  (s.storeSram a (leBytes 32 w.toNat)).retire k.val rd (BitVec.ofNat 32 (bits w.toNat 255 240))

/-- QGET, QGETE and QTRY on queue q and the word at `a`: what a core does that finds no word is `empty`. -/
def State.takeTo (s : State) (k : Core) (rd : Sreg) (q a : Nat) (e : Ecc) (empty : State → State) : State :=
  match s.queueFault k q a (s.mayStore k.val a) with
  | some x => s.raise k.val x.1 x.2
  | none =>
    match s.takeWord q e with
    | (none, s1, l) => empty (s1.tellPool l)
    | (some w, s1, l) => ((s1.tellPool l).takenWord k rd a w).uaFlows

/-- QGET (`events` false) and QGETE (`events` true): an empty queue stalls the core; a QGETE ends if an event is pending. -/
def State.qget (s : State) (k : Core) (rd : Sreg) (q a : Nat) (events : Bool) (e : Ecc) : State :=
  s.takeTo k rd q a e (fun t =>
    if events && decide (t.seqEvents k.val ≠ 0) then t.retire k.val rd 0
    else t.stallCore k.val 2 (.qget rd.val q a events))

/-- QTRY. -/
def State.qtry (s : State) (k : Core) (rd : Sreg) (q a : Nat) (e : Ecc) : State :=
  s.takeTo k rd q a e (fun t => t.retire k.val rd 0)

/-- The word at `a` as a load shows it. -/
def State.sramLine (s : State) (a : Nat) : Line := partsLine ((List.range 8).map (fun i => s.sramPart (a + 4 * i)))

/-- QPUT: a poisoned source word raises POISON, and nothing is appended. -/
def State.qput (s : State) (k : Core) (rd : Sreg) (q a : Nat) (e : Ecc) : State :=
  match s.queueFault k q a (s.mayLoad k.val a) with
  | some x => s.raise k.val x.1 x.2
  | none =>
    let r := s.eccRead a e
    let s1 := r.1.tellPool r.2
    if s1.poisoned a then s1.raise k.val 5 a
    else
      let p := s1.putWord (.core k) q (s1.sramLine a)
      (p.2.1.tellPool p.2.2).retire k.val rd (BitVec.ofNat 32 p.1)

/-- The exception of a queue operation that names no word. -/
def State.queueFault0 (s : State) (k : Core) (q : Nat) : Option (Nat × Nat) :=
  if ¬ s.mayQueue k.val q then some (4, 0) else if ¬ (s.queue q).en then some (6, q) else none

/-- QREW. -/
def State.qrew (s : State) (k : Core) (rd ra : Sreg) : State :=
  let q := s.qreg k ra
  match s.queueFault0 k q with
  | some x => s.raise k.val x.1 x.2
  | none => let r := s.rewind (.core k) q; (r.1.tellPool r.2).retire k.val rd 5

/-- QLVL. -/
def State.qlvl (s : State) (k : Core) (rd ra : Sreg) : State :=
  let q := s.qreg k ra
  match s.queueFault0 k q with
  | some x => s.raise k.val x.1 x.2
  | none => let r := s.touch q; (r.1.tellPool r.2).retire k.val rd (BitVec.ofNat 32 (r.1.level q))

/-- RB, the address of the word. -/
def State.qaddr (s : State) (k : Core) (rb : Sreg) : Nat := (s.sr k.val rb).toNat

/-! ### Streams (R158, R186) -/

/-- The source of input port `p` of core k, and the routes of its output port. -/
def State.sinSource (s : State) (k : Core) (p : StreamP) : Option Nat := sourceOf s.fab.routes (0x5000 + k.val * 4 + p.val)
def State.soutRouted (s : State) (k : Core) (p : StreamP) : Bool := s.fab.routes.any (fun r => decide (r.1 = 0x6000 + k.val * 4 + p.val))

/-- Input port `p` of core k takes complex samples; output port `p` sends them. -/
def State.sinComplex (s : State) (k : Core) (p : StreamP) : Bool := (s.sinSource k p).any (complexSource s.fab.routes)
def State.soutComplex (s : State) (k : Core) (p : StreamP) : Bool := s.soutRouted k p && Config.complexOut (k.val * 4 + p.val)

/-- R + 1; its use is guarded by an even R. -/
def pairReg (r : Sreg) : Sreg := Fin.ofNat 32 (r.val + 1)

/-- SIN. -/
def State.sin (s : State) (k : Core) (r : Sreg) (p : StreamP) : State :=
  let pair := s.sinComplex k p
  if pair ∧ r.val % 2 = 1 then s.raise k.val 1 0
  else if (s.sinSource k p).isNone then s.raise k.val 7 p.val
  else
    match mget fifoDef (s.core k.val).fin p.val with
    | [] => s.stallCore k.val 3 (.sin r.val p.val)
    | x :: t =>
      let s1 := s.modCore k.val (fun c => { c with fin := mset fifoDef c.fin p.val t })
      let s2 := s1.setSr k.val r (BitVec.ofInt 32 x.1)
      (if pair then s2.setSr k.val (pairReg r) (BitVec.ofInt 32 x.2) else s2).advance k.val

/-- SOUT. -/
def State.sout (s : State) (k : Core) (r : Sreg) (p : StreamP) : State :=
  let pair := s.soutComplex k p
  if pair ∧ r.val % 2 = 1 then s.raise k.val 1 0
  else if ¬ s.soutRouted k p then s.raise k.val 7 p.val
  else
    let l := mget fifoDef (s.core k.val).fout p.val
    if 16 ≤ l.length then s.stallCore k.val 3 (.sout r.val p.val)
    else
      let x := (op24 (s.sr k.val r), if pair then op24 (s.sr k.val (pairReg r)) else 0)
      (s.modCore k.val (fun c => { c with fout := mset fifoDef c.fout p.val (l ++ [x]) })).advance k.val

/-- The endpoint of a tap. -/
def tapEnd (x : TapSrc) : Nat :=
  match x with
  | .lane n => 0x9000 + n.val
  | .conv p => 0xA000 + p.val

/-- A tap's sample: a lane's is complex (R158). -/
def tapSample (x : TapSrc) (i q : BitVec 24) : Sample :=
  match x with
  | .lane _ => { re := i.toInt, im := q.toInt, cplx := true }
  | .conv _ => { re := i.toInt }

def execStreamSampleArrival (src : TapSrc) (re im : BitVec 24) (s : State) : Result :=
  .next (if s.seqMode then State.emit 50 s (tapEnd src) (tapSample src re im) else s)

/-! ### WAIT, RDCTL, WRCTL (R188, R189) -/

/-- WAIT. -/
def State.waitFor (s : State) (k : Core) (rd : Sreg) : State :=
  if s.seqEvents k.val ≠ 0 then s.retire k.val rd (BitVec.ofNat 32 (s.seqEvents k.val))
  else s.stallCore k.val 1 (.wait rd.val)

/-- The register of core k's own page that control index `i` names. -/
def ctlAddr (k : Core) (i : Cix) : Nat := 0x30000 + k.val * 256 + 4 * i.val

/-- RDCTL. -/
def State.rdctl (s : State) (k : Core) (rd : Sreg) (i : Cix) : State :=
  if i.val = 0x3F then s.retire k.val rd (s.reg PWR_MCYC)
  else if 0x11 < i.val then s.raise k.val 1 0
  else
    let r := s.readReg (.core k) (ctlAddr k i) .clean
    r.2.retire k.val rd (r.1.getD 0)

/-- WRCTL: an L core writes SEQ_EV and SEQ_TIMER alone. -/
def State.wrctl (s : State) (k : Core) (ra : Sreg) (i : Cix) : State :=
  if 0x11 < i.val ∧ i.val ≠ 0x3F then s.raise k.val 1 0
  else if s.lCore k.val ∧ i.val ≠ 7 ∧ i.val ≠ 8 then s.raise k.val 2 0
  else if i.val = 0x3F then s.advance k.val
  else (s.advance k.val).act (.core k) (ctlAddr k i) (s.sr k.val ra)

/-! ### SUPC, HRET, TRAP, SYNCI (R191 to R193, R180) -/

/-- SUPC: an L core calls its supervisor, and waits in CALL with its PC at the SUPC. -/
def State.supc (s : State) (k : Core) : State :=
  if ¬ s.lCore k.val then s.raise k.val 8 0
  else
    let s1 := foldState (List.range 4) (fun i t => t.setReg (SEQ_ARG k.val i) (t.sr k.val (Fin.ofNat 32 (i + 1)))) s
    (s1.put (SEQ_STAT.STATE k.val) 4).coreEvent (s1.get (SEQ_CFG.SUPER k.val)) 7

/-- HRET; an interrupt that the handler held is entered before the next instruction (R194). -/
def State.hret (s : State) (k : Core) : State :=
  if s.lCore k.val then s.raise k.val 2 0
  else ((s.setReg (SEQ_PC k.val) (s.reg (SEQ_EPC k.val))).putFlag (SEQ_STAT.INEXC k.val) false).takeIrq k.val

/-- SYNCI. -/
def State.synci (s : State) (k : Core) : State := (s.modCore k.val (fun c => { c with cache := [] })).advance k.val

end Sys2Proof.Machine
end

