-- ==== Sys2Proof/Machine/SeqRun.lean ====
section
/-! DEFINITION. Decoding a sequencer instruction, running it, CORE_WAKE and STEP (R181, R182, R188, R194, R195). -/

namespace Sys2Proof.Machine

/-! ### Decoding (R181, R182) -/

/-- The fields of an instruction word. -/
def wOp (w : Nat) : Nat := bits w 31 26
def wD (w : Nat) : Sreg := Fin.ofNat 32 (bits w 25 21)
def wA (w : Nat) : Sreg := Fin.ofNat 32 (bits w 20 16)
def wB (w : Nat) : Sreg := Fin.ofNat 32 (bits w 15 11)
def wImm (w : Nat) : Half := BitVec.ofNat 16 w
def wAd (w : Nat) : AccN := Fin.ofNat 4 (bits w 15 14)
def wAs (w : Nat) : AccN := Fin.ofNat 4 (bits w 13 12)
def wSh (w : Nat) : ShAmt := Fin.ofNat 32 (bits w 11 7)

/-- Bits `hi` to `lo` of the word are 0: a field that is not used. -/
def clearBits (w hi lo : Nat) : Bool := decide (bits w hi lo = 0)

/-- What an instruction does, given the core and the code of the SRAM word it reads. -/
abbrev Body := Core → Ecc → State → State

/-- OP 0x00. -/
def decodeAlu (w : Nat) : Option Body :=
  let go : (Word → Word → Word) → Option Body := fun op => some (fun k _ s => s.aluR k (wD w) (wA w) (wB w) op)
  match bits w 10 0 with
  | 0 => go (· + ·)
  | 1 => go (· - ·)
  | 2 => go (· &&& ·)
  | 3 => go (· ||| ·)
  | 4 => go (· ^^^ ·)
  | 5 => go opShl
  | 6 => go opShr
  | 7 => go opAsr
  | 8 => go opClt
  | 9 => go opCltu
  | 10 => go (· * ·)
  | 11 => go opMulhi
  | 12 => go opMulhiu
  | 13 => go opMin
  | 14 => go opMax
  | _ => none

/-- OP 0x07. -/
def decodeShift (w : Nat) : Option Body :=
  let go : (Word → Word → Word) → Option Body := fun op => some (fun k _ s => s.aluI k (wD w) (wA w) (BitVec.ofNat 32 (bits w 4 0)) op)
  if ¬ clearBits w 15 7 then none
  else
    match bits w 6 5 with
    | 0 => go opShl
    | 1 => go opShr
    | 2 => go opAsr
    | _ => none

/-- OP 0x18: each FN with the fields it does not use. -/
def decodeAcc (w : Nat) : Option Body :=
  let no : Bool → Body → Option Body := fun ok b => if ok then some b else none
  let r1 := clearBits w 25 21
  let r2 := clearBits w 20 16
  let ad := clearBits w 15 14
  let as := clearBits w 13 12
  let sh := clearBits w 11 7
  match bits w 6 0 with
  | 0 => no (as && sh) (fun k _ s => s.mula k (wD w) (wA w) (wAd w))
  | 1 => no (as && sh) (fun k _ s => s.mac k (wD w) (wA w) (wAd w))
  | 2 => no (as && sh) (fun k _ s => s.msu k (wD w) (wA w) (wAd w))
  | 3 => no (r2 && as && sh) (fun k _ s => s.mta k (wD w) (wAd w))
  | 4 => no (r2 && ad) (fun k _ s => s.mfa k (wD w) (wAs w) (wSh w))
  | 5 => no (r2 && ad && sh) (fun k _ s => s.mfal k (wD w) (wAs w))
  | 6 => no (r2 && ad && sh) (fun k _ s => s.mfau k (wD w) (wAs w))
  | 7 => no (r1 && r2 && as && sh) (fun k _ s => s.putAcc k (wAd w) 0)
  | 8 => no (as && sh) (fun k _ s => s.pset k (wD w) (wA w) (wAd w))
  | 9 => no (r1 && r2 && sh) (fun k _ s => s.padd k (wAd w) (wAs w))
  | 10 => no (r1 && r2 && sh) (fun k _ s => s.psub k (wAd w) (wAs w))
  | 11 => no (r2 && as && sh) (fun k _ s => s.pscl k (wD w) (wAd w))
  | 12 => no (r2 && ad && sh) (fun k _ s => s.pgeth k (wD w) (wAs w))
  | 13 => no (r2 && ad && sh) (fun k _ s => s.pgetl k (wD w) (wAs w))
  | 14 => no (r1 && r2 && sh) (fun k _ s => s.putAcc k (wAd w) (s.acc k.val (wAs w)))
  | _ => none

/-- OP 0x1C. -/
def decodeQueue (w : Nat) : Option Body :=
  if ¬ clearBits w 10 4 then none
  else
    match bits w 3 0 with
    | 0 => some (fun k e s => s.qget k (wD w) (s.qreg k (wA w)) (s.qaddr k (wB w)) false e)
    | 1 => some (fun k e s => s.qget k (wD w) (s.qreg k (wA w)) (s.qaddr k (wB w)) true e)
    | 2 => some (fun k e s => s.qtry k (wD w) (s.qreg k (wA w)) (s.qaddr k (wB w)) e)
    | 3 => some (fun k e s => s.qput k (wD w) (s.qreg k (wA w)) (s.qaddr k (wB w)) e)
    | 4 => if clearBits w 15 11 then some (fun k _ s => s.qrew k (wD w) (wA w)) else none
    | 5 => if clearBits w 15 11 then some (fun k _ s => s.qlvl k (wD w) (wA w)) else none
    | _ => none

/-- OP 0x1D. -/
def decodeStream (w : Nat) : Option Body :=
  let p : StreamP := Fin.ofNat 4 (bits w 17 16)
  if ¬ (clearBits w 20 18 && clearBits w 15 4) then none
  else
    match bits w 3 0 with
    | 0 => some (fun k _ s => s.sin k (wD w) p)
    | 1 => some (fun k _ s => s.sout k (wD w) p)
    | _ => none

/-- OP 0x1E. -/
def decodeSys (w : Nat) : Option Body :=
  let i : Cix := Fin.ofNat 64 (bits w 15 10)
  let d := clearBits w 25 21
  let a := clearBits w 20 16
  let c := clearBits w 15 10
  let no : Bool → Body → Option Body := fun ok b => if ok then some b else none
  if ¬ clearBits w 9 4 then none
  else
    match bits w 3 0 with
    | 0 => no (a && c) (fun k _ s => s.waitFor k (wD w))
    | 1 => no a (fun k _ s => s.rdctl k (wD w) i)
    | 2 => no d (fun k _ s => s.wrctl k (wA w) i)
    | 3 => no (d && a && c) (fun k _ s => s.supc k)
    | 4 => no (d && a && c) (fun k _ s => s.hret k)
    | 5 => no (d && a && c) (fun k _ s => s.raise k.val 9 0)
    | 6 => no (d && a && c) (fun k _ s => s.synci k)
    | _ => none

/-- A hop of the B format: RA is [25:21], RB is [20:16]. -/
def decodeHop (w : Nat) (c : Word → Word → Bool) : Option Body := some (fun k _ s => s.hop k (wD w) (wA w) (wImm w) c)

/-- The instruction that a word spells; none is ILLEGAL. -/
def seqDecode (w : Nat) : Option Body :=
  match wOp w with
  | 0x00 => decodeAlu w
  | 0x01 => some (fun k _ s => s.aluI k (wD w) (wA w) (sext (wImm w)) (· + ·))
  | 0x02 => some (fun k _ s => s.aluI k (wD w) (wA w) (zext (wImm w)) (· &&& ·))
  | 0x03 => some (fun k _ s => s.aluI k (wD w) (wA w) (zext (wImm w)) (· ||| ·))
  | 0x04 => some (fun k _ s => s.aluI k (wD w) (wA w) (zext (wImm w)) (· ^^^ ·))
  | 0x05 => some (fun k _ s => s.aluI k (wD w) (wA w) (sext (wImm w)) opClt)
  | 0x06 => if clearBits w 20 16 then some (fun k _ s => s.lih k (wD w) (wImm w)) else none
  | 0x07 => decodeShift w
  | 0x08 => some (fun k e s => s.load k (wD w) (wA w) (wImm w) 4 e)
  | 0x09 => some (fun k e s => s.load k (wD w) (wA w) (wImm w) 2 e)
  | 0x0A => some (fun k e s => s.load k (wD w) (wA w) (wImm w) 1 e)
  | 0x0B => some (fun k _ s => s.store k (wD w) (wA w) (wImm w) 4)
  | 0x0C => some (fun k _ s => s.store k (wD w) (wA w) (wImm w) 2)
  | 0x0D => some (fun k _ s => s.store k (wD w) (wA w) (wImm w) 1)
  | 0x10 => decodeHop w ifEq
  | 0x11 => decodeHop w ifNe
  | 0x12 => decodeHop w ifLt
  | 0x13 => decodeHop w ifLe
  | 0x14 => decodeHop w ifLtu
  | 0x15 => decodeHop w ifLeu
  | 0x16 => some (fun k _ s => s.call k (BitVec.ofNat 26 w))
  | 0x17 => some (fun k _ s => s.jmpr k (wD w) (wA w) (wImm w))
  | 0x18 => decodeAcc w
  | 0x1C => decodeQueue w
  | 0x1D => decodeStream w
  | 0x1E => decodeSys w
  | _ => none

/-! ### CORE_WAKE (R151, R188) -/

/-- The core runs the instruction it stands at once more. -/
def State.unstall (s : State) (k : Nat) : State :=
  (s.put (SEQ_STAT.STATE k) 0).modCore k (fun c => { c with stall := .none })

/-- The instruction that core k stalled at is executed again from its start, and stalls again if nothing is there. -/
def State.again (s : State) (k : Core) (e : Ecc) : State :=
  match (s.core k.val).stall with
  | .none => s
  | .wait rd => (s.unstall k.val).waitFor k (Fin.ofNat 32 rd)
  | .qget rd q a events => (s.unstall k.val).qget k (Fin.ofNat 32 rd) q a events e
  | .sin r p => (s.unstall k.val).sin k (Fin.ofNat 32 r) (Fin.ofNat 4 p)
  | .sout r p => ((s.unstall k.val).drainPort k.val p).sout k (Fin.ofNat 32 r) (Fin.ofNat 4 p)

/-- What releases core k has arrived; an interrupt for which 6 instructions have retired is entered first (R194). -/
def State.wakeCore (s : State) (k : Core) (e : Ecc) : State :=
  let s1 := s.irqFirst k.val
  if s1.coreState k.val = 0 ∨ 3 < s1.coreState k.val then s1 else (s1.again k e).irqCount k.val

def execCoreWake (k : Core) (ecc : Ecc) (s : State) : Result :=
  .next (if s.seqMode ∧ 1 ≤ s.coreState k.val ∧ s.coreState k.val ≤ 3 then s.wakeCore k ecc else s)

/-! ### Running an instruction, and STEP (R195) -/

/-- Core k, in RUN, fetches the word at its PC and does with it what `g` says, around it what R194 has an interrupt do. -/
def State.fetchRun (s : State) (k : Core) (g : Word → State → State) : State :=
  let s1 := s.irqFirst k.val
  if s1.coreState k.val ≠ 0 then s1
  else
    match s1.fetch k with
    | (none, t) => t
    | (some w, t) => (g w t).irqCount k.val

/-- What the word does; one that spells no instruction raises ILLEGAL. -/
def State.perform (s : State) (k : Core) (e : Ecc) (w : Word) : State :=
  match seqDecode w.toNat with
  | none => s.raise k.val 1 0
  | some f => f k e s

/-- The command of the instruction that the word `w` spells, with effect `f`. A core that does not run does nothing; one that runs
executes what stands at its PC, which is `f` where that word is `w` (log 18). -/
def State.instr (s : State) (k : Core) (w : Nat) (e : Ecc) (f : State → State) : State :=
  if ¬ s.coreRuns k.val then s else s.fetchRun k (fun x t => if x.toNat = w then f t else t.perform k e x)

/-- A running core executes the instruction that stands at its PC. -/
def State.runWord (s : State) (k : Core) (e : Ecc) : State := s.fetchRun k (fun w t => t.perform k e w)

/-- A halted core executes one instruction and halts again; an exception is entered first. -/
def State.stepCore (s : State) (k : Core) (e : Ecc) : State :=
  let s1 := s.modCore k.val (fun c => { c with step := false })
  if s1.coreHalted k.val && s1.seqMode then ((s1.put (SEQ_STAT.STATE k.val) 0).runWord k e).halt k.val else s1

def execStep (who : Accessor) (k : Core) (ecc : Ecc) (s : State) : Result :=
  .next (s.enter who (SEQ_CTL k.val) (fun t => t.stepCore k ecc))

/-- The cores that a register write told to step do so. -/
def State.pendingSteps (s : State) : State :=
  foldState ((List.finRange 32).filter (fun k => (s.core k.val).step)) (fun k t => t.stepCore k .clean) s

end Sys2Proof.Machine
end

