-- ==== Sys2Proof/Machine/HostPort.lean ====
section
/-! DEFINITION. Transfers of the host port (R199, R345 to R348, R368): READ and WRITE bursts and STATUS. -/

namespace Sys2Proof.Machine

/-! ### Addresses of a burst -/

/-- A burst to this address stays there: QP_WIN_DATA of a window, and FAB_PUSH (R199). -/
def stays (a : Nat) : Bool := decide (a = FAB_PUSH ∨ (0x60400 ≤ a ∧ a < 0x60800 ∧ a % 16 = 4))

/-- Address of word i of a burst to `a`: it wraps in the 32-bit address space. -/
def burstAddr (a i : Nat) : Nat := if stays a then a else (a + 4 * i) % 2 ^ 32

/-- The lead reaches the follower through the mirror (R348). -/
def State.mirrorUp (s : State) : Bool := decide (s.role = 1 ∧ s.mode = 7) && s.linkUp

/-! ### Reads -/

/-- One word of a READ: its value, none where the read waits (R151), and the state after. `e` is the code of the SRAM word it
meets, `m` the word that the other unit answers. -/
def State.readHost (s : State) (a : Nat) (e : Ecc) (m : Word) : Option Word × State :=
  if inMirror a then
    if s.mirrorUp then (some m, s.post (.mirror (BitVec.ofNat 32 a) none))
    else (some 0, s.refuse .host a stNotPermitted)
  else if inSram a then let r := s.readSram a e; (some r.1, r.2)
  else if isReg .host a then s.readReg .host a e
  else (some 0, s.refuse .host a stNotPermitted)

/-- The words of a READ from word i on. A part-0 read that must wait ends the burst in this command: WIN_DATA_READ or
WIN_EMPTY_TIMEOUT gives its word. -/
def State.readWords (s : State) (a n i : Nat) (eccs : List Ecc) (mirror : List Word) (out : List Word) : List Word × State :=
  match n with
  | 0 => (out, s)
  | n + 1 =>
    let b := burstAddr a i
    match s.readHost b (nth .clean eccs i) (nth 0 mirror i) with
    | (some v, t) => State.readWords t a n (i + 1) eccs mirror (out ++ [v])
    | (none, t) => (out, t.setWait ((List.range 64).find? (fun w => b = QP_WIN_DATA w)))

/-- A further word begun and cut short: a queue window's part is consumed, nothing else happens. -/
def State.readCut (s : State) (a i : Nat) (eccs : List Ecc) : State :=
  let b := burstAddr a i
  if 0x60400 ≤ b ∧ b < 0x60800 ∧ b % 16 = 4 then
    match s.readReg .host b (nth .clean eccs i) with
    | (_, t) => t
  else s

/-- What the host port drove in the last transfer. -/
def State.drive (s : State) (l : List Word) : State := { s with hp := { s.hp with out := l } }

/-- A transfer that is ignored (R199). -/
def State.protoErr (s : State) : State := s.putFlag HP_STAT.PROTO_ERR true

def execRead (addr : Word) (count : Nat) (eccs : List Ecc) (mirror : List Word) (cut : Bool) (s : State) : Result :=
  .next (
    let a := addr.toNat
    if ¬ s.reads .host then s
    else if a % 4 ≠ 0 then (s.protoErr).drive (List.replicate count 0)
    else
      let r := s.readWords a count 0 eccs mirror []
      let t := if cut && r.2.hp.wait.isNone then r.2.readCut a count eccs else r.2
      t.drive r.1)

/-! ### Writes -/

/-- One word of a WRITE. -/
def State.writeHost (s : State) (a : Nat) (v : Word) : State :=
  if inMirror a then
    if s.mirrorUp then s.post (.mirror (BitVec.ofNat 32 a) (some v))
    else if s.reach .host then s.refuse .host a stNotPermitted else s
  else if inSram a then (if s.reach .host then s.writeSram a v else s)
  else if isReg .host a then (s.regWrite .host a v).pendingSteps
  else if s.reach .host then s.hostHole a true else s

/-- The words of a WRITE from word i on. -/
def State.writeWords (s : State) (a i : Nat) (l : List Word) : State :=
  match l with
  | [] => s
  | v :: t => State.writeWords (if s.awake then s.writeHost (burstAddr a i) v else s) a (i + 1) t

def execWrite (addr : Word) (words : List Word) (s : State) : Result :=
  .next (
    let a := addr.toNat
    if ¬ s.awake then s
    else if a % 4 ≠ 0 then s.protoErr
    else if s.follower ∧ ¬ (s.al.healedNow ∧ a = AL_CTL) then s
    else s.writeWords a 0 words)

/-! ### STATUS -/

/-- HP_STAT as it reads. -/
def State.hpStat (s : State) : Word := withField (s.reg HP_STAT) HP_STAT.OUTST s.hp.outst.length

/-- STATUS sends HP_STAT in every word; another command, and an address that is not a multiple of 4, is ignored, and reads 0 (R199).
READ and WRITE have commands of their own. -/
def execStatus (cmd : Byte) (addr : Word) (count : Nat) (s : State) : Result :=
  .next (
    if ¬ s.awake ∨ cmd = 0x0B#8 ∨ cmd = 0x02#8 then s
    else if cmd = 0x05#8 ∧ addr.toNat % 4 = 0 then s.drive (List.replicate count s.hpStat)
    else (s.protoErr).drive (List.replicate count 0))

end Sys2Proof.Machine
end

