-- ==== Sys2Proof/Machine/SeqInstr.lean ====
section
/-! DEFINITION. The command of each sequencer instruction: the word that R181 to R186 give it, and its effect (R182 to R193). -/

namespace Sys2Proof.Machine

/-! ### Formats (R181) -/

/-- Format R. -/
def wordR (fn : Nat) (rd ra rb : Sreg) : Nat := rd.val * 2 ^ 21 + ra.val * 2 ^ 16 + rb.val * 2 ^ 11 + fn
/-- Formats I and B: two register numbers and a halfword. -/
def wordI (op : Nat) (x y : Sreg) (imm : Half) : Nat := op * 2 ^ 26 + x.val * 2 ^ 21 + y.val * 2 ^ 16 + imm.toNat
/-- SHK with an operation and a shift count. -/
def wordShk (op : Nat) (rd ra : Sreg) (sh : ShAmt) : Nat := 0x07 * 2 ^ 26 + rd.val * 2 ^ 21 + ra.val * 2 ^ 16 + op * 2 ^ 5 + sh.val
/-- Format A. -/
def wordA (fn : Nat) (r1 r2 : Sreg) (ad src : AccN) (sh : ShAmt) : Nat :=
  0x18 * 2 ^ 26 + r1.val * 2 ^ 21 + r2.val * 2 ^ 16 + ad.val * 2 ^ 14 + src.val * 2 ^ 12 + sh.val * 2 ^ 7 + fn
/-- Format Q. -/
def wordQ (fn : Nat) (rd ra rb : Sreg) : Nat := 0x1C * 2 ^ 26 + rd.val * 2 ^ 21 + ra.val * 2 ^ 16 + rb.val * 2 ^ 11 + fn
/-- Format T. -/
def wordT (fn : Nat) (r : Sreg) (p : StreamP) : Nat := 0x1D * 2 ^ 26 + r.val * 2 ^ 21 + p.val * 2 ^ 16 + fn
/-- Format Y. -/
def wordY (fn : Nat) (rd ra : Sreg) (i : Cix) : Nat := 0x1E * 2 ^ 26 + rd.val * 2 ^ 21 + ra.val * 2 ^ 16 + i.val * 2 ^ 10 + fn

/-! ### Integer operations, hops and accumulators (R182, R183) -/

def execAdd (k : Core) (rd ra rb : Sreg) (s : State) : Result :=
  .next (s.instr k (wordR 0 rd ra rb) .clean (fun t => t.aluR k rd ra rb (· + ·)))
def execSub (k : Core) (rd ra rb : Sreg) (s : State) : Result :=
  .next (s.instr k (wordR 1 rd ra rb) .clean (fun t => t.aluR k rd ra rb (· - ·)))
def execAnd (k : Core) (rd ra rb : Sreg) (s : State) : Result :=
  .next (s.instr k (wordR 2 rd ra rb) .clean (fun t => t.aluR k rd ra rb (· &&& ·)))
def execOr (k : Core) (rd ra rb : Sreg) (s : State) : Result :=
  .next (s.instr k (wordR 3 rd ra rb) .clean (fun t => t.aluR k rd ra rb (· ||| ·)))
def execXor (k : Core) (rd ra rb : Sreg) (s : State) : Result :=
  .next (s.instr k (wordR 4 rd ra rb) .clean (fun t => t.aluR k rd ra rb (· ^^^ ·)))
def execShl (k : Core) (rd ra rb : Sreg) (s : State) : Result :=
  .next (s.instr k (wordR 5 rd ra rb) .clean (fun t => t.aluR k rd ra rb opShl))
def execShr (k : Core) (rd ra rb : Sreg) (s : State) : Result :=
  .next (s.instr k (wordR 6 rd ra rb) .clean (fun t => t.aluR k rd ra rb opShr))
def execAsr (k : Core) (rd ra rb : Sreg) (s : State) : Result :=
  .next (s.instr k (wordR 7 rd ra rb) .clean (fun t => t.aluR k rd ra rb opAsr))
def execClt (k : Core) (rd ra rb : Sreg) (s : State) : Result :=
  .next (s.instr k (wordR 8 rd ra rb) .clean (fun t => t.aluR k rd ra rb opClt))
def execCltu (k : Core) (rd ra rb : Sreg) (s : State) : Result :=
  .next (s.instr k (wordR 9 rd ra rb) .clean (fun t => t.aluR k rd ra rb opCltu))
def execMul (k : Core) (rd ra rb : Sreg) (s : State) : Result :=
  .next (s.instr k (wordR 10 rd ra rb) .clean (fun t => t.aluR k rd ra rb (· * ·)))
def execMulhi (k : Core) (rd ra rb : Sreg) (s : State) : Result :=
  .next (s.instr k (wordR 11 rd ra rb) .clean (fun t => t.aluR k rd ra rb opMulhi))
def execMulhiu (k : Core) (rd ra rb : Sreg) (s : State) : Result :=
  .next (s.instr k (wordR 12 rd ra rb) .clean (fun t => t.aluR k rd ra rb opMulhiu))
def execMin (k : Core) (rd ra rb : Sreg) (s : State) : Result :=
  .next (s.instr k (wordR 13 rd ra rb) .clean (fun t => t.aluR k rd ra rb opMin))
def execMax (k : Core) (rd ra rb : Sreg) (s : State) : Result :=
  .next (s.instr k (wordR 14 rd ra rb) .clean (fun t => t.aluR k rd ra rb opMax))
def execAddk (k : Core) (rd ra : Sreg) (imm : Half) (s : State) : Result :=
  .next (s.instr k (wordI 0x01 rd ra imm) .clean (fun t => t.aluI k rd ra (sext imm) (· + ·)))
def execAndk (k : Core) (rd ra : Sreg) (imm : Half) (s : State) : Result :=
  .next (s.instr k (wordI 0x02 rd ra imm) .clean (fun t => t.aluI k rd ra (zext imm) (· &&& ·)))
def execOrk (k : Core) (rd ra : Sreg) (imm : Half) (s : State) : Result :=
  .next (s.instr k (wordI 0x03 rd ra imm) .clean (fun t => t.aluI k rd ra (zext imm) (· ||| ·)))
def execXork (k : Core) (rd ra : Sreg) (imm : Half) (s : State) : Result :=
  .next (s.instr k (wordI 0x04 rd ra imm) .clean (fun t => t.aluI k rd ra (zext imm) (· ^^^ ·)))
def execCltk (k : Core) (rd ra : Sreg) (imm : Half) (s : State) : Result :=
  .next (s.instr k (wordI 0x05 rd ra imm) .clean (fun t => t.aluI k rd ra (sext imm) opClt))
def execLih (k : Core) (rd : Sreg) (imm : Half) (s : State) : Result :=
  .next (s.instr k (wordI 0x06 rd 0 imm) .clean (fun t => t.lih k rd imm))
def execShlk (k : Core) (rd ra : Sreg) (sh : ShAmt) (s : State) : Result :=
  .next (s.instr k (wordShk 0 rd ra sh) .clean (fun t => t.aluI k rd ra (BitVec.ofNat 32 sh.val) opShl))
def execShrk (k : Core) (rd ra : Sreg) (sh : ShAmt) (s : State) : Result :=
  .next (s.instr k (wordShk 1 rd ra sh) .clean (fun t => t.aluI k rd ra (BitVec.ofNat 32 sh.val) opShr))
def execAsrk (k : Core) (rd ra : Sreg) (sh : ShAmt) (s : State) : Result :=
  .next (s.instr k (wordShk 2 rd ra sh) .clean (fun t => t.aluI k rd ra (BitVec.ofNat 32 sh.val) opAsr))
def execHeq (k : Core) (ra rb : Sreg) (off : Half) (s : State) : Result :=
  .next (s.instr k (wordI 0x10 ra rb off) .clean (fun t => t.hop k ra rb off ifEq))
def execHne (k : Core) (ra rb : Sreg) (off : Half) (s : State) : Result :=
  .next (s.instr k (wordI 0x11 ra rb off) .clean (fun t => t.hop k ra rb off ifNe))
def execHlt (k : Core) (ra rb : Sreg) (off : Half) (s : State) : Result :=
  .next (s.instr k (wordI 0x12 ra rb off) .clean (fun t => t.hop k ra rb off ifLt))
def execHle (k : Core) (ra rb : Sreg) (off : Half) (s : State) : Result :=
  .next (s.instr k (wordI 0x13 ra rb off) .clean (fun t => t.hop k ra rb off ifLe))
def execHltu (k : Core) (ra rb : Sreg) (off : Half) (s : State) : Result :=
  .next (s.instr k (wordI 0x14 ra rb off) .clean (fun t => t.hop k ra rb off ifLtu))
def execHleu (k : Core) (ra rb : Sreg) (off : Half) (s : State) : Result :=
  .next (s.instr k (wordI 0x15 ra rb off) .clean (fun t => t.hop k ra rb off ifLeu))
def execCall (k : Core) (off : Off26) (s : State) : Result := .next (s.instr k (0x16 * 2 ^ 26 + off.toNat) .clean (fun t => t.call k off))
def execJmpr (k : Core) (rd ra : Sreg) (imm : Half) (s : State) : Result :=
  .next (s.instr k (wordI 0x17 rd ra imm) .clean (fun t => t.jmpr k rd ra imm))
def execMula (k : Core) (r1 r2 : Sreg) (ad : AccN) (s : State) : Result :=
  .next (s.instr k (wordA 0 r1 r2 ad 0 0) .clean (fun t => t.mula k r1 r2 ad))
def execMac (k : Core) (r1 r2 : Sreg) (ad : AccN) (s : State) : Result :=
  .next (s.instr k (wordA 1 r1 r2 ad 0 0) .clean (fun t => t.mac k r1 r2 ad))
def execMsu (k : Core) (r1 r2 : Sreg) (ad : AccN) (s : State) : Result :=
  .next (s.instr k (wordA 2 r1 r2 ad 0 0) .clean (fun t => t.msu k r1 r2 ad))
def execMta (k : Core) (r1 : Sreg) (ad : AccN) (s : State) : Result :=
  .next (s.instr k (wordA 3 r1 0 ad 0 0) .clean (fun t => t.mta k r1 ad))
def execMfa (k : Core) (r1 : Sreg) (src : AccN) (sh : ShAmt) (s : State) : Result :=
  .next (s.instr k (wordA 4 r1 0 0 src sh) .clean (fun t => t.mfa k r1 src sh))
def execMfal (k : Core) (r1 : Sreg) (src : AccN) (s : State) : Result :=
  .next (s.instr k (wordA 5 r1 0 0 src 0) .clean (fun t => t.mfal k r1 src))
def execMfau (k : Core) (r1 : Sreg) (src : AccN) (s : State) : Result :=
  .next (s.instr k (wordA 6 r1 0 0 src 0) .clean (fun t => t.mfau k r1 src))
def execAclr (k : Core) (ad : AccN) (s : State) : Result := .next (s.instr k (wordA 7 0 0 ad 0 0) .clean (fun t => t.putAcc k ad 0))
def execPset (k : Core) (r1 r2 : Sreg) (ad : AccN) (s : State) : Result :=
  .next (s.instr k (wordA 8 r1 r2 ad 0 0) .clean (fun t => t.pset k r1 r2 ad))
def execPadd (k : Core) (ad src : AccN) (s : State) : Result := .next (s.instr k (wordA 9 0 0 ad src 0) .clean (fun t => t.padd k ad src))
def execPsub (k : Core) (ad src : AccN) (s : State) : Result := .next (s.instr k (wordA 10 0 0 ad src 0) .clean (fun t => t.psub k ad src))
def execPscl (k : Core) (r1 : Sreg) (ad : AccN) (s : State) : Result :=
  .next (s.instr k (wordA 11 r1 0 ad 0 0) .clean (fun t => t.pscl k r1 ad))
def execPgeth (k : Core) (r1 : Sreg) (src : AccN) (s : State) : Result :=
  .next (s.instr k (wordA 12 r1 0 0 src 0) .clean (fun t => t.pgeth k r1 src))
def execPgetl (k : Core) (r1 : Sreg) (src : AccN) (s : State) : Result :=
  .next (s.instr k (wordA 13 r1 0 0 src 0) .clean (fun t => t.pgetl k r1 src))
def execAmov (k : Core) (ad src : AccN) (s : State) : Result :=
  .next (s.instr k (wordA 14 0 0 ad src 0) .clean (fun t => t.putAcc k ad (t.acc k.val src)))

/-! ### Memory, queues, streams and the system (R184 to R193) -/

def execLdw (k : Core) (rd ra : Sreg) (imm : Half) (ecc : Ecc) (s : State) : Result :=
  .next (s.instr k (wordI 0x08 rd ra imm) ecc (fun t => t.load k rd ra imm 4 ecc))
def execLdh (k : Core) (rd ra : Sreg) (imm : Half) (ecc : Ecc) (s : State) : Result :=
  .next (s.instr k (wordI 0x09 rd ra imm) ecc (fun t => t.load k rd ra imm 2 ecc))
def execLdb (k : Core) (rd ra : Sreg) (imm : Half) (ecc : Ecc) (s : State) : Result :=
  .next (s.instr k (wordI 0x0A rd ra imm) ecc (fun t => t.load k rd ra imm 1 ecc))
def execStw (k : Core) (rd ra : Sreg) (imm : Half) (s : State) : Result :=
  .next (s.instr k (wordI 0x0B rd ra imm) .clean (fun t => t.store k rd ra imm 4))
def execSth (k : Core) (rd ra : Sreg) (imm : Half) (s : State) : Result :=
  .next (s.instr k (wordI 0x0C rd ra imm) .clean (fun t => t.store k rd ra imm 2))
def execStb (k : Core) (rd ra : Sreg) (imm : Half) (s : State) : Result :=
  .next (s.instr k (wordI 0x0D rd ra imm) .clean (fun t => t.store k rd ra imm 1))
def execQget (k : Core) (rd ra rb : Sreg) (ecc : Ecc) (s : State) : Result :=
  .next (s.instr k (wordQ 0 rd ra rb) ecc (fun t => t.qget k rd (t.qreg k ra) (t.qaddr k rb) false ecc))
def execQgete (k : Core) (rd ra rb : Sreg) (ecc : Ecc) (s : State) : Result :=
  .next (s.instr k (wordQ 1 rd ra rb) ecc (fun t => t.qget k rd (t.qreg k ra) (t.qaddr k rb) true ecc))
def execQtry (k : Core) (rd ra rb : Sreg) (ecc : Ecc) (s : State) : Result :=
  .next (s.instr k (wordQ 2 rd ra rb) ecc (fun t => t.qtry k rd (t.qreg k ra) (t.qaddr k rb) ecc))
def execQput (k : Core) (rd ra rb : Sreg) (ecc : Ecc) (s : State) : Result :=
  .next (s.instr k (wordQ 3 rd ra rb) ecc (fun t => t.qput k rd (t.qreg k ra) (t.qaddr k rb) ecc))
def execQrew (k : Core) (rd ra : Sreg) (s : State) : Result := .next (s.instr k (wordQ 4 rd ra 0) .clean (fun t => t.qrew k rd ra))
def execQlvl (k : Core) (rd ra : Sreg) (s : State) : Result := .next (s.instr k (wordQ 5 rd ra 0) .clean (fun t => t.qlvl k rd ra))
def execSin (k : Core) (r : Sreg) (port : StreamP) (s : State) : Result :=
  .next (s.instr k (wordT 0 r port) .clean (fun t => t.sin k r port))
def execSout (k : Core) (r : Sreg) (port : StreamP) (s : State) : Result :=
  .next (s.instr k (wordT 1 r port) .clean (fun t => t.sout k r port))
def execWait (k : Core) (rd : Sreg) (s : State) : Result := .next (s.instr k (wordY 0 rd 0 0) .clean (fun t => t.waitFor k rd))
def execRdctl (k : Core) (rd : Sreg) (cix : Cix) (s : State) : Result :=
  .next (s.instr k (wordY 1 rd 0 cix) .clean (fun t => t.rdctl k rd cix))
def execWrctl (k : Core) (ra : Sreg) (cix : Cix) (s : State) : Result :=
  .next (s.instr k (wordY 2 0 ra cix) .clean (fun t => t.wrctl k ra cix))
def execSupc (k : Core) (s : State) : Result := .next (s.instr k (wordY 3 0 0 0) .clean (fun t => t.supc k))
def execHret (k : Core) (s : State) : Result := .next (s.instr k (wordY 4 0 0 0) .clean (fun t => t.hret k))
def execTrap (k : Core) (s : State) : Result := .next (s.instr k (wordY 5 0 0 0) .clean (fun t => t.raise k.val 9 0))
def execSynci (k : Core) (s : State) : Result := .next (s.instr k (wordY 6 0 0 0) .clean (fun t => t.synci k))

end Sys2Proof.Machine
end

