-- ==== Sys2Proof/Machine/Dispatch.lean ====
section
/-! DEFINITION. The dispatch: one arm per command. -/

namespace Sys2Proof.Machine

/-- The effect of a command on everything but the queue of waiting commands. -/
def exec (i : Instr) (s : State) : Host.Outcome State Fault Refusal :=
  match i with
  | .registerWrite who addr value => Sys2Proof.Machine.execRegisterWrite who addr value s
  | .holeAccess who addr isWrite => Sys2Proof.Machine.execHoleAccess who addr isWrite s
  | .rcCounterRead who addr => Sys2Proof.Machine.execRcCounterRead who addr s
  | .seqLpendRead who k => Sys2Proof.Machine.execSeqLpendRead who k s
  | .rtcRead who => Sys2Proof.Machine.execRtcRead who s
  | .swapRequest who p value => Sys2Proof.Machine.execSwapRequest who p value s
  | .fadeComplete p => Sys2Proof.Machine.execFadeComplete p s
  | .coefWrite who p value => Sys2Proof.Machine.execCoefWrite who p value s
  | .coefRead who p => Sys2Proof.Machine.execCoefRead who p s
  | .slotBoundary p old m => Sys2Proof.Machine.execSlotBoundary p old m s
  | .cancReset who p value => Sys2Proof.Machine.execCancReset who p value s
  | .pgaTagArrival n code withDetect => Sys2Proof.Machine.execPgaTagArrival n code withDetect s
  | .txenAssert p => Sys2Proof.Machine.execTxenAssert p s
  | .txenTailExpiry p => Sys2Proof.Machine.execTxenTailExpiry p s
  | .overcurrent p mag samples => Sys2Proof.Machine.execOvercurrent p mag samples s
  | .zprobeStart who p value => Sys2Proof.Machine.execZprobeStart who p value s
  | .zprobeDone p vm im phase => Sys2Proof.Machine.execZprobeDone p vm im phase s
  | .preambleDetect n power levels => Sys2Proof.Machine.execPreambleDetect n power levels s
  | .fofsLoad n fofs => Sys2Proof.Machine.execFofsLoad n fofs s
  | .syncSearchTimeout n => Sys2Proof.Machine.execSyncSearchTimeout n s
  | .syncDetect n main shadow => Sys2Proof.Machine.execSyncDetect n main shadow s
  | .shadowSyncDetect n y gain => Sys2Proof.Machine.execShadowSyncDetect n y gain s
  | .headerEnd n ys => Sys2Proof.Machine.execHeaderEnd n ys s
  | .decodeDispatch tile => Sys2Proof.Machine.execDecodeDispatch tile s
  | .headerDecodeDone tile => Sys2Proof.Machine.execHeaderDecodeDone tile s
  | .payloadEnd n ys snr => Sys2Proof.Machine.execPayloadEnd n ys snr s
  | .payloadDecodeDone tile => Sys2Proof.Machine.execPayloadDecodeDone tile s
  | .laneEnable who n value => Sys2Proof.Machine.execLaneEnable who n value s
  | .mainsZeroCrossing p t => Sys2Proof.Machine.execMainsZeroCrossing p t s
  | .crossingMissed p => Sys2Proof.Machine.execCrossingMissed p s
  | .portCycleStart p => Sys2Proof.Machine.execPortCycleStart p s
  | .maskArm who n value => Sys2Proof.Machine.execMaskArm who n value s
  | .nmapClear who p value => Sys2Proof.Machine.execNmapClear who p value s
  | .nmapDataRead who p => Sys2Proof.Machine.execNmapDataRead who p s
  | .allocationPoint p => Sys2Proof.Machine.execAllocationPoint p s
  | .txItemHeadCheck n => Sys2Proof.Machine.execTxItemHeadCheck n s
  | .txFrameStart p ctx => Sys2Proof.Machine.execTxFrameStart p ctx s
  | .txFrameEnd p ctx => Sys2Proof.Machine.execTxFrameEnd p ctx s
  | .laneBlockEnd p k => Sys2Proof.Machine.execLaneBlockEnd p k s
  | .linkRxData => Sys2Proof.Machine.execLinkRxData s
  | .linkRxAck => Sys2Proof.Machine.execLinkRxAck s
  | .joinReqRx => Sys2Proof.Machine.execJoinReqRx s
  | .joinAckLate p => Sys2Proof.Machine.execJoinAckLate p s
  | .echoForwardRx => Sys2Proof.Machine.execEchoForwardRx s
  | .ackTimeout tag => Sys2Proof.Machine.execAckTimeout tag s
  | .retryBackoffEnd tag p => Sys2Proof.Machine.execRetryBackoffEnd tag p s
  | .epochRaise who value => Sys2Proof.Machine.execEpochRaise who value s
  | .registryWord0Write addr value => Sys2Proof.Machine.execRegistryWord0Write addr value s
  | .lpJoinWrite who p value => Sys2Proof.Machine.execLpJoinWrite who p value s
  | .meteringCycleEnd v t => Sys2Proof.Machine.execMeteringCycleEnd v t s
  | .forcedCycleBoundary f => Sys2Proof.Machine.execForcedCycleBoundary f s
  | .syncResetWrite who value => Sys2Proof.Machine.execSyncResetWrite who value s
  | .syncMInput rising => Sys2Proof.Machine.execSyncMInput rising s
  | .synchronisingReset => Sys2Proof.Machine.execSynchronisingReset s
  | .settleEnd => Sys2Proof.Machine.execSettleEnd s
  | .fineqWordWrite c => Sys2Proof.Machine.execFineqWordWrite c s
  | .mtSnapshotRead who f => Sys2Proof.Machine.execMtSnapshotRead who f s
  | .balReportPacket => Sys2Proof.Machine.execBalReportPacket s
  | .balResultCommit => Sys2Proof.Machine.execBalResultCommit s
  | .queueWordWrite prod q word => Sys2Proof.Machine.execQueueWordWrite prod q word s
  | .flush who q => Sys2Proof.Machine.execFlush who q s
  | .dropRest who q => Sys2Proof.Machine.execDropRest who q s
  | .winCfgWrite who w value => Sys2Proof.Machine.execWinCfgWrite who w value s
  | .winDataWrite w value => Sys2Proof.Machine.execWinDataWrite w value s
  | .winDataRead w ecc => Sys2Proof.Machine.execWinDataRead w ecc s
  | .winEmptyTimeout w => Sys2Proof.Machine.execWinEmptyTimeout w s
  | .winRewind w => Sys2Proof.Machine.execWinRewind w s
  | .winDropRest w => Sys2Proof.Machine.execWinDropRest w s
  | .winRestart w => Sys2Proof.Machine.execWinRestart w s
  | .qwmWrite who value => Sys2Proof.Machine.execQwmWrite who value s
  | .sramWindowRead addr ecc => Sys2Proof.Machine.execSramWindowRead addr ecc s
  | .sramWindowWrite addr value => Sys2Proof.Machine.execSramWindowWrite addr value s
  | .scrubRead ecc => Sys2Proof.Machine.execScrubRead ecc s
  | .loadStart who value => Sys2Proof.Machine.execLoadStart who value s
  | .fabPushWrite value => Sys2Proof.Machine.execFabPushWrite value s
  | .pushTimeout => Sys2Proof.Machine.execPushTimeout s
  | .ingotVerifyDone flash us => Sys2Proof.Machine.execIngotVerifyDone flash us s
  | .partialQuiesceDone => Sys2Proof.Machine.execPartialQuiesceDone s
  | .castComplete again us => Sys2Proof.Machine.execCastComplete again us s
  | .partialCastComplete us => Sys2Proof.Machine.execPartialCastComplete us s
  | .add k rd ra rb => Sys2Proof.Machine.execAdd k rd ra rb s
  | .sub k rd ra rb => Sys2Proof.Machine.execSub k rd ra rb s
  | .and_ k rd ra rb => Sys2Proof.Machine.execAnd k rd ra rb s
  | .or_ k rd ra rb => Sys2Proof.Machine.execOr k rd ra rb s
  | .xor_ k rd ra rb => Sys2Proof.Machine.execXor k rd ra rb s
  | .shl k rd ra rb => Sys2Proof.Machine.execShl k rd ra rb s
  | .shr k rd ra rb => Sys2Proof.Machine.execShr k rd ra rb s
  | .asr k rd ra rb => Sys2Proof.Machine.execAsr k rd ra rb s
  | .clt k rd ra rb => Sys2Proof.Machine.execClt k rd ra rb s
  | .cltu k rd ra rb => Sys2Proof.Machine.execCltu k rd ra rb s
  | .mul k rd ra rb => Sys2Proof.Machine.execMul k rd ra rb s
  | .mulhi k rd ra rb => Sys2Proof.Machine.execMulhi k rd ra rb s
  | .mulhiu k rd ra rb => Sys2Proof.Machine.execMulhiu k rd ra rb s
  | .min k rd ra rb => Sys2Proof.Machine.execMin k rd ra rb s
  | .max k rd ra rb => Sys2Proof.Machine.execMax k rd ra rb s
  | .addk k rd ra imm => Sys2Proof.Machine.execAddk k rd ra imm s
  | .andk k rd ra imm => Sys2Proof.Machine.execAndk k rd ra imm s
  | .ork k rd ra imm => Sys2Proof.Machine.execOrk k rd ra imm s
  | .xork k rd ra imm => Sys2Proof.Machine.execXork k rd ra imm s
  | .cltk k rd ra imm => Sys2Proof.Machine.execCltk k rd ra imm s
  | .lih k rd imm => Sys2Proof.Machine.execLih k rd imm s
  | .shlk k rd ra sh => Sys2Proof.Machine.execShlk k rd ra sh s
  | .shrk k rd ra sh => Sys2Proof.Machine.execShrk k rd ra sh s
  | .asrk k rd ra sh => Sys2Proof.Machine.execAsrk k rd ra sh s
  | .ldw k rd ra imm ecc => Sys2Proof.Machine.execLdw k rd ra imm ecc s
  | .ldh k rd ra imm ecc => Sys2Proof.Machine.execLdh k rd ra imm ecc s
  | .ldb k rd ra imm ecc => Sys2Proof.Machine.execLdb k rd ra imm ecc s
  | .stw k rd ra imm => Sys2Proof.Machine.execStw k rd ra imm s
  | .sth k rd ra imm => Sys2Proof.Machine.execSth k rd ra imm s
  | .stb k rd ra imm => Sys2Proof.Machine.execStb k rd ra imm s
  | .heq k ra rb off => Sys2Proof.Machine.execHeq k ra rb off s
  | .hne k ra rb off => Sys2Proof.Machine.execHne k ra rb off s
  | .hlt k ra rb off => Sys2Proof.Machine.execHlt k ra rb off s
  | .hle k ra rb off => Sys2Proof.Machine.execHle k ra rb off s
  | .hltu k ra rb off => Sys2Proof.Machine.execHltu k ra rb off s
  | .hleu k ra rb off => Sys2Proof.Machine.execHleu k ra rb off s
  | .call k off => Sys2Proof.Machine.execCall k off s
  | .jmpr k rd ra imm => Sys2Proof.Machine.execJmpr k rd ra imm s
  | .mula k r1 r2 ad => Sys2Proof.Machine.execMula k r1 r2 ad s
  | .mac k r1 r2 ad => Sys2Proof.Machine.execMac k r1 r2 ad s
  | .msu k r1 r2 ad => Sys2Proof.Machine.execMsu k r1 r2 ad s
  | .mta k r1 ad => Sys2Proof.Machine.execMta k r1 ad s
  | .mfa k r1 src sh => Sys2Proof.Machine.execMfa k r1 src sh s
  | .mfal k r1 src => Sys2Proof.Machine.execMfal k r1 src s
  | .mfau k r1 src => Sys2Proof.Machine.execMfau k r1 src s
  | .aclr k ad => Sys2Proof.Machine.execAclr k ad s
  | .pset k r1 r2 ad => Sys2Proof.Machine.execPset k r1 r2 ad s
  | .padd k ad src => Sys2Proof.Machine.execPadd k ad src s
  | .psub k ad src => Sys2Proof.Machine.execPsub k ad src s
  | .pscl k r1 ad => Sys2Proof.Machine.execPscl k r1 ad s
  | .pgeth k r1 src => Sys2Proof.Machine.execPgeth k r1 src s
  | .pgetl k r1 src => Sys2Proof.Machine.execPgetl k r1 src s
  | .amov k ad src => Sys2Proof.Machine.execAmov k ad src s
  | .qget k rd ra rb ecc => Sys2Proof.Machine.execQget k rd ra rb ecc s
  | .qgete k rd ra rb ecc => Sys2Proof.Machine.execQgete k rd ra rb ecc s
  | .qtry k rd ra rb ecc => Sys2Proof.Machine.execQtry k rd ra rb ecc s
  | .qput k rd ra rb ecc => Sys2Proof.Machine.execQput k rd ra rb ecc s
  | .qrew k rd ra => Sys2Proof.Machine.execQrew k rd ra s
  | .qlvl k rd ra => Sys2Proof.Machine.execQlvl k rd ra s
  | .sin k r port => Sys2Proof.Machine.execSin k r port s
  | .sout k r port => Sys2Proof.Machine.execSout k r port s
  | .wait k rd => Sys2Proof.Machine.execWait k rd s
  | .rdctl k rd cix => Sys2Proof.Machine.execRdctl k rd cix s
  | .wrctl k ra cix => Sys2Proof.Machine.execWrctl k ra cix s
  | .supc k => Sys2Proof.Machine.execSupc k s
  | .hret k => Sys2Proof.Machine.execHret k s
  | .trap k => Sys2Proof.Machine.execTrap k s
  | .synci k => Sys2Proof.Machine.execSynci k s
  | .coreWake k ecc => Sys2Proof.Machine.execCoreWake k ecc s
  | .interruptEntry k => Sys2Proof.Machine.execInterruptEntry k s
  | .streamSampleArrival src re im => Sys2Proof.Machine.execStreamSampleArrival src re im s
  | .seqTimerExpiry k => Sys2Proof.Machine.execSeqTimerExpiry k s
  | .halt who k => Sys2Proof.Machine.execHalt who k s
  | .resume who k => Sys2Proof.Machine.execResume who k s
  | .restart who k => Sys2Proof.Machine.execRestart who k s
  | .kick who k => Sys2Proof.Machine.execKick who k s
  | .step who k ecc => Sys2Proof.Machine.execStep who k ecc s
  | .seqLaneWrite who k value => Sys2Proof.Machine.execSeqLaneWrite who k value s
  | .read addr count eccs mirror cut => Sys2Proof.Machine.execRead addr count eccs mirror cut s
  | .write addr words => Sys2Proof.Machine.execWrite addr words s
  | .status cmd addr count => Sys2Proof.Machine.execStatus cmd addr count s
  | .ringEnable who value => Sys2Proof.Machine.execRingEnable who value s
  | .doorbell who value => Sys2Proof.Machine.execDoorbell who value s
  | .cplHeadWrite who value => Sys2Proof.Machine.execCplHeadWrite who value s
  | .evHeadWrite who value => Sys2Proof.Machine.execEvHeadWrite who value s
  | .irqCoalesceTimeout events => Sys2Proof.Machine.execIrqCoalesceTimeout events s
  | .send => Sys2Proof.Machine.execSend s
  | .broadcast => Sys2Proof.Machine.execBroadcast s
  | .readMt => Sys2Proof.Machine.execReadMt s
  | .radioSendLink => Sys2Proof.Machine.execRadioSendLink s
  | .radioSendFlood => Sys2Proof.Machine.execRadioSendFlood s
  | .uartSend => Sys2Proof.Machine.execUartSend s
  | .control => Sys2Proof.Machine.execControl s
  | .abort => Sys2Proof.Machine.execAbort s
  | .radioEnable who value => Sys2Proof.Machine.execRadioEnable who value s
  | .linkArm who c value => Sys2Proof.Machine.execLinkArm who c value s
  | .radioBeaconTx => Sys2Proof.Machine.execRadioBeaconTx s
  | .rfSyncDetect y => Sys2Proof.Machine.execRfSyncDetect y s
  | .rfBeaconRx r => Sys2Proof.Machine.execRfBeaconRx r s
  | .connReqRx r => Sys2Proof.Machine.execConnReqRx r s
  | .connAckRx r => Sys2Proof.Machine.execConnAckRx r s
  | .rfDataRx r => Sys2Proof.Machine.execRfDataRx r s
  | .rfAckRx r => Sys2Proof.Machine.execRfAckRx r s
  | .rfNackRx r => Sys2Proof.Machine.execRfNackRx r s
  | .mapSetRx r => Sys2Proof.Machine.execMapSetRx r s
  | .disconnectRx r => Sys2Proof.Machine.execDisconnectRx r s
  | .floodRx r => Sys2Proof.Machine.execFloodRx r s
  | .floodForward now => Sys2Proof.Machine.execFloodForward now s
  | .linkEvent c now => Sys2Proof.Machine.execLinkEvent c now s
  | .linkWindowClose c => Sys2Proof.Machine.execLinkWindowClose c s
  | .supervision c => Sys2Proof.Machine.execSupervision c s
  | .scanChannelTimeout c => Sys2Proof.Machine.execScanChannelTimeout c s
  | .mapSetArm who c value => Sys2Proof.Machine.execMapSetArm who c value s
  | .mapSetResend c => Sys2Proof.Machine.execMapSetResend c s
  | .lastGasp now => Sys2Proof.Machine.execLastGasp now s
  | .sniffListen => Sys2Proof.Machine.execSniffListen s
  | .sniffDetect => Sys2Proof.Machine.execSniffDetect s
  | .falseWake => Sys2Proof.Machine.execFalseWake s
  | .uartCharRx u bits early near => Sys2Proof.Machine.execUartCharRx u bits early near s
  | .uartBreak u => Sys2Proof.Machine.execUartBreak u s
  | .lineStuck u => Sys2Proof.Machine.execLineStuck u s
  | .lineStuckClear u => Sys2Proof.Machine.execLineStuckClear u s
  | .autobaudMeasure u t edgesOk => Sys2Proof.Machine.execAutobaudMeasure u t edgesOk s
  | .uartRxTimeout u => Sys2Proof.Machine.execUartRxTimeout u s
  | .uaCfgWrite who u value => Sys2Proof.Machine.execUaCfgWrite who u value s
  | .baudWrite who u value => Sys2Proof.Machine.execBaudWrite who u value s
  | .uartTxCharDone u => Sys2Proof.Machine.execUartTxCharDone u s
  | .udeTailExpiry u => Sys2Proof.Machine.execUdeTailExpiry u s
  | .ctSet who value => Sys2Proof.Machine.execCtSet who value s
  | .ctClr who value => Sys2Proof.Machine.execCtClr who value s
  | .ctPairWrite who value => Sys2Proof.Machine.execCtPairWrite who value s
  | .ctOcfgWrite who o value => Sys2Proof.Machine.execCtOcfgWrite who o value s
  | .deadTimeExpiry pn => Sys2Proof.Machine.execDeadTimeExpiry pn s
  | .guardTrip first clocks => Sys2Proof.Machine.execGuardTrip first clocks s
  | .tripClear who value => Sys2Proof.Machine.execTripClear who value s
  | .fbMismatch o => Sys2Proof.Machine.execFbMismatch o s
  | .dinEdge din raw => Sys2Proof.Machine.execDinEdge din raw s
  | .dlimLevelWrite who value => Sys2Proof.Machine.execDlimLevelWrite who value s
  | .presenceAssert => Sys2Proof.Machine.execPresenceAssert s
  | .presenceRelease => Sys2Proof.Machine.execPresenceRelease s
  | .presenceWindowExpiry => Sys2Proof.Machine.execPresenceWindowExpiry s
  | .presenceClose value => Sys2Proof.Machine.execPresenceClose value s
  | .debugUnlock value => Sys2Proof.Machine.execDebugUnlock value s
  | .wdSlotRead => Sys2Proof.Machine.execWdSlotRead s
  | .keyLoad => Sys2Proof.Machine.execKeyLoad s
  | .keyUnwrap => Sys2Proof.Machine.execKeyUnwrap s
  | .keyWrap => Sys2Proof.Machine.execKeyWrap s
  | .keyGen => Sys2Proof.Machine.execKeyGen s
  | .keyErase => Sys2Proof.Machine.execKeyErase s
  | .pubkey => Sys2Proof.Machine.execPubkey s
  | .ctrRaise => Sys2Proof.Machine.execCtrRaise s
  | .attest => Sys2Proof.Machine.execAttest s
  | .selftest cause => Sys2Proof.Machine.execSelftest cause s
  | .zeroise => Sys2Proof.Machine.execZeroise s
  | .rootSet readback => Sys2Proof.Machine.execRootSet readback s
  | .floorSet readback => Sys2Proof.Machine.execFloorSet readback s
  | .windowSet readback => Sys2Proof.Machine.execWindowSet readback s
  | .lifeBurn readback => Sys2Proof.Machine.execLifeBurn readback s
  | .maintEnter => Sys2Proof.Machine.execMaintEnter s
  | .testEnter => Sys2Proof.Machine.execTestEnter s
  | .mbxDone => Sys2Proof.Machine.execMbxDone s
  | .gcmEnc => Sys2Proof.Machine.execGcmEnc s
  | .gcmDec => Sys2Proof.Machine.execGcmDec s
  | .ccmEnc => Sys2Proof.Machine.execCcmEnc s
  | .ccmDec => Sys2Proof.Machine.execCcmDec s
  | .cmacGen => Sys2Proof.Machine.execCmacGen s
  | .cmacVer => Sys2Proof.Machine.execCmacVer s
  | .sha256 => Sys2Proof.Machine.execSha256 s
  | .ecdsaSign => Sys2Proof.Machine.execEcdsaSign s
  | .ecdsaVer => Sys2Proof.Machine.execEcdsaVer s
  | .ecdh => Sys2Proof.Machine.execEcdh s
  | .kdf => Sys2Proof.Machine.execKdf s
  | .random => Sys2Proof.Machine.execRandom s
  | .cipherEngineEntry => Sys2Proof.Machine.execCipherEngineEntry s
  | .cipherJobDone => Sys2Proof.Machine.execCipherJobDone s
  | .powerUpSelftestDone => Sys2Proof.Machine.execPowerUpSelftestDone s
  | .healthTestFail cause => Sys2Proof.Machine.execHealthTestFail cause s
  | .vironPowerOn role testEn => Sys2Proof.Machine.execVironPowerOn role testEn s
  | .rstNAssert => Sys2Proof.Machine.execRstNAssert s
  | .rstNRelease role testEn => Sys2Proof.Machine.execRstNRelease role testEn s
  | .supplyInRange => Sys2Proof.Machine.execSupplyInRange s
  | .brownout supply => Sys2Proof.Machine.execBrownout supply s
  | .x32Proven => Sys2Proof.Machine.execX32Proven s
  | .x32Fail => Sys2Proof.Machine.execX32Fail s
  | .pllLock => Sys2Proof.Machine.execPllLock s
  | .clockIdleStop => Sys2Proof.Machine.execClockIdleStop s
  | .modeRequest who value => Sys2Proof.Machine.execModeRequest who value s
  | .fullSelect who value => Sys2Proof.Machine.execFullSelect who value s
  | .mainsSenseEdge rising t => Sys2Proof.Machine.execMainsSenseEdge rising t s
  | .mainsLoss t => Sys2Proof.Machine.execMainsLoss t s
  | .outageTimeout => Sys2Proof.Machine.execOutageTimeout s
  | .tempMeasure temp => Sys2Proof.Machine.execTempMeasure temp s
  | .rtcAlarm => Sys2Proof.Machine.execRtcAlarm s
  | .heartbeatTx => Sys2Proof.Machine.execHeartbeatTx s
  | .heartbeatRx b => Sys2Proof.Machine.execHeartbeatRx b s
  | .heartbeatMiss => Sys2Proof.Machine.execHeartbeatMiss s
  | .linkFrameCrcFail inWindow => Sys2Proof.Machine.execLinkFrameCrcFail inWindow s
  | .replicaWriteRx index part value => Sys2Proof.Machine.execReplicaWriteRx index part value s
  | .forwardedFrameRx fr => Sys2Proof.Machine.execForwardedFrameRx fr s
  | .handoffRx number tag desc body => Sys2Proof.Machine.execHandoffRx number tag desc body s
  | .syncMarkSend => Sys2Proof.Machine.execSyncMarkSend s
  | .syncMarkConfirm cycle => Sys2Proof.Machine.execSyncMarkConfirm cycle s
  | .bufqRecordReplay rec live => Sys2Proof.Machine.execBufqRecordReplay rec live s
  | .promote value => Sys2Proof.Machine.execPromote value s
  | .counterOverflow k occ => Sys2Proof.Machine.execCounterOverflow k occ s
  | .pmSnapshot who value => Sys2Proof.Machine.execPmSnapshot who value s
  | .pmCtrLoWrite who k value => Sys2Proof.Machine.execPmCtrLoWrite who k value s
  | .pmCtrHiWrite who k value => Sys2Proof.Machine.execPmCtrHiWrite who k value s
  | .pmCtrLoRead who k => Sys2Proof.Machine.execPmCtrLoRead who k s
  | .rfTxEnd => Sys2Proof.Machine.execRfTxEnd s
  | .linkEventEnd c => Sys2Proof.Machine.execLinkEventEnd c s
  | .connAckTimeout c => Sys2Proof.Machine.execConnAckTimeout c s

end Sys2Proof.Machine
end

