-- ==== Sys2Proof/Machine/Tick.lean ====
section
/-! DEFINITION. What time does while no command waits: one fabric-clock cycle, or one iron-clock cycle while the fabric has no
power (R187, R253, R302, R317, R336). -/

namespace Sys2Proof.Machine

/-- The sniffer's receiver goes off after its LISTEN ticks, unless it has detected (R239). -/
def State.sniffOff (s : State) : State :=
  if s.mode = 1 ∧ s.get RF_STAT.STATE = 4 ∧ ¬ s.radio.sniffed ∧ s.radio.sniffEnd ≤ s.tick then s.put RF_STAT.STATE 0 else s

/-- One iron-clock cycle: the real-time counter counts, and the alarm is compared (PWR_ALARM). -/
def State.ironCycle (s : State) : State :=
  let s1 := ({ s with iron := { s.iron with rtc := (s.iron.rtc + 1) % 2 ^ 48 } }).sniffOff
  if s1.alarmNow then s1.alarmHit else s1

/-- One microsecond: the sequencers' timers count (R187). -/
def State.microsecond (s : State) : State := if s.seqMode then s.timersTick else s

/-- The part of an iron-clock cycle, and of a microsecond, that a fabric-clock cycle is. -/
def State.splitTime (s : State) : State :=
  let hz := s.fabricHz
  let frac := s.iron.frac + 32768
  let us := s.pm.usFrac + 1
  let s1 := { s with iron := { s.iron with frac := if hz ≤ frac then frac - hz else frac },
                     pm := { s.pm with usFrac := if hz ≤ us * 1000000 then 0 else us } }
  let s2 := if hz ≤ us * 1000000 then s1.microsecond else s1
  if hz ≤ frac then s2.ironCycle else s2

/-- The crossbar takes a sample of every output FIFO that holds one (R186). -/
def State.drainAll (s : State) : State :=
  foldState (List.range 32) (fun k t =>
    foldState (List.range 4) (fun p u =>
      if (mget fifoDef (u.core k).fout p).isEmpty then u else u.drainPort k p) t) s

/-- Two errors that one word has taken. -/
def eccMore (a b : Ecc) : Ecc :=
  match a, b with
  | .clean, x => x
  | x, .clean => x
  | .single, .single => .double
  | _, _ => .multi

/-- A soft error of the SRAM: no rule says when one comes, in which word and of how many bits (R133, log 18). -/
def State.softError (s : State) : State :=
  let r := s.free (1 + 3 * 524288)
  if r.1 = 0 then r.2
  else
    let a := sramBase + 32 * ((r.1 - 1) % 524288)
    r.2.setUpset a (eccMore (r.2.upset a) (nth .multi [.single, .double, .multi] ((r.1 - 1) / 524288)))

/-- A load moves on through FETCH, VERIFY and CHECK; when it does is open (R174, R178). A push load stays in FETCH until its last byte
has come. -/
def State.loadStage (s : State) : State :=
  if s.fabState = 2 ∨ s.fabState = 1 ∧ s.fab.src ≠ 2 then
    let r := s.free 2
    r.2.put FAB_STAT.STATE (s.fabState + r.1)
  else s

/-- One fabric-clock cycle: level counters, flow control, floods that wait, steps that register writes asked for. -/
def State.fabricCycle (s : State) : State :=
  (((((({ s with fab := { s.fab with outNow := false }, al := { s.al with healedNow := false } }).softError.splitTime).pmCycle.drainAll).uaFlows).kickFloods).paOff.pendingSteps).loadStage

/-- What happens while no command waits. -/
def State.idleTick (s : State) : State :=
  if ¬ s.iron.viron then s else if s.awake then s.fabricCycle else s.ironCycle

end Sys2Proof.Machine
end

