-- ==== Sys2Proof/Machine/SeqWord.lean ====
section
/-! DEFINITION. The word of each sequencer instruction's command (R181 to R186). -/

namespace Sys2Proof.Machine

/-- The core that runs a sequencer instruction, and the instruction's word, each field it does not use 0; none for any other command. -/
def seqWord (i : Instr) : Option (Core × Nat) :=
  match i with
  | .add k rd ra rb => some (k, wordR 0 rd ra rb)
  | .sub k rd ra rb => some (k, wordR 1 rd ra rb)
  | .and_ k rd ra rb => some (k, wordR 2 rd ra rb)
  | .or_ k rd ra rb => some (k, wordR 3 rd ra rb)
  | .xor_ k rd ra rb => some (k, wordR 4 rd ra rb)
  | .shl k rd ra rb => some (k, wordR 5 rd ra rb)
  | .shr k rd ra rb => some (k, wordR 6 rd ra rb)
  | .asr k rd ra rb => some (k, wordR 7 rd ra rb)
  | .clt k rd ra rb => some (k, wordR 8 rd ra rb)
  | .cltu k rd ra rb => some (k, wordR 9 rd ra rb)
  | .mul k rd ra rb => some (k, wordR 10 rd ra rb)
  | .mulhi k rd ra rb => some (k, wordR 11 rd ra rb)
  | .mulhiu k rd ra rb => some (k, wordR 12 rd ra rb)
  | .min k rd ra rb => some (k, wordR 13 rd ra rb)
  | .max k rd ra rb => some (k, wordR 14 rd ra rb)
  | .addk k rd ra imm => some (k, wordI 0x01 rd ra imm)
  | .andk k rd ra imm => some (k, wordI 0x02 rd ra imm)
  | .ork k rd ra imm => some (k, wordI 0x03 rd ra imm)
  | .xork k rd ra imm => some (k, wordI 0x04 rd ra imm)
  | .cltk k rd ra imm => some (k, wordI 0x05 rd ra imm)
  | .lih k rd imm => some (k, wordI 0x06 rd 0 imm)
  | .shlk k rd ra sh => some (k, wordShk 0 rd ra sh)
  | .shrk k rd ra sh => some (k, wordShk 1 rd ra sh)
  | .asrk k rd ra sh => some (k, wordShk 2 rd ra sh)
  | .ldw k rd ra imm _ => some (k, wordI 0x08 rd ra imm)
  | .ldh k rd ra imm _ => some (k, wordI 0x09 rd ra imm)
  | .ldb k rd ra imm _ => some (k, wordI 0x0A rd ra imm)
  | .stw k rd ra imm => some (k, wordI 0x0B rd ra imm)
  | .sth k rd ra imm => some (k, wordI 0x0C rd ra imm)
  | .stb k rd ra imm => some (k, wordI 0x0D rd ra imm)
  | .heq k ra rb off => some (k, wordI 0x10 ra rb off)
  | .hne k ra rb off => some (k, wordI 0x11 ra rb off)
  | .hlt k ra rb off => some (k, wordI 0x12 ra rb off)
  | .hle k ra rb off => some (k, wordI 0x13 ra rb off)
  | .hltu k ra rb off => some (k, wordI 0x14 ra rb off)
  | .hleu k ra rb off => some (k, wordI 0x15 ra rb off)
  | .call k off => some (k, 0x16 * 2 ^ 26 + off.toNat)
  | .jmpr k rd ra imm => some (k, wordI 0x17 rd ra imm)
  | .mula k r1 r2 ad => some (k, wordA 0 r1 r2 ad 0 0)
  | .mac k r1 r2 ad => some (k, wordA 1 r1 r2 ad 0 0)
  | .msu k r1 r2 ad => some (k, wordA 2 r1 r2 ad 0 0)
  | .mta k r1 ad => some (k, wordA 3 r1 0 ad 0 0)
  | .mfa k r1 src sh => some (k, wordA 4 r1 0 0 src sh)
  | .mfal k r1 src => some (k, wordA 5 r1 0 0 src 0)
  | .mfau k r1 src => some (k, wordA 6 r1 0 0 src 0)
  | .aclr k ad => some (k, wordA 7 0 0 ad 0 0)
  | .pset k r1 r2 ad => some (k, wordA 8 r1 r2 ad 0 0)
  | .padd k ad src => some (k, wordA 9 0 0 ad src 0)
  | .psub k ad src => some (k, wordA 10 0 0 ad src 0)
  | .pscl k r1 ad => some (k, wordA 11 r1 0 ad 0 0)
  | .pgeth k r1 src => some (k, wordA 12 r1 0 0 src 0)
  | .pgetl k r1 src => some (k, wordA 13 r1 0 0 src 0)
  | .amov k ad src => some (k, wordA 14 0 0 ad src 0)
  | .qget k rd ra rb _ => some (k, wordQ 0 rd ra rb)
  | .qgete k rd ra rb _ => some (k, wordQ 1 rd ra rb)
  | .qtry k rd ra rb _ => some (k, wordQ 2 rd ra rb)
  | .qput k rd ra rb _ => some (k, wordQ 3 rd ra rb)
  | .qrew k rd ra => some (k, wordQ 4 rd ra 0)
  | .qlvl k rd ra => some (k, wordQ 5 rd ra 0)
  | .sin k r port => some (k, wordT 0 r port)
  | .sout k r port => some (k, wordT 1 r port)
  | .wait k rd => some (k, wordY 0 rd 0 0)
  | .rdctl k rd cix => some (k, wordY 1 rd 0 cix)
  | .wrctl k ra cix => some (k, wordY 2 0 ra cix)
  | .supc k => some (k, wordY 3 0 0 0)
  | .hret k => some (k, wordY 4 0 0 0)
  | .trap k => some (k, wordY 5 0 0 0)
  | .synci k => some (k, wordY 6 0 0 0)
  | _ => none

/-- The code of the SRAM word that a sequencer instruction's command carries. -/
def seqEcc (i : Instr) : Ecc :=
  match i with
  | .ldw _ _ _ _ e | .ldh _ _ _ _ e | .ldb _ _ _ _ e | .qget _ _ _ _ e | .qgete _ _ _ _ e | .qtry _ _ _ _ e | .qput _ _ _ _ e => e
  | _ => .clean

end Sys2Proof.Machine
end

