-- ==== Sys2Proof/WellFormed.lean ====
section
/-! DEFINITION. Which commands have operands of the shape their row gives them. The operand types hold every other bound (a port,
a lane, a core is a number of its range); these checks are for lists and integers. -/

namespace Sys2Proof

/-- The command's operands have the shape its row gives them: 60 decision values for a header (R50, R53), 32 bytes of a
descriptor (R205). -/
def Instr.wellFormed (i : Instr) : Bool :=
  match i with
  | .registerWrite _ _ _ => true
  | .holeAccess _ _ _ => true
  | .rcCounterRead _ _ => true
  | .seqLpendRead _ _ => true
  | .rtcRead _ => true
  | .swapRequest _ _ _ => true
  | .fadeComplete _ => true
  | .coefWrite _ _ _ => true
  | .coefRead _ _ => true
  | .slotBoundary _ _ _ => true
  | .cancReset _ _ _ => true
  | .pgaTagArrival _ _ _ => true
  | .txenAssert _ => true
  | .txenTailExpiry _ => true
  | .overcurrent _ _ _ => true
  | .zprobeStart _ _ _ => true
  | .zprobeDone _ _ _ _ => true
  | .preambleDetect _ _ _ => true
  | .fofsLoad _ _ => true
  | .syncSearchTimeout _ => true
  | .syncDetect _ _ _ => true
  | .shadowSyncDetect _ _ _ => true
  | .headerEnd _ ys => decide (ys.length = 60)
  | .decodeDispatch _ => true
  | .headerDecodeDone _ => true
  | .payloadEnd _ _ _ => true
  | .payloadDecodeDone _ => true
  | .laneEnable _ _ _ => true
  | .mainsZeroCrossing _ _ => true
  | .crossingMissed _ => true
  | .portCycleStart _ => true
  | .maskArm _ _ _ => true
  | .nmapClear _ _ _ => true
  | .nmapDataRead _ _ => true
  | .allocationPoint _ => true
  | .txItemHeadCheck _ => true
  | .txFrameStart _ _ => true
  | .txFrameEnd _ _ => true
  | .laneBlockEnd _ _ => true
  | .linkRxData => true
  | .linkRxAck => true
  | .joinReqRx => true
  | .joinAckLate _ => true
  | .echoForwardRx => true
  | .ackTimeout _ => true
  | .retryBackoffEnd _ _ => true
  | .epochRaise _ _ => true
  | .registryWord0Write _ _ => true
  | .lpJoinWrite _ _ _ => true
  | .meteringCycleEnd _ _ => true
  | .forcedCycleBoundary _ => true
  | .syncResetWrite _ _ => true
  | .syncMInput _ => true
  | .synchronisingReset => true
  | .settleEnd => true
  | .fineqWordWrite _ => true
  | .mtSnapshotRead _ _ => true
  | .balReportPacket => true
  | .balResultCommit => true
  | .queueWordWrite _ _ _ => true
  | .flush _ _ => true
  | .dropRest _ _ => true
  | .winCfgWrite _ _ _ => true
  | .winDataWrite _ _ => true
  | .winDataRead _ _ => true
  | .winEmptyTimeout _ => true
  | .winRewind _ => true
  | .winDropRest _ => true
  | .winRestart _ => true
  | .qwmWrite _ _ => true
  | .sramWindowRead _ _ => true
  | .sramWindowWrite _ _ => true
  | .scrubRead _ => true
  | .loadStart _ _ => true
  | .fabPushWrite _ => true
  | .pushTimeout => true
  | .ingotVerifyDone _ _ => true
  | .partialQuiesceDone => true
  | .castComplete _ _ => true
  | .partialCastComplete _ => true
  | .add _ _ _ _ => true
  | .sub _ _ _ _ => true
  | .and_ _ _ _ _ => true
  | .or_ _ _ _ _ => true
  | .xor_ _ _ _ _ => true
  | .shl _ _ _ _ => true
  | .shr _ _ _ _ => true
  | .asr _ _ _ _ => true
  | .clt _ _ _ _ => true
  | .cltu _ _ _ _ => true
  | .mul _ _ _ _ => true
  | .mulhi _ _ _ _ => true
  | .mulhiu _ _ _ _ => true
  | .min _ _ _ _ => true
  | .max _ _ _ _ => true
  | .addk _ _ _ _ => true
  | .andk _ _ _ _ => true
  | .ork _ _ _ _ => true
  | .xork _ _ _ _ => true
  | .cltk _ _ _ _ => true
  | .lih _ _ _ => true
  | .shlk _ _ _ _ => true
  | .shrk _ _ _ _ => true
  | .asrk _ _ _ _ => true
  | .ldw _ _ _ _ _ => true
  | .ldh _ _ _ _ _ => true
  | .ldb _ _ _ _ _ => true
  | .stw _ _ _ _ => true
  | .sth _ _ _ _ => true
  | .stb _ _ _ _ => true
  | .heq _ _ _ _ => true
  | .hne _ _ _ _ => true
  | .hlt _ _ _ _ => true
  | .hle _ _ _ _ => true
  | .hltu _ _ _ _ => true
  | .hleu _ _ _ _ => true
  | .call _ _ => true
  | .jmpr _ _ _ _ => true
  | .mula _ _ _ _ => true
  | .mac _ _ _ _ => true
  | .msu _ _ _ _ => true
  | .mta _ _ _ => true
  | .mfa _ _ _ _ => true
  | .mfal _ _ _ => true
  | .mfau _ _ _ => true
  | .aclr _ _ => true
  | .pset _ _ _ _ => true
  | .padd _ _ _ => true
  | .psub _ _ _ => true
  | .pscl _ _ _ => true
  | .pgeth _ _ _ => true
  | .pgetl _ _ _ => true
  | .amov _ _ _ => true
  | .qget _ _ _ _ _ => true
  | .qgete _ _ _ _ _ => true
  | .qtry _ _ _ _ _ => true
  | .qput _ _ _ _ _ => true
  | .qrew _ _ _ => true
  | .qlvl _ _ _ => true
  | .sin _ _ _ => true
  | .sout _ _ _ => true
  | .wait _ _ => true
  | .rdctl _ _ _ => true
  | .wrctl _ _ _ => true
  | .supc _ => true
  | .hret _ => true
  | .trap _ => true
  | .synci _ => true
  | .coreWake _ _ => true
  | .interruptEntry _ => true
  | .streamSampleArrival _ _ _ => true
  | .seqTimerExpiry _ => true
  | .halt _ _ => true
  | .resume _ _ => true
  | .restart _ _ => true
  | .kick _ _ => true
  | .step _ _ _ => true
  | .seqLaneWrite _ _ _ => true
  | .read _ _ _ _ _ => true
  | .write _ _ => true
  | .status _ _ _ => true
  | .ringEnable _ _ => true
  | .doorbell _ _ => true
  | .cplHeadWrite _ _ => true
  | .evHeadWrite _ _ => true
  | .irqCoalesceTimeout _ => true
  | .send => true
  | .broadcast => true
  | .readMt => true
  | .radioSendLink => true
  | .radioSendFlood => true
  | .uartSend => true
  | .control => true
  | .abort => true
  | .radioEnable _ _ => true
  | .linkArm _ _ _ => true
  | .radioBeaconTx => true
  | .rfSyncDetect _ => true
  | .rfBeaconRx _ => true
  | .connReqRx _ => true
  | .connAckRx _ => true
  | .rfDataRx _ => true
  | .rfAckRx _ => true
  | .rfNackRx _ => true
  | .mapSetRx _ => true
  | .disconnectRx _ => true
  | .floodRx _ => true
  | .floodForward _ => true
  | .linkEvent _ _ => true
  | .linkWindowClose _ => true
  | .supervision _ => true
  | .scanChannelTimeout _ => true
  | .mapSetArm _ _ _ => true
  | .mapSetResend _ => true
  | .lastGasp _ => true
  | .sniffListen => true
  | .sniffDetect => true
  | .falseWake => true
  | .uartCharRx _ _ _ _ => true
  | .uartBreak _ => true
  | .lineStuck _ => true
  | .lineStuckClear _ => true
  | .autobaudMeasure _ _ _ => true
  | .uartRxTimeout _ => true
  | .uaCfgWrite _ _ _ => true
  | .baudWrite _ _ _ => true
  | .uartTxCharDone _ => true
  | .udeTailExpiry _ => true
  | .ctSet _ _ => true
  | .ctClr _ _ => true
  | .ctPairWrite _ _ => true
  | .ctOcfgWrite _ _ _ => true
  | .deadTimeExpiry _ => true
  | .guardTrip _ _ => true
  | .tripClear _ _ => true
  | .fbMismatch _ => true
  | .dinEdge _ _ => true
  | .dlimLevelWrite _ _ => true
  | .presenceAssert => true
  | .presenceRelease => true
  | .presenceWindowExpiry => true
  | .presenceClose _ => true
  | .debugUnlock _ => true
  | .wdSlotRead => true
  | .keyLoad => true
  | .keyUnwrap => true
  | .keyWrap => true
  | .keyGen => true
  | .keyErase => true
  | .pubkey => true
  | .ctrRaise => true
  | .attest => true
  | .selftest _ => true
  | .zeroise => true
  | .rootSet _ => true
  | .floorSet _ => true
  | .windowSet _ => true
  | .lifeBurn _ => true
  | .maintEnter => true
  | .testEnter => true
  | .mbxDone => true
  | .gcmEnc => true
  | .gcmDec => true
  | .ccmEnc => true
  | .ccmDec => true
  | .cmacGen => true
  | .cmacVer => true
  | .sha256 => true
  | .ecdsaSign => true
  | .ecdsaVer => true
  | .ecdh => true
  | .kdf => true
  | .random => true
  | .cipherEngineEntry => true
  | .cipherJobDone => true
  | .powerUpSelftestDone => true
  | .healthTestFail _ => true
  | .vironPowerOn _ _ => true
  | .rstNAssert => true
  | .rstNRelease _ _ => true
  | .supplyInRange => true
  | .brownout _ => true
  | .x32Proven => true
  | .x32Fail => true
  | .pllLock => true
  | .clockIdleStop => true
  | .modeRequest _ _ => true
  | .fullSelect _ _ => true
  | .mainsSenseEdge _ _ => true
  | .mainsLoss _ => true
  | .outageTimeout => true
  | .tempMeasure _ => true
  | .rtcAlarm => true
  | .heartbeatTx => true
  | .heartbeatRx _ => true
  | .heartbeatMiss => true
  | .linkFrameCrcFail _ => true
  | .replicaWriteRx _ _ _ => true
  | .forwardedFrameRx _ => true
  | .handoffRx _ _ desc _ => decide (desc.length = 32)
  | .syncMarkSend => true
  | .syncMarkConfirm _ => true
  | .bufqRecordReplay _ _ => true
  | .promote _ => true
  | .counterOverflow _ _ => true
  | .pmSnapshot _ _ => true
  | .pmCtrLoWrite _ _ _ => true
  | .pmCtrHiWrite _ _ _ => true
  | .pmCtrLoRead _ _ => true
  | .rfTxEnd => true
  | .linkEventEnd _ => true
  | .connAckTimeout _ => true

end Sys2Proof
end

