-- ==== Sys2Proof/Safety.lean ====
section
/-! DEFINITION. What the statements speak about: outcomes, the canonical form of the maps, and what a command leaves unchanged. -/

namespace Sys2Proof.Machine

/-- The command answers the next state `t`. -/
def Runs (c : Instr) (s t : State) : Prop := exec c s = .next t

/-- The maps every access goes through are in canonical form: registers and SRAM. -/
def State.Canonical (s : State) : Prop := mwf resetValue s.regs = true ∧ Memory.wf s.sram = true

/-- The parts of the state; `poison` is the state of the SRAM's codes. -/
inductive Comp where
  | pending | regs | sram | poison | free | hp | pool | ports | lanes | dec | link | meter | fab | cores | radio | uarts | ctl
  | wd | iron | al | pm
  deriving DecidableEq, Repr

/-- The part `c` is the same in both states. -/
def Same (c : Comp) (s t : State) : Prop :=
  match c with
  | .pending => t.pending = s.pending
  | .regs => t.regs = s.regs
  | .sram => t.sram = s.sram
  | .poison => t.poison = s.poison ∧ t.upsets = s.upsets
  | .free => t.freeCtr = s.freeCtr
  | .hp => t.hp = s.hp
  | .pool => t.pool = s.pool
  | .ports => t.ports = s.ports
  | .lanes => t.lanes = s.lanes
  | .dec => t.dec = s.dec
  | .link => t.link = s.link
  | .meter => t.meter = s.meter
  | .fab => t.fab = s.fab
  | .cores => t.cores = s.cores
  | .radio => t.radio = s.radio
  | .uarts => t.uarts = s.uarts
  | .ctl => t.ctl = s.ctl
  | .wd => t.wd = s.wd
  | .iron => t.iron = s.iron
  | .al => t.al = s.al
  | .pm => t.pm = s.pm

/-- Nothing but the parts of `l` differs. -/
def Frame (l : List Comp) (s t : State) : Prop := ∀ c, c ∉ l → Same c s t

/-- Every register but those at the addresses of `l` holds the value it held. -/
def RegsBut (l : List Nat) (s t : State) : Prop := ∀ a, a ∉ l → t.reg a = s.reg a

/-- A write of the register at `a` reaches the device and is not refused for a partial cast (R176, R368). -/
def Writable (s : State) (who : Accessor) (a : Nat) : Prop := s.reach who = true ∧ (who = .host → s.inScope a = false)

/-- Every SRAM byte outside the `n` bytes from `a` reads as it read. -/
def BytesBut (a n : Nat) (s t : State) : Prop := ∀ x, (x < a ∨ a + n ≤ x) → t.byte x = s.byte x

/-- Core k runs, no interrupt waits for it, and the word at its PC spells the instruction `i`; `u` is the state once the word is fetched. -/
def Fetched (i : Instr) (k : Core) (s u : State) : Prop :=
  s.coreRuns k.val = true ∧ (s.core k.val).irq = false ∧ (u.core k.val).irq = false ∧
    ∃ w : Word, seqWord i = some (k, w.toNat) ∧ s.fetch k = (some w, u)

/-- Nothing but the general registers and accumulators of core k and the registers at `l` differs. -/
def CoreBut (k : Nat) (l : List Nat) (s t : State) : Prop :=
  (∀ j : Nat, j ≠ k → t.core j = s.core j) ∧ (∃ x y, t.core k = { s.core k with s := x, a := y }) ∧ RegsBut l s t ∧ Frame [.cores, .regs] s t

/-- The device takes the descriptor `d`, the one at the command ring's HEAD; `u` is the state once its transaction is outstanding and
its references have been read. -/
def Taken (d : List Byte) (s u : State) : Prop :=
  s.headDesc = some d ∧ ∃ v, (s.readSpan s.crAddr 64).admitDesc d = (some v, v) ∧ u = v.readRefs d

end Sys2Proof.Machine
end

