-- ==== Sys2Proof/Certificates/Slice0/Obligations.lean ====
section
/-! DEFINITION. The statements for the provers. -/

open Sys2Proof Sys2Proof.Machine

/-- A step runs the command at the front of the queue. For every command c, queue rest t and state s, a step of s with c in front of t is exec of c on s with the queue t. The queue is the model's own field (log 4). (95_what_each_step_holds.md, opcode_table.json) -/
def Obligations.StepRunsTheFrontCommand : Prop :=
  ∀ (c : Instr) (t : List Instr) (s : State), step { s with pending := c :: t } = exec c { s with pending := t }

/-- The state after VIRON power-on. After reset the mode is Dormant, no register but the two that show their own index differs from the table's reset value, no SRAM byte and no queue is set, every core's STATE is 1 (WAIT) as SEQ_STAT's reset value says, the real-time counter is 0, and an idle step leaves the queue of commands empty. The values of OTP and key slots are the model's choice (log 1, log 2). (15_power_modes.md, 18_register_map.md) -/
def Obligations.ResetLeavesDormantHeldAndEmpty : Prop :=
  State.reset.mode = 0 ∧ State.reset.regs = [] ∧ State.reset.sram = [] ∧ State.reset.pool.queues = [] ∧
  State.reset.iron.rtc = 0 ∧ State.reset.pending = [] ∧ State.reset.Canonical ∧
  (∀ k : Fin 32, State.reset.coreState k.val = 1) ∧
  (∃ t, step State.reset = .next t ∧ t.pending = [])

/-- Every command answers a next state in every state. exec of any command with any operands, well-formed or not, in any state answers a next state: no command is refused, none faults. What each command does is stated command by command in the other statements. (95_what_each_step_holds.md, opcode_table.json) -/
def Obligations.EveryCommandCompletes : Prop :=
  ∀ (c : Instr) (s : State), ∃ t, exec c s = .next t

/-- Operand lists of any length run: what is missing is open, what is too much is not read. A list of measurements that is taken up to n entries keeps the entries it has and, for each that is missing, draws one free value and changes nothing else (log 5). HEADER_END with more than 60 decision values is HEADER_END with the first 60, and a UART character with more line samples than its bits is the one with the first of them. None of these commands stops; the list form is the model's own (log 5). (03_lane_receiver.md, 12_serial_ports.md, 09_sequencers.md, 06_metering.md) -/
def Obligations.OperandListsOfAnyLengthRun : Prop :=
  (∀ (s : State) (n m : Nat) (l : List Int) (f : Nat → Int), (s.padOpen n m f l).1.length = n ∧
    (∀ i, i < n → i < l.length → (s.padOpen n m f l).1[i]? = l[i]?) ∧
    (s.padOpen n m f l).2 = { s with freeCtr := s.freeCtr + (n - l.length) }) ∧
  (∀ (n : LaneN) (l x : List Int) (s : State), l.length = 60 → exec (.headerEnd n (l ++ x)) s = exec (.headerEnd n l) s) ∧
  (∀ (u : Uart) (l x : List Sample3) (early near : Bool) (s : State), l.length = (s.uaRxSet u early).bits →
    exec (.uartCharRx u (l ++ x) early near) s = exec (.uartCharRx u l early near) s)

/-- A write of a lane register takes each field under its access code. REGISTER_WRITE of a register of block LN that has no rule of its own (all but LN_CFG, LN_AGC and LN_MASK_LO), reaching the device and changing no RWF or RWP field that is closed: RW bits take the value, W1C bits written 1 clear, W1S bits written 1 set, RO, WO and RC bits keep theirs; no other register and no other part of the state changes. It says of these commands that they complete, under conditions on the state and the operands alone: REGISTER_WRITE. (01_architecture.md, 18_register_map.md, 03_lane_receiver.md) -/
def Obligations.LaneRegisterWriteFollowsAccessCodes : Prop :=
  ∀ (who : Accessor) (a v : Word) (s : State) (d : RegDesc) (ix : List Nat),
    a.toNat / 65536 = 16 → regFind a.toNat = some (d, ix) →
    a.toNat ≠ LN_CFG ((a.toNat - 0x100000) / 64) → a.toNat ≠ LN_AGC ((a.toNat - 0x100000) / 64) →
    a.toNat ≠ LN_MASK_LO ((a.toNat - 0x100000) / 64) →
    Writable s who a.toNat → s.refusedFields who a.toNat = [] →
    ∃ t, exec (.registerWrite who a v) s = .next t ∧
      t.reg a.toNat = writtenWord d (s.reg a.toNat) v ∧ RegsBut [a.toNat] s t ∧ Frame [.regs] s t

/-- A write to the RWF fields of LN_TXQ outside Forge keeps them and places one REFUSED event. REGISTER_WRITE of LN_TXQ, whose fields are RWF, in another mode than Forge: the register keeps its value; if the value written differs in such a field one REFUSED event is placed that carries the address, the source of the access and NOT_PERMITTED, and nothing else changes; if no field differs nothing changes at all. It says of these commands that they complete, under conditions on the state and the operands alone: REGISTER_WRITE. (01_architecture.md, 10_host_port.md) -/
def Obligations.ClosedFieldsKeepTheirValue : Prop :=
  ∀ (who : Accessor) (n : Fin 256) (v : Word) (s : State),
    Writable s who (LN_TXQ n.val) → s.mode ≠ 3 →
    ∃ t, exec (.registerWrite who (BitVec.ofNat 32 (LN_TXQ n.val)) v) s = .next t ∧
      (∀ a, t.reg a = (if bits (s.reg (LN_TXQ n.val)).toNat 9 0 = bits v.toNat 9 0 then s
        else s.refuse who (LN_TXQ n.val) stNotPermitted).reg a) ∧
      Frame [.regs] (if bits (s.reg (LN_TXQ n.val)).toNat 9 0 = bits v.toNat 9 0 then s
        else s.refuse who (LN_TXQ n.val) stNotPermitted) t

/-- Reads with a side effect: RC counters, SEQ_LPEND, PWR_RTC_LO and PM_CTR_LO. By the host or by a core, in a mode in which its reads reach the device: RC_COUNTER_READ of a counter register clears its RC field; SEQ_LPEND_READ clears the core's pending lanes; RTC_READ latches the count's high 16 bits into PWR_RTC_HI; PM_CTR_LO_READ latches the high 16 into PM_CTR_HI. The host is driven the value before: the counter, the lanes below COUNT, the low 32 bits of the count. No other register and no other part of the state changes. It says of these commands that they complete, under conditions on the state and the operands alone: RC_COUNTER_READ, SEQ_LPEND_READ, RTC_READ, PM_CTR_LO_READ. (01_architecture.md, 09_sequencers.md, 15_power_modes.md, 17_counters.md) -/
def Obligations.ReadsThatClearOrLatch : Prop :=
  (∀ who (n : Fin 256) (s : State) (a : Nat), a = LN_CNT_OK n.val ∨ a = LN_CNT_ERR n.val → s.reads who = true →
    ∃ t, exec (.rcCounterRead who (BitVec.ofNat 32 a)) s = .next t ∧
      (who = .host → t.hp = { s.hp with out := [s.reg a] }) ∧ (who ≠ .host → t.hp = s.hp) ∧ t.reg a = 0 ∧
      RegsBut [a] s t ∧ Frame [.regs, .hp] s t) ∧
  (∀ who (i : Fin 6) (j : Fin 16) (s : State) (a : Nat),
    a ∈ [LK_CNT, MT_BAL_CNT, HP_EV_LOST, RF_CNT, AL_CNT, UA_CNT i.val, QP_ECC j.val] → s.reads who = true →
    ∃ t, exec (.rcCounterRead who (BitVec.ofNat 32 a)) s = .next t ∧
      (who = .host → t.hp = { s.hp with out := [s.reg a] }) ∧ (who ≠ .host → t.hp = s.hp) ∧
      (a ≠ QP_ECC j.val → t.reg a = 0) ∧ bits (t.reg a).toNat 31 8 = 0 ∧ RegsBut [a] s t ∧ Frame [.regs, .hp] s t) ∧
  (∀ who (k : Core) (s : State), s.reads who = true →
    ∃ t, exec (.seqLpendRead who k) s = .next t ∧
      (who = .host → t.hp.out = [BitVec.ofNat 32 (s.get (SEQ_LPEND.LANES k.val) % 2 ^ (s.attached k.val).2)]) ∧
      (who ≠ .host → t.hp = s.hp) ∧ t.reg (SEQ_LPEND k.val) = 0 ∧ RegsBut [SEQ_LPEND k.val] s t ∧ Frame [.regs, .hp] s t) ∧
  (∀ who (s : State), s.reads who = true →
    ∃ t, exec (.rtcRead who) s = .next t ∧
      (who = .host → t.hp.out = [BitVec.ofNat 32 s.iron.rtc]) ∧ (who ≠ .host → t.hp = s.hp) ∧
      t.reg PWR_RTC_HI = BitVec.ofNat 32 (s.iron.rtc / 2 ^ 32) ∧ RegsBut [PWR_RTC_HI] s t ∧ Frame [.regs, .hp] s t) ∧
  (∀ who (k : CtrN) (s : State), s.reads who = true →
    ∃ t, exec (.pmCtrLoRead who k) s = .next t ∧
      (who = .host → t.hp.out = [BitVec.ofNat 32 (s.pmCount k.val)]) ∧ (who ≠ .host → t.hp = s.hp) ∧
      t.reg (PM_CTR_HI k.val) = BitVec.ofNat 32 (s.pmCount k.val / 2 ^ 32) ∧ RegsBut [PM_CTR_HI k.val] s t ∧ Frame [.regs, .hp] s t)

/-- An access to an address that names nothing. HOLE_ACCESS by the host places a REFUSED event with the address and NOT_PERMITTED and drives 0 on a read; a write changes nothing else. By a running sequencer core it raises the exception ACCESS (cause 4) with the address. It says of these commands that they complete, under conditions on the state and the operands alone: HOLE_ACCESS. (18_register_map.md, 09_sequencers.md, 10_host_port.md) -/
def Obligations.HolesReadZeroAndAreReported : Prop :=
  (∀ (a : Word) (s : State), isHole .host a.toNat = true → s.reads .host = true →
    exec (.holeAccess .host a false) s = .next ((s.refuse .host a.toNat stNotPermitted).answer .host 0)) ∧
  (∀ (a : Word) (s : State), isHole .host a.toNat = true → s.reach .host = true →
    exec (.holeAccess .host a true) s = .next (s.refuse .host a.toNat stNotPermitted)) ∧
  (∀ (k : Core) (a : Word) (w : Bool) (s : State), isHole (.core k) a.toNat = true → s.seqMode = true → s.coreState k.val = 0 →
    exec (.holeAccess (.core k) a w) s = .next (s.raise k.val 4 a.toNat))

/-- What the setting of an event bit does. Setting an event bit that is already set changes nothing. Setting one that is 0 and not enabled sets it and nothing else. Setting one that is 0 and enabled sets it and places one BLOCK event in this unit's ring, if the unit is no Alloyed or Island follower; the ring takes it while it has room but for its last entry, which is kept for OVERFLOW, and otherwise HP_EV_LOST counts. (10_host_port.md, 01_architecture.md) -/
def Obligations.EventBitsRiseAndReportOnce : Prop :=
  (∀ (s : State) (f : Fld), s.flag f = true → s.setEvt f = s) ∧
  (∀ (s : State) (f : Fld), s.flag f = false → (s.putFlag f true).evtEnabled f = false → s.setEvt f = s.putFlag f true) ∧
  (∀ (s : State) (f : Fld), s.flag f = false → (s.putFlag f true).evtEnabled f = true →
    (s.putFlag f true).follower = false → (s.putFlag f true).island = false →
    s.setEvt f = (s.putFlag f true).ringEvent ((s.putFlag f true).bitRecord f [])) ∧
  (∀ (s : State) (rec : List Byte), s.rings = false → s.ringEvent rec = s.count HP_EV_LOST.COUNT 1) ∧
  (∀ (s : State) (rec : List Byte), s.rings = true → s.evCount + 1 < s.evSize →
    Frame [.regs, .sram, .poison] s (s.ringEvent rec) ∧ RegsBut [HP_EV_IDX] s (s.ringEvent rec) ∧
    (s.ringEvent rec).get HP_EV_IDX.TAIL = (s.get HP_EV_IDX.TAIL + 1) % 65536 ∧
    (s.ringEvent rec).bytes (wordAddr (ringAddr (s.get HP_EV_BASE.ADDR * 4096) (s.get HP_EV_BASE.LOG2N) 32 (s.get HP_EV_IDX.TAIL))) 32 =
      padTo 32 rec) ∧
  (∀ (s : State) (rec : List Byte), s.rings = true → ¬ s.evCount + 1 < s.evSize →
    Frame [.regs, .hp] s (s.ringEvent rec) ∧ RegsBut [HP_EV_LOST] s (s.ringEvent rec) ∧
    (s.ringEvent rec).hp.lostSince = s.hp.lostSince + 1)

/-- Swap requests, the end of a fade and the coefficient window. SWAP_REQUEST with SWAP = 1, no fade in progress and none queued, starts one with N = FADE_LEN limited to 16..4096; with one in progress and none queued it is queued with its own length; with one queued the queued one is replaced and BANK_SWAP_COLLAPSED set. FADE_COMPLETE of a running port in a fade makes the other bank active, clears FADING and sets BANK_SWAP_DONE; after that it starts the queued fade. COEF_WRITE stores the tap if no fade runs or is queued, the bank is not the active one and INDEX is at most 383; otherwise it is discarded and COEF_WR_REFUSED set. COEF_READ by the host drives the tap; by a core it drives nothing. After either access INDEX steps if AUTOINC = 1. It says of these commands that they complete, under conditions on the state and the operands alone: SWAP_REQUEST, FADE_COMPLETE, COEF_WRITE, COEF_READ. (02_line_ports.md) -/
def Obligations.CoefficientBanksSwapAndTakeTaps : Prop :=
  -- SWAP_REQUEST
  (∀ who (p : Port) (v : Word) (s : State), Writable s who (LP_BANK p) → bit v.toNat 31 = true → s.flag (LP_BANK.FADING p) = false →
    s.flag (LP_BANK.QUEUED p) = false →
    exec (.swapRequest who p v) s = .next (((s.merge (LP_BANK p) 0x1FFF v).modPort p (fun x =>
      { x with fade := fadeLen (bits v.toNat 12 0) })).putFlag (LP_BANK.FADING p) true)) ∧
  (∀ who (p : Port) (v : Word) (s : State), Writable s who (LP_BANK p) → bit v.toNat 31 = true → s.flag (LP_BANK.FADING p) = true →
    s.flag (LP_BANK.QUEUED p) = false →
    exec (.swapRequest who p v) s = .next (((s.merge (LP_BANK p) 0x1FFF v).modPort p (fun x =>
      { x with queued := some (fadeLen (bits v.toNat 12 0)) })).putFlag (LP_BANK.QUEUED p) true)) ∧
  (∀ who (p : Port) (v : Word) (s : State), Writable s who (LP_BANK p) → bit v.toNat 31 = true → s.flag (LP_BANK.QUEUED p) = true →
    exec (.swapRequest who p v) s = .next ((((s.merge (LP_BANK p) 0x1FFF v).modPort p (fun x =>
      { x with queued := some (fadeLen (bits v.toNat 12 0)) })).putFlag (LP_BANK.QUEUED p) true).setEvt
        (LP_EVT.BANK_SWAP_COLLAPSED p))) ∧
  -- FADE_COMPLETE
  (∀ (p : Port) (s : State), s.portOn p = true → s.flag (LP_BANK.FADING p) = true →
    exec (.fadeComplete p) s = .next ((((s.putFlag (LP_BANK.ACTIVE p) (!s.flag (LP_BANK.ACTIVE p))).putFlag (LP_BANK.FADING p) false).modPort p
      (fun x => { x with fade := 0 })).setEvt (LP_EVT.BANK_SWAP_DONE p))) ∧
  (∀ (p : Port) (n : Nat) (s : State), s.portOn p = true → s.flag (LP_BANK.FADING p) = false → s.flag (LP_BANK.QUEUED p) = true →
    (s.port p).queued = some n →
    exec (.fadeComplete p) s = .next (((s.putFlag (LP_BANK.QUEUED p) false).putFlag (LP_BANK.FADING p) true).modPort p
      (fun x => { x with fade := n, queued := none }))) ∧
  -- COEF_WRITE
  (∀ who (p : Port) (v : Word) (s : State), Writable s who (LP_COEF_DATA p) → s.flag (LP_BANK.FADING p) = false → s.flag (LP_BANK.QUEUED p) = false →
    s.get (LP_COEF_IDX.BANK p) ≠ s.get (LP_BANK.ACTIVE p) → s.get (LP_COEF_IDX.INDEX p) ≤ 383 →
    exec (.coefWrite who p v) s = .next ((s.modPort p (fun x =>
      { x with taps := mset coefDef x.taps (s.get (LP_COEF_IDX.BANK p) * 512 + s.get (LP_COEF_IDX.INDEX p)) (v.setWidth 24) })).coefStep p)) ∧
  (∀ who (p : Port) (v : Word) (s : State), Writable s who (LP_COEF_DATA p) →
    (s.flag (LP_BANK.FADING p) = true ∨ s.flag (LP_BANK.QUEUED p) = true ∨ s.get (LP_COEF_IDX.BANK p) = s.get (LP_BANK.ACTIVE p) ∨
      383 < s.get (LP_COEF_IDX.INDEX p)) →
    exec (.coefWrite who p v) s = .next ((s.setEvt (LP_EVT.COEF_WR_REFUSED p)).coefStep p)) ∧
  -- COEF_READ
  (∀ who (p : Port) (s : State), s.reads who = true → s.get (LP_COEF_IDX.INDEX p) ≤ 383 →
    exec (.coefRead who p) s = .next ((s.coefStep p).answer who ((mget coefDef (s.port p).taps
      (s.get (LP_COEF_IDX.BANK p) * 512 + s.get (LP_COEF_IDX.INDEX p))).setWidth 32))) ∧
  (∀ (p : Nat) (s : State), s.coefStep p = if s.flag (LP_COEF_IDX.AUTOINC p) then
    s.put (LP_COEF_IDX.INDEX p) (s.get (LP_COEF_IDX.INDEX p) + 1) else s)

/-- What a slot boundary does: its order, the headroom loop and the echo state. SLOT_BOUNDARY of the grid in force, on a running port whose cycle has a slot left, judges in this order what the limiter did, the symbols, headroom, noise map, echo state and each lane's AGC and noise estimate; then LP_MSTAT.SLOT rises by 1, or stays on the last slot, and the next slot begins. On a grid that a lock replaced it counts symbols and goes to that grid's next slot. The headroom decision of a locked port in AUTO, its last slot spent in AUTO too: a converter overload lowers the code by OVL_STEP + 1 (not below 0) and sets RX_OVERLOAD; a peak at or above HI_THR lowers it by 1; HOLD slots in a row (at least 1) below LO_THR raise it by 1, at most to 30; else it stays. A port that is not locked, or in MANUAL, takes MODE and MANUAL_CODE and starts the count anew. A change of the code sets PGA_STEP. The echo state with ENABLE = 1: TRAINING becomes CONVERGED at a residue of 50 dB or more, CONVERGED becomes DIVERGED with CANC_DIVERGED below 40 dB, DIVERGED becomes TRAINING. It says of these commands that they complete, under conditions on the state and the operands alone: SLOT_BOUNDARY. (02_line_ports.md, 04_mains_slots.md) -/
def Obligations.HeadroomLoopStepsThePga : Prop :=
  -- SLOT_BOUNDARY
  (∀ (p : Port) (m : SlotMeasure) (s : State) u k, s.portOn p = true → s.get (LP_MSTAT.STATE p) ≠ 0 → (s.port p).slotEnd = false →
    k = s.get (LP_MSTAT.SLOT p) →
    u = foldState (onceLanes m) (fun e t => t.laneSlot p e)
      (((((s.crestSlot p m).countSymbols p false).headroom p m).nmapSlot p k (onceLanes m)).echoSlot p m) →
    exec (.slotBoundary p false m) s = .next (State.beginSlot
      (if k + 1 < s.slots p then u.put (LP_MSTAT.SLOT p) (k + 1) else u.modPort p (fun x => { x with slotEnd := true })) p)) ∧
  (∀ (p : Port) (k : Nat) (m : SlotMeasure) (s : State) u, s.portOn p = true → s.get (LP_MSTAT.STATE p) ≠ 0 → (s.port p).oldSlot = some k →
    u = s.countSymbols p true →
    exec (.slotBoundary p true m) s = .next (u.modPort p (fun x => { x with
      oldSlot := if (u.portLanes p).any (fun n => (u.lane n).old) || (u.ctxs p).any (fun c => c.2.old)
        then x.oldSlot.map (fun k => (k + 1) % s.slots p) else none }))) ∧
  -- the headroom loop
  (∀ (p : Nat) (m : SlotMeasure) (s : State), (s.locked p = false ∨ s.flag (LP_PGA.MODE p) = true ∨ (s.port p).manual = true) →
    s.headroom p m = if s.flag (LP_PGA.MODE p) = true then
        (s.modPort p (fun x => { x with manual := true, lowSlots := 0 })).setPga p (Nat.min 30 (s.get (LP_PGA.MANUAL_CODE p)))
      else s.modPort p (fun x => { x with manual := false, lowSlots := 0 })) ∧
  (∀ (p : Nat) (m : SlotMeasure) (s : State), s.locked p = true → s.flag (LP_PGA.MODE p) = false → (s.port p).manual = false → m.overload = true →
    s.headroom p m = ((s.setPga p (s.get (LP_PGA.CODE p) - (s.get (LP_PGA.OVL_STEP p) + 1))).modPort p (fun x =>
      { x with lowSlots := 0 })).setEvt (LP_EVT.RX_OVERLOAD p)) ∧
  (∀ (p : Nat) (m : SlotMeasure) (s : State), s.locked p = true → s.flag (LP_PGA.MODE p) = false → (s.port p).manual = false → m.overload = false →
    m.atten ≤ 50 * s.get (LP_PGA.HI_THR p) →
    s.headroom p m = (s.setPga p (s.get (LP_PGA.CODE p) - 1)).modPort p (fun x =>
      { x with lowSlots := if 50 * s.get (LP_PGA.LO_THR p) < m.atten then (s.port p).lowSlots + 1 else 0 })) ∧
  (∀ (p : Nat) (m : SlotMeasure) (s : State), s.locked p = true → s.flag (LP_PGA.MODE p) = false → (s.port p).manual = false → m.overload = false →
    50 * s.get (LP_PGA.HI_THR p) < m.atten →
    s.headroom p m =
      if 50 * s.get (LP_PGA.LO_THR p) < m.atten ∧ max 1 (s.get (LP_PGA.HOLD p)) ≤ (s.port p).lowSlots + 1 then
        (s.setPga p (Nat.min 30 (s.get (LP_PGA.CODE p) + 1))).modPort p (fun x => { x with lowSlots := 0 })
      else s.modPort p (fun x => { x with lowSlots := if 50 * s.get (LP_PGA.LO_THR p) < m.atten then (s.port p).lowSlots + 1 else 0 })) ∧
  (∀ (p c : Nat) (s : State), s.setPga p c = if c = s.get (LP_PGA.CODE p) then s else (s.put (LP_PGA.CODE p) c).setEvt (LP_EVT.PGA_STEP p)) ∧
  -- the echo state
  (∀ (p : Nat) (r : Byte) (m : SlotMeasure) (s : State), m.resid = some r → s.flag (LP_CANC.ENABLE p) = true →
    s.echoSlot p m =
      (let u := s.put (LP_CANC.RESID p) r.toNat
       if s.get (LP_CANC.STATE p) = 1 ∧ 100 ≤ r.toNat then u.put (LP_CANC.STATE p) 2
       else if s.get (LP_CANC.STATE p) = 2 ∧ r.toNat < 80 then (u.put (LP_CANC.STATE p) 3).setEvt (LP_EVT.CANC_DIVERGED p)
       else if s.get (LP_CANC.STATE p) = 3 then u.put (LP_CANC.STATE p) 1 else u))

/-- Echo reset, amplifier enable, impedance probe and noise map. CANC_RESET of an enabled echo model enters TRAINING. TXEN_ASSERT of a locked, running port with a context that has not begun raises LP_TXEN. TXEN_TAIL_EXPIRY with no frame on the line ends the tail: LP_TXEN falls, unless the lead of a context has begun. ZPROBE_START while BUSY = 0 begins a passive probe, or a tone probe on a permitted lane with TX_EN = 1; a tone on another lane ends at once with ZRES = 0, DONE and TX_LANE_REFUSED; while BUSY = 1 it starts nothing. ZPROBE_DONE of a probe that has been measured writes the magnitude, where the calibration gives it exactly, and the phase, clears BUSY and sets DONE. NMAP_CLEAR empties the noise map. NMAP_DATA_READ drives the four entries of LANE and WORD to the host and steps WORD and LANE if AUTOINC = 1. It says of these commands that they complete, under conditions on the state and the operands alone: CANC_RESET, TXEN_ASSERT, TXEN_TAIL_EXPIRY, ZPROBE_START, ZPROBE_DONE, NMAP_CLEAR, NMAP_DATA_READ. (02_line_ports.md, 04_mains_slots.md) -/
def Obligations.LinePortControlsAndProbe : Prop :=
  -- CANC_RESET
  (∀ who (p : Port) (v : Word) (s : State), Writable s who (LP_CANC p) → bit v.toNat 28 = true → bit v.toNat 29 = true →
    exec (.cancReset who p v) s = .next ((s.merge (LP_CANC p) 0x20000000 v).put (LP_CANC.STATE p) 1)) ∧
  -- TXEN_ASSERT, TXEN_TAIL_EXPIRY
  (∀ (p : Port) (s : State), s.portOn p = true → s.locked p = true → s.ctxWaits p = true →
    exec (.txenAssert p) s = .next ((s.modPort p (fun x => { x with lead := true })).putFlag (LP_STAT.TXEN p) true)) ∧
  (∀ (p : Port) (s : State), (s.port p).tail = true → s.lineBusy p = false →
    exec (.txenTailExpiry p) s = .next ((s.modPort p (fun x => { x with tail := false })).putFlag (LP_STAT.TXEN p) (s.port p).lead)) ∧
  -- ZPROBE_START
  (∀ who (p : Port) (v : Word) (s : State) u, Writable s who (LP_ZPROBE p) → bit v.toNat 31 = true → s.flag (LP_ZPROBE.BUSY p) = false →
    u = s.merge (LP_ZPROBE p) 0x0100003F v →
    exec (.zprobeStart who p v) s = .next (
      let w := ((u.putFlag (LP_ZPROBE.DONE p) false).putFlag (LP_ZPROBE.BUSY p) true).setProbe p
        (.waits (u.get (LP_ZPROBE.LANE p)) (u.flag (LP_ZPROBE.MODE p)))
      if u.flag (LP_ZPROBE.MODE p) = false then w
      else if u.permitted p (u.get (LP_ZPROBE.LANE p)) = true ∧ u.flag (LN_TXCFG.TX_EN (p * 64 + u.get (LP_ZPROBE.LANE p))) = true then
        w.modPort p (fun x => { x with waits := x.waits ++ [.tone (u.get (LP_ZPROBE.LANE p))] })
      else ((((w.setReg (LP_ZRES p) 0).setProbe p .idle).putFlag (LP_ZPROBE.BUSY p) false).putFlag (LP_ZPROBE.DONE p) true).setEvt
        (LP_EVT.TX_LANE_REFUSED p))) ∧
  (∀ who (p : Port) (v : Word) (s : State), Writable s who (LP_ZPROBE p) → s.flag (LP_ZPROBE.BUSY p) = true →
    exec (.zprobeStart who p v) s = .next (s.merge (LP_ZPROBE p) 0x0100003F v)) ∧
  -- ZPROBE_DONE
  (∀ (p : Port) (v i m : Nat) (phase : Int) (s : State), (s.port p).probe = .measured → 0 < s.get (LP_ZCAL.KI p) * i →
    16 * s.get (LP_ZCAL.KV p) * v = m * (s.get (LP_ZCAL.KI p) * i) → m ≤ 65535 → -18000 ≤ phase → phase ≤ 18000 →
    exec (.zprobeDone p v i phase) s = .next (((((s.put (LP_ZRES.MAG p) m).putInt (LP_ZRES.PHASE p) phase).setProbe p .idle).putFlag
      (LP_ZPROBE.BUSY p) false).putFlag (LP_ZPROBE.DONE p) true)) ∧
  -- NMAP_CLEAR, NMAP_DATA_READ
  (∀ who (p : Port) (v : Word) (s : State), Writable s who (LP_NMAP_CFG p) → bit v.toNat 31 = true →
    exec (.nmapClear who p v) s = .next ((s.merge (LP_NMAP_CFG p) 0x400000FF v).modPort p (fun x => { x with nmap := [], cleared := true }))) ∧
  (∀ who (p : Port) (s : State) k w, s.reads who = true → k = s.get (LP_NMAP_IDX.LANE p) → w = s.get (LP_NMAP_IDX.WORD p) →
    exec (.nmapDataRead who p) s = .next (State.answer
      (if s.flag (LP_NMAP_IDX.AUTOINC p) = false then s
       else if w = 15 then (s.put (LP_NMAP_IDX.WORD p) 0).put (LP_NMAP_IDX.LANE p) (k + 1) else s.put (LP_NMAP_IDX.WORD p) (w + 1))
      who (BitVec.ofNat 32 (s.nmapEntry p k (4 * w) + s.nmapEntry p k (4 * w + 1) * 2 ^ 8 + s.nmapEntry p k (4 * w + 2) * 2 ^ 16 +
        s.nmapEntry p k (4 * w + 3) * 2 ^ 24))))

/-- The mains lock: runs, valid crossings, misses and armed masks. Of crossings with ZC_TRIM unchanged on a channel that meters, no synchronising reset in its last samples. MAINS_ZERO_CROSSING of a port in ACQUIRE starts a run, or extends one whose period is in range and within 0.5 % of the one before; the 8th of a run with an α that can be measured locks the port with the last period and sets LOCK_ACQ. In LOCKED or HOLDOVER a crossing within 1 degree of the prediction moves the period by e/16 and the next prediction by P + e/4 (stated where 64 divides e, so that no rounding is open), and any other leaves the lock alone. Both show the crossing in LP_PHREF. A change of ZC_TRIM moves the crossing before, the prediction, α and the start of a cycle that has begun. CROSSING_MISSED takes LOCKED to HOLDOVER with LOCK_LOST, and the port to ACQUIRE with HOLDOVER_END once the misses reach LP_MAINS.HOLDOVER. MASK_ARM stores and arms the pending mask. It says of these commands that they complete, under conditions on the state and the operands alone: MAINS_ZERO_CROSSING, CROSSING_MISSED, MASK_ARM. (04_mains_slots.md) -/
def Obligations.MainsLockFollowsCrossings : Prop :=
  -- MAINS_ZERO_CROSSING
  (∀ (p : Port) (t x : Nat) (z : Int) (s : State), s.get (LP_MSTAT.STATE p) = 1 → s.metering = true → s.powered (s.get (LP_MAINS.VCH p)) = true →
    s.meter.fastLeft = 0 → z = usTime (s.getInt (LP_MAINS.ZC_TRIM p)) → (s.port p).trim = z → x = ((t : Int) + z).toNat →
    exec (.mainsZeroCrossing p t) s = .next ((s.runCrossing p x).phref (s.get (LP_MAINS.VCH p)) ((x : Int) - z).toNat
      ((s.port p).lastX.any (fun l => inRange (x - l))))) ∧
  (∀ (p x : Nat) (s : State), ((s.port p).lastX = none ∨ ∃ l, (s.port p).lastX = some l ∧ inRange (x - l) = false) →
    s.runCrossing p x = s.modPort p (fun z => { z with run := 1, lastX := some x, lastPer := none })) ∧
  (∀ (p x l q : Nat) (s : State), (s.port p).lastX = some l → (s.port p).lastPer = some q → inRange (x - l) = true →
    200 * (x - l - q) ≤ q → 200 * (q - (x - l)) ≤ q → (s.port p).run < 7 →
    s.runCrossing p x = s.modPort p (fun z => { z with run := (s.port p).run + 1, lastX := some x, lastPer := some (x - l) })) ∧
  (∀ (p x l q m : Nat) (s : State) u off, (s.port p).lastX = some l → (s.port p).lastPer = some q → inRange (x - l) = true →
    200 * (x - l - q) ≤ q → 200 * (q - (x - l)) ≤ q → 7 ≤ (s.port p).run → s.lastSense x = some m →
    u = s.modPort p (fun z => { z with run := (s.port p).run + 1, lastX := some x, lastPer := some (x - l) }) →
    off = ((m : Int) - x) % ((x - l : Nat) : Int) →
    s.runCrossing p x = ((((((((u.splitGrid p).put (LP_MPER.PERIOD p) (x - l)).put (LP_MSTAT.STATE p) 2).putFlag
      (LP_STAT.LOCKED p) true).modPort p (fun y =>
        { y with pred := some x, taken := true, begun := false, next := x + (x - l), z := x, alpha := off, alphaPer := x - l,
                 wasLocked := true })).put (LP_MSTAT.ALPHA p) (angleOf off (x - l))).setEvt (LP_MEVT.LOCK_ACQ p)))) ∧
  (∀ (p : Port) (t x q per : Nat) (z e : Int) (s : State), (s.get (LP_MSTAT.STATE p) = 2 ∨ s.get (LP_MSTAT.STATE p) = 3) → s.metering = true →
    s.powered (s.get (LP_MAINS.VCH p)) = true → s.meter.fastLeft = 0 → z = usTime (s.getInt (LP_MAINS.ZC_TRIM p)) → (s.port p).trim = z →
    x = ((t : Int) + z).toNat → (s.port p).pred = some q → e = (x : Int) - q → (s.port p).taken = false →
    360 * e ≤ s.period p → 360 * (-e) ≤ s.period p → e % 64 = 0 → per = ((s.period p : Int) + e / 16).toNat →
    exec (.mainsZeroCrossing p t) s = .next (State.phref (State.modPort (State.roll (State.modPort
      (((s.put (LP_MPER.PERIOD p) per).put (LP_MSTAT.STATE p) 2).put (LP_MSTAT.HOLD_CNT p) 0)
      p (fun y => { y with taken := true, next := ((q : Int) + per + e / 4).toNat })) p) p (fun y => { y with lastX := some x }))
      (s.get (LP_MAINS.VCH p)) ((x : Int) - z).toNat ((s.port p).lastX.any (fun l => inRange (x - l))))) ∧
  (∀ (p : Port) (t x q : Nat) (z : Int) (s : State), (s.get (LP_MSTAT.STATE p) = 2 ∨ s.get (LP_MSTAT.STATE p) = 3) → s.metering = true →
    s.powered (s.get (LP_MAINS.VCH p)) = true → s.meter.fastLeft = 0 → z = usTime (s.getInt (LP_MAINS.ZC_TRIM p)) → (s.port p).trim = z →
    x = ((t : Int) + z).toNat → (s.port p).pred = some q →
    ((s.port p).taken = true ∨ (s.period p : Int) < 360 * ((x : Int) - q) ∨ (s.period p : Int) < 360 * ((q : Int) - x)) →
    exec (.mainsZeroCrossing p t) s = .next ((s.modPort p (fun y => { y with lastX := some x })).phref
      (s.get (LP_MAINS.VCH p)) ((x : Int) - z).toNat ((s.port p).lastX.any (fun l => inRange (x - l))))) ∧
  (∀ (p : Nat) (z d off : Int) (s : State) u, d = z - (s.port p).trim → d ≠ 0 → off = ((s.port p).alpha - d) % (max (s.port p).alphaPer 1 : Nat) →
    u = s.modPort p (fun x =>
      { x with trim := z, lastX := x.lastX.map (fun t => ((t : Int) + d).toNat), pred := x.pred.map (fun t => ((t : Int) + d).toNat),
               z := if x.begun then ((x.z : Int) + d).toNat else x.z, alpha := off }) →
    s.moveTrim p z = if s.locked p = true then u.put (LP_MSTAT.ALPHA p) (angleOf off (s.port p).alphaPer) else u) ∧
  -- CROSSING_MISSED
  (∀ (p : Port) (s : State), s.get (LP_MSTAT.STATE p) = 2 → (s.port p).taken = false → 0 < s.get (LP_MAINS.HOLDOVER p) →
    exec (.crossingMissed p) s = .next ((State.modPort ((((((s.unlock p).put (LP_MSTAT.STATE p) 3).setEvt (LP_MEVT.LOCK_LOST p)).put
      (LP_MSTAT.HOLD_CNT p) 0)).phref (s.get (LP_MAINS.VCH p)) 0 false) p (fun x =>
        { x with taken := true, next := x.pred.getD 0 + s.period p })).roll p)) ∧
  (∀ (p : Port) (s : State), s.get (LP_MSTAT.STATE p) = 2 → (s.port p).taken = false → s.get (LP_MAINS.HOLDOVER p) = 0 →
    exec (.crossingMissed p) s = .next (((((((s.unlock p).put (LP_MSTAT.STATE p) 3).setEvt (LP_MEVT.LOCK_LOST p)).put
      (LP_MSTAT.HOLD_CNT p) 0)).phref (s.get (LP_MAINS.VCH p)) 0 false).acquire p |>.setEvt (LP_MEVT.HOLDOVER_END p))) ∧
  (∀ (p : Port) (s : State), s.get (LP_MSTAT.STATE p) = 3 → (s.port p).taken = false →
    s.get (LP_MAINS.HOLDOVER p) ≤ s.get (LP_MSTAT.HOLD_CNT p) + 1 →
    exec (.crossingMissed p) s = .next ((((s.put (LP_MSTAT.HOLD_CNT p) (clampNat 255 (s.get (LP_MSTAT.HOLD_CNT p) + 1))).phref
      (s.get (LP_MAINS.VCH p)) 0 false).acquire p).setEvt (LP_MEVT.HOLDOVER_END p))) ∧
  (∀ (p : Port) (s : State), s.get (LP_MSTAT.STATE p) = 3 → (s.port p).taken = false →
    s.get (LP_MSTAT.HOLD_CNT p) + 1 < s.get (LP_MAINS.HOLDOVER p) →
    exec (.crossingMissed p) s = .next ((((s.put (LP_MSTAT.HOLD_CNT p) (clampNat 255 (s.get (LP_MSTAT.HOLD_CNT p) + 1))).phref
      (s.get (LP_MAINS.VCH p)) 0 false).modPort p (fun x => { x with taken := true, next := x.pred.getD 0 + s.period p })).roll p)) ∧
  -- MASK_ARM
  (∀ who (n : LaneN) (v : Word) (s : State), Writable s who (LN_MASK_LO n) →
    exec (.maskArm who n v) s = .next ((s.setReg (LN_MASK_LO n) v).modLane n (fun x => { x with armed := true })))

/-- From preamble to sync: detection, offset, time-out, sync word, shadow and PGA tag. PREAMBLE_DETECT of a lane in SEARCH, the AGC having taken the symbol's levels, whose power exceeds the noise estimate by PRE enters PREAMBLE and starts both searches with the lane's mask, the gain frozen with the PGA code; below the threshold nothing changes. FOFS_LOAD after the 8th symbol puts the estimate, limited to the lane spacing, into LN_FOFS with SRC = 0. SYNC_SEARCH_TIMEOUT, once both searches have counted SYNC_WIN symbols, brings the lane to rest. SYNC_DETECT of a sync that holds enters HEADER with the reception it fixes: of two that hold in one symbol the one of higher metric, the lane's own on a tie. SHADOW_SYNC_DETECT before symbol 60 restarts the reception with FALSE_SYNC if it is stronger by MARGIN and is ignored otherwise; at the last symbol it is kept for after the frame; between, it ends the frame CAPTURE_LOST in CAPTURE mode if it is stronger by MARGIN, else it is ignored. PGA_TAG_ARRIVAL with the detection puts the code into the reception and the frozen code; later it marks the reception. It says of these commands that they complete, under conditions on the state and the operands alone: PGA_TAG_ARRIVAL, PREAMBLE_DETECT, FOFS_LOAD, SYNC_SEARCH_TIMEOUT, SYNC_DETECT, SHADOW_SYNC_DETECT. (03_lane_receiver.md) -/
def Obligations.LaneFindsAFrame : Prop :=
  -- PREAMBLE_DETECT
  (∀ (n : LaneN) (x : Nat) (l : List Int) (s : State) u, s.laneState n = 3 → u = (s.agcRun n l).holdNoise n → u.matchOk n x = true →
    exec (.preambleDetect n x l) s = .next (((u.put (LN_STAT.STATE n) 4).putFreeze n (u.laneGain n) (u.get (LP_PGA.CODE (n / 64)))).modLane n
      (fun y => { y with sync := some { mask := s.cutMask (n / 64) (s.lane n).mask, full := false, metric := 0, gain := u.laneGain n,
                                        pga := u.get (LP_PGA.CODE (n / 64)), pgaStep := false, fofs := 0, slot := 0, cyc := 0, angle := 0,
                                        locked := s.lockedState (n / 64), hdr := none, corrected := 0 },
                         symMain := 0, symFull := 0, searched := false }))) ∧
  (∀ (n : LaneN) (x : Nat) (l : List Int) (s : State) u, s.laneState n = 3 → u = (s.agcRun n l).holdNoise n → u.matchOk n x = false →
    exec (.preambleDetect n x l) s = .next s) ∧
  -- FOFS_LOAD
  (∀ (n : LaneN) (f d : Int) (s : State), s.laneState n = 4 → 8 ≤ (s.lane n).symFull → d = s.deltaHz (n / 64) →
    exec (.fofsLoad n f) s = .next ((s.putInt (LN_FOFS.FOFS n) (clampInt (-d) d f)).putFlag (LN_FOFS.SRC n) false)) ∧
  -- SYNC_SEARCH_TIMEOUT
  (∀ (n : LaneN) (s : State), s.laneState n = 4 → s.syncWin n ≤ (s.lane n).symMain → s.syncWin n ≤ (s.lane n).symFull →
    exec (.syncSearchTimeout n) s = .next (s.rest n)) ∧
  (∀ (n : Nat) (s : State), s.syncWin n = if s.get (LN_PRE_THR.SYNC_WIN n) = 0 then 48 else s.get (LN_PRE_THR.SYNC_WIN n)) ∧
  -- SYNC_DETECT
  (∀ (n : LaneN) (a b : Option SyncSeen) (full : Bool) (y : SyncSeen) (c r : Reception) (d : Int) (s : State), s.laneState n = 4 →
    (s.lane n).sync = some c → s.syncPick n a b = some (full, y) → d = s.deltaHz (n / 64) / 2 →
    r = s.fixRx n { c with full := full, mask := if full = true then s.fullMask (n / 64) else c.mask,
                           fofs := s.getInt (LN_FOFS.FOFS n) + clampInt (-d) d y.fofs } y →
    exec (.syncDetect n a b) s = .next ((((((s.put (LN_STAT.STATE n) 5).put (LN_STAT.SYM n) 0).put (LN_SNR.CORR n)
      (clampNat 255 r.metric)).putInt (LN_FOFS.FOFS n) r.fofs).putFlag (LN_FOFS.SRC n) true).modLane n
        (fun z => { z with rx := some r, sync := none }))) ∧
  (∀ (n : Nat) (y z : SyncSeen) (s : State), (s.lane n).symMain ≤ s.syncWin n → (s.lane n).symFull ≤ s.syncWin n → s.syncOk n false y = true →
    s.syncOk n true z = true → s.syncPick n (some y) (some z) =
      some (if s.syncMetric n false y < s.syncMetric n true z then (true, z) else (false, y))) ∧
  (∀ (n : Nat) (y : SyncSeen) (s : State), (s.lane n).symMain ≤ s.syncWin n → s.syncOk n false y = true →
    s.syncPick n (some y) none = some (false, y)) ∧
  (∀ (n : Nat) (z : SyncSeen) (s : State), (s.lane n).symFull ≤ s.syncWin n → s.syncOk n true z = true →
    s.syncPick n none (some z) = some (true, z)) ∧
  -- SHADOW_SYNC_DETECT
  (∀ (n : LaneN) (y : SyncSeen) (g : Int) (c r : Reception) (s : State), (s.lane n).rx = some c → s.syncOk n c.full y = true →
    r = s.shadowRx n c y g → s.get (LN_STAT.SYM n) ≤ 60 →
    exec (.shadowSyncDetect n y g) s = .next (if c.metric + s.captMargin n ≤ r.metric then s.restartRx n stFalseSync c r else s)) ∧
  (∀ (n : LaneN) (y : SyncSeen) (g : Int) (c r : Reception) (h : Nat × Nat) (s : State), (s.lane n).rx = some c → s.syncOk n c.full y = true →
    r = s.shadowRx n c y g → c.hdr = some h → 60 < s.get (LN_STAT.SYM n) → s.get (LN_STAT.SYM n) = 60 + paySymbols h.1 h.2 →
    exec (.shadowSyncDetect n y g) s = .next (s.modLane n (fun x => { x with nextRx := some r }))) ∧
  (∀ (n : LaneN) (y : SyncSeen) (g : Int) (c r : Reception) (h : Nat × Nat) (s : State), (s.lane n).rx = some c → s.syncOk n c.full y = true →
    r = s.shadowRx n c y g → c.hdr = some h → 60 < s.get (LN_STAT.SYM n) → s.get (LN_STAT.SYM n) ≠ 60 + paySymbols h.1 h.2 →
    exec (.shadowSyncDetect n y g) s = .next (if s.flag (LN_CAPT.MODE n) = true ∧ c.metric + s.captMargin n ≤ r.metric then
      s.restartRx n stCaptureLost c r else s)) ∧
  -- PGA_TAG_ARRIVAL
  (∀ (n : LaneN) (c : PgaCode) (s : State), s.laneState n = 4 → s.flag (LN_GAIN.FROZEN n) = true →
    exec (.pgaTagArrival n c true) s = .next ((s.modLane n (fun x =>
      { x with sync := x.sync.map (fun r => { r with pga := c.val }) })).put (LN_GAIN.PGA_FRZ n) c.val)) ∧
  (∀ (n : LaneN) (c : PgaCode) (s : State), s.laneState n = 4 →
    exec (.pgaTagArrival n c false) s = .next (s.modLane n (fun x =>
      { x with sync := x.sync.map (fun r => { r with pgaStep := true }) }))) ∧
  (∀ (n : LaneN) (c : PgaCode) (s : State), s.laneState n ≠ 4 →
    exec (.pgaTagArrival n c false) s = .next (s.modLane n (fun x => { x with rx := x.rx.map (fun r => { r with pgaStep := true }) })))

/-- Header and payload decoding, enabling and block end. HEADER_END at symbol 60 makes the header's soft values of its 60 decision values and puts a header request in the queue, once per reception; PAYLOAD_END at the frame's last symbol makes the payload's soft values, records the SNR, puts a payload request in the queue and leaves the reception. DECODE_DISPATCH gives a free tile the oldest header request, else the oldest payload request. HEADER_DECODE_DONE of a permitted header enters PAYLOAD and opens a packet; an impermissible one ends HDR_CRC, a failed one FALSE_SYNC below CONF and HDR_CRC from CONF on. PAYLOAD_DECODE_DONE of a passing CRC puts the packet into LN_RXQ, and if the queue takes it counts FRAME_OK and hands the frame to the link layer, else records the queue's cause; a failing CRC rewinds the packet and records PAY_CRC or the queue's own cause. LANE_ENABLE of a bound lane that was off brings it to rest, of one that is on changes nothing else; of an unbound lane it leaves ENABLE 0; ENABLE = 0 cuts the reception with no outcome. LANE_BLOCK_END ends the lane's own block and judges anew each lane around it that stands BLOCKED. It says of these commands that they complete, under conditions on the state and the operands alone: HEADER_END, DECODE_DISPATCH, HEADER_DECODE_DONE, PAYLOAD_END, PAYLOAD_DECODE_DONE, LANE_ENABLE, LANE_BLOCK_END. (03_lane_receiver.md) -/
def Obligations.LaneDecodesAFrame : Prop :=
  -- HEADER_END
  (∀ (n : LaneN) (l soft : List Int) (r : Reception) (s : State) u, l.length = 60 → s.laneState n = 5 → (s.lane n).rx = some r →
    60 ≤ s.get (LN_STAT.SYM n) → (∀ j ∈ s.dec.hdrs, j.n ≠ n.val) → (∀ e ∈ s.dec.tiles, ∀ j, e.2 = some j → j.n ≠ n.val ∨ j.hdr = false) →
    s.demod false r.amp 60 l = (soft, u) →
    exec (.headerEnd n l) s = .next (State.setDecPend { u with dec := { u.dec with
      hdrs := u.dec.hdrs ++ [{ n := n, hdr := true, soft := soft, rx := r, snr := 0, locked := false, endCyc := 0 }] } } n)) ∧
  -- PAYLOAD_END
  (∀ (n : LaneN) (l soft : List Int) (snr : Int) (r : Reception) (len cp : Nat) (s : State) u, s.laneState n = 6 →
    (s.lane n).rx = some r → r.hdr = some (len, cp) → 60 + paySymbols len cp ≤ s.get (LN_STAT.SYM n) →
    s.demod (decide (cp ≤ 1)) r.amp (softCount len cp) l = (soft, u) →
    exec (.payloadEnd n l snr) s = .next (((State.putInt { u with dec := { u.dec with
      pays := u.dec.pays ++ [{ n := n, hdr := false, soft := soft, rx := r, snr := snr, locked := r.locked,
                               endCyc := s.get (LP_MCYC.CYCLE (n.val / 64)) }] } } (LN_SNR.SNR n) (clampInt (-128) 127 snr)).leaveRx n).setDecPend n)) ∧
  -- DECODE_DISPATCH
  (∀ (tile : Tile) (j : DecJob) (t : List DecJob) (s : State), mget tileDef s.dec.tiles tile = none → s.dec.hdrs = j :: t →
    exec (.decodeDispatch tile) s = .next { s with dec := { s.dec with hdrs := t, tiles := mset tileDef s.dec.tiles tile (some j) } }) ∧
  (∀ (tile : Tile) (j : DecJob) (t : List DecJob) (s : State), mget tileDef s.dec.tiles tile = none → s.dec.hdrs = [] → s.dec.pays = j :: t →
    exec (.decodeDispatch tile) s = .next { s with dec := { s.dec with pays := t, tiles := mset tileDef s.dec.tiles tile (some j) } }) ∧
  -- HEADER_DECODE_DONE
  (∀ (tile : Tile) (j : DecJob) (n : LaneN) (r : Reception) (o : Option (Nat × Nat)) (k : Nat) (s : State) u v, mget tileDef s.dec.tiles tile = some j →
    j.hdr = true → j.n = n.val →
    u = State.setDecPend { s with dec := { s.dec with tiles := mset tileDef s.dec.tiles tile none } } n →
    (u.lane n).rx = some r → u.decodeHeader j.soft = (o, k, v) →
    exec (.headerDecodeDone tile) s = .next (
      match o with
      | some (len, h) => if headerPermitted len h then v.headerPass n r len (h / 64) k
          else (v.rest n).outcomeEarly n stHdrCrc { r with corrected := k }
      | none => (v.rest n).outcomeEarly n (if r.metric < v.get (LN_PRE_THR.CONF n) then stFalseSync else stHdrCrc) { r with corrected := k })) ∧
  -- PAYLOAD_DECODE_DONE
  (∀ (tile : Tile) (j : DecJob) (n : LaneN) (len cp fixed : Nat) (l : List Byte) (ok : Bool) (s : State) v rx, mget tileDef s.dec.tiles tile = some j →
    j.hdr = false → j.n = n.val → j.rx.hdr = some (len, cp) →
    (State.setDecPend { s with dec := { s.dec with tiles := mset tileDef s.dec.tiles tile none } } n).decodePayload j.soft len cp
      (ones 60 j.rx.mask) = (l, ok, fixed, v) →
    rx = { j.rx with corrected := j.rx.corrected + fixed } →
    exec (.payloadDecodeDone tile) s = .next (
      if ok = true then
        (let r := v.putPacket (.lane n) (s.get (LN_RXQ.QUEUE n)) l
         if r.1 = 1 then ((r.2.1.tellPool r.2.2).outcome n stFrameOk (v.quality n rx j.snr j.locked)).toLink { j with rx := rx }
            (s.get (LN_RXQ.QUEUE n)) l (v.quality n rx j.snr j.locked)
         else (r.2.1.tellPool r.2.2).outcome n (packetStatus r.1) (v.quality n rx j.snr j.locked))
      else
        (let r := v.failPacket n (s.get (LN_RXQ.QUEUE n)) l
         r.2.outcome n r.1 (v.quality n rx j.snr j.locked)))) ∧
  -- LANE_ENABLE
  (∀ who (n : LaneN) (v : Word) (s : State), Writable s who (LN_CFG n) → bit v.toNat 31 = true → (s.lane n).bound = true →
    s.flag (LN_CFG.ENABLE n) = false →
    exec (.laneEnable who n v) s = .next (((s.merge (LN_CFG n) 0x40000000 v).putFlag (LN_CFG.ENABLE n) true).rest n)) ∧
  (∀ who (n : LaneN) (v : Word) (s : State), Writable s who (LN_CFG n) → bit v.toNat 31 = true → (s.lane n).bound = true →
    s.flag (LN_CFG.ENABLE n) = true →
    exec (.laneEnable who n v) s = .next ((s.merge (LN_CFG n) 0x40000000 v).putFlag (LN_CFG.ENABLE n) true)) ∧
  (∀ who (n : LaneN) (v : Word) (s : State), Writable s who (LN_CFG n) → (bit v.toNat 31 = false ∨ (s.lane n).bound = false) →
    exec (.laneEnable who n v) s = .next (if s.flag (LN_CFG.ENABLE n) = true then
      ((s.merge (LN_CFG n) 0x40000000 v).putFlag (LN_CFG.ENABLE n) false).cutRx n
      else (s.merge (LN_CFG n) 0x40000000 v).putFlag (LN_CFG.ENABLE n) false)) ∧
  -- LANE_BLOCK_END
  (∀ (p : Port) (k : LaneK) (s : State), (s.lane (p.val * 64 + k.val)).blk = 2 →
    exec (.laneBlockEnd p k) s = .next (foldState (blockSpan p k)
      (fun n t => if (t.showBlock n).laneState n = 2 then (t.showBlock n).rest n else t.showBlock n)
      (s.modLane (p.val * 64 + k.val) (fun x => { x with blk := 0 }))))

/-- Allocation, cycle start, frame start and end, item check and overcurrent. ALLOCATION_POINT of a locked port ends copies whose item left its queue, reads the next items, closes JOIN_REQs, and serves for the cycle after the current one, in this order, the beacon, ACKs and NACKs, JOIN_ACKs, forwards and tones, then items and retries; of a port that is not locked it drops the waiting ACKs and counts them. Candidates are ordered by PRIO, deferrals, commit and lane; with TX_HOLD or a partial cast no item gets a context. PORT_CYCLE_START begins the cycle, puts SLOT to 0, brings armed masks into force, clears TX_MUTED and frees or starts the allocated contexts; a locked port's cycle gets its number. TX_FRAME_START of a frame of a locked port in the first slot its mask enables fixes its mask and symbols, asserts LP_TXEN, shows its lane in LP_TXACT and blocks the lanes around it. TX_FRAME_END after its last symbol frees its context, takes its lane off LP_TXACT and reports it OK. TX_ITEM_HEAD_CHECK removes a malformed next item as BAD with TX_ITEM_BAD and leaves a sound one. OVERCURRENT at or over the limit for OC_TIME samples cuts the port's frames, lowers LP_TXEN, mutes and sets OVERCURRENT; below the limit it does nothing. It says of these commands that they complete, under conditions on the state and the operands alone: OVERCURRENT, PORT_CYCLE_START, ALLOCATION_POINT, TX_ITEM_HEAD_CHECK, TX_FRAME_START, TX_FRAME_END. (04_mains_slots.md, 02_line_ports.md, 05_drevline.md) -/
def Obligations.TransmissionFollowsItsCycle : Prop :=
  -- ALLOCATION_POINT
  (∀ (p : Port) (c : Nat) (s : State) u v, s.portOn p = true → s.locked p = true → c = (s.get (LP_MCYC.CYCLE p) + 1) % 2 ^ 32 →
    u = (((((s.sweep p).readItems p).closeJoins p c).allocBeacon p c).allocAnswers p c) →
    v = foldState (u.port p).joins (fun j t => t.allocJoin p c j) u →
    exec (.allocationPoint p) s = .next ((v.allocWaits p c).allocItems p c)) ∧
  (∀ (p : Port) (s : State), s.portOn p = true → s.locked p = false →
    exec (.allocationPoint p) s = .next ((s.count LK_CNT.ACK_DROP (s.port p).answers.length).modPort p (fun x => { x with answers := [] }))) ∧
  (∀ a b : Cand, candBefore a b = true ↔ (b.prio < a.prio ∨ a.prio = b.prio ∧ (b.defer < a.defer ∨ a.defer = b.defer ∧
    (a.commit < b.commit ∨ a.commit = b.commit ∧ a.k ≤ b.k)))) ∧
  (∀ (p : Nat) (c : Nat) (k : Nat) (s : State), s.txHeld p = true → s.allocItems p c = s ∧ s.mayAir p k = false) ∧
  -- PORT_CYCLE_START
  (∀ (p : Port) (s : State) u, s.portOn p = true → s.get (LP_MSTAT.STATE p) ≠ 0 → (s.port p).begun = false → (s.port p).slotEnd = true →
    u = ((((s.beginCycle p).put (LP_MSTAT.SLOT p) 0).modPort p (fun x => { x with slotEnd := false })).beginSlot p) →
    exec (.portCycleStart p) s = .next (((u.applyMasks p).putFlag (LP_STAT.TX_MUTED p) false).startCtxs p)) ∧
  (∀ (p : Nat) (s : State) u v, s.locked p = true → u = s.modPort p (fun x => { x with z := x.pred.getD x.z, begun := true }) →
    v = u.modPort p (fun x => { x with
      readAt := if 2 * ((u.port p).z : Int) < (u.port p).readTwice then some ((u.port p).readTwice / 2) else none }) →
    s.beginCycle p = State.roll (v.put (LP_MCYC.CYCLE p) (u.cycleNumber p)) p) ∧
  (∀ (p : Nat) (s : State) u, s.locked p = false → u = s.modPort p (fun x => { x with z := x.pred.getD x.z, begun := true }) →
    s.beginCycle p = u.modPort p (fun x => { x with pred := some (x.z + s.period p), begun := false })) ∧
  -- TX_FRAME_START
  (∀ (p : Port) (c : Ctx) (x : TxCtx) (s : State) m u, s.ctx p c = some x → x.started = false → s.portOn p = true → s.locked p = true →
    (s.port p).slotEnd = false → m = s.txMask p x.k x.full → s.get (LP_MSTAT.SLOT p) = lowSlot m (s.slots p) →
    u = (((s.cutSpan p).setCtx p c (some { x with started := true, mask := m, syms := s.txSymbols p x m })).onStart p x) →
    exec (.txFrameStart p c) s = .next ((((u.txenStart p).probeStart p x.k (decide (x.kind = .tone))).putMapBit
      (LP_TXACT_LO.LANES p) (LP_TXACT_HI.LANES p) x.k true).blockBegin p x.k)) ∧
  -- TX_FRAME_END
  (∀ (p : Port) (c : Ctx) (x : TxCtx) (s : State) u, s.ctx p c = some x → x.started = true → s.ctxLen p x ≤ x.sent → x.kind ≠ .tone →
    u = (((s.cutSpan p).setCtx p c none).showCtx p x.k) →
    exec (.txFrameEnd p c) s = .next (((((u.putMapBit (LP_TXACT_LO.LANES p) (LP_TXACT_HI.LANES p) x.k false).modLane
      (p * 64 + x.k) (fun y => { y with blk := if y.blk = 1 then 2 else y.blk })).txenEnd p).probeCut p x.k).report p x .ok)) ∧
  -- TX_ITEM_HEAD_CHECK
  (∀ (n : LaneN) (q i : Nat) (s : State), s.portOn (n / 64) = true → s.nextItem n = some (q, i) →
    exec (.txItemHeadCheck n) s = .next (if itemOk (s.itemOf q i) = true ∧ s.itemPoisoned q i = false then s
      else (s.setEvt (LP_MEVT.TX_ITEM_BAD (n / 64))).report (n / 64) (itemCtx n i (u16 (s.itemOf q i) 2)) .bad)) ∧
  -- OVERCURRENT
  (∀ (p : Port) (mag samples : Nat) (s : State), s.portOn p = true → s.get (LP_ISNS.OC_LIMIT p) ≠ 0 →
    exec (.overcurrent p mag samples) s = .next (
      if s.get (LP_ISNS.OC_LIMIT p) ≤ mag ∧ 1 ≤ samples ∧ s.get (LP_ISNS.OC_TIME p) ≤ samples then
        (((((s.cutFrames p .muted).modPort p (fun x => { x with lead := false, tail := false })).putFlag (LP_STAT.TXEN p) false).putFlag
          (LP_STAT.TX_MUTED p) true).setEvt (LP_EVT.OVERCURRENT p))
      else s))

/-- A DATA frame to the concentrator: tag, state, duplicate, replay, delivery. LINK_RX_DATA takes the oldest received frame and deals with it in the order of R92, this unit acting for the sender: a sender with no entry is answered NACK NOT_JOINED if the frame asks for an answer; a frame that fails its tag is dropped and counted with MIC_FAIL; a sender that is not JOINED is answered NACK NOT_JOINED; a duplicate is counted, and acknowledged again if it asks and no answer to it waits; a new frame whose FC is not above RX_FC is dropped and counted as a replay; any other is delivered. Delivery, of a unit that is no follower and not in Island, into a queue that takes the packet writes the entry's receive fields, acknowledges if asked and tells the RX_FRAME event; into a queue that refuses it, it answers NACK BUSY and leaves the entry alone. The window of R93 has sixteen places behind the newest number and takes as new what is ahead by 128 or less. It says of these commands that they complete, under conditions on the state and the operands alone: LINK_RX_DATA. (05_drevline.md) -/
def Obligations.LinkLayerAcceptsDataOnce : Prop :=
  -- LINK_RX_DATA
  (∀ (f : LinkRx) (m : Mac) (s : State) u, s.takeRx .data = some (f, u) → parseMac f.bytes = some m → m.kind = 3 → m.toMe = true →
    exec .linkRxData s = .next ((u.rxData f m).afterRx f)) ∧
  (∀ (f : LinkRx) (t : List LinkRx) (s : State), s.link.rx = f :: t → s.rxKind f = .data →
    s.takeRx .data = some (f, { s with link := { s.link with rx := t } })) ∧
  (∀ (f : LinkRx) (m : Mac) (s : State), s.sender m.src = none → s.island = false →
    s.rxData f m = if m.ackreq = true then s.reply f m none (some 2) else s) ∧
  (∀ (f : LinkRx) (m : Mac) (i : Nat) (s : State), s.sender m.src = some i → s.pass f i = none → s.openFrame m i = none →
    s.rxData f m = (s.count LK_CNT.MIC_FAIL 1).setEvt LK_EVT.MIC_FAIL) ∧
  (∀ (f : LinkRx) (m : Mac) (i : Nat) (b : List Byte) (s : State), s.sender m.src = some i → s.pass f i = none → s.openFrame m i = some b →
    s.entState i ≠ 2 → s.rxData f m = s.reply f m (some i) (some 2)) ∧
  (∀ (f : LinkRx) (m : Mac) (i : Nat) (b : List Byte) (s : State), s.sender m.src = some i → s.pass f i = none → s.openFrame m i = some b →
    s.entState i = 2 → dupCheck (s.entNat i 12 1) (s.entNat i 14 2) m.seq = none → s.rxData f m = s.duplicate f m i) ∧
  (∀ (f : LinkRx) (m : Mac) (i r d : Nat) (b : List Byte) (s : State), s.sender m.src = some i → s.pass f i = none → s.openFrame m i = some b →
    s.entState i = 2 → dupCheck (s.entNat i 12 1) (s.entNat i 14 2) m.seq = some (r, d) →
    s.rxData f m = (if u32 m.rest 1 ≤ s.entNat i 16 4 then (s.count LK_CNT.REPLAY 1).setEvt LK_EVT.REPLAY
      else s.deliver f m i r d (u32 m.rest 1) b)) ∧
  (∀ (f : LinkRx) (m : Mac) (i : Nat) (s : State) u, s.flag (LN_CFG.ERR_REC (f.lane % 256)) = false → s.ownLane f.lane = some (f.lane % 256) →
    u = s.count LK_CNT.DUP_RX 1 →
    s.duplicate f m i = if m.ackreq = true ∧ u.answering (leNat m.src) m.seq = false then u.reply f m (some i) none else u) ∧
  (∀ (f : LinkRx) (m : Mac) (i r d fc q code : Nat) (b : List Byte) (l : List PoolNote) (s : State) u, s.follower = false → s.island = false →
    q = s.get (LP_LINK.DLVQ (f.lane % 256 / 64)) → s.putPacket (.engine 0) q b = (code, u, l) → code ≠ 1 →
    s.deliver f m i r d fc b = (u.tellPool l).reply f m (some i) (some 1)) ∧
  (∀ (f : LinkRx) (m : Mac) (i r d fc q : Nat) (b : List Byte) (l : List PoolNote) (s : State) u v w x, s.follower = false → s.island = false →
    q = s.get (LP_LINK.DLVQ (f.lane % 256 / 64)) → s.putPacket (.engine 0) q b = (1, u, l) →
    v = ((u.tellPool l).putEntry i 12 (leBytes 1 r)).putEntry i 14 (leBytes 2 d ++ leBytes 4 fc ++ leBytes 4 f.endCyc) →
    w = v.putEntry i 28 (leBytes 2 (putBits (v.entNat i 28 2) 8 0 f.lane) ++ leBytes 1 (bits (nth 0 f.quality 4).toNat 31 24) ++
      leBytes 1 (bits (nth 0 f.quality 0).toNat 23 16)) →
    x = (if m.ackreq = true then w.reply f m (some i) none else w) →
    s.deliver f m i r d fc b =
      x.tell [.event (eventRec 1 stFrameOk (i + 1) (q + b.length * 65536) (wordBytes f.quality)) q []]) ∧
  -- R93
  (∀ (x map q : Nat), x < 256 → q < 256 →
    dupCheck x map q =
      (if (x + 256 - q) % 256 < 16 then
        (if bit map ((x + 256 - q) % 256) = true then none else some (x, putBits map ((x + 256 - q) % 256) ((x + 256 - q) % 256) 1))
       else if (x + 256 - q) % 256 < 128 then none else some (q, (map * 2 ^ (256 - (x + 256 - q) % 256) + 1) % 65536)))

/-- ACK and NACK, joining, echo, deadlines and the registry's word 0. LINK_RX_ACK of an entry this unit acts for that passes its tag and answers an attempt ends it: an ACK with OK and the quality block, NACK BUSY as a failed attempt, NACK NOT_JOINED with the entry LOST and NO_ACK. JOIN_REQ_RX that fails its tag is dropped and counted; that passes, and is well formed on a port with a valid LP_JOIN, of an unpaired unit: the first copy of a known meter is admitted; of an unknown one with the registry full answered FULL with REGISTRY_FULL, with AUTO_ADMIT = 0 UNKNOWN with its EUI-64 in the event, else admitted to the lowest EMPTY entry. ECHO_FORWARD_RX queues the frame on the echo port for cycle E + 2 with HOP + 1, if the same has not been forwarded within 64 cycles. JOIN_ACK_LATE of a locked port drops and counts a JOIN_ACK past its window. ACK_TIMEOUT past the deadline fails the attempt, unless a frame that may be its answer is under way; RETRY_BACKOFF_END past the back-off makes the retry a candidate. LP_JOIN_WRITE takes a valid value and refuses another; REGISTRY_WORD0_WRITE of an unpaired unit fills an EMPTY entry. It says of these commands that they complete, under conditions on the state and the operands alone: LINK_RX_ACK, JOIN_REQ_RX, JOIN_ACK_LATE, ECHO_FORWARD_RX, ACK_TIMEOUT, RETRY_BACKOFF_END, REGISTRY_WORD0_WRITE, LP_JOIN_WRITE. (05_drevline.md) -/
def Obligations.LinkLayerAnswersJoinsAndEchoes : Prop :=
  -- LINK_RX_ACK
  (∀ (f : LinkRx) (m : Mac) (i n : Nat) (b : List Byte) (x : SendSt) (s : State) u, s.takeRx .ack = some (f, u) → parseMac f.bytes = some m →
    u.sender m.src = some i → u.pass f i = none → u.openFrame m i = some b → u.answered i m.seq = some (x, n) →
    exec .linkRxAck s = .next (State.afterRx (
      if m.kind = 4 then u.endCopy x.id n stOk (wordBytes f.quality)
      else if u8 b 0 = 1 then u.failAttempt x.id n true
      else if u8 b 0 = 2 then (u.putEntry i 10 (leBytes 1 (putBits (u.entNat i 10 1) 1 0 3))).endCopy x.id n stNoAck []
      else u) f)) ∧
  -- JOIN_REQ_RX
  (∀ (f : LinkRx) (m : Mac) (s : State) u, s.takeRx .join = some (f, u) → parseMac f.bytes = some m →
    exec .joinReqRx s = .next ((u.rxJoin f m).afterRx f)) ∧
  (∀ (f : LinkRx) (m : Mac) (n : Nat) (s : State), s.island = false → s.paired = false → s.ownLane f.lane = some n → s.joinTag m = false →
    s.rxJoin f m = (s.count LK_CNT.MIC_FAIL 1).setEvt LK_EVT.MIC_FAIL) ∧
  (∀ (f : LinkRx) (m : Mac) (n : Nat) (s : State), s.island = false → s.paired = false → s.ownLane f.lane = some n → s.joinTag m = true →
    s.joinOk (n / 64) = false → s.rxJoin f m = s) ∧
  (∀ (f : LinkRx) (m : Mac) (n : Nat) (s : State), s.island = false → s.paired = false → s.ownLane f.lane = some n → s.joinOk (n / 64) = true →
    s.joinTag m = true → m.rest.length = 17 → u8 m.rest 7 < 2 → s.joinSeen f m = none →
    s.rxJoin f m = (
      match s.findEui m.src with
      | some i => s.allot f n m i
      | none => match s.findEmpty with
        | none => ((s.noteJoin f m (n / 64) none false).setEvt LK_EVT.REGISTRY_FULL).queueJoin f n m 1 none
        | some i => if s.flag LK_CFG.AUTO_ADMIT = true then ((s.putEntry i 0 m.src).putEntry i 8 (leBytes 2 (i + 1))).allot f n m i
          else ((s.noteJoin f m (n / 64) none false).setEvtWith LK_EVT.JOIN_UNKNOWN m.src).queueJoin f n m 2 none)) ∧
  -- ECHO_FORWARD_RX
  (∀ (f : LinkRx) (m : Mac) (n b : Nat) (s : State) u l, s.takeRx .echo = some (f, u) → parseMac f.bytes = some m → u.ownLane f.lane = some n →
    u.echoPort (n / 64) m = some b → l = u.link.echoes.filter (fun e => nearCycles f.endCyc e.2.2.2 64) →
    (∀ e ∈ l, (e.1, e.2.1, e.2.2.1) ≠ (leNat m.src, m.seq, (m.route.map (fun r => r.2.1)).getD 0)) →
    exec .echoForwardRx s = .next (State.modPort { u with link := { u.link with echoes := l ++
      [(leNat m.src, m.seq, (m.route.map (fun r => r.2.1)).getD 0, f.endCyc)] } } b (fun x =>
        { x with waits := x.waits ++ [.fwd (n % 64) ((f.endCyc + 2) % 2 ^ 32) (hopOn m f.bytes) f.cp] }))) ∧
  (∀ (f : LinkRx) (m : Mac) (n b : Nat) (s : State) u l, s.takeRx .echo = some (f, u) → parseMac f.bytes = some m → u.ownLane f.lane = some n →
    u.echoPort (n / 64) m = some b → l = u.link.echoes.filter (fun e => nearCycles f.endCyc e.2.2.2 64) →
    (∃ e ∈ l, (e.1, e.2.1, e.2.2.1) = (leNat m.src, m.seq, (m.route.map (fun r => r.2.1)).getD 0)) →
    exec .echoForwardRx s = .next { u with link := { u.link with echoes := l } }) ∧
  (∀ (a b n : Nat), a < 2 ^ 32 → b < 2 ^ 32 →
    (nearCycles a b n = true ↔ ((a + 2 ^ 32 - b) % 2 ^ 32 < n ∨ (b + 2 ^ 32 - a) % 2 ^ 32 < n))) ∧
  -- JOIN_ACK_LATE
  (∀ (p : Port) (j : PendJoin) (t : List PendJoin) (s : State), s.freeJoins p (s.port p).joins [] = j :: t → s.locked p = true →
    laterCycle (s.get (LP_MCYC.CYCLE p) + 1) j.last = true →
    exec (.joinAckLate p) s = .next ((s.modPort p (fun x => { x with joins := x.joins.erase j })).count LK_CNT.JOIN_LATE 1)) ∧
  -- ACK_TIMEOUT
  (∀ (tag : TagN) (x : SendSt) (c : Copy) (d : Nat) (s : State),
    s.copyWith tag (fun c => match c.phase with
        | .waiting _ late => !late
        | _ => false) = some (x, c) →
    c.phase = .waiting d false → s.locked (c.n / 64) = true → laterCycle (s.get (LP_MCYC.CYCLE (c.n / 64))) d = true →
    exec (.ackTimeout tag) s = .next (if s.mayAnswer x c.n = true then s.modCopy x.id c.n (fun y => { y with phase := .waiting d true })
      else s.failAttempt x.id c.n false)) ∧
  -- RETRY_BACKOFF_END
  (∀ (tag : TagN) (p : Port) (x : SendSt) (c : Copy) (s : State),
    s.copyWith tag (fun c => decide (c.n / 64 = p.val ∧ c.result = none) && s.backedOff p c) = some (x, c) →
    exec (.retryBackoffEnd tag p) s = .next (s.modCopy x.id c.n (fun y => { y with phase := .retry }))) ∧
  (∀ (p t : Nat) (c : Copy) (s : State), c.phase = .backoff t → s.locked p = true → s.backedOff p c = !laterCycle t (s.get (LP_MCYC.CYCLE p))) ∧
  -- LP_JOIN_WRITE
  (∀ who (p : Port) (v : Word) (s : State), Writable s who (LP_JOIN p) →
    exec (.lpJoinWrite who p v) s = .next (if joinValid (v &&& 0x3F3F3F3F#32).toNat = true then s.setReg (LP_JOIN p) (v &&& 0x3F3F3F3F#32)
      else s.refuse who (LP_JOIN p) stNotPermitted)) ∧
  -- REGISTRY_WORD0_WRITE
  (∀ (a v : Word) (i : Nat) (s : State), s.reach .host = true → s.partOf a.toNat = some .registry → a.toNat % 4 = 0 →
    i < s.entries → s.regBase + 64 * i ≤ a.toNat → a.toNat < s.regBase + 64 * i + 32 → s.entState i = 0 → s.paired = false →
    s.regBase % 4 = 0 →
    exec (.registryWord0Write a v) s = .next (s.putEntry i (a.toNat - (s.regBase + 64 * i)) (leBytes 4 v.toNat)))

/-- The end of a metering cycle: Pc, Qc and the six accumulators. METERING_CYCLE_END of a powered voltage channel that meters, away from a synchronising reset, its samples up to the crossing taken: the crossing shows in LP_PHREF, the channel's time and period are kept, and the cycle of every enabled feeder on the channel ends there. The cycle that ends of a running feeder between two crossings holds its samples before the crossing, and the next one gets its number by R63. Its end: Pc is the sum of v times i over its samples, Qc that of the quadrature voltage with the current QDLY samples before; |Pc| goes to the import or export accumulator by its sign and |Qc| to that of its quadrant, each modulo 2^64; the latch holds number, sample count, NO_ZC, SETTLING and CLIP; no other feeder's state changes and every core is told (event 3). FORCED_CYCLE_BOUNDARY of a feeder that has had no crossing for 1.5 periods and holds the samples of a cycle ends it with NO_ZC, sets MT_STAT.NO_ZC and its event for the first of them, and clears LP_PHREF. It says of these commands that they complete, under conditions on the state and the operands alone: METERING_CYCLE_END, FORCED_CYCLE_BOUNDARY. (06_metering.md) -/
def Obligations.MeteringCycleAccumulatesEnergy : Prop :=
  -- METERING_CYCLE_END
  (∀ (v : VChan) (t a : Nat) (s : State) u, s.metering = true → s.powered v = true → s.sampledTo t = true → s.nearReset t = false →
    (s.chan v).lastX = some a → a < t → inRange (t - a) = true →
    u = (s.phref v t true).modChan v (fun x => { x with lastX := some t, period := some (t - a) }) →
    exec (.meteringCycleEnd v t) s = .next (State.putBit (foldState ((List.range 4).filter (fun f =>
      s.flag (MT_PCFG.ENABLE f) && decide (s.vch f = v))) (fun f x => x.feederCrossing f t (some (a, t - a)) true) u) MT_STAT.NO_ZC v false)) ∧
  (∀ (f t a p k : Nat) (r : Int) (s : State), (s.feeder f).forced = false → (s.feeder f).running = true → (s.chan (s.vch f)).period = some p →
    (s.feeder f).number = some k → ∀ n, s.feederNumber t p = some (n, r) →
    s.feederCrossing f t (some (a, t - a)) true = State.modFeeder (s.endCycle f ((s.feeder f).samples.filter (fun x =>
      decide (x.instant < 3 * (t : Int)))) k false (some (a, t - a))) f (fun y =>
        { y with samples := (s.feeder f).samples.filter (fun x => decide (3 * (t : Int) ≤ x.instant)),
                 since := ((s.feeder f).samples.filter (fun x => decide (3 * (t : Int) ≤ x.instant))).length,
                 number := some n, readAt := some (r / 2), forced := false, running := true, wasReset := false })) ∧
  (∀ (f k : Nat) (l : List FeedSample) (b : Bool) (span : Option (Nat × Nat)) (s : State) u, u = s.endCycle f l k b span →
    (u.feeder f).live =
      { pc := sgn 64 (unsgn 64 (l.map (fun x => x.v * x.i)).sum), qc := sgn 64 (unsgn 64 (l.map (fun x => x.v90 * x.iq)).sum), cyc := k,
        samples := l.length % 65536, noZc := b || (s.feeder f).forced, settling := (s.feeder f).wasReset || l.any (·.settling),
        clip := l.any (·.clip),
        acc := ((s.feeder f).live.acc.zip (accAdds (l.map (fun x => x.v * x.i)).sum (l.map (fun x => x.v90 * x.iq)).sum)).map
          (fun e => e.1 + BitVec.ofNat 64 e.2) } ∧
    (∀ g, g ≠ f → u.feeder g = s.feeder g) ∧ (u.seqMode = true → ∀ j : Core, u.bitOf (SEQ_EV.PEND j.val) 3 = true)) ∧
  (∀ (p q : Int), 0 ≤ p → 0 ≤ q → accAdds p q = [p.toNat, 0, q.toNat, 0, 0, 0]) ∧
  (∀ (p q : Int), p < 0 → 0 ≤ q → accAdds p q = [0, (-p).toNat, 0, q.toNat, 0, 0]) ∧
  (∀ (p q : Int), p < 0 → q < 0 → accAdds p q = [0, (-p).toNat, 0, 0, (-q).toNat, 0]) ∧
  (∀ (p q : Int), 0 ≤ p → q < 0 → accAdds p q = [p.toNat, 0, 0, 0, 0, (-q).toNat]) ∧
  -- FORCED_CYCLE_BOUNDARY
  (∀ (f : Feeder) (k : Nat) (s : State), s.metering = true → s.mayForce f = true → (s.feeder f).forced = false → (s.feeder f).number = some k →
    exec (.forcedCycleBoundary f) s = .next (State.modFeeder (State.endCycle
      (((s.putBit MT_STAT.NO_ZC (s.vch f) true).setEvt MT_EVT.NO_ZC).phref (s.vch f) 0 false)
      f ((s.feeder f).samples.take s.forcedLen) k true none) f (fun y =>
        { y with samples := (s.feeder f).samples.drop s.forcedLen, number := some k, readAt := none, forced := true, running := true }))) ∧
  (∀ (f : Feeder) (k : Nat) (s : State), s.metering = true → s.mayForce f = true → (s.feeder f).forced = true → (s.feeder f).number = some k →
    exec (.forcedCycleBoundary f) s = .next (State.modFeeder (s.endCycle f ((s.feeder f).samples.take s.forcedLen) k true none) f (fun y =>
        { y with samples := (s.feeder f).samples.drop s.forcedLen, number := some k, readAt := none, forced := true, running := true })))

/-- Synchronising resets, FINEQ words, snapshots, reports and results. SYNC_RESET_WRITE with RESET = 1 schedules a reset for the second modulator edge after the last, SYNC_M_INPUT's selected edge in input mode for the third; in output mode SYNC_M is driven for it. SYNCHRONISING_RESET, with one scheduled first, brings that edge and resets the chain: COUNT rises, SETTLE starts at its count, SETTLING is set, and three fast samples are not valid. SETTLE_END after the last settling sample clears both and sets SYNC_DONE. FINEQ_WORD_WRITE writes the first ten samples and their flags as one word to the channel's queue. MT_SNAPSHOT_READ copies the last cycle's Pc and Qc into the feeder's cycle block and drives MT_PC_LO to the host. BAL_REPORT_PACKET takes the head packet of REPQ, counting one that is malformed as BAD and each record by itself; BAL_RESULT_COMMIT puts the oldest finalised window's packet into RESQ, shows it in LAST and sets BAL_DONE, and BAL_ALARM if a group alarms. It says of these commands that they complete, under conditions on the state and the operands alone: SYNC_RESET_WRITE, SYNC_M_INPUT, SYNCHRONISING_RESET, SETTLE_END, FINEQ_WORD_WRITE, MT_SNAPSHOT_READ, BAL_REPORT_PACKET, BAL_RESULT_COMMIT. (06_metering.md) -/
def Obligations.MeteringResetsSamplesAndBalance : Prop :=
  -- SYNC_RESET_WRITE, SYNC_M_INPUT
  (∀ who (v : Word) (s : State), Writable s who MT_SYNC → bit v.toNat 31 = true → s.metering = true →
    exec (.syncResetWrite who v) s = .next { s with meter := { s.meter with
      resets := setInsert (s.meter.edge + 2) s.meter.resets,
      driven := if s.get MT_CFG.SYNC_MODE = 2 then setInsert (s.meter.edge + 2) s.meter.driven else s.meter.driven } }) ∧
  (∀ (b : Bool) (s : State), s.metering = true → s.get MT_CFG.SYNC_MODE = 1 → b = !s.flag MT_CFG.SYNC_EDGE →
    exec (.syncMInput b) s = .next { s with meter := { s.meter with resets := setInsert (s.meter.edge + 3) s.meter.resets } }) ∧
  -- SYNCHRONISING_RESET, SETTLE_END
  (∀ (e : Nat) (l : List Nat) (s : State), s.metering = true → s.meter.resets = e :: l → (∀ x ∈ l, e < x) →
    exec .synchronisingReset s = .next ((s.edgeTo (max e (s.meter.edge + 1))).resetChain)) ∧
  (∀ s u : State, u = s.resetChain → u.get MT_SYNC.SETTLE = s.settleCount ∧ u.flag MT_STAT.SETTLING = true ∧
    u.get MT_SYNC.COUNT = (s.get MT_SYNC.COUNT + 1) % 256 ∧ u.meter.fastLeft = 3 ∧ u.meter.fineN = 0 ∧ u.meter.phase = 0) ∧
  (∀ (s : State), s.flag MT_STAT.SETTLING = true → s.settleCount ≤ s.meter.fineN →
    exec .settleEnd s = .next (((s.put MT_SYNC.SETTLE 0).putFlag MT_STAT.SETTLING false).setEvt MT_EVT.SYNC_DONE)) ∧
  -- FINEQ_WORD_WRITE
  (∀ (c : Chan) (l : List (Int × Bool × Bool)) (s : State) r, s.metering = true → l = (s.chan c).words → 10 ≤ l.length →
    r = State.putWord (s.modChan c (fun x => { x with words := l.drop 10 })) (.tile c) (s.get (MT_CHCFG.FINEQ c))
      (mkLine 0 ((l.take 10).map (fun x => unsgn 24 x.1)) false ((l.take 10).any (·.2.1)) ((l.take 10).any (·.2.2))) →
    exec (.fineqWordWrite c) s = .next (r.2.1.tellPool r.2.2)) ∧
  -- MT_SNAPSHOT_READ
  (∀ who (f : Feeder) (s : State), s.reads who = true →
    ∃ t, exec (.mtSnapshotRead who f) s = .next t ∧ (who = .host → t.hp.out = [t.reg (MT_PC_LO f)]) ∧ (who ≠ .host → t.hp = s.hp) ∧
      t.get (MT_PC_LO.VALUE f) = unsgn 64 (s.feeder f).live.pc % 2 ^ 32 ∧
      t.get (MT_PC_HI.VALUE f) = unsgn 64 (s.feeder f).live.pc / 2 ^ 32 ∧
      t.get (MT_QC_LO.VALUE f) = unsgn 64 (s.feeder f).live.qc % 2 ^ 32 ∧
      t.get (MT_QC_HI.VALUE f) = unsgn 64 (s.feeder f).live.qc / 2 ^ 32 ∧
      Frame [.regs, .hp] s t) ∧
  -- BAL_REPORT_PACKET
  (∀ (q : Nat) (s : State) u v, q = s.get MT_BAL_CFG.REPQ → s.flag MT_BAL_CFG.ENABLE = true → s.seqMode = true → s.ready q = true →
    (s.queue q).stream = false → (s.queue q).fmt = 1 → u = s.readPacket q ((s.queue q).chain.headD ⟨0, 0, false, 0⟩).seq →
    v = (u.dropRest q).1.tellPool (u.dropRest q).2 →
    exec .balReportPacket s = .next (
      if u.packetBad q = true ∨ (linesBytes (u.headWords q)).length % 16 ≠ 0 ∨ 1024 < (linesBytes (u.headWords q)).length then
        v.count MT_BAL_CNT.BAD 1
      else foldState (pieces 16 (linesBytes (u.headWords q))) (fun d x => x.takeRecord d) v)) ∧
  (∀ (d : List Byte) (s : State), u8 d 2 < 2 → u8 d 3 = 0 → 1 ≤ u16 d 0 → u16 d 0 ≤ s.entries → s.entState (u16 d 0 - 1) ≠ 0 →
    s.takeRecord d =
      if s.winClosed (u32 d 4) = false then s.count MT_BAL_CNT.FUTURE 1
      else if s.winFinal (u32 d 4) = true then s.count MT_BAL_CNT.LATE 1
      else if s.meter.reports.any (fun r => decide (r.short = u16 d 0 ∧ r.w = u32 d 4 ∧ r.branch = bit (u8 d 2) 0)) then
        s.count MT_BAL_CNT.DUP 1
      else (fun (x : State) => if s.entNat (u16 d 0 - 1) 24 4 < u32 d 4 then x.putEntry (u16 d 0 - 1) 24 (leBytes 4 (u32 d 4)) else x)
        { s with meter := { s.meter with reports := s.meter.reports ++ [⟨u16 d 0, u32 d 4, bit (u8 d 2) 0, u32 d 8, u32 d 12⟩] } }) ∧
  -- BAL_RESULT_COMMIT
  (∀ (w : Nat) (l : List Byte) (b : Bool) (t : List (Nat × List Byte × Bool)) (s : State) r u, s.meter.results = (w, l, b) :: t →
    r = State.putPacket { s with meter := { s.meter with results := t } } (.engine 2) (s.get MT_BAL_CFG.RESQ) l →
    u = ((r.2.1.tellPool r.2.2).put MT_BAL_STAT.LAST w).setEvt MT_EVT.BAL_DONE →
    exec .balResultCommit s = .next (if b = true then u.setEvt MT_EVT.BAL_ALARM else u))

/-- Words of producers: stream words, refused words, packet commit, flush and drop-rest. QUEUE_WORD_WRITE on an enabled stream queue whose tail cell has room appends the word at the end of the chain and stores its 256 bits, leaving every other word and queue alone. A word with EOP that ends an open, sound packet of byte words commits the whole packet behind the chain, its last word marked EOP. A word of any producer but a window to a queue with EN = 0 is refused and sets UNCAST_WRITE. FLUSH empties the chain of a queue that is not BROKEN, and on a packet queue poisons its open packets; DROP_REST discards what windows hold of the head word and, on a packet queue, removes the head words up to and with the next EOP. Stated of queues whose descriptor and links read without error. It says of these commands that they complete, under conditions on the state and the operands alone: QUEUE_WORD_WRITE, FLUSH, DROP_REST. (07_pewter_pool.md) -/
def Obligations.QueueWordsCommitInOrder : Prop :=
  -- QUEUE_WORD_WRITE on a stream queue
  (∀ (prod : Producer) (q : QId) (w : Line) (s : State) x, s.awake = true → s.queue q = x → x.en = true → x.broken = false → x.stream = true →
    x.fmt ≠ 3 → lineOk x.fmt w = true → s.touch q = (s, []) → x.cells ≠ [] → x.tailFill < 8 →
    ∃ (t : State) (slot : QSlot), exec (.queueWordWrite prod q w) s = .next t ∧
      slot.cell = x.tailCell ∧ slot.word = x.tailFill ∧ slot.eop = false ∧ slot.seq = s.pool.commits + 1 ∧
      (t.queue q).chain = x.chain ++ [slot] ∧ (t.queue q).tailFill = x.tailFill + 1 ∧ t.pool.commits = s.pool.commits + 1 ∧
      t.bytes (wordAddr (cellAddr x.tailCell x.tailFill)) 32 = leBytes 32 w.toNat ∧
      BytesBut (wordAddr (cellAddr x.tailCell x.tailFill)) 32 s t ∧
      (∀ k, k ≠ q.val → t.queue k = s.queue k) ∧ Frame [.sram, .poison, .pool] s t) ∧
  -- QUEUE_WORD_WRITE on a packet queue of byte words
  (∀ (prod : Producer) (q : QId) (w : Line) (s : State) x (o : OpenPkt) r u m, s.awake = true → s.queue q = x → x.en = true → x.broken = false →
    x.stream = false → x.fmt = 1 → lineOk 1 w = true → lineEop w = true → s.touch q = (s, []) → s.openOf prod q = some o → o.doom = none →
    r = (s.setOpen o).placeAll o [w] → r.1.doom = none → u = (r.2.1.setOpen r.1).commit r.1 → m = u.1.marks q (s.usedCells q) →
    s.putWord prod q w = (1, m.1, r.2.2 ++ u.2 ++ m.2)) ∧
  (∀ (o : OpenPkt) (s : State), ((s.commit o).1.queue o.q).chain = (s.queue o.q).chain ++ o.slots.zipIdx.map (fun (x, i) =>
      { x with eop := decide (i + 1 = o.slots.length), seq := s.pool.commits + 1 }) ∧
    (s.commit o).1.pool.commits = s.pool.commits + 1 ∧ (s.commit o).1.openOf o.prod o.q = none) ∧
  -- QUEUE_WORD_WRITE on a queue that is not cast
  (∀ (prod : Producer) (q : QId) (w : Line) (s : State) r, s.awake = true → (s.queue q).en = false → (∀ x, prod ≠ .win x) →
    r = s.refuseWord prod q .full (lineEop w) →
    exec (.queueWordWrite prod q w) s = .next (r.2.tellPool [.evt QP_EVT.UNCAST_WRITE])) ∧
  -- FLUSH
  (∀ who (q : QId) (s : State), Writable s who QP_CMD → exec (.flush who q) s = .next (((s.flush q).1.tellPool (s.flush q).2).uaFlows)) ∧
  (∀ (q : Nat) (s : State), (s.queue q).broken = false → s.touch q = (s, []) → ((s.flush q).1.queue q).chain = [] ∧ ((s.flush q).1.queue q).cells = [] ∧
    ((s.queue q).stream = false → ∀ o ∈ (s.flush q).1.pool.opens, o.q = q → o.doom ≠ none)) ∧
  -- DROP_REST
  (∀ who (q : QId) (s : State) u, Writable s who QP_CMD → u = foldState (s.holders q) (fun w t => t.clearWin w) s →
    exec (.dropRest who q) s = .next (((u.dropRest q).1.tellPool (u.dropRest q).2).uaFlows)) ∧
  (∀ (q : Nat) (s : State), (s.queue q).stream = false → s.ready q = true → s.touch q = (s, []) →
    ((s.dropRest q).1.queue q).chain = (s.queue q).chain.drop (headLen (s.queue q).chain))

/-- The host queue windows and the watermark register. WIN_CFG_WRITE rewinds what is open through the window, clears its parts and takes the value. WIN_DATA_WRITE on a producing window holds parts 0 to 6 and, with part 7, writes the word to the queue. WIN_DATA_READ on a consuming window drives the next part of its held word, and part 7 consumes the word; with none held it takes up a sound head word and drives its part 0; on a queue with EN = 0 the read waits. WIN_EMPTY_TIMEOUT ends such a wait with 0 and EMPTY_TIMEOUT. WIN_REWIND rewinds the packet open through the window with RESULT 5; WIN_DROP_REST is drop-rest on the window's queue of packets, a held word being the first word of the drop; WIN_RESTART returns PART to 0, and a producing window discards its parts. QWM_WRITE on a cast queue stores both watermarks. It says of these commands that they complete, under conditions on the state and the operands alone: WIN_CFG_WRITE, WIN_DATA_WRITE, WIN_DATA_READ, WIN_EMPTY_TIMEOUT, WIN_REWIND, WIN_DROP_REST, WIN_RESTART, QWM_WRITE. (07_pewter_pool.md) -/
def Obligations.HostWindowsMoveWordsInParts : Prop :=
  -- WIN_CFG_WRITE
  (∀ who (w : Win) (v : Word) (s : State), Writable s who (QP_WIN_CFG w) →
    exec (.winCfgWrite who w v) s = .next ((((s.rewindWin w).setWin w {}).put (QP_WIN_STAT.PART w) 0).merge (QP_WIN_CFG w) 0xC00003FF v)) ∧
  -- WIN_DATA_WRITE
  (∀ (w : Win) (v : Word) (s : State), s.reach .host = true → s.winProduces w = true → (s.win w).held.length < 7 →
    exec (.winDataWrite w v) s = .next ((s.setWin w { held := (s.win w).held ++ [v] }).put (QP_WIN_STAT.PART w) ((s.win w).held.length + 1))) ∧
  (∀ (w : Win) (v : Word) (s : State), s.reach .host = true → s.winProduces w = true → (s.win w).held.length = 7 →
    exec (.winDataWrite w v) s = .next (((s.setWin w {}).put (QP_WIN_STAT.PART w) 0).produce (.win w) (s.get (QP_WIN_CFG.QUEUE w))
      (partsLine ((s.win w).held ++ [v])))) ∧
  -- WIN_DATA_READ
  (∀ (w : Win) (e : Ecc) (s : State), s.reads .host = true → s.winConsumes w = true → (s.win w).held ≠ [] → s.get (QP_WIN_STAT.PART w) < 7 →
    exec (.winDataRead w e) s = .next (((s.put (QP_WIN_STAT.PART w) (s.get (QP_WIN_STAT.PART w) + 1)).setWait none).answer .host
      (nth 0 (s.win w).held (s.get (QP_WIN_STAT.PART w))))) ∧
  (∀ (w : Win) (e : Ecc) (s : State), s.reads .host = true → s.winConsumes w = true → (s.win w).held ≠ [] → s.get (QP_WIN_STAT.PART w) = 7 →
    exec (.winDataRead w e) s = .next (((((s.setWin w {}).put (QP_WIN_STAT.PART w) 0).consumeHeld (s.get (QP_WIN_CFG.QUEUE w))
      (s.win w).at_).setWait none).answer .host (nth 0 (s.win w).held 7))) ∧
  (∀ (w : Win) (e : Ecc) (s : State), s.reads .host = true → s.winConsumes w = true → (s.win w).held = [] →
    (s.queue (s.get (QP_WIN_CFG.QUEUE w))).en = false →
    exec (.winDataRead w e) s = .next ((s.tellPool []).setWait (some w))) ∧
  (∀ (w : Win) (q d : Nat) (x : QSlot) (l : List QSlot) (ps : List Word) (s : State), s.reads .host = true → s.winConsumes w = true →
    (s.win w).held = [] → q = s.get (QP_WIN_CFG.QUEUE w) → s.touch q = (s, []) → s.ready q = true → (s.queue q).chain = x :: l →
    (s.queue q).badRun = false → s.poisoned (cellAddr x.cell x.word) = false →
    s.upset (cellAddr x.cell x.word) = .clean → s.get (QP_WIN_STAT.PART w) = 0 →
    d = (BitVec.ofNat 256 (leNat (s.bytes (cellAddr x.cell x.word) 32))).toNat →
    ps = (List.range 8).map (fun i => BitVec.ofNat 32 (bits d (32 * i + 31) (32 * i))) →
    exec (.winDataRead w .clean) s = .next ((((s.setWin w { held := ps, at_ := some x }).put (QP_WIN_STAT.PART w) 1).setWait none).answer
      .host (nth 0 ps 0))) ∧
  -- WIN_EMPTY_TIMEOUT
  (∀ (w : Win) (s : State), s.reads .host = true → s.hp.wait = some w.val → s.winConsumes w = true → (s.win w).held = [] →
    (s.queue (s.get (QP_WIN_CFG.QUEUE w))).en = false →
    exec (.winEmptyTimeout w) s = .next ((((s.tellPool []).setWait none).putFlag HP_STAT.EMPTY_TIMEOUT true).answer .host 0)) ∧
  -- WIN_REWIND
  (∀ (w : Win) (s : State) r, s.reach .host = true → s.winOpen w = true → r = s.rewind (.win w) (s.get (QP_WIN_CFG.QUEUE w)) →
    exec (.winRewind w) s = .next ((r.1.tellPool r.2).put (QP_WIN_STAT.RESULT w) 5)) ∧
  -- WIN_DROP_REST
  (∀ (w : Win) (s : State), s.reach .host = true → (s.queue (s.get (QP_WIN_CFG.QUEUE w))).stream = false → (s.win w).at_ = none →
    exec (.winDropRest w) s = .next (s.doDropRest (s.get (QP_WIN_CFG.QUEUE w)))) ∧
  (∀ (w : Win) (x : QSlot) (q : Nat) (s : State) u, s.reach .host = true → q = s.get (QP_WIN_CFG.QUEUE w) → (s.queue q).stream = false →
    (s.win w).at_ = some x → u = (s.setWin w {}).put (QP_WIN_STAT.PART w) 0 →
    exec (.winDropRest w) s = .next (if (u.queue q).chain.head?.any (fun y => decide (y.seq = x.seq)) = true then u.doDropRest q else u)) ∧
  -- WIN_RESTART
  (∀ (w : Win) (s : State), s.reach .host = true →
    exec (.winRestart w) s = .next (if s.winProduces w = true then (s.setWin w {}).put (QP_WIN_STAT.PART w) 0
      else s.put (QP_WIN_STAT.PART w) 0)) ∧
  -- QWM_WRITE
  (∀ who (v : Word) (s : State), Writable s who QP_QWM → (s.queue s.qsel).en = true →
    exec (.qwmWrite who v) s = .next (s.modQueue s.qsel (fun x => { x with wmHi := bits v.toNat 31 16, wmLo := bits v.toNat 15 0 })))

/-- The SRAM window and the scrubber. SRAM_WINDOW_READ inside a partition of a word without a new error drives the 32-bit part that it holds, a descriptor or link of the pool as the queue manager keeps it; outside every partition it drives 0 and places a REFUSED event. SRAM_WINDOW_WRITE into the capture partition, in a sound word, stores the four bytes and leaves every other byte; to the pool, outside every partition, or to the code outside Forge it is refused. SCRUB_READ of a clean word advances the scrubber by one word and, past the last, counts a pass and sets SCRUB_PASS; a single error is counted, a double error poisons the word. It says of these commands that they complete, under conditions on the state and the operands alone: SRAM_WINDOW_READ, SRAM_WINDOW_WRITE, SCRUB_READ. (07_pewter_pool.md) -/
def Obligations.SramWindowAndScrubber : Prop :=
  -- SRAM_WINDOW_READ
  (∀ (a : Word) (s : State), s.reads .host = true → inSram a.toNat = true → a.toNat % 4 = 0 → s.partOf a.toNat ≠ none →
    s.upset a.toNat = .clean → exec (.sramWindowRead a .clean) s = .next ((s.tellPool []).answer .host ((s.tellPool []).sramPart a.toNat))) ∧
  (∀ (a : Word) (e : Ecc) (s : State), s.reads .host = true → inSram a.toNat = true → a.toNat % 4 = 0 → s.partOf a.toNat = none →
    exec (.sramWindowRead a e) s = .next ((s.refuse .host a.toNat stNotPermitted).answer .host 0)) ∧
  -- SRAM_WINDOW_WRITE
  (∀ (a v : Word) (s : State), s.reach .host = true → inSram a.toNat = true → a.toNat % 4 = 0 → s.partOf a.toNat = some .capture →
    s.poisoned a.toNat = false → s.upset (wordAddr a.toNat) = .clean →
    ∃ t, exec (.sramWindowWrite a v) s = .next t ∧ t.bytes a.toNat 4 = leBytes 4 v.toNat ∧ BytesBut a.toNat 4 s t ∧ Frame [.sram, .poison] s t) ∧
  (∀ (a v : Word) (s : State), s.reach .host = true → inSram a.toNat = true → a.toNat % 4 = 0 →
    (s.partOf a.toNat = none ∨ s.partOf a.toNat = some .pool ∨ (s.partOf a.toNat = some .code ∧ s.mode ≠ 3)) →
    exec (.sramWindowWrite a v) s = .next (s.refuse .host a.toNat stNotPermitted)) ∧
  -- SCRUB_READ
  (∀ (s : State), s.awake = true → s.flag QP_SCRUB.EN = true → s.pool.scrub + 1 < 524288 → s.upset (sramBase + 32 * s.pool.scrub) = .clean →
    s.poisoned (sramBase + 32 * s.pool.scrub) = false →
    exec (.scrubRead .clean) s = .next { s with pool := { s.pool with scrub := s.pool.scrub + 1 } }) ∧
  (∀ (s : State), s.awake = true → s.flag QP_SCRUB.EN = true → s.pool.scrub = 524287 → s.upset (sramBase + 32 * s.pool.scrub) = .clean →
    s.poisoned (sramBase + 32 * s.pool.scrub) = false →
    exec (.scrubRead .clean) s = .next (State.setEvt (State.put { s with pool := { s.pool with scrub := 0 } } QP_SCRUB.PASSES
      (s.get QP_SCRUB.PASSES + 1)) QP_EVT.SCRUB_PASS)) ∧
  (∀ (a : Nat) (s : State), s.poisoned a = false →
    s.eccRead a .single = ((s.setUpset a .clean).count (QP_ECC.CORR (bits (a - sramBase) 23 20)) 1, [.corr (bits (a - sramBase) 23 20)]) ∧
    (s.eccRead a .double).1.poisoned a = true)

/-- The steps of a load, from START to the end of a cast. A write of FAB_LOAD (LOAD_START) with START = 1 sets REFUSED where a load runs or is due or the mode takes none of its kind; otherwise a partial load begins, a full load in a running mode goes back to Assay with cause 15, and a full load in Assay begins. A load that begins is in FETCH with no error, none of its bytes there and no cell staged. FAB_PUSH_WRITE below 64 bytes adds four bytes to a push load in FETCH, a full one staging them at its place in the stage; the word that makes a full ingot complete leads to VERIFY; it is discarded outside FETCH or for another source. PUSH_TIMEOUT ends a push load that has begun as aborted, its duration open. INGOT_VERIFY_DONE of a load with all its bytes, not a partial one in whose last cycle Outage was entered, and not restoring: the first failing check ends the load with its error; a partial ingot that passes quiesces its scope, a full one opens Forge, where POLICY and QUEUE are written unless the cast restores. Where Outage wins, the load ends as aborted. A load that fails outside the boot chain shows its error and section, STATE 0, gives its staged cells back and sets LOAD_FAIL. PARTIAL_QUIESCE_DONE of a port whose transmissions have ended cuts its lanes' receptions and enters CAST; for a scope that is no port it enters CAST. CAST_COMPLETE in Forge applies the sections in their order, records the ingot, restarts the cores that run, sets LOAD_DONE and leaves Forge; a restore cast whose second read differs goes back to Assay. PARTIAL_CAST_COMPLETE applies the sections of its scope, records the version, resumes the scope, restarts the cores the ingot runs and sets LOAD_DONE. It says of these commands that they complete, under conditions on the state and the operands alone: LOAD_START, FAB_PUSH_WRITE, PUSH_TIMEOUT, INGOT_VERIFY_DONE, PARTIAL_QUIESCE_DONE, CAST_COMPLETE, PARTIAL_CAST_COMPLETE. (08_fabric_ingots.md, 15_power_modes.md) -/
def Obligations.IngotsAreFetchedCheckedAndCast : Prop :=
  -- LOAD_START
  (∀ who (v : Word) (s : State) u, Writable s who FAB_LOAD → bit v.toNat 31 = true → u = s.merge FAB_LOAD 0x70000000 v →
    exec (.loadStart who v) s = .next (
      if u.startRefused (u.flag FAB_LOAD.KIND) = true then u.setEvt FAB_EVT.REFUSED
      else if u.flag FAB_LOAD.KIND = true then u.beginLoad (min 2 (u.get FAB_LOAD.SRC)) true 0
      else if u.running = true then u.backToAssay 15 (min 2 (u.get FAB_LOAD.SRC), 1)
      else u.beginLoad (min 2 (u.get FAB_LOAD.SRC)) false 0)) ∧
  (∀ (src : Nat) (part : Bool) (c : Nat) (s : State) u, u = ((s.put FAB_STAT.STATE 1).put FAB_STAT.ERR 0).put FAB_STAT.ERR_SECT 0 →
    s.beginLoad src part c = { u with fab := { u.fab with
      push := [], ingot := [], src := src, partialLoad := part, chain := c, due := none, stage := [],
      stageLimit := 256 * u.freeCells } }) ∧
  -- FAB_PUSH_WRITE
  (∀ (v : Word) (s : State) u, Writable s .host FAB_PUSH → s.fabState = 1 → s.fab.src = 2 → s.fab.push.length < 60 →
    u = { s with fab := { s.fab with push := s.fab.push ++ leBytes 4 v.toNat } } →
    exec (.fabPushWrite v) s = .next (if s.fab.partialLoad = true then u
      else u.setSpan (stageBase + s.fab.push.length) (leBytes 4 v.toNat))) ∧
  (∀ (v : Word) (g : List Byte) (s : State) u, Writable s .host FAB_PUSH → s.fabState = 1 → s.fab.src = 2 → s.fab.partialLoad = false →
    g = s.fab.push ++ leBytes 4 v.toNat → 64 ≤ g.length → g.length = ingLen g →
    u = State.put { s with fab := { s.fab with push := g } } FAB_STAT.SCOPE (ingScope g) → u.earlyCheck g = none →
    exec (.fabPushWrite v) s = .next ((u.setSpan (stageBase + s.fab.push.length) (leBytes 4 v.toNat)).put FAB_STAT.STATE 2)) ∧
  (∀ (v : Word) (s : State), Writable s .host FAB_PUSH → (s.fabState ≠ 1 ∨ s.fab.src ≠ 2) → exec (.fabPushWrite v) s = .next s) ∧
  -- PUSH_TIMEOUT
  (∀ (s : State), s.fabState = 1 → s.fab.src = 2 → s.fab.push ≠ [] → exec .pushTimeout s = .next ((s.openTime).loadFail errAborted)) ∧
  -- INGOT_VERIFY_DONE
  (∀ (o : Option (List Byte)) (us : Nat) (g : List Byte) (s : State) u r, s.verifyReady = true → (s.fab.partialLoad = false ∨ s.fab.outNow = false) →
    s.fetched o = some g → s.fetchCheck g = none →
    u = s.showScope g → u.signCheck g = none → u.versionCheck u.fab.partialLoad g = none → u.fab.restore = false →
    r = State.stageFlash { u with fab := { u.fab with restore := false } } g → r.1 = none → r.2.lateCheck g = none →
    exec (.ingotVerifyDone o us) s = .next (if r.2.fab.partialLoad = true then r.2.quiesceScope g else r.2.openForge g)) ∧
  (∀ (g : List Byte) (s : State) u, u = (State.put { s with fab := { s.fab with ingot := g } } FAB_STAT.STATE 5).enterMode 3 2 →
    s.openForge g = if u.fab.restore = true then u.castPolicy (sectBytes g 1) else u.poolLost.castMemory g) ∧
  (∀ (o : Option (List Byte)) (us : Nat) (s : State), s.verifyReady = true → (s.fab.partialLoad = false ∨ s.fab.outNow = false) →
    s.fetched o = none → exec (.ingotVerifyDone o us) s = .next ((s.put FAB_TIME.US us).loadFail errFlash)) ∧
  (∀ (o : Option (List Byte)) (us : Nat) (g : List Byte) (e : IngErr) (s : State), s.verifyReady = true →
    (s.fab.partialLoad = false ∨ s.fab.outNow = false) → s.fetched o = some g → s.fetchCheck g = some e →
    exec (.ingotVerifyDone o us) s = .next ((s.put FAB_TIME.US us).loadFail e)) ∧
  (∀ (o : Option (List Byte)) (us : Nat) (g : List Byte) (e : IngErr) (s : State) u, s.verifyReady = true →
    (s.fab.partialLoad = false ∨ s.fab.outNow = false) → s.fetched o = some g → s.fetchCheck g = none → u = s.showScope g →
    (u.signCheck g = some e ∨ (u.signCheck g = none ∧ u.versionCheck u.fab.partialLoad g = some e)) →
    exec (.ingotVerifyDone o us) s = .next ((u.put FAB_TIME.US us).loadFail e)) ∧
  (∀ (o : Option (List Byte)) (us : Nat) (s : State) r, s.verifyReady = true → s.fab.partialLoad = true → s.fab.outNow = true → r = s.outWins →
    exec (.ingotVerifyDone o us) s =
      .next (if r.1 = true then (r.2.put FAB_TIME.US us).loadFail errAborted else r.2.endChecks o us)) ∧
  (∀ (n c : Nat) (s : State) u, s.fab.chain = 0 → u = (((s.put FAB_STAT.ERR c).put FAB_STAT.ERR_SECT n).put FAB_STAT.STATE 0).unstage →
    s.loadFail (c, some n) = State.setEvt { u with fab := { u.fab with push := [], ingot := [], partialLoad := false, chain := 0 } }
      FAB_EVT.LOAD_FAIL) ∧
  -- PARTIAL_QUIESCE_DONE
  (∀ (p : Port) (s : State), s.fabState = 4 → ingScope s.fab.ingot = p.val + 1 → s.get (LP_STAT.TX_CNT p) = 0 →
    exec .partialQuiesceDone s = .next (foldState (s.portLanes p) (fun n t => t.cutRx n) (s.put FAB_STAT.STATE 5))) ∧
  (∀ (s : State), s.fabState = 4 → (ingScope s.fab.ingot = 0 ∨ 5 ≤ ingScope s.fab.ingot) →
    exec .partialQuiesceDone s = .next (s.put FAB_STAT.STATE 5)) ∧
  -- CAST_COMPLETE
  (∀ (o : Option (List Byte)) (us : Nat) (g : List Byte) (s : State) u, s.mode = 3 → s.fabState = 5 → g = s.fab.ingot →
    (s.fab.restore = false ∨ ∃ l, o = some l ∧ ingDigest (l.take (ingLen l)) = ingDigest g) →
    u = ((((State.castSections { s with pool := { s.pool with hadQueues := false } } g).castRecord g us).followRole).relevel) →
    exec (.castComplete o us) s = .next ((((foldState ((List.range 32).filter (fun k => bit (runMap g) k)) (fun k t => t.restartCore k) u).setEvt
      FAB_EVT.LOAD_DONE).leaveForge).deliverHeld)) ∧
  (∀ (l : List Byte) (us : Nat) (s : State) u, s.mode = 3 → s.fabState = 5 → s.fab.restore = true →
    ingDigest (l.take (ingLen l)) ≠ ingDigest s.fab.ingot → u = (s.put FAB_STAT.STATE 0).backToAssay 3 (0, 2) →
    exec (.castComplete (some l) us) s = .next { u with fab := { u.fab with ingot := [] } }) ∧
  -- PARTIAL_CAST_COMPLETE
  (∀ (us : Nat) (g : List Byte) (s : State) u, s.fabState = 5 → s.fab.partialLoad = true → g = s.fab.ingot →
    u = ((((s.partSections g).unstage.put FAB_PARTIAL.VERSION (ingVer g)).put FAB_TIME.US us).put FAB_STAT.STATE 0) →
    ∃ w x : State, w = { u with fab := { u.fab with
        push := [], ingot := [], partialLoad := false, runs := (u.fab.runs &&& (0xFFFFFFFF ^^^ ingCores g)) ||| runMap g } } ∧
      x = (if 1 ≤ ingScope g ∧ ingScope g ≤ 4 then w.resumePort (ingScope g - 1) (s.get (LP_MAINS.VCH (ingScope g - 1)))
          (s.get (LP_CFG.GRID (ingScope g - 1))) else if ingScope g = 5 then w.resumeMeter else (w.endLinks 0).rfShow) ∧
      exec (.partialCastComplete us) s = .next (State.setEvt (foldState ((List.range 32).filter (fun k => bit (runMap g) k))
        (fun k t => t.restartCore k) x) FAB_EVT.LOAD_DONE))

/-- Fetching the instruction at a core's PC. A fetch where the core's rights do not allow it raises ACCESS (cause 4) with the PC: an S core fetches in the code and data partition, an L core in its window. Any other fetch of a line that the cache holds gives that line's word. Of a line it does not hold the SRAM word is read, which checks its code: a poisoned one raises POISON (cause 5) with the PC, and otherwise the fetch gives the word at the PC and the cache holds the line from then on. Where the cache holds the line, or the SRAM word has no bit in error, a fetch that gives a word changes nothing but the core's cache. For 6 retired instructions of a core that runs while a counter-overflow interrupt it can take waits, the interrupt (cause 10) is entered before the next instruction. (09_sequencers.md, 08_fabric_ingots.md) -/
def Obligations.FetchTakesTheWordAtThePc : Prop :=
  (∀ (k : Core) (s u : State), u = s.readSpan (lineOf (s.pc k.val)) 32 →
    (s.mayFetch k.val (s.pc k.val) = false → s.fetch k = (none, s.raise k.val 4 (s.pc k.val))) ∧
    (∀ l, s.mayFetch k.val (s.pc k.val) = true → s.cached k.val (s.pc k.val) = some l →
      (s.fetch k).1 = some (nth 0 l.words (s.pc k.val % 32 / 4))) ∧
    (s.mayFetch k.val (s.pc k.val) = true → s.cached k.val (s.pc k.val) = none → u.poisoned (s.pc k.val) = true →
      s.fetch k = (none, u.raise k.val 5 (s.pc k.val))) ∧
    (s.mayFetch k.val (s.pc k.val) = true → s.cached k.val (s.pc k.val) = none → u.poisoned (s.pc k.val) = false →
      s.pc k.val % 4 = 0 → (s.fetch k).1 = some (u.word (s.pc k.val)) ∧
      (s.fetch k).2.cached k.val (s.pc k.val) = some (u.loadLine (s.pc k.val)))) ∧
  (∀ (k : Nat) (a : Nat) (s : State), s.lCore k = false → (s.mayFetch k a = true ↔ s.partOf a = some .code)) ∧
  (∀ (k : Nat) (a : Nat) (s : State), s.lCore k = true → (s.mayFetch k a = true ↔ s.partOf a = some .code ∧
    sramBase + 256 * s.get (SEQ_LWIN.BASE k) ≤ a ∧ a < sramBase + 256 * s.get (SEQ_LWIN.BASE k) + 256 * s.get (SEQ_LWIN.SIZE k))) ∧
  (∀ (k : Core) (s u : State) (w : Word), (s.cached k.val (s.pc k.val) ≠ none ∨ s.upset (s.pc k.val) = .clean) → s.fetch k = (some w, u) →
    Frame [.cores] s u ∧ (∃ x, u.core k.val = { s.core k.val with cache := x }) ∧ (∀ j : Nat, j ≠ k.val → u.core j = s.core j)) ∧
  (∀ (i : Instr) (k : Core) (w : Nat) (s : State), seqWord i = some (k, w) → s.coreRuns k.val = true → s.irqDue k.val = true →
    6 ≤ (s.core k.val).since → exec i s = exec i ((s.modCore k.val (fun c => { c with irq := false })).raise k.val 10 0))

/-- The integer instructions: RD takes the result, the PC goes on by 4. On a running core that has fetched its word and for which no interrupt waits, each R-format ALU instruction, ADDK to CLTK, LIH and the immediate shifts put their result of R182 into RD and add 4 to the PC. Arithmetic wraps modulo 2^32, shifts take the low five bits, comparisons give 1 or 0, ADDK and CLTK extend the sign of IMM16, ANDK, ORK and XORK extend with zeros. A write of s0 is discarded and s0 reads 0. No other register of the core, no accumulator, no other core, no memory and no device register but the core's PC changes. It says of these commands that they complete, under conditions on the state and the operands alone: ADD, SUB, AND, OR, XOR, SHL, SHR, ASR, CLT, CLTU, MUL, MULHI, MULHIU, MIN, MAX, ADDK, ANDK, ORK, XORK, CLTK, LIH, SHLK, SHRK, ASRK. (09_sequencers.md) -/
def Obligations.IntegerInstructionsWriteRd : Prop :=
  (∀ (k : Core) (rd ra rb : Sreg) (imm : Half) (sh : ShAmt) (s u : State) (x y : Word) (i : Instr) (v : Word),
    x = u.sr k.val ra → y = u.sr k.val rb → Fetched i k s u →
    (i, v) ∈ [(.add k rd ra rb, x + y), (.sub k rd ra rb, x - y), (.and_ k rd ra rb, x &&& y), (.or_ k rd ra rb, x ||| y),
      (.xor_ k rd ra rb, x ^^^ y), (.shl k rd ra rb, x <<< (y.toNat % 32)), (.shr k rd ra rb, x >>> (y.toNat % 32)),
      (.asr k rd ra rb, x.sshiftRight (y.toNat % 32)), (.clt k rd ra rb, if x.toInt < y.toInt then 1 else 0),
      (.cltu k rd ra rb, if x.toNat < y.toNat then 1 else 0), (.mul k rd ra rb, x * y),
      (.mulhi k rd ra rb, BitVec.ofInt 32 (x.toInt * y.toInt / 2 ^ 32)),
      (.mulhiu k rd ra rb, BitVec.ofNat 32 (x.toNat * y.toNat / 2 ^ 32)),
      (.min k rd ra rb, if x.toInt < y.toInt then x else y), (.max k rd ra rb, if x.toInt < y.toInt then y else x),
      (.addk k rd ra imm, x + imm.signExtend 32), (.andk k rd ra imm, x &&& imm.setWidth 32),
      (.ork k rd ra imm, x ||| imm.setWidth 32), (.xork k rd ra imm, x ^^^ imm.setWidth 32),
      (.cltk k rd ra imm, if x.toInt < (imm.signExtend 32).toInt then 1 else 0), (.lih k rd imm, imm.setWidth 32 <<< 16),
      (.shlk k rd ra sh, x <<< sh.val), (.shrk k rd ra sh, x >>> sh.val), (.asrk k rd ra sh, x.sshiftRight sh.val)] →
    ∃ t, exec i s = .next t ∧
      t.sr k.val rd = (if rd.val = 0 then 0 else v) ∧ (∀ j : Sreg, j ≠ rd → t.sr k.val j = u.sr k.val j) ∧
      (∀ a : AccN, t.acc k.val a = u.acc k.val a) ∧ t.reg (SEQ_PC k.val) = u.reg (SEQ_PC k.val) + 4 ∧
      CoreBut k.val [SEQ_PC k.val] u t) ∧
  (∀ (k : Nat) (s : State), s.sr k 0 = 0)

/-- Hops, CALL and JMPR. On a running core that has fetched its word and for which no interrupt waits: a hop adds 4 times OFFS16 to the PC if its condition holds of RA and RB and 4 otherwise, and writes no register. CALL writes PC + 4 into s31 and adds 4 times OFFS26 to the PC. JMPR to RA + IMM16 that is a multiple of 4 writes PC + 4 into RD and jumps; to another address it raises MISALIGN (cause 3) with the address. Nothing else of the state changes. It says of these commands that they complete, under conditions on the state and the operands alone: HEQ, HNE, HLT, HLE, HLTU, HLEU, CALL, JMPR. (09_sequencers.md) -/
def Obligations.HopsCallAndJmprMoveThePc : Prop :=
  (∀ (k : Core) (ra rb : Sreg) (off : Half) (s u : State) (x y : Word) (i : Instr) (c : Prop) [Decidable c],
    Fetched i k s u → x = u.sr k.val ra → y = u.sr k.val rb →
    ((i = .heq k ra rb off ∧ (c ↔ x = y)) ∨ (i = .hne k ra rb off ∧ (c ↔ x ≠ y)) ∨
      (i = .hlt k ra rb off ∧ (c ↔ x.toInt < y.toInt)) ∨ (i = .hle k ra rb off ∧ (c ↔ x.toInt ≤ y.toInt)) ∨
      (i = .hltu k ra rb off ∧ (c ↔ x.toNat < y.toNat)) ∨ (i = .hleu k ra rb off ∧ (c ↔ x.toNat ≤ y.toNat))) →
    ∃ t, exec i s = .next t ∧
      t.reg (SEQ_PC k.val) = (if c then u.reg (SEQ_PC k.val) + 4 * off.signExtend 32 else u.reg (SEQ_PC k.val) + 4) ∧
      (∀ j : Sreg, t.sr k.val j = u.sr k.val j) ∧ (∀ a : AccN, t.acc k.val a = u.acc k.val a) ∧ CoreBut k.val [SEQ_PC k.val] u t) ∧
  (∀ (k : Core) (off : Off26) (s u : State), Fetched (.call k off) k s u →
    ∃ t, exec (.call k off) s = .next t ∧
      t.reg (SEQ_PC k.val) = u.reg (SEQ_PC k.val) + 4 * off.signExtend 32 ∧
      t.sr k.val 31 = u.reg (SEQ_PC k.val) + 4 ∧ (∀ j : Sreg, j ≠ 31 → t.sr k.val j = u.sr k.val j) ∧
      (∀ a : AccN, t.acc k.val a = u.acc k.val a) ∧ CoreBut k.val [SEQ_PC k.val] u t) ∧
  (∀ (k : Core) (rd ra : Sreg) (imm : Half) (s u : State) (a : Word), Fetched (.jmpr k rd ra imm) k s u →
    a = u.sr k.val ra + imm.signExtend 32 →
    (a.toNat % 4 ≠ 0 → exec (.jmpr k rd ra imm) s = .next (u.raise k.val 3 a.toNat)) ∧
    (a.toNat % 4 = 0 → ∃ t, exec (.jmpr k rd ra imm) s = .next t ∧ t.reg (SEQ_PC k.val) = a ∧
      t.sr k.val rd = (if rd.val = 0 then 0 else u.reg (SEQ_PC k.val) + 4) ∧
      (∀ j : Sreg, j ≠ rd → t.sr k.val j = u.sr k.val j) ∧ (∀ b : AccN, t.acc k.val b = u.acc k.val b) ∧
      CoreBut k.val [SEQ_PC k.val] u t))

/-- The accumulator instructions and ACC_SAT. On a running core that has fetched its word and for which no interrupt waits, each accumulator instruction gives the result of R183 and adds 4 to the PC. MAC and MSU limit to plus or minus (2^47 - 1), MFA rounds with halves away from zero and limits to plus or minus (2^31 - 1), PADD, PSUB and PSCL treat the two 24-bit halves apart and limit each to plus or minus (2^23 - 1); a result that was limited sets SEQ_STAT.ACC_SAT, and no other result changes it. MULA, MTA, ACLR, PSET and AMOV write their accumulator alone; MFA, MFAL, MFAU, PGETH and PGETL write R1 alone. It says of these commands that they complete, under conditions on the state and the operands alone: MULA, MAC, MSU, MTA, MFA, MFAL, MFAU, ACLR, PSET, PADD, PSUB, PSCL, PGETH, PGETL, AMOV. (09_sequencers.md) -/
def Obligations.AccumulatorInstructionsComputeAndSaturate : Prop :=
  (∀ (k : Core) (r1 r2 : Sreg) (ad src : AccN) (s u : State) (i : Instr) (x : Int), Fetched i k s u →
    (i, x) ∈ [(.mula k r1 r2 ad, op24 (u.sr k.val r1) * op24 (u.sr k.val r2)), (.mta k r1 ad, (u.sr k.val r1).toInt),
      (.aclr k ad, 0), (.amov k ad src, u.acc k.val src),
      (.pset k r1 r2 ad, accPair (op24 (u.sr k.val r1)) (op24 (u.sr k.val r2)))] →
    ∃ t, exec i s = .next t ∧ t.acc k.val ad = x ∧ (∀ a : AccN, a ≠ ad → t.acc k.val a = u.acc k.val a) ∧
      (∀ j : Sreg, t.sr k.val j = u.sr k.val j) ∧
      t.reg (SEQ_PC k.val) = u.reg (SEQ_PC k.val) + 4 ∧ CoreBut k.val [SEQ_PC k.val] u t) ∧
  (∀ (k : Core) (r1 r2 : Sreg) (ad : AccN) (s u : State) (i : Instr) (x : Int), Fetched i k s u →
    (i, x) ∈ [(.mac k r1 r2 ad, u.acc k.val ad + op24 (u.sr k.val r1) * op24 (u.sr k.val r2)),
      (.msu k r1 r2 ad, u.acc k.val ad - op24 (u.sr k.val r1) * op24 (u.sr k.val r2))] →
    ∃ t, exec i s = .next t ∧ t.acc k.val ad = clampInt (-(2 ^ 47 - 1)) (2 ^ 47 - 1) x ∧
      (∀ a : AccN, a ≠ ad → t.acc k.val a = u.acc k.val a) ∧
      t.reg (SEQ_STAT k.val) = (if x < -(2 ^ 47 - 1) ∨ 2 ^ 47 - 1 < x then (u.putFlag (SEQ_STAT.ACC_SAT k.val) true).reg (SEQ_STAT k.val)
        else u.reg (SEQ_STAT k.val)) ∧
      (∀ j : Sreg, t.sr k.val j = u.sr k.val j) ∧
      t.reg (SEQ_PC k.val) = u.reg (SEQ_PC k.val) + 4 ∧ CoreBut k.val [SEQ_PC k.val, SEQ_STAT k.val] u t) ∧
  (∀ (k : Core) (r1 : Sreg) (ad src : AccN) (s u : State) (i : Instr) (hi lo : Int), Fetched i k s u →
    (i, hi, lo) ∈ [(.padd k ad src, accHi (u.acc k.val ad) + accHi (u.acc k.val src), accLo (u.acc k.val ad) + accLo (u.acc k.val src)),
      (.psub k ad src, accHi (u.acc k.val ad) - accHi (u.acc k.val src), accLo (u.acc k.val ad) - accLo (u.acc k.val src)),
      (.pscl k r1 ad, roundDiv (accHi (u.acc k.val ad) * op24 (u.sr k.val r1)) (2 ^ 23),
        roundDiv (accLo (u.acc k.val ad) * op24 (u.sr k.val r1)) (2 ^ 23))] →
    ∃ t, exec i s = .next t ∧ accHi (t.acc k.val ad) = clampInt (-8388607) 8388607 hi ∧
      accLo (t.acc k.val ad) = clampInt (-8388607) 8388607 lo ∧
      (∀ a : AccN, a ≠ ad → t.acc k.val a = u.acc k.val a) ∧
      t.reg (SEQ_STAT k.val) = (if clampInt (-8388607) 8388607 hi ≠ hi ∨ clampInt (-8388607) 8388607 lo ≠ lo then
        (u.putFlag (SEQ_STAT.ACC_SAT k.val) true).reg (SEQ_STAT k.val) else u.reg (SEQ_STAT k.val)) ∧
      (∀ j : Sreg, t.sr k.val j = u.sr k.val j) ∧
      t.reg (SEQ_PC k.val) = u.reg (SEQ_PC k.val) + 4 ∧ CoreBut k.val [SEQ_PC k.val, SEQ_STAT k.val] u t) ∧
  (∀ (k : Core) (r1 : Sreg) (src : AccN) (sh : ShAmt) (s u : State) (v : Word) (x : Int) (i : Instr) (b : Bool), Fetched i k s u →
    x = roundDiv (u.acc k.val src) (2 ^ sh.val) →
    (i, v, b) ∈ [(.mfa k r1 src sh, BitVec.ofInt 32 (clampInt (-(2 ^ 31 - 1)) (2 ^ 31 - 1) x), decide (x < -(2 ^ 31 - 1) ∨ 2 ^ 31 - 1 < x)),
      (.mfal k r1 src, BitVec.ofInt 32 (u.acc k.val src), false), (.mfau k r1 src, BitVec.ofInt 32 (u.acc k.val src / 2 ^ 32), false),
      (.pgeth k r1 src, BitVec.ofInt 32 (accHi (u.acc k.val src)), false),
      (.pgetl k r1 src, BitVec.ofInt 32 (accLo (u.acc k.val src)), false)] →
    ∃ t, exec i s = .next t ∧ t.sr k.val r1 = (if r1.val = 0 then 0 else v) ∧
      t.reg (SEQ_STAT k.val) = (if b = true then (u.putFlag (SEQ_STAT.ACC_SAT k.val) true).reg (SEQ_STAT k.val) else u.reg (SEQ_STAT k.val)) ∧
      (∀ j : Sreg, j ≠ r1 → t.sr k.val j = u.sr k.val j) ∧ (∀ a : AccN, t.acc k.val a = u.acc k.val a) ∧
      t.reg (SEQ_PC k.val) = u.reg (SEQ_PC k.val) + 4 ∧ CoreBut k.val [SEQ_PC k.val, SEQ_STAT k.val] u t)

/-- LDW, LDH, LDB, STW, STH and STB: alignment, rights, bytes, registers. On a running core that has fetched its word and for which no interrupt waits, with a = RA + IMM16 and n the width. An address that is no multiple of n raises MISALIGN (cause 3); an SRAM address outside the core's rights, a register at another width than a word, and any other address raise ACCESS (cause 4), all with the address and no other effect. A load checks the code of its SRAM word and raises POISON (cause 5) of one that is poisoned; of a word that is clean and not poisoned it puts the n bytes, little-endian and zero-extended, into RD and changes nothing but RD and the PC. A store outside the registry reads the rest of its SRAM word and writes the n low bytes of RD at a; where the word is clean, every SRAM byte outside keeps its value unless the word was poisoned, and nothing else but the PC changes; a store into the registry goes to both units. A word access to a register the core may reach reads or writes it, the PC past the access. It says of these commands that they complete, under conditions on the state and the operands alone: LDW, LDH, LDB, STW, STH, STB. (09_sequencers.md, 07_pewter_pool.md) -/
def Obligations.LoadsAndStoresReachTheirBytes : Prop :=
  ∀ (k : Core) (rd ra : Sreg) (imm : Half) (e : Ecc) (s u : State) (a n : Nat) (ld st : Instr),
    (n, ld, st) ∈ [(4, .ldw k rd ra imm e, .stw k rd ra imm), (2, .ldh k rd ra imm e, .sth k rd ra imm),
      (1, .ldb k rd ra imm e, .stb k rd ra imm)] → a = (u.sr k.val ra + imm.signExtend 32).toNat →
    (Fetched ld k s u →
      -- exceptions of a load
      (a % n ≠ 0 → exec ld s = .next (u.raise k.val 3 a)) ∧
      (a % n = 0 → inSram a = true → u.mayLoad k.val a = false → exec ld s = .next (u.raise k.val 4 a)) ∧
      (a % n = 0 → inSram a = false → (n ≠ 4 ∨ u.mayReadReg k a = false) → exec ld s = .next (u.raise k.val 4 a)) ∧
      -- a load
      (∀ r v, a % n = 0 → inSram a = true → u.mayLoad k.val a = true → r = u.eccRead a e → v = r.1.tellPool r.2 →
        exec ld s = .next (State.irqCount (if v.poisoned a = true then v.raise k.val 5 a else v.retire k.val rd (v.loadBytes a n)) k.val)) ∧
      (a % n = 0 → inSram a = true → u.mayLoad k.val a = true → u.poisoned a = false → e = .clean → u.upset a = .clean →
        ∃ t, exec ld s = .next t ∧
          t.sr k.val rd = (if rd.val = 0 then 0 else ((u.sramPart (a - a % 4) >>> (8 * (a % 4))).setWidth (8 * n)).setWidth 32) ∧
          (∀ j : Sreg, j ≠ rd → t.sr k.val j = u.sr k.val j) ∧ (∀ b : AccN, t.acc k.val b = u.acc k.val b) ∧
          t.reg (SEQ_PC k.val) = u.reg (SEQ_PC k.val) + 4 ∧ CoreBut k.val [SEQ_PC k.val] u t) ∧
      (∀ r, a % n = 0 → inSram a = false → n = 4 → u.mayReadReg k a = true → r = u.readReg (.core k) a e →
        exec ld s = .next ((r.2.retire k.val rd (r.1.getD 0)).irqCount k.val))) ∧
    (Fetched st k s u →
      -- exceptions of a store
      (a % n ≠ 0 → exec st s = .next (u.raise k.val 3 a)) ∧
      (a % n = 0 → inSram a = true → u.mayStore k.val a = false → exec st s = .next (u.raise k.val 4 a)) ∧
      (a % n = 0 → inSram a = false → (n ≠ 4 ∨ u.mayWriteReg k a = false) → exec st s = .next (u.raise k.val 4 a)) ∧
      -- a store
      (a % n = 0 → inSram a = true → u.mayStore k.val a = true → u.partOf a = some .registry → exec st s = .next (State.irqCount
        (State.advance (u.putEntry ((a - u.regBase) / 64) ((a - u.regBase) % 64) (leBytes n (u.sr k.val rd).toNat)) k.val) k.val)) ∧
      (a % n = 0 → inSram a = true → u.mayStore k.val a = true → u.partOf a ≠ some .registry → exec st s = .next (State.irqCount
        (State.advance ((u.readSpan a n).setSpan a (leBytes n (u.sr k.val rd).toNat)) k.val) k.val)) ∧
      (a % n = 0 → inSram a = true → u.mayStore k.val a = true → u.partOf a ≠ some .registry → u.upset a = .clean →
        ∃ t, exec st s = .next t ∧ t.bytes a n = leBytes n (u.sr k.val rd).toNat ∧
          (u.poisoned a = false → BytesBut a n u t) ∧ t.poisoned a = false ∧ (∀ j, t.core j = u.core j) ∧
          t.reg (SEQ_PC k.val) = u.reg (SEQ_PC k.val) + 4 ∧
          RegsBut [SEQ_PC k.val] u t ∧ Frame [.regs, .sram, .poison] u t) ∧
      (a % n = 0 → inSram a = false → n = 4 → u.mayWriteReg k a = true →
        exec st s = .next (((u.advance k.val).act (.core k) a (u.sr k.val rd)).irqCount k.val)))

/-- QGET, QGETE, QTRY, QPUT, QREW, QLVL, SIN, SOUT and the sample that arrives. On a running core that has fetched its word and for which no interrupt waits, with q = RA[9:0] and a = RB. QGET, QGETE, QTRY and QPUT raise the first fault in the order MISALIGN (a no multiple of 32), ACCESS (a outside the core's rights or q not its own), QUEUE (q not cast). Otherwise QGET, QGETE and QTRY take the head word, store it at a and put its bits 255 to 240 into RD; on a queue that has none QTRY puts 0 into RD, QGET stalls, QGETE puts 0 into RD if PEND and MASK meet and stalls otherwise. QPUT checks the code of the word at a, raises POISON (cause 5) of a poisoned one, and otherwise appends the word and puts the outcome into RD. QREW rewinds and puts 5; QLVL puts the level; both raise ACCESS and QUEUE as above. SIN takes the oldest sample of its FIFO into R, of a complex stream also Q into R + 1, or stalls on an empty one; SOUT appends a sample of R, of a complex stream R and R + 1, or stalls at 16. A complex stream with an odd R raises ILLEGAL (cause 1), a port without a route STREAM (cause 7) with the port. STREAM_SAMPLE_ARRIVAL puts the sample on the crossbar: the only sink being an input port of a core, it appends the sample and latches SIN if the FIFO was empty, and a full FIFO drops it and sets SIN_OVF; the only sink being a queue, the sample is packed for it. It says of these commands that they complete, under conditions on the state and the operands alone: QGET, QGETE, QTRY, QPUT, QREW, QLVL, SIN, SOUT, STREAM_SAMPLE_ARRIVAL. (09_sequencers.md, 07_pewter_pool.md, 08_fabric_ingots.md) -/
def Obligations.QueueAndStreamInstructions : Prop :=
  -- the order of the faults
  (∀ (k : Core) (q a : Nat) (may : Bool) (s : State),
    (a % 32 ≠ 0 → s.queueFault k q a may = some (3, a)) ∧
    (a % 32 = 0 → (inSram a = false ∨ may = false ∨ s.mayQueue k.val q = false) → s.queueFault k q a may = some (4, a)) ∧
    (a % 32 = 0 → inSram a = true → may = true → s.mayQueue k.val q = true →
      s.queueFault k q a may = if (s.queue q).en = true then none else some (6, q))) ∧
  -- QGET, QGETE, QTRY
  (∀ (k : Core) (rd ra rb : Sreg) (e : Ecc) (x : Nat × Nat) (s u : State), ∀ (i : Instr), i ∈ [Instr.qget k rd ra rb e, .qgete k rd ra rb e, .qtry k rd ra rb e] →
    Fetched i k s u → u.queueFault k (u.qreg k ra) (u.qaddr k rb) (u.mayStore k.val (u.qaddr k rb)) = some x →
    exec i s = .next (u.raise k.val x.1 x.2)) ∧
  (∀ (k : Core) (rd ra rb : Sreg) (e : Ecc) (s u v : State) (h : Line) (l : List PoolNote),
    ∀ (i : Instr), i ∈ [Instr.qget k rd ra rb e, .qgete k rd ra rb e, .qtry k rd ra rb e] → Fetched i k s u →
    u.queueFault k (u.qreg k ra) (u.qaddr k rb) (u.mayStore k.val (u.qaddr k rb)) = none →
    u.takeWord (u.qreg k ra) e = (some h, v, l) →
      exec i s = .next (State.irqCount (((v.tellPool l).storeSram (u.qaddr k rb) (leBytes 32 h.toNat)).retire k.val rd
        (BitVec.ofNat 32 (bits h.toNat 255 240))).uaFlows k.val)) ∧
  (∀ (k : Core) (rd ra rb : Sreg) (e : Ecc) (s u v w : State) (l : List PoolNote),
    u.queueFault k (u.qreg k ra) (u.qaddr k rb) (u.mayStore k.val (u.qaddr k rb)) = none →
    u.takeWord (u.qreg k ra) e = (none, v, l) → w = v.tellPool l →
    (Fetched (.qtry k rd ra rb e) k s u → exec (.qtry k rd ra rb e) s = .next ((w.retire k.val rd 0).irqCount k.val)) ∧
    (Fetched (.qget k rd ra rb e) k s u →
      exec (.qget k rd ra rb e) s = .next ((w.stallCore k.val 2 (.qget rd.val (u.qreg k ra) (u.qaddr k rb) false)).irqCount k.val)) ∧
    (Fetched (.qgete k rd ra rb e) k s u → w.seqEvents k.val ≠ 0 →
      exec (.qgete k rd ra rb e) s = .next ((w.retire k.val rd 0).irqCount k.val)) ∧
    (Fetched (.qgete k rd ra rb e) k s u → w.seqEvents k.val = 0 →
      exec (.qgete k rd ra rb e) s = .next ((w.stallCore k.val 2 (.qget rd.val (u.qreg k ra) (u.qaddr k rb) true)).irqCount k.val))) ∧
  -- QPUT, QREW, QLVL
  (∀ (k : Core) (rd ra rb : Sreg) (e : Ecc) (x : Nat × Nat) (s u : State), Fetched (.qput k rd ra rb e) k s u →
    u.queueFault k (u.qreg k ra) (u.qaddr k rb) (u.mayLoad k.val (u.qaddr k rb)) = some x →
    exec (.qput k rd ra rb e) s = .next (u.raise k.val x.1 x.2)) ∧
  (∀ (k : Core) (rd ra rb : Sreg) (e : Ecc) (s u v : State) r, Fetched (.qput k rd ra rb e) k s u →
    u.queueFault k (u.qreg k ra) (u.qaddr k rb) (u.mayLoad k.val (u.qaddr k rb)) = none →
    r = u.eccRead (u.qaddr k rb) e → v = r.1.tellPool r.2 →
    (v.poisoned (u.qaddr k rb) = true → exec (.qput k rd ra rb e) s = .next ((v.raise k.val 5 (u.qaddr k rb)).irqCount k.val)) ∧
    (∀ p, v.poisoned (u.qaddr k rb) = false → p = v.putWord (.core k) (u.qreg k ra) (v.sramLine (u.qaddr k rb)) →
      exec (.qput k rd ra rb e) s = .next (((p.2.1.tellPool p.2.2).retire k.val rd (BitVec.ofNat 32 p.1)).irqCount k.val))) ∧
  (∀ (k : Core) (rd ra : Sreg) (s u : State) (q : Nat), q = u.qreg k ra → u.mayQueue k.val q = true → (u.queue q).en = true →
    (∀ r, Fetched (.qrew k rd ra) k s u → r = u.rewind (.core k) q →
      exec (.qrew k rd ra) s = .next (((r.1.tellPool r.2).retire k.val rd 5).irqCount k.val)) ∧
    (∀ r, Fetched (.qlvl k rd ra) k s u → r = u.touch q →
      exec (.qlvl k rd ra) s = .next (((r.1.tellPool r.2).retire k.val rd (BitVec.ofNat 32 (r.1.level q))).irqCount k.val))) ∧
  (∀ (k : Core) (rd ra : Sreg) (s u : State) (q : Nat), q = u.qreg k ra → ∀ (i : Instr), i ∈ [Instr.qrew k rd ra, .qlvl k rd ra] → Fetched i k s u →
    (u.mayQueue k.val q = false → exec i s = .next (u.raise k.val 4 0)) ∧
    (u.mayQueue k.val q = true → (u.queue q).en = false → exec i s = .next (u.raise k.val 6 q))) ∧
  -- SIN, SOUT
  (∀ (k : Core) (r : Sreg) (p : StreamP) (s u : State), Fetched (.sin k r p) k s u →
    (u.sinSource k p = none → exec (.sin k r p) s = .next (u.raise k.val 7 p.val)) ∧
    (u.sinComplex k p = true → r.val % 2 = 1 → exec (.sin k r p) s = .next (u.raise k.val 1 0))) ∧
  (∀ (k : Core) (r : Sreg) (p : StreamP) (s u : State), Fetched (.sout k r p) k s u →
    (u.soutRouted k p = false → exec (.sout k r p) s = .next (u.raise k.val 7 p.val)) ∧
    (u.soutRouted k p = true → r.val % 2 = 1 → (mget fifoDef (u.core k.val).fout p.val).length < 16 →
      exec (.sout k r p) s = .next (if u.soutComplex k p = true then u.raise k.val 1 0 else
        (u.modCore k.val (fun c => { c with fout := mset fifoDef c.fout p.val (mget fifoDef (u.core k.val).fout p.val ++
          [(op24 (u.sr k.val r), 0)]) })).advance k.val))) ∧
  (∀ (k : Core) (r : Sreg) (p : StreamP) (s u : State), Fetched (.sin k r p) k s u →
    u.sinSource k p ≠ none → (u.sinComplex k p = true → r.val % 2 = 0) →
    (mget fifoDef (u.core k.val).fin p.val = [] → exec (.sin k r p) s = .next (u.stallCore k.val 3 (.sin r.val p.val))) ∧
    (∀ x y t, mget fifoDef (u.core k.val).fin p.val = (x, y) :: t →
      ∃ v, exec (.sin k r p) s = .next v ∧ mget fifoDef (v.core k.val).fin p.val = t ∧
        (∀ j : StreamP, j ≠ p → mget fifoDef (v.core k.val).fin j.val = mget fifoDef (u.core k.val).fin j.val) ∧
        (r.val ≠ 0 → v.sr k.val r = BitVec.ofInt 32 x) ∧
        (u.sinComplex k p = true → v.sr k.val (pairReg r) = BitVec.ofInt 32 y) ∧
        (∀ j : Sreg, j ≠ r → (u.sinComplex k p = false ∨ j ≠ pairReg r) → v.sr k.val j = u.sr k.val j) ∧
        (∀ j : Nat, j ≠ k.val → v.core j = u.core j) ∧ (∀ b : AccN, v.acc k.val b = u.acc k.val b) ∧
        v.reg (SEQ_PC k.val) = u.reg (SEQ_PC k.val) + 4 ∧ RegsBut [SEQ_PC k.val] u v ∧ Frame [.cores, .regs] u v)) ∧
  (∀ (k : Core) (r : Sreg) (p : StreamP) (s u : State), Fetched (.sout k r p) k s u →
    u.soutRouted k p = true → (u.soutComplex k p = true → r.val % 2 = 0) →
    (16 ≤ (mget fifoDef (u.core k.val).fout p.val).length → exec (.sout k r p) s = .next (u.stallCore k.val 3 (.sout r.val p.val))) ∧
    ((mget fifoDef (u.core k.val).fout p.val).length < 16 →
      exec (.sout k r p) s = .next ((u.modCore k.val (fun c => { c with fout := mset fifoDef c.fout p.val (mget fifoDef (u.core k.val).fout p.val ++
        [(op24 (u.sr k.val r), if u.soutComplex k p = true then op24 (u.sr k.val (pairReg r)) else 0)]) })).advance k.val))) ∧
  -- STREAM_SAMPLE_ARRIVAL
  (∀ (src : TapSrc) (re im : BitVec 24) (s : State), s.seqMode = true →
    exec (.streamSampleArrival src re im) s = .next (State.emit 50 s (tapEnd src) (tapSample src re im))) ∧
  (∀ (k : Core) (p : StreamP) (src : TapSrc) (re im : BitVec 24) (s : State) l x, s.seqMode = true →
    sinksOf s.fab.routes (tapEnd src) = [0x5000 + k.val * 4 + p.val] → l = mget fifoDef (s.core k.val).fin p.val →
    x = ((tapSample src re im).re, (tapSample src re im).im) →
    (16 ≤ l.length → exec (.streamSampleArrival src re im) s = .next (s.putFlag (SEQ_STAT.SIN_OVF k.val) true)) ∧
    (l = [] → exec (.streamSampleArrival src re im) s =
      .next ((s.modCore k.val (fun c => { c with fin := mset fifoDef c.fin p.val [x] })).coreEvent k.val 6)) ∧
    (0 < l.length → l.length < 16 → exec (.streamSampleArrival src re im) s =
      .next (s.modCore k.val (fun c => { c with fin := mset fifoDef c.fin p.val (l ++ [x]) })))) ∧
  (∀ (q : QId) (src : TapSrc) (re im : BitVec 24) (s : State), s.seqMode = true → sinksOf s.fab.routes (tapEnd src) = [0x7000 + q.val] →
    exec (.streamSampleArrival src re im) s = .next (s.packSample q.val (tapSample src re im)))

/-- How a core takes an exception and returns from one, and the interrupt on a counter overflow. An exception with cause c and value x on core k sets SEQ_EVAL to x. On an S core with INEXC = 0 it sets SEQ_EPC to the PC, CAUSE to c and INEXC; with SEQ_VEC not 0 the PC becomes SEQ_VEC and the core runs, with SEQ_VEC = 0 it halts in HALT_EXC. On an S core with INEXC = 1 CAUSE becomes DOUBLE (11), SEQ_EPC stays and the core halts. An L core sets CAUSE, keeps its PC and halts. A halt in HALT_EXC latches CALL in the core's supervisor and places an event. INTERRUPT_ENTRY takes cause 10 where an interrupt waits on an S core with INT_PM = 1, INEXC = 0 and a STATE up to 3 in a mode where the sequencers run, and changes nothing otherwise. Entering a handler changes no general register, no accumulator and no memory. HRET of a running S core puts SEQ_EPC into the PC and clears INEXC; an interrupt that the handler held is entered before the next instruction. The EVAL of a DOUBLE and the saved registers of a halt with SEQ_VEC = 0 are the model's reading (log 61). It says of these commands that they complete, under conditions on the state and the operands alone: HRET, INTERRUPT_ENTRY. (R193) -/
def Obligations.ExceptionsAreTakenOrHalt : Prop :=
  (∀ (k c x : Nat) (s t : State), k < 32 → c < 12 → x < 2 ^ 32 → t = s.raise k c x → s.lCore k = false → s.flag (SEQ_STAT.INEXC k) = false →
    s.reg (SEQ_VEC k) ≠ 0 →
    t.reg (SEQ_EPC k) = s.reg (SEQ_PC k) ∧ t.reg (SEQ_EVAL k) = BitVec.ofNat 32 x ∧ t.get (SEQ_STAT.CAUSE k) = c ∧
    t.flag (SEQ_STAT.INEXC k) = true ∧ (t.reg (SEQ_PC k)).toNat = (s.reg (SEQ_VEC k)).toNat / 4 * 4 ∧ t.coreState k = 0 ∧
    t.flag (SEQ_STAT.ACC_SAT k) = s.flag (SEQ_STAT.ACC_SAT k) ∧ t.flag (SEQ_STAT.SIN_OVF k) = s.flag (SEQ_STAT.SIN_OVF k) ∧
    (∀ i : Sreg, ∀ j : Nat, t.sr j i = s.sr j i) ∧ (∀ a : AccN, ∀ j : Nat, t.acc j a = s.acc j a) ∧
    RegsBut [SEQ_EPC k, SEQ_EVAL k, SEQ_STAT k, SEQ_PC k] s t ∧ Frame [.regs, .cores] s t) ∧
  (∀ (k c x : Nat) (s : State), s.lCore k = false → s.flag (SEQ_STAT.INEXC k) = false → s.reg (SEQ_VEC k) = 0 → k < 32 →
    s.raise k c x = (((((s.setReg (SEQ_EVAL k) (BitVec.ofNat 32 x)).setReg (SEQ_EPC k) (s.reg (SEQ_PC k))).put (SEQ_STAT.CAUSE k) c).putFlag
      (SEQ_STAT.INEXC k) true).haltExc k)) ∧
  (∀ (k c x : Nat) (s : State), s.lCore k = false → s.flag (SEQ_STAT.INEXC k) = true → k < 32 →
    s.raise k c x = ((s.setReg (SEQ_EVAL k) (BitVec.ofNat 32 x)).put (SEQ_STAT.CAUSE k) 11).haltExc k) ∧
  (∀ (k c x : Nat) (s : State), s.lCore k = true → k < 32 →
    s.raise k c x = ((s.setReg (SEQ_EVAL k) (BitVec.ofNat 32 x)).put (SEQ_STAT.CAUSE k) c).haltExc k) ∧
  (∀ (k : Nat) (s u v : State), u = (s.put (SEQ_STAT.STATE k) 5).modCore k (fun c => { c with stall := .none }) →
    v = u.coreEvent (s.get (SEQ_CFG.SUPER k)) 7 → k < 32 →
    s.haltExc k = v.event 7 0 k (s.get (SEQ_STAT.CAUSE k)) (leBytes 4 (s.reg (SEQ_PC k)).toNat ++ leBytes 4 (s.reg (SEQ_EVAL k)).toNat)) ∧
  (∀ (k : Core) (s : State), (s.core k.val).irq = true → s.seqMode = true → s.lCore k.val = false →
    s.flag (SEQ_CFG.INT_PM k.val) = true → s.flag (SEQ_STAT.INEXC k.val) = false → s.coreState k.val ≤ 3 →
    exec (.interruptEntry k) s = .next ((s.modCore k.val (fun c => { c with irq := false })).raise k.val 10 0)) ∧
  (∀ (k : Core) (s : State), ((s.core k.val).irq = false ∨ s.lCore k.val = true ∨ s.flag (SEQ_CFG.INT_PM k.val) = false ∨
      s.flag (SEQ_STAT.INEXC k.val) = true ∨ 3 < s.coreState k.val ∨ s.seqMode = false) → exec (.interruptEntry k) s = .next s) ∧
  (∀ (k : Core) (s u : State), Fetched (.hret k) k s u → u.lCore k.val = false →
    exec (.hret k) s = .next ((u.setReg (SEQ_PC k.val) (u.reg (SEQ_EPC k.val))).putFlag (SEQ_STAT.INEXC k.val) false)) ∧
  (∀ (k : Core) (s u v : State) (w : Word), s.coreRuns k.val = true → s.flag (SEQ_STAT.INEXC k.val) = true → w.toNat = 0x78000004 →
    s.fetch k = (some w, u) → u.lCore k.val = false →
    v = (u.setReg (SEQ_PC k.val) (u.reg (SEQ_EPC k.val))).putFlag (SEQ_STAT.INEXC k.val) false → v.irqDue k.val = true →
    exec (.hret k) s = .next ((v.modCore k.val (fun c => { c with irq := false })).raise k.val 10 0))

/-- WAIT, RDCTL, WRCTL, SUPC, HRET, TRAP, SYNCI and CORE_WAKE. On a running core that has fetched its word and for which no interrupt waits. WAIT puts PEND and MASK into RD if they meet, and sleeps otherwise. RDCTL reads the core's own register of an index up to 0x11 and the mains cycle counter at 0x3F; WRCTL writes such a register, the PC past it, and discards a write of 0x3F; any other index raises ILLEGAL (cause 1), and a WRCTL of an L core to an index of the list other than 7 and 8 raises PRIV (cause 2). SUPC of an L core copies s1 to s4 into SEQ_ARG, goes to CALL and latches CALL in its supervisor; on an S core it raises SUPC (cause 8). HRET of an S core puts SEQ_EPC into the PC and clears INEXC; an L core's raises PRIV (cause 2). TRAP raises TRAP (cause 9). SYNCI empties the instruction cache. CORE_WAKE of a sleeping or stalled core runs its instruction again from its start, a SOUT after its port has given its oldest sample away. It says of these commands that they complete, under conditions on the state and the operands alone: WAIT, RDCTL, WRCTL, SUPC, HRET, TRAP, SYNCI, CORE_WAKE. (R189) -/
def Obligations.SystemInstructionsAndWake : Prop :=
  (∀ (k : Core) (rd : Sreg) (s u : State), Fetched (.wait k rd) k s u →
    (u.seqEvents k.val ≠ 0 → exec (.wait k rd) s = .next (u.retire k.val rd (BitVec.ofNat 32 (u.seqEvents k.val)))) ∧
    (u.seqEvents k.val = 0 → exec (.wait k rd) s = .next (u.stallCore k.val 1 (.wait rd.val)))) ∧
  (∀ (k : Core) (rd : Sreg) (i : Cix) (s u : State), Fetched (.rdctl k rd i) k s u →
    (∀ r, i.val ≤ 0x11 → r = u.readReg (.core k) (0x30000 + k.val * 256 + 4 * i.val) .clean →
      exec (.rdctl k rd i) s = .next ((r.2.retire k.val rd (r.1.getD 0)).irqCount k.val)) ∧
    (i.val = 0x3F → exec (.rdctl k rd i) s = .next (u.retire k.val rd (u.reg PWR_MCYC))) ∧
    (0x11 < i.val → i.val ≠ 0x3F → exec (.rdctl k rd i) s = .next (u.raise k.val 1 0))) ∧
  (∀ (k : Core) (ra : Sreg) (i : Cix) (s u : State), Fetched (.wrctl k ra i) k s u →
    (0x11 < i.val → i.val ≠ 0x3F → exec (.wrctl k ra i) s = .next (u.raise k.val 1 0)) ∧
    (i.val ≤ 0x11 → (u.lCore k.val = false ∨ i.val = 7 ∨ i.val = 8) → exec (.wrctl k ra i) s =
      .next (((u.advance k.val).act (.core k) (0x30000 + k.val * 256 + 4 * i.val) (u.sr k.val ra)).irqCount k.val)) ∧
    (i.val ≤ 0x11 → u.lCore k.val = true → i.val ≠ 7 → i.val ≠ 8 → exec (.wrctl k ra i) s = .next (u.raise k.val 2 0)) ∧
    (i.val = 0x3F → u.lCore k.val = false → exec (.wrctl k ra i) s = .next (u.advance k.val)) ∧
    (i.val = 0x3F → u.lCore k.val = true → exec (.wrctl k ra i) s = .next (u.raise k.val 2 0))) ∧
  (∀ (k : Core) (s u : State), Fetched (.supc k) k s u →
    (u.lCore k.val = false → exec (.supc k) s = .next (u.raise k.val 8 0)) ∧
    (u.lCore k.val = true → ∃ t, exec (.supc k) s = .next t ∧
      (∀ i : Fin 4, t.reg (SEQ_ARG k.val i.val) = u.sr k.val (Fin.ofNat 32 (i.val + 1))) ∧ t.coreState k.val = 4 ∧
      t.bitOf (SEQ_EV.PEND (u.get (SEQ_CFG.SUPER k.val))) 7 = true ∧ t.cores = u.cores ∧
      RegsBut [SEQ_ARG k.val 0, SEQ_ARG k.val 1, SEQ_ARG k.val 2, SEQ_ARG k.val 3, SEQ_STAT k.val, SEQ_EV (u.get (SEQ_CFG.SUPER k.val))] u t ∧
      Frame [.regs] u t)) ∧
  (∀ (k : Core) (s u : State), Fetched (.hret k) k s u →
    (u.lCore k.val = true → exec (.hret k) s = .next (u.raise k.val 2 0)) ∧
    (u.lCore k.val = false →
      exec (.hret k) s = .next ((u.setReg (SEQ_PC k.val) (u.reg (SEQ_EPC k.val))).putFlag (SEQ_STAT.INEXC k.val) false))) ∧
  (∀ (k : Core) (s u : State), Fetched (.trap k) k s u → exec (.trap k) s = .next (u.raise k.val 9 0)) ∧
  (∀ (k : Core) (s u : State), Fetched (.synci k) k s u →
    exec (.synci k) s = .next ((u.modCore k.val (fun c => { c with cache := [] })).advance k.val)) ∧
  (∀ (k : Core) (e : Ecc) (s u : State), s.seqMode = true → (s.core k.val).irq = false → 1 ≤ s.coreState k.val → s.coreState k.val ≤ 3 →
    u = s.unstall k.val →
    (∀ rd : Sreg, (s.core k.val).stall = .wait rd.val → exec (.coreWake k e) s = .next (u.waitFor k rd)) ∧
    (∀ (rd : Sreg) q a b, (s.core k.val).stall = .qget rd.val q a b → exec (.coreWake k e) s = .next ((u.qget k rd q a b e).irqCount k.val)) ∧
    (∀ (r : Sreg) (p : StreamP), (s.core k.val).stall = .sin r.val p.val → exec (.coreWake k e) s = .next (u.sin k r p)) ∧
    (∀ (r : Sreg) (p : StreamP), (s.core k.val).stall = .sout r.val p.val →
      exec (.coreWake k e) s = .next (((u.drainPort k.val p.val).sout k r p).irqCount k.val)) ∧
    ((s.core k.val).stall = .none → exec (.coreWake k e) s = .next s))

/-- HALT, RESUME, RESTART, KICK, STEP, SEQ_LANE_WRITE and the timer. For a write that reaches the device. HALT of a core that runs, sleeps, is stalled or is in CALL puts it in HALT_HOST at its PC with its stall given up; of a halted or stopped core it changes nothing. RESUME of a halted core runs it; of a core in CALL it loads s1 and s2 from SEQ_RET and goes on after the SUPC; of another core it is ignored. RESTART of a halted core clears s1 to s31, the accumulators, SEQ_EV.PEND, INEXC, CAUSE and the cache and runs it at its PC; of another core it is ignored. KICK latches event 5. STEP of a halted core for which no interrupt waits, in a mode where the sequencers run, runs the word at its PC as R181 and R182 spell it and halts it again in HALT_HOST; of another core it only withdraws a STEP not yet run. SEQ_LANE_WRITE of a range inside 255 that overlaps no other core's takes FIRST and COUNT and clears SEQ_LPEND; another is refused NOT_PERMITTED. SEQ_TIMER_EXPIRY of a running timer latches event 4 and reloads a periodic timer. It says of these commands that they complete, under conditions on the state and the operands alone: SEQ_TIMER_EXPIRY, HALT, RESUME, RESTART, KICK, STEP, SEQ_LANE_WRITE. (09_sequencers.md) -/
def Obligations.CoreControlThroughSeqCtl : Prop :=
  (∀ (who : Accessor) (k : Core) (s : State), Writable s who (SEQ_CTL k.val) → s.coreState k.val ≤ 4 →
    ∃ t, exec (.halt who k) s = .next t ∧ t.coreState k.val = 6 ∧ (t.core k.val).stall = .none ∧
      t.reg (SEQ_PC k.val) = s.reg (SEQ_PC k.val) ∧ RegsBut [SEQ_STAT k.val] s t ∧ Frame [.regs, .cores] s t) ∧
  (∀ (who : Accessor) (k : Core) (s : State), Writable s who (SEQ_CTL k.val) → 4 < s.coreState k.val → exec (.halt who k) s = .next s) ∧
  (∀ (who : Accessor) (k : Core) (s : State), Writable s who (SEQ_CTL k.val) → s.coreHalted k.val = true →
    exec (.resume who k) s = .next (s.put (SEQ_STAT.STATE k.val) 0) ∧
    exec (.restart who k) s = .next (s.restartCore k.val)) ∧
  (∀ (who : Accessor) (k : Core) (s : State), Writable s who (SEQ_CTL k.val) → s.coreState k.val = 4 → s.pc k.val % 4 = 0 →
    ∃ t, exec (.resume who k) s = .next t ∧ t.coreState k.val = 0 ∧ t.sr k.val 1 = s.reg (SEQ_RET k.val 0) ∧
      t.sr k.val 2 = s.reg (SEQ_RET k.val 1) ∧ t.reg (SEQ_PC k.val) = s.reg (SEQ_PC k.val) + 4 ∧
      (∀ j : Sreg, j ≠ 1 → j ≠ 2 → t.sr k.val j = s.sr k.val j) ∧ RegsBut [SEQ_STAT k.val, SEQ_PC k.val] s t ∧ Frame [.regs, .cores] s t) ∧
  (∀ (who : Accessor) (k : Core) (e : Ecc) (s : State), Writable s who (SEQ_CTL k.val) → s.coreHalted k.val = false →
    exec (.restart who k) s = .next s ∧ (s.coreState k.val ≠ 4 → exec (.resume who k) s = .next s) ∧
    exec (.step who k e) s = .next (s.modCore k.val (fun c => { c with step := false }))) ∧
  (∀ (k : Core) (s t : State), t = s.restartCore k.val →
    (∀ j : Sreg, t.sr k.val j = 0) ∧ (∀ a : AccN, t.acc k.val a = 0) ∧ t.get (SEQ_EV.PEND k.val) = 0 ∧
    t.flag (SEQ_STAT.INEXC k.val) = false ∧ t.get (SEQ_STAT.CAUSE k.val) = 0 ∧ t.coreState k.val = 0 ∧
    (∀ a, t.cached k.val a = none) ∧ t.reg (SEQ_PC k.val) = s.reg (SEQ_PC k.val) ∧
    RegsBut [SEQ_STAT k.val, SEQ_EV k.val] s t ∧ Frame [.regs, .cores] s t) ∧
  (∀ (who : Accessor) (k : Core) (s : State), Writable s who (SEQ_CTL k.val) → exec (.kick who k) s = .next (s.coreEvent k.val 5)) ∧
  (∀ (who : Accessor) (k : Core) (e : Ecc) (s : State) u t w, Writable s who (SEQ_CTL k.val) → s.coreHalted k.val = true → s.seqMode = true →
    (s.core k.val).irq = false → u = State.put (s.modCore k.val (fun c => { c with step := false })) (SEQ_STAT.STATE k.val) 0 →
    u.fetch k = (some w, t) →
    (∀ f, seqDecode w.toNat = some f → exec (.step who k e) s = .next (((f k e t).irqCount k.val).halt k.val)) ∧
    (seqDecode w.toNat = none → exec (.step who k e) s = .next (((t.raise k.val 1 0).irqCount k.val).halt k.val))) ∧
  (∀ (who : Accessor) (k : Core) (v : Word) (s : State) first n, Writable s who (SEQ_LANE k.val) → first = bits v.toNat 7 0 →
    n = min 32 (bits v.toNat 21 16) →
    ((first + n ≤ 256 ∧ ∀ j : Fin 32, j.val ≠ k.val → n = 0 ∨ (s.attached j.val).2 = 0 ∨
        first + n ≤ (s.attached j.val).1 ∨ (s.attached j.val).1 + (s.attached j.val).2 ≤ first) →
      ∃ t, exec (.seqLaneWrite who k v) s = .next t ∧ t.get (SEQ_LANE.FIRST k.val) = first ∧
        t.get (SEQ_LANE.COUNT k.val) = bits v.toNat 21 16 ∧ t.get (SEQ_LPEND.LANES k.val) = 0 ∧
        RegsBut [SEQ_LANE k.val, SEQ_LPEND k.val] s t ∧ Frame [.regs] s t) ∧
    (256 < first + n → exec (.seqLaneWrite who k v) s = .next (s.refuse who (SEQ_LANE k.val) stNotPermitted)) ∧
    (∀ j : Fin 32, j.val ≠ k.val → 0 < n → 0 < (s.attached j.val).2 → first < (s.attached j.val).1 + (s.attached j.val).2 →
      (s.attached j.val).1 < first + n → exec (.seqLaneWrite who k v) s = .next (s.refuse who (SEQ_LANE k.val) stNotPermitted))) ∧
  (∀ (k : Core) (s : State), s.seqMode = true → s.get (SEQ_TIMER.COUNT k.val) ≠ 0 →
    (s.flag (SEQ_TIMER.PERIODIC k.val) = false → exec (.seqTimerExpiry k) s = .next ((s.coreEvent k.val 4).put (SEQ_TIMER.COUNT k.val) 0)) ∧
    (s.flag (SEQ_TIMER.PERIODIC k.val) = true →
      exec (.seqTimerExpiry k) s = .next ((s.coreEvent k.val 4).put (SEQ_TIMER.COUNT k.val) (s.core k.val).reload)))

/-- READ, WRITE and STATUS transfers of the host port. A READ or WRITE at an address that is no multiple of 4 sets PROTO_ERR and transfers nothing; the READ drives zeros. A READ in a mode above Sentinel drives one value per word, of consecutive addresses or of the same one for a window's data register and FAB_PUSH: an SRAM word, a register, the mirror's answer, or 0 with a refused access where nothing stands or the mirror is down. A word that has to wait ends the values here, and the burst waits. A WRITE gives each word to the SRAM, the register or the mirror. In Sentinel and Dormant neither does anything, and a WRITE on a lead's Alloyed follower does nothing. STATUS with the status code at an aligned address drives HP_STAT in every word; the two burst codes change nothing; any other code or address sets PROTO_ERR and drives zeros. It says of these commands that they complete, under conditions on the state and the operands alone: READ, WRITE, STATUS. (10_host_port.md, 18_register_map.md, 16_alloy.md, 07_pewter_pool.md) -/
def Obligations.HostBurstsReachRegistersAndSram : Prop :=
  -- READ
  (∀ (a : Word) n es ms cut (s : State), s.reads .host = true → a.toNat % 4 ≠ 0 →
    ∃ t, exec (.read a n es ms cut) s = .next t ∧ t.hp.out = List.replicate n 0 ∧ t.flag HP_STAT.PROTO_ERR = true ∧
      RegsBut [HP_STAT] s t ∧ Frame [.regs, .hp] s t) ∧
  (∀ (a : Word) n es ms cut (s : State), s.reads .host = false → exec (.read a n es ms cut) s = .next s) ∧
  (∀ (a : Word) n es ms cut (s : State) r, s.reads .host = true → a.toNat % 4 = 0 → r = s.readWords a.toNat n 0 es ms [] →
    exec (.read a n es ms cut) s = .next (State.drive (if cut = true ∧ r.2.hp.wait = none then r.2.readCut a.toNat n es else r.2) r.1)) ∧
  (∀ (a n i : Nat) es ms (out : List Word) (v : Word) (s t : State), s.readHost (burstAddr a i) (nth .clean es i) (nth 0 ms i) = (some v, t) →
    s.readWords a (n + 1) i es ms out = t.readWords a n (i + 1) es ms (out ++ [v])) ∧
  (∀ (a n i : Nat) es ms (out : List Word) (s t : State), s.readHost (burstAddr a i) (nth .clean es i) (nth 0 ms i) = (none, t) →
    s.readWords a (n + 1) i es ms out = (out, t.setWait ((List.range 64).find? (fun w => burstAddr a i = QP_WIN_DATA w)))) ∧
  (∀ (a i : Nat), burstAddr a i = if a = FAB_PUSH ∨ (0x60400 ≤ a ∧ a < 0x60800 ∧ a % 16 = 4) then a else (a + 4 * i) % 2 ^ 32) ∧
  (∀ (a : Nat) (e : Ecc) (m : Word) (s : State), inMirror a = false → inSram a = true →
    s.readHost a e m = (some (s.readSram a e).1, (s.readSram a e).2)) ∧
  (∀ (a : Nat) (e : Ecc) (m : Word) (s : State), inSram a = false → inMirror a = false → isReg .host a = true → s.readHost a e m = s.readReg .host a e) ∧
  (∀ (a : Nat) (e : Ecc) (m : Word) (s : State), inMirror a = true → s.mirrorUp = true →
    s.readHost a e m = (some m, s.post (.mirror (BitVec.ofNat 32 a) none))) ∧
  (∀ (a : Nat) (e : Ecc) (m : Word) (s : State), (inMirror a = true ∧ s.mirrorUp = false) ∨
      (inMirror a = false ∧ inSram a = false ∧ isReg .host a = false) →
    s.readHost a e m = (some 0, s.refuse .host a stNotPermitted)) ∧
  -- WRITE
  (∀ (a : Word) l (s : State), s.awake = true → a.toNat % 4 ≠ 0 → exec (.write a l) s = .next (s.putFlag HP_STAT.PROTO_ERR true)) ∧
  (∀ (a : Word) l (s : State), s.awake = true → a.toNat % 4 = 0 → s.follower = false → exec (.write a l) s = .next (s.writeWords a.toNat 0 l)) ∧
  (∀ (a : Word) l (s : State), s.awake = false ∨ (s.follower = true ∧ a.toNat % 4 = 0 ∧ s.al.healedNow = false) → exec (.write a l) s = .next s) ∧
  (∀ (a i : Nat) (v : Word) (t : List Word) (s : State), s.awake = true →
    s.writeWords a i (v :: t) = (s.writeHost (burstAddr a i) v).writeWords a (i + 1) t) ∧
  (∀ (a : Nat) (v : Word) (s : State), inMirror a = false → inSram a = true → s.reach .host = true → s.writeHost a v = s.writeSram a v) ∧
  (∀ (a : Nat) (v : Word) (s : State), inSram a = false → inMirror a = false → isReg .host a = true →
    s.writeHost a v = (s.regWrite .host a v).pendingSteps) ∧
  (∀ (a : Nat) (v : Word) (s : State), inMirror a = true → s.mirrorUp = true →
    s.writeHost a v = s.post (.mirror (BitVec.ofNat 32 a) (some v))) ∧
  -- STATUS
  (∀ (a : Word) n (s : State), s.awake = true → a.toNat % 4 = 0 → exec (.status 0x05#8 a n) s = .next (s.drive
    (List.replicate n (BitVec.ofNat 32 (putBits (s.reg HP_STAT).toNat HP_STAT.OUTST.hi HP_STAT.OUTST.lo s.hp.outst.length))))) ∧
  (∀ (l : List Word) (s : State), s.drive l = { s with hp := { s.hp with out := l } }) ∧
  (∀ c (a : Word) n (s : State) u, s.awake = true → c ≠ 0x0B#8 → c ≠ 0x02#8 → (c ≠ 0x05#8 ∨ a.toNat % 4 ≠ 0) → u = s.putFlag HP_STAT.PROTO_ERR true →
    exec (.status c a n) s = .next { u with hp := { u.hp with out := List.replicate n 0 } }) ∧
  (∀ c (a : Word) n (s : State), (s.awake = false ∨ c = 0x0B#8 ∨ c = 0x02#8) → exec (.status c a n) s = .next s)

/-- RING_ENABLE, DOORBELL, the HEAD writes and the coalescing timeouts. For a write that reaches the device. RING_ENABLE with ENABLE = 1 takes HP_CFG if each ring has 2^4 to 2^12 entries, lies in the capture partition and overlaps no other, and the unit is no Alloyed or Island follower; rings enabled afresh forget the tags taken, the doorbell and the events lost. With ENABLE = 0 it takes HP_CFG if no transaction is outstanding; otherwise it is discarded and RING_ERR is set. DOORBELL sets the command ring's TAIL if the rings are enabled and TAIL is at most one ring ahead of HEAD, and sets RING_ERR otherwise. CPL_HEAD_WRITE and EV_HEAD_WRITE move HEAD to a place up to TAIL, after which the oldest record left is younger than the one consumed, and set RING_ERR beyond it; with an event HEAD moved the record of lost events is written where there is room. IRQ_COALESCE_TIMEOUT ages the records that wait. It says of these commands that they complete, under conditions on the state and the operands alone: RING_ENABLE, DOORBELL, CPL_HEAD_WRITE, EV_HEAD_WRITE, IRQ_COALESCE_TIMEOUT. (10_host_port.md) -/
def Obligations.RingsAreEnabledAndTheirIndexesMove : Prop :=
  (∀ who (v : Word) (s : State), Writable s who HP_CFG → bit v.toNat 31 = true → (s.ringsOk = false ∨ s.follower = true ∨ s.island = true) →
    exec (.ringEnable who v) s = .next (s.putFlag HP_STAT.RING_ERR true)) ∧
  (∀ who (v : Word) (s : State), Writable s who HP_CFG → bit v.toNat 31 = false → s.hp.outst ≠ [] →
    exec (.ringEnable who v) s = .next (s.putFlag HP_STAT.RING_ERR true)) ∧
  (∀ who (v : Word) (s : State), Writable s who HP_CFG → bit v.toNat 31 = true → s.ringsOk = true → s.follower = false → s.island = false →
    ∃ t, exec (.ringEnable who v) s = .next t ∧ t.rings = true ∧ RegsBut [HP_CFG] s t ∧ Frame [.regs, .hp] s t ∧
      (s.rings = false → t.hp.lostSince = 0 ∧ t.hp.taken = [] ∧ t.hp.rung = false)) ∧
  (∀ who (v : Word) (s : State), Writable s who HP_CFG → bit v.toNat 31 = false → s.hp.outst = [] →
    ∃ t, exec (.ringEnable who v) s = .next t ∧ t.rings = false ∧ RegsBut [HP_CFG] s t ∧ Frame [.regs, .hp] s t) ∧
  (∀ s : State, s.ringsOk = true →
    (∀ l ∈ [s.get HP_CR_BASE.LOG2N, s.get HP_CPL_BASE.LOG2N, s.get HP_EV_BASE.LOG2N], 4 ≤ l ∧ l ≤ 12) ∧
    (∀ r ∈ s.ringSpans, s.captBase ≤ r.1 ∧ r.1 + r.2 ≤ s.captEnd)) ∧
  -- DOORBELL
  (∀ who (v : Word) (s : State), Writable s who HP_DB → s.rings = true →
    ringCount (bits v.toNat 15 0) (s.get HP_CR_IDX.HEAD) ≤ 2 ^ s.get HP_CR_BASE.LOG2N →
    ∃ t, exec (.doorbell who v) s = .next t ∧ t.get HP_CR_IDX.TAIL = bits v.toNat 15 0 ∧ t.get HP_CR_IDX.HEAD = s.get HP_CR_IDX.HEAD ∧
      t.hp = { s.hp with rung := true } ∧ RegsBut [HP_CR_IDX] s t ∧ Frame [.regs, .hp] s t) ∧
  (∀ who (v : Word) (s : State), Writable s who HP_DB →
    (s.rings = false ∨ 2 ^ s.get HP_CR_BASE.LOG2N < ringCount (bits v.toNat 15 0) (s.get HP_CR_IDX.HEAD)) →
    exec (.doorbell who v) s = .next (s.putFlag HP_STAT.RING_ERR true)) ∧
  -- CPL_HEAD_WRITE
  (∀ who (v : Word) (s : State) h r, Writable s who HP_CPL_IDX → h = bits v.toNat 15 0 → ringCount (s.get HP_CPL_IDX.TAIL) h ≤ s.cplCount →
    h ≠ s.get HP_CPL_IDX.HEAD → r = (s.put HP_CPL_IDX.HEAD h).agedNext s.hp.cplAged (ringCount (s.get HP_CPL_IDX.TAIL) h) →
    exec (.cplHeadWrite who v) s = .next { r.2 with hp := { r.2.hp with cplAged := r.1 } }) ∧
  (∀ who (v : Word) (s : State), Writable s who HP_CPL_IDX → bits v.toNat 15 0 = s.get HP_CPL_IDX.HEAD → exec (.cplHeadWrite who v) s = .next s) ∧
  (∀ who (v : Word) (s : State), Writable s who HP_CPL_IDX → s.cplCount < ringCount (s.get HP_CPL_IDX.TAIL) (bits v.toNat 15 0) →
    exec (.cplHeadWrite who v) s = .next (s.putFlag HP_STAT.RING_ERR true)) ∧
  (∀ (b : Bool) (n : Nat) (s : State), (n = 0 ∨ b = false) → s.agedNext b n = (false, s)) ∧
  -- EV_HEAD_WRITE
  (∀ who (v : Word) (s : State) h r, Writable s who HP_EV_IDX → h = bits v.toNat 15 0 → ringCount (s.get HP_EV_IDX.TAIL) h ≤ s.evCount →
    h ≠ s.get HP_EV_IDX.HEAD → r = (s.put HP_EV_IDX.HEAD h).agedNext s.hp.evAged (ringCount (s.get HP_EV_IDX.TAIL) h) →
    exec (.evHeadWrite who v) s = .next (State.overflowRecord { r.2 with hp := { r.2.hp with evAged := r.1 } })) ∧
  (∀ who (v : Word) (s : State), Writable s who HP_EV_IDX → bits v.toNat 15 0 = s.get HP_EV_IDX.HEAD → exec (.evHeadWrite who v) s = .next s) ∧
  (∀ (s : State), s.rings = true → 0 < s.hp.lostSince → s.evCount < s.evSize →
    ∃ t, s.overflowRecord = t ∧ t.hp.lostSince = 0 ∧ t.get HP_EV_IDX.TAIL = (s.get HP_EV_IDX.TAIL + 1) % 65536 ∧
      RegsBut [HP_EV_IDX] s t ∧ Frame [.regs, .hp, .sram, .poison] s t) ∧
  (∀ (s : State), (s.rings = false ∨ s.hp.lostSince = 0 ∨ s.evSize ≤ s.evCount) → s.overflowRecord = s) ∧
  (∀ who (v : Word) (s : State), Writable s who HP_EV_IDX → s.evCount < ringCount (s.get HP_EV_IDX.TAIL) (bits v.toNat 15 0) →
    exec (.evHeadWrite who v) s = .next (s.putFlag HP_STAT.RING_ERR true)) ∧
  -- IRQ_COALESCE_TIMEOUT
  (∀ (s : State), 0 < s.evCount → exec (.irqCoalesceTimeout true) s = .next { s with hp := { s.hp with evAged := true } }) ∧
  (∀ (s : State), 0 < s.cplCount → exec (.irqCoalesceTimeout false) s = .next { s with hp := { s.hp with cplAged := true } })

/-- Taking a descriptor; SEND, BROADCAST, READ_MT and ABORT. A descriptor is taken when the rings are enabled, a doorbell has rung, the host's writes reach the device, the command ring is not empty, fewer than 1,024 transactions are outstanding and every outstanding one has a place in the completion ring. A tag in use completes BAD_DESCRIPTOR with bit 31 of INFO; a sound header under a free tag makes the transaction outstanding. A SEND of sound form to a JOINED entry on an own lane with TX_EN takes its body and starts its send; without JOINED or without TX_EN it completes NOT_PERMITTED, malformed, without a body or longer than a frame takes BAD_DESCRIPTOR; a lead hands one to the other unit's lane over. A BROADCAST of sound form starts a copy for each own lane of PORTS, and malformed completes BAD_DESCRIPTOR. READ_MT puts the metering block into a byte queue and completes with its outcome and INFO 47; without the program NOT_PERMITTED. ABORT of an outstanding transaction other than itself that may be aborted ends it ABORTED and itself OK; of one that cannot be aborted, and of a finished or unknown one, it completes ABORT_LATE with its reason in INFO. An aborted SEND or BROADCAST completes ABORTED with its attempts or ports and SEQ. It says of these commands that they complete, under conditions on the state and the operands alone: SEND, BROADCAST, READ_MT, ABORT. (10_host_port.md, 05_drevline.md, 06_metering.md, 16_alloy.md) -/
def Obligations.DescriptorsAreTakenAndRun : Prop :=
  -- taking a descriptor
  (∀ s : State, s.mayTake = true ↔ (s.rings = true ∧ s.hp.rung = true ∧ s.reach .host = true ∧ 0 < s.crCount ∧
    s.hp.outst.length < 1024 ∧ s.hp.outst.length + s.cplCount < s.cplSize)) ∧
  (∀ (s : State) (d : List Byte), s.outstanding (descTag d) ≠ none → ∀ u, u = s.put HP_CR_IDX.HEAD ((s.get HP_CR_IDX.HEAD + 1) % 65536) →
    s.admitDesc d = (none, State.pushCpl { u with hp := { u.hp with taken := setInsert (descTag d) u.hp.taken } }
      (cplRec (descTag d) stBad (u8 d 0) (2 ^ 31) []))) ∧
  (∀ (s : State) (d : List Byte), s.outstanding (descTag d) = none → headerOk d = true →
    ∃ t, s.admitDesc d = (some t, t) ∧ t.hp.outst = s.hp.outst ++ [⟨descTag d, u8 d 0⟩] ∧
      t.get HP_CR_IDX.HEAD = (s.get HP_CR_IDX.HEAD + 1) % 65536 ∧ RegsBut [HP_CR_IDX] s t ∧ Frame [.regs, .hp] s t) ∧
  -- SEND
  (∀ (s : State) u d, Taken d s u → u8 d 0 = 1 → u.sendForm d = true →
    (u.entState (u16 d 8 - 1) ≠ 2 → exec .send s = .next (u.complete (descTag d) stNotPermitted 0 [])) ∧
    (∀ n, u.entState (u16 d 8 - 1) = 2 → u.ownLane (u.entLane (u16 d 8 - 1)) = some n →
      (u.flag (LN_TXCFG.TX_EN n) = false → exec .send s = .next (u.complete (descTag d) stNotPermitted 0 [])) ∧
      (u.flag (LN_TXCFG.TX_EN n) = true → u.drefBytes (drefAt d 20) = none →
        exec .send s = .next (u.complete (descTag d) stBad 0 [])) ∧
      (∀ body, u.flag (LN_TXCFG.TX_EN n) = true → u.drefBytes (drefAt d 20) = some body → 255 < macLen (u.firstMac (u16 d 8 - 1) d body) →
        exec .send s = .next (u.complete (descTag d) stBad 0 [])) ∧
      (∀ body, u.flag (LN_TXCFG.TX_EN n) = true → u.drefBytes (drefAt d 20) = some body → macLen (u.firstMac (u16 d 8 - 1) d body) ≤ 255 →
        exec .send s = .next ((u.drefTake (drefAt d 20)).runSend (descTag d) (descTag d) none d (u16 d 8 - 1) n body)))) ∧
  (∀ (s : State) u d, Taken d s u → (u8 d 0 = 1 ∧ u.sendForm d = false) ∨ listedType (u8 d 0) = false →
    exec .send s = .next (u.complete (descTag d) stBad 0 [])) ∧
  (∀ (s : State) u d body, Taken d s u → u8 d 0 = 1 → u.sendForm d = true →
    u.entState (u16 d 8 - 1) = 2 → u.ownLane (u.entLane (u16 d 8 - 1)) = none → u.leads = true → u.linkUp = true → u.acting (u16 d 8 - 1) = false →
    u.drefBytes (drefAt d 20) = some body → macLen (u.firstMac (u16 d 8 - 1) d body) ≤ 255 →
    exec .send s = .next ((u.drefTake (drefAt d 20)).handOver (descTag d) d body)) ∧
  -- BROADCAST
  (∀ (s : State) u v d body, Taken d s u → u8 d 0 = 2 → u.paired = false → bcastForm d false = true →
    u.bcastLanes d ≠ ([], []) → u.drefBytes (drefAt d 20) = some body → macLen (bcastMac u.link.bcast.toNat (bit (u8 d 10) 1) body) ≤ 255 →
    v = u.drefTake (drefAt d 20) →
    exec .broadcast s = .next (State.runBcast { v with link := { v.link with bcast := v.link.bcast + 1 } } (descTag d) (descTag d) none d
      u.link.bcast.toNat (u.bcastLanes d).1 [] (bcastMac u.link.bcast.toNat (bit (u8 d 10) 1) body))) ∧
  (∀ (s : State) u d, Taken d s u → u8 d 0 = 2 → bcastForm d (u.leads || u.upper) = false →
    exec .broadcast s = .next (u.complete (descTag d) stBad 0 [])) ∧
  -- READ_MT
  (∀ (s : State) u d r, Taken d s u → u8 d 0 = 3 → zeros d 10 63 = true → u16 d 8 < 1024 →
    (u.queue (u16 d 8)).en = true → (u.queue (u16 d 8)).stream = false → (u.queue (u16 d 8)).fmt = 1 →
    (u.fab.mtProg = false → exec .readMt s = .next (u.complete (descTag d) stNotPermitted 0 [])) ∧
    (u.fab.mtProg = true → r = u.putPacket (.engine 5) (u16 d 8) u.meterBlock →
      exec .readMt s = .next ((r.2.1.tellPool r.2.2).complete (descTag d) (packetStatus r.1) 47 []))) ∧
  -- ABORT
  (∀ (s : State) u d (x : Trans), Taken d s u → u8 d 0 = 8 → zeros d 10 63 = true → u16 d 8 < 1024 →
    (u.outstanding (u16 d 8) = some x → u16 d 8 ≠ descTag d → x.type ≠ 7 →
      exec .abort s = .next ((u.abortTag x).complete (descTag d) stOk (u16 d 8) [])) ∧
    (u.outstanding (u16 d 8) = some x → x.type = 7 → u16 d 8 ≠ descTag d →
      exec .abort s = .next (u.complete (descTag d) stAbortLate (u16 d 8 + 2 ^ 31) [])) ∧
    (u.outstanding (u16 d 8) = some x → u16 d 8 = descTag d →
      exec .abort s = .next (u.complete (descTag d) stAbortLate (u16 d 8) [])) ∧
    (u.outstanding (u16 d 8) = none → exec .abort s =
      .next (u.complete (descTag d) stAbortLate (u16 d 8 + (if u16 d 8 ∈ u.hp.taken then 0 else 2 ^ 30)) []))) ∧
  (∀ (s : State) (x : Trans) r, x.type = 1 ∨ x.type = 2 → r = s.abortInfo x.tag →
    s.abortTag x = (r.2.abortSend x.tag).complete x.tag stAborted r.1 []) ∧
  (∀ (s : State) (tag : Nat) (x : SendSt), s.link.sends.find? (fun y => decide (y.tag = tag) && y.handoff.isNone) = some x →
    s.abortInfo tag = (s.sendInfo x, s)) ∧
  -- the end of a transaction
  (∀ (s : State) (tag status info : Nat) (result : List Byte) (x : Trans) (u : State), s.outstanding tag = some x →
    u = { s with hp := { s.hp with outst := s.hp.outst.filter (fun y => y.tag ≠ tag) } } →
    s.complete tag status info result = u.pushCpl (cplRec tag status x.type info result)) ∧
  (∀ (s : State) (tag status info : Nat) (result : List Byte), s.outstanding tag = none → s.complete tag status info result = s)

/-- UART reception: characters, breaks, a stuck line, autobaud and the receive timeout. A received bit of UARTs 0 to 3 and 5 is the majority of its three samples, noisy where they disagree; on U4 in SIR it is a 0 where the input was active for at least 2 UCLK. UART_CHAR_RX on a UART that hears its line, out of autobaud and of a stuck line, with the samples of one character of the settings it began with and a low start bit, judges the character under those settings; for a character that is no flow character and no address, the unit stored is the data with PARITY, FRAMING (stop bit low) and NOISE, each counted. An all-low character, or UART_BREAK, stores one unit with BREAK and FRAMING, whose word is closed, and sets the event. LINE_STUCK after a break sets LINE_STUCK and closes what waits as a packet's end; LINE_STUCK_CLEAR ends it. UART_RX_TIMEOUT with RTO set, the line not stuck and units waiting closes the word with RTO and EOP. AUTOBAUD_MEASURE with sound edges and a rate from 300 to 1,000,000 sets the divider, stores the character and leaves autobaud with AB_DONE; with unsound edges it counts AB_FAIL. The fifteenth unit of a word closes it; a closed word goes to the receive queue, and a word refused there counts RX_LOST. It says of these commands that they complete, under conditions on the state and the operands alone: UART_CHAR_RX, UART_BREAK, LINE_STUCK, LINE_STUCK_CLEAR, AUTOBAUD_MEASURE, UART_RX_TIMEOUT. (12_serial_ports.md, 07_pewter_pool.md) -/
def Obligations.UartsReceiveCharacters : Prop :=
  -- the bits
  (∀ (u : Uart) (x : Sample3) (s : State), u.val ≠ 4 → ((s.uaSense u.val x).value = true ↔ 2 ≤ b2n x.s7 + b2n x.s8 + b2n x.s9) ∧
    ((s.uaSense u.val x).noisy = false ↔ (x.s7 = x.s8 ∧ x.s8 = x.s9)) ∧
    ((s.uaSense u.val x).low = true ↔ (x.s7 = false ∧ x.s8 = false ∧ x.s9 = false))) ∧
  (∀ (x : Sample3) (s : State), s.flag (UA_OPT.SIR 4) = true → (s.uaSense 4 x).noisy = false ∧
    ((s.uaSense 4 x).value = false ↔ 2 ≤ if s.flag (UA_OPT.RX_POL 4) = true then x.low else x.high)) ∧
  -- UART_CHAR_RX
  (∀ (u : Uart) (b : List Sample3) (early near : Bool) (s v : State) (x : UaSet) (l : List UaBit), s.uaHears u.val near = true →
    s.flag (UA_CFG.AUTOBAUD u.val) = false → s.flag (UA_STAT.LINE_STUCK u.val) = false → x = s.uaRxSet u.val early → b.length = x.bits →
    l = b.map (fun y => s.uaSense u.val y) → v = s.modUart u.val (fun y => { y with rxOld := none, deaf := y.deaf && near }) →
    (l.all (·.low) = true → exec (.uartCharRx u b early near) s = .next (v.uaBreak u)) ∧
    (l.all (·.low) = false → (l.headD ⟨true, false, false⟩).value = false →
      exec (.uartCharRx u b early near) s = .next (v.uaChar u x l (b.getLastD (openSample 0)).s9)) ∧
    (l.all (·.low) = false → (l.headD ⟨true, false, false⟩).value = true → exec (.uartCharRx u b early near) s = .next v)) ∧
  (∀ (u : Uart) (x : UaSet) (l : List UaBit) (level : Bool) (s v : State) (data ones : Nat) (stop : Bool), s.flag (UA_CFG.NINE u.val) = false →
    (s.flag (UA_FLOW.XEN u.val) = false ∨ (data ≠ 0x11 ∧ data ≠ 0x13)) → stop = (l.getLastD ⟨true, false, false⟩).value →
    data = (((l.drop 1).take x.width).zipIdx.map (fun (y, i) => b2n y.value * 2 ^ i)).sum →
    ones = (((l.drop 1).take (l.length - 2)).filter (·.value)).length →
    v = (s.modUart u.val (fun y => { y with inBreak := false })).putFlag (UA_STAT.LINE u.val) level →
    s.uaChar u x l level = (v.uaStore u data (decide (x.parity = some (decide (ones % 2 = 0)))) (!stop) (l.any (·.noisy)) false).uaSwitch u.val data) ∧
  (∀ (u : Uart) (data : Nat) (p f n : Bool) (s v w x : State),
    v = (if f = true then s.count (UA_CNT.FRAMING u.val) 1 else s) → w = (if p = true then v.count (UA_CNT.PARITY u.val) 1 else v) →
    x = State.modUart (if n = true then w.count (UA_CNT.NOISE u.val) 1 else w) u.val (fun y => { y with units := y.units ++
      [data + 512 * b2n p + 1024 * b2n f + 2048 * b2n n] }) →
    ((s.uart u.val).units.length ≠ 14 → s.uaStore u data p f n false = x) ∧
    ((s.uart u.val).units.length = 14 → s.uaStore u data p f n false = x.uaWord u false false)) ∧
  (∀ (u : Uart) (eop rto last : Bool) (s v : State) r,
    last = (eop || (decide (s.get (UA_RX.PKT_MAX u.val) ≠ 0) && decide (s.get (UA_RX.PKT_MAX u.val) ≤ (s.uart u.val).words + 1))) →
    r = s.putWord (.uart u) (s.get (UA_RX.QUEUE u.val)) (mkLine 2 (s.uart u.val).units last rto false) →
    v = (r.2.1.tellPool r.2.2).modUart u.val (fun y => { y with units := [], words := if last = true then 0 else y.words + 1 }) →
    s.uaWord u eop rto = State.uaFlow (if r.1 = 3 ∨ r.1 = 4 then (v.count (UA_CNT.RX_LOST u.val) 1).setEvt (UA_EVT.RX_LOST u.val) else v) u.val) ∧
  -- UART_BREAK
  (∀ (u : Uart) (s : State), s.uaHears u.val false = true → s.flag (UA_CFG.AUTOBAUD u.val) = false → s.flag (UA_STAT.LINE_STUCK u.val) = false →
    exec (.uartBreak u) s = .next ((s.modUart u.val (fun y => { y with rxOld := none, deaf := false })).uaBreak u)) ∧
  (∀ (u : Uart) (s v : State), v = (s.modUart u.val (fun y => { y with inBreak := true })).putFlag (UA_STAT.LINE u.val) (!s.urxIdle u.val) →
    s.uaBreak u = (v.uaStore u 0 false true false true).setEvt (UA_EVT.BREAK u.val)) ∧
  (∀ (u : Uart) (s : State), s.uaStore u 0 false true false true = State.uaWord ((s.count (UA_CNT.FRAMING u.val) 1).modUart u.val (fun y =>
    { y with units := y.units ++ [1024 + 4096] })) u true false) ∧
  -- LINE_STUCK, LINE_STUCK_CLEAR
  (∀ (u : Uart) (s v : State), (s.uart u.val).inBreak = true → s.flag (UA_STAT.LINE_STUCK u.val) = false →
    v = (s.putFlag (UA_STAT.LINE_STUCK u.val) true).setEvt (UA_EVT.LINE_STUCK u.val) →
    exec (.lineStuck u) s = .next (if (v.uart u.val).units ≠ [] ∨ (v.uart u.val).words ≠ 0 then v.uaWord u true false else v)) ∧
  (∀ (u : Uart) (s : State), s.flag (UA_STAT.LINE_STUCK u.val) = true →
    ∃ t, exec (.lineStuckClear u) s = .next t ∧ t.flag (UA_STAT.LINE_STUCK u.val) = false ∧ t.flag (UA_STAT.LINE u.val) = s.urxIdle u.val ∧
      (t.uart u.val).inBreak = false ∧ RegsBut [UA_STAT u.val] s t ∧ Frame [.regs, .uarts] s t) ∧
  -- UART_RX_TIMEOUT
  (∀ (u : Uart) (s v : State), s.uaOn u.val = true → s.get (UA_RX.RTO u.val) ≠ 0 → s.flag (UA_STAT.LINE_STUCK u.val) = false →
    (s.uart u.val).units ≠ [] →
    v = (s.modUart u.val (fun y => { y with inBreak := false })).putFlag (UA_STAT.LINE u.val) (s.urxIdle u.val) →
    exec (.uartRxTimeout u) s = .next (v.uaWord u true true)) ∧
  (∀ (u : Uart) (s : State), s.get (UA_RX.RTO u.val) = 0 → exec (.uartRxTimeout u) s = .next s) ∧
  -- AUTOBAUD_MEASURE
  (∀ (u : Uart) (t : Nat) (s r : State) (d c : Nat), s.uaHears u.val false = true → s.flag (UA_CFG.AUTOBAUD u.val) = true →
    c = (if s.flag (UA_CFG.AB_CHAR u.val) = true then 0x2F else 0x55) →
    (s.putFlag (UA_STAT.LINE u.val) (s.urxIdle u.val)).abDiv t (if s.flag (UA_CFG.AB_CHAR u.val) = true then 8 else 9) = (d, r) →
    300 * d ≤ 384000000 → 384000000 ≤ 1000000 * d →
    exec (.autobaudMeasure u t true) s = .next (State.setEvt (State.putFlag
      (((r.put (UA_BAUD.DIV_I u.val) (d / 64)).put (UA_BAUD.DIV_F u.val) d).uaStore u c false false false false)
      (UA_CFG.AUTOBAUD u.val) false) (UA_EVT.AB_DONE u.val))) ∧
  (∀ (u : Uart) (t : Nat) (s r : State) (d : Nat), s.uaHears u.val false = true → s.flag (UA_CFG.AUTOBAUD u.val) = true →
    (s.putFlag (UA_STAT.LINE u.val) (s.urxIdle u.val)).abDiv t (if s.flag (UA_CFG.AB_CHAR u.val) = true then 8 else 9) = (d, r) →
    exec (.autobaudMeasure u t false) s = .next ((r.count (UA_CNT.AB_FAIL u.val) 1).setEvt (UA_EVT.AB_FAIL u.val))) ∧
  (∀ (t n : Nat) (s : State), 0 < n → ∃ d v, s.abDiv t n = (d, v) ∧ 2 * n * d ≤ 8 * t + n ∧ 8 * t ≤ 2 * n * d + n)

/-- UART transmission, UART_SEND, UA_CFG and UA_BAUD. UART_SEND of sound form with a sound reference to an enabled UART out of autobaud takes its characters and starts the transmitter, the first character with its ninth bit set where ADDR_FIRST asks for it; a UART that is not enabled or in autobaud completes it NOT_PERMITTED, a bad form or reference BAD_DESCRIPTOR. The transmitter, when idle and running, sends a flow character first, then the next character of the first send unless XOFF was received; a character starts under the settings in force, and on UARTs 0 to 3 raises DE. UART_TX_CHAR_DONE ends the character on the wire, an XON or XOFF sent showing in XOFF_TX, completes OK the sends with no character left, with the characters sent, and goes on. UDE_TAIL_EXPIRY of an idle transmitter lowers DE. UA_CFG_WRITE that turns AMATCH on mutes the receiver, one that leaves it off unmutes it. BAUD_WRITE with PEND holds the divider; without PEND it takes effect and drops a held one; DIV_I 0 acts as 1. A character already begun keeps its settings over both writes. It says of these commands that they complete, under conditions on the state and the operands alone: UART_SEND, UA_CFG_WRITE, BAUD_WRITE, UART_TX_CHAR_DONE, UDE_TAIL_EXPIRY. (12_serial_ports.md, 10_host_port.md) -/
def Obligations.UartsSendAndTakeTheirSettings : Prop :=
  -- UART_SEND
  (∀ (s : State) u d l n, Taken d s u → u8 d 0 = 6 → uartForm d = true → n = u8 d 8 → u.uaChars (drefAt d 12) = some l →
    (u.flag (UA_CFG.ENABLE n) = false ∨ u.flag (UA_CFG.AUTOBAUD n) = true →
      exec .uartSend s = .next (u.complete (descTag d) stNotPermitted 0 [])) ∧
    (u.flag (UA_CFG.ENABLE n) = true → u.flag (UA_CFG.AUTOBAUD n) = false → bit (u8 d 9) 0 = false →
      exec .uartSend s = .next (((u.drefTake (drefAt d 12)).modUart n (fun y => { y with sends := y.sends ++ [⟨descTag d, l, 0⟩] })).uaKick n)) ∧
    (u.flag (UA_CFG.ENABLE n) = true → u.flag (UA_CFG.AUTOBAUD n) = false → bit (u8 d 9) 0 = true →
      exec .uartSend s = .next (((u.drefTake (drefAt d 12)).modUart n (fun y => { y with sends := y.sends ++
        [⟨descTag d, modNth l 0 (fun c => c % 256 + 256), 0⟩] })).uaKick n))) ∧
  (∀ (s : State) u d, Taken d s u → u8 d 0 = 6 → (uartForm d = false ∨ u.uaChars (drefAt d 12) = none) →
    exec .uartSend s = .next (u.complete (descTag d) stBad 0 [])) ∧
  -- the transmitter
  (∀ (n c : Nat) (t : List Nat) (s : State), (s.uart n).cur = none → s.uaOn n = true → (s.uart n).flow = c :: t →
    s.uaKick n = (s.modUart n (fun y => { y with flow := t })).uaStart n c none) ∧
  (∀ (n : Nat) (s : State) (x : UaSend) (t : List UaSend), (s.uart n).cur = none → s.uaOn n = true → (s.uart n).flow = [] →
    (s.uart n).sends = x :: t → x.sent < x.chars.length →
    (s.uaFlowOn n = true ∧ s.flag (UA_STAT.XOFF_RX n) = true → s.uaKick n = s) ∧
    (s.uaFlowOn n = false ∨ s.flag (UA_STAT.XOFF_RX n) = false → s.uaKick n = s.uaStart n (nth 0 x.chars x.sent) (some x.tag))) ∧
  (∀ (n : Nat) (s : State), (s.uart n).cur ≠ none ∨ s.uaOn n = false → s.uaKick n = s) ∧
  (∀ (n c : Nat) (tag : Option Nat) (s : State), n < 6 → ∃ t, s.uaStart n c tag = t ∧
    t.uart n = { s.uart n with cur := some ⟨c, tag.isNone, tag, s.uaSet n⟩, deaf := false } ∧
    t.flag (UA_STAT.TX_BUSY n) = true ∧ (n < 4 → t.flag (UA_STAT.DE n) = true) ∧ RegsBut [UA_STAT n] s t ∧ Frame [.regs, .uarts] s t) ∧
  -- UART_TX_CHAR_DONE
  (∀ (u : Uart) (c : UaOut) (s v w x : State), (s.uart u.val).cur = some c →
    v = (s.modUart u.val (fun y => { y with cur := none, deaf := decide (u.val = 4), sends := y.sends.map (fun x =>
        if c.tag = some x.tag then { x with sent := x.sent + 1 } else x) })).putFlag (UA_STAT.TX_BUSY u.val) false →
    w = (if c.flow = true then v.putFlag (UA_STAT.XOFF_TX u.val) (decide (c.data = 0x13)) else v) →
    x = w.uaFinish ((w.uart u.val).sends.length + 1) u.val →
    exec (.uartTxCharDone u) s = .next ((x.uaFlow u.val).uaKick u.val)) ∧
  (∀ (n k : Nat) (s : State) (x : UaSend) (t : List UaSend), (s.uart n).sends = x :: t →
    (x.chars.length ≤ x.sent →
      s.uaFinish (k + 1) n = ((s.modUart n (fun y => { y with sends := t })).complete x.tag stOk x.sent []).uaFinish k n) ∧
    (x.sent < x.chars.length → s.uaFinish (k + 1) n = s)) ∧
  (∀ (u : Uart) (s : State), (s.uart u.val).cur = none → exec (.udeTailExpiry u) s = .next (s.putFlag (UA_STAT.DE u.val) false)) ∧
  -- UA_CFG_WRITE
  (∀ who (u : Uart) (v : Word) (s : State) w, Writable s who (UA_CFG u.val) → w = (s.uaKeep u.val).merge (UA_CFG u.val) 0xFFC000FF v →
    (s.flag (UA_CFG.AMATCH u.val) = false → w.flag (UA_CFG.AMATCH u.val) = true →
      exec (.uaCfgWrite who u v) s = .next (((w.putFlag (UA_STAT.MUTED u.val) true).uaFlow u.val).uaKick u.val)) ∧
    (w.flag (UA_CFG.AMATCH u.val) = false →
      exec (.uaCfgWrite who u v) s = .next (((w.putFlag (UA_STAT.MUTED u.val) false).uaFlow u.val).uaKick u.val)) ∧
    (s.flag (UA_CFG.AMATCH u.val) = true → w.flag (UA_CFG.AMATCH u.val) = true →
      exec (.uaCfgWrite who u v) s = .next ((w.uaFlow u.val).uaKick u.val))) ∧
  (∀ (n : Nat) (s : State), s.uaKeep n = s.modUart n (fun y => { y with rxOld := some (y.rxOld.getD (s.uaSet n)) })) ∧
  -- BAUD_WRITE
  (∀ who (u : Uart) (v : Word) (s : State) d, Writable s who (UA_BAUD u.val) →
    d = (if bits v.toNat 21 6 = 0 then bits v.toNat 21 0 + 64 else bits v.toNat 21 0) →
    (bit v.toNat 31 = true → exec (.baudWrite who u v) s =
      .next ((s.modUart u.val (fun y => { y with pend := some d })).putFlag (UA_BAUD.PEND u.val) true)) ∧
    (bit v.toNat 31 = false → exec (.baudWrite who u v) s =
      .next (((s.uaKeep u.val).modUart u.val (fun y => { y with pend := none })).setReg (UA_BAUD u.val) (BitVec.ofNat 32 d))))

/-- CT_SET, CT_CLR, CONTROL, the pair and output settings and the dead time. A write of CT_SET or CT_CLR, and a CONTROL descriptor of sound form, that names no held output and would not turn both members of an interlocked pair on takes its commands and brings the outputs to their levels; one that names a held output is discarded whole, a CONTROL then completes NOT_PERMITTED; one that would turn both members on sets INTERLOCK as well. A CONTROL that sets and clears one output, or has another byte than 0 from 12 on, completes BAD_DESCRIPTOR. CT_PAIR_WRITE and CT_OCFG_WRITE that would leave an interlocked pair with SAFE = 1 twice are refused NOT_PERMITTED; others take effect. DEAD_TIME_EXPIRY of a running dead time lets the pending member turn on. A CONTROL's outputs have reached their levels when CT_OUT shows them. A pin is driven to its output's level while CT_CFG.OE = 1 and is high impedance otherwise. An output is wanted at SAFE while a trip holds it and at its commanded level otherwise; it turns off at once and turns on at once unless its pair is interlocked and its partner is on or a dead time runs. It says of these commands that they complete, under conditions on the state and the operands alone: CONTROL, CT_SET, CT_CLR, CT_PAIR_WRITE, CT_OCFG_WRITE, DEAD_TIME_EXPIRY. (13_control.md, 10_host_port.md) -/
def Obligations.ControlOutputsFollowCommandsAndInterlocks : Prop :=
  -- CT_SET, CT_CLR
  (∀ who (v : Word) (s : State), Writable s who CT_SET → s.namesHeld (bits v.toNat 15 0) 0 = true → exec (.ctSet who v) s = .next s) ∧
  (∀ who (v : Word) (s : State), Writable s who CT_SET → s.namesHeld (bits v.toNat 15 0) 0 = false → s.bothOn (bits v.toNat 15 0) = true →
    exec (.ctSet who v) s = .next (s.setEvt CT_EVT.INTERLOCK)) ∧
  (∀ who (v : Word) (s : State), Writable s who CT_SET → s.namesHeld (bits v.toNat 15 0) 0 = false → s.bothOn (bits v.toNat 15 0) = false →
    exec (.ctSet who v) s = .next (s.request (bits v.toNat 15 0) 0)) ∧
  (∀ who (v : Word) (s : State), Writable s who CT_CLR → s.namesHeld 0 (bits v.toNat 15 0) = false →
    exec (.ctClr who v) s = .next (s.request 0 (bits v.toNat 15 0))) ∧
  (∀ who (v : Word) (s : State), Writable s who CT_CLR → s.namesHeld 0 (bits v.toNat 15 0) = true → exec (.ctClr who v) s = .next s) ∧
  -- CONTROL
  (∀ (s : State) u d, Taken d s u → u8 d 0 = 7 → zeros d 12 63 = true → u16 d 8 &&& u16 d 10 = 0 →
    (u.namesHeld (u16 d 8) (u16 d 10) = true → exec .control s = .next (u.complete (descTag d) stNotPermitted 0 [])) ∧
    (u.namesHeld (u16 d 8) (u16 d 10) = false → u.bothOn (u16 d 8) = true →
      exec .control s = .next ((u.setEvt CT_EVT.INTERLOCK).complete (descTag d) stNotPermitted 0 [])) ∧
    (u.namesHeld (u16 d 8) (u16 d 10) = false → u.bothOn (u16 d 8) = false →
      exec .control s = .next (State.request { u with ctl := { u.ctl with acts := u.ctl.acts ++ [(descTag d, u16 d 8, u16 d 10)] } }
        (u16 d 8) (u16 d 10)))) ∧
  (∀ (s : State) u d, Taken d s u → u8 d 0 = 7 → (zeros d 12 63 = false ∨ u16 d 8 &&& u16 d 10 ≠ 0) →
    exec .control s = .next (u.complete (descTag d) stBad 0 [])) ∧
  (∀ (s : State) (tag set clr : Nat), s.actDone (tag, set, clr) = true ↔
    (set &&& s.get CT_OUT.LEVEL = set ∧ clr &&& s.get CT_OUT.LEVEL = 0)) ∧
  -- CT_PAIR_WRITE, CT_OCFG_WRITE
  (∀ who (v : Word) (s : State) t, Writable s who CT_PAIR → t = s.writePlain CT_PAIR v →
    (t.bothSafe = true → exec (.ctPairWrite who v) s = .next (s.refuse who CT_PAIR stNotPermitted)) ∧
    (t.bothSafe = false → exec (.ctPairWrite who v) s = .next t.relevel)) ∧
  (∀ who (o : CtlO) (v : Word) (s : State) t, Writable s who (CT_OCFG o.val) → t = s.writePlain (CT_OCFG o.val) v →
    (t.bothSafe = true → exec (.ctOcfgWrite who o v) s = .next (s.refuse who (CT_OCFG o.val) stNotPermitted)) ∧
    (t.bothSafe = false → exec (.ctOcfgWrite who o v) s = .next t.relevel)) ∧
  -- DEAD_TIME_EXPIRY
  (∀ (i : PairN) (s : State), i.val ∈ s.ctl.dead → exec (.deadTimeExpiry i) s =
    .next (State.relevel { s with ctl := { s.ctl with dead := s.ctl.dead.filter (fun j => j ≠ i.val) } })) ∧
  (∀ (i : PairN) (s : State), i.val ∉ s.ctl.dead → exec (.deadTimeExpiry i) s = .next s) ∧
  -- levels
  (∀ (o : CtlO) (s : State), s.ctlPin o.val = if s.flag CT_CFG.OE = true then some (s.bitOf CT_OUT.LEVEL o.val) else none) ∧
  (∀ (o : CtlO) (s : State), s.ctHeld o.val = true ↔ ∃ g : Chan, s.bitOf CT_TRIP.GUARD g.val = true ∧
    (mget heldDef s.ctl.held g.val).getLsbD o.val = true) ∧
  (∀ (o : CtlO) (s : State), s.ctWant o.val = (if s.ctHeld o.val = true then s.flag (CT_OCFG.SAFE o.val) else s.ctCmd o.val)) ∧
  (∀ (o : CtlO) (before : Nat) (s : State), (s.ctWant o.val = false → s.nextLevel before o.val = false) ∧
    (s.ctWant o.val = true → (bit before o.val = true ∨ s.paired2 (o.val / 2) = false) → s.nextLevel before o.val = true) ∧
    (s.ctWant o.val = true → bit before o.val = false → s.paired2 (o.val / 2) = true →
      (bit before (partner o.val) = true ∨ o.val / 2 ∈ s.ctl.dead) → s.nextLevel before o.val = false))

/-- Bringing outputs to their levels never turns both members of an interlocked pair on. After the outputs have been brought to what is wanted of them, an output that is not wanted on is off, an output whose pair is not interlocked is exactly at what is wanted, and HELD shows the held outputs. If no interlocked pair has SAFE = 1 in both members, no interlocked pair has both members on. That premise holds at reset and no CT_PAIR_WRITE or CT_OCFG_WRITE breaks it. It says of these commands that they complete, under conditions on the state and the operands alone: CT_PAIR_WRITE, CT_OCFG_WRITE. (13_control.md) -/
def Obligations.InterlockedPairsAreNeverBothOn : Prop :=
  (∀ (s : State), let t := s.relevel
    (s.bothSafe = false → ∀ i : PairN, t.paired2 i.val = true → (bit (t.get CT_OUT.LEVEL) (2 * i.val) = true → bit (t.get CT_OUT.LEVEL) (2 * i.val + 1) = false)) ∧
    (∀ o : CtlO, t.ctWant o.val = false → bit (t.get CT_OUT.LEVEL) o.val = false) ∧
    (∀ o : CtlO, t.paired2 (o.val / 2) = false → bit (t.get CT_OUT.LEVEL) o.val = t.ctWant o.val) ∧
    t.get CT_OUT.HELD = t.heldMap) ∧
  State.reset.bothSafe = false ∧
  (∀ who (o : CtlO) (v : Word) (s t : State), s.bothSafe = false →
    (exec (.ctPairWrite who v) s = .next t ∨ exec (.ctOcfgWrite who o v) s = .next t) → t.bothSafe = false)

/-- Guard samples, TRIP_CLEAR, feedback, inputs and the demand limiter. GUARD_TRIP runs the modulator clocks it carries, where metering runs. A fast sample of a channel shows in MT_FAST and goes to its guard: a valid sample that meets the condition counts one more up to 15, any other sets the count to 0. A count that reaches M trips the guard: its bit of CT_TRIP is set, the outputs of its map are held, and CT_EVT.TRIP is set. TRIP_CLEAR clears the guards written 1 that are latched, but for one that tripped on the clock edge just past, for which it is open (log 64); they count from 0, hold no output, and the outputs are brought to their levels. FB_MISMATCH ends a running feedback check and sets its event if the output is checked. A raw sample of DIN_EDGE that differs from the debounced level counts, one that equals it sets the count to 0; at DEB, 0 acting as 1, the level changes and EDGE and its event are set. DLIM_LEVEL_WRITE takes CT_DLIM and sets DLIM_LEVEL if LEVEL changed. It says of these commands that they complete, under conditions on the state and the operands alone: GUARD_TRIP, TRIP_CLEAR, FB_MISMATCH, DIN_EDGE, DLIM_LEVEL_WRITE. (13_control.md, 06_metering.md) -/
def Obligations.GuardsTripAndInputsChange : Prop :=
  -- GUARD_TRIP
  (∀ (first : Nat) (l : List (BitVec 8)) (s : State), s.metering = true → exec (.guardTrip first l) s = .next (s.modClocks first l)) ∧
  (∀ (first : Nat) (l : List (BitVec 8)) (s : State), s.metering = false → exec (.guardTrip first l) s = .next s) ∧
  (∀ (first : Nat) (l : List (BitVec 8)) (s : State), first ≤ s.meter.edge + 1 → (∀ r ∈ s.meter.resets, s.meter.edge < r) →
    s.modClocks first l = foldState l (fun b t => t.modClock b) s) ∧
  (∀ (c : Nat) (valid : Bool) (s : State), ∃ (u : State) (y : BitVec 24), Frame [.meter] s u ∧ (s.fastChan c valid).2 = State.emit 50
    (((u.put (MT_FAST.SAMPLE c) y.toNat).putFlag (MT_FAST.VALID c) valid).guardSample c y.toInt valid) (0x2000 + c) { re := y.toInt }) ∧
  (∀ (g : Chan) (x : Int) (valid hit : Bool) (n : Nat) (s t : State),
    hit = (valid && guardHit (s.get (CT_GCFG.MODE g.val)) (s.get (CT_GCFG.THR g.val)) x) →
    n = (if hit = true then min 15 (mget natDef s.ctl.count g.val + 1) else 0) →
    t = { s with ctl := { s.ctl with count := mset natDef s.ctl.count g.val n } } →
    s.guardSample g.val x valid = if mget natDef s.ctl.count g.val < s.guardM g.val ∧ s.guardM g.val ≤ n then t.trip g.val else t) ∧
  (∀ (g : Chan) (s : State), ∃ t : State, s.trip g.val = ((t.putBit CT_TRIP.GUARD g.val true).relevel).setEvt CT_EVT.TRIP ∧
    (∀ o : CtlO, bit (s.get (CT_GMAP.OUT g.val)) o.val = true → (mget heldDef t.ctl.held g.val).getLsbD o.val = true) ∧
    t.regs = s.regs ∧ Frame [.ctl] s t) ∧
  (∀ (thr : Nat) (x : Int), guardHit 0 thr x = false ∧ (guardHit 1 thr x = true ↔ (256 * thr : Int) ≤ x ∨ x ≤ -(256 * thr : Int)) ∧
    (guardHit 2 thr x = true ↔ (256 * thr : Int) ≤ x) ∧ (guardHit 3 thr x = true ↔ x ≤ -(256 * thr : Int))) ∧
  -- TRIP_CLEAR
  (∀ who (v : Word) (s : State), Writable s who CT_TRIP → ∃ t : State, exec (.tripClear who v) s = .next t.relevel ∧
    (∀ g : Chan, bit v.toNat g.val = true → s.bitOf CT_TRIP.GUARD g.val = true → g.val ∉ s.ctl.justNow →
      t.bitOf CT_TRIP.GUARD g.val = false ∧ mget natDef t.ctl.count g.val = 0 ∧ mget heldDef t.ctl.held g.val = 0) ∧
    (∀ g : Chan, (bit v.toNat g.val = false ∨ s.bitOf CT_TRIP.GUARD g.val = false) →
      t.bitOf CT_TRIP.GUARD g.val = s.bitOf CT_TRIP.GUARD g.val ∧ mget natDef t.ctl.count g.val = mget natDef s.ctl.count g.val ∧
      mget heldDef t.ctl.held g.val = mget heldDef s.ctl.held g.val) ∧
    RegsBut [CT_TRIP] s t ∧ Frame [.regs, .ctl, .free] s t) ∧
  -- FB_MISMATCH
  (∀ (o : CtlO) (s : State) u, o.val ∈ s.ctl.check → u = { s with ctl := { s.ctl with check := s.ctl.check.filter (fun p => p ≠ o.val) } } →
    (s.flag (CT_OCFG.FB_EN o.val) = true → exec (.fbMismatch o) s = .next (u.setEvt CT_EVT.FB_MISMATCH)) ∧
    (s.flag (CT_OCFG.FB_EN o.val) = false → exec (.fbMismatch o) s = .next u)) ∧
  (∀ (o : CtlO) (s : State), o.val ∉ s.ctl.check → exec (.fbMismatch o) s = .next s) ∧
  -- DIN_EDGE
  (∀ (i : CtlO) (l : List Bool) (s : State), s.iron.viron = true → exec (.dinEdge i l) s = .next (foldState l (fun b t => t.dinSample i.val b) s)) ∧
  (∀ (i : CtlO) (l : List Bool) (s : State), s.iron.viron = false → exec (.dinEdge i l) s = .next s) ∧
  (∀ (i : CtlO) (b : Bool) (n : Nat) (s : State), n = (if s.bitOf CT_DIN.LEVEL i.val = b then 0 else mget natDef s.ctl.bounce i.val + 1) →
    (n < max (s.get CT_CFG.DEB) 1 →
      s.dinSample i.val b = { s with ctl := { s.ctl with bounce := mset natDef s.ctl.bounce i.val n } }) ∧
    (max (s.get CT_CFG.DEB) 1 ≤ n → ∃ u, s.dinSample i.val b = u.setEvt CT_EVT.DIN_EDGE ∧ u.bitOf CT_DIN.LEVEL i.val = b ∧
      u.bitOf CT_DIN.EDGE i.val = true ∧ mget natDef u.ctl.bounce i.val = 0 ∧
      (∀ j : CtlO, j ≠ i → u.bitOf CT_DIN.LEVEL j.val = s.bitOf CT_DIN.LEVEL j.val) ∧ RegsBut [CT_DIN] s u ∧ Frame [.regs, .ctl] s u)) ∧
  -- DLIM_LEVEL_WRITE
  (∀ who (v : Word) (s : State) t, Writable s who CT_DLIM → t = s.writePlain CT_DLIM v →
    t.get CT_DLIM.LEVEL = bits v.toNat 31 28 ∧ t.get CT_DLIM.SETPOINT = bits v.toNat 15 0 ∧ RegsBut [CT_DLIM] s t ∧ Frame [.regs] s t ∧
    (bits v.toNat 31 28 ≠ s.get CT_DLIM.LEVEL → exec (.dlimLevelWrite who v) s = .next (t.setEvt CT_EVT.DLIM_LEVEL)) ∧
    (bits v.toNat 31 28 = s.get CT_DLIM.LEVEL → exec (.dlimLevelWrite who v) s = .next t))

/-- KEY_LOAD to CTR_RAISE and ZEROISE: their checks in order, and what they do. A mailbox command that has been started and has not run ends with the first check that fails, in the order written here, and changes nothing else; if none fails it has its effect and ends OK. KEY_LOAD loads the key of DATA into its slot; KEY_UNWRAP the key of the blob under the KEK; KEY_WRAP puts the blob of the slot's key, TYPE, USAGE and COUNTER into DATA; KEY_GEN loads a key from the random generator, whose counter is open (log 10), and gives the public key of an EC key; KEY_ERASE and ZEROISE erase; PUBKEY gives the public key; CTR_RAISE raises the slot's counter, at 0xFFFFFFFF with EXHAUSTED. That KEY_UNWRAP and KEY_GEN check PLAIN_LOAD too is the model's reading (log 54). A KEY_LOAD that was not started does nothing. It says of these commands that they complete, under conditions on the state and the operands alone: KEY_LOAD, KEY_UNWRAP, KEY_WRAP, KEY_GEN, KEY_ERASE, PUBKEY, CTR_RAISE, ZEROISE. (14_warden.md) -/
def Obligations.MailboxKeyCommandsCheckAndAct : Prop :=
  -- the first failing check
  (∀ (o : MbxOut) (l : List (Bool × MbxOut)), firstFail [] = mbxOk ∧ firstFail ((true, o) :: l) = o ∧ firstFail ((false, o) :: l) = firstFail l) ∧
  (∀ (s : State), s.mbxReady 0x01 = false → exec .keyLoad s = .next s) ∧
  -- KEY_LOAD
  (∀ (s : State) (ty : Nat) (key : List Byte) (c : MbxOut), s.mbxReady 0x01 = true → ty = bits s.arg0 15 8 → key = s.mbxData (keyLen ty) →
    c = firstFail [(decide (s.mode = 10), (stNotPermitted, dMode)), (bit s.arg0 7, (stBad, dSlot)),
      (!typeCode ty || (decide (ty = 3) && !scalarOk key), (stBad, dType)), (!s.flag WD_POLICY.PLAIN_LOAD, (stNotPermitted, dPolicy)),
      (masterUsage (bits s.arg0 23 16) && !s.wd.mbxPres, (stPresence, 0#8)),
      (s.staleCounter (bits s.arg0 6 0) s.arg1 key, (stNotPermitted, dCounter))] →
    (c ≠ mbxOk → exec .keyLoad s = .next (s.mbxSet c)) ∧
    (c = mbxOk → exec .keyLoad s = .next ((s.loadSlot (bits s.arg0 6 0) ty (bits s.arg0 23 16) s.arg1 key).mbxSet mbxOk))) ∧
  -- KEY_UNWRAP
  (∀ (s : State) (kek : KeySlot) (b : Option (List Byte × Nat × Nat × Nat)) (c : MbxOut), s.mbxReady 0x02 = true →
    kek = s.slot (bits s.arg0 30 24) → b = (s.blobPlain kek).map blobParts →
    c = firstFail [(decide (s.mode = 10), (stNotPermitted, dMode)), (bit s.arg0 7, (stBad, dSlot)),
      (decide (kek.type = 0), (stNotPermitted, dEmpty)), (!kek.isAes, (stNotPermitted, dType)), (!kek.may 6, (stNotPermitted, dUsage)),
      (b.any (fun x => !typeCode x.2.1 || decide (keyLen x.2.1 ≠ x.1.length) || (decide (x.2.1 = 3) && !scalarOk x.1)), (stBad, dType)),
      (!s.flag WD_POLICY.PLAIN_LOAD, (stNotPermitted, dPolicy)),
      (b.any (fun x => masterUsage x.2.2.1) && !s.wd.mbxPres, (stPresence, 0#8)), (b.isNone, (stAuthFail, 0#8)),
      (b.any (fun x => s.staleCounter (bits s.arg0 6 0) x.2.2.2 x.1), (stNotPermitted, dCounter))] →
    (c ≠ mbxOk → exec .keyUnwrap s = .next (s.mbxSet c)) ∧
    (∀ x, c = mbxOk → b = some x →
      exec .keyUnwrap s = .next ((s.loadSlot (bits s.arg0 6 0) x.2.1 x.2.2.1 x.2.2.2 x.1).mbxSet mbxOk))) ∧
  -- KEY_WRAP
  (∀ (s : State) (k kek : KeySlot) (c : MbxOut), s.mbxReady 0x03 = true → k = s.slot (bits s.arg0 6 0) → kek = s.slot (bits s.arg0 30 24) →
    c = firstFail [(decide (s.mode = 10), (stNotPermitted, dMode)), (bit s.arg0 7, (stBad, dSlot)),
      (decide (k.type = 0), (stNotPermitted, dEmpty)), (decide (kek.type = 0), (stNotPermitted, dEmpty)),
      (!kek.isAes, (stNotPermitted, dType)), (!kek.may 6 || !k.may 7, (stNotPermitted, dUsage)),
      (!s.flag WD_POLICY.EXPORT_EN, (stNotPermitted, dPolicy))] →
    (c ≠ mbxOk → exec .keyWrap s = .next (s.mbxSet c)) ∧
    (c = mbxOk → exec .keyWrap s = .next ((s.putMbxData 0 (keyWrap kek.bytes (k.bytes ++ leBytes 1 k.type ++ leBytes 1 k.usage.toNat ++
      [0#8, 0#8] ++ beBytes 4 k.counter.toNat))).mbxSet mbxOk))) ∧
  -- KEY_GEN
  (∀ (s : State) (ty : Nat) (c : MbxOut), s.mbxReady 0x04 = true → ty = bits s.arg0 15 8 →
    c = firstFail [(decide (s.mode = 10), (stNotPermitted, dMode)), (bit s.arg0 7, (stBad, dSlot)), (!typeCode ty, (stBad, dType)),
      (!s.flag WD_POLICY.PLAIN_LOAD, (stNotPermitted, dPolicy)), (masterUsage (bits s.arg0 23 16) && !s.wd.mbxPres, (stPresence, 0#8))] →
    (c ≠ mbxOk → exec .keyGen s = .next (s.mbxSet c)) ∧
    (c = mbxOk → ty ≠ 3 → ∃ (ctr : Nat) (key : List Byte) (u : State), key.length = keyLen ty ∧ Frame [.free] s u ∧
      exec .keyGen s = .next ((u.loadSlot (bits s.arg0 6 0) ty (bits s.arg0 23 16) ctr key).mbxSet mbxOk)) ∧
    (c = mbxOk → ty = 3 → ∃ (ctr d : Nat) (u : State), 1 ≤ d ∧ d < p256n ∧ Frame [.free] s u ∧ exec .keyGen s =
      .next (((u.loadSlot (bits s.arg0 6 0) 3 (bits s.arg0 23 16) ctr (beBytes 32 d)).putMbxData 0 (ecPublic d)).mbxSet mbxOk))) ∧
  -- KEY_ERASE
  (∀ (s : State) (i : Nat) (c : MbxOut), s.mbxReady 0x05 = true → i = bits s.arg0 6 0 →
    c = firstFail [(decide (s.mode = 10), (stNotPermitted, dMode)), (bit s.arg0 7, (stBad, dSlot)),
      (decide ((s.slot i).type = 0), (stNotPermitted, dEmpty)), (masterUsage (s.slot i).usage.toNat && !s.wd.mbxPres, (stPresence, 0#8))] →
    (c ≠ mbxOk → exec .keyErase s = .next (s.mbxSet c)) ∧ (c = mbxOk → exec .keyErase s = .next ((s.eraseKey i).mbxSet mbxOk))) ∧
  -- PUBKEY
  (∀ (s : State) (i : Nat) (c : MbxOut), s.mbxReady 0x06 = true → i = bits s.arg0 6 0 →
    c = firstFail [(decide (s.mode = 10), (stNotPermitted, dMode)), (bit s.arg0 7, (stBad, dSlot)),
      (decide ((s.slot i).type = 0), (stNotPermitted, dEmpty)), (decide ((s.slot i).type ≠ 3), (stNotPermitted, dType))] →
    (c ≠ mbxOk → exec .pubkey s = .next (s.mbxSet c)) ∧
    (c = mbxOk → exec .pubkey s = .next ((s.putMbxData 0 (ecPublic (beNat (s.slot i).bytes))).mbxSet mbxOk))) ∧
  -- CTR_RAISE
  (∀ (s : State) (i : Nat) (c : MbxOut), s.mbxReady 0x07 = true → i = bits s.arg0 6 0 →
    c = firstFail [(decide (s.mode = 10), (stNotPermitted, dMode)), (bit s.arg0 7, (stBad, dSlot)),
      (decide ((s.slot i).type = 0), (stNotPermitted, dEmpty)), (decide (s.arg1 ≤ (s.slot i).counter.toNat), (stNotPermitted, dValue))] →
    (c ≠ mbxOk → exec .ctrRaise s = .next (s.mbxSet c)) ∧
    (c = mbxOk → s.arg1 < 2 ^ 32 - 1 → exec .ctrRaise s =
      .next ((s.setSlot i { s.slot i with counter := BitVec.ofNat 32 s.arg1, exhausted := false }).mbxSet mbxOk)) ∧
    (c = mbxOk → s.arg1 = 2 ^ 32 - 1 → exec .ctrRaise s = .next (((s.setSlot i { s.slot i with counter := BitVec.ofNat 32 s.arg1, exhausted := true }).setEvtWith WD_EVT.EXHAUSTED (leBytes 1 i)).mbxSet mbxOk))) ∧
  -- ZEROISE
  (∀ (s : State), s.mbxReady 0x0A = true → s.mode ≠ 10 →
    (s.wd.mbxPres = true → exec .zeroise s = .next (s.eraseAll.mbxSet mbxOk)) ∧
    (s.wd.mbxPres = false → exec .zeroise s = .next (s.mbxSet (stPresence, 0#8))))

/-- Loading and erasing a key slot, and taking its counter. A load of slot i gives it the key, TYPE, USAGE and COUNTER, makes it ACTIVE and adds 1 to VERSION; an erase of a slot that holds a key leaves it EMPTY with COUNTER 0 and VERSION one higher, and ends the jobs in an engine that use it KEY_ERASED; an EMPTY slot stays as it is. Neither touches another slot. The commands' erase also judges each frame that has a context and has not started: one protected under the slot, of a send, ends its copy KEY_ERASED where an engine holds it, which is open (log 69); any other frame stays. Taking a counter value gives the slot's COUNTER and adds 1; a slot at 0xFFFFFFFF gives none. ZEROISE erases the slots one after another. (14_warden.md) -/
def Obligations.SlotsAgeWithEveryChange : Prop :=
  (∀ (s : State) (i type usage counter : Nat) (key : List Byte) (t : State), t = s.loadSlot i type usage counter key → type ≠ 0 →
    (t.slot i).state = 1 ∧ (t.slot i).type = type ∧ (t.slot i).usage = BitVec.ofNat 8 usage ∧ (t.slot i).counter = BitVec.ofNat 32 counter ∧
    (t.slot i).version = (s.slot i).version + 1 ∧ (t.slot i).key.toNat = beNat (padTo 32 key) ∧
    (∀ j, j ≠ i → t.slot j = s.slot j) ∧ Frame [.wd] s t) ∧
  (∀ (s : State) (i : Nat) (t : State), t = s.eraseSlot i → (s.slot i).type ≠ 0 →
    (t.slot i).state = 0 ∧ (t.slot i).key = 0 ∧ (t.slot i).counter = 0 ∧ (t.slot i).version = (s.slot i).version + 1 ∧
    (∀ j, j ≠ i → t.slot j = s.slot j) ∧ Frame [.wd] s t ∧
    (∀ j ∈ s.wd.jobs, j.entered = true → j.verdict = none → j.op ∉ [7, 9, 12] → j.slot = i →
      { j with verdict := some (3#8, 0#8) } ∈ t.wd.jobs)) ∧
  (∀ (s : State) (i : Nat), (s.slot i).type = 0 → s.eraseSlot i = s) ∧
  (∀ (s : State) (i : Nat), (s.slot i).type = 0 → s.eraseKey i = s) ∧
  (∀ (s : State) (i : Nat), (s.slot i).type ≠ 0 → s.eraseKey i = foldState (List.range 4) (fun p t =>
    foldState ((t.ctxs p).filter (fun c => !c.2.started)) (fun c u => u.eraseFrame i p c.1 c.2) t) (s.eraseSlot i)) ∧
  (∀ (s : State) (i p key m : Nat) (x : TxCtx) (y : SendSt) (d : Nat) (u : State), x.kind = .item m → s.sendIn (p * 64 + x.k) x.kind = some y →
    (s.macSlot y.mac ≠ some i → s.eraseFrame i p key x = s) ∧
    (s.macSlot y.mac = some i → s.free 2 = (d, u) → s.eraseFrame i p key x =
      if d = 1 then (((u.setCtx p key none).showCtx p x.k).txenDrop p).endCopy y.id (p * 64 + x.k) stKeyErased [] else u)) ∧
  (∀ (s : State) (i p key : Nat) (x : TxCtx), s.sendIn (p * 64 + x.k) x.kind = none → s.eraseFrame i p key x = s) ∧
  (∀ (s : State), s.eraseAll = foldState (List.range 128) (fun i t => t.eraseKey i) s) ∧
  (∀ (s : State) (i : Nat) (v : Nat) (t : State), s.takeCounter i = (some v, t) → v = (s.slot i).counter.toNat ∧ v ≠ 2 ^ 32 - 1 ∧
    (t.slot i).counter = (s.slot i).counter + 1 ∧ (t.slot i).version = (s.slot i).version ∧ (t.slot i).key = (s.slot i).key ∧
    (∀ j, j ≠ i → t.slot j = s.slot j)) ∧
  (∀ (s : State) (i : Nat), (s.takeCounter i).1 = none ↔ (s.slot i).counter.toNat = 2 ^ 32 - 1)

/-- ROOT_SET to LIFE_BURN, ATTEST, SELFTEST, MAINT_ENTER, TEST_ENTER and MBX_DONE. Each of these commands, started and not yet run, ends with its first failing check; if none fails it acts. ROOT_SET, FLOOR_SET, WINDOW_SET and LIFE_BURN write an OTP row, whose failed read-back ends NOT_PERMITTED with its DETAIL. ATTEST puts the attestation key or a signature and the record into DATA. SELFTEST reports the tests, a failing one by Quarantine. MAINT_ENTER goes to Maintenance from a running mode or Quarantine, TEST_ENTER erases the slots and goes to Test. MBX_DONE ends the command: STATUS and DETAIL in WD_MBX_STAT, BUSY 0, DONE 1, and the key words of a KEY_LOAD zeroed; an OP that is not listed ends BAD_DESCRIPTOR, in Quarantine NOT_PERMITTED. It says of these commands that they complete, under conditions on the state and the operands alone: ATTEST, SELFTEST, ROOT_SET, FLOOR_SET, WINDOW_SET, LIFE_BURN, MAINT_ENTER, TEST_ENTER, MBX_DONE. (14_warden.md, 15_power_modes.md) -/
def Obligations.MailboxOtpAndModeCommands : Prop :=
  -- ROOT_SET
  (∀ (s : State) (b : Bool) (c : MbxOut), s.mbxReady 0x10 = true → c = firstFail [(decide (s.mode = 10), (stNotPermitted, dMode)),
      (!s.wd.mbxPres, (stPresence, 0#8)), (decide (8 ≤ s.wd.otp.roots.length), (stNotPermitted, dOtpFull))] →
    (c ≠ mbxOk → exec (.rootSet b) s = .next (s.mbxSet c)) ∧
    (c = mbxOk → b = true → ∃ t : State, exec (.rootSet true) s = .next ((t.setEvt WD_EVT.OTP_WRITTEN).mbxSet mbxOk) ∧
      t.wd.otp.root = some (s.mbxData 32) ∧ t.wd.otp.roots.length = s.wd.otp.roots.length + 1 ∧ Frame [.wd] s t) ∧
    (c = mbxOk → b = false → ∃ t : State, exec (.rootSet false) s = .next (t.mbxSet (stNotPermitted, dOtpFail)) ∧
      t.wd.otp.root = s.wd.otp.root ∧ Frame [.wd] s t)) ∧
  -- FLOOR_SET
  (∀ (s : State) (b : Bool) (c : MbxOut), s.mbxReady 0x11 = true → c = firstFail [(decide (s.mode = 10), (stNotPermitted, dMode)),
      (decide ((s.reg FAB_INGOT).toNat < s.arg1), (stBad, dValue)), (!s.wd.mbxPres, (stPresence, 0#8)),
      (decide (s.arg1 ≤ s.wd.otp.floor), (stNotPermitted, dValue)), (decide (16 ≤ s.wd.otp.floors.length), (stNotPermitted, dOtpFull))] →
    (c ≠ mbxOk → exec (.floorSet b) s = .next (s.mbxSet c)) ∧
    (c = mbxOk → b = true → ∃ t : State, exec (.floorSet true) s = .next ((t.setEvt WD_EVT.OTP_WRITTEN).mbxSet mbxOk) ∧
      t.wd.otp.floor = s.arg1 ∧ Frame [.wd] s t) ∧
    (c = mbxOk → b = false → ∃ t : State, exec (.floorSet false) s = .next (t.mbxSet (stNotPermitted, dOtpFail)) ∧
      t.wd.otp.floor = s.wd.otp.floor ∧ Frame [.wd] s t)) ∧
  -- WINDOW_SET
  (∀ (s : State) (b : Bool) (c : MbxOut), s.mbxReady 0x12 = true → c = firstFail [(decide (s.mode = 10), (stNotPermitted, dMode)),
      (decide (s.arg1 < 10 ∨ 300 < s.arg1), (stBad, dValue)), (!s.wd.mbxPres, (stPresence, 0#8)),
      (decide (4 ≤ s.wd.otp.windows.length), (stNotPermitted, dOtpFull))] →
    (c ≠ mbxOk → exec (.windowSet b) s = .next (s.mbxSet c)) ∧
    (c = mbxOk → b = true → ∃ t : State, exec (.windowSet true) s = .next ((t.setEvt WD_EVT.OTP_WRITTEN).mbxSet mbxOk) ∧
      t.wd.otp.len = s.arg1 ∧ Frame [.wd] s t) ∧
    (c = mbxOk → b = false → ∃ t : State, exec (.windowSet false) s = .next (t.mbxSet (stNotPermitted, dOtpFail)) ∧ Frame [.wd] s t)) ∧
  -- LIFE_BURN
  (∀ (s : State) (b : Bool) (c : MbxOut), s.mbxReady 0x13 = true → c = firstFail [(decide (s.mode = 10), (stNotPermitted, dMode)),
      (decide (4 ≤ s.arg1), (stBad, dValue)), (!s.wd.mbxPres, (stPresence, 0#8))] →
    (c ≠ mbxOk → exec (.lifeBurn b) s = .next (s.mbxSet c)) ∧
    (c = mbxOk → b = true → ∃ t : State, exec (.lifeBurn true) s = .next ((t.setEvt WD_EVT.OTP_WRITTEN).mbxSet mbxOk) ∧
      t.wd.otp.debugOff = (s.wd.otp.debugOff || bit s.arg1 0) ∧ t.wd.otp.testOff = (s.wd.otp.testOff || bit s.arg1 1) ∧ Frame [.wd] s t) ∧
    (c = mbxOk → b = false → ∃ t : State, exec (.lifeBurn false) s = .next (t.mbxSet (stNotPermitted, dOtpFail)) ∧ Frame [.wd] s t)) ∧
  -- ATTEST
  (∀ (s : State), s.mbxReady 0x08 = true → bit s.arg0 0 = true →
    exec .attest s = .next ((s.putMbxData 0 (ecPublic s.wd.otp.attest)).mbxSet mbxOk)) ∧
  (∀ (s : State), s.mbxReady 0x08 = true → bit s.arg0 0 = false → ∃ (sig : List Byte) (u : State), Frame [.free] s u ∧
    exec .attest s = .next (((u.putMbxData 0 sig).putMbxData 16 s.attRecord).mbxSet mbxOk)) ∧
  -- SELFTEST
  (∀ (s : State) (q : QCause), s.mbxReady 0x09 = true →
    (s.mode = 10 → exec (.selftest q) s = .next (s.mbxSet (stNotPermitted, dMode))) ∧
    (s.mode ≠ 10 → q.val = 0 → exec (.selftest q) s = .next ((s.setEvt WD_EVT.SELFTEST_DONE).mbxSet mbxOk)) ∧
    (s.mode ≠ 10 → q.val ≠ 0 → exec (.selftest q) s = .next ((s.quarantine q.val).mbxSet (stNotPermitted, dMode)))) ∧
  -- MAINT_ENTER, TEST_ENTER
  (∀ (s : State), s.mbxReady 0x18 = true → s.running = false → s.mode ≠ 10 → exec .maintEnter s = .next (s.mbxSet (stNotPermitted, dMode))) ∧
  (∀ (s : State), s.mbxReady 0x18 = true → (s.running = true ∨ s.mode = 10) →
    (s.wd.mbxPres = false → exec .maintEnter s = .next (s.mbxSet (stPresence, 0#8))) ∧
    (s.wd.mbxPres = true → s.mode = 9 → exec .maintEnter s = .next (s.mbxSet mbxOk)) ∧
    (s.wd.mbxPres = true → s.mode ≠ 9 → s.mode ≠ 10 → exec .maintEnter s = .next ((s.leaveOutage 9 12).mbxSet mbxOk)) ∧
    (s.wd.mbxPres = true → s.mode = 10 → exec .maintEnter s = .next (((s.put WD_STAT.STATE 1).leaveOutage 9 12).mbxSet mbxOk))) ∧
  (∀ (s : State) (c : MbxOut), s.mbxReady 0x19 = true → c = firstFail [(decide (s.mode = 10), (stNotPermitted, dMode)),
      (!s.running, (stNotPermitted, dMode)), (!s.flag SYS_STRAP.TEST_EN, (stNotPermitted, dStrap)),
      (s.wd.otp.testOff, (stNotPermitted, dLifecycle)), (!s.wd.mbxPres, (stPresence, 0#8))] →
    (c ≠ mbxOk → exec .testEnter s = .next (s.mbxSet c)) ∧
    (c = mbxOk → exec .testEnter s = .next ((s.eraseAll.leaveOutage 11 12).mbxSet mbxOk))) ∧
  -- MBX_DONE
  (∀ (s : State) (op : Nat) (o : Byte × Byte), s.wd.mbxOp = some op → s.wd.mbxRes = some o → exec .mbxDone s = .next (s.mbxEnd op o)) ∧
  (∀ (s : State) (op : Nat), s.wd.mbxOp = some op → s.wd.mbxRes = none → op ∉ mbxOps → exec .mbxDone s = .next (s.mbxEnd op
    (if s.mode = 10 then (BitVec.ofNat 8 stNotPermitted, dMode) else (BitVec.ofNat 8 stBad, 0#8)))) ∧
  (∀ (s : State) (op : Nat) (o : Byte × Byte), op ≠ 1 → ∃ t : State, s.mbxEnd op o = t.setEvt WD_EVT.MBX_DONE ∧
    t.flag WD_MBX_STAT.BUSY = false ∧ t.flag WD_MBX_STAT.DONE = true ∧ t.get WD_MBX_STAT.STATUS = o.1.toNat ∧
    t.get WD_MBX_STAT.DETAIL = o.2.toNat ∧ t.wd = { s.wd with mbxOp := none, mbxRes := none } ∧
    RegsBut [WD_MBX_STAT] s t ∧ Frame [.regs, .wd] s t) ∧
  (∀ (s : State) (o : Byte × Byte) (i : Nat), typeCode (bits s.arg0 15 8) = true → 4 * i < keyLen (bits s.arg0 15 8) →
    ∃ t : State, s.mbxEnd 1 o = t.setEvt WD_EVT.MBX_DONE ∧ t.reg (WD_MBX_DATA i) = 0)

/-- Presence, WD_POLICY and WD_SLOT. PRESENCE_ASSERT shows the level; while the logic is armed it disarms it and opens a window of the length in force from now, with PRES_OPEN and its event, and may wake the device. PRESENCE_RELEASE arms it again. PRESENCE_WINDOW_EXPIRY of an open window whose length has run out, and a WD_PRES write of CLOSE that reaches the device, close the open window with PRES_CLOSE; an expiry of a window restarted since changes nothing. DEBUG_UNLOCK writes WD_POLICY where no field it changes is refused; DBG_UNLOCK takes a 1 only in Maintenance and Test with debug not burned off, and otherwise is refused, the other fields written. WD_SLOT_READ drives the selected slot's STATE, TYPE and USAGE and copies its VERSION and COUNTER. It says of these commands that they complete, under conditions on the state and the operands alone: PRESENCE_ASSERT, PRESENCE_RELEASE, PRESENCE_WINDOW_EXPIRY, PRESENCE_CLOSE, DEBUG_UNLOCK, WD_SLOT_READ. (14_warden.md) -/
def Obligations.PresenceWindowsAndPolicy : Prop :=
  (∀ (s : State) t u, s.wd.presArmed = true → u = s.putFlag WD_STAT.PRES_LVL true →
    t = State.putFlag { u with wd := { u.wd with presArmed := false, presFrom := u.iron.rtc, presLen := u.wd.otp.len } } WD_STAT.PRES_OPEN true →
    exec .presenceAssert s = .next ((t.setEvt WD_EVT.PRES_OPEN).wake PWR_WAKE.PRES)) ∧
  (∀ (s : State), s.wd.presArmed = false → exec .presenceAssert s = .next (s.putFlag WD_STAT.PRES_LVL true)) ∧
  (∀ (s : State), ∃ t, exec .presenceRelease s = .next t ∧ t.flag WD_STAT.PRES_LVL = false ∧ t.wd = { s.wd with presArmed := true } ∧
    t.presence = s.presence ∧ RegsBut [WD_STAT] s t ∧ Frame [.regs, .wd] s t) ∧
  (∀ (s : State), s.wd.presLen * 32768 ≤ (s.iron.rtc + 2 ^ 48 - s.wd.presFrom) % 2 ^ 48 → exec .presenceWindowExpiry s = .next s.closeWindow) ∧
  (∀ (s : State), (s.iron.rtc + 2 ^ 48 - s.wd.presFrom) % 2 ^ 48 < s.wd.presLen * 32768 → exec .presenceWindowExpiry s = .next s) ∧
  (∀ (s : State), s.presence = true → s.closeWindow = (s.putFlag WD_STAT.PRES_OPEN false).setEvt WD_EVT.PRES_CLOSE) ∧
  (∀ (s : State), s.presence = false → s.closeWindow = s) ∧
  (∀ (v : Word) (s : State), Writable s .host WD_PRES → bit v.toNat 31 = true → exec (.presenceClose v) s = .next s.closeWindow) ∧
  (∀ (v : Word) (s : State), Writable s .host WD_PRES → bit v.toNat 31 = false → exec (.presenceClose v) s = .next s) ∧
  (∀ (v : Word) (s : State), Writable s .host WD_POLICY → s.refusedFields .host WD_POLICY = [] →
    ((s.mode = 9 ∨ s.mode = 11) ∧ s.wd.otp.debugOff = false) ∨ bit v.toNat 31 = false →
    ∃ t, exec (.debugUnlock v) s = .next t ∧ t.flag WD_POLICY.DBG_UNLOCK = bit v.toNat 31 ∧
      RegsBut [WD_POLICY] s t ∧ Frame [.regs] s t) ∧
  (∀ (v : Word) (s : State), Writable s .host WD_POLICY → s.refusedFields .host WD_POLICY = [] → bit v.toNat 31 = true →
    s.flag WD_POLICY.DBG_UNLOCK = false → ((s.mode ≠ 9 ∧ s.mode ≠ 11) ∨ s.wd.otp.debugOff = true) →
    exec (.debugUnlock v) s = .next ((s.refuse .host WD_POLICY stNotPermitted).merge WD_POLICY 0x60000000 v)) ∧
  (∀ (s : State) (k : KeySlot), s.reads .host = true → k = s.slot (s.get WD_SLOTSEL.SLOT) → k.type < 64 →
    ∃ t, exec .wdSlotRead s = .next t ∧ t.hp.out = [BitVec.ofNat 32 (k.state * 2 ^ 30 + k.type * 2 ^ 24 + k.usage.toNat * 2 ^ 16)] ∧
      t.reg WD_SLOT_VER = k.version ∧ t.reg WD_SLOT_CTR = k.counter ∧ RegsBut [WD_SLOT_VER, WD_SLOT_CTR] s t ∧ Frame [.regs, .hp] s t)

/-- GCM_ENC to RANDOM: the checks of R283 and the job that is queued. With fewer than 64 jobs held, a CIPHER descriptor at HEAD whose OP is the command's is checked: its form (slot numbers, tag length, fields not used), its input references, the lengths and the output reference, then the slot's presence, TYPE and USAGE, then presence for a master key. The first failing check completes it with its status, its DETAIL in INFO, and queues nothing. If none fails its inputs are taken and one job is added behind the others, bound to the slot and its VERSION. With 64 jobs held the descriptor waits. An OP that is not listed completes BAD_DESCRIPTOR. The checks read the state after the descriptor is taken and its references are read; `cipherSlot` is the list of the slot and presence checks. It says of these commands that they complete, under conditions on the state and the operands alone: GCM_ENC, GCM_DEC, CCM_ENC, CCM_DEC, CMAC_GEN, CMAC_VER, SHA256, ECDSA_SIGN, ECDSA_VER, ECDH, KDF, RANDOM. (14_warden.md, 10_host_port.md) -/
def Obligations.CipherDescriptorsBecomeJobs : Prop :=
  (∀ (i : Instr) (op : Nat) (o : CipherOp) (s u v : State) (d a b : List Byte),
    (i, op) ∈ [(.gcmEnc, 0x01), (.gcmDec, 0x02), (.ccmEnc, 0x03), (.ccmDec, 0x04), (.cmacGen, 0x05), (.cmacVer, 0x06), (.sha256, 0x07),
      (.ecdsaSign, 0x08), (.ecdsaVer, 0x09), (.ecdh, 0x0A), (.kdf, 0x0B), (.random, 0x0C)] →
    s.wd.jobs.length < 64 → Taken d s u → u8 d 0 = 4 → u8 d 8 = op → cipherOp op = some o →
    firstFail (cipherForm o d) = mbxOk → u.drefBytes (drefAt d 12) = some a → v = u.drefTake (drefAt d 12) →
    v.drefBytes (drefAt d 20) = some b →
    firstFail (cipherLens op o d a b ++ [(o.out && !u.outOk (drefAt d 28), (stBad, 0#8))] ++ u.cipherSlot op o d) = mbxOk →
    ∃ (t : State) (j : CipherJob), exec i s = .next t ∧ t.wd.jobs = (v.drefTake (drefAt d 20)).wd.jobs ++ [j] ∧
      j.tag = descTag d ∧ j.op = op ∧ j.inp = a ∧ j.inp2 = b ∧ j.slot = u8 d 9 ∧ j.slot2 = u8 d 11 ∧ j.tagLen = u8 d 10 % 32 ∧
      j.entered = false ∧ j.verdict = none ∧ (o.slot.isSome = true → j.ver = (u.slot (u8 d 9)).version) ∧
      j.outKind = (drefAt d 28).kind ∧ j.outQ = (drefAt d 28).ql ∧ j.outAddr = (drefAt d 28).addr ∧
      j.st = (d.drop 36).take 8 ∧ j.ic = u32 d 44 ∧ j.slv = u8 d 48 ∧ j.usage = u8 d 49 ∧ j.count = u16 d 50 ∧
      j.prehash = bit (u8 d 10) 5 ∧ j.k256 = bit (u8 d 10) 6 ∧ Frame [.wd] (v.drefTake (drefAt d 20)) t) ∧
  (∀ (i : Instr) (op : Nat) (o : CipherOp) (c : MbxOut) (s u : State) (d : List Byte),
    (i, op) ∈ [(.gcmEnc, 0x01), (.gcmDec, 0x02), (.ccmEnc, 0x03), (.ccmDec, 0x04), (.cmacGen, 0x05), (.cmacVer, 0x06), (.sha256, 0x07),
      (.ecdsaSign, 0x08), (.ecdsaVer, 0x09), (.ecdh, 0x0A), (.kdf, 0x0B), (.random, 0x0C)] →
    s.wd.jobs.length < 64 → Taken d s u → u8 d 0 = 4 → u8 d 8 = op → cipherOp op = some o →
    (firstFail (cipherForm o d) = c ∧ c ≠ mbxOk ∨ firstFail (cipherForm o d) = mbxOk ∧ u.drefBytes (drefAt d 12) = none ∧ c = (stBad, 0#8) ∨
      firstFail (cipherForm o d) = mbxOk ∧ c ≠ mbxOk ∧ ∃ a b, u.drefBytes (drefAt d 12) = some a ∧
        (u.drefTake (drefAt d 12)).drefBytes (drefAt d 20) = some b ∧
        firstFail (cipherLens op o d a b ++ [(o.out && !u.outOk (drefAt d 28), (stBad, 0#8))] ++ u.cipherSlot op o d) = c ∨
      firstFail (cipherForm o d) = mbxOk ∧ c = (stBad, 0#8) ∧ (∃ a, u.drefBytes (drefAt d 12) = some a) ∧
        (u.drefTake (drefAt d 12)).drefBytes (drefAt d 20) = none) →
    exec i s = .next (u.complete (descTag d) c.1 (c.2.toNat * 65536) (leBytes 4 0 ++ leBytes 4 0))) ∧
  (∀ (s : State), 64 ≤ s.wd.jobs.length → ∀ (i : Instr), i ∈ [Instr.gcmEnc, .gcmDec, .ccmEnc, .ccmDec, .cmacGen, .cmacVer, .sha256, .ecdsaSign,
    .ecdsaVer, .ecdh, .kdf, .random] → exec i s = .next s) ∧
  (∀ (s u : State) (d : List Byte), s.wd.jobs.length < 64 → Taken d s u → u8 d 0 = 4 →
    cipherOp (u8 d 8) = none → exec .sha256 s = .next (u.complete (descTag d) stBad 0 (leBytes 4 0 ++ leBytes 4 0))) ∧
  (∀ (s : State) (op : Nat) (o : CipherOp) (d : List Byte), s.cipherSlot op o d =
    [(o.slot.isSome && decide ((s.slot (u8 d 9)).type = 0), (stNotPermitted, dEmpty)),
     (o.slot.any (fun x => !x.1.contains (s.slot (u8 d 9)).type), (stNotPermitted, dType)),
     (o.slot.any (fun x => !(s.slot (u8 d 9)).may x.2), (stNotPermitted, dUsage)),
     ((decide (op = 10) || (decide (op = 11) && masterUsage (u8 d 49))) && !s.presence, (stPresence, 0#8))])

/-- CIPHER_ENGINE_ENTRY and CIPHER_JOB_DONE. While SELFTEST runs, both leave the state as it is. Otherwise CIPHER_ENGINE_ENTRY takes the first job not yet in an engine. In Quarantine it ends NOT_PERMITTED; if its slot's VERSION has changed, KEY_CHANGED. A GCM_ENC or CCM_ENC takes the slot's next counter value, or ends EXHAUSTED; the job then holds the slot's key. CIPHER_JOB_DONE takes the first job in an engine: one that was condemned ends with its verdict. Otherwise the output of its operation goes to its OUT and it completes OK, INFO giving the bytes written; a tag or signature that does not hold ends AUTH_FAIL, an invalid point BAD_DESCRIPTOR. A job that fails leaves zeros in a capture OUT. Of ECDSA_SIGN, RANDOM, and the counters of derived keys the values drawn are open (log 10). It says of these commands that they complete, under conditions on the state and the operands alone: CIPHER_ENGINE_ENTRY, CIPHER_JOB_DONE. (14_warden.md, 10_host_port.md) -/
def Obligations.CipherJobsEnterAndComplete : Prop :=
  (∀ s : State, s.selftesting = true → exec .cipherEngineEntry s = .next s ∧ exec .cipherJobDone s = .next s) ∧
  -- CIPHER_ENGINE_ENTRY
  (∀ (s : State) (j : CipherJob) (o : CipherOp), s.selftesting = false → s.wd.jobs.find? (fun x => !x.entered) = some j → cipherOp j.op = some o →
    (s.mode = 10 → exec .cipherEngineEntry s = .next (s.failJob j stNotPermitted dMode)) ∧
    (s.mode ≠ 10 → o.slot.isSome = true → (s.slot j.slot).version ≠ j.ver →
      exec .cipherEngineEntry s = .next (s.failJob j stKeyChanged 0#8)) ∧
    (s.mode ≠ 10 → (o.slot.isSome = true → (s.slot j.slot).version = j.ver) → j.op ≠ 1 → j.op ≠ 3 →
      exec .cipherEngineEntry s = .next (s.modJob j.tag (fun x => { x with entered := true, key := if o.slot.isSome then s.slot j.slot else {} }))) ∧
    (∀ v t, s.mode ≠ 10 → (s.slot j.slot).version = j.ver → (j.op = 1 ∨ j.op = 3) → s.takeCounter j.slot = (some v, t) →
      exec .cipherEngineEntry s = .next (t.modJob j.tag (fun x => { x with entered := true, key := s.slot j.slot, ctr := v }))) ∧
    (∀ t, s.mode ≠ 10 → (s.slot j.slot).version = j.ver → (j.op = 1 ∨ j.op = 3) → s.takeCounter j.slot = (none, t) →
      exec .cipherEngineEntry s = .next (t.failJob j stExhausted 0#8))) ∧
  -- CIPHER_JOB_DONE
  (∀ (s : State) (j : CipherJob) (v : Byte × Byte), s.selftesting = false → s.wd.jobs.find? (fun x => x.entered) = some j → j.verdict = some v →
    exec .cipherJobDone s = .next (s.failJob j v.1.toNat v.2)) ∧
  (∀ (s : State) (j : CipherJob), s.selftesting = false → s.wd.jobs.find? (fun x => x.entered) = some j → j.verdict = none →
    (j.op = 0x01 → exec .cipherJobDone s = .next (s.passJob j (gcmEnc j.key.bytes (j.st ++ beBytes 4 j.ctr) j.inp2 j.inp j.tagLen))) ∧
    (j.op = 0x02 → ∀ p, gcmDec j.key.bytes (j.st ++ beBytes 4 j.ic) j.inp2 j.inp j.tagLen = some p → exec .cipherJobDone s = .next (s.passJob j p)) ∧
    (j.op = 0x02 → gcmDec j.key.bytes (j.st ++ beBytes 4 j.ic) j.inp2 j.inp j.tagLen = none →
      exec .cipherJobDone s = .next (s.failJob j stAuthFail 0#8)) ∧
    (j.op = 0x03 → exec .cipherJobDone s =
      .next (s.passJob j (ccmEnc j.key.bytes (j.st ++ beBytes 4 j.ctr ++ leBytes 1 j.slv) j.inp2 j.inp j.tagLen))) ∧
    (j.op = 0x04 → ∀ p, ccmDec j.key.bytes (j.st ++ beBytes 4 j.ic ++ leBytes 1 j.slv) j.inp2 j.inp j.tagLen = some p →
      exec .cipherJobDone s = .next (s.passJob j p)) ∧
    (j.op = 0x04 → ccmDec j.key.bytes (j.st ++ beBytes 4 j.ic ++ leBytes 1 j.slv) j.inp2 j.inp j.tagLen = none →
      exec .cipherJobDone s = .next (s.failJob j stAuthFail 0#8)) ∧
    (j.op = 0x05 → exec .cipherJobDone s = .next (s.passJob j (cmac j.key.bytes j.inp j.tagLen))) ∧
    (j.op = 0x06 → exec .cipherJobDone s =
      .next (if cmac j.key.bytes j.inp j.tagLen = j.inp2 then s.passJob j [] else s.failJob j stAuthFail 0#8)) ∧
    (j.op = 0x07 → exec .cipherJobDone s = .next (s.passJob j (sha256 j.inp))) ∧
    (j.op = 0x08 → ∃ (sig : List Byte) (u : State), Frame [.free] s u ∧ exec .cipherJobDone s = .next (u.passJob j sig)) ∧
    (j.op = 0x09 → (verifyJob j = mbxOk → exec .cipherJobDone s = .next (s.passJob j [])) ∧
      (∀ c, verifyJob j = c → c ≠ mbxOk → exec .cipherJobDone s = .next (s.failJob j c.1 c.2))) ∧
    (j.op = 0x0A → ecValid (beNat (j.inp2.take 32)) (beNat (j.inp2.drop 32)) = false →
      exec .cipherJobDone s = .next (s.failJob j stBad dPoint)) ∧
    (j.op = 0x0A → ∀ z y, ecValid (beNat (j.inp2.take 32)) (beNat (j.inp2.drop 32)) = true →
      ecMul (beNat j.key.bytes) (some (beNat (j.inp2.take 32), beNat (j.inp2.drop 32))) = some (z, y) →
      ∃ (c : Nat) (u : State), Frame [.free] s u ∧ exec .cipherJobDone s = .next ((u.loadSlot j.slot2 4 0x20 c (beBytes 32 z)).passJob j [])) ∧
    (j.op = 0x0B → ∃ (c : Nat) (u : State), Frame [.free] s u ∧ exec .cipherJobDone s =
      .next ((u.loadSlot j.slot2 (if j.k256 = true then 2 else 1) j.usage c (kdf j.key.bytes j.inp (if j.k256 = true then 32 else 16))).passJob j [])) ∧
    (j.op = 0x0C → ∃ (l : List Byte) (u : State), l.length = j.count ∧ Frame [.free] s u ∧ exec .cipherJobDone s = .next (u.passJob j l))) ∧
  (∀ (s u : State) (j : CipherJob) (l : List Byte), u = { s with wd := { s.wd with jobs := s.wd.jobs.filter (fun x => x.tag ≠ j.tag) } } →
    (j.outKind = 2 → s.passJob j l = (u.setSpan j.outAddr l).complete j.tag stOk l.length (leBytes 4 j.ctr ++ leBytes 4 j.ver.toNat)) ∧
    (j.outKind = 0 → s.passJob j l = u.complete j.tag stOk 0 (leBytes 4 j.ctr ++ leBytes 4 j.ver.toNat)) ∧
    (∀ r, j.outKind = 1 → r = u.putPacket (.engine 4) j.outQ l → r.1 = 1 →
      s.passJob j l = (r.2.1.tellPool r.2.2).complete j.tag stOk l.length (leBytes 4 j.ctr ++ leBytes 4 j.ver.toNat)) ∧
    (∀ st dt, j.outKind = 2 → s.failJob j st dt = (u.setSpan j.outAddr (List.replicate j.outQ 0#8)).complete j.tag st (dt.toNat * 65536)
      (leBytes 4 (if j.entered = true then j.ctr else 0) ++ leBytes 4 (if j.entered = true then j.ver.toNat else 0))))

/-- Power-on, RST_N, the supplies, a brown-out and the clocks. VIRON_POWER_ON resets everything but the OTP (the queue of commands and the counter of open values stand apart, log 3 and 4) and latches the straps. RST_N_ASSERT puts the mode to Dormant with CAUSE 1 and PREV the mode left, and holds the device; the OTP, the key slots and the real-time counter stay, commands outstanding, queues and cores do not. RST_N_RELEASE latches the straps, ends the hold and lets the device boot once mains is present or with BOOT_ANY; without either it stays in Dormant. SUPPLY_IN_RANGE clears BOD and lets a device that powers up enter Assay. BROWNOUT in a mode above Sentinel drops to Dormant, loses the outstanding transactions and shows the supply. X32_PROVEN sets X32_OK; X32_FAIL before that sets X32_FAIL and its event. PLL_LOCK shows XREF and the PLL on and the ring oscillator off. CLOCK_IDLE_STOP with nothing that holds the PLL and nothing that asks for a clock shows the PLL off and the ring oscillator on, and XREF off if no core's timer counts; with either it leaves the state as it is. It says of these commands that they complete, under conditions on the state and the operands alone: VIRON_POWER_ON, RST_N_ASSERT, RST_N_RELEASE, SUPPLY_IN_RANGE, BROWNOUT, X32_PROVEN, X32_FAIL, PLL_LOCK, CLOCK_IDLE_STOP. (15_power_modes.md, 18_register_map.md) -/
def Obligations.ResetsSuppliesAndClocks : Prop :=
  (∀ (role test : Bool) (s : State), ∃ t, exec (.vironPowerOn role test) s = .next t ∧ t.wd.otp = s.wd.otp ∧ t.pending = s.pending ∧
    t.freeCtr = s.freeCtr ∧ t.flag SYS_STRAP.ALLOY_ROLE = role ∧ t.flag SYS_STRAP.TEST_EN = test ∧ RegsBut [SYS_STRAP] State.reset t ∧
    Frame [.regs, .wd, .pending, .free] State.reset t ∧ t.wd = { State.reset.wd with otp := s.wd.otp }) ∧
  (∀ (s : State), s.iron.viron = true → ∃ t, exec .rstNAssert s = .next t ∧ t.mode = 0 ∧ t.get SYS_MODE.PREV = s.mode ∧ t.get SYS_MODE.CAUSE = 1 ∧
    t.iron.held = true ∧ t.iron.rtc = s.iron.rtc ∧ t.wd.otp = s.wd.otp ∧ t.wd.slots = s.wd.slots ∧ t.presence = false ∧
    t.reg PWR_MCYC = s.reg PWR_MCYC ∧ t.get LK_EPOCH.EPOCH = s.get LK_EPOCH.EPOCH ∧ t.get CT_OUT.LEVEL = s.get CT_OUT.LEVEL ∧
    t.hp = {} ∧ t.pool = {} ∧ t.cores = [] ∧ t.wd.jobs = [] ∧
    (∀ a, t.byte a = if s.bitOf PWR_RETAIN.BANKS (bits (a - sramBase) 23 20) = true then s.byte a else 0)) ∧
  (∀ (role test : Bool) (s : State) u, s.iron.viron = true → s.iron.held = true →
    u = (State.latchStraps { s with iron := { s.iron with held := false } } role test) →
    exec (.rstNRelease role test) s = .next u.tryBoot ∧
    (u.mode = 0 → u.iron.asleep = false → (u.flag PWR_STAT.MAINS = true ∨ u.flag PWR_CFG.BOOT_ANY = true) → u.tryBoot = u.powerUp 2) ∧
    (u.flag PWR_STAT.MAINS = false → u.flag PWR_CFG.BOOT_ANY = false → u.tryBoot = u)) ∧
  (∀ (c : Nat) (s : State), s.iron.boot = some c → s.iron.held = false → exec .supplyInRange s = .next ((s.put PWR_STAT.BOD 0).enterAssay c)) ∧
  (∀ (s : State), (s.iron.boot = none ∨ s.iron.held = true) → exec .supplyInRange s = .next (s.put PWR_STAT.BOD 0)) ∧
  (∀ (x : SupplyN) (s : State), s.awake = true → ∃ t, exec (.brownout x) s = .next t ∧ t.mode = 0 ∧ t.hp.outst = [] ∧ t.link.sends = [] ∧
    t.bitOf PWR_STAT.BOD x.val = true ∧ t.flag PWR_EVT.BROWNOUT = true ∧ t.iron.asleep = true) ∧
  (∀ (s : State), s.iron.viron = true → exec .x32Proven s = .next (s.putFlag CLK_STAT.X32_OK true)) ∧
  (∀ (s : State), s.iron.viron = true → s.flag CLK_STAT.X32_OK = false →
    exec .x32Fail s = .next ((s.putFlag CLK_STAT.X32_FAIL true).ironEvt PWR_EVT.X32_FAIL)) ∧
  (∀ (s : State), s.flag CLK_STAT.X32_OK = true → exec .x32Fail s = .next s) ∧
  (∀ (s : State), s.awake = true → ∃ t, exec .pllLock s = .next t ∧ t.flag CLK_STAT.XREF_ON = true ∧ t.flag CLK_STAT.PLL_LOCK = true ∧
    t.flag CLK_STAT.RING = false ∧ RegsBut [CLK_STAT] s t ∧ Frame [.regs] s t) ∧
  (∀ (s : State), s.awake = true → s.pllHeld = false → s.asksClock = false → ∃ t, exec .clockIdleStop s = .next t ∧ t.flag CLK_STAT.PLL_LOCK = false ∧
    t.flag CLK_STAT.RING = true ∧ ((∀ k : Core, s.get (SEQ_TIMER.COUNT k.val) = 0) → t.flag CLK_STAT.XREF_ON = false) ∧
    RegsBut [CLK_STAT] s t ∧ Frame [.regs] s t) ∧
  (∀ (s : State), s.pllHeld = true ∨ s.asksClock = true → exec .clockIdleStop s = .next s)

/-- Requests, mains, outage, temperature, the alarm and the health tests. MODE_REQUEST in Outage in the iron-clock cycle in which the loss of mains was declared is refused NOT_PERMITTED. Otherwise one for the mode in force does nothing; for a mode without a row from the present one, or Full-Line while hot, it is refused NOT_PERMITTED; a request for sleep, for Assay from Maintenance and for another row is carried out. FULL_SELECT writes FULL, and in modes 7 and 8 applies the fabric rate. A change of mode sets MODE, PREV and CAUSE and, but for CAUSE 0, 1 and 14, places a MODE event. MAINS_SENSE_EDGE measures the half-period; one that rises adds 1 to the mains cycle counter and carries the monitor's run on. MAINS_LOSS at cycle t, with mains present and H + LOSS_MARGIN passed since the last edge, from modes 4, 5, 7 and 8 ends the line's transactions MAINS_LOST and enters Outage. With no mains, or earlier, it leaves the state as it is. OUTAGE_TIMEOUT in Outage, OUT_HOLD passed, sleeps as OUT_SLEEP says; in another mode, or earlier, it does nothing. TEMP_MEASURE shows the temperature, and at LIMIT leaves Full-Line with THERMAL. RTC_ALARM of an armed alarm whose SECONDS the counter has reached disarms it with ALARM and may wake the device. POWER_UP_SELFTEST_DONE in Assay shows READY and starts the load that is due. HEALTH_TEST_FAIL shows QCAUSE, stops the jobs, ends the load and the line and radio transactions NOT_PERMITTED, and goes to Quarantine. It says of these commands that they complete, under conditions on the state and the operands alone: POWER_UP_SELFTEST_DONE, HEALTH_TEST_FAIL, MODE_REQUEST, FULL_SELECT, MAINS_SENSE_EDGE, MAINS_LOSS, OUTAGE_TIMEOUT, TEMP_MEASURE, RTC_ALARM. (15_power_modes.md, 14_warden.md, 06_metering.md) -/
def Obligations.ModesChangeAsTheTableSays : Prop :=
  (∀ who (v : Word) (s : State) u, Writable s who SYS_CTL → u = s.merge SYS_CTL 0x40000000 v → s.mode ≠ 7 → s.mode ≠ 8 →
    exec (.modeRequest who v) s = .next (u.requestMode who (bits v.toNat 3 0)) ∧ exec (.fullSelect who v) s = .next u) ∧
  (∀ who (v : Word) (s : State) u, Writable s who SYS_CTL → u = s.merge SYS_CTL 0x40000000 v → s.mode = 7 ∨ s.mode = 8 →
    exec (.modeRequest who v) s = .next (u.applyRate.requestMode who (bits v.toNat 3 0)) ∧ exec (.fullSelect who v) s = .next u.applyRate) ∧
  (∀ (s : State) (who : Accessor) (t : Nat), s.mode = 6 → s.iron.lossAt = some s.iron.rtc →
    s.requestMode who t = s.refuse who SYS_CTL stNotPermitted) ∧
  (∀ (s : State) (who : Accessor) (t : Nat), t < 16 → (s.mode = 6 → s.iron.lossAt ≠ some s.iron.rtc) →
    (t = s.mode → s.requestMode who t = s) ∧
    (t ≠ s.mode → (s.mode, t) ∉ [(4, 5), (4, 0), (4, 1), (5, 4), (5, 0), (5, 1), (6, 0), (6, 1), (9, 2)] →
      s.requestMode who t = s.refuse who SYS_CTL stNotPermitted) ∧
    (s.mode = 4 → t = 5 → s.hot = true → s.requestMode who t = s.refuse who SYS_CTL stNotPermitted) ∧
    (s.mode = 4 → t = 5 → s.hot = false → s.requestMode who t = s.enterMode 5 6) ∧
    (s.mode = 5 → t = 4 → s.requestMode who t = s.enterMode 4 6) ∧
    (4 ≤ s.mode → s.mode ≤ 6 → t ≤ 1 → s.requestMode who t = s.sleep t 6) ∧
    (s.mode = 9 → t = 2 → s.requestMode who t = s.backToAssay 6 (0, 2))) ∧
  (∀ (s : State) (m c : Nat), m < 16 → c < 32 → ∃ t : State, t.mode = m ∧ t.get SYS_MODE.PREV = s.mode ∧ t.get SYS_MODE.CAUSE = c ∧
    RegsBut [SYS_MODE] s t ∧ Frame [.regs] s t ∧
    s.setMode m c = (if c = 0 ∨ c = 1 ∨ c = 14 then t else t.event 6 0 0 (m + s.mode * 256 + c * 65536) [])) ∧
  -- mains
  (∀ (t : Nat) (s : State), s.iron.viron = true →
    exec (.mainsSenseEdge false t) s = .next (s.halfPeriod t) ∧
    exec (.mainsSenseEdge true t) s = .next (((((s.lateEdge (t * 32000)).lateFeeders (t * 32000)).stepCycle).halfPeriod t).riseRun t)) ∧
  (∀ (s : State), s.seqMode = false → s.stepCycle = (s.setReg PWR_MCYC (s.reg PWR_MCYC + 1)).balanceStep) ∧
  (∀ (c : Nat) (s : State), s.lossDue c = true ↔
    ∀ e, s.iron.lastEdge = some e → e + s.get PWR_STAT.HALF + s.get PWR_MAINS.LOSS_MARGIN ≤ c) ∧
  (∀ (c : Nat) (s : State), s.flag PWR_STAT.MAINS = false ∨ s.lossDue c = false → exec (.mainsLoss c) s = .next s) ∧
  (∀ (c : Nat) (s u v : State), s.flag PWR_STAT.MAINS = true → s.lossDue c = true → s.mode ∈ [4, 5, 7, 8] → u = s.putFlag PWR_STAT.MAINS false →
    v = State.endLine (State.setEvt { u with iron := { u.iron with lost := true, run := 0, halves := [], lastEdge := none } }
      PWR_EVT.MAINS_LOST) stMainsLost →
    exec (.mainsLoss c) s = .next (State.lastGasp (State.cutRadio (State.enterMode
      { v with fab := { v.fab with outNow := true }, iron := { v.iron with lossAt := some v.iron.rtc } } 6 8)))) ∧
  (∀ (s : State), s.outDue = true ↔ max 1 (s.get PWR_CFG.OUT_HOLD) * 32768 ≤ (s.iron.rtc + 2 ^ 48 - s.iron.outSince) % 2 ^ 48) ∧
  (∀ (s : State), s.mode = 6 → s.outDue = true → (s.get PWR_CFG.OUT_SLEEP = 1 → exec .outageTimeout s = .next (s.sleep 1 10)) ∧
    (s.get PWR_CFG.OUT_SLEEP = 2 → exec .outageTimeout s = .next (s.sleep 0 10))) ∧
  (∀ (s : State), s.mode ≠ 6 ∨ s.outDue = false → exec .outageTimeout s = .next s) ∧
  -- temperature, alarm
  (∀ (x : Int) (s : State) u, s.awake = true → -128 ≤ x → x ≤ 127 → u = s.putInt PWR_TEMP.TEMP x →
    u.getInt PWR_TEMP.TEMP = x ∧ (u.hot = true ↔ (s.get PWR_TEMP.LIMIT : Int) ≤ x) ∧
    (u.hot = false → exec (.tempMeasure x) s = .next u) ∧
    (u.hot = true → s.mode = 5 → exec (.tempMeasure x) s = .next (((u.putFlag SYS_CTL.FULL false).enterMode 4 7).setEvt PWR_EVT.THERMAL)) ∧
    (u.hot = true → s.mode ∉ [5, 7, 8] → exec (.tempMeasure x) s = .next u)) ∧
  (∀ (s : State), s.alarmNow = true ↔ s.iron.alarm = true ∧ bits s.iron.rtc 46 15 = (s.reg PWR_ALARM).toNat) ∧
  (∀ (s : State), s.alarmNow = true → exec .rtcAlarm s =
    .next ((State.ironEvt { s with iron := { s.iron with alarm := false } } PWR_EVT.ALARM).wake PWR_WAKE.ALARM)) ∧
  (∀ (s : State), s.alarmNow = false → exec .rtcAlarm s = .next s) ∧
  -- the health tests
  (∀ (s : State) u, s.mode = 2 → s.get WD_STAT.STATE = 0 → u = (s.put WD_STAT.STATE 1).setEvt WD_EVT.SELFTEST_DONE →
    (s.fab.due = none → exec .powerUpSelftestDone s = .next u) ∧
    (∀ src n, s.fab.due = some (src, n) → exec .powerUpSelftestDone s = .next (u.beginLoad src false n))) ∧
  (∀ (c : QCause) (s : State), (7 ≤ c.val ∧ c.val ≤ 10 ∧ (s.running = true ∨ s.mode = 2 ∨ s.mode = 3)) ∨
      ((c.val ≤ 6 ∨ 11 ≤ c.val) ∧ 1 ≤ c.val ∧ c.val ≤ 12 ∧ s.mode = 2 ∧ s.get WD_STAT.STATE = 0) →
    exec (.healthTestFail c) s = .next (s.quarantine c.val)) ∧
  (∀ (c : Nat) (s : State) u, u = (((s.put WD_STAT.QCAUSE c).put WD_STAT.STATE 2).setEvt WD_EVT.QUARANTINE).stopJobs →
    (u.running = true ∨ u.mode = 2 ∨ u.mode = 3) →
    s.quarantine c = ((u.stopLoad.endLine stNotPermitted).endRadio stNotPermitted 0).enterMode 10 13)

/-- Heartbeats, misses, CRC failures and sync marks of the alloy link. For a unit whose link runs. HEARTBEAT_TX posts a heartbeat. HEARTBEAT_RX clears MISSES; a beat of a unit that cannot pair shows role conflict; the sixteenth good beat in a row that says the other unit has heard sixteen brings a link that is not UP to UP, other beats train it; a follower of a link that is UP takes the beat's epoch. Coming up, a follower takes the lead's cycle counter and epoch. HEARTBEAT_MISS counts; the eighth in a row loses the link with cause 1. LINK_FRAME_CRC_FAIL counts CRC_ERR and loses the link with cause 2 at CRC_BURST. A loss of a link that is UP shows LINK 1, its cause and LINK_LOST, and takes an Alloyed follower to Island. SYNC_MARK_SEND on a lead that does not heal, SYNC_CYC cycles after its last mark, posts a mark of its cycle and holds it as the last; earlier it does nothing. SYNC_MARK_CONFIRM pins the JOINED entries whose acting unit is the follower: on the follower, which confirms the mark, and on the lead if it is its last mark. It says of these commands that they complete, under conditions on the state and the operands alone: HEARTBEAT_TX, HEARTBEAT_RX, HEARTBEAT_MISS, LINK_FRAME_CRC_FAIL, SYNC_MARK_SEND, SYNC_MARK_CONFIRM. (16_alloy.md) -/
def Obligations.AlloyLinkComesUpAndIsLost : Prop :=
  (∀ (s : State), s.alloyOn = true → exec .heartbeatTx s = .next (s.post .heartbeat)) ∧
  (∀ (b : Beat) (s : State) u, s.alloyOn = true →
    u = State.put { s with al := { s.al with beats := min 16 (s.al.beats + 1) } } AL_STAT.MISSES 0 →
    (s.pairs b = false → exec (.heartbeatRx b) s = .next ((u.put AL_STAT.LINK 3).setEvt AL_EVT.ROLE_CONFLICT)) ∧
    (s.pairs b = true → s.linkUp = true → s.role = 2 → exec (.heartbeatRx b) s = .next (u.put LK_EPOCH.EPOCH b.epoch.toNat)) ∧
    (s.pairs b = true → s.linkUp = true → s.role ≠ 2 → exec (.heartbeatRx b) s = .next u) ∧
    (s.pairs b = true → s.linkUp = false → (s.al.beats < 15 ∨ b.heard = false) → exec (.heartbeatRx b) s = .next (u.put AL_STAT.LINK 1)) ∧
    (s.pairs b = true → s.linkUp = false → 15 ≤ s.al.beats → b.heard = true → exec (.heartbeatRx b) s = .next (u.becomeUp b))) ∧
  (∀ (b : Beat) (s : State), s.pairs b = true ↔ ((b.lead ≠ s.strapLead) ∧ b.promoted = false ∧ s.role ≠ 3 ∧ b.entries = s.entries ∧
    ∀ x ∈ ((List.range 4).map (fun p => if s.flag (LP_CFG.ENABLE p) = true then some (s.get (LP_BCN.PERIOD p)) else none)).zip b.periods,
      ∀ m n, x = (some m, some n) → m = n)) ∧
  (∀ (b : Beat) (s : State), s.role = 2 → (s.takeTiming b).reg PWR_MCYC = b.mcyc ∧ (s.takeTiming b).get LK_EPOCH.EPOCH = b.epoch.toNat) ∧
  (∀ (s : State) u, s.alloyOn = true → u = State.put { s with al := { s.al with beats := 0 } } AL_STAT.MISSES (min 8 (s.get AL_STAT.MISSES + 1)) →
    (s.get AL_STAT.MISSES < 7 → exec .heartbeatMiss s = .next u) ∧
    (7 ≤ s.get AL_STAT.MISSES → exec .heartbeatMiss s = .next (u.loseLink 1))) ∧
  (∀ (n : Nat) (s : State), s.alloyOn = true →
    (n < max 1 (s.get AL_CFG.CRC_BURST) → exec (.linkFrameCrcFail n) s = .next (s.count AL_CNT.CRC_ERR 1)) ∧
    (max 1 (s.get AL_CFG.CRC_BURST) ≤ n → exec (.linkFrameCrcFail n) s = .next ((s.count AL_CNT.CRC_ERR 1).loseLink 2))) ∧
  (∀ (c : Nat) (s : State), s.linkUp = false → s.loseLink c = s) ∧
  (∀ (c : Nat) (s u : State), s.linkUp = true → u = ((s.put AL_STAT.LINK 1).put AL_STAT.LOST_CAUSE c).setEvt AL_EVT.LINK_LOST →
    (s.follower = false → s.loseLink c = { u with al := { u.al with beats := 0, healing := false, replica := [] } }) ∧
    (s.follower = true → s.loseLink c =
      ((State.setMode { u with al := { u.al with beats := 0, healing := false, replica := [] } } 8 11).applyRate).followPorts)) ∧
  (∀ s : State, s.markDue = true ↔ ∀ c, s.al.lastMark = some c → max 1 (s.get AL_CFG.SYNC_CYC) ≤ (s.reg PWR_MCYC - c).toNat) ∧
  (∀ s : State, s.leads = true → s.linkUp = true → s.al.healing = false →
    (s.markDue = true → exec .syncMarkSend s =
      .next (State.post { s with al := { s.al with lastMark := some (s.reg PWR_MCYC) } } (.mark (s.reg PWR_MCYC)))) ∧
    (s.markDue = false → exec .syncMarkSend s = .next s)) ∧
  (∀ (c : Word) (s : State), s.linkUp = true → s.al.healing = false →
    (s.follower = true → exec (.syncMarkConfirm c) s = .next ((s.pin c).post (.mark c))) ∧
    (s.follower = false → s.leads = true → s.al.lastMark = some c → exec (.syncMarkConfirm c) s = .next (s.pin c)) ∧
    (s.follower = false → s.al.lastMark ≠ some c → exec (.syncMarkConfirm c) s = .next s)) ∧
  (∀ (c : Word) (s : State), ∃ t, s.pin c = t ∧ t.reg AL_SYNC = c ∧ t.al = { s.al with pinned := s.homeSet } ∧
    RegsBut [AL_SYNC, AL_STAT] s t ∧ Frame [.regs, .al] s t)

/-- Shared registry, forwarded frames, hand-offs, BUFQ replay and PROMOTE. REPLICA_WRITE_RX on a pair whose link is UP writes the part of the entry, or keeps it for the reconciliation while the pair heals. FORWARDED_FRAME_RX gives the frame to the link layer as the unit's own. HANDOFF_RX at an Alloyed follower starts the send on the entry's home lane or the copies of a BROADCAST; a check that fails answers the lead with a record. BUFQ_RECORD_REPLAY at the lead takes a record: a completion only if its tag is outstanding under the same hand-off number that is not fenced; an event to the own ring; the end of the replay heals the pair. At an Island follower it removes the record from BUFQ, and the end takes it to Alloyed. PROMOTE in Island, with presence, makes the follower the lead with its rings enabled; PROMOTE written 0 changes nothing. It says of these commands that they complete, under conditions on the state and the operands alone: REPLICA_WRITE_RX, FORWARDED_FRAME_RX, HANDOFF_RX, BUFQ_RECORD_REPLAY, PROMOTE. (16_alloy.md, 05_drevline.md) -/
def Obligations.PairSharesWorkAndHeals : Prop :=
  (∀ (i : Nat) (part : EntPart) (v : Word) (s : State), s.paired = true → s.linkUp = true → i < s.entries →
    (s.al.healing = false → exec (.replicaWriteRx i part v) s = .next ((s.readSpan (s.entryAddr i + 4 * part.val) 4).setPart (s.entryAddr i + 4 * part.val) (leBytes 4 v.toNat))) ∧
    (s.al.healing = true → exec (.replicaWriteRx i part v) s = .next { s with al := { s.al with replica := s.al.replica ++ [(i, part.val, v)] } })) ∧
  (∀ (fr : RxFrame) (s : State), s.paired = true → s.linkUp = true → ∃ x : LinkRx,
    exec (.forwardedFrameRx fr) s = .next { s with link := { s.link with rx := s.link.rx ++ [x] } } ∧
      x.lane = fr.lane ∧ x.bytes = fr.bytes ∧ x.full = fr.full ∧ x.endCyc = fr.endCyc ∧ x.quality = fr.quality) ∧
  -- HANDOFF_RX
  (∀ (h : BitVec 16) (tag : TagN) (d body : List Byte) (s : State) i, s.follower = true → s.linkUp = true → u8 d 0 = 1 → i = u16 d 8 - 1 →
    (s.ownLane (s.entLane i) = none → exec (.handoffRx h tag d body) s =
      .next (s.tell [.handed h.toNat (cplRec tag.val stNotPermitted (u8 d 0) 0 [])])) ∧
    (∀ n, s.ownLane (s.entLane i) = some n → s.sendForm d = false → exec (.handoffRx h tag d body) s =
      .next (s.tell [.handed h.toNat (cplRec tag.val stBad (u8 d 0) 0 [])])) ∧
    (∀ n, s.ownLane (s.entLane i) = some n → s.sendForm d = true → s.entState i = 2 → s.flag (LN_TXCFG.TX_EN n) = true →
      exec (.handoffRx h tag d body) s = .next (s.runSend (1024 * (h.toNat + 1) + tag.val) tag.val (some h.toNat) d i n
        body))) ∧
  (∀ (h : BitVec 16) (tag : TagN) (d body : List Byte) (s : State) l, s.follower = true → s.linkUp = true → u8 d 0 = 2 →
    l = ((List.range 4).filter (fun p => bit (u8 d 8) (4 + p))).map (fun p => p * 64 + u8 d 12 % 64) →
    exec (.handoffRx h tag d body) s = .next (s.runBcast (1024 * (h.toNat + 1) + tag.val) tag.val (some h.toNat) d (u8 d 13) l []
      (bcastMac (u8 d 13) (bit (u8 d 10) 1) body))) ∧
  -- BUFQ_RECORD_REPLAY
  (∀ (r : List Byte) (live : List Nat) (s : State) c, s.linkUp = true → s.leads = true → r ≠ [] → u8 r 0 = 0 → c = (r.drop 8).take 32 →
    (s.al.handoffs.contains (u16 c 0 % 1024, u16 r 2) = true → u16 r 2 ∉ s.al.fenced →
      exec (.bufqRecordReplay r live) s = .next (s.endHandoff (u16 c 0 % 1024) (u8 c 2) (u32 c 4) (c.drop 8))) ∧
    (s.al.handoffs.contains (u16 c 0 % 1024, u16 r 2) = false ∨ u16 r 2 ∈ s.al.fenced → exec (.bufqRecordReplay r live) s = .next s)) ∧
  (∀ (r : List Byte) (live : List Nat) (s : State) c, s.linkUp = true → s.leads = true → r ≠ [] → u8 r 0 ≠ 0 → c = (r.drop 8).take 32 → u8 c 0 ≠ 1 →
    exec (.bufqRecordReplay r live) s = .next (s.ringEvent c)) ∧
  (∀ (r : List Byte) (live : List Nat) (s : State) c p, s.linkUp = true → s.leads = true → r ≠ [] → u8 r 0 ≠ 0 → c = (r.drop 8).take 32 → u8 c 0 = 1 →
    s.al.healing = false → p = s.putPacket (.engine 0) (u32 c 4 % 1024) (r.drop 40) →
    exec (.bufqRecordReplay r live) s = .next (if p.1 = 1 then (p.2.1.tellPool p.2.2).ringEvent c else p.2.1.tellPool p.2.2)) ∧
  (∀ (live : List Nat) (s : State), s.linkUp = true → s.leads = true → s.al.healing = true → exec (.bufqRecordReplay [] live) s = .next (s.healLead live)) ∧
  (∀ (r : List Byte) (live : List Nat) (s : State), s.linkUp = true → s.island = true → s.al.healing = true →
    (r ≠ [] → r = s.bufHead → exec (.bufqRecordReplay r live) s = .next s.bufPop) ∧
    (r = [] → exec (.bufqRecordReplay r live) s = .next (s.healFollower live))) ∧
  (∀ (part : Nat) (own far : Word) (acted lead : Bool),
    (part < 8 → part ≠ 6 → reconciled part own far acted lead = (if acted = true then far else own)) ∧
    (8 < part → reconciled part own far acted lead = (if lead = true then far else own))) ∧
  -- PROMOTE
  (∀ (v : Word) (s : State), s.island = true → s.presence = true → bit v.toNat 31 = true → exec (.promote v) s = .next s.promoted) ∧
  (∀ (v : Word) (s : State), s.island = true → bit v.toNat 31 = false → s.flag AL_CTL.PROMOTE = false → exec (.promote v) s = .next s)

/-- COUNTER_OVERFLOW, PM_SNAPSHOT and the writes of a counter. COUNTER_OVERFLOW of a counter whose selection counts, while FREEZE = 0, adds the occurrences of one cycle, for a level at most one and only above THR, modulo 2^48; a count that passes 2^48 - 1 sets its OVF bit. With FREEZE = 1 or a selection that does not count nothing changes. PM_SNAPSHOT copies every count and the OVF bits into the shadow registers and changes no count. PM_CTR_LO_WRITE loads the count from its value and the pending high bits, PM_CTR_HI_WRITE sets those. It says of these commands that they complete, under conditions on the state and the operands alone: COUNTER_OVERFLOW, PM_SNAPSHOT, PM_CTR_LO_WRITE, PM_CTR_HI_WRITE. (17_counters.md) -/
def Obligations.CountersCountAndAreCopied : Prop :=
  (∀ (k : CtrN) (n : Nat) (s : State), s.flag PM_CTL.FREEZE = true ∨ s.pmValid k.val = false → exec (.counterOverflow k n) s = .next s) ∧
  (∀ (k : CtrN) (n d : Nat) (s : State), s.flag PM_CTL.FREEZE = false → s.pmValid k.val = true →
    d = (if s.pmLevelEvent k.val = true then (if s.pmHit k.val = true then min 1 n else 0) else n) →
    ∃ t, exec (.counterOverflow k n) s = .next t ∧ t.pmCount k.val = (s.pmCount k.val + d) % 2 ^ 48 ∧
      (∀ j, j ≠ k.val → t.pmCount j = s.pmCount j) ∧
      (2 ^ 48 ≤ s.pmCount k.val + d → t.mapBit PM_OVF_LO.OVF PM_OVF_HI.OVF k.val = true) ∧
      (s.pmCount k.val + d < 2 ^ 48 → t.regs = s.regs ∧ Frame [.pm] s t)) ∧
  (∀ who (v : Word) (s : State), Writable s who PM_SNAP → bit v.toNat 31 = true → ∃ t, exec (.pmSnapshot who v) s = .next t ∧
    (∀ k : CtrN, t.reg (PM_SHD_LO k.val) = BitVec.ofNat 32 (s.pmCount k.val) ∧
      t.reg (PM_SHD_HI k.val) = BitVec.ofNat 32 (s.pmCount k.val / 2 ^ 32)) ∧
    t.reg PM_SOVF_LO = s.reg PM_OVF_LO ∧ t.reg PM_SOVF_HI = s.reg PM_OVF_HI ∧ Frame [.regs] s t ∧
    (∀ a, (∀ k : CtrN, a ≠ PM_SHD_LO k.val ∧ a ≠ PM_SHD_HI k.val) → a ≠ PM_SOVF_LO → a ≠ PM_SOVF_HI → t.reg a = s.reg a)) ∧
  (∀ who (v : Word) (s : State), Writable s who PM_SNAP → bit v.toNat 31 = false → exec (.pmSnapshot who v) s = .next s) ∧
  (∀ who (k : CtrN) (v : Word) (s : State), Writable s who (PM_CTR_LO k.val) → ∃ t, exec (.pmCtrLoWrite who k v) s = .next t ∧
    t.pmCount k.val = mget natDef s.pm.hi k.val * 2 ^ 32 + v.toNat ∧ (∀ j, j ≠ k.val → t.pmCount j = s.pmCount j) ∧ Frame [.pm] s t) ∧
  (∀ who (k : CtrN) (v : Word) (s : State), Writable s who (PM_CTR_HI k.val) → ∃ t, exec (.pmCtrHiWrite who k v) s = .next t ∧
    mget natDef t.pm.hi k.val = bits v.toNat 15 0 ∧ (∀ j, t.pmCount j = s.pmCount j) ∧ Frame [.pm] s t)

/-- RF_CFG, the link contexts, the channel map, RADIO_SEND and the restore epoch. For a write that reaches the device. RADIO_ENABLE with ENABLE = 1 and a bandwidth above the spacing or fewer than three usable channels keeps ENABLE and sets CFG_REFUSED; else ENABLE takes the value and the radio follows. LINK_ARM of an idle context takes ROLE and NBR and arms it (of a leader, under a PROFILE other than 2); of an armed one with ENABLE = 1 it changes nothing; of an open link with ENABLE = 0 ends the link. MAP_SET_ARM of a leader with a map that R229 and R236 do not refuse takes the map and, on an open link, queues a MAP_SET eight events ahead; a thinner map sets CFG_REFUSED, and a write on a context that does not lead does nothing. MAP_SET_RESEND of a map not agreed whose FROM is at most one event ahead, or past, queues it again with a new FROM; else it changes nothing. RADIO_SEND of sound form to an open link queues an item, as a flood it queues a flood; where the radio is off, the link not open, or the airtime too long it completes NOT_PERMITTED, malformed BAD_DESCRIPTOR. EPOCH_RAISE steps the epoch, 0xFFFF to 1, draws each port's SALT (open values, log 3) and sets its event; what it sends where the radio is enabled or the link of a pair is UP is not stated here. It says of these commands that they complete, under conditions on the state and the operands alone: EPOCH_RAISE, RADIO_SEND_LINK, RADIO_SEND_FLOOD, RADIO_ENABLE, LINK_ARM, MAP_SET_ARM, MAP_SET_RESEND. (11_radio.md, 10_host_port.md, 04_mains_slots.md) -/
def Obligations.RadioIsConfiguredAndSends : Prop :=
  -- RADIO_ENABLE
  (∀ who (v : Word) (s : State) u, Writable s who RF_CFG → s.refusedFields who RF_CFG = [] → u = s.merge RF_CFG 0x7FFF7F7F v →
    (bit v.toNat 31 = true → u.rfBadCfg = true → exec (.radioEnable who v) s =
      .next (((u.putFlag RF_CFG.ENABLE (s.flag RF_CFG.ENABLE)).setEvt RF_EVT.CFG_REFUSED).followRadio s.radioOn)) ∧
    (bit v.toNat 31 = true → u.rfBadCfg = false → exec (.radioEnable who v) s = .next ((u.putFlag RF_CFG.ENABLE true).followRadio s.radioOn)) ∧
    (bit v.toNat 31 = false → exec (.radioEnable who v) s = .next ((u.putFlag RF_CFG.ENABLE false).followRadio s.radioOn))) ∧
  (∀ s : State, s.rfBadCfg = true ↔ (s.rfSpacing < (if s.flag RF_PHY.MOD = true then 2 * s.rfRate else 3 * s.rfRate / 2) ∨
    (s.rfUsed (2 ^ 64 - 1)).length < 3)) ∧
  -- LINK_ARM
  (∀ who (c : LinkC) (v : Word) (s : State) u w, Writable s who (RF_LCFG c.val) → s.flag (RF_LCFG.ENABLE c.val) = false → bit v.toNat 31 = true →
    u = s.merge (RF_LCFG c.val) 0x600000FF v → (u.rfRole c.val ≠ 0 ∨ s.get RF_CFG.PROFILE ≠ 2) → w = u.putFlag (RF_LCFG.ENABLE c.val) true →
    exec (.linkArm who c v) s = .next (((w.put (RF_LCFG.STATE c.val) (w.rfRest c.val)).modRlink c.val (fun x => { x with scan := 0 })).rfShow)) ∧
  (∀ (c : Nat) (s : State), s.rfRest c = (if s.flag (RF_LCFG.ENABLE c) = true ∧ s.radioOn = true then (if s.rfRole c = 0 then 1 else 2) else 0)) ∧
  (∀ who (c : LinkC) (v : Word) (s : State), Writable s who (RF_LCFG c.val) → s.flag (RF_LCFG.ENABLE c.val) = true → bit v.toNat 31 = true →
    exec (.linkArm who c v) s = .next s) ∧
  (∀ who (c : LinkC) (v : Word) (s : State), Writable s who (RF_LCFG c.val) → s.flag (RF_LCFG.ENABLE c.val) = true → bit v.toNat 31 = false →
    s.rfState c.val = 4 → exec (.linkArm who c v) s =
      .next ((((s.endLink c.val 0).putFlag (RF_LCFG.ENABLE c.val) false).put (RF_LCFG.STATE c.val) 0).rfShow)) ∧
  -- MAP_SET_ARM, MAP_SET_RESEND
  (∀ who (c : LinkC) (v : Word) (s : State) m, Writable s who (RF_LMAP_LO c.val) → s.rfRole c.val = 0 → m = s.rfMap c.val / 2 ^ 32 * 2 ^ 32 + v.toNat →
    (s.rfThinMap m = true → exec (.mapSetArm who c v) s = .next (s.setEvt RF_EVT.CFG_REFUSED)) ∧
    (s.rfThinMap m = false → s.rfLinked c.val = true → exec (.mapSetArm who c v) s = .next ((s.setReg (RF_LMAP_LO c.val) v).mapItem c.val m)) ∧
    (s.rfThinMap m = false → s.rfLinked c.val = false → exec (.mapSetArm who c v) s = .next (s.setReg (RF_LMAP_LO c.val) v))) ∧
  (∀ who (c : LinkC) (v : Word) (s : State), Writable s who (RF_LMAP_LO c.val) → s.rfRole c.val ≠ 0 → exec (.mapSetArm who c v) s = .next s) ∧
  (∀ (c : LinkC) (s : State) m, (s.rlink c.val).map = some m → s.rfLinked c.val = true → s.rfRole c.val = 0 → (s.rlink c.val).agreed = false →
    ((s.get (RF_LSTAT.EVENT c.val) + 65537 - m.1) % 65536 < 32768 → exec (.mapSetResend c) s = .next (s.mapItem c.val m.2.toNat)) ∧
    (32768 ≤ (s.get (RF_LSTAT.EVENT c.val) + 65537 - m.1) % 65536 → exec (.mapSetResend c) s = .next s)) ∧
  (∀ (c : LinkC) (s : State), (s.rlink c.val).map = none ∨ (s.rlink c.val).agreed = true → exec (.mapSetResend c) s = .next s) ∧
  (∀ (c m : Nat) (s : State), ∃ t, s.mapItem c m = t ∧ (t.rlink c).map = some ((s.get (RF_LSTAT.EVENT c) + 8) % 65536, BitVec.ofNat 64 m) ∧
    (t.rlink c).agreed = false ∧ (∃ x, (t.rlink c).items.head? = some x ∧ x.type = 7 ∧ x.ackreq = true ∧
      x.body = [1#8] ++ leBytes 2 ((s.get (RF_LSTAT.EVENT c) + 8) % 65536) ++ leBytes 8 (m &&& s.rfMask)) ∧
    (∀ j, j ≠ c → t.rlink j = s.rlink j) ∧ Frame [.radio] s t) ∧
  -- RADIO_SEND
  (∀ (s : State) u d b c, Taken d s u → u8 d 0 = 5 → u8 d 8 = 0 → radioForm d = true → c = u8 d 9 →
    u.drefBytes (drefAt d 12) = some b → b.length ≤ 224 →
    (u.flag RF_CFG.ENABLE = false ∨ u.rfLinked c = false ∨
      (∃ air, air = u.rfAir (b.length + (if b = [] then 18 else 31)) (bit (u8 d 10) 1) ∧ (u.rfTooLong c air = true ∨ u.rfLimit < air)) →
      exec .radioSendLink s = .next (u.complete (descTag d) stNotPermitted 0 [])) ∧
    (∀ n air, n = b.length + (if b = [] then 18 else 31) → air = u.rfAir n (bit (u8 d 10) 1) → u.flag RF_CFG.ENABLE = true →
      u.rfLinked c = true → u.rfTooLong c air = false → air ≤ u.rfLimit → ∃ x : RfItem, x.tag = some (descTag d) ∧ x.prio = u8 d 11 % 8 ∧
        x.ackreq = bit (u8 d 10) 0 ∧ x.coded = bit (u8 d 10) 1 ∧ x.type = 3 ∧ x.body = b ∧ x.attempts = 0 ∧ x.onAir = false ∧
        exec .radioSendLink s = .next ((u.drefTake (drefAt d 12)).modRlink c (fun y => { y with items := insertItem x y.items })))) ∧
  (∀ (s : State) u d, Taken d s u → u8 d 0 = 5 → radioForm d = false →
    exec (if u8 d 8 = 1 then .radioSendFlood else .radioSendLink) s = .next (u.complete (descTag d) stBad 0 [])) ∧
  (∀ (s : State) u d b air, Taken d s u → u8 d 0 = 5 → u8 d 8 = 1 → radioForm d = true →
    u.drefBytes (drefAt d 12) = some b → b.length + 37 ≤ 255 → air = u.rfAir (b.length + 37) (bit (u8 d 10) 1) →
    (u.flag RF_CFG.ENABLE = false ∨ u.rfLimit < air + u.rfReserve → exec .radioSendFlood s = .next (u.complete (descTag d) stNotPermitted 0 [])) ∧
    (u.flag RF_CFG.ENABLE = true → air + u.rfReserve ≤ u.rfLimit → exec .radioSendFlood s = .next (((u.drefTake (drefAt d 12)).originate
      (some (descTag d)) 0 (if u8 d 11 / 16 = 0 then max 1 (u.get RF_FLOOD.TTL) else u8 d 11 / 16) (bit (u8 d 10) 1) b).kickFloods))) ∧
  -- EPOCH_RAISE
  (∀ who (v : Word) (s : State), Writable s who LK_EPOCH → bit v.toNat 31 = true → exec (.epochRaise who v) s = .next s.raiseEpoch) ∧
  (∀ who (v : Word) (s : State), Writable s who LK_EPOCH → bit v.toNat 31 = false → exec (.epochRaise who v) s = .next s) ∧
  (∀ (s : State), s.flag RF_CFG.ENABLE = false → s.linkUp = false → ∃ t : State, s.raiseEpoch = t.setEvt LK_EVT.EPOCH_RAISED ∧
    t.get LK_EPOCH.EPOCH = (if s.get LK_EPOCH.EPOCH = 0xFFFF then 1 else s.get LK_EPOCH.EPOCH + 1) ∧ Frame [.regs, .free] s t ∧
    RegsBut [LK_EPOCH, LP_STORM 0, LP_STORM 1, LP_STORM 2, LP_STORM 3] s t)

/-- Link events, windows, supervision, scans, beacons, floods, frame ends, sync detection and the sniffer. LINK_EVENT of an open link steps its event and channel; one that loses the transceiver is skipped, which a follower counts as a miss; else a leader sends its first ready item or a poll, a follower opens its window. LINK_WINDOW_CLOSE ends the event as a miss, unless a frame whose sync word came in the window is being received; the third miss in a row ends the link BEACON_LOST, and SUPERVISION ends it SUPERVISION. LINK_EVENT_END ends the event and fails the item not acknowledged. SCAN_CHANNEL_TIMEOUT goes to the next of three channels, CONN_ACK_TIMEOUT counts a failed connection. RADIO_BEACON_TX sends a beacon, or skips it while the radio is busy or dwell defers it. FLOOD_FORWARD and LAST_GASP start a flood that is due. RF_TX_END ends the activity on the air. RF_SYNC_DETECT begins a reception if the word passes its thresholds on a receiver that is free and tuned to its channel. In Sentinel SNIFF_LISTEN turns the receiver on for LISTEN ticks; SNIFF_DETECT while it is on wakes the device and places the WAKE event (how it is placed is log entry 60's); FALSE_WAKE counts a detection that no sync word has followed. It says of these commands that they complete, under conditions on the state and the operands alone: RADIO_BEACON_TX, RF_SYNC_DETECT, FLOOD_FORWARD, LINK_EVENT, LINK_WINDOW_CLOSE, SUPERVISION, SCAN_CHANNEL_TIMEOUT, LAST_GASP, SNIFF_LISTEN, SNIFF_DETECT, FALSE_WAKE, RF_TX_END, LINK_EVENT_END, CONN_ACK_TIMEOUT. (11_radio.md, 15_power_modes.md) -/
def Obligations.RadioActivitiesFollowTheirEvents : Prop :=
  -- LINK_EVENT, LINK_WINDOW_CLOSE, LINK_EVENT_END, SUPERVISION
  (∀ (c : LinkC) (now : Nat) (s : State) u, s.radioOn = true → s.rfState c.val = 4 → u = s.rfStep c.val →
    (u.rfRole c.val = 0 → s.rfYields c.val = true ∨ u.rfFree 2 = false → exec (.linkEvent c now) s = .next u) ∧
    (u.rfRole c.val = 0 → s.rfYields c.val = false → u.rfFree 2 = true →
      exec (.linkEvent c now) s = .next (u.leaderEvent c.val (u.get (RF_LSTAT.CHAN c.val)) now)) ∧
    (u.rfRole c.val ≠ 0 → s.rfYields c.val = true ∨ u.rfFree 2 = false → exec (.linkEvent c now) s = .next (u.rfMiss c.val)) ∧
    (∀ v, u.rfRole c.val ≠ 0 → s.rfYields c.val = false → u.rfFree 2 = true → v = u.rfCut now → exec (.linkEvent c now) s =
      .next (State.rfShow { v with radio := { v.radio with rx := none, event := some c.val, listen := true } }))) ∧
  (∀ (c : LinkC) (now : Nat) (s : State), s.radioOn = false ∨ s.rfState c.val ≠ 4 → exec (.linkEvent c now) s = .next s) ∧
  (∀ (c ch now : Nat) (s : State), s.rfReady c = none → s.leaderEvent c ch now = s.sendPoll c ch now) ∧
  (∀ (c ch now : Nat) (s v : State) (x y : RfItem), s.rfReady c = some x →
    s.rfDwell ch now (s.rfAir (x.body.length + (if x.body.isEmpty = true then 18 else 31)) x.coded) false = true →
    s.sealItem c x = (stOk, y, v) → s.leaderEvent c ch now = (v.modRlink c (fun z => { z with items := z.items.map (fun i =>
      if i = x then { y with attempts := y.attempts + 1, onAir := true } else i) })).rfSend (.item c) y.frame y.coded ch now) ∧
  (∀ (c : LinkC) (s : State), s.rfState c.val = 4 → s.rfRole c.val ≠ 0 → s.radioOn = true → s.radio.event = some c.val → s.radio.listen = true →
    ((∀ x, s.radio.rx = some x → x.inWin = false) → exec (.linkWindowClose c) s = .next (s.rfEndEvent.rfMiss c.val)) ∧
    (∀ x, s.radio.rx = some x → x.inWin = true → exec (.linkWindowClose c) s =
      .next { s with radio := { s.radio with rx := some { x with closed := true }, listen := false } })) ∧
  (∀ (c : LinkC) (s : State), s.rfState c.val = 4 → exec (.linkEventEnd c) s = .next ((s.rfEndOf c.val).failItem c.val false) ∧
    (s.radioOn = true → exec (.supervision c) s = .next (s.endLink c.val 4))) ∧
  (∀ (c : Nat) (s : State), s.rfEndOf c = (if s.radio.event = some c then
    State.rfShow { s with radio := { s.radio with event := none, listen := false } } else s)) ∧
  (∀ (c : Nat) (s : State), c < 16 → (s.get (RF_LSTAT.MISSES c) < 2 → s.rfMiss c = s.put (RF_LSTAT.MISSES c) (s.get (RF_LSTAT.MISSES c) + 1)) ∧
    (2 ≤ s.get (RF_LSTAT.MISSES c) → s.rfMiss c = (s.put (RF_LSTAT.MISSES c) (s.get (RF_LSTAT.MISSES c) + 1)).endLink c 3)) ∧
  (∀ (c : LinkC) (x : RfItem) (s : State), s.itemOn c.val = some x → (s.get RF_CFG.RETRY_MAX < x.attempts →
    s.failItem c.val false = (s.dropOn c.val).endItem x stNoAck 0 []) ∧
    (x.attempts ≤ s.get RF_CFG.RETRY_MAX → ∃ (k : Nat) (u : State), k < min (2 ^ x.attempts) 16 ∧ Frame [.free] s u ∧
      s.failItem c.val false = u.modItem c.val (fun y => { y with onAir := false, skip := k + 1 }))) ∧
  -- SCAN_CHANNEL_TIMEOUT, CONN_ACK_TIMEOUT
  (∀ (c : LinkC) (s : State), s.radioOn = true → (s.rfState c.val = 2 →
      exec (.scanChannelTimeout c) s = .next (s.modRlink c.val (fun x => { x with scan := (x.scan + 1) % 3 }))) ∧
    (s.rfState c.val = 3 → (s.rlink c.val).fails < 2 →
      exec (.connAckTimeout c) s = .next (s.modRlink c.val (fun x => { x with fails := (s.rlink c.val).fails + 1 }))) ∧
    (s.rfState c.val = 3 → 2 ≤ (s.rlink c.val).fails → exec (.connAckTimeout c) s =
      .next (((s.modRlink c.val (fun x => { x with fails := 0, scan := 0 })).put (RF_LCFG.STATE c.val) 2).rfShow))) ∧
  -- RADIO_BEACON_TX
  (∀ (s : State), s.radioOn = true → s.flag RF_DISC.BCN_EN = true → s.rfFree 3 = false →
    exec .radioBeaconTx s = .next { s with radio := { s.radio with bseq := (s.radio.bseq + 1) % 65536 } }) ∧
  (∀ (s : State), s.radioOn = false ∨ s.flag RF_DISC.BCN_EN = false → exec .radioBeaconTx s = .next s) ∧
  (∀ (s : State) ch, s.radioOn = true → s.flag RF_DISC.BCN_EN = true → s.rfFree 3 = true → ch = nth 0 s.discChans (s.radio.bseq % 3) →
    ∃ (coded : Bool) (sq air : Nat) (u : State) (r : Nat × List Byte × State), Frame [.free] s u ∧ sq < 256 ∧
      air = s.rfAir (23 + s.beaconBody.length) coded ∧ r = u.rfSeal 10 [] 0 (leBytes 1 18 ++ leBytes 1 sq ++ s.ownEui) s.beaconBody ∧
      (s.rfClash s.tick air = true → exec .radioBeaconTx s = .next s.nextBeacon) ∧
      (s.rfClash s.tick air = false → s.rfDwell ch s.tick air false = false →
        exec .radioBeaconTx s = .next (s.setEvt RF_EVT.DWELL_DEFER).nextBeacon) ∧
      (s.rfClash s.tick air = false → s.rfDwell ch s.tick air false = true → r.1 = stOk → s.radio.bseq ≠ 0 →
        exec .radioBeaconTx s = .next ((r.2.2.rfSend .beacon r.2.1 coded ch s.tick).nextBeacon))) ∧
  -- FLOOD_FORWARD, LAST_GASP
  (∀ (now : Nat) (s : State) f air, s.radioOn = true → s.rfFree 4 = true → s.radio.fwds.find? (fun f => decide (f.due ≤ now)) = some f →
    air = s.rfAir (25 + f.body.length) f.coded →
    (s.forwardWaits now air = true → exec (.floodForward now) s = .next s) ∧
    (s.forwardWaits now air = false → s.rfDwell (s.get RF_FLOOD.CHAN) now air false = false →
      exec (.floodForward now) s = .next (s.setEvt RF_EVT.DWELL_DEFER)) ∧
    (s.forwardWaits now air = false → s.rfDwell (s.get RF_FLOOD.CHAN) now air false = true →
      ∃ (sq : Nat) (u : State) (r : Nat × List Byte × State), Frame [.free] s u ∧
        r = u.rfSeal 10 [] 0 (u.rfHead 6 true false false sq [0xFF#8, 0xFF#8]) f.body ∧
        (r.1 = stOk → exec (.floodForward now) s = .next (r.2.2.rfSend (.forward f.orig f.fseq) r.2.1 f.coded (s.get RF_FLOOD.CHAN) now)))) ∧
  (∀ (now : Nat) (s : State) f, s.radioOn = true → s.rfFree 1 = true → s.radio.floods.find? (fun f => f.2.1) = some f →
    exec (.lastGasp now) s = .next (s.startFlood f now)) ∧
  -- RF_TX_END
  (∀ (s : State) u, u = State.rfShow { s with radio := { s.radio with tx := .none, paTail := true } } →
    (s.radio.tx = .none → exec .rfTxEnd s = .next s) ∧
    (s.radio.tx = .beacon → exec .rfTxEnd s = .next u.kickFloods) ∧
    (∀ c x, s.radio.tx = .item c → u.itemOn c = some x →
      (x.ackreq = true → exec .rfTxEnd s = .next u.kickFloods) ∧
      (x.ackreq = false → u.rfRole c = 0 → exec .rfTxEnd s = .next (((u.dropOn c).endItem x stOk 0 []).kickFloods)) ∧
      (x.ackreq = false → u.rfRole c ≠ 0 → exec .rfTxEnd s = .next ((((u.rfEndOf c).dropOn c).endItem x stOk 0 []).kickFloods))) ∧
    (∀ c, s.radio.tx = .ack (some c) → exec .rfTxEnd s = .next ((u.rfEndOf c).kickFloods)) ∧
    (∀ tag g, s.radio.tx = .flood tag g → exec .rfTxEnd s = .next ((u.endFlood tag g stOk).kickFloods)) ∧
    (∀ c, s.radio.tx = .bye c → exec .rfTxEnd s = .next ((u.endLink c 0).kickFloods))) ∧
  -- RF_SYNC_DETECT
  (∀ (y : RfSync), rfSyncOk y = true ↔ 0 < (corrBest rfSyncWord y.outs).1 ∧
    10 ^ 6 * (16 * y.noise) ^ 10 ≤ (corrBest rfSyncWord y.outs).1 ^ 10 ∧
    10 ^ 3 * (corrBest rfSyncWord y.outs).2 ^ 10 ≤ (corrBest rfSyncWord y.outs).1 ^ 10) ∧
  (∀ (y : RfSync) (s : State), (s.radioOn = true ∨ s.sniffing = true) → s.radio.tx = .none → s.radio.rx = none → s.radio.held = none →
    (∀ c, s.radio.event = some c → s.get (RF_LSTAT.CHAN c) = y.chan.val) → rfSyncOk y = true →
    ∃ (fofs : BitVec 16) (u : State), Frame [.free] s u ∧ exec (.rfSyncDetect y) s = .next (State.rfShow { u with radio := { u.radio with
      synced := true, rx := some { chan := y.chan.val, amp := (y.ys.map Int.natAbs).sum, hz := s.rfOffset y, fofs := fofs, tick := y.tick,
                                   link := s.radio.event, inWin := s.radio.listen && s.radio.event.any (fun c =>
                                     decide (y.dev.natAbs ≤ s.rfHalf c)) } } })) ∧
  (∀ (y : RfSync) (s : State), rfSyncOk y = false ∨ s.radio.tx ≠ .none ∨ s.radio.rx ≠ none ∨ s.radio.held ≠ none ∨
    (s.radioOn = false ∧ s.sniffing = false) → exec (.rfSyncDetect y) s = .next s) ∧
  -- the sniffer
  (∀ (s : State), s.mode = 1 → s.flag RF_CFG.ENABLE = true → s.flag RF_SNIFF.EN = true →
    (s.radio.sniffed = true → exec .sniffListen s = .next s) ∧
    (s.radio.sniffed = false → ∃ t, exec .sniffListen s = .next t ∧ t.regs = (s.put RF_STAT.STATE 4).regs ∧
      t.radio = { s.radio with sniffEnd := s.tick + max 1 (s.get RF_SNIFF.LISTEN) } ∧ Frame [.regs, .radio] s t) ∧
    (s.get RF_STAT.STATE ≠ 4 → exec .sniffDetect s = .next s) ∧
    (∀ u, s.get RF_STAT.STATE = 4 → u = { s with radio := { s.radio with sniffed := true, synced := false, rx := none } } →
      (∀ w, s.flag PWR_WAKE.RADIO = true → w = (u.putFlag RF_EVT.WAKE true).wake PWR_WAKE.RADIO → exec .sniffDetect s = .next
        (if w.awake = true then w.rfEvent 7 0 0xFF 0 [] [] else w)) ∧
      (s.flag PWR_WAKE.RADIO = false → exec .sniffDetect s = .next u))) ∧
  (∀ (s : State), s.radio.sniffed = true → s.radio.synced = false → ∃ t, exec .falseWake s = .next t ∧
    t.get RF_CNT.FALSE_WAKE = min (2 ^ (RF_CNT.FALSE_WAKE.hi + 1 - RF_CNT.FALSE_WAKE.lo) - 1) (s.get RF_CNT.FALSE_WAKE + 1) ∧
    t.radio = { s.radio with sniffed := false } ∧ RegsBut [RF_CNT] s t ∧ Frame [.regs, .radio] s t) ∧
  (∀ (s : State), s.radio.sniffed = false ∨ s.radio.synced = true → exec .falseWake s = .next s)

/-- The frames that the radio receives. A row about received frames acts on the reception in progress: it decodes header and payload, and a frame whose CRC holds, of the row's type and for this device, shows RF_LAST and is acted on; one that fails ends the reception alone, and without a reception nothing happens. Before the cast a frame that the sniffer's wake brought is held. BEACON and FLOOD are opened under the group key, a failed tag counts MIC_FAIL. A beacon of a known neighbour connects or follows the contexts armed for it. A new flood sets LASTQ of the neighbour that sent it, is remembered, delivered with its event and, with FWD_EN and a TTL above 1, forwarded with TTL one lower; one already seen counts FLOOD_DUP. A CONN_REQ of an unknown sender sets CONN_UNKNOWN; of a known one it is answered CONN_ACK, and opens the link of the leader context armed for it. A CONN_ACK of the neighbour connected to opens the link or counts a failure. A secured DATA frame of a known neighbour whose tag holds is a duplicate (counted, answered), a replay (counted) or new: delivered, the neighbour entry updated and answered, or answered BUSY if the queue does not take it; an empty unsecured one is noted and answered. MAP_SET and DISCONNECT on an open link are taken the same way. ACK ends the item it answers OK, NACK BUSY fails its attempt, and the event ends. It says of these commands that they complete, under conditions on the state and the operands alone: RF_BEACON_RX, CONN_REQ_RX, CONN_ACK_RX, RF_DATA_RX, RF_ACK_RX, RF_NACK_RX, MAP_SET_RX, DISCONNECT_RX, FLOOD_RX. (11_radio.md) -/
def Obligations.RadioFramesAreCheckedAndActedOn : Prop :=
  (∀ (r : RfSeen) (s : State), ∀ (i : Instr), i ∈ [Instr.rfBeaconRx r, .connReqRx r, .connAckRx r, .rfDataRx r, .rfAckRx r, .rfNackRx r, .mapSetRx r, .disconnectRx r,
      .floodRx r] →
    (s.radio.rx = none ∨ s.radioOn = false ∧ s.sniffing = false → exec i s = .next s) ∧
    (∀ x, s.radio.rx = some x → s.radioOn = false → s.sniffing = true →
      exec i s = .next { s with radio := { s.radio with held := some (x, r), rx := none } }) ∧
    (∀ x p t, s.radio.rx = some x → s.radioOn = true → s.rfDecode x r = (p, none, t) → exec i s = .next (t.rfEndRx x p))) ∧
  (∀ (r : RfSeen) (s t : State) (x : RfRx) (l : List Byte) (coded : Bool) (m : RfMac) (types : List Nat), s.radio.rx = some x → s.radioOn = true →
    s.rfDecode x r = (true, some (l, coded), t) → parseRf l = some m → m.type ∈ types → (m.dst = s.ownEui ∨ m.type = 0 ∨ m.type = 6) →
    (∀ c, x.link = some c → s.rfTooLong c (s.rfAir l.length coded) = false) →
    s.rfSeen r types = (some ({ frame := l, coded := coded, rssi := r.rssi, snr := r.snr, fofs := x.fofs, chan := x.chan, link := x.link,
                                sync := x.tick, tick := r.tick }, m), (t.rfLast x r).rfEndRx x true)) ∧
  -- RF_BEACON_RX
  (∀ (r : RfSeen) (s : State) u g m, s.rfSeen r [0] = (some (g, m), u) →
    (u.rfOpenGroup m = none → exec (.rfBeaconRx r) s = .next (u.count RF_CNT.MIC_FAIL 1)) ∧
    (∀ b i, u.rfOpenGroup m = some b → u.findNbr m.src = some i → b.length = 14 → exec (.rfBeaconRx r) s =
      .next (foldState (List.range 16) (fun c t => t.beaconOn g i b c) (u.putNbr i 20 (rfQuality g false (u16 b 8)))))) ∧
  -- FLOOD_RX
  (∀ (r : RfSeen) (s : State) u g m, s.rfSeen r [6] = (some (g, m), u) →
    (u.rfOpenGroup m = none → exec (.floodRx r) s = .next (u.count RF_CNT.MIC_FAIL 1)) ∧
    (∀ b, u.rfOpenGroup m = some b → 12 ≤ b.length → 1 ≤ u8 b 10 → u8 b 10 < 16 →
      (u.radio.seen.contains (b.take 8, u16 b 8) = true →
        exec (.floodRx r) s = .next ((u.count RF_CNT.FLOOD_DUP 1).floodCopy (b.take 8) (u16 b 8))) ∧
      (u.radio.seen.contains (b.take 8, u16 b 8) = false → exec (.floodRx r) s = .next
        (((u.findNbr m.src).elim u (fun i => u.putNbr i 20 (rfQuality g true 0))).floodNew g b)))) ∧
  (∀ (g : RfGot) (b : List Byte) (s : State) v w p, v = s.remember (b.take 8) (u16 b 8) → p = v.putPacket (.engine 1) (v.get RF_NBR.DLVQ) b →
    p.1 = 1 → w = ((p.2.1.tellPool p.2.2).setEvt RF_EVT.FLOOD_RX).rfEvent 5 stFrameOk 0xFF b.length (rfQuality g true 0) (b.take 8) →
    (w.flag RF_FLOOD.FWD_EN = false ∨ u8 b 10 % 16 ≤ 1 → s.floodNew g b = w) ∧
    (w.flag RF_FLOOD.FWD_EN = true → 1 < u8 b 10 % 16 → ∃ (d : Nat) (x : State), d ≤ w.get RF_FLOOD.JIT ∧ Frame [.free] w x ∧
      s.floodNew g b = { x with radio := { x.radio with fwds := x.radio.fwds ++
        [⟨b.take 8, u16 b 8, modNth b 10 (fun y => y - 1#8), g.coded, g.tick + d, 0⟩] } })) ∧
  -- CONN_REQ_RX
  (∀ (r : RfSeen) (s : State) u g m, s.rfSeen r [1] = (some (g, m), u) → (u.findNbr m.src = none → exec (.connReqRx r) s =
      .next ((u.setEvt RF_EVT.CONN_UNKNOWN).rfEvent 6 0 0xFF 0 (rfQuality g false 0) m.src)) ∧
    (∀ i v b, u.findNbr m.src = some i → u.rfCheck m 2 = (some (i, b), v) → b.length = 2 →
      ((List.range 16).find? (fun c => decide (v.rfRole c = 0 ∧ v.rfNbr c = i) && v.flag (RF_LCFG.ENABLE c)) = none →
        ∃ (sq : Nat) (x : List Byte) (w : State), Frame [.free] v w ∧ exec (.connReqRx r) s =
          .next ((w.rfNote i g).sendConnAck none i sq (v.nbrNat i 11 1) g.chan ([1#8] ++ x))) ∧
      (∀ c, (List.range 16).find? (fun c => decide (v.rfRole c = 0 ∧ v.rfNbr c = i) && v.flag (RF_LCFG.ENABLE c)) = some c →
        ∃ (sq id ofs : Nat) (w x y z : State), Frame [.free] v w ∧ Frame [.free] (if w.rfState c = 4 then w.endLink c 0 else w) x ∧
          2 ≤ ofs ∧ ofs < 65536 ∧ id < 65536 ∧
          y = (((((((((x.put (RF_LWIN.CONN_ID c) id).put (RF_LWIN.SCA_PEER c) (u8 b 1)).modRlink c (fun e => { e with anchor := ofs })).putNbr
            i 11 (b.take 1)).putNbr i 10 (leBytes 1 m.seq)).putNbr i 12 (leBytes 2 1)).rfSetFc i m).putNbr i 9 [0#8]).rfNote i g) ∧
          z = y.sendConnAck (some c) i sq (u8 b 0) g.chan ([0#8] ++ leBytes 2 id ++ leBytes 2 (y.get (RF_LTIME.INTERVAL c)) ++
            leBytes 2 (y.get (RF_LTIME.SUP_TO c)) ++ leBytes 2 ofs ++ leBytes 1 (y.get RF_CFG.SCA_LOCAL) ++ leBytes 8 (y.rfMap c &&& y.rfMask)) ∧
          exec (.connReqRx r) s = .next (if z.radio.tx = .none then z else z.rfOpen c i (z.rfMap c))))) ∧
  -- CONN_ACK_RX
  (∀ (r : RfSeen) (s : State) u v g m i b c, s.rfSeen r [2] = (some (g, m), u) → u.rfCheck m 6 = (some (i, b), v) →
    (List.range 16).find? (fun c => decide (v.rfState c = 3 ∧ v.rfNbr c = i)) = some c → b.length = 18 →
    exec (.connAckRx r) s = .next (if u8 b 0 = 0 then ((v.rfSetFc i m).rfNote i g).connAccept c i b else ((v.rfSetFc i m).rfNote i g).connFailed c)) ∧
  -- RF_DATA_RX
  (∀ (r : RfSeen) (s : State) u g m i c, s.rfSeen r [3] = (some (g, m), u) → u.findNbr m.src = some i → c = u.rfLinkOf g i →
    (m.sec = false → m.rest = [] → exec (.rfDataRx r) s = .next (((u.rfAckd g m c).rfNote i g).rfAnswer c i g m false false)) ∧
    (m.sec = true → u.rfOpenLink m i 6 = none → exec (.rfDataRx r) s = .next (u.count RF_CNT.MIC_FAIL 1)) ∧
    (∀ b v, m.sec = true → u.rfOpenLink m i 6 = some b → v = u.rfAckd g m c →
      (u.rfDup i m = .dup → exec (.rfDataRx r) s = .next ((v.count RF_CNT.DUP_RX 1).rfAnswer c i g m false false)) ∧
      (u.rfDup i m = .replay → exec (.rfDataRx r) s = .next (u.count RF_CNT.REPLAY 1)) ∧
      (∀ q d p, u.rfDup i m = .fresh q d → p = v.putPacket (.engine 1) (v.get RF_NBR.DLVQ) b →
        (p.1 ≠ 1 → exec (.rfDataRx r) s = .next ((p.2.1.tellPool p.2.2).rfAnswer c i g m true false)) ∧
        (p.1 = 1 → ∃ w : State, w = ((p.2.1.tellPool p.2.2).rfAccept i q d m).rfNote i g ∧ exec (.rfDataRx r) s =
          .next ((w.rfEvent 1 stFrameOk (c.getD 0xFF) b.length (rfQuality g false ((p.2.1.tellPool p.2.2).rfEventNo g))
            ((p.2.1.tellPool p.2.2).nbrEui i)).rfAnswer c i g m false false))))) ∧
  -- MAP_SET_RX, DISCONNECT_RX
  (∀ (r : RfSeen) (s : State) u w g m i c b q d, s.rfSeen r [7] = (some (g, m), u) → u.findNbr m.src = some i → u.rfLinkOf g i = some c →
    u.rfOpenLink m i 6 = some b → u.rfDup i m = .fresh q d → w = ((u.rfAckd g m (some c)).rfAccept i q d m).rfNote i g →
    (u8 b 0 = 1 → b.length = 11 → exec (.mapSetRx r) s = .next ((w.modRlink c (fun x =>
      { x with map := some (u16 (b.drop 1) 0, BitVec.ofNat 64 (leNat ((b.drop 1).drop 2))), agreed := true })).rfAnswer (some c) i g m false false)) ∧
    (u8 b 0 = 2 → b.length = 1 → exec (.disconnectRx r) s = .next (if (w.rfAnswer (some c) i g m false true).radio.tx = .none then
      (w.rfAnswer (some c) i g m false true).endLink c 0 else w.rfAnswer (some c) i g m false true))) ∧
  -- RF_ACK_RX, RF_NACK_RX
  (∀ (r : RfSeen) (s : State) u v w g m i c b x, m.sec = true → w = (v.rfSetFc i m).rfNote i g → w.rfLinkOf g i = some c → w.itemOn c = some x →
    x.seq = m.seq → u.rfCheck m 2 = (some (i, b), v) →
    (s.rfSeen r [4] = (some (g, m), u) → (x.type ≠ 7 ∨ u8 x.body 0 ≠ 2) →
      exec (.rfAckRx r) s = .next ((w.ackItem c (rfQuality g false (w.rfEventNo g))).rfEndOf c)) ∧
    (s.rfSeen r [5] = (some (g, m), u) → u8 b 0 = 1 → exec (.rfNackRx r) s = .next ((w.failItem c true).rfEndOf c)))

/-- Every sequencer instruction has one word, the decoder reads it as that instruction, and every other word raises ILLEGAL. For every sequencer instruction, with every value of every operand: the 32-bit word that the formats of R181 give it, its unused fields 0, decodes to an effect, and the instruction's command has exactly that effect on a core that runs and has fetched the word, no interrupt waiting; where the core has fetched another word, the command does what that word spells. A 32-bit word that spells none of the instructions, be it for an unlisted OP or FN or for an unused field that is not 0, decodes to nothing: a core that has fetched it raises ILLEGAL (cause 1) whatever the command names, and a STEP of a halted core onto it raises ILLEGAL and halts the core again. It says of these commands that they complete, under conditions on the state and the operands alone: STEP. (R181) -/
def Obligations.SequencerWordsSpellTheirInstructions : Prop :=
  (∀ (i : Instr) (k : Core) (w : Nat), seqWord i = some (k, w) → w < 2 ^ 32 ∧
    ∃ f, seqDecode w = some f ∧ ∀ s u : State, Fetched i k s u → exec i s = .next ((f k (seqEcc i) u).irqCount k.val)) ∧
  (∀ (i : Instr) (k : Core) (w : Nat) (x : Word) (s u : State) f, seqWord i = some (k, w) → s.coreRuns k.val = true →
    (s.core k.val).irq = false → s.fetch k = (some x, u) → x.toNat ≠ w → seqDecode x.toNat = some f →
    exec i s = .next ((f k (seqEcc i) u).irqCount k.val)) ∧
  (∀ w : Nat, w < 2 ^ 32 → (∀ i k, seqWord i ≠ some (k, w)) → seqDecode w = none) ∧
  (∀ (i : Instr) (k : Core) (w : Nat) (x : Word) (s u : State), seqWord i = some (k, w) → s.coreRuns k.val = true →
    (s.core k.val).irq = false → s.fetch k = (some x, u) → (∀ i' k', seqWord i' ≠ some (k', x.toNat)) →
    exec i s = .next ((u.raise k.val 1 0).irqCount k.val)) ∧
  (∀ (who : Accessor) (k : Core) (e : Ecc) (s u t : State) (w : Word), (∀ i j, seqWord i ≠ some (j, w.toNat)) → Writable s who (SEQ_CTL k.val) →
    s.coreHalted k.val = true → s.seqMode = true → (s.core k.val).irq = false →
    u = State.put (s.modCore k.val (fun c => { c with step := false })) (SEQ_STAT.STATE k.val) 0 → u.fetch k = (some w, t) →
    exec (.step who k e) s = .next (((t.raise k.val 1 0).irqCount k.val).halt k.val))

/-- Every step keeps the registers and the SRAM in their canonical form. If the register map and the SRAM are in canonical form (addresses strictly rising, no entry equal to what an unlisted address reads as), they are so after any step: whatever command is in front of the queue, or the idle tick on an empty one. (18_register_map.md, 07_pewter_pool.md, 15_power_modes.md) -/
def Obligations.StepKeepsCanonicalForm : Prop :=
  ∀ s t : State, s.Canonical → step s = .next t → t.Canonical

/-- The channel of a link event, and a leader's map that leaves fewer than two channels. Event e of a link uses, of the Nu usable mapped channels in ascending order, the one at index CRC16(CONN_ID low, CONN_ID high, e low, e high) mod Nu, where the CRC has the polynomial 0x1021, starts at 0xFFFF and takes each byte most significant bit first. The step to the event that LINK_EVENT makes shows that channel in RF_LSTAT.CHAN. A leader's map write that leaves Nu below 2 is discarded and sets CFG_REFUSED. It says of these commands that they complete, under conditions on the state and the operands alone: REGISTER_WRITE, MAP_SET_ARM. (R229) -/
def Obligations.LinkEventsUseTheMappedChannels : Prop :=
  (∀ (s : State) (map i : Nat), i ∈ s.rfUsed map ↔ (i < 64 ∧ bit map i = true ∧ s.rfUsable i = true)) ∧
  (∀ (s : State) (map : Nat), (s.rfUsed map).Pairwise (· < ·)) ∧
  (∀ (c e : Nat) (s : State) (used : List Nat), used = s.rfUsed (s.rlink c).inUse.toNat → used ≠ [] →
    s.rfEventChan c e = (nth 0 used (crc16 (leBytes 2 (s.get (RF_LWIN.CONN_ID c)) ++ leBytes 2 e) % used.length), s)) ∧
  (∀ (c : Nat) (s t : State) (used : List Nat), c < 16 → s.rfRole c ≠ 2 → t = s.rfStep c → used = t.rfUsed (t.rlink c).inUse.toNat → used ≠ [] →
    t.get (RF_LSTAT.CHAN c) = nth 0 used (crc16 (leBytes 2 (t.get (RF_LWIN.CONN_ID c)) ++ leBytes 2 (t.get (RF_LSTAT.EVENT c))) % used.length)) ∧
  (∀ (l : List Byte), crc16 l = (l.flatMap (fun b => (List.range 8).map (fun i => b2n (bit b.toNat (7 - i))))).foldl
    (fun r x => ((2 * r) % 65536) ^^^ (if r / 32768 = x then 0 else 0x1021)) 0xFFFF) ∧
  (∀ who (c : LinkC) (v : Word) (s : State) m, Writable s who (RF_LMAP_LO c.val) → s.rfRole c.val = 0 → m = s.rfMap c.val / 2 ^ 32 * 2 ^ 32 + v.toNat →
    (s.rfUsed m).length < 2 → exec (.mapSetArm who c v) s = .next (s.setEvt RF_EVT.CFG_REFUSED)) ∧
  (∀ who (c : LinkC) (v : Word) (s : State) m, Writable s who (RF_LMAP_HI c.val) → s.rfRole c.val = 0 → m = s.rfMap c.val % 2 ^ 32 + v.toNat * 2 ^ 32 →
    (s.rfUsed m).length < 2 → exec (.registerWrite who (BitVec.ofNat 32 (RF_LMAP_HI c.val)) v) s = .next (s.setEvt RF_EVT.CFG_REFUSED))

/-- A frame protected under a key opens under it to its body, and under no other tag. Under a key of 16 or 32 bytes and a nonce of 13 bytes, what follows AUX in a protected frame is as long as the body and the 8-byte tag, and opens to the body at the level it was protected under; with another tag of 8 bytes it does not open. The nonce of a frame is the sender's EUI-64, FC most significant byte first, and SLV. (05_drevline.md, 14_warden.md) -/
def Obligations.ProtectedFramesOpenToWhatWasProtected : Prop :=
  (∀ (key nonce aad body : List Byte) (slv : Nat), (key.length = 16 ∨ key.length = 32) → nonce.length = 13 →
    (protect key nonce slv aad body).length = body.length + 8 ∧
    unprotect key nonce slv aad (protect key nonce slv aad body) = some body ∧
    (∀ tag : List Byte, tag.length = 8 → tag ≠ (protect key nonce slv aad body).drop body.length →
      unprotect key nonce slv aad ((protect key nonce slv aad body).take body.length ++ tag) = none)) ∧
  (∀ (eui : List Byte) (fc : BitVec 32) (slv : Byte), eui.length = 8 →
    frameNonce eui fc.toNat slv.toNat = eui ++ [fc.extractLsb' 24 8, fc.extractLsb' 16 8, fc.extractLsb' 8 8, fc.extractLsb' 0 8, slv])
end

