-- ==== Sys2Proof/Laws/Bits.lean ====
section
/-! SUPPORT. Laws of bit fields. -/

namespace Sys2Proof.Machine

theorem bits_eq (x hi lo : Nat) : bits x hi lo = x / 2 ^ lo % 2 ^ (hi + 1 - lo) := by
  simp [bits, Nat.shiftRight_eq_div_pow]

/-- `putBits` keeps what lies below and above the field. -/
theorem putBits_eq (x hi lo v : Nat) (h : lo ≤ hi + 1) :
    putBits x hi lo v = x % 2 ^ lo + (v % 2 ^ (hi + 1 - lo)) * 2 ^ lo + (x / 2 ^ (hi + 1)) * 2 ^ (hi + 1) := by
  have e : 2 ^ (hi + 1) = 2 ^ lo * 2 ^ (hi + 1 - lo) := by rw [← pow_add]; congr 1; omega
  have h1 : x / 2 ^ lo / 2 ^ (hi + 1 - lo) = x / 2 ^ (hi + 1) := by rw [Nat.div_div_eq_div_mul, ← e]
  have h2 := Nat.div_add_mod x (2 ^ lo)
  have h3 := Nat.div_add_mod (x / 2 ^ lo) (2 ^ (hi + 1 - lo))
  rw [h1] at h3
  have h4 : x = x % 2 ^ lo + (x / 2 ^ lo % 2 ^ (hi + 1 - lo)) * 2 ^ lo + (x / 2 ^ (hi + 1)) * 2 ^ (hi + 1) := by
    calc x = 2 ^ lo * (x / 2 ^ lo) + x % 2 ^ lo := h2.symm
      _ = 2 ^ lo * (2 ^ (hi + 1 - lo) * (x / 2 ^ (hi + 1)) + x / 2 ^ lo % 2 ^ (hi + 1 - lo)) + x % 2 ^ lo := by rw [h3]
      _ = x % 2 ^ lo + (x / 2 ^ lo % 2 ^ (hi + 1 - lo)) * 2 ^ lo + (x / 2 ^ (hi + 1)) * (2 ^ lo * 2 ^ (hi + 1 - lo)) := by ring
      _ = _ := by rw [← e]
  unfold putBits
  rw [bits_eq]
  omega

/-- A field reads as what was put into it. -/
theorem bits_putBits_same (x hi lo v : Nat) (h : lo ≤ hi + 1) : bits (putBits x hi lo v) hi lo = v % 2 ^ (hi + 1 - lo) := by
  have e : 2 ^ (hi + 1) = 2 ^ lo * 2 ^ (hi + 1 - lo) := by rw [← pow_add]; congr 1; omega
  rw [putBits_eq x hi lo v h, bits_eq, e]
  have : x % 2 ^ lo + v % 2 ^ (hi + 1 - lo) * 2 ^ lo + x / (2 ^ lo * 2 ^ (hi + 1 - lo)) * (2 ^ lo * 2 ^ (hi + 1 - lo))
      = x % 2 ^ lo + 2 ^ lo * (v % 2 ^ (hi + 1 - lo) + 2 ^ (hi + 1 - lo) * (x / (2 ^ lo * 2 ^ (hi + 1 - lo)))) := by ring
  rw [this, Nat.add_mul_div_left _ _ (by positivity), Nat.div_eq_of_lt (Nat.mod_lt _ (by positivity)), Nat.zero_add,
    Nat.add_mul_mod_self_left, Nat.mod_mod]

/-- A field above or below is not touched. -/
theorem bits_putBits_above (x hi lo v hi' lo' : Nat) (h : lo ≤ hi + 1) (h' : hi < lo') :
    bits (putBits x hi lo v) hi' lo' = bits x hi' lo' := by
  rw [putBits_eq x hi lo v h, bits_eq, bits_eq]
  congr 1
  have e : 2 ^ lo' = 2 ^ (hi + 1) * 2 ^ (lo' - (hi + 1)) := by rw [← pow_add]; congr 1; omega
  have e2 : 2 ^ (hi + 1) = 2 ^ lo * 2 ^ (hi + 1 - lo) := by rw [← pow_add]; congr 1; omega
  have hlt : x % 2 ^ lo + v % 2 ^ (hi + 1 - lo) * 2 ^ lo < 2 ^ (hi + 1) := by
    have a := Nat.mod_lt x (show 2 ^ lo > 0 by positivity)
    have b := Nat.mod_lt v (show 2 ^ (hi + 1 - lo) > 0 by positivity)
    rw [e2]
    calc x % 2 ^ lo + v % 2 ^ (hi + 1 - lo) * 2 ^ lo < 2 ^ lo + v % 2 ^ (hi + 1 - lo) * 2 ^ lo := by omega
      _ = 2 ^ lo * (v % 2 ^ (hi + 1 - lo) + 1) := by ring
      _ ≤ 2 ^ lo * 2 ^ (hi + 1 - lo) := Nat.mul_le_mul_left _ b
  rw [e, ← Nat.div_div_eq_div_mul, ← Nat.div_div_eq_div_mul, mul_comm (x / 2 ^ (hi + 1)), Nat.add_mul_div_left _ _ (by positivity),
    Nat.div_eq_of_lt hlt, Nat.zero_add]

theorem bits_putBits_below (x hi lo v hi' lo' : Nat) (h : lo ≤ hi + 1) (h' : hi' < lo) (hl : lo' ≤ hi') :
    bits (putBits x hi lo v) hi' lo' = bits x hi' lo' := by
  have key : ∀ y : Nat, bits y hi' lo' = y % 2 ^ (hi' + 1) / 2 ^ lo' := by
    intro y
    rw [bits_eq, show hi' + 1 = lo' + (hi' + 1 - lo') by omega, pow_add, Nat.mod_mul_right_div_self]
    congr 2
    omega
  rw [key, key, putBits_eq x hi lo v h]
  congr 1
  have e : 2 ^ lo = 2 ^ (hi' + 1) * 2 ^ (lo - (hi' + 1)) := by rw [← pow_add]; congr 1; omega
  have e2 : 2 ^ (hi + 1) = 2 ^ (hi' + 1) * 2 ^ (hi - hi') := by rw [← pow_add]; congr 1; omega
  have : x % 2 ^ lo + v % 2 ^ (hi + 1 - lo) * 2 ^ lo + x / 2 ^ (hi + 1) * 2 ^ (hi + 1)
     = x % 2 ^ lo + 2 ^ (hi' + 1) * (v % 2 ^ (hi + 1 - lo) * 2 ^ (lo - (hi' + 1)) + x / 2 ^ (hi + 1) * 2 ^ (hi - hi')) := by
    calc _ = x % 2 ^ lo + v % 2 ^ (hi + 1 - lo) * (2 ^ (hi' + 1) * 2 ^ (lo - (hi' + 1)))
          + x / 2 ^ (hi + 1) * (2 ^ (hi' + 1) * 2 ^ (hi - hi')) := by rw [← e, ← e2]
      _ = _ := by ring
  rw [this, Nat.add_mul_mod_self_left, e, Nat.mod_mul_right_mod]

theorem putBits_lt (x hi lo v w : Nat) (h : lo ≤ hi + 1) (hx : x < 2 ^ w) (hw : hi < w) : putBits x hi lo v < 2 ^ w := by
  rw [putBits_eq x hi lo v h]
  have e2 : 2 ^ (hi + 1) = 2 ^ lo * 2 ^ (hi + 1 - lo) := by rw [← pow_add]; congr 1; omega
  have e : 2 ^ w = 2 ^ (hi + 1) * 2 ^ (w - (hi + 1)) := by rw [← pow_add]; congr 1; omega
  have hlt : x % 2 ^ lo + v % 2 ^ (hi + 1 - lo) * 2 ^ lo < 2 ^ (hi + 1) := by
    have a := Nat.mod_lt x (show 2 ^ lo > 0 by positivity)
    have b := Nat.mod_lt v (show 2 ^ (hi + 1 - lo) > 0 by positivity)
    rw [e2]
    calc x % 2 ^ lo + v % 2 ^ (hi + 1 - lo) * 2 ^ lo < 2 ^ lo + v % 2 ^ (hi + 1 - lo) * 2 ^ lo := by omega
      _ = 2 ^ lo * (v % 2 ^ (hi + 1 - lo) + 1) := by ring
      _ ≤ 2 ^ lo * 2 ^ (hi + 1 - lo) := Nat.mul_le_mul_left _ b
  have hd : x / 2 ^ (hi + 1) < 2 ^ (w - (hi + 1)) := by rw [Nat.div_lt_iff_lt_mul (by positivity), mul_comm, ← e]; exact hx
  have : x / 2 ^ (hi + 1) * 2 ^ (hi + 1) + 2 ^ (hi + 1) ≤ 2 ^ w := by
    rw [e]
    calc x / 2 ^ (hi + 1) * 2 ^ (hi + 1) + 2 ^ (hi + 1) = 2 ^ (hi + 1) * (x / 2 ^ (hi + 1) + 1) := by ring
      _ ≤ _ := Nat.mul_le_mul_left _ hd
  omega

end Sys2Proof.Machine
end

