-- ==== Sys2Proof/Laws/Map.lean ====
section
/-! SUPPORT. Laws of sparse maps: a read after a write, and the canonical form, which every operation keeps. -/

namespace Sys2Proof.Machine

variable {α : Type}

theorem mget_mdel_self (d : Nat → α) (m : SMap α) (k : Nat) : mget d (mdel m k) k = d k := by
  induction m with
  | nil => rfl
  | cons e t ih =>
    obtain ⟨j, v⟩ := e
    by_cases h : j = k
    · simpa [mdel, h] using ih
    · simpa [mdel, mget, h] using ih

theorem mget_mdel_ne (d : Nat → α) (m : SMap α) {k j : Nat} (h : j ≠ k) : mget d (mdel m k) j = mget d m j := by
  induction m with
  | nil => rfl
  | cons e t ih =>
    obtain ⟨i, v⟩ := e
    by_cases hk : i = k
    · subst hk
      have : ¬ i = j := fun e => h e.symm
      simpa [mdel, mget, this] using ih
    · by_cases hj : i = j
      · subst hj
        simp [mdel, mget, hk]
      · simpa [mdel, mget, hk, hj] using ih

theorem mget_mins_ne (d : Nat → α) (m : SMap α) {k j : Nat} (v : α) (h : j ≠ k) : mget d (mins m k v) j = mget d m j := by
  induction m with
  | nil => simp [mins, mget, Ne.symm h]
  | cons e t ih =>
    obtain ⟨i, w⟩ := e
    simp only [mins]
    split
    · simp only [mget, ih]
    · simp [mget, Ne.symm h]

theorem mget_mins_self (d : Nat → α) (m : SMap α) (k : Nat) (v : α) : mget d (mins m k v) k = v := by
  induction m with
  | nil => simp [mins, mget]
  | cons e t ih =>
    obtain ⟨i, w⟩ := e
    simp only [mins]
    split
    · have : ¬ i = k := by omega
      simp [mget, this, ih]
    · simp [mget]

/-- A read after a write of the same key gives the value written. -/
@[simp] theorem mget_mset_self [DecidableEq α] (d : Nat → α) (m : SMap α) (k : Nat) (v : α) : mget d (mset d m k v) k = v := by
  unfold mset
  split
  · rename_i h
    rw [mget_mdel_self, h]
  · exact mget_mins_self d _ k v

/-- A write leaves every other key alone. -/
theorem mget_mset_ne [DecidableEq α] (d : Nat → α) (m : SMap α) {k j : Nat} (v : α) (h : j ≠ k) :
    mget d (mset d m k v) j = mget d m j := by
  unfold mset
  split
  · exact mget_mdel_ne d m h
  · rw [mget_mins_ne d _ v h, mget_mdel_ne d m h]

theorem mget_mset [DecidableEq α] (d : Nat → α) (m : SMap α) (k j : Nat) (v : α) :
    mget d (mset d m k v) j = if j = k then v else mget d m j := by
  split
  · rename_i h; subst h; simp
  · rename_i h; exact mget_mset_ne d m v h

/-! ### The canonical form -/

theorem mwfFrom_weaken [DecidableEq α] (d : Nat → α) (m : SMap α) {a : Nat} (b : Option Nat) (h : mwfFrom d (some a) m = true)
    (hb : ∀ x, b = some x → x ≤ a) : mwfFrom d b m = true := by
  cases m with
  | nil => rfl
  | cons e t =>
    obtain ⟨j, v⟩ := e
    simp only [mwfFrom, Bool.and_eq_true, decide_eq_true_eq] at h ⊢
    refine ⟨⟨?_, h.1.2⟩, h.2⟩
    cases b with
    | none => rfl
    | some x => have := hb x rfl; simp; omega

theorem mwfFrom_filter [DecidableEq α] (d : Nat → α) (p : Nat × α → Bool) (m : SMap α) (b : Option Nat) (h : mwfFrom d b m = true) :
    mwfFrom d b (m.filter p) = true := by
  induction m generalizing b with
  | nil => rfl
  | cons e t ih =>
    obtain ⟨j, v⟩ := e
    simp only [mwfFrom, Bool.and_eq_true] at h
    by_cases hp : p (j, v) = true
    · simp only [List.filter, hp, mwfFrom, Bool.and_eq_true]
      exact ⟨h.1, ih _ h.2⟩
    · simp only [List.filter, hp]
      refine mwfFrom_weaken d _ b (ih _ h.2) ?_
      intro x hx
      have := h.1.1
      rw [hx] at this
      simp at this
      omega

theorem mwfFrom_mins [DecidableEq α] (d : Nat → α) (m : SMap α) (k : Nat) (v : α) (b : Option Nat) (h : mwfFrom d b m = true)
    (hk : ∀ e ∈ m, e.1 ≠ k) (hb : ∀ x, b = some x → x < k) (hv : v ≠ d k) : mwfFrom d b (mins m k v) = true := by
  induction m generalizing b with
  | nil =>
    cases b with
    | none => simp [mins, mwfFrom, hv]
    | some x => simp [mins, mwfFrom, hv, hb x rfl]
  | cons e t ih =>
    obtain ⟨j, w⟩ := e
    simp only [mwfFrom, Bool.and_eq_true] at h
    simp only [mins]
    have hj : j ≠ k := hk (j, w) (by simp)
    split
    · rename_i hlt
      simp only [mwfFrom, Bool.and_eq_true]
      refine ⟨h.1, ih (some j) h.2 (fun e he => hk e (by simp [he])) ?_⟩
      intro x hx; cases hx; exact hlt
    · have hlt : k < j := by omega
      cases b with
      | none => simp [mwfFrom, hv, hlt, h.2]; simpa using h.1.2
      | some x => simp [mwfFrom, hv, hlt, h.2, hb x rfl]; simpa using h.1.2

/-- A write keeps the canonical form. -/
theorem mwf_mset [DecidableEq α] (d : Nat → α) (m : SMap α) (k : Nat) (v : α) (h : mwf d m = true) : mwf d (mset d m k v) = true := by
  unfold mset
  split
  · exact mwfFrom_filter d _ m none h
  · rename_i hv
    refine mwfFrom_mins d _ k v none (mwfFrom_filter d _ m none h) ?_ (by simp) hv
    intro e he
    simp [mdel] at he
    exact he.2

theorem mwf_mmod [DecidableEq α] (d : Nat → α) (m : SMap α) (k : Nat) (f : α → α) (h : mwf d m = true) : mwf d (mmod d m k f) = true :=
  mwf_mset d m k _ h

theorem mwf_mkeep [DecidableEq α] (d : Nat → α) (p : Nat → Bool) (m : SMap α) (h : mwf d m = true) : mwf d (mkeep p m) = true :=
  mwfFrom_filter d _ m none h

@[simp] theorem mwf_nil [DecidableEq α] (d : Nat → α) : mwf d ([] : SMap α) = true := rfl

/-- A fold keeps what each of its steps keeps. -/
theorem foldState_keeps {σ β : Type} (P : σ → Prop) (l : List β) (f : β → σ → σ) (hf : ∀ a x, P x → P (f a x)) (x : σ) (h : P x) :
    P (foldState l f x) := by
  induction l generalizing x with
  | nil => exact h
  | cons a t ih => exact ih (f a x) (hf a x h)

end Sys2Proof.Machine
end

