-- ==== Sys2Proof/Laws/State.lean ====
section
/-! SUPPORT. Laws of the named operations over the state: which part each changes, and what a read gives after a write. -/

namespace Sys2Proof.Machine

/-! ### Which part of the state an operation leaves alone -/

@[simp] theorem State.setReg_pending (s : State) (a : Nat) (v : Word) : (s.setReg a v).pending = s.pending := rfl
@[simp] theorem State.setReg_sram (s : State) (a : Nat) (v : Word) : (s.setReg a v).sram = s.sram := rfl
@[simp] theorem State.setReg_poison (s : State) (a : Nat) (v : Word) : (s.setReg a v).poison = s.poison := rfl
@[simp] theorem State.setReg_upsets (s : State) (a : Nat) (v : Word) : (s.setReg a v).upsets = s.upsets := rfl
@[simp] theorem State.setReg_freeCtr (s : State) (a : Nat) (v : Word) : (s.setReg a v).freeCtr = s.freeCtr := rfl
@[simp] theorem State.setReg_hp (s : State) (a : Nat) (v : Word) : (s.setReg a v).hp = s.hp := rfl
@[simp] theorem State.setReg_pool (s : State) (a : Nat) (v : Word) : (s.setReg a v).pool = s.pool := rfl
@[simp] theorem State.setReg_ports (s : State) (a : Nat) (v : Word) : (s.setReg a v).ports = s.ports := rfl
@[simp] theorem State.setReg_lanes (s : State) (a : Nat) (v : Word) : (s.setReg a v).lanes = s.lanes := rfl
@[simp] theorem State.setReg_dec (s : State) (a : Nat) (v : Word) : (s.setReg a v).dec = s.dec := rfl
@[simp] theorem State.setReg_link (s : State) (a : Nat) (v : Word) : (s.setReg a v).link = s.link := rfl
@[simp] theorem State.setReg_meter (s : State) (a : Nat) (v : Word) : (s.setReg a v).meter = s.meter := rfl
@[simp] theorem State.setReg_fab (s : State) (a : Nat) (v : Word) : (s.setReg a v).fab = s.fab := rfl
@[simp] theorem State.setReg_cores (s : State) (a : Nat) (v : Word) : (s.setReg a v).cores = s.cores := rfl
@[simp] theorem State.setReg_radio (s : State) (a : Nat) (v : Word) : (s.setReg a v).radio = s.radio := rfl
@[simp] theorem State.setReg_uarts (s : State) (a : Nat) (v : Word) : (s.setReg a v).uarts = s.uarts := rfl
@[simp] theorem State.setReg_ctl (s : State) (a : Nat) (v : Word) : (s.setReg a v).ctl = s.ctl := rfl
@[simp] theorem State.setReg_wd (s : State) (a : Nat) (v : Word) : (s.setReg a v).wd = s.wd := rfl
@[simp] theorem State.setReg_iron (s : State) (a : Nat) (v : Word) : (s.setReg a v).iron = s.iron := rfl
@[simp] theorem State.setReg_al (s : State) (a : Nat) (v : Word) : (s.setReg a v).al = s.al := rfl
@[simp] theorem State.setReg_pm (s : State) (a : Nat) (v : Word) : (s.setReg a v).pm = s.pm := rfl
@[simp] theorem State.put_pending (s : State) (f : Fld) (v : Nat) : (s.put f v).pending = s.pending := rfl
@[simp] theorem State.put_sram (s : State) (f : Fld) (v : Nat) : (s.put f v).sram = s.sram := rfl
@[simp] theorem State.put_poison (s : State) (f : Fld) (v : Nat) : (s.put f v).poison = s.poison := rfl
@[simp] theorem State.put_upsets (s : State) (f : Fld) (v : Nat) : (s.put f v).upsets = s.upsets := rfl
@[simp] theorem State.put_freeCtr (s : State) (f : Fld) (v : Nat) : (s.put f v).freeCtr = s.freeCtr := rfl
@[simp] theorem State.put_hp (s : State) (f : Fld) (v : Nat) : (s.put f v).hp = s.hp := rfl
@[simp] theorem State.put_pool (s : State) (f : Fld) (v : Nat) : (s.put f v).pool = s.pool := rfl
@[simp] theorem State.put_ports (s : State) (f : Fld) (v : Nat) : (s.put f v).ports = s.ports := rfl
@[simp] theorem State.put_lanes (s : State) (f : Fld) (v : Nat) : (s.put f v).lanes = s.lanes := rfl
@[simp] theorem State.put_dec (s : State) (f : Fld) (v : Nat) : (s.put f v).dec = s.dec := rfl
@[simp] theorem State.put_link (s : State) (f : Fld) (v : Nat) : (s.put f v).link = s.link := rfl
@[simp] theorem State.put_meter (s : State) (f : Fld) (v : Nat) : (s.put f v).meter = s.meter := rfl
@[simp] theorem State.put_fab (s : State) (f : Fld) (v : Nat) : (s.put f v).fab = s.fab := rfl
@[simp] theorem State.put_cores (s : State) (f : Fld) (v : Nat) : (s.put f v).cores = s.cores := rfl
@[simp] theorem State.put_radio (s : State) (f : Fld) (v : Nat) : (s.put f v).radio = s.radio := rfl
@[simp] theorem State.put_uarts (s : State) (f : Fld) (v : Nat) : (s.put f v).uarts = s.uarts := rfl
@[simp] theorem State.put_ctl (s : State) (f : Fld) (v : Nat) : (s.put f v).ctl = s.ctl := rfl
@[simp] theorem State.put_wd (s : State) (f : Fld) (v : Nat) : (s.put f v).wd = s.wd := rfl
@[simp] theorem State.put_iron (s : State) (f : Fld) (v : Nat) : (s.put f v).iron = s.iron := rfl
@[simp] theorem State.put_al (s : State) (f : Fld) (v : Nat) : (s.put f v).al = s.al := rfl
@[simp] theorem State.put_pm (s : State) (f : Fld) (v : Nat) : (s.put f v).pm = s.pm := rfl
@[simp] theorem State.putFlag_pending (s : State) (f : Fld) (b : Bool) : (s.putFlag f b).pending = s.pending := rfl
@[simp] theorem State.putFlag_sram (s : State) (f : Fld) (b : Bool) : (s.putFlag f b).sram = s.sram := rfl
@[simp] theorem State.putFlag_poison (s : State) (f : Fld) (b : Bool) : (s.putFlag f b).poison = s.poison := rfl
@[simp] theorem State.putFlag_upsets (s : State) (f : Fld) (b : Bool) : (s.putFlag f b).upsets = s.upsets := rfl
@[simp] theorem State.putFlag_freeCtr (s : State) (f : Fld) (b : Bool) : (s.putFlag f b).freeCtr = s.freeCtr := rfl
@[simp] theorem State.putFlag_hp (s : State) (f : Fld) (b : Bool) : (s.putFlag f b).hp = s.hp := rfl
@[simp] theorem State.putFlag_pool (s : State) (f : Fld) (b : Bool) : (s.putFlag f b).pool = s.pool := rfl
@[simp] theorem State.putFlag_ports (s : State) (f : Fld) (b : Bool) : (s.putFlag f b).ports = s.ports := rfl
@[simp] theorem State.putFlag_lanes (s : State) (f : Fld) (b : Bool) : (s.putFlag f b).lanes = s.lanes := rfl
@[simp] theorem State.putFlag_dec (s : State) (f : Fld) (b : Bool) : (s.putFlag f b).dec = s.dec := rfl
@[simp] theorem State.putFlag_link (s : State) (f : Fld) (b : Bool) : (s.putFlag f b).link = s.link := rfl
@[simp] theorem State.putFlag_meter (s : State) (f : Fld) (b : Bool) : (s.putFlag f b).meter = s.meter := rfl
@[simp] theorem State.putFlag_fab (s : State) (f : Fld) (b : Bool) : (s.putFlag f b).fab = s.fab := rfl
@[simp] theorem State.putFlag_cores (s : State) (f : Fld) (b : Bool) : (s.putFlag f b).cores = s.cores := rfl
@[simp] theorem State.putFlag_radio (s : State) (f : Fld) (b : Bool) : (s.putFlag f b).radio = s.radio := rfl
@[simp] theorem State.putFlag_uarts (s : State) (f : Fld) (b : Bool) : (s.putFlag f b).uarts = s.uarts := rfl
@[simp] theorem State.putFlag_ctl (s : State) (f : Fld) (b : Bool) : (s.putFlag f b).ctl = s.ctl := rfl
@[simp] theorem State.putFlag_wd (s : State) (f : Fld) (b : Bool) : (s.putFlag f b).wd = s.wd := rfl
@[simp] theorem State.putFlag_iron (s : State) (f : Fld) (b : Bool) : (s.putFlag f b).iron = s.iron := rfl
@[simp] theorem State.putFlag_al (s : State) (f : Fld) (b : Bool) : (s.putFlag f b).al = s.al := rfl
@[simp] theorem State.putFlag_pm (s : State) (f : Fld) (b : Bool) : (s.putFlag f b).pm = s.pm := rfl
@[simp] theorem State.putInt_pending (s : State) (f : Fld) (v : Int) : (s.putInt f v).pending = s.pending := rfl
@[simp] theorem State.putInt_sram (s : State) (f : Fld) (v : Int) : (s.putInt f v).sram = s.sram := rfl
@[simp] theorem State.putInt_poison (s : State) (f : Fld) (v : Int) : (s.putInt f v).poison = s.poison := rfl
@[simp] theorem State.putInt_upsets (s : State) (f : Fld) (v : Int) : (s.putInt f v).upsets = s.upsets := rfl
@[simp] theorem State.putInt_freeCtr (s : State) (f : Fld) (v : Int) : (s.putInt f v).freeCtr = s.freeCtr := rfl
@[simp] theorem State.putInt_hp (s : State) (f : Fld) (v : Int) : (s.putInt f v).hp = s.hp := rfl
@[simp] theorem State.putInt_pool (s : State) (f : Fld) (v : Int) : (s.putInt f v).pool = s.pool := rfl
@[simp] theorem State.putInt_ports (s : State) (f : Fld) (v : Int) : (s.putInt f v).ports = s.ports := rfl
@[simp] theorem State.putInt_lanes (s : State) (f : Fld) (v : Int) : (s.putInt f v).lanes = s.lanes := rfl
@[simp] theorem State.putInt_dec (s : State) (f : Fld) (v : Int) : (s.putInt f v).dec = s.dec := rfl
@[simp] theorem State.putInt_link (s : State) (f : Fld) (v : Int) : (s.putInt f v).link = s.link := rfl
@[simp] theorem State.putInt_meter (s : State) (f : Fld) (v : Int) : (s.putInt f v).meter = s.meter := rfl
@[simp] theorem State.putInt_fab (s : State) (f : Fld) (v : Int) : (s.putInt f v).fab = s.fab := rfl
@[simp] theorem State.putInt_cores (s : State) (f : Fld) (v : Int) : (s.putInt f v).cores = s.cores := rfl
@[simp] theorem State.putInt_radio (s : State) (f : Fld) (v : Int) : (s.putInt f v).radio = s.radio := rfl
@[simp] theorem State.putInt_uarts (s : State) (f : Fld) (v : Int) : (s.putInt f v).uarts = s.uarts := rfl
@[simp] theorem State.putInt_ctl (s : State) (f : Fld) (v : Int) : (s.putInt f v).ctl = s.ctl := rfl
@[simp] theorem State.putInt_wd (s : State) (f : Fld) (v : Int) : (s.putInt f v).wd = s.wd := rfl
@[simp] theorem State.putInt_iron (s : State) (f : Fld) (v : Int) : (s.putInt f v).iron = s.iron := rfl
@[simp] theorem State.putInt_al (s : State) (f : Fld) (v : Int) : (s.putInt f v).al = s.al := rfl
@[simp] theorem State.putInt_pm (s : State) (f : Fld) (v : Int) : (s.putInt f v).pm = s.pm := rfl
@[simp] theorem State.count_pending (s : State) (f : Fld) (n : Nat) : (s.count f n).pending = s.pending := rfl
@[simp] theorem State.count_sram (s : State) (f : Fld) (n : Nat) : (s.count f n).sram = s.sram := rfl
@[simp] theorem State.count_poison (s : State) (f : Fld) (n : Nat) : (s.count f n).poison = s.poison := rfl
@[simp] theorem State.count_upsets (s : State) (f : Fld) (n : Nat) : (s.count f n).upsets = s.upsets := rfl
@[simp] theorem State.count_freeCtr (s : State) (f : Fld) (n : Nat) : (s.count f n).freeCtr = s.freeCtr := rfl
@[simp] theorem State.count_hp (s : State) (f : Fld) (n : Nat) : (s.count f n).hp = s.hp := rfl
@[simp] theorem State.count_pool (s : State) (f : Fld) (n : Nat) : (s.count f n).pool = s.pool := rfl
@[simp] theorem State.count_ports (s : State) (f : Fld) (n : Nat) : (s.count f n).ports = s.ports := rfl
@[simp] theorem State.count_lanes (s : State) (f : Fld) (n : Nat) : (s.count f n).lanes = s.lanes := rfl
@[simp] theorem State.count_dec (s : State) (f : Fld) (n : Nat) : (s.count f n).dec = s.dec := rfl
@[simp] theorem State.count_link (s : State) (f : Fld) (n : Nat) : (s.count f n).link = s.link := rfl
@[simp] theorem State.count_meter (s : State) (f : Fld) (n : Nat) : (s.count f n).meter = s.meter := rfl
@[simp] theorem State.count_fab (s : State) (f : Fld) (n : Nat) : (s.count f n).fab = s.fab := rfl
@[simp] theorem State.count_cores (s : State) (f : Fld) (n : Nat) : (s.count f n).cores = s.cores := rfl
@[simp] theorem State.count_radio (s : State) (f : Fld) (n : Nat) : (s.count f n).radio = s.radio := rfl
@[simp] theorem State.count_uarts (s : State) (f : Fld) (n : Nat) : (s.count f n).uarts = s.uarts := rfl
@[simp] theorem State.count_ctl (s : State) (f : Fld) (n : Nat) : (s.count f n).ctl = s.ctl := rfl
@[simp] theorem State.count_wd (s : State) (f : Fld) (n : Nat) : (s.count f n).wd = s.wd := rfl
@[simp] theorem State.count_iron (s : State) (f : Fld) (n : Nat) : (s.count f n).iron = s.iron := rfl
@[simp] theorem State.count_al (s : State) (f : Fld) (n : Nat) : (s.count f n).al = s.al := rfl
@[simp] theorem State.count_pm (s : State) (f : Fld) (n : Nat) : (s.count f n).pm = s.pm := rfl
@[simp] theorem State.putBit_pending (s : State) (f : Fld) (i : Nat) (b : Bool) : (s.putBit f i b).pending = s.pending := rfl
@[simp] theorem State.putBit_sram (s : State) (f : Fld) (i : Nat) (b : Bool) : (s.putBit f i b).sram = s.sram := rfl
@[simp] theorem State.putBit_poison (s : State) (f : Fld) (i : Nat) (b : Bool) : (s.putBit f i b).poison = s.poison := rfl
@[simp] theorem State.putBit_upsets (s : State) (f : Fld) (i : Nat) (b : Bool) : (s.putBit f i b).upsets = s.upsets := rfl
@[simp] theorem State.putBit_freeCtr (s : State) (f : Fld) (i : Nat) (b : Bool) : (s.putBit f i b).freeCtr = s.freeCtr := rfl
@[simp] theorem State.putBit_hp (s : State) (f : Fld) (i : Nat) (b : Bool) : (s.putBit f i b).hp = s.hp := rfl
@[simp] theorem State.putBit_pool (s : State) (f : Fld) (i : Nat) (b : Bool) : (s.putBit f i b).pool = s.pool := rfl
@[simp] theorem State.putBit_ports (s : State) (f : Fld) (i : Nat) (b : Bool) : (s.putBit f i b).ports = s.ports := rfl
@[simp] theorem State.putBit_lanes (s : State) (f : Fld) (i : Nat) (b : Bool) : (s.putBit f i b).lanes = s.lanes := rfl
@[simp] theorem State.putBit_dec (s : State) (f : Fld) (i : Nat) (b : Bool) : (s.putBit f i b).dec = s.dec := rfl
@[simp] theorem State.putBit_link (s : State) (f : Fld) (i : Nat) (b : Bool) : (s.putBit f i b).link = s.link := rfl
@[simp] theorem State.putBit_meter (s : State) (f : Fld) (i : Nat) (b : Bool) : (s.putBit f i b).meter = s.meter := rfl
@[simp] theorem State.putBit_fab (s : State) (f : Fld) (i : Nat) (b : Bool) : (s.putBit f i b).fab = s.fab := rfl
@[simp] theorem State.putBit_cores (s : State) (f : Fld) (i : Nat) (b : Bool) : (s.putBit f i b).cores = s.cores := rfl
@[simp] theorem State.putBit_radio (s : State) (f : Fld) (i : Nat) (b : Bool) : (s.putBit f i b).radio = s.radio := rfl
@[simp] theorem State.putBit_uarts (s : State) (f : Fld) (i : Nat) (b : Bool) : (s.putBit f i b).uarts = s.uarts := rfl
@[simp] theorem State.putBit_ctl (s : State) (f : Fld) (i : Nat) (b : Bool) : (s.putBit f i b).ctl = s.ctl := rfl
@[simp] theorem State.putBit_wd (s : State) (f : Fld) (i : Nat) (b : Bool) : (s.putBit f i b).wd = s.wd := rfl
@[simp] theorem State.putBit_iron (s : State) (f : Fld) (i : Nat) (b : Bool) : (s.putBit f i b).iron = s.iron := rfl
@[simp] theorem State.putBit_al (s : State) (f : Fld) (i : Nat) (b : Bool) : (s.putBit f i b).al = s.al := rfl
@[simp] theorem State.putBit_pm (s : State) (f : Fld) (i : Nat) (b : Bool) : (s.putBit f i b).pm = s.pm := rfl
@[simp] theorem State.merge_pending (s : State) (a m : Nat) (v : Word) : (s.merge a m v).pending = s.pending := rfl
@[simp] theorem State.merge_sram (s : State) (a m : Nat) (v : Word) : (s.merge a m v).sram = s.sram := rfl
@[simp] theorem State.merge_poison (s : State) (a m : Nat) (v : Word) : (s.merge a m v).poison = s.poison := rfl
@[simp] theorem State.merge_upsets (s : State) (a m : Nat) (v : Word) : (s.merge a m v).upsets = s.upsets := rfl
@[simp] theorem State.merge_freeCtr (s : State) (a m : Nat) (v : Word) : (s.merge a m v).freeCtr = s.freeCtr := rfl
@[simp] theorem State.merge_hp (s : State) (a m : Nat) (v : Word) : (s.merge a m v).hp = s.hp := rfl
@[simp] theorem State.merge_pool (s : State) (a m : Nat) (v : Word) : (s.merge a m v).pool = s.pool := rfl
@[simp] theorem State.merge_ports (s : State) (a m : Nat) (v : Word) : (s.merge a m v).ports = s.ports := rfl
@[simp] theorem State.merge_lanes (s : State) (a m : Nat) (v : Word) : (s.merge a m v).lanes = s.lanes := rfl
@[simp] theorem State.merge_dec (s : State) (a m : Nat) (v : Word) : (s.merge a m v).dec = s.dec := rfl
@[simp] theorem State.merge_link (s : State) (a m : Nat) (v : Word) : (s.merge a m v).link = s.link := rfl
@[simp] theorem State.merge_meter (s : State) (a m : Nat) (v : Word) : (s.merge a m v).meter = s.meter := rfl
@[simp] theorem State.merge_fab (s : State) (a m : Nat) (v : Word) : (s.merge a m v).fab = s.fab := rfl
@[simp] theorem State.merge_cores (s : State) (a m : Nat) (v : Word) : (s.merge a m v).cores = s.cores := rfl
@[simp] theorem State.merge_radio (s : State) (a m : Nat) (v : Word) : (s.merge a m v).radio = s.radio := rfl
@[simp] theorem State.merge_uarts (s : State) (a m : Nat) (v : Word) : (s.merge a m v).uarts = s.uarts := rfl
@[simp] theorem State.merge_ctl (s : State) (a m : Nat) (v : Word) : (s.merge a m v).ctl = s.ctl := rfl
@[simp] theorem State.merge_wd (s : State) (a m : Nat) (v : Word) : (s.merge a m v).wd = s.wd := rfl
@[simp] theorem State.merge_iron (s : State) (a m : Nat) (v : Word) : (s.merge a m v).iron = s.iron := rfl
@[simp] theorem State.merge_al (s : State) (a m : Nat) (v : Word) : (s.merge a m v).al = s.al := rfl
@[simp] theorem State.merge_pm (s : State) (a m : Nat) (v : Word) : (s.merge a m v).pm = s.pm := rfl
@[simp] theorem State.setBytes_pending (s : State) (a : Nat) (l : List Byte) : (s.setBytes a l).pending = s.pending := rfl
@[simp] theorem State.setBytes_regs (s : State) (a : Nat) (l : List Byte) : (s.setBytes a l).regs = s.regs := rfl
@[simp] theorem State.setBytes_poison (s : State) (a : Nat) (l : List Byte) : (s.setBytes a l).poison = s.poison := rfl
@[simp] theorem State.setBytes_upsets (s : State) (a : Nat) (l : List Byte) : (s.setBytes a l).upsets = s.upsets := rfl
@[simp] theorem State.setBytes_freeCtr (s : State) (a : Nat) (l : List Byte) : (s.setBytes a l).freeCtr = s.freeCtr := rfl
@[simp] theorem State.setBytes_hp (s : State) (a : Nat) (l : List Byte) : (s.setBytes a l).hp = s.hp := rfl
@[simp] theorem State.setBytes_pool (s : State) (a : Nat) (l : List Byte) : (s.setBytes a l).pool = s.pool := rfl
@[simp] theorem State.setBytes_ports (s : State) (a : Nat) (l : List Byte) : (s.setBytes a l).ports = s.ports := rfl
@[simp] theorem State.setBytes_lanes (s : State) (a : Nat) (l : List Byte) : (s.setBytes a l).lanes = s.lanes := rfl
@[simp] theorem State.setBytes_dec (s : State) (a : Nat) (l : List Byte) : (s.setBytes a l).dec = s.dec := rfl
@[simp] theorem State.setBytes_link (s : State) (a : Nat) (l : List Byte) : (s.setBytes a l).link = s.link := rfl
@[simp] theorem State.setBytes_meter (s : State) (a : Nat) (l : List Byte) : (s.setBytes a l).meter = s.meter := rfl
@[simp] theorem State.setBytes_fab (s : State) (a : Nat) (l : List Byte) : (s.setBytes a l).fab = s.fab := rfl
@[simp] theorem State.setBytes_cores (s : State) (a : Nat) (l : List Byte) : (s.setBytes a l).cores = s.cores := rfl
@[simp] theorem State.setBytes_radio (s : State) (a : Nat) (l : List Byte) : (s.setBytes a l).radio = s.radio := rfl
@[simp] theorem State.setBytes_uarts (s : State) (a : Nat) (l : List Byte) : (s.setBytes a l).uarts = s.uarts := rfl
@[simp] theorem State.setBytes_ctl (s : State) (a : Nat) (l : List Byte) : (s.setBytes a l).ctl = s.ctl := rfl
@[simp] theorem State.setBytes_wd (s : State) (a : Nat) (l : List Byte) : (s.setBytes a l).wd = s.wd := rfl
@[simp] theorem State.setBytes_iron (s : State) (a : Nat) (l : List Byte) : (s.setBytes a l).iron = s.iron := rfl
@[simp] theorem State.setBytes_al (s : State) (a : Nat) (l : List Byte) : (s.setBytes a l).al = s.al := rfl
@[simp] theorem State.setBytes_pm (s : State) (a : Nat) (l : List Byte) : (s.setBytes a l).pm = s.pm := rfl
@[simp] theorem State.freshCode_pending (s : State) (a : Nat) : (s.freshCode a).pending = s.pending := rfl
@[simp] theorem State.freshCode_regs (s : State) (a : Nat) : (s.freshCode a).regs = s.regs := rfl
@[simp] theorem State.freshCode_sram (s : State) (a : Nat) : (s.freshCode a).sram = s.sram := rfl
@[simp] theorem State.freshCode_freeCtr (s : State) (a : Nat) : (s.freshCode a).freeCtr = s.freeCtr := rfl
@[simp] theorem State.freshCode_hp (s : State) (a : Nat) : (s.freshCode a).hp = s.hp := rfl
@[simp] theorem State.freshCode_pool (s : State) (a : Nat) : (s.freshCode a).pool = s.pool := rfl
@[simp] theorem State.freshCode_ports (s : State) (a : Nat) : (s.freshCode a).ports = s.ports := rfl
@[simp] theorem State.freshCode_lanes (s : State) (a : Nat) : (s.freshCode a).lanes = s.lanes := rfl
@[simp] theorem State.freshCode_dec (s : State) (a : Nat) : (s.freshCode a).dec = s.dec := rfl
@[simp] theorem State.freshCode_link (s : State) (a : Nat) : (s.freshCode a).link = s.link := rfl
@[simp] theorem State.freshCode_meter (s : State) (a : Nat) : (s.freshCode a).meter = s.meter := rfl
@[simp] theorem State.freshCode_fab (s : State) (a : Nat) : (s.freshCode a).fab = s.fab := rfl
@[simp] theorem State.freshCode_cores (s : State) (a : Nat) : (s.freshCode a).cores = s.cores := rfl
@[simp] theorem State.freshCode_radio (s : State) (a : Nat) : (s.freshCode a).radio = s.radio := rfl
@[simp] theorem State.freshCode_uarts (s : State) (a : Nat) : (s.freshCode a).uarts = s.uarts := rfl
@[simp] theorem State.freshCode_ctl (s : State) (a : Nat) : (s.freshCode a).ctl = s.ctl := rfl
@[simp] theorem State.freshCode_wd (s : State) (a : Nat) : (s.freshCode a).wd = s.wd := rfl
@[simp] theorem State.freshCode_iron (s : State) (a : Nat) : (s.freshCode a).iron = s.iron := rfl
@[simp] theorem State.freshCode_al (s : State) (a : Nat) : (s.freshCode a).al = s.al := rfl
@[simp] theorem State.freshCode_pm (s : State) (a : Nat) : (s.freshCode a).pm = s.pm := rfl
@[simp] theorem State.setUpset_pending (s : State) (a : Nat) (e : Ecc) : (s.setUpset a e).pending = s.pending := rfl
@[simp] theorem State.setUpset_regs (s : State) (a : Nat) (e : Ecc) : (s.setUpset a e).regs = s.regs := rfl
@[simp] theorem State.setUpset_sram (s : State) (a : Nat) (e : Ecc) : (s.setUpset a e).sram = s.sram := rfl
@[simp] theorem State.setUpset_poison (s : State) (a : Nat) (e : Ecc) : (s.setUpset a e).poison = s.poison := rfl
@[simp] theorem State.setUpset_freeCtr (s : State) (a : Nat) (e : Ecc) : (s.setUpset a e).freeCtr = s.freeCtr := rfl
@[simp] theorem State.setUpset_hp (s : State) (a : Nat) (e : Ecc) : (s.setUpset a e).hp = s.hp := rfl
@[simp] theorem State.setUpset_pool (s : State) (a : Nat) (e : Ecc) : (s.setUpset a e).pool = s.pool := rfl
@[simp] theorem State.setUpset_ports (s : State) (a : Nat) (e : Ecc) : (s.setUpset a e).ports = s.ports := rfl
@[simp] theorem State.setUpset_lanes (s : State) (a : Nat) (e : Ecc) : (s.setUpset a e).lanes = s.lanes := rfl
@[simp] theorem State.setUpset_dec (s : State) (a : Nat) (e : Ecc) : (s.setUpset a e).dec = s.dec := rfl
@[simp] theorem State.setUpset_link (s : State) (a : Nat) (e : Ecc) : (s.setUpset a e).link = s.link := rfl
@[simp] theorem State.setUpset_meter (s : State) (a : Nat) (e : Ecc) : (s.setUpset a e).meter = s.meter := rfl
@[simp] theorem State.setUpset_fab (s : State) (a : Nat) (e : Ecc) : (s.setUpset a e).fab = s.fab := rfl
@[simp] theorem State.setUpset_cores (s : State) (a : Nat) (e : Ecc) : (s.setUpset a e).cores = s.cores := rfl
@[simp] theorem State.setUpset_radio (s : State) (a : Nat) (e : Ecc) : (s.setUpset a e).radio = s.radio := rfl
@[simp] theorem State.setUpset_uarts (s : State) (a : Nat) (e : Ecc) : (s.setUpset a e).uarts = s.uarts := rfl
@[simp] theorem State.setUpset_ctl (s : State) (a : Nat) (e : Ecc) : (s.setUpset a e).ctl = s.ctl := rfl
@[simp] theorem State.setUpset_wd (s : State) (a : Nat) (e : Ecc) : (s.setUpset a e).wd = s.wd := rfl
@[simp] theorem State.setUpset_iron (s : State) (a : Nat) (e : Ecc) : (s.setUpset a e).iron = s.iron := rfl
@[simp] theorem State.setUpset_al (s : State) (a : Nat) (e : Ecc) : (s.setUpset a e).al = s.al := rfl
@[simp] theorem State.setUpset_pm (s : State) (a : Nat) (e : Ecc) : (s.setUpset a e).pm = s.pm := rfl
@[simp] theorem State.setWord_pending (s : State) (a : Nat) (l : List Byte) : (s.setWord a l).pending = s.pending := rfl
@[simp] theorem State.setWord_regs (s : State) (a : Nat) (l : List Byte) : (s.setWord a l).regs = s.regs := rfl
@[simp] theorem State.setWord_freeCtr (s : State) (a : Nat) (l : List Byte) : (s.setWord a l).freeCtr = s.freeCtr := rfl
@[simp] theorem State.setWord_hp (s : State) (a : Nat) (l : List Byte) : (s.setWord a l).hp = s.hp := rfl
@[simp] theorem State.setWord_pool (s : State) (a : Nat) (l : List Byte) : (s.setWord a l).pool = s.pool := rfl
@[simp] theorem State.setWord_ports (s : State) (a : Nat) (l : List Byte) : (s.setWord a l).ports = s.ports := rfl
@[simp] theorem State.setWord_lanes (s : State) (a : Nat) (l : List Byte) : (s.setWord a l).lanes = s.lanes := rfl
@[simp] theorem State.setWord_dec (s : State) (a : Nat) (l : List Byte) : (s.setWord a l).dec = s.dec := rfl
@[simp] theorem State.setWord_link (s : State) (a : Nat) (l : List Byte) : (s.setWord a l).link = s.link := rfl
@[simp] theorem State.setWord_meter (s : State) (a : Nat) (l : List Byte) : (s.setWord a l).meter = s.meter := rfl
@[simp] theorem State.setWord_fab (s : State) (a : Nat) (l : List Byte) : (s.setWord a l).fab = s.fab := rfl
@[simp] theorem State.setWord_cores (s : State) (a : Nat) (l : List Byte) : (s.setWord a l).cores = s.cores := rfl
@[simp] theorem State.setWord_radio (s : State) (a : Nat) (l : List Byte) : (s.setWord a l).radio = s.radio := rfl
@[simp] theorem State.setWord_uarts (s : State) (a : Nat) (l : List Byte) : (s.setWord a l).uarts = s.uarts := rfl
@[simp] theorem State.setWord_ctl (s : State) (a : Nat) (l : List Byte) : (s.setWord a l).ctl = s.ctl := rfl
@[simp] theorem State.setWord_wd (s : State) (a : Nat) (l : List Byte) : (s.setWord a l).wd = s.wd := rfl
@[simp] theorem State.setWord_iron (s : State) (a : Nat) (l : List Byte) : (s.setWord a l).iron = s.iron := rfl
@[simp] theorem State.setWord_al (s : State) (a : Nat) (l : List Byte) : (s.setWord a l).al = s.al := rfl
@[simp] theorem State.setWord_pm (s : State) (a : Nat) (l : List Byte) : (s.setWord a l).pm = s.pm := rfl
@[simp] theorem State.modPort_pending (s : State) (p : Nat) (f : PortSt → PortSt) : (s.modPort p f).pending = s.pending := rfl
@[simp] theorem State.modPort_regs (s : State) (p : Nat) (f : PortSt → PortSt) : (s.modPort p f).regs = s.regs := rfl
@[simp] theorem State.modPort_sram (s : State) (p : Nat) (f : PortSt → PortSt) : (s.modPort p f).sram = s.sram := rfl
@[simp] theorem State.modPort_poison (s : State) (p : Nat) (f : PortSt → PortSt) : (s.modPort p f).poison = s.poison := rfl
@[simp] theorem State.modPort_upsets (s : State) (p : Nat) (f : PortSt → PortSt) : (s.modPort p f).upsets = s.upsets := rfl
@[simp] theorem State.modPort_freeCtr (s : State) (p : Nat) (f : PortSt → PortSt) : (s.modPort p f).freeCtr = s.freeCtr := rfl
@[simp] theorem State.modPort_hp (s : State) (p : Nat) (f : PortSt → PortSt) : (s.modPort p f).hp = s.hp := rfl
@[simp] theorem State.modPort_pool (s : State) (p : Nat) (f : PortSt → PortSt) : (s.modPort p f).pool = s.pool := rfl
@[simp] theorem State.modPort_lanes (s : State) (p : Nat) (f : PortSt → PortSt) : (s.modPort p f).lanes = s.lanes := rfl
@[simp] theorem State.modPort_dec (s : State) (p : Nat) (f : PortSt → PortSt) : (s.modPort p f).dec = s.dec := rfl
@[simp] theorem State.modPort_link (s : State) (p : Nat) (f : PortSt → PortSt) : (s.modPort p f).link = s.link := rfl
@[simp] theorem State.modPort_meter (s : State) (p : Nat) (f : PortSt → PortSt) : (s.modPort p f).meter = s.meter := rfl
@[simp] theorem State.modPort_fab (s : State) (p : Nat) (f : PortSt → PortSt) : (s.modPort p f).fab = s.fab := rfl
@[simp] theorem State.modPort_cores (s : State) (p : Nat) (f : PortSt → PortSt) : (s.modPort p f).cores = s.cores := rfl
@[simp] theorem State.modPort_radio (s : State) (p : Nat) (f : PortSt → PortSt) : (s.modPort p f).radio = s.radio := rfl
@[simp] theorem State.modPort_uarts (s : State) (p : Nat) (f : PortSt → PortSt) : (s.modPort p f).uarts = s.uarts := rfl
@[simp] theorem State.modPort_ctl (s : State) (p : Nat) (f : PortSt → PortSt) : (s.modPort p f).ctl = s.ctl := rfl
@[simp] theorem State.modPort_wd (s : State) (p : Nat) (f : PortSt → PortSt) : (s.modPort p f).wd = s.wd := rfl
@[simp] theorem State.modPort_iron (s : State) (p : Nat) (f : PortSt → PortSt) : (s.modPort p f).iron = s.iron := rfl
@[simp] theorem State.modPort_al (s : State) (p : Nat) (f : PortSt → PortSt) : (s.modPort p f).al = s.al := rfl
@[simp] theorem State.modPort_pm (s : State) (p : Nat) (f : PortSt → PortSt) : (s.modPort p f).pm = s.pm := rfl
@[simp] theorem State.modLane_pending (s : State) (n : Nat) (f : LaneSt → LaneSt) : (s.modLane n f).pending = s.pending := rfl
@[simp] theorem State.modLane_regs (s : State) (n : Nat) (f : LaneSt → LaneSt) : (s.modLane n f).regs = s.regs := rfl
@[simp] theorem State.modLane_sram (s : State) (n : Nat) (f : LaneSt → LaneSt) : (s.modLane n f).sram = s.sram := rfl
@[simp] theorem State.modLane_poison (s : State) (n : Nat) (f : LaneSt → LaneSt) : (s.modLane n f).poison = s.poison := rfl
@[simp] theorem State.modLane_upsets (s : State) (n : Nat) (f : LaneSt → LaneSt) : (s.modLane n f).upsets = s.upsets := rfl
@[simp] theorem State.modLane_freeCtr (s : State) (n : Nat) (f : LaneSt → LaneSt) : (s.modLane n f).freeCtr = s.freeCtr := rfl
@[simp] theorem State.modLane_hp (s : State) (n : Nat) (f : LaneSt → LaneSt) : (s.modLane n f).hp = s.hp := rfl
@[simp] theorem State.modLane_pool (s : State) (n : Nat) (f : LaneSt → LaneSt) : (s.modLane n f).pool = s.pool := rfl
@[simp] theorem State.modLane_ports (s : State) (n : Nat) (f : LaneSt → LaneSt) : (s.modLane n f).ports = s.ports := rfl
@[simp] theorem State.modLane_dec (s : State) (n : Nat) (f : LaneSt → LaneSt) : (s.modLane n f).dec = s.dec := rfl
@[simp] theorem State.modLane_link (s : State) (n : Nat) (f : LaneSt → LaneSt) : (s.modLane n f).link = s.link := rfl
@[simp] theorem State.modLane_meter (s : State) (n : Nat) (f : LaneSt → LaneSt) : (s.modLane n f).meter = s.meter := rfl
@[simp] theorem State.modLane_fab (s : State) (n : Nat) (f : LaneSt → LaneSt) : (s.modLane n f).fab = s.fab := rfl
@[simp] theorem State.modLane_cores (s : State) (n : Nat) (f : LaneSt → LaneSt) : (s.modLane n f).cores = s.cores := rfl
@[simp] theorem State.modLane_radio (s : State) (n : Nat) (f : LaneSt → LaneSt) : (s.modLane n f).radio = s.radio := rfl
@[simp] theorem State.modLane_uarts (s : State) (n : Nat) (f : LaneSt → LaneSt) : (s.modLane n f).uarts = s.uarts := rfl
@[simp] theorem State.modLane_ctl (s : State) (n : Nat) (f : LaneSt → LaneSt) : (s.modLane n f).ctl = s.ctl := rfl
@[simp] theorem State.modLane_wd (s : State) (n : Nat) (f : LaneSt → LaneSt) : (s.modLane n f).wd = s.wd := rfl
@[simp] theorem State.modLane_iron (s : State) (n : Nat) (f : LaneSt → LaneSt) : (s.modLane n f).iron = s.iron := rfl
@[simp] theorem State.modLane_al (s : State) (n : Nat) (f : LaneSt → LaneSt) : (s.modLane n f).al = s.al := rfl
@[simp] theorem State.modLane_pm (s : State) (n : Nat) (f : LaneSt → LaneSt) : (s.modLane n f).pm = s.pm := rfl
@[simp] theorem State.modFeeder_pending (s : State) (n : Nat) (f : FeederSt → FeederSt) : (s.modFeeder n f).pending = s.pending := rfl
@[simp] theorem State.modFeeder_regs (s : State) (n : Nat) (f : FeederSt → FeederSt) : (s.modFeeder n f).regs = s.regs := rfl
@[simp] theorem State.modFeeder_sram (s : State) (n : Nat) (f : FeederSt → FeederSt) : (s.modFeeder n f).sram = s.sram := rfl
@[simp] theorem State.modFeeder_poison (s : State) (n : Nat) (f : FeederSt → FeederSt) : (s.modFeeder n f).poison = s.poison := rfl
@[simp] theorem State.modFeeder_upsets (s : State) (n : Nat) (f : FeederSt → FeederSt) : (s.modFeeder n f).upsets = s.upsets := rfl
@[simp] theorem State.modFeeder_freeCtr (s : State) (n : Nat) (f : FeederSt → FeederSt) : (s.modFeeder n f).freeCtr = s.freeCtr := rfl
@[simp] theorem State.modFeeder_hp (s : State) (n : Nat) (f : FeederSt → FeederSt) : (s.modFeeder n f).hp = s.hp := rfl
@[simp] theorem State.modFeeder_pool (s : State) (n : Nat) (f : FeederSt → FeederSt) : (s.modFeeder n f).pool = s.pool := rfl
@[simp] theorem State.modFeeder_ports (s : State) (n : Nat) (f : FeederSt → FeederSt) : (s.modFeeder n f).ports = s.ports := rfl
@[simp] theorem State.modFeeder_lanes (s : State) (n : Nat) (f : FeederSt → FeederSt) : (s.modFeeder n f).lanes = s.lanes := rfl
@[simp] theorem State.modFeeder_dec (s : State) (n : Nat) (f : FeederSt → FeederSt) : (s.modFeeder n f).dec = s.dec := rfl
@[simp] theorem State.modFeeder_link (s : State) (n : Nat) (f : FeederSt → FeederSt) : (s.modFeeder n f).link = s.link := rfl
@[simp] theorem State.modFeeder_fab (s : State) (n : Nat) (f : FeederSt → FeederSt) : (s.modFeeder n f).fab = s.fab := rfl
@[simp] theorem State.modFeeder_cores (s : State) (n : Nat) (f : FeederSt → FeederSt) : (s.modFeeder n f).cores = s.cores := rfl
@[simp] theorem State.modFeeder_radio (s : State) (n : Nat) (f : FeederSt → FeederSt) : (s.modFeeder n f).radio = s.radio := rfl
@[simp] theorem State.modFeeder_uarts (s : State) (n : Nat) (f : FeederSt → FeederSt) : (s.modFeeder n f).uarts = s.uarts := rfl
@[simp] theorem State.modFeeder_ctl (s : State) (n : Nat) (f : FeederSt → FeederSt) : (s.modFeeder n f).ctl = s.ctl := rfl
@[simp] theorem State.modFeeder_wd (s : State) (n : Nat) (f : FeederSt → FeederSt) : (s.modFeeder n f).wd = s.wd := rfl
@[simp] theorem State.modFeeder_iron (s : State) (n : Nat) (f : FeederSt → FeederSt) : (s.modFeeder n f).iron = s.iron := rfl
@[simp] theorem State.modFeeder_al (s : State) (n : Nat) (f : FeederSt → FeederSt) : (s.modFeeder n f).al = s.al := rfl
@[simp] theorem State.modFeeder_pm (s : State) (n : Nat) (f : FeederSt → FeederSt) : (s.modFeeder n f).pm = s.pm := rfl
@[simp] theorem State.modCore_pending (s : State) (k : Nat) (f : CoreSt → CoreSt) : (s.modCore k f).pending = s.pending := rfl
@[simp] theorem State.modCore_regs (s : State) (k : Nat) (f : CoreSt → CoreSt) : (s.modCore k f).regs = s.regs := rfl
@[simp] theorem State.modCore_sram (s : State) (k : Nat) (f : CoreSt → CoreSt) : (s.modCore k f).sram = s.sram := rfl
@[simp] theorem State.modCore_poison (s : State) (k : Nat) (f : CoreSt → CoreSt) : (s.modCore k f).poison = s.poison := rfl
@[simp] theorem State.modCore_upsets (s : State) (k : Nat) (f : CoreSt → CoreSt) : (s.modCore k f).upsets = s.upsets := rfl
@[simp] theorem State.modCore_freeCtr (s : State) (k : Nat) (f : CoreSt → CoreSt) : (s.modCore k f).freeCtr = s.freeCtr := rfl
@[simp] theorem State.modCore_hp (s : State) (k : Nat) (f : CoreSt → CoreSt) : (s.modCore k f).hp = s.hp := rfl
@[simp] theorem State.modCore_pool (s : State) (k : Nat) (f : CoreSt → CoreSt) : (s.modCore k f).pool = s.pool := rfl
@[simp] theorem State.modCore_ports (s : State) (k : Nat) (f : CoreSt → CoreSt) : (s.modCore k f).ports = s.ports := rfl
@[simp] theorem State.modCore_lanes (s : State) (k : Nat) (f : CoreSt → CoreSt) : (s.modCore k f).lanes = s.lanes := rfl
@[simp] theorem State.modCore_dec (s : State) (k : Nat) (f : CoreSt → CoreSt) : (s.modCore k f).dec = s.dec := rfl
@[simp] theorem State.modCore_link (s : State) (k : Nat) (f : CoreSt → CoreSt) : (s.modCore k f).link = s.link := rfl
@[simp] theorem State.modCore_meter (s : State) (k : Nat) (f : CoreSt → CoreSt) : (s.modCore k f).meter = s.meter := rfl
@[simp] theorem State.modCore_fab (s : State) (k : Nat) (f : CoreSt → CoreSt) : (s.modCore k f).fab = s.fab := rfl
@[simp] theorem State.modCore_radio (s : State) (k : Nat) (f : CoreSt → CoreSt) : (s.modCore k f).radio = s.radio := rfl
@[simp] theorem State.modCore_uarts (s : State) (k : Nat) (f : CoreSt → CoreSt) : (s.modCore k f).uarts = s.uarts := rfl
@[simp] theorem State.modCore_ctl (s : State) (k : Nat) (f : CoreSt → CoreSt) : (s.modCore k f).ctl = s.ctl := rfl
@[simp] theorem State.modCore_wd (s : State) (k : Nat) (f : CoreSt → CoreSt) : (s.modCore k f).wd = s.wd := rfl
@[simp] theorem State.modCore_iron (s : State) (k : Nat) (f : CoreSt → CoreSt) : (s.modCore k f).iron = s.iron := rfl
@[simp] theorem State.modCore_al (s : State) (k : Nat) (f : CoreSt → CoreSt) : (s.modCore k f).al = s.al := rfl
@[simp] theorem State.modCore_pm (s : State) (k : Nat) (f : CoreSt → CoreSt) : (s.modCore k f).pm = s.pm := rfl
@[simp] theorem State.modRlink_pending (s : State) (c : Nat) (f : RfLink → RfLink) : (s.modRlink c f).pending = s.pending := rfl
@[simp] theorem State.modRlink_regs (s : State) (c : Nat) (f : RfLink → RfLink) : (s.modRlink c f).regs = s.regs := rfl
@[simp] theorem State.modRlink_sram (s : State) (c : Nat) (f : RfLink → RfLink) : (s.modRlink c f).sram = s.sram := rfl
@[simp] theorem State.modRlink_poison (s : State) (c : Nat) (f : RfLink → RfLink) : (s.modRlink c f).poison = s.poison := rfl
@[simp] theorem State.modRlink_upsets (s : State) (c : Nat) (f : RfLink → RfLink) : (s.modRlink c f).upsets = s.upsets := rfl
@[simp] theorem State.modRlink_freeCtr (s : State) (c : Nat) (f : RfLink → RfLink) : (s.modRlink c f).freeCtr = s.freeCtr := rfl
@[simp] theorem State.modRlink_hp (s : State) (c : Nat) (f : RfLink → RfLink) : (s.modRlink c f).hp = s.hp := rfl
@[simp] theorem State.modRlink_pool (s : State) (c : Nat) (f : RfLink → RfLink) : (s.modRlink c f).pool = s.pool := rfl
@[simp] theorem State.modRlink_ports (s : State) (c : Nat) (f : RfLink → RfLink) : (s.modRlink c f).ports = s.ports := rfl
@[simp] theorem State.modRlink_lanes (s : State) (c : Nat) (f : RfLink → RfLink) : (s.modRlink c f).lanes = s.lanes := rfl
@[simp] theorem State.modRlink_dec (s : State) (c : Nat) (f : RfLink → RfLink) : (s.modRlink c f).dec = s.dec := rfl
@[simp] theorem State.modRlink_link (s : State) (c : Nat) (f : RfLink → RfLink) : (s.modRlink c f).link = s.link := rfl
@[simp] theorem State.modRlink_meter (s : State) (c : Nat) (f : RfLink → RfLink) : (s.modRlink c f).meter = s.meter := rfl
@[simp] theorem State.modRlink_fab (s : State) (c : Nat) (f : RfLink → RfLink) : (s.modRlink c f).fab = s.fab := rfl
@[simp] theorem State.modRlink_cores (s : State) (c : Nat) (f : RfLink → RfLink) : (s.modRlink c f).cores = s.cores := rfl
@[simp] theorem State.modRlink_uarts (s : State) (c : Nat) (f : RfLink → RfLink) : (s.modRlink c f).uarts = s.uarts := rfl
@[simp] theorem State.modRlink_ctl (s : State) (c : Nat) (f : RfLink → RfLink) : (s.modRlink c f).ctl = s.ctl := rfl
@[simp] theorem State.modRlink_wd (s : State) (c : Nat) (f : RfLink → RfLink) : (s.modRlink c f).wd = s.wd := rfl
@[simp] theorem State.modRlink_iron (s : State) (c : Nat) (f : RfLink → RfLink) : (s.modRlink c f).iron = s.iron := rfl
@[simp] theorem State.modRlink_al (s : State) (c : Nat) (f : RfLink → RfLink) : (s.modRlink c f).al = s.al := rfl
@[simp] theorem State.modRlink_pm (s : State) (c : Nat) (f : RfLink → RfLink) : (s.modRlink c f).pm = s.pm := rfl
@[simp] theorem State.modUart_pending (s : State) (u : Nat) (f : UartSt → UartSt) : (s.modUart u f).pending = s.pending := rfl
@[simp] theorem State.modUart_regs (s : State) (u : Nat) (f : UartSt → UartSt) : (s.modUart u f).regs = s.regs := rfl
@[simp] theorem State.modUart_sram (s : State) (u : Nat) (f : UartSt → UartSt) : (s.modUart u f).sram = s.sram := rfl
@[simp] theorem State.modUart_poison (s : State) (u : Nat) (f : UartSt → UartSt) : (s.modUart u f).poison = s.poison := rfl
@[simp] theorem State.modUart_upsets (s : State) (u : Nat) (f : UartSt → UartSt) : (s.modUart u f).upsets = s.upsets := rfl
@[simp] theorem State.modUart_freeCtr (s : State) (u : Nat) (f : UartSt → UartSt) : (s.modUart u f).freeCtr = s.freeCtr := rfl
@[simp] theorem State.modUart_hp (s : State) (u : Nat) (f : UartSt → UartSt) : (s.modUart u f).hp = s.hp := rfl
@[simp] theorem State.modUart_pool (s : State) (u : Nat) (f : UartSt → UartSt) : (s.modUart u f).pool = s.pool := rfl
@[simp] theorem State.modUart_ports (s : State) (u : Nat) (f : UartSt → UartSt) : (s.modUart u f).ports = s.ports := rfl
@[simp] theorem State.modUart_lanes (s : State) (u : Nat) (f : UartSt → UartSt) : (s.modUart u f).lanes = s.lanes := rfl
@[simp] theorem State.modUart_dec (s : State) (u : Nat) (f : UartSt → UartSt) : (s.modUart u f).dec = s.dec := rfl
@[simp] theorem State.modUart_link (s : State) (u : Nat) (f : UartSt → UartSt) : (s.modUart u f).link = s.link := rfl
@[simp] theorem State.modUart_meter (s : State) (u : Nat) (f : UartSt → UartSt) : (s.modUart u f).meter = s.meter := rfl
@[simp] theorem State.modUart_fab (s : State) (u : Nat) (f : UartSt → UartSt) : (s.modUart u f).fab = s.fab := rfl
@[simp] theorem State.modUart_cores (s : State) (u : Nat) (f : UartSt → UartSt) : (s.modUart u f).cores = s.cores := rfl
@[simp] theorem State.modUart_radio (s : State) (u : Nat) (f : UartSt → UartSt) : (s.modUart u f).radio = s.radio := rfl
@[simp] theorem State.modUart_ctl (s : State) (u : Nat) (f : UartSt → UartSt) : (s.modUart u f).ctl = s.ctl := rfl
@[simp] theorem State.modUart_wd (s : State) (u : Nat) (f : UartSt → UartSt) : (s.modUart u f).wd = s.wd := rfl
@[simp] theorem State.modUart_iron (s : State) (u : Nat) (f : UartSt → UartSt) : (s.modUart u f).iron = s.iron := rfl
@[simp] theorem State.modUart_al (s : State) (u : Nat) (f : UartSt → UartSt) : (s.modUart u f).al = s.al := rfl
@[simp] theorem State.modUart_pm (s : State) (u : Nat) (f : UartSt → UartSt) : (s.modUart u f).pm = s.pm := rfl
@[simp] theorem State.modQueue_pending (s : State) (q : Nat) (f : QueueSt → QueueSt) : (s.modQueue q f).pending = s.pending := rfl
@[simp] theorem State.modQueue_regs (s : State) (q : Nat) (f : QueueSt → QueueSt) : (s.modQueue q f).regs = s.regs := rfl
@[simp] theorem State.modQueue_sram (s : State) (q : Nat) (f : QueueSt → QueueSt) : (s.modQueue q f).sram = s.sram := rfl
@[simp] theorem State.modQueue_poison (s : State) (q : Nat) (f : QueueSt → QueueSt) : (s.modQueue q f).poison = s.poison := rfl
@[simp] theorem State.modQueue_upsets (s : State) (q : Nat) (f : QueueSt → QueueSt) : (s.modQueue q f).upsets = s.upsets := rfl
@[simp] theorem State.modQueue_freeCtr (s : State) (q : Nat) (f : QueueSt → QueueSt) : (s.modQueue q f).freeCtr = s.freeCtr := rfl
@[simp] theorem State.modQueue_hp (s : State) (q : Nat) (f : QueueSt → QueueSt) : (s.modQueue q f).hp = s.hp := rfl
@[simp] theorem State.modQueue_ports (s : State) (q : Nat) (f : QueueSt → QueueSt) : (s.modQueue q f).ports = s.ports := rfl
@[simp] theorem State.modQueue_lanes (s : State) (q : Nat) (f : QueueSt → QueueSt) : (s.modQueue q f).lanes = s.lanes := rfl
@[simp] theorem State.modQueue_dec (s : State) (q : Nat) (f : QueueSt → QueueSt) : (s.modQueue q f).dec = s.dec := rfl
@[simp] theorem State.modQueue_link (s : State) (q : Nat) (f : QueueSt → QueueSt) : (s.modQueue q f).link = s.link := rfl
@[simp] theorem State.modQueue_meter (s : State) (q : Nat) (f : QueueSt → QueueSt) : (s.modQueue q f).meter = s.meter := rfl
@[simp] theorem State.modQueue_fab (s : State) (q : Nat) (f : QueueSt → QueueSt) : (s.modQueue q f).fab = s.fab := rfl
@[simp] theorem State.modQueue_cores (s : State) (q : Nat) (f : QueueSt → QueueSt) : (s.modQueue q f).cores = s.cores := rfl
@[simp] theorem State.modQueue_radio (s : State) (q : Nat) (f : QueueSt → QueueSt) : (s.modQueue q f).radio = s.radio := rfl
@[simp] theorem State.modQueue_uarts (s : State) (q : Nat) (f : QueueSt → QueueSt) : (s.modQueue q f).uarts = s.uarts := rfl
@[simp] theorem State.modQueue_ctl (s : State) (q : Nat) (f : QueueSt → QueueSt) : (s.modQueue q f).ctl = s.ctl := rfl
@[simp] theorem State.modQueue_wd (s : State) (q : Nat) (f : QueueSt → QueueSt) : (s.modQueue q f).wd = s.wd := rfl
@[simp] theorem State.modQueue_iron (s : State) (q : Nat) (f : QueueSt → QueueSt) : (s.modQueue q f).iron = s.iron := rfl
@[simp] theorem State.modQueue_al (s : State) (q : Nat) (f : QueueSt → QueueSt) : (s.modQueue q f).al = s.al := rfl
@[simp] theorem State.modQueue_pm (s : State) (q : Nat) (f : QueueSt → QueueSt) : (s.modQueue q f).pm = s.pm := rfl
@[simp] theorem State.setWin_pending (s : State) (w : Nat) (x : WinSt) : (s.setWin w x).pending = s.pending := rfl
@[simp] theorem State.setWin_regs (s : State) (w : Nat) (x : WinSt) : (s.setWin w x).regs = s.regs := rfl
@[simp] theorem State.setWin_sram (s : State) (w : Nat) (x : WinSt) : (s.setWin w x).sram = s.sram := rfl
@[simp] theorem State.setWin_poison (s : State) (w : Nat) (x : WinSt) : (s.setWin w x).poison = s.poison := rfl
@[simp] theorem State.setWin_upsets (s : State) (w : Nat) (x : WinSt) : (s.setWin w x).upsets = s.upsets := rfl
@[simp] theorem State.setWin_freeCtr (s : State) (w : Nat) (x : WinSt) : (s.setWin w x).freeCtr = s.freeCtr := rfl
@[simp] theorem State.setWin_hp (s : State) (w : Nat) (x : WinSt) : (s.setWin w x).hp = s.hp := rfl
@[simp] theorem State.setWin_ports (s : State) (w : Nat) (x : WinSt) : (s.setWin w x).ports = s.ports := rfl
@[simp] theorem State.setWin_lanes (s : State) (w : Nat) (x : WinSt) : (s.setWin w x).lanes = s.lanes := rfl
@[simp] theorem State.setWin_dec (s : State) (w : Nat) (x : WinSt) : (s.setWin w x).dec = s.dec := rfl
@[simp] theorem State.setWin_link (s : State) (w : Nat) (x : WinSt) : (s.setWin w x).link = s.link := rfl
@[simp] theorem State.setWin_meter (s : State) (w : Nat) (x : WinSt) : (s.setWin w x).meter = s.meter := rfl
@[simp] theorem State.setWin_fab (s : State) (w : Nat) (x : WinSt) : (s.setWin w x).fab = s.fab := rfl
@[simp] theorem State.setWin_cores (s : State) (w : Nat) (x : WinSt) : (s.setWin w x).cores = s.cores := rfl
@[simp] theorem State.setWin_radio (s : State) (w : Nat) (x : WinSt) : (s.setWin w x).radio = s.radio := rfl
@[simp] theorem State.setWin_uarts (s : State) (w : Nat) (x : WinSt) : (s.setWin w x).uarts = s.uarts := rfl
@[simp] theorem State.setWin_ctl (s : State) (w : Nat) (x : WinSt) : (s.setWin w x).ctl = s.ctl := rfl
@[simp] theorem State.setWin_wd (s : State) (w : Nat) (x : WinSt) : (s.setWin w x).wd = s.wd := rfl
@[simp] theorem State.setWin_iron (s : State) (w : Nat) (x : WinSt) : (s.setWin w x).iron = s.iron := rfl
@[simp] theorem State.setWin_al (s : State) (w : Nat) (x : WinSt) : (s.setWin w x).al = s.al := rfl
@[simp] theorem State.setWin_pm (s : State) (w : Nat) (x : WinSt) : (s.setWin w x).pm = s.pm := rfl
@[simp] theorem State.setSlot_pending (s : State) (i : Nat) (x : KeySlot) : (s.setSlot i x).pending = s.pending := rfl
@[simp] theorem State.setSlot_regs (s : State) (i : Nat) (x : KeySlot) : (s.setSlot i x).regs = s.regs := rfl
@[simp] theorem State.setSlot_sram (s : State) (i : Nat) (x : KeySlot) : (s.setSlot i x).sram = s.sram := rfl
@[simp] theorem State.setSlot_poison (s : State) (i : Nat) (x : KeySlot) : (s.setSlot i x).poison = s.poison := rfl
@[simp] theorem State.setSlot_upsets (s : State) (i : Nat) (x : KeySlot) : (s.setSlot i x).upsets = s.upsets := rfl
@[simp] theorem State.setSlot_freeCtr (s : State) (i : Nat) (x : KeySlot) : (s.setSlot i x).freeCtr = s.freeCtr := rfl
@[simp] theorem State.setSlot_hp (s : State) (i : Nat) (x : KeySlot) : (s.setSlot i x).hp = s.hp := rfl
@[simp] theorem State.setSlot_pool (s : State) (i : Nat) (x : KeySlot) : (s.setSlot i x).pool = s.pool := rfl
@[simp] theorem State.setSlot_ports (s : State) (i : Nat) (x : KeySlot) : (s.setSlot i x).ports = s.ports := rfl
@[simp] theorem State.setSlot_lanes (s : State) (i : Nat) (x : KeySlot) : (s.setSlot i x).lanes = s.lanes := rfl
@[simp] theorem State.setSlot_dec (s : State) (i : Nat) (x : KeySlot) : (s.setSlot i x).dec = s.dec := rfl
@[simp] theorem State.setSlot_link (s : State) (i : Nat) (x : KeySlot) : (s.setSlot i x).link = s.link := rfl
@[simp] theorem State.setSlot_meter (s : State) (i : Nat) (x : KeySlot) : (s.setSlot i x).meter = s.meter := rfl
@[simp] theorem State.setSlot_fab (s : State) (i : Nat) (x : KeySlot) : (s.setSlot i x).fab = s.fab := rfl
@[simp] theorem State.setSlot_cores (s : State) (i : Nat) (x : KeySlot) : (s.setSlot i x).cores = s.cores := rfl
@[simp] theorem State.setSlot_radio (s : State) (i : Nat) (x : KeySlot) : (s.setSlot i x).radio = s.radio := rfl
@[simp] theorem State.setSlot_uarts (s : State) (i : Nat) (x : KeySlot) : (s.setSlot i x).uarts = s.uarts := rfl
@[simp] theorem State.setSlot_ctl (s : State) (i : Nat) (x : KeySlot) : (s.setSlot i x).ctl = s.ctl := rfl
@[simp] theorem State.setSlot_iron (s : State) (i : Nat) (x : KeySlot) : (s.setSlot i x).iron = s.iron := rfl
@[simp] theorem State.setSlot_al (s : State) (i : Nat) (x : KeySlot) : (s.setSlot i x).al = s.al := rfl
@[simp] theorem State.setSlot_pm (s : State) (i : Nat) (x : KeySlot) : (s.setSlot i x).pm = s.pm := rfl
@[simp] theorem State.setPart_pending (s : State) (a : Nat) (l : List Byte) : (s.setPart a l).pending = s.pending := by
  simp only [State.setPart]; split <;> simp
@[simp] theorem State.setPart_regs (s : State) (a : Nat) (l : List Byte) : (s.setPart a l).regs = s.regs := by
  simp only [State.setPart]; split <;> simp
@[simp] theorem State.setPart_freeCtr (s : State) (a : Nat) (l : List Byte) : (s.setPart a l).freeCtr = s.freeCtr := by
  simp only [State.setPart]; split <;> simp
@[simp] theorem State.setPart_hp (s : State) (a : Nat) (l : List Byte) : (s.setPart a l).hp = s.hp := by
  simp only [State.setPart]; split <;> simp
@[simp] theorem State.setPart_pool (s : State) (a : Nat) (l : List Byte) : (s.setPart a l).pool = s.pool := by
  simp only [State.setPart]; split <;> simp
@[simp] theorem State.setPart_ports (s : State) (a : Nat) (l : List Byte) : (s.setPart a l).ports = s.ports := by
  simp only [State.setPart]; split <;> simp
@[simp] theorem State.setPart_lanes (s : State) (a : Nat) (l : List Byte) : (s.setPart a l).lanes = s.lanes := by
  simp only [State.setPart]; split <;> simp
@[simp] theorem State.setPart_dec (s : State) (a : Nat) (l : List Byte) : (s.setPart a l).dec = s.dec := by
  simp only [State.setPart]; split <;> simp
@[simp] theorem State.setPart_link (s : State) (a : Nat) (l : List Byte) : (s.setPart a l).link = s.link := by
  simp only [State.setPart]; split <;> simp
@[simp] theorem State.setPart_meter (s : State) (a : Nat) (l : List Byte) : (s.setPart a l).meter = s.meter := by
  simp only [State.setPart]; split <;> simp
@[simp] theorem State.setPart_fab (s : State) (a : Nat) (l : List Byte) : (s.setPart a l).fab = s.fab := by
  simp only [State.setPart]; split <;> simp
@[simp] theorem State.setPart_cores (s : State) (a : Nat) (l : List Byte) : (s.setPart a l).cores = s.cores := by
  simp only [State.setPart]; split <;> simp
@[simp] theorem State.setPart_radio (s : State) (a : Nat) (l : List Byte) : (s.setPart a l).radio = s.radio := by
  simp only [State.setPart]; split <;> simp
@[simp] theorem State.setPart_uarts (s : State) (a : Nat) (l : List Byte) : (s.setPart a l).uarts = s.uarts := by
  simp only [State.setPart]; split <;> simp
@[simp] theorem State.setPart_ctl (s : State) (a : Nat) (l : List Byte) : (s.setPart a l).ctl = s.ctl := by
  simp only [State.setPart]; split <;> simp
@[simp] theorem State.setPart_wd (s : State) (a : Nat) (l : List Byte) : (s.setPart a l).wd = s.wd := by
  simp only [State.setPart]; split <;> simp
@[simp] theorem State.setPart_iron (s : State) (a : Nat) (l : List Byte) : (s.setPart a l).iron = s.iron := by
  simp only [State.setPart]; split <;> simp
@[simp] theorem State.setPart_al (s : State) (a : Nat) (l : List Byte) : (s.setPart a l).al = s.al := by
  simp only [State.setPart]; split <;> simp
@[simp] theorem State.setPart_pm (s : State) (a : Nat) (l : List Byte) : (s.setPart a l).pm = s.pm := by
  simp only [State.setPart]; split <;> simp

/-! ### Registers -/

/-- A register reads as what was written to it, and no other register changes. -/
theorem State.reg_setReg (s : State) (a b : Nat) (v : Word) : (s.setReg a v).reg b = if b = a then v else s.reg b := by
  simp only [State.reg, State.setReg, mget_mset]

@[simp] theorem State.reg_setReg_self (s : State) (a : Nat) (v : Word) : (s.setReg a v).reg a = v := by simp [State.reg_setReg]

theorem State.reg_setReg_ne (s : State) {a b : Nat} (v : Word) (h : b ≠ a) : (s.setReg a v).reg b = s.reg b := by
  simp [State.reg_setReg, h]

/-- A field put into one register leaves the others alone. -/
theorem State.reg_put_ne (s : State) (f : Fld) (v : Nat) {b : Nat} (h : b ≠ f.addr) : (s.put f v).reg b = s.reg b :=
  State.reg_setReg_ne s _ h

theorem toNat_put (s : State) (f : Fld) (v : Nat) (h : f.lo ≤ f.hi + 1) (h' : f.hi < 32) :
    ((s.put f v).reg f.addr).toNat = putBits (s.reg f.addr).toNat f.hi f.lo v := by
  simp only [State.put, State.reg_setReg_self, BitVec.toNat_ofNat]
  exact Nat.mod_eq_of_lt (putBits_lt _ _ _ _ 32 h (s.reg f.addr).isLt h')

/-- A field reads as what was put into it, cut to its width. -/
theorem State.get_put_same (s : State) (f : Fld) (v : Nat) (h : f.lo ≤ f.hi + 1) (h' : f.hi < 32) :
    (s.put f v).get f = v % 2 ^ (f.hi + 1 - f.lo) := by
  simp only [State.get, toNat_put s f v h h', bits_putBits_same _ _ _ _ h]

/-- A field of another register does not change. -/
theorem State.get_put_ne (s : State) (f g : Fld) (v : Nat) (h : g.addr ≠ f.addr) : (s.put f v).get g = s.get g := by
  simp only [State.get, State.reg_put_ne s f v h]

/-- A field above or below in the same register does not change. -/
theorem State.get_put_apart (s : State) (f g : Fld) (v : Nat) (ha : g.addr = f.addr) (h : f.lo ≤ f.hi + 1) (h' : f.hi < 32)
    (hg : g.lo ≤ g.hi) (hd : f.hi < g.lo ∨ g.hi < f.lo) : (s.put f v).get g = s.get g := by
  simp only [State.get, ha, toNat_put s f v h h']
  rcases hd with hd | hd
  · exact bits_putBits_above _ _ _ _ _ _ h hd
  · exact bits_putBits_below _ _ _ _ _ _ h hd hg

/-! ### Parts kept by number -/

/-- A change of port `p` is read there alone. -/
theorem State.port_modPort (s : State) (p q : Nat) (f : PortSt → PortSt) : (s.modPort p f).port q = if q = p then f (s.port p) else s.port q := by
  simp only [State.port, State.modPort, mmod, mget_mset]

/-- A change of lane `p` is read there alone. -/
theorem State.lane_modLane (s : State) (p q : Nat) (f : LaneSt → LaneSt) : (s.modLane p f).lane q = if q = p then f (s.lane p) else s.lane q := by
  simp only [State.lane, State.modLane, mmod, mget_mset]

/-- A change of core `p` is read there alone. -/
theorem State.core_modCore (s : State) (p q : Nat) (f : CoreSt → CoreSt) : (s.modCore p f).core q = if q = p then f (s.core p) else s.core q := by
  simp only [State.core, State.modCore, mmod, mget_mset]

/-- A change of uart `p` is read there alone. -/
theorem State.uart_modUart (s : State) (p q : Nat) (f : UartSt → UartSt) : (s.modUart p f).uart q = if q = p then f (s.uart p) else s.uart q := by
  simp only [State.uart, State.modUart, mmod, mget_mset]

/-- A change of feeder `p` is read there alone. -/
theorem State.feeder_modFeeder (s : State) (p q : Nat) (f : FeederSt → FeederSt) : (s.modFeeder p f).feeder q = if q = p then f (s.feeder p) else s.feeder q := by
  simp only [State.feeder, State.modFeeder, mmod, mget_mset]

/-- A change of rlink `p` is read there alone. -/
theorem State.rlink_modRlink (s : State) (p q : Nat) (f : RfLink → RfLink) : (s.modRlink p f).rlink q = if q = p then f (s.rlink p) else s.rlink q := by
  simp only [State.rlink, State.modRlink, mmod, mget_mset]

/-- A change of queue `p` is read there alone. -/
theorem State.queue_modQueue (s : State) (p q : Nat) (f : QueueSt → QueueSt) : (s.modQueue p f).queue q = if q = p then f (s.queue p) else s.queue q := by
  simp only [State.queue, State.modQueue, mmod, mget_mset]

/-! ### SRAM -/

/-- A byte outside a write reads as before. -/
theorem memWrite_out (m : Memory) (a : Nat) (l : List Byte) (x : Nat) (h : x < a ∨ a + l.length ≤ x) :
    mget memDefault (memWrite m a l) x = mget memDefault m x := by
  induction l generalizing m a with
  | nil => rfl
  | cons b t ih =>
    simp only [memWrite]
    rw [ih _ (a + 1) (by simp at h; omega), mget_mset_ne _ _ _ (by simp at h; omega)]

theorem State.byte_setBytes_out (s : State) (a : Nat) (l : List Byte) (x : Nat) (h : x < a ∨ a + l.length ≤ x) :
    (s.setBytes a l).byte x = s.byte x := memWrite_out s.sram a l x h

/-- Byte i of a write reads back. -/
theorem memWrite_in (m : Memory) (a : Nat) (l : List Byte) (i : Nat) (h : i < l.length) :
    mget memDefault (memWrite m a l) (a + i) = l[i] := by
  induction l generalizing m a i with
  | nil => simp at h
  | cons b t ih =>
    simp only [memWrite]
    cases i with
    | zero => rw [memWrite_out _ _ _ _ (by omega)]; simp
    | succ i =>
      have := ih (mset memDefault m a b) (a + 1) i (by simpa using h)
      rw [show a + (i + 1) = a + 1 + i by omega, this]
      rfl

/-- Every memory operation keeps the canonical form: writing bytes. -/
theorem memWrite_wf (m : Memory) (a : Nat) (l : List Byte) (h : Memory.wf m = true) : Memory.wf (memWrite m a l) = true := by
  induction l generalizing m a with
  | nil => exact h
  | cons b t ih => exact ih _ (a + 1) (mwf_mset _ _ _ _ h)

theorem State.setBytes_wf (s : State) (a : Nat) (l : List Byte) (h : Memory.wf s.sram = true) : Memory.wf (s.setBytes a l).sram = true :=
  memWrite_wf _ _ _ h

theorem State.setWord_wf (s : State) (a : Nat) (l : List Byte) (h : Memory.wf s.sram = true) : Memory.wf (s.setWord a l).sram = true :=
  memWrite_wf _ _ _ h

theorem State.setPart_wf (s : State) (a : Nat) (l : List Byte) (h : Memory.wf s.sram = true) : Memory.wf (s.setPart a l).sram = true := by
  unfold State.setPart
  split
  · show Memory.wf ((s.setBytes (wordAddr a) (List.replicate 32 0#8)).setBytes a l).sram = true
    exact State.setBytes_wf _ _ _ (State.setBytes_wf _ _ _ h)
  · exact memWrite_wf _ _ _ h

theorem State.setSpanFuel_wf (n : Nat) (s : State) (a : Nat) (l : List Byte) (h : Memory.wf s.sram = true) :
    Memory.wf (State.setSpanFuel n s a l).sram = true := by
  induction n generalizing s a l with
  | zero => exact h
  | succ n ih =>
    simp only [State.setSpanFuel]
    split
    · exact h
    · apply ih
      split
      · exact State.setWord_wf _ _ _ h
      · exact State.setPart_wf _ _ _ h

theorem State.setSpan_wf (s : State) (a : Nat) (l : List Byte) (h : Memory.wf s.sram = true) : Memory.wf (s.setSpan a l).sram = true :=
  State.setSpanFuel_wf _ s a l h

end Sys2Proof.Machine
end

