-- ==== Sys2Proof/Laws/Access.lean ====
section
/-! SUPPORT. Laws of register accesses: a write that reaches the device has its effect, and a read's answer changes only what the
host was last driven. -/

namespace Sys2Proof.Machine

/-- A write that reaches the device and is not in the scope of a partial cast has its effect. -/
theorem State.enter_of_writable (s : State) (who : Accessor) (a : Nat) (f : State → State) (h : Writable s who a) :
    s.enter who a f = f s := by
  obtain ⟨h1, h2⟩ := h
  cases who with
  | host => simp [State.enter, h1, h2 rfl]
  | core k => simp [State.enter, h1]

/-- A write that does not reach the device changes nothing. -/
theorem State.enter_of_not_reach (s : State) (who : Accessor) (a : Nat) (f : State → State) (h : s.reach who = false) :
    s.enter who a f = s := by
  simp [State.enter, h]

/-- A host write into the scope of a partial cast is discarded with a REFUSED event (R176). -/
theorem State.enter_in_scope (s : State) (a : Nat) (f : State → State) (h : s.reach .host = true) (h' : s.inScope a = true) :
    s.enter .host a f = s.refuse .host a stNotPermitted := by
  simp [State.enter, h, h']

@[simp] theorem State.answer_reg (s : State) (who : Accessor) (v : Word) (a : Nat) : (s.answer who v).reg a = s.reg a := by
  cases who <;> rfl

@[simp] theorem State.answer_core (s : State) (k : Core) (v : Word) : s.answer (.core k) v = s := rfl

@[simp] theorem State.answer_out (s : State) (v : Word) : (s.answer .host v).hp.out = [v] := rfl

end Sys2Proof.Machine
end

