-- ==== Sys2Proof/Laws/PerInstr.lean ====
section
/-! SUPPORT. Laws said of each command by itself: the OP of a sequencer instruction's word is at most 0x1E. -/

namespace Sys2Proof.Laws

open Sys2Proof Sys2Proof.Machine

set_option Elab.async false

theorem wordR_lt {fn : Nat} (rd ra rb : Sreg) (h : fn < 32) : wordR fn rd ra rb < 31 * 2 ^ 26 := by unfold wordR; omega
theorem wordI_lt {op : Nat} (x y : Sreg) (imm : Half) (h : op < 31) : wordI op x y imm < 31 * 2 ^ 26 := by
  have := imm.isLt; unfold wordI; omega
theorem wordShk_lt {op : Nat} (rd ra : Sreg) (sh : ShAmt) (h : op < 4) : wordShk op rd ra sh < 31 * 2 ^ 26 := by unfold wordShk; omega
theorem wordA_lt {fn : Nat} (r1 r2 : Sreg) (ad src : AccN) (sh : ShAmt) (h : fn < 16) : wordA fn r1 r2 ad src sh < 31 * 2 ^ 26 := by
  unfold wordA; omega
theorem wordQ_lt {fn : Nat} (rd ra rb : Sreg) (h : fn < 16) : wordQ fn rd ra rb < 31 * 2 ^ 26 := by unfold wordQ; omega
theorem wordT_lt {fn : Nat} (r : Sreg) (p : StreamP) (h : fn < 16) : wordT fn r p < 31 * 2 ^ 26 := by unfold wordT; omega
theorem wordY_lt {fn : Nat} (rd ra : Sreg) (i : Cix) (h : fn < 16) : wordY fn rd ra i < 31 * 2 ^ 26 := by unfold wordY; omega

/-- The word that seqWord gives a command, if it gives one, has an OP of at most 0x1E (R182 to R186). -/
def SeqWord.Statement (i : Instr) : Prop := ∀ k w, seqWord i = some (k, w) → w < 31 * 2 ^ 26

theorem SeqWord.registerWrite (who : Accessor) (addr : Word) (value : Word) : SeqWord.Statement (.registerWrite who addr value) := by
  intro _ _ h; simp [seqWord] at h
theorem SeqWord.holeAccess (who : Accessor) (addr : Word) (isWrite : Bool) : SeqWord.Statement (.holeAccess who addr isWrite) := by
  intro _ _ h; simp [seqWord] at h
theorem SeqWord.rcCounterRead (who : Accessor) (addr : Word) : SeqWord.Statement (.rcCounterRead who addr) := by
  intro _ _ h; simp [seqWord] at h
theorem SeqWord.seqLpendRead (who : Accessor) (k : Core) : SeqWord.Statement (.seqLpendRead who k) := by
  intro _ _ h; simp [seqWord] at h
theorem SeqWord.rtcRead (who : Accessor) : SeqWord.Statement (.rtcRead who) := by
  intro _ _ h; simp [seqWord] at h
theorem SeqWord.swapRequest (who : Accessor) (p : Port) (value : Word) : SeqWord.Statement (.swapRequest who p value) := by
  intro _ _ h; simp [seqWord] at h
theorem SeqWord.fadeComplete (p : Port) : SeqWord.Statement (.fadeComplete p) := by
  intro _ _ h; simp [seqWord] at h
theorem SeqWord.coefWrite (who : Accessor) (p : Port) (value : Word) : SeqWord.Statement (.coefWrite who p value) := by
  intro _ _ h; simp [seqWord] at h
theorem SeqWord.coefRead (who : Accessor) (p : Port) : SeqWord.Statement (.coefRead who p) := by
  intro _ _ h; simp [seqWord] at h
theorem SeqWord.slotBoundary (p : Port) (old : Bool) (m : SlotMeasure) : SeqWord.Statement (.slotBoundary p old m) := by
  intro _ _ h; simp [seqWord] at h
theorem SeqWord.cancReset (who : Accessor) (p : Port) (value : Word) : SeqWord.Statement (.cancReset who p value) := by
  intro _ _ h; simp [seqWord] at h
theorem SeqWord.pgaTagArrival (n : LaneN) (code : PgaCode) (withDetect : Bool) : SeqWord.Statement (.pgaTagArrival n code withDetect) := by
  intro _ _ h; simp [seqWord] at h
theorem SeqWord.txenAssert (p : Port) : SeqWord.Statement (.txenAssert p) := by
  intro _ _ h; simp [seqWord] at h
theorem SeqWord.txenTailExpiry (p : Port) : SeqWord.Statement (.txenTailExpiry p) := by
  intro _ _ h; simp [seqWord] at h
theorem SeqWord.overcurrent (p : Port) (mag : Nat) (samples : Nat) : SeqWord.Statement (.overcurrent p mag samples) := by
  intro _ _ h; simp [seqWord] at h
theorem SeqWord.zprobeStart (who : Accessor) (p : Port) (value : Word) : SeqWord.Statement (.zprobeStart who p value) := by
  intro _ _ h; simp [seqWord] at h
theorem SeqWord.zprobeDone (p : Port) (vm : Nat) (im : Nat) (phase : Int) : SeqWord.Statement (.zprobeDone p vm im phase) := by
  intro _ _ h; simp [seqWord] at h
theorem SeqWord.preambleDetect (n : LaneN) (power : Nat) (levels : List Int) : SeqWord.Statement (.preambleDetect n power levels) := by
  intro _ _ h; simp [seqWord] at h
theorem SeqWord.fofsLoad (n : LaneN) (fofs : Int) : SeqWord.Statement (.fofsLoad n fofs) := by
  intro _ _ h; simp [seqWord] at h
theorem SeqWord.syncSearchTimeout (n : LaneN) : SeqWord.Statement (.syncSearchTimeout n) := by
  intro _ _ h; simp [seqWord] at h
theorem SeqWord.syncDetect (n : LaneN) (main : Option SyncSeen) (shadow : Option SyncSeen) : SeqWord.Statement (.syncDetect n main shadow) := by
  intro _ _ h; simp [seqWord] at h
theorem SeqWord.shadowSyncDetect (n : LaneN) (y : SyncSeen) (gain : Int) : SeqWord.Statement (.shadowSyncDetect n y gain) := by
  intro _ _ h; simp [seqWord] at h
theorem SeqWord.headerEnd (n : LaneN) (ys : List Int) : SeqWord.Statement (.headerEnd n ys) := by
  intro _ _ h; simp [seqWord] at h
theorem SeqWord.decodeDispatch (tile : Tile) : SeqWord.Statement (.decodeDispatch tile) := by
  intro _ _ h; simp [seqWord] at h
theorem SeqWord.headerDecodeDone (tile : Tile) : SeqWord.Statement (.headerDecodeDone tile) := by
  intro _ _ h; simp [seqWord] at h
theorem SeqWord.payloadEnd (n : LaneN) (ys : List Int) (snr : Int) : SeqWord.Statement (.payloadEnd n ys snr) := by
  intro _ _ h; simp [seqWord] at h
theorem SeqWord.payloadDecodeDone (tile : Tile) : SeqWord.Statement (.payloadDecodeDone tile) := by
  intro _ _ h; simp [seqWord] at h
theorem SeqWord.laneEnable (who : Accessor) (n : LaneN) (value : Word) : SeqWord.Statement (.laneEnable who n value) := by
  intro _ _ h; simp [seqWord] at h
theorem SeqWord.mainsZeroCrossing (p : Port) (t : Nat) : SeqWord.Statement (.mainsZeroCrossing p t) := by
  intro _ _ h; simp [seqWord] at h
theorem SeqWord.crossingMissed (p : Port) : SeqWord.Statement (.crossingMissed p) := by
  intro _ _ h; simp [seqWord] at h
theorem SeqWord.portCycleStart (p : Port) : SeqWord.Statement (.portCycleStart p) := by
  intro _ _ h; simp [seqWord] at h
theorem SeqWord.maskArm (who : Accessor) (n : LaneN) (value : Word) : SeqWord.Statement (.maskArm who n value) := by
  intro _ _ h; simp [seqWord] at h
theorem SeqWord.nmapClear (who : Accessor) (p : Port) (value : Word) : SeqWord.Statement (.nmapClear who p value) := by
  intro _ _ h; simp [seqWord] at h
theorem SeqWord.nmapDataRead (who : Accessor) (p : Port) : SeqWord.Statement (.nmapDataRead who p) := by
  intro _ _ h; simp [seqWord] at h
theorem SeqWord.allocationPoint (p : Port) : SeqWord.Statement (.allocationPoint p) := by
  intro _ _ h; simp [seqWord] at h
theorem SeqWord.txItemHeadCheck (n : LaneN) : SeqWord.Statement (.txItemHeadCheck n) := by
  intro _ _ h; simp [seqWord] at h
theorem SeqWord.txFrameStart (p : Port) (ctx : Ctx) : SeqWord.Statement (.txFrameStart p ctx) := by
  intro _ _ h; simp [seqWord] at h
theorem SeqWord.txFrameEnd (p : Port) (ctx : Ctx) : SeqWord.Statement (.txFrameEnd p ctx) := by
  intro _ _ h; simp [seqWord] at h
theorem SeqWord.laneBlockEnd (p : Port) (k : LaneK) : SeqWord.Statement (.laneBlockEnd p k) := by
  intro _ _ h; simp [seqWord] at h
theorem SeqWord.linkRxData : SeqWord.Statement (.linkRxData) := by
  intro _ _ h; simp [seqWord] at h
theorem SeqWord.linkRxAck : SeqWord.Statement (.linkRxAck) := by
  intro _ _ h; simp [seqWord] at h
theorem SeqWord.joinReqRx : SeqWord.Statement (.joinReqRx) := by
  intro _ _ h; simp [seqWord] at h
theorem SeqWord.joinAckLate (p : Port) : SeqWord.Statement (.joinAckLate p) := by
  intro _ _ h; simp [seqWord] at h
theorem SeqWord.echoForwardRx : SeqWord.Statement (.echoForwardRx) := by
  intro _ _ h; simp [seqWord] at h
theorem SeqWord.ackTimeout (tag : TagN) : SeqWord.Statement (.ackTimeout tag) := by
  intro _ _ h; simp [seqWord] at h
theorem SeqWord.retryBackoffEnd (tag : TagN) (p : Port) : SeqWord.Statement (.retryBackoffEnd tag p) := by
  intro _ _ h; simp [seqWord] at h
theorem SeqWord.epochRaise (who : Accessor) (value : Word) : SeqWord.Statement (.epochRaise who value) := by
  intro _ _ h; simp [seqWord] at h
theorem SeqWord.registryWord0Write (addr : Word) (value : Word) : SeqWord.Statement (.registryWord0Write addr value) := by
  intro _ _ h; simp [seqWord] at h
theorem SeqWord.lpJoinWrite (who : Accessor) (p : Port) (value : Word) : SeqWord.Statement (.lpJoinWrite who p value) := by
  intro _ _ h; simp [seqWord] at h
theorem SeqWord.meteringCycleEnd (v : VChan) (t : Nat) : SeqWord.Statement (.meteringCycleEnd v t) := by
  intro _ _ h; simp [seqWord] at h
theorem SeqWord.forcedCycleBoundary (f : Feeder) : SeqWord.Statement (.forcedCycleBoundary f) := by
  intro _ _ h; simp [seqWord] at h
theorem SeqWord.syncResetWrite (who : Accessor) (value : Word) : SeqWord.Statement (.syncResetWrite who value) := by
  intro _ _ h; simp [seqWord] at h
theorem SeqWord.syncMInput (rising : Bool) : SeqWord.Statement (.syncMInput rising) := by
  intro _ _ h; simp [seqWord] at h
theorem SeqWord.synchronisingReset : SeqWord.Statement (.synchronisingReset) := by
  intro _ _ h; simp [seqWord] at h
theorem SeqWord.settleEnd : SeqWord.Statement (.settleEnd) := by
  intro _ _ h; simp [seqWord] at h
theorem SeqWord.fineqWordWrite (c : Chan) : SeqWord.Statement (.fineqWordWrite c) := by
  intro _ _ h; simp [seqWord] at h
theorem SeqWord.mtSnapshotRead (who : Accessor) (f : Feeder) : SeqWord.Statement (.mtSnapshotRead who f) := by
  intro _ _ h; simp [seqWord] at h
theorem SeqWord.balReportPacket : SeqWord.Statement (.balReportPacket) := by
  intro _ _ h; simp [seqWord] at h
theorem SeqWord.balResultCommit : SeqWord.Statement (.balResultCommit) := by
  intro _ _ h; simp [seqWord] at h
theorem SeqWord.queueWordWrite (prod : Producer) (q : QId) (word : Line) : SeqWord.Statement (.queueWordWrite prod q word) := by
  intro _ _ h; simp [seqWord] at h
theorem SeqWord.flush (who : Accessor) (q : QId) : SeqWord.Statement (.flush who q) := by
  intro _ _ h; simp [seqWord] at h
theorem SeqWord.dropRest (who : Accessor) (q : QId) : SeqWord.Statement (.dropRest who q) := by
  intro _ _ h; simp [seqWord] at h
theorem SeqWord.winCfgWrite (who : Accessor) (w : Win) (value : Word) : SeqWord.Statement (.winCfgWrite who w value) := by
  intro _ _ h; simp [seqWord] at h
theorem SeqWord.winDataWrite (w : Win) (value : Word) : SeqWord.Statement (.winDataWrite w value) := by
  intro _ _ h; simp [seqWord] at h
theorem SeqWord.winDataRead (w : Win) (ecc : Ecc) : SeqWord.Statement (.winDataRead w ecc) := by
  intro _ _ h; simp [seqWord] at h
theorem SeqWord.winEmptyTimeout (w : Win) : SeqWord.Statement (.winEmptyTimeout w) := by
  intro _ _ h; simp [seqWord] at h
theorem SeqWord.winRewind (w : Win) : SeqWord.Statement (.winRewind w) := by
  intro _ _ h; simp [seqWord] at h
theorem SeqWord.winDropRest (w : Win) : SeqWord.Statement (.winDropRest w) := by
  intro _ _ h; simp [seqWord] at h
theorem SeqWord.winRestart (w : Win) : SeqWord.Statement (.winRestart w) := by
  intro _ _ h; simp [seqWord] at h
theorem SeqWord.qwmWrite (who : Accessor) (value : Word) : SeqWord.Statement (.qwmWrite who value) := by
  intro _ _ h; simp [seqWord] at h
theorem SeqWord.sramWindowRead (addr : Word) (ecc : Ecc) : SeqWord.Statement (.sramWindowRead addr ecc) := by
  intro _ _ h; simp [seqWord] at h
theorem SeqWord.sramWindowWrite (addr : Word) (value : Word) : SeqWord.Statement (.sramWindowWrite addr value) := by
  intro _ _ h; simp [seqWord] at h
theorem SeqWord.scrubRead (ecc : Ecc) : SeqWord.Statement (.scrubRead ecc) := by
  intro _ _ h; simp [seqWord] at h
theorem SeqWord.loadStart (who : Accessor) (value : Word) : SeqWord.Statement (.loadStart who value) := by
  intro _ _ h; simp [seqWord] at h
theorem SeqWord.fabPushWrite (value : Word) : SeqWord.Statement (.fabPushWrite value) := by
  intro _ _ h; simp [seqWord] at h
theorem SeqWord.pushTimeout : SeqWord.Statement (.pushTimeout) := by
  intro _ _ h; simp [seqWord] at h
theorem SeqWord.ingotVerifyDone (flash : Option (List Byte)) (us : Nat) : SeqWord.Statement (.ingotVerifyDone flash us) := by
  intro _ _ h; simp [seqWord] at h
theorem SeqWord.partialQuiesceDone : SeqWord.Statement (.partialQuiesceDone) := by
  intro _ _ h; simp [seqWord] at h
theorem SeqWord.castComplete (again : Option (List Byte)) (us : Nat) : SeqWord.Statement (.castComplete again us) := by
  intro _ _ h; simp [seqWord] at h
theorem SeqWord.partialCastComplete (us : Nat) : SeqWord.Statement (.partialCastComplete us) := by
  intro _ _ h; simp [seqWord] at h
theorem SeqWord.add (k : Core) (rd : Sreg) (ra : Sreg) (rb : Sreg) : SeqWord.Statement (.add k rd ra rb) := by
  intro _ _ h; simp only [seqWord, Option.some.injEq, Prod.mk.injEq] at h; rw [← h.2]; exact wordR_lt _ _ _ (by decide)
theorem SeqWord.sub (k : Core) (rd : Sreg) (ra : Sreg) (rb : Sreg) : SeqWord.Statement (.sub k rd ra rb) := by
  intro _ _ h; simp only [seqWord, Option.some.injEq, Prod.mk.injEq] at h; rw [← h.2]; exact wordR_lt _ _ _ (by decide)
theorem SeqWord.and_ (k : Core) (rd : Sreg) (ra : Sreg) (rb : Sreg) : SeqWord.Statement (.and_ k rd ra rb) := by
  intro _ _ h; simp only [seqWord, Option.some.injEq, Prod.mk.injEq] at h; rw [← h.2]; exact wordR_lt _ _ _ (by decide)
theorem SeqWord.or_ (k : Core) (rd : Sreg) (ra : Sreg) (rb : Sreg) : SeqWord.Statement (.or_ k rd ra rb) := by
  intro _ _ h; simp only [seqWord, Option.some.injEq, Prod.mk.injEq] at h; rw [← h.2]; exact wordR_lt _ _ _ (by decide)
theorem SeqWord.xor_ (k : Core) (rd : Sreg) (ra : Sreg) (rb : Sreg) : SeqWord.Statement (.xor_ k rd ra rb) := by
  intro _ _ h; simp only [seqWord, Option.some.injEq, Prod.mk.injEq] at h; rw [← h.2]; exact wordR_lt _ _ _ (by decide)
theorem SeqWord.shl (k : Core) (rd : Sreg) (ra : Sreg) (rb : Sreg) : SeqWord.Statement (.shl k rd ra rb) := by
  intro _ _ h; simp only [seqWord, Option.some.injEq, Prod.mk.injEq] at h; rw [← h.2]; exact wordR_lt _ _ _ (by decide)
theorem SeqWord.shr (k : Core) (rd : Sreg) (ra : Sreg) (rb : Sreg) : SeqWord.Statement (.shr k rd ra rb) := by
  intro _ _ h; simp only [seqWord, Option.some.injEq, Prod.mk.injEq] at h; rw [← h.2]; exact wordR_lt _ _ _ (by decide)
theorem SeqWord.asr (k : Core) (rd : Sreg) (ra : Sreg) (rb : Sreg) : SeqWord.Statement (.asr k rd ra rb) := by
  intro _ _ h; simp only [seqWord, Option.some.injEq, Prod.mk.injEq] at h; rw [← h.2]; exact wordR_lt _ _ _ (by decide)
theorem SeqWord.clt (k : Core) (rd : Sreg) (ra : Sreg) (rb : Sreg) : SeqWord.Statement (.clt k rd ra rb) := by
  intro _ _ h; simp only [seqWord, Option.some.injEq, Prod.mk.injEq] at h; rw [← h.2]; exact wordR_lt _ _ _ (by decide)
theorem SeqWord.cltu (k : Core) (rd : Sreg) (ra : Sreg) (rb : Sreg) : SeqWord.Statement (.cltu k rd ra rb) := by
  intro _ _ h; simp only [seqWord, Option.some.injEq, Prod.mk.injEq] at h; rw [← h.2]; exact wordR_lt _ _ _ (by decide)
theorem SeqWord.mul (k : Core) (rd : Sreg) (ra : Sreg) (rb : Sreg) : SeqWord.Statement (.mul k rd ra rb) := by
  intro _ _ h; simp only [seqWord, Option.some.injEq, Prod.mk.injEq] at h; rw [← h.2]; exact wordR_lt _ _ _ (by decide)
theorem SeqWord.mulhi (k : Core) (rd : Sreg) (ra : Sreg) (rb : Sreg) : SeqWord.Statement (.mulhi k rd ra rb) := by
  intro _ _ h; simp only [seqWord, Option.some.injEq, Prod.mk.injEq] at h; rw [← h.2]; exact wordR_lt _ _ _ (by decide)
theorem SeqWord.mulhiu (k : Core) (rd : Sreg) (ra : Sreg) (rb : Sreg) : SeqWord.Statement (.mulhiu k rd ra rb) := by
  intro _ _ h; simp only [seqWord, Option.some.injEq, Prod.mk.injEq] at h; rw [← h.2]; exact wordR_lt _ _ _ (by decide)
theorem SeqWord.min (k : Core) (rd : Sreg) (ra : Sreg) (rb : Sreg) : SeqWord.Statement (.min k rd ra rb) := by
  intro _ _ h; simp only [seqWord, Option.some.injEq, Prod.mk.injEq] at h; rw [← h.2]; exact wordR_lt _ _ _ (by decide)
theorem SeqWord.max (k : Core) (rd : Sreg) (ra : Sreg) (rb : Sreg) : SeqWord.Statement (.max k rd ra rb) := by
  intro _ _ h; simp only [seqWord, Option.some.injEq, Prod.mk.injEq] at h; rw [← h.2]; exact wordR_lt _ _ _ (by decide)
theorem SeqWord.addk (k : Core) (rd : Sreg) (ra : Sreg) (imm : Half) : SeqWord.Statement (.addk k rd ra imm) := by
  intro _ _ h; simp only [seqWord, Option.some.injEq, Prod.mk.injEq] at h; rw [← h.2]; exact wordI_lt _ _ _ (by decide)
theorem SeqWord.andk (k : Core) (rd : Sreg) (ra : Sreg) (imm : Half) : SeqWord.Statement (.andk k rd ra imm) := by
  intro _ _ h; simp only [seqWord, Option.some.injEq, Prod.mk.injEq] at h; rw [← h.2]; exact wordI_lt _ _ _ (by decide)
theorem SeqWord.ork (k : Core) (rd : Sreg) (ra : Sreg) (imm : Half) : SeqWord.Statement (.ork k rd ra imm) := by
  intro _ _ h; simp only [seqWord, Option.some.injEq, Prod.mk.injEq] at h; rw [← h.2]; exact wordI_lt _ _ _ (by decide)
theorem SeqWord.xork (k : Core) (rd : Sreg) (ra : Sreg) (imm : Half) : SeqWord.Statement (.xork k rd ra imm) := by
  intro _ _ h; simp only [seqWord, Option.some.injEq, Prod.mk.injEq] at h; rw [← h.2]; exact wordI_lt _ _ _ (by decide)
theorem SeqWord.cltk (k : Core) (rd : Sreg) (ra : Sreg) (imm : Half) : SeqWord.Statement (.cltk k rd ra imm) := by
  intro _ _ h; simp only [seqWord, Option.some.injEq, Prod.mk.injEq] at h; rw [← h.2]; exact wordI_lt _ _ _ (by decide)
theorem SeqWord.lih (k : Core) (rd : Sreg) (imm : Half) : SeqWord.Statement (.lih k rd imm) := by
  intro _ _ h; simp only [seqWord, Option.some.injEq, Prod.mk.injEq] at h; rw [← h.2]; exact wordI_lt _ _ _ (by decide)
theorem SeqWord.shlk (k : Core) (rd : Sreg) (ra : Sreg) (sh : ShAmt) : SeqWord.Statement (.shlk k rd ra sh) := by
  intro _ _ h; simp only [seqWord, Option.some.injEq, Prod.mk.injEq] at h; rw [← h.2]; exact wordShk_lt _ _ _ (by decide)
theorem SeqWord.shrk (k : Core) (rd : Sreg) (ra : Sreg) (sh : ShAmt) : SeqWord.Statement (.shrk k rd ra sh) := by
  intro _ _ h; simp only [seqWord, Option.some.injEq, Prod.mk.injEq] at h; rw [← h.2]; exact wordShk_lt _ _ _ (by decide)
theorem SeqWord.asrk (k : Core) (rd : Sreg) (ra : Sreg) (sh : ShAmt) : SeqWord.Statement (.asrk k rd ra sh) := by
  intro _ _ h; simp only [seqWord, Option.some.injEq, Prod.mk.injEq] at h; rw [← h.2]; exact wordShk_lt _ _ _ (by decide)
theorem SeqWord.ldw (k : Core) (rd : Sreg) (ra : Sreg) (imm : Half) (ecc : Ecc) : SeqWord.Statement (.ldw k rd ra imm ecc) := by
  intro _ _ h; simp only [seqWord, Option.some.injEq, Prod.mk.injEq] at h; rw [← h.2]; exact wordI_lt _ _ _ (by decide)
theorem SeqWord.ldh (k : Core) (rd : Sreg) (ra : Sreg) (imm : Half) (ecc : Ecc) : SeqWord.Statement (.ldh k rd ra imm ecc) := by
  intro _ _ h; simp only [seqWord, Option.some.injEq, Prod.mk.injEq] at h; rw [← h.2]; exact wordI_lt _ _ _ (by decide)
theorem SeqWord.ldb (k : Core) (rd : Sreg) (ra : Sreg) (imm : Half) (ecc : Ecc) : SeqWord.Statement (.ldb k rd ra imm ecc) := by
  intro _ _ h; simp only [seqWord, Option.some.injEq, Prod.mk.injEq] at h; rw [← h.2]; exact wordI_lt _ _ _ (by decide)
theorem SeqWord.stw (k : Core) (rd : Sreg) (ra : Sreg) (imm : Half) : SeqWord.Statement (.stw k rd ra imm) := by
  intro _ _ h; simp only [seqWord, Option.some.injEq, Prod.mk.injEq] at h; rw [← h.2]; exact wordI_lt _ _ _ (by decide)
theorem SeqWord.sth (k : Core) (rd : Sreg) (ra : Sreg) (imm : Half) : SeqWord.Statement (.sth k rd ra imm) := by
  intro _ _ h; simp only [seqWord, Option.some.injEq, Prod.mk.injEq] at h; rw [← h.2]; exact wordI_lt _ _ _ (by decide)
theorem SeqWord.stb (k : Core) (rd : Sreg) (ra : Sreg) (imm : Half) : SeqWord.Statement (.stb k rd ra imm) := by
  intro _ _ h; simp only [seqWord, Option.some.injEq, Prod.mk.injEq] at h; rw [← h.2]; exact wordI_lt _ _ _ (by decide)
theorem SeqWord.heq (k : Core) (ra : Sreg) (rb : Sreg) (off : Half) : SeqWord.Statement (.heq k ra rb off) := by
  intro _ _ h; simp only [seqWord, Option.some.injEq, Prod.mk.injEq] at h; rw [← h.2]; exact wordI_lt _ _ _ (by decide)
theorem SeqWord.hne (k : Core) (ra : Sreg) (rb : Sreg) (off : Half) : SeqWord.Statement (.hne k ra rb off) := by
  intro _ _ h; simp only [seqWord, Option.some.injEq, Prod.mk.injEq] at h; rw [← h.2]; exact wordI_lt _ _ _ (by decide)
theorem SeqWord.hlt (k : Core) (ra : Sreg) (rb : Sreg) (off : Half) : SeqWord.Statement (.hlt k ra rb off) := by
  intro _ _ h; simp only [seqWord, Option.some.injEq, Prod.mk.injEq] at h; rw [← h.2]; exact wordI_lt _ _ _ (by decide)
theorem SeqWord.hle (k : Core) (ra : Sreg) (rb : Sreg) (off : Half) : SeqWord.Statement (.hle k ra rb off) := by
  intro _ _ h; simp only [seqWord, Option.some.injEq, Prod.mk.injEq] at h; rw [← h.2]; exact wordI_lt _ _ _ (by decide)
theorem SeqWord.hltu (k : Core) (ra : Sreg) (rb : Sreg) (off : Half) : SeqWord.Statement (.hltu k ra rb off) := by
  intro _ _ h; simp only [seqWord, Option.some.injEq, Prod.mk.injEq] at h; rw [← h.2]; exact wordI_lt _ _ _ (by decide)
theorem SeqWord.hleu (k : Core) (ra : Sreg) (rb : Sreg) (off : Half) : SeqWord.Statement (.hleu k ra rb off) := by
  intro _ _ h; simp only [seqWord, Option.some.injEq, Prod.mk.injEq] at h; rw [← h.2]; exact wordI_lt _ _ _ (by decide)
theorem SeqWord.call (k : Core) (off : Off26) : SeqWord.Statement (.call k off) := by
  intro k w h; simp only [seqWord, Option.some.injEq, Prod.mk.injEq] at h; have := off.isLt; omega
theorem SeqWord.jmpr (k : Core) (rd : Sreg) (ra : Sreg) (imm : Half) : SeqWord.Statement (.jmpr k rd ra imm) := by
  intro _ _ h; simp only [seqWord, Option.some.injEq, Prod.mk.injEq] at h; rw [← h.2]; exact wordI_lt _ _ _ (by decide)
theorem SeqWord.mula (k : Core) (r1 : Sreg) (r2 : Sreg) (ad : AccN) : SeqWord.Statement (.mula k r1 r2 ad) := by
  intro _ _ h; simp only [seqWord, Option.some.injEq, Prod.mk.injEq] at h; rw [← h.2]; exact wordA_lt _ _ _ _ _ (by decide)
theorem SeqWord.mac (k : Core) (r1 : Sreg) (r2 : Sreg) (ad : AccN) : SeqWord.Statement (.mac k r1 r2 ad) := by
  intro _ _ h; simp only [seqWord, Option.some.injEq, Prod.mk.injEq] at h; rw [← h.2]; exact wordA_lt _ _ _ _ _ (by decide)
theorem SeqWord.msu (k : Core) (r1 : Sreg) (r2 : Sreg) (ad : AccN) : SeqWord.Statement (.msu k r1 r2 ad) := by
  intro _ _ h; simp only [seqWord, Option.some.injEq, Prod.mk.injEq] at h; rw [← h.2]; exact wordA_lt _ _ _ _ _ (by decide)
theorem SeqWord.mta (k : Core) (r1 : Sreg) (ad : AccN) : SeqWord.Statement (.mta k r1 ad) := by
  intro _ _ h; simp only [seqWord, Option.some.injEq, Prod.mk.injEq] at h; rw [← h.2]; exact wordA_lt _ _ _ _ _ (by decide)
theorem SeqWord.mfa (k : Core) (r1 : Sreg) (src : AccN) (sh : ShAmt) : SeqWord.Statement (.mfa k r1 src sh) := by
  intro _ _ h; simp only [seqWord, Option.some.injEq, Prod.mk.injEq] at h; rw [← h.2]; exact wordA_lt _ _ _ _ _ (by decide)
theorem SeqWord.mfal (k : Core) (r1 : Sreg) (src : AccN) : SeqWord.Statement (.mfal k r1 src) := by
  intro _ _ h; simp only [seqWord, Option.some.injEq, Prod.mk.injEq] at h; rw [← h.2]; exact wordA_lt _ _ _ _ _ (by decide)
theorem SeqWord.mfau (k : Core) (r1 : Sreg) (src : AccN) : SeqWord.Statement (.mfau k r1 src) := by
  intro _ _ h; simp only [seqWord, Option.some.injEq, Prod.mk.injEq] at h; rw [← h.2]; exact wordA_lt _ _ _ _ _ (by decide)
theorem SeqWord.aclr (k : Core) (ad : AccN) : SeqWord.Statement (.aclr k ad) := by
  intro _ _ h; simp only [seqWord, Option.some.injEq, Prod.mk.injEq] at h; rw [← h.2]; exact wordA_lt _ _ _ _ _ (by decide)
theorem SeqWord.pset (k : Core) (r1 : Sreg) (r2 : Sreg) (ad : AccN) : SeqWord.Statement (.pset k r1 r2 ad) := by
  intro _ _ h; simp only [seqWord, Option.some.injEq, Prod.mk.injEq] at h; rw [← h.2]; exact wordA_lt _ _ _ _ _ (by decide)
theorem SeqWord.padd (k : Core) (ad : AccN) (src : AccN) : SeqWord.Statement (.padd k ad src) := by
  intro _ _ h; simp only [seqWord, Option.some.injEq, Prod.mk.injEq] at h; rw [← h.2]; exact wordA_lt _ _ _ _ _ (by decide)
theorem SeqWord.psub (k : Core) (ad : AccN) (src : AccN) : SeqWord.Statement (.psub k ad src) := by
  intro _ _ h; simp only [seqWord, Option.some.injEq, Prod.mk.injEq] at h; rw [← h.2]; exact wordA_lt _ _ _ _ _ (by decide)
theorem SeqWord.pscl (k : Core) (r1 : Sreg) (ad : AccN) : SeqWord.Statement (.pscl k r1 ad) := by
  intro _ _ h; simp only [seqWord, Option.some.injEq, Prod.mk.injEq] at h; rw [← h.2]; exact wordA_lt _ _ _ _ _ (by decide)
theorem SeqWord.pgeth (k : Core) (r1 : Sreg) (src : AccN) : SeqWord.Statement (.pgeth k r1 src) := by
  intro _ _ h; simp only [seqWord, Option.some.injEq, Prod.mk.injEq] at h; rw [← h.2]; exact wordA_lt _ _ _ _ _ (by decide)
theorem SeqWord.pgetl (k : Core) (r1 : Sreg) (src : AccN) : SeqWord.Statement (.pgetl k r1 src) := by
  intro _ _ h; simp only [seqWord, Option.some.injEq, Prod.mk.injEq] at h; rw [← h.2]; exact wordA_lt _ _ _ _ _ (by decide)
theorem SeqWord.amov (k : Core) (ad : AccN) (src : AccN) : SeqWord.Statement (.amov k ad src) := by
  intro _ _ h; simp only [seqWord, Option.some.injEq, Prod.mk.injEq] at h; rw [← h.2]; exact wordA_lt _ _ _ _ _ (by decide)
theorem SeqWord.qget (k : Core) (rd : Sreg) (ra : Sreg) (rb : Sreg) (ecc : Ecc) : SeqWord.Statement (.qget k rd ra rb ecc) := by
  intro _ _ h; simp only [seqWord, Option.some.injEq, Prod.mk.injEq] at h; rw [← h.2]; exact wordQ_lt _ _ _ (by decide)
theorem SeqWord.qgete (k : Core) (rd : Sreg) (ra : Sreg) (rb : Sreg) (ecc : Ecc) : SeqWord.Statement (.qgete k rd ra rb ecc) := by
  intro _ _ h; simp only [seqWord, Option.some.injEq, Prod.mk.injEq] at h; rw [← h.2]; exact wordQ_lt _ _ _ (by decide)
theorem SeqWord.qtry (k : Core) (rd : Sreg) (ra : Sreg) (rb : Sreg) (ecc : Ecc) : SeqWord.Statement (.qtry k rd ra rb ecc) := by
  intro _ _ h; simp only [seqWord, Option.some.injEq, Prod.mk.injEq] at h; rw [← h.2]; exact wordQ_lt _ _ _ (by decide)
theorem SeqWord.qput (k : Core) (rd : Sreg) (ra : Sreg) (rb : Sreg) (ecc : Ecc) : SeqWord.Statement (.qput k rd ra rb ecc) := by
  intro _ _ h; simp only [seqWord, Option.some.injEq, Prod.mk.injEq] at h; rw [← h.2]; exact wordQ_lt _ _ _ (by decide)
theorem SeqWord.qrew (k : Core) (rd : Sreg) (ra : Sreg) : SeqWord.Statement (.qrew k rd ra) := by
  intro _ _ h; simp only [seqWord, Option.some.injEq, Prod.mk.injEq] at h; rw [← h.2]; exact wordQ_lt _ _ _ (by decide)
theorem SeqWord.qlvl (k : Core) (rd : Sreg) (ra : Sreg) : SeqWord.Statement (.qlvl k rd ra) := by
  intro _ _ h; simp only [seqWord, Option.some.injEq, Prod.mk.injEq] at h; rw [← h.2]; exact wordQ_lt _ _ _ (by decide)
theorem SeqWord.sin (k : Core) (r : Sreg) (port : StreamP) : SeqWord.Statement (.sin k r port) := by
  intro _ _ h; simp only [seqWord, Option.some.injEq, Prod.mk.injEq] at h; rw [← h.2]; exact wordT_lt _ _ (by decide)
theorem SeqWord.sout (k : Core) (r : Sreg) (port : StreamP) : SeqWord.Statement (.sout k r port) := by
  intro _ _ h; simp only [seqWord, Option.some.injEq, Prod.mk.injEq] at h; rw [← h.2]; exact wordT_lt _ _ (by decide)
theorem SeqWord.wait (k : Core) (rd : Sreg) : SeqWord.Statement (.wait k rd) := by
  intro _ _ h; simp only [seqWord, Option.some.injEq, Prod.mk.injEq] at h; rw [← h.2]; exact wordY_lt _ _ _ (by decide)
theorem SeqWord.rdctl (k : Core) (rd : Sreg) (cix : Cix) : SeqWord.Statement (.rdctl k rd cix) := by
  intro _ _ h; simp only [seqWord, Option.some.injEq, Prod.mk.injEq] at h; rw [← h.2]; exact wordY_lt _ _ _ (by decide)
theorem SeqWord.wrctl (k : Core) (ra : Sreg) (cix : Cix) : SeqWord.Statement (.wrctl k ra cix) := by
  intro _ _ h; simp only [seqWord, Option.some.injEq, Prod.mk.injEq] at h; rw [← h.2]; exact wordY_lt _ _ _ (by decide)
theorem SeqWord.supc (k : Core) : SeqWord.Statement (.supc k) := by
  intro _ _ h; simp only [seqWord, Option.some.injEq, Prod.mk.injEq] at h; rw [← h.2]; exact wordY_lt _ _ _ (by decide)
theorem SeqWord.hret (k : Core) : SeqWord.Statement (.hret k) := by
  intro _ _ h; simp only [seqWord, Option.some.injEq, Prod.mk.injEq] at h; rw [← h.2]; exact wordY_lt _ _ _ (by decide)
theorem SeqWord.trap (k : Core) : SeqWord.Statement (.trap k) := by
  intro _ _ h; simp only [seqWord, Option.some.injEq, Prod.mk.injEq] at h; rw [← h.2]; exact wordY_lt _ _ _ (by decide)
theorem SeqWord.synci (k : Core) : SeqWord.Statement (.synci k) := by
  intro _ _ h; simp only [seqWord, Option.some.injEq, Prod.mk.injEq] at h; rw [← h.2]; exact wordY_lt _ _ _ (by decide)
theorem SeqWord.coreWake (k : Core) (ecc : Ecc) : SeqWord.Statement (.coreWake k ecc) := by
  intro _ _ h; simp [seqWord] at h
theorem SeqWord.interruptEntry (k : Core) : SeqWord.Statement (.interruptEntry k) := by
  intro _ _ h; simp [seqWord] at h
theorem SeqWord.streamSampleArrival (src : TapSrc) (re : BitVec 24) (im : BitVec 24) : SeqWord.Statement (.streamSampleArrival src re im) := by
  intro _ _ h; simp [seqWord] at h
theorem SeqWord.seqTimerExpiry (k : Core) : SeqWord.Statement (.seqTimerExpiry k) := by
  intro _ _ h; simp [seqWord] at h
theorem SeqWord.halt (who : Accessor) (k : Core) : SeqWord.Statement (.halt who k) := by
  intro _ _ h; simp [seqWord] at h
theorem SeqWord.resume (who : Accessor) (k : Core) : SeqWord.Statement (.resume who k) := by
  intro _ _ h; simp [seqWord] at h
theorem SeqWord.restart (who : Accessor) (k : Core) : SeqWord.Statement (.restart who k) := by
  intro _ _ h; simp [seqWord] at h
theorem SeqWord.kick (who : Accessor) (k : Core) : SeqWord.Statement (.kick who k) := by
  intro _ _ h; simp [seqWord] at h
theorem SeqWord.step (who : Accessor) (k : Core) (ecc : Ecc) : SeqWord.Statement (.step who k ecc) := by
  intro _ _ h; simp [seqWord] at h
theorem SeqWord.seqLaneWrite (who : Accessor) (k : Core) (value : Word) : SeqWord.Statement (.seqLaneWrite who k value) := by
  intro _ _ h; simp [seqWord] at h
theorem SeqWord.read (addr : Word) (count : Nat) (eccs : List Ecc) (mirror : List Word) (cut : Bool) : SeqWord.Statement (.read addr count eccs mirror cut) := by
  intro _ _ h; simp [seqWord] at h
theorem SeqWord.write (addr : Word) (words : List Word) : SeqWord.Statement (.write addr words) := by
  intro _ _ h; simp [seqWord] at h
theorem SeqWord.status (cmd : Byte) (addr : Word) (count : Nat) : SeqWord.Statement (.status cmd addr count) := by
  intro _ _ h; simp [seqWord] at h
theorem SeqWord.ringEnable (who : Accessor) (value : Word) : SeqWord.Statement (.ringEnable who value) := by
  intro _ _ h; simp [seqWord] at h
theorem SeqWord.doorbell (who : Accessor) (value : Word) : SeqWord.Statement (.doorbell who value) := by
  intro _ _ h; simp [seqWord] at h
theorem SeqWord.cplHeadWrite (who : Accessor) (value : Word) : SeqWord.Statement (.cplHeadWrite who value) := by
  intro _ _ h; simp [seqWord] at h
theorem SeqWord.evHeadWrite (who : Accessor) (value : Word) : SeqWord.Statement (.evHeadWrite who value) := by
  intro _ _ h; simp [seqWord] at h
theorem SeqWord.irqCoalesceTimeout (events : Bool) : SeqWord.Statement (.irqCoalesceTimeout events) := by
  intro _ _ h; simp [seqWord] at h
theorem SeqWord.send : SeqWord.Statement (.send) := by
  intro _ _ h; simp [seqWord] at h
theorem SeqWord.broadcast : SeqWord.Statement (.broadcast) := by
  intro _ _ h; simp [seqWord] at h
theorem SeqWord.readMt : SeqWord.Statement (.readMt) := by
  intro _ _ h; simp [seqWord] at h
theorem SeqWord.radioSendLink : SeqWord.Statement (.radioSendLink) := by
  intro _ _ h; simp [seqWord] at h
theorem SeqWord.radioSendFlood : SeqWord.Statement (.radioSendFlood) := by
  intro _ _ h; simp [seqWord] at h
theorem SeqWord.uartSend : SeqWord.Statement (.uartSend) := by
  intro _ _ h; simp [seqWord] at h
theorem SeqWord.control : SeqWord.Statement (.control) := by
  intro _ _ h; simp [seqWord] at h
theorem SeqWord.abort : SeqWord.Statement (.abort) := by
  intro _ _ h; simp [seqWord] at h
theorem SeqWord.radioEnable (who : Accessor) (value : Word) : SeqWord.Statement (.radioEnable who value) := by
  intro _ _ h; simp [seqWord] at h
theorem SeqWord.linkArm (who : Accessor) (c : LinkC) (value : Word) : SeqWord.Statement (.linkArm who c value) := by
  intro _ _ h; simp [seqWord] at h
theorem SeqWord.radioBeaconTx : SeqWord.Statement (.radioBeaconTx) := by
  intro _ _ h; simp [seqWord] at h
theorem SeqWord.rfSyncDetect (y : RfSync) : SeqWord.Statement (.rfSyncDetect y) := by
  intro _ _ h; simp [seqWord] at h
theorem SeqWord.rfBeaconRx (r : RfSeen) : SeqWord.Statement (.rfBeaconRx r) := by
  intro _ _ h; simp [seqWord] at h
theorem SeqWord.connReqRx (r : RfSeen) : SeqWord.Statement (.connReqRx r) := by
  intro _ _ h; simp [seqWord] at h
theorem SeqWord.connAckRx (r : RfSeen) : SeqWord.Statement (.connAckRx r) := by
  intro _ _ h; simp [seqWord] at h
theorem SeqWord.rfDataRx (r : RfSeen) : SeqWord.Statement (.rfDataRx r) := by
  intro _ _ h; simp [seqWord] at h
theorem SeqWord.rfAckRx (r : RfSeen) : SeqWord.Statement (.rfAckRx r) := by
  intro _ _ h; simp [seqWord] at h
theorem SeqWord.rfNackRx (r : RfSeen) : SeqWord.Statement (.rfNackRx r) := by
  intro _ _ h; simp [seqWord] at h
theorem SeqWord.mapSetRx (r : RfSeen) : SeqWord.Statement (.mapSetRx r) := by
  intro _ _ h; simp [seqWord] at h
theorem SeqWord.disconnectRx (r : RfSeen) : SeqWord.Statement (.disconnectRx r) := by
  intro _ _ h; simp [seqWord] at h
theorem SeqWord.floodRx (r : RfSeen) : SeqWord.Statement (.floodRx r) := by
  intro _ _ h; simp [seqWord] at h
theorem SeqWord.floodForward (now : Nat) : SeqWord.Statement (.floodForward now) := by
  intro _ _ h; simp [seqWord] at h
theorem SeqWord.linkEvent (c : LinkC) (now : Nat) : SeqWord.Statement (.linkEvent c now) := by
  intro _ _ h; simp [seqWord] at h
theorem SeqWord.linkWindowClose (c : LinkC) : SeqWord.Statement (.linkWindowClose c) := by
  intro _ _ h; simp [seqWord] at h
theorem SeqWord.supervision (c : LinkC) : SeqWord.Statement (.supervision c) := by
  intro _ _ h; simp [seqWord] at h
theorem SeqWord.scanChannelTimeout (c : LinkC) : SeqWord.Statement (.scanChannelTimeout c) := by
  intro _ _ h; simp [seqWord] at h
theorem SeqWord.mapSetArm (who : Accessor) (c : LinkC) (value : Word) : SeqWord.Statement (.mapSetArm who c value) := by
  intro _ _ h; simp [seqWord] at h
theorem SeqWord.mapSetResend (c : LinkC) : SeqWord.Statement (.mapSetResend c) := by
  intro _ _ h; simp [seqWord] at h
theorem SeqWord.lastGasp (now : Nat) : SeqWord.Statement (.lastGasp now) := by
  intro _ _ h; simp [seqWord] at h
theorem SeqWord.sniffListen : SeqWord.Statement (.sniffListen) := by
  intro _ _ h; simp [seqWord] at h
theorem SeqWord.sniffDetect : SeqWord.Statement (.sniffDetect) := by
  intro _ _ h; simp [seqWord] at h
theorem SeqWord.falseWake : SeqWord.Statement (.falseWake) := by
  intro _ _ h; simp [seqWord] at h
theorem SeqWord.uartCharRx (u : Uart) (bits : List Sample3) (early : Bool) (near : Bool) : SeqWord.Statement (.uartCharRx u bits early near) := by
  intro _ _ h; simp [seqWord] at h
theorem SeqWord.uartBreak (u : Uart) : SeqWord.Statement (.uartBreak u) := by
  intro _ _ h; simp [seqWord] at h
theorem SeqWord.lineStuck (u : Uart) : SeqWord.Statement (.lineStuck u) := by
  intro _ _ h; simp [seqWord] at h
theorem SeqWord.lineStuckClear (u : Uart) : SeqWord.Statement (.lineStuckClear u) := by
  intro _ _ h; simp [seqWord] at h
theorem SeqWord.autobaudMeasure (u : Uart) (t : Nat) (edgesOk : Bool) : SeqWord.Statement (.autobaudMeasure u t edgesOk) := by
  intro _ _ h; simp [seqWord] at h
theorem SeqWord.uartRxTimeout (u : Uart) : SeqWord.Statement (.uartRxTimeout u) := by
  intro _ _ h; simp [seqWord] at h
theorem SeqWord.uaCfgWrite (who : Accessor) (u : Uart) (value : Word) : SeqWord.Statement (.uaCfgWrite who u value) := by
  intro _ _ h; simp [seqWord] at h
theorem SeqWord.baudWrite (who : Accessor) (u : Uart) (value : Word) : SeqWord.Statement (.baudWrite who u value) := by
  intro _ _ h; simp [seqWord] at h
theorem SeqWord.uartTxCharDone (u : Uart) : SeqWord.Statement (.uartTxCharDone u) := by
  intro _ _ h; simp [seqWord] at h
theorem SeqWord.udeTailExpiry (u : Uart) : SeqWord.Statement (.udeTailExpiry u) := by
  intro _ _ h; simp [seqWord] at h
theorem SeqWord.ctSet (who : Accessor) (value : Word) : SeqWord.Statement (.ctSet who value) := by
  intro _ _ h; simp [seqWord] at h
theorem SeqWord.ctClr (who : Accessor) (value : Word) : SeqWord.Statement (.ctClr who value) := by
  intro _ _ h; simp [seqWord] at h
theorem SeqWord.ctPairWrite (who : Accessor) (value : Word) : SeqWord.Statement (.ctPairWrite who value) := by
  intro _ _ h; simp [seqWord] at h
theorem SeqWord.ctOcfgWrite (who : Accessor) (o : CtlO) (value : Word) : SeqWord.Statement (.ctOcfgWrite who o value) := by
  intro _ _ h; simp [seqWord] at h
theorem SeqWord.deadTimeExpiry (pn : PairN) : SeqWord.Statement (.deadTimeExpiry pn) := by
  intro _ _ h; simp [seqWord] at h
theorem SeqWord.guardTrip (first : Nat) (clocks : List (BitVec 8)) : SeqWord.Statement (.guardTrip first clocks) := by
  intro _ _ h; simp [seqWord] at h
theorem SeqWord.tripClear (who : Accessor) (value : Word) : SeqWord.Statement (.tripClear who value) := by
  intro _ _ h; simp [seqWord] at h
theorem SeqWord.fbMismatch (o : CtlO) : SeqWord.Statement (.fbMismatch o) := by
  intro _ _ h; simp [seqWord] at h
theorem SeqWord.dinEdge (din : CtlO) (raw : List Bool) : SeqWord.Statement (.dinEdge din raw) := by
  intro _ _ h; simp [seqWord] at h
theorem SeqWord.dlimLevelWrite (who : Accessor) (value : Word) : SeqWord.Statement (.dlimLevelWrite who value) := by
  intro _ _ h; simp [seqWord] at h
theorem SeqWord.presenceAssert : SeqWord.Statement (.presenceAssert) := by
  intro _ _ h; simp [seqWord] at h
theorem SeqWord.presenceRelease : SeqWord.Statement (.presenceRelease) := by
  intro _ _ h; simp [seqWord] at h
theorem SeqWord.presenceWindowExpiry : SeqWord.Statement (.presenceWindowExpiry) := by
  intro _ _ h; simp [seqWord] at h
theorem SeqWord.presenceClose (value : Word) : SeqWord.Statement (.presenceClose value) := by
  intro _ _ h; simp [seqWord] at h
theorem SeqWord.debugUnlock (value : Word) : SeqWord.Statement (.debugUnlock value) := by
  intro _ _ h; simp [seqWord] at h
theorem SeqWord.wdSlotRead : SeqWord.Statement (.wdSlotRead) := by
  intro _ _ h; simp [seqWord] at h
theorem SeqWord.keyLoad : SeqWord.Statement (.keyLoad) := by
  intro _ _ h; simp [seqWord] at h
theorem SeqWord.keyUnwrap : SeqWord.Statement (.keyUnwrap) := by
  intro _ _ h; simp [seqWord] at h
theorem SeqWord.keyWrap : SeqWord.Statement (.keyWrap) := by
  intro _ _ h; simp [seqWord] at h
theorem SeqWord.keyGen : SeqWord.Statement (.keyGen) := by
  intro _ _ h; simp [seqWord] at h
theorem SeqWord.keyErase : SeqWord.Statement (.keyErase) := by
  intro _ _ h; simp [seqWord] at h
theorem SeqWord.pubkey : SeqWord.Statement (.pubkey) := by
  intro _ _ h; simp [seqWord] at h
theorem SeqWord.ctrRaise : SeqWord.Statement (.ctrRaise) := by
  intro _ _ h; simp [seqWord] at h
theorem SeqWord.attest : SeqWord.Statement (.attest) := by
  intro _ _ h; simp [seqWord] at h
theorem SeqWord.selftest (cause : QCause) : SeqWord.Statement (.selftest cause) := by
  intro _ _ h; simp [seqWord] at h
theorem SeqWord.zeroise : SeqWord.Statement (.zeroise) := by
  intro _ _ h; simp [seqWord] at h
theorem SeqWord.rootSet (readback : Bool) : SeqWord.Statement (.rootSet readback) := by
  intro _ _ h; simp [seqWord] at h
theorem SeqWord.floorSet (readback : Bool) : SeqWord.Statement (.floorSet readback) := by
  intro _ _ h; simp [seqWord] at h
theorem SeqWord.windowSet (readback : Bool) : SeqWord.Statement (.windowSet readback) := by
  intro _ _ h; simp [seqWord] at h
theorem SeqWord.lifeBurn (readback : Bool) : SeqWord.Statement (.lifeBurn readback) := by
  intro _ _ h; simp [seqWord] at h
theorem SeqWord.maintEnter : SeqWord.Statement (.maintEnter) := by
  intro _ _ h; simp [seqWord] at h
theorem SeqWord.testEnter : SeqWord.Statement (.testEnter) := by
  intro _ _ h; simp [seqWord] at h
theorem SeqWord.mbxDone : SeqWord.Statement (.mbxDone) := by
  intro _ _ h; simp [seqWord] at h
theorem SeqWord.gcmEnc : SeqWord.Statement (.gcmEnc) := by
  intro _ _ h; simp [seqWord] at h
theorem SeqWord.gcmDec : SeqWord.Statement (.gcmDec) := by
  intro _ _ h; simp [seqWord] at h
theorem SeqWord.ccmEnc : SeqWord.Statement (.ccmEnc) := by
  intro _ _ h; simp [seqWord] at h
theorem SeqWord.ccmDec : SeqWord.Statement (.ccmDec) := by
  intro _ _ h; simp [seqWord] at h
theorem SeqWord.cmacGen : SeqWord.Statement (.cmacGen) := by
  intro _ _ h; simp [seqWord] at h
theorem SeqWord.cmacVer : SeqWord.Statement (.cmacVer) := by
  intro _ _ h; simp [seqWord] at h
theorem SeqWord.sha256 : SeqWord.Statement (.sha256) := by
  intro _ _ h; simp [seqWord] at h
theorem SeqWord.ecdsaSign : SeqWord.Statement (.ecdsaSign) := by
  intro _ _ h; simp [seqWord] at h
theorem SeqWord.ecdsaVer : SeqWord.Statement (.ecdsaVer) := by
  intro _ _ h; simp [seqWord] at h
theorem SeqWord.ecdh : SeqWord.Statement (.ecdh) := by
  intro _ _ h; simp [seqWord] at h
theorem SeqWord.kdf : SeqWord.Statement (.kdf) := by
  intro _ _ h; simp [seqWord] at h
theorem SeqWord.random : SeqWord.Statement (.random) := by
  intro _ _ h; simp [seqWord] at h
theorem SeqWord.cipherEngineEntry : SeqWord.Statement (.cipherEngineEntry) := by
  intro _ _ h; simp [seqWord] at h
theorem SeqWord.cipherJobDone : SeqWord.Statement (.cipherJobDone) := by
  intro _ _ h; simp [seqWord] at h
theorem SeqWord.powerUpSelftestDone : SeqWord.Statement (.powerUpSelftestDone) := by
  intro _ _ h; simp [seqWord] at h
theorem SeqWord.healthTestFail (cause : QCause) : SeqWord.Statement (.healthTestFail cause) := by
  intro _ _ h; simp [seqWord] at h
theorem SeqWord.vironPowerOn (role : Bool) (testEn : Bool) : SeqWord.Statement (.vironPowerOn role testEn) := by
  intro _ _ h; simp [seqWord] at h
theorem SeqWord.rstNAssert : SeqWord.Statement (.rstNAssert) := by
  intro _ _ h; simp [seqWord] at h
theorem SeqWord.rstNRelease (role : Bool) (testEn : Bool) : SeqWord.Statement (.rstNRelease role testEn) := by
  intro _ _ h; simp [seqWord] at h
theorem SeqWord.supplyInRange : SeqWord.Statement (.supplyInRange) := by
  intro _ _ h; simp [seqWord] at h
theorem SeqWord.brownout (supply : SupplyN) : SeqWord.Statement (.brownout supply) := by
  intro _ _ h; simp [seqWord] at h
theorem SeqWord.x32Proven : SeqWord.Statement (.x32Proven) := by
  intro _ _ h; simp [seqWord] at h
theorem SeqWord.x32Fail : SeqWord.Statement (.x32Fail) := by
  intro _ _ h; simp [seqWord] at h
theorem SeqWord.pllLock : SeqWord.Statement (.pllLock) := by
  intro _ _ h; simp [seqWord] at h
theorem SeqWord.clockIdleStop : SeqWord.Statement (.clockIdleStop) := by
  intro _ _ h; simp [seqWord] at h
theorem SeqWord.modeRequest (who : Accessor) (value : Word) : SeqWord.Statement (.modeRequest who value) := by
  intro _ _ h; simp [seqWord] at h
theorem SeqWord.fullSelect (who : Accessor) (value : Word) : SeqWord.Statement (.fullSelect who value) := by
  intro _ _ h; simp [seqWord] at h
theorem SeqWord.mainsSenseEdge (rising : Bool) (t : Nat) : SeqWord.Statement (.mainsSenseEdge rising t) := by
  intro _ _ h; simp [seqWord] at h
theorem SeqWord.mainsLoss (t : Nat) : SeqWord.Statement (.mainsLoss t) := by
  intro _ _ h; simp [seqWord] at h
theorem SeqWord.outageTimeout : SeqWord.Statement (.outageTimeout) := by
  intro _ _ h; simp [seqWord] at h
theorem SeqWord.tempMeasure (temp : Int) : SeqWord.Statement (.tempMeasure temp) := by
  intro _ _ h; simp [seqWord] at h
theorem SeqWord.rtcAlarm : SeqWord.Statement (.rtcAlarm) := by
  intro _ _ h; simp [seqWord] at h
theorem SeqWord.heartbeatTx : SeqWord.Statement (.heartbeatTx) := by
  intro _ _ h; simp [seqWord] at h
theorem SeqWord.heartbeatRx (b : Beat) : SeqWord.Statement (.heartbeatRx b) := by
  intro _ _ h; simp [seqWord] at h
theorem SeqWord.heartbeatMiss : SeqWord.Statement (.heartbeatMiss) := by
  intro _ _ h; simp [seqWord] at h
theorem SeqWord.linkFrameCrcFail (inWindow : Nat) : SeqWord.Statement (.linkFrameCrcFail inWindow) := by
  intro _ _ h; simp [seqWord] at h
theorem SeqWord.replicaWriteRx (index : Nat) (part : EntPart) (value : Word) : SeqWord.Statement (.replicaWriteRx index part value) := by
  intro _ _ h; simp [seqWord] at h
theorem SeqWord.forwardedFrameRx (fr : RxFrame) : SeqWord.Statement (.forwardedFrameRx fr) := by
  intro _ _ h; simp [seqWord] at h
theorem SeqWord.handoffRx (number : BitVec 16) (tag : TagN) (desc : List Byte) (body : List Byte) : SeqWord.Statement (.handoffRx number tag desc body) := by
  intro _ _ h; simp [seqWord] at h
theorem SeqWord.syncMarkSend : SeqWord.Statement (.syncMarkSend) := by
  intro _ _ h; simp [seqWord] at h
theorem SeqWord.syncMarkConfirm (cycle : Word) : SeqWord.Statement (.syncMarkConfirm cycle) := by
  intro _ _ h; simp [seqWord] at h
theorem SeqWord.bufqRecordReplay (rec : List Byte) (live : List Nat) : SeqWord.Statement (.bufqRecordReplay rec live) := by
  intro _ _ h; simp [seqWord] at h
theorem SeqWord.promote (value : Word) : SeqWord.Statement (.promote value) := by
  intro _ _ h; simp [seqWord] at h
theorem SeqWord.counterOverflow (k : CtrN) (occ : Nat) : SeqWord.Statement (.counterOverflow k occ) := by
  intro _ _ h; simp [seqWord] at h
theorem SeqWord.pmSnapshot (who : Accessor) (value : Word) : SeqWord.Statement (.pmSnapshot who value) := by
  intro _ _ h; simp [seqWord] at h
theorem SeqWord.pmCtrLoWrite (who : Accessor) (k : CtrN) (value : Word) : SeqWord.Statement (.pmCtrLoWrite who k value) := by
  intro _ _ h; simp [seqWord] at h
theorem SeqWord.pmCtrHiWrite (who : Accessor) (k : CtrN) (value : Word) : SeqWord.Statement (.pmCtrHiWrite who k value) := by
  intro _ _ h; simp [seqWord] at h
theorem SeqWord.pmCtrLoRead (who : Accessor) (k : CtrN) : SeqWord.Statement (.pmCtrLoRead who k) := by
  intro _ _ h; simp [seqWord] at h
theorem SeqWord.rfTxEnd : SeqWord.Statement (.rfTxEnd) := by
  intro _ _ h; simp [seqWord] at h
theorem SeqWord.linkEventEnd (c : LinkC) : SeqWord.Statement (.linkEventEnd c) := by
  intro _ _ h; simp [seqWord] at h
theorem SeqWord.connAckTimeout (c : LinkC) : SeqWord.Statement (.connAckTimeout c) := by
  intro _ _ h; simp [seqWord] at h

/-- The family holds of every command. -/
theorem SeqWord.holds (i : Instr) : SeqWord.Statement i := by
  cases i with
  | registerWrite who addr value => exact SeqWord.registerWrite who addr value
  | holeAccess who addr isWrite => exact SeqWord.holeAccess who addr isWrite
  | rcCounterRead who addr => exact SeqWord.rcCounterRead who addr
  | seqLpendRead who k => exact SeqWord.seqLpendRead who k
  | rtcRead who => exact SeqWord.rtcRead who
  | swapRequest who p value => exact SeqWord.swapRequest who p value
  | fadeComplete p => exact SeqWord.fadeComplete p
  | coefWrite who p value => exact SeqWord.coefWrite who p value
  | coefRead who p => exact SeqWord.coefRead who p
  | slotBoundary p old m => exact SeqWord.slotBoundary p old m
  | cancReset who p value => exact SeqWord.cancReset who p value
  | pgaTagArrival n code withDetect => exact SeqWord.pgaTagArrival n code withDetect
  | txenAssert p => exact SeqWord.txenAssert p
  | txenTailExpiry p => exact SeqWord.txenTailExpiry p
  | overcurrent p mag samples => exact SeqWord.overcurrent p mag samples
  | zprobeStart who p value => exact SeqWord.zprobeStart who p value
  | zprobeDone p vm im phase => exact SeqWord.zprobeDone p vm im phase
  | preambleDetect n power levels => exact SeqWord.preambleDetect n power levels
  | fofsLoad n fofs => exact SeqWord.fofsLoad n fofs
  | syncSearchTimeout n => exact SeqWord.syncSearchTimeout n
  | syncDetect n main shadow => exact SeqWord.syncDetect n main shadow
  | shadowSyncDetect n y gain => exact SeqWord.shadowSyncDetect n y gain
  | headerEnd n ys => exact SeqWord.headerEnd n ys
  | decodeDispatch tile => exact SeqWord.decodeDispatch tile
  | headerDecodeDone tile => exact SeqWord.headerDecodeDone tile
  | payloadEnd n ys snr => exact SeqWord.payloadEnd n ys snr
  | payloadDecodeDone tile => exact SeqWord.payloadDecodeDone tile
  | laneEnable who n value => exact SeqWord.laneEnable who n value
  | mainsZeroCrossing p t => exact SeqWord.mainsZeroCrossing p t
  | crossingMissed p => exact SeqWord.crossingMissed p
  | portCycleStart p => exact SeqWord.portCycleStart p
  | maskArm who n value => exact SeqWord.maskArm who n value
  | nmapClear who p value => exact SeqWord.nmapClear who p value
  | nmapDataRead who p => exact SeqWord.nmapDataRead who p
  | allocationPoint p => exact SeqWord.allocationPoint p
  | txItemHeadCheck n => exact SeqWord.txItemHeadCheck n
  | txFrameStart p ctx => exact SeqWord.txFrameStart p ctx
  | txFrameEnd p ctx => exact SeqWord.txFrameEnd p ctx
  | laneBlockEnd p k => exact SeqWord.laneBlockEnd p k
  | linkRxData => exact SeqWord.linkRxData
  | linkRxAck => exact SeqWord.linkRxAck
  | joinReqRx => exact SeqWord.joinReqRx
  | joinAckLate p => exact SeqWord.joinAckLate p
  | echoForwardRx => exact SeqWord.echoForwardRx
  | ackTimeout tag => exact SeqWord.ackTimeout tag
  | retryBackoffEnd tag p => exact SeqWord.retryBackoffEnd tag p
  | epochRaise who value => exact SeqWord.epochRaise who value
  | registryWord0Write addr value => exact SeqWord.registryWord0Write addr value
  | lpJoinWrite who p value => exact SeqWord.lpJoinWrite who p value
  | meteringCycleEnd v t => exact SeqWord.meteringCycleEnd v t
  | forcedCycleBoundary f => exact SeqWord.forcedCycleBoundary f
  | syncResetWrite who value => exact SeqWord.syncResetWrite who value
  | syncMInput rising => exact SeqWord.syncMInput rising
  | synchronisingReset => exact SeqWord.synchronisingReset
  | settleEnd => exact SeqWord.settleEnd
  | fineqWordWrite c => exact SeqWord.fineqWordWrite c
  | mtSnapshotRead who f => exact SeqWord.mtSnapshotRead who f
  | balReportPacket => exact SeqWord.balReportPacket
  | balResultCommit => exact SeqWord.balResultCommit
  | queueWordWrite prod q word => exact SeqWord.queueWordWrite prod q word
  | flush who q => exact SeqWord.flush who q
  | dropRest who q => exact SeqWord.dropRest who q
  | winCfgWrite who w value => exact SeqWord.winCfgWrite who w value
  | winDataWrite w value => exact SeqWord.winDataWrite w value
  | winDataRead w ecc => exact SeqWord.winDataRead w ecc
  | winEmptyTimeout w => exact SeqWord.winEmptyTimeout w
  | winRewind w => exact SeqWord.winRewind w
  | winDropRest w => exact SeqWord.winDropRest w
  | winRestart w => exact SeqWord.winRestart w
  | qwmWrite who value => exact SeqWord.qwmWrite who value
  | sramWindowRead addr ecc => exact SeqWord.sramWindowRead addr ecc
  | sramWindowWrite addr value => exact SeqWord.sramWindowWrite addr value
  | scrubRead ecc => exact SeqWord.scrubRead ecc
  | loadStart who value => exact SeqWord.loadStart who value
  | fabPushWrite value => exact SeqWord.fabPushWrite value
  | pushTimeout => exact SeqWord.pushTimeout
  | ingotVerifyDone flash us => exact SeqWord.ingotVerifyDone flash us
  | partialQuiesceDone => exact SeqWord.partialQuiesceDone
  | castComplete again us => exact SeqWord.castComplete again us
  | partialCastComplete us => exact SeqWord.partialCastComplete us
  | add k rd ra rb => exact SeqWord.add k rd ra rb
  | sub k rd ra rb => exact SeqWord.sub k rd ra rb
  | and_ k rd ra rb => exact SeqWord.and_ k rd ra rb
  | or_ k rd ra rb => exact SeqWord.or_ k rd ra rb
  | xor_ k rd ra rb => exact SeqWord.xor_ k rd ra rb
  | shl k rd ra rb => exact SeqWord.shl k rd ra rb
  | shr k rd ra rb => exact SeqWord.shr k rd ra rb
  | asr k rd ra rb => exact SeqWord.asr k rd ra rb
  | clt k rd ra rb => exact SeqWord.clt k rd ra rb
  | cltu k rd ra rb => exact SeqWord.cltu k rd ra rb
  | mul k rd ra rb => exact SeqWord.mul k rd ra rb
  | mulhi k rd ra rb => exact SeqWord.mulhi k rd ra rb
  | mulhiu k rd ra rb => exact SeqWord.mulhiu k rd ra rb
  | min k rd ra rb => exact SeqWord.min k rd ra rb
  | max k rd ra rb => exact SeqWord.max k rd ra rb
  | addk k rd ra imm => exact SeqWord.addk k rd ra imm
  | andk k rd ra imm => exact SeqWord.andk k rd ra imm
  | ork k rd ra imm => exact SeqWord.ork k rd ra imm
  | xork k rd ra imm => exact SeqWord.xork k rd ra imm
  | cltk k rd ra imm => exact SeqWord.cltk k rd ra imm
  | lih k rd imm => exact SeqWord.lih k rd imm
  | shlk k rd ra sh => exact SeqWord.shlk k rd ra sh
  | shrk k rd ra sh => exact SeqWord.shrk k rd ra sh
  | asrk k rd ra sh => exact SeqWord.asrk k rd ra sh
  | ldw k rd ra imm ecc => exact SeqWord.ldw k rd ra imm ecc
  | ldh k rd ra imm ecc => exact SeqWord.ldh k rd ra imm ecc
  | ldb k rd ra imm ecc => exact SeqWord.ldb k rd ra imm ecc
  | stw k rd ra imm => exact SeqWord.stw k rd ra imm
  | sth k rd ra imm => exact SeqWord.sth k rd ra imm
  | stb k rd ra imm => exact SeqWord.stb k rd ra imm
  | heq k ra rb off => exact SeqWord.heq k ra rb off
  | hne k ra rb off => exact SeqWord.hne k ra rb off
  | hlt k ra rb off => exact SeqWord.hlt k ra rb off
  | hle k ra rb off => exact SeqWord.hle k ra rb off
  | hltu k ra rb off => exact SeqWord.hltu k ra rb off
  | hleu k ra rb off => exact SeqWord.hleu k ra rb off
  | call k off => exact SeqWord.call k off
  | jmpr k rd ra imm => exact SeqWord.jmpr k rd ra imm
  | mula k r1 r2 ad => exact SeqWord.mula k r1 r2 ad
  | mac k r1 r2 ad => exact SeqWord.mac k r1 r2 ad
  | msu k r1 r2 ad => exact SeqWord.msu k r1 r2 ad
  | mta k r1 ad => exact SeqWord.mta k r1 ad
  | mfa k r1 src sh => exact SeqWord.mfa k r1 src sh
  | mfal k r1 src => exact SeqWord.mfal k r1 src
  | mfau k r1 src => exact SeqWord.mfau k r1 src
  | aclr k ad => exact SeqWord.aclr k ad
  | pset k r1 r2 ad => exact SeqWord.pset k r1 r2 ad
  | padd k ad src => exact SeqWord.padd k ad src
  | psub k ad src => exact SeqWord.psub k ad src
  | pscl k r1 ad => exact SeqWord.pscl k r1 ad
  | pgeth k r1 src => exact SeqWord.pgeth k r1 src
  | pgetl k r1 src => exact SeqWord.pgetl k r1 src
  | amov k ad src => exact SeqWord.amov k ad src
  | qget k rd ra rb ecc => exact SeqWord.qget k rd ra rb ecc
  | qgete k rd ra rb ecc => exact SeqWord.qgete k rd ra rb ecc
  | qtry k rd ra rb ecc => exact SeqWord.qtry k rd ra rb ecc
  | qput k rd ra rb ecc => exact SeqWord.qput k rd ra rb ecc
  | qrew k rd ra => exact SeqWord.qrew k rd ra
  | qlvl k rd ra => exact SeqWord.qlvl k rd ra
  | sin k r port => exact SeqWord.sin k r port
  | sout k r port => exact SeqWord.sout k r port
  | wait k rd => exact SeqWord.wait k rd
  | rdctl k rd cix => exact SeqWord.rdctl k rd cix
  | wrctl k ra cix => exact SeqWord.wrctl k ra cix
  | supc k => exact SeqWord.supc k
  | hret k => exact SeqWord.hret k
  | trap k => exact SeqWord.trap k
  | synci k => exact SeqWord.synci k
  | coreWake k ecc => exact SeqWord.coreWake k ecc
  | interruptEntry k => exact SeqWord.interruptEntry k
  | streamSampleArrival src re im => exact SeqWord.streamSampleArrival src re im
  | seqTimerExpiry k => exact SeqWord.seqTimerExpiry k
  | halt who k => exact SeqWord.halt who k
  | resume who k => exact SeqWord.resume who k
  | restart who k => exact SeqWord.restart who k
  | kick who k => exact SeqWord.kick who k
  | step who k ecc => exact SeqWord.step who k ecc
  | seqLaneWrite who k value => exact SeqWord.seqLaneWrite who k value
  | read addr count eccs mirror cut => exact SeqWord.read addr count eccs mirror cut
  | write addr words => exact SeqWord.write addr words
  | status cmd addr count => exact SeqWord.status cmd addr count
  | ringEnable who value => exact SeqWord.ringEnable who value
  | doorbell who value => exact SeqWord.doorbell who value
  | cplHeadWrite who value => exact SeqWord.cplHeadWrite who value
  | evHeadWrite who value => exact SeqWord.evHeadWrite who value
  | irqCoalesceTimeout events => exact SeqWord.irqCoalesceTimeout events
  | send => exact SeqWord.send
  | broadcast => exact SeqWord.broadcast
  | readMt => exact SeqWord.readMt
  | radioSendLink => exact SeqWord.radioSendLink
  | radioSendFlood => exact SeqWord.radioSendFlood
  | uartSend => exact SeqWord.uartSend
  | control => exact SeqWord.control
  | abort => exact SeqWord.abort
  | radioEnable who value => exact SeqWord.radioEnable who value
  | linkArm who c value => exact SeqWord.linkArm who c value
  | radioBeaconTx => exact SeqWord.radioBeaconTx
  | rfSyncDetect y => exact SeqWord.rfSyncDetect y
  | rfBeaconRx r => exact SeqWord.rfBeaconRx r
  | connReqRx r => exact SeqWord.connReqRx r
  | connAckRx r => exact SeqWord.connAckRx r
  | rfDataRx r => exact SeqWord.rfDataRx r
  | rfAckRx r => exact SeqWord.rfAckRx r
  | rfNackRx r => exact SeqWord.rfNackRx r
  | mapSetRx r => exact SeqWord.mapSetRx r
  | disconnectRx r => exact SeqWord.disconnectRx r
  | floodRx r => exact SeqWord.floodRx r
  | floodForward now => exact SeqWord.floodForward now
  | linkEvent c now => exact SeqWord.linkEvent c now
  | linkWindowClose c => exact SeqWord.linkWindowClose c
  | supervision c => exact SeqWord.supervision c
  | scanChannelTimeout c => exact SeqWord.scanChannelTimeout c
  | mapSetArm who c value => exact SeqWord.mapSetArm who c value
  | mapSetResend c => exact SeqWord.mapSetResend c
  | lastGasp now => exact SeqWord.lastGasp now
  | sniffListen => exact SeqWord.sniffListen
  | sniffDetect => exact SeqWord.sniffDetect
  | falseWake => exact SeqWord.falseWake
  | uartCharRx u bits early near => exact SeqWord.uartCharRx u bits early near
  | uartBreak u => exact SeqWord.uartBreak u
  | lineStuck u => exact SeqWord.lineStuck u
  | lineStuckClear u => exact SeqWord.lineStuckClear u
  | autobaudMeasure u t edgesOk => exact SeqWord.autobaudMeasure u t edgesOk
  | uartRxTimeout u => exact SeqWord.uartRxTimeout u
  | uaCfgWrite who u value => exact SeqWord.uaCfgWrite who u value
  | baudWrite who u value => exact SeqWord.baudWrite who u value
  | uartTxCharDone u => exact SeqWord.uartTxCharDone u
  | udeTailExpiry u => exact SeqWord.udeTailExpiry u
  | ctSet who value => exact SeqWord.ctSet who value
  | ctClr who value => exact SeqWord.ctClr who value
  | ctPairWrite who value => exact SeqWord.ctPairWrite who value
  | ctOcfgWrite who o value => exact SeqWord.ctOcfgWrite who o value
  | deadTimeExpiry pn => exact SeqWord.deadTimeExpiry pn
  | guardTrip first clocks => exact SeqWord.guardTrip first clocks
  | tripClear who value => exact SeqWord.tripClear who value
  | fbMismatch o => exact SeqWord.fbMismatch o
  | dinEdge din raw => exact SeqWord.dinEdge din raw
  | dlimLevelWrite who value => exact SeqWord.dlimLevelWrite who value
  | presenceAssert => exact SeqWord.presenceAssert
  | presenceRelease => exact SeqWord.presenceRelease
  | presenceWindowExpiry => exact SeqWord.presenceWindowExpiry
  | presenceClose value => exact SeqWord.presenceClose value
  | debugUnlock value => exact SeqWord.debugUnlock value
  | wdSlotRead => exact SeqWord.wdSlotRead
  | keyLoad => exact SeqWord.keyLoad
  | keyUnwrap => exact SeqWord.keyUnwrap
  | keyWrap => exact SeqWord.keyWrap
  | keyGen => exact SeqWord.keyGen
  | keyErase => exact SeqWord.keyErase
  | pubkey => exact SeqWord.pubkey
  | ctrRaise => exact SeqWord.ctrRaise
  | attest => exact SeqWord.attest
  | selftest cause => exact SeqWord.selftest cause
  | zeroise => exact SeqWord.zeroise
  | rootSet readback => exact SeqWord.rootSet readback
  | floorSet readback => exact SeqWord.floorSet readback
  | windowSet readback => exact SeqWord.windowSet readback
  | lifeBurn readback => exact SeqWord.lifeBurn readback
  | maintEnter => exact SeqWord.maintEnter
  | testEnter => exact SeqWord.testEnter
  | mbxDone => exact SeqWord.mbxDone
  | gcmEnc => exact SeqWord.gcmEnc
  | gcmDec => exact SeqWord.gcmDec
  | ccmEnc => exact SeqWord.ccmEnc
  | ccmDec => exact SeqWord.ccmDec
  | cmacGen => exact SeqWord.cmacGen
  | cmacVer => exact SeqWord.cmacVer
  | sha256 => exact SeqWord.sha256
  | ecdsaSign => exact SeqWord.ecdsaSign
  | ecdsaVer => exact SeqWord.ecdsaVer
  | ecdh => exact SeqWord.ecdh
  | kdf => exact SeqWord.kdf
  | random => exact SeqWord.random
  | cipherEngineEntry => exact SeqWord.cipherEngineEntry
  | cipherJobDone => exact SeqWord.cipherJobDone
  | powerUpSelftestDone => exact SeqWord.powerUpSelftestDone
  | healthTestFail cause => exact SeqWord.healthTestFail cause
  | vironPowerOn role testEn => exact SeqWord.vironPowerOn role testEn
  | rstNAssert => exact SeqWord.rstNAssert
  | rstNRelease role testEn => exact SeqWord.rstNRelease role testEn
  | supplyInRange => exact SeqWord.supplyInRange
  | brownout supply => exact SeqWord.brownout supply
  | x32Proven => exact SeqWord.x32Proven
  | x32Fail => exact SeqWord.x32Fail
  | pllLock => exact SeqWord.pllLock
  | clockIdleStop => exact SeqWord.clockIdleStop
  | modeRequest who value => exact SeqWord.modeRequest who value
  | fullSelect who value => exact SeqWord.fullSelect who value
  | mainsSenseEdge rising t => exact SeqWord.mainsSenseEdge rising t
  | mainsLoss t => exact SeqWord.mainsLoss t
  | outageTimeout => exact SeqWord.outageTimeout
  | tempMeasure temp => exact SeqWord.tempMeasure temp
  | rtcAlarm => exact SeqWord.rtcAlarm
  | heartbeatTx => exact SeqWord.heartbeatTx
  | heartbeatRx b => exact SeqWord.heartbeatRx b
  | heartbeatMiss => exact SeqWord.heartbeatMiss
  | linkFrameCrcFail inWindow => exact SeqWord.linkFrameCrcFail inWindow
  | replicaWriteRx index part value => exact SeqWord.replicaWriteRx index part value
  | forwardedFrameRx fr => exact SeqWord.forwardedFrameRx fr
  | handoffRx number tag desc body => exact SeqWord.handoffRx number tag desc body
  | syncMarkSend => exact SeqWord.syncMarkSend
  | syncMarkConfirm cycle => exact SeqWord.syncMarkConfirm cycle
  | bufqRecordReplay rec live => exact SeqWord.bufqRecordReplay rec live
  | promote value => exact SeqWord.promote value
  | counterOverflow k occ => exact SeqWord.counterOverflow k occ
  | pmSnapshot who value => exact SeqWord.pmSnapshot who value
  | pmCtrLoWrite who k value => exact SeqWord.pmCtrLoWrite who k value
  | pmCtrHiWrite who k value => exact SeqWord.pmCtrHiWrite who k value
  | pmCtrLoRead who k => exact SeqWord.pmCtrLoRead who k
  | rfTxEnd => exact SeqWord.rfTxEnd
  | linkEventEnd c => exact SeqWord.linkEventEnd c
  | connAckTimeout c => exact SeqWord.connAckTimeout c

end Sys2Proof.Laws
end

