-- ==== Sys2Proof/Tests/Slice0.lean ====
section
/-! SUPPORT. Tests of the model's own: ill-formed commands, worked values of the specification, and for every statement with
hypotheses a state and operands that meet them. -/

open Sys2Proof Sys2Proof.Machine

namespace Sys2Proof.Tests

set_option Elab.async false

/-- A state with registers `l`, as address and value. -/
def withRegs (s : State) (l : List (Nat × Nat)) : State :=
  l.foldl (fun s e => s.setReg e.1 (BitVec.ofNat 32 e.2)) s

/-- The machine in Full-Line after a cast: code of 1 MiB, 4 registry entries, 64 KiB of capture, a pool of 124 data cells, the rings in
the capture partition; port 0 is enabled and locked and lane 0 searches; core 0 at the start of the code, which is empty, runs. -/
def run : State :=
  { State.reset with
    regs := [(SYS_MODE, 4), (SEQ_STAT 0, 0), (SEQ_PC 0, 0x01000000), (HP_CFG, 0x80000000), (HP_CR_BASE, 0x01110004),
      (HP_CPL_BASE, 0x01112004), (HP_EV_BASE, 0x01114004), (QP_POOL, 0x12FF1200), (LP_CFG 0, 1), (LP_STAT 0, 1), (LP_MSTAT 0, 0x80000000),
      (LK_REG, 0x00104000), (LN_CFG 0, 0x80000000), (LN_STAT 0, 0x60000000)]
    fab := { codeBlk := 16, captBlk := 1 }
    lanes := [(0, { bound := true, mask := 2 ^ 60 - 1 })] }

theorem parts {α β : Type} (x : α × β) : x = (x.1, x.2) := rfl

def aSlot : SlotMeasure := ⟨0, false, [], none, []⟩
/-- A correlator's outputs on the word `w` without noise, and the decision values of bits. -/
def wordOuts (w : List Nat) : List (List (Int × Int)) := List.replicate 8 (w.map (fun b => if b = 1 then (4096, 0) else (-4096, 0)))
def bitYs (l : List Nat) : List Int := l.map (fun b => if b = 1 then 64 else -64)
def aSync : SyncSeen := ⟨wordOuts (syncWord false), bitYs (syncWord false), 0, 0⟩
def aFull : SyncSeen := ⟨wordOuts (syncWord true), bitYs (syncWord true), 0, 0⟩
def aRec : Reception := ⟨2 ^ 60 - 1, false, 20, 0, 0, false, 0, 0, 0, 0, 1024, false, none, 0⟩
def aDec : DecJob := ⟨0, true, List.replicate 60 7, aRec, 0, true, 0⟩
def aMac : MacOut := ⟨[], 0, [], none, [], 0⟩
def aCtx : TxCtx := ⟨0, .item 0, [], 1, false, 0, 0, 0, 0, false, [], 0, false⟩
def aCand : Cand := ⟨0, .item 0, 0, 0, 0, 1, false, 0, []⟩
def aFrame : LinkRx := ⟨0, [], false, 1, 0, []⟩
def aCopy : Copy := ⟨0, 0, 0, .queued, none, 0, []⟩
def aSend : SendSt := ⟨5, 5, false, 0, 0, true, 0, 1, false, 0, aMac, [aCopy], false, none, false, none, false⟩
def aJoin : PendJoin := ⟨57, 0, 0, aMac, [], [], 0⟩
def aOpen : OpenPkt := ⟨.engine 0, 0, [], [], none, []⟩
def aSeen : RfSeen := ⟨0, 0, 0, [], []⟩
def aGet : RfGot := ⟨[], false, 0, 0, 0, 0, none, 0, 0⟩
def aRfRx : RfRx := ⟨0, 1024, 0, 0, 0, some 0, true, false⟩
/-- A sync word of the radio, seen without noise. -/
def aRfSync : RfSync := ⟨0, 0, 0, wordOuts rfSyncWord, 1, bitYs rfSyncWord, 0, 0⟩
def aItem : RfItem := ⟨some 5, 0, true, false, 3, [], [], 0, 0, 0, false⟩
def aKey : KeySlot := {}
def aJob : CipherJob := ⟨5, 1, 0, 0, 0, false, false, [], [], 0, 0, 0, [], 0, 0, 0, 0, 0, false, {}, 0, none⟩
def aBeat : Beat := ⟨true, false, 1024, [none, none, none, none], 0, 0, true⟩
def aTrans : Trans := ⟨5, 1⟩
def aLine : Line := 0

/-- Queue 0 is a byte packet queue with one committed packet of one word. -/
def packed : State :=
  let x : QueueSt := { en := true, fmt := 1, chain := [⟨0x1290, 0, true, 0⟩], tailCell := 0x1290, tailFill := 1, cells := [0x1290] }
  { run with pool := { queues := [(0, x)], used := [0x1290], commits := 1 } }

/-- Queue 0 is a byte packet queue without a word. -/
def emptyQ : State := run.modQueue 0 (fun x => { x with en := true, fmt := 1 })

/-- A meter's EUI-64. -/
def mEui : List Byte := beBytes 8 0x0011223344556677

/-- The first bytes of the meter's registry entry. -/
def entry : List (Nat × Byte) :=
  [(0x01100001, 0x11#8), (0x01100002, 0x22#8), (0x01100003, 0x33#8), (0x01100004, 0x44#8), (0x01100005, 0x55#8), (0x01100006, 0x66#8),
   (0x01100007, 0x77#8), (0x01100008, 0x01#8), (0x0110000A, 0x02#8), (0x0110000C, 0xFF#8)]

/-- The link master key in slot 1, the group key in slot 2, and the meter joined as entry 0 with its home on lane 0. -/
def keyed : State :=
  { run with
    regs := [(SYS_MODE, 4), (SEQ_STAT 0, 0), (SEQ_PC 0, 0x01000000), (HP_CFG, 0x80000000), (HP_CR_BASE, 0x01110004),
      (HP_CPL_BASE, 0x01112004), (HP_EV_BASE, 0x01114004), (QP_POOL, 0x12FF1200), (LP_CFG 0, 1), (LP_STAT 0, 1), (LP_MSTAT 0, 0x80000000),
      (LK_CFG, 0x00010207), (LK_REG, 0x00104000), (LN_CFG 0, 0x80000000), (LN_STAT 0, 0x60000000)]
    sram := entry ++ [(0x01100021, 0x0A#8)]
    wd := { slots := [(1, { key := 7, type := 1, usage := 0x20, version := 1, counter := 1 }),
      (2, { key := 7, type := 1, usage := 0x03, version := 1, counter := 1 })] } }

/-- Frames of the meter under its link key: DATA, an ACK and a JOIN_REQ; and an ECHO. -/
def dataBytes : List Byte := beBytes 21 0x7805000001000609000000df56fe661e24dab94a67
def ackBytes : List Byte := beBytes 20 0x900500000100020900000000697ee88d9a5b71bf
def joinBytes : List Byte := beBytes 29 0x3205000000112233445566770209000000000001001d88b74d8906ee40
def echoBytes : List Byte := fctl 6 true false false false false ++ leBytes 1 5 ++ [0#8, 0#8] ++ leBytes 2 1 ++ [0x61#8, 0#8] ++ leBytes 2 0xFFF1

def dataRx : LinkRx := { aFrame with bytes := dataBytes }
def ackRx : LinkRx := { aFrame with bytes := ackBytes }
def joinRx : LinkRx := { aFrame with bytes := joinBytes }
def echoRx : LinkRx := { aFrame with bytes := echoBytes }
def aGot : Mac := ⟨3, true, true, 5, [0#8, 0#8], leBytes 2 1, none, [], []⟩
/-- A received frame waits. -/
def heard (s : State) (f : LinkRx) : State := { s with link := { s.link with rx := [f] } }

def aUaSend : UaSend := ⟨5, [65], 0⟩

/-- A descriptor with tag 5: its TYPE, and its bytes from 8 on. -/
def desc (type : Nat) (body : List Byte) : List Byte := padTo 64 (leBytes 1 type ++ [0#8] ++ leBytes 2 5 ++ [0#8, 0#8, 0#8, 0#8] ++ body)

/-- The host has placed a descriptor in its command ring. -/
def posted (s : State) (d : List Byte) : State :=
  ({ s with hp := { s.hp with rung := true } }.setBytes 0x01110000 d).put HP_CR_IDX.TAIL 1

/-- The state once that descriptor is taken. -/
def took (s : State) (d : List Byte) : State :=
  ((((posted s d).readSpan (posted s d).crAddr 64).admitDesc d).2).readRefs d

theorem taken_posted (s : State) (d : List Byte) (h : (posted s d).headDesc = some d ∧
    (((posted s d).readSpan (posted s d).crAddr 64).admitDesc d).1 = some ((((posted s d).readSpan (posted s d).crAddr 64).admitDesc d).2)) :
    Taken d (posted s d) (took s d) :=
  ⟨h.1, _, Prod.ext h.2 rfl, rfl⟩

/-- The state after a command that completes. -/
def nextOf (c : Instr) (s : State) : State :=
  match exec c s with
  | .next t => t
  | _ => s

/-- The word of a sequencer instruction is the first of the code. -/
def coded (i : Instr) (s : State) : State := s.setBytes 0x01000000 (leBytes 4 ((seqWord i).elim 0 (·.2)))
/-- The state once it is fetched, and after it has run. -/
def fetched (i : Instr) (s : State) : State := ((coded i s).fetch 0).2
def runs (i : Instr) (s : State) : State := nextOf i (coded i s)

theorem fetched_coded (i : Instr) (s : State)
    (h : (coded i s).coreRuns 0 = true ∧ ((coded i s).core 0).irq = false ∧ ((fetched i s).core 0).irq = false ∧
      ((coded i s).fetch 0).1.isSome = true ∧ seqWord i = ((coded i s).fetch 0).1.map (fun w => ((0 : Core), w.toNat))) :
    Fetched i 0 (coded i s) (fetched i s) := by
  obtain ⟨h1, h2, h3, h4, h5⟩ := h
  obtain ⟨w, hw⟩ := Option.isSome_iff_exists.1 h4
  exact ⟨h1, h2, h3, w, by rw [h5, hw]; rfl, Prod.ext hw rfl⟩

/-- UART_SEND of one byte of the capture partition to UART 0, without and with a break. -/
def uaBody : List Byte := [0#8, 0#8, 0#8, 0#8, 2#8, 0#8, 1#8, 0#8] ++ leBytes 4 0x01110400
def uaBreak : List Byte := [0#8, 1#8, 0#8, 0#8, 2#8, 0#8, 1#8, 0#8] ++ leBytes 4 0x01110400

/-- A mailbox command has been started with these arguments. -/
def mbx (s : State) (op : Nat) (pres : Bool) (a0 a1 : Nat) : State :=
  { withRegs s [(WD_MBX_ARG 0, a0), (WD_MBX_ARG 1, a1)] with wd := { s.wd with mbxOp := some op, mbxPres := pres } }

/-- Slot 1 holds a KEK that may wrap, slot 2 an exportable key, slot 3 a private scalar. -/
def keks : State :=
  ((run.setSlot 1 { key := 7, type := 1, usage := 0x40, version := 1, counter := 1 }).setSlot 2
    { key := 9, type := 1, usage := 0x84, version := 1, counter := 1 }).setSlot 3 { key := 1, type := 3, usage := 0x10, version := 1, counter := 1 }

/-- The blob of an AES128 key with USAGE 4 and COUNTER 3 under the key of slot 1. -/
def aBlob : List Byte := beBytes 32 0x1d46e217f27bac8b791e612358f2a7f40f6079d93d7ed8d0a95ef57f737d7295
/-- The base point of P-256. -/
def aPoint : List Byte := beBytes 64 0x6b17d1f2e12c4247f8bce6e563a440f277037d812deb33a0f4a13945d898c2964fe342e2fe1a7f9b8ee7eb4a7c0f9e162bce33576b315ececbb6406837bf51f5

/-- The warden holds this cipher job. -/
def withJob (s : State) (j : CipherJob) : State := { s with wd := { s.wd with jobs := [j] } }

/-- A CIPHER descriptor for RANDOM of one byte into the capture partition. -/
def rndBody : List Byte := padTo 20 [0x0C#8] ++ ([2#8, 0#8, 1#8, 0#8] ++ leBytes 4 0x01110400) ++ padTo 14 [] ++ [1#8, 0#8]

/-- A unit of a pair whose link is UP. -/
def pairOf (s : State) (role mode : Nat) : State := ((s.put AL_STAT.LINK 2).put AL_STAT.ROLE role).put SYS_MODE.MODE mode

/-- The radio is on in 863 MHz to 928 MHz; link 0 is open as a follower with neighbour 0, the meter. -/
def aired : State :=
  { keyed with
    regs := [(SYS_MODE, 4), (SEQ_STAT 0, 0), (SEQ_PC 0, 0x01000000), (HP_CFG, 0x80000000), (HP_CR_BASE, 0x01110004),
      (HP_CPL_BASE, 0x01112004), (HP_EV_BASE, 0x01114004), (QP_POOL, 0x12FF1200), (LP_CFG 0, 1), (LP_STAT 0, 1), (LP_MSTAT 0, 0x80000000),
      (LK_CFG, 0x00010207), (LK_REG, 0x00104000), (RF_CFG, 0xC7140201), (RF_PHY, 0x28000004), (RF_SYNTH, 34600000), (RF_NBR, 0x1180),
      (RF_LCFG 0, 0xB0000000), (RF_LTIME 0, 0x03E80064), (LN_CFG 0, 0x80000000), (LN_STAT 0, 0x60000000)]
    sram := keyed.sram ++ [(0x01118001, 0x11#8), (0x01118002, 0x22#8), (0x01118003, 0x33#8), (0x01118004, 0x44#8), (0x01118005, 0x55#8),
      (0x01118006, 0x66#8), (0x01118007, 0x77#8), (0x01118008, 0x02#8), (0x0111800A, 0xFF#8), (0x0111800B, 0x01#8)]
    wd := { keyed.wd with otp := { eui := beBytes 8 0x42 } }
    radio := { links := [(0, { inUse := 15 })] } }

/-- The same with link 0 as a leader. -/
def airedLead : State := aired.put (RF_LCFG.ROLE 0) 0
/-- The same with queue 0 cast for deliveries. -/
def airedQ : State := aired.modQueue 0 (fun x => { x with en := true, fmt := 1 })
/-- An item of link 0 is on the air. -/
def airedItem (x : RfItem) : State := aired.modRlink 0 (fun y => { y with items := [x] })

/-- A reception of the radio is in progress. -/
def receiving (s : State) : State := { s with radio := { s.radio with rx := some aRfRx, event := some 0 } }

/-- A radio frame of the meter: type, SEQ, SLV, FC, and what follows AUX; without AUX where SLV is 0. -/
def rfBytes (type seq slv fc : Nat) (tail : List Byte) : List Byte :=
  let dst := if type = 0 then [] else if type = 6 then [255#8, 255#8] else beBytes 8 0x42
  leBytes 1 (type * 32 + (if slv = 0 then 0 else 16) + (if dst.length = 8 then 4 else 0) + 2) ++ leBytes 1 seq ++ dst ++ mEui ++
    (if slv = 0 then [] else leBytes 1 slv ++ leBytes 4 fc) ++ tail

/-- It ends, uncoded and without noise. -/
def rfOf (l : List Byte) : RfSeen :=
  { aSeen with hdr := bitYs (codeHeader (leBytes 1 l.length ++ [0#8])), pay := bitYs (rfPayloadBits l false) }

/-- Bits without noise have the soft values ±4, and nothing of them is open. -/
def softBits (l : List Nat) : List Int := l.map (fun b => if b = 1 then 4 else -4)

theorem softList_bits (s : State) (l : List Nat) : s.softList ((bitYs l).flatMap (softs2 1024)) = (softBits l, s) := by
  induction l with
  | nil => rfl
  | cons b t ih =>
    have h : (bitYs (b :: t)).flatMap (softs2 1024) = (64 * (if b = 1 then 64 else -64), 1024) :: (bitYs t).flatMap (softs2 1024) := rfl
    have h2 : s.softOf (64 * (if b = 1 then 64 else -64)) 1024 = (if b = 1 then 4 else -4, s) := by
      by_cases hb : b = 1 <;> simp [hb, State.softOf, State.divFree, clampInt]
    rw [h, State.softList, h2, ih]
    rfl

theorem padOpen_full {α : Type} (m : Nat) (f : Nat → α) (s : State) (l : List α) : s.padOpen l.length m f l = (l, s) := by
  induction l with
  | nil => rfl
  | cons x t ih => simp [State.padOpen, ih]

theorem demod_bits (s : State) (l : List Nat) : s.demod false 1024 l.length (bitYs l) = (softBits l, s) := by
  have h : ((bitYs l).flatMap (softs2 1024)).length = l.length := by
    induction l with
    | nil => rfl
    | cons b t ih => exact congrArg (· + 1) ih
  have h2 : (softBits l).length = l.length := List.length_map ..
  unfold State.demod
  simp only [if_neg Bool.false_ne_true]
  rw [List.take_of_length_le (Nat.le_of_eq h), softList_bits, ← h2]
  exact padOpen_full _ _ _ _

theorem hardBits_bits (s : State) (l : List Nat) : s.hardBits (softBits l) = (l.map (fun b => b2n (decide (b = 1))), s) := by
  induction l with
  | nil => rfl
  | cons b t ih => by_cases hb : b = 1 <;> simp_all [softBits, State.hardBits, b2n]

/-- The bytes that uncoded bits give, if their CRC-16 holds. -/
def bytesOf (b : List Nat) (n : Nat) : Option (List Byte) :=
  let x := bitsBytes (b.map (fun b => b2n (decide (b = 1))))
  if crc16 (x.take n) = beNat (x.drop n) then some (x.take n) else none

/-- The headers of the frames below, as `run` decodes them. -/
theorem headers : ∀ n ∈ [18, 31, 32, 33, 37, 42, 49],
    (run.rfHeader 1024 (bitYs (codeHeader (leBytes 1 n ++ [0#8])))).1 = some (n, false) := by decide +kernel

/-- A noiseless frame of `n` bytes ends, with the bits `b` of its payload. -/
theorem decode_bits (s : State) (r : RfSeen) (b : List Nat) (n : Nat) (p : Option (List Byte)) (hn : n ∈ [18, 31, 32, 33, 37, 42, 49])
    (hr : r.hdr = bitYs (codeHeader (leBytes 1 n ++ [0#8])) ∧ r.pay = bitYs b)
    (h : s.freeCtr = 0 ∧ s.flag RF_PHY.MOD = false ∧ (codeHeader (leBytes 1 n ++ [0#8])).length = 60 ∧ b.length = rfBits n false ∧
      bytesOf b n = p) : s.rfDecode aRfRx r = (true, p.map (fun l => (l, false)), { s with freeCtr := 2 }) := by
  obtain ⟨h0, hm, ha, hb, hp⟩ := h
  generalize hc : codeHeader (leBytes 1 n ++ [0#8]) = a at ha hr
  have hh := hc ▸ headers n hn
  have e1 : ∀ u : State, u.demod false 1024 60 (bitYs a) = (softBits a, u) := fun u => ha ▸ demod_bits u a
  have e2 : s.rfHeader 1024 (bitYs a) = (some (n, false), { s with freeCtr := 2 }) := by
    have hr : run.freeCtr = 0 := rfl
    rw [← hh]
    simp only [State.rfHeader, e1, State.decodeHeader, State.decode, State.free, h0, hr]
  have e3 : ∀ u : State, u.demod false 1024 (rfBits n false) (bitYs b) = (softBits b, u) := fun u => hb ▸ demod_bits u b
  have hm2 : State.flag { s with freeCtr := 2 } RF_PHY.MOD = false := hm
  unfold State.rfDecode
  simp only [show aRfRx.amp = 1024 from rfl, hr.1, hr.2, e2, State.rfPayload, hm2, e3, hardBits_bits, if_neg Bool.false_ne_true]
  rw [← hp]
  rfl

/-- What is known of a frame, and the state once the MAC has it. -/
def gotR (l : List Byte) : RfGot := ⟨l, false, 0, 0, aRfRx.fofs, aRfRx.chan, aRfRx.link, aRfRx.tick, 0⟩
def gotM (l : List Byte) : RfMac := (parseRf l).getD ⟨0, false, false, false, 0, [], [], [], []⟩
def gotU (s : State) (l : List Byte) : State := (State.rfLast { s with freeCtr := 2 } aRfRx (rfOf l)).rfEndRx aRfRx true

theorem seen_got (s : State) (l : List Byte) (k : Nat)
    (h : l.length ∈ [18, 31, 32, 33, 37, 42, 49] ∧ s.freeCtr = 0 ∧ s.flag RF_PHY.MOD = false ∧
      (codeHeader (leBytes 1 l.length ++ [0#8])).length = 60 ∧ (rfPayloadBits l false).length = rfBits l.length false ∧
      bytesOf (rfPayloadBits l false) l.length = some l ∧ s.radio.rx = some aRfRx ∧ s.radioOn = true ∧
      s.rfTooLong 0 (s.rfAir l.length false) = false ∧ (parseRf l).isSome = true ∧ (gotM l).type = k ∧
      ((gotM l).dst = s.ownEui ∨ (gotM l).type = 0 ∨ (gotM l).type = 6)) :
    s.rfSeen (rfOf l) [k] = (some (gotR l, gotM l), gotU s l) := by
  obtain ⟨hn, h0, h1, h2, h3, h4, hx, hon, hlong, hp, hk, hmine⟩ := h
  obtain ⟨m, hm⟩ := Option.isSome_iff_exists.1 hp
  have e : gotM l = m := by simp [gotM, hm]
  rw [e] at hmine hk
  subst hk
  unfold State.rfSeen
  simp only [hx, hon, decode_bits s (rfOf l) _ _ _ hn ⟨rfl, rfl⟩ ⟨h0, h1, h2, h3, h4⟩, Option.map_some, hm]
  simp [hmine, hlong, aRfRx, gotR, gotU, e, rfOf, aSeen]

/-- A frame under the link key of neighbour `i`, whose FC is new. -/
theorem check_ok (u : State) (m : RfMac) (slv i : Nat) (b : List Byte)
    (h : u.findNbr m.src = some i ∧ u.rfOpenLink m i slv = some b ∧ u.nbrNat i 16 4 < m.fc) : u.rfCheck m slv = (some (i, b), u) := by
  simp [State.rfCheck, h.1, h.2.1, Nat.not_le.2 h.2.2]

/-- RADIO_SEND of one byte on link 0, and as a flood. -/
def rsBody : List Byte := [0#8, 0#8, 0#8, 0#8, 2#8, 0#8, 1#8, 0#8] ++ leBytes 4 0x01110400
def rsFlood : List Byte := [1#8, 0#8, 0#8, 0#8, 2#8, 0#8, 1#8, 0#8] ++ leBytes 4 0x01110400

/-- No sequencer instruction has the word of all ones (R182 to R186). -/
theorem noWord {w : Nat} (hw : 31 * 2 ^ 26 ≤ w) (i : Instr) (k : Core) : seqWord i ≠ some (k, w) :=
  fun h => absurd (Laws.SeqWord.holds i k w h) (by omega)

/-- Guard 0 has tripped and holds output 0. -/
def tripped (s : State) : State := { s.setReg CT_TRIP 1 with ctl := { s.ctl with held := [(0, 1)] } }

/-- The public key that signs the next ingot: X and Y. -/
def aRoot : List Byte := beBytes 32 0x95649cd4d53178f6a158e23c88f342a1d6d2d7e6e0991f5b1e12aa70d2df2eed ++
  beBytes 32 0x68d3b38f4c28e6682cf1000740b6420fdd1f0815f389c5ab9cb9efaa61d8e958
/-- A partial ingot of SCOPE 5 with an empty ROUTE section (R160, R161, R162). -/
def anIngot : List Byte :=
  padTo 64 ([0x4D#8, 0x5A#8, 0x49#8, 0x47#8] ++ leBytes 2 1 ++ leBytes 2 0x256 ++ leBytes 4 0 ++ [1#8, 5#8] ++ leBytes 2 1 ++
    leBytes 4 224 ++ leBytes 4 96) ++ padTo 32 ([3#8, 0#8, 0#8, 0#8] ++ leBytes 4 96) ++ aRoot ++
    beBytes 32 0x7cf27b188d034f7e8a52380304b51ac3c08969e277f21b35a60b48fc47669978 ++
    beBytes 32 0x7cf27b188d034f7e8a52380304b51ac3c08969e277f21b35a60b48fc47669978
/-- It has been pushed and waits for its checks. -/
def pushed : State :=
  { run.put FAB_STAT.STATE 2 with
    fab := { run.fab with src := 2, push := anIngot, partialLoad := true }
    wd := { otp := { roots := [(sha256 aRoot, true)] } } }

/-- A full ingot whose four sections are empty, but for its last word (R160, R161). -/
def bareIngot : List Byte :=
  padTo 64 ([0x4D#8, 0x5A#8, 0x49#8, 0x47#8] ++ leBytes 2 1 ++ leBytes 2 0x256 ++ leBytes 4 0 ++ [0#8, 0#8] ++ leBytes 2 4 ++
    leBytes 4 256 ++ leBytes 4 128) ++ [1#8, 2#8, 6#8, 8#8].flatMap (fun t => padTo 16 ([t, 0#8, 0#8, 0#8] ++ leBytes 4 128)) ++
    padTo 124 []

/-- Port 2 runs grid A under EN_A. -/
def enA : State := run.put (LP_LIM.PROFILE 2) 1

/-! ### Ill-formed commands are refused by the check -/

theorem test_illformed_headerEnd : (Instr.headerEnd 0 (List.replicate 59 7)).wellFormed = false := by decide
theorem test_illformed_handoffRx : (Instr.handoffRx 0 0 [1#8] []).wellFormed = false := by decide

/-! ### The worked example of R196: words and results -/

theorem test_word_addk : seqWord (.addk 12 3 0 64) = some (12, 0x04600040) := by decide
theorem test_word_aclr : seqWord (.aclr 12 1) = some (12, 0x60004007) := by decide
theorem test_word_sin : seqWord (.sin 12 5 0) = some (12, 0x74A00000) := by decide
theorem test_word_mac : seqWord (.mac 12 5 5 1) = some (12, 0x60A54001) := by decide
theorem test_word_addk_minus : seqWord (.addk 12 3 3 (-1)) = some (12, 0x0463FFFF) := by decide
theorem test_word_hne : seqWord (.hne 12 3 0 (-3)) = some (12, 0x4460FFFD) := by decide
theorem test_word_mfa : seqWord (.mfa 12 7 1 16) = some (12, 0x60E01804) := by decide

/-- MFA of 6.4 × 10^13 shifted by 16 gives 976,562,500 (R196). -/
theorem test_mfa : (runs (.mfa 0 7 1 16) (run.setAcc 0 1 64000000000000)).sr 0 7 = 0x3A352944 := by decide +kernel
/-- A square of ±1,000,000 adds 10^12 to an accumulator. -/
theorem test_mac : (runs (.mac 0 5 5 1) (run.setSr 0 5 (-1000000))).acc 0 1 = 1000000000000 := by decide +kernel

/-! ### Other worked values of the specification -/

/-- The check values of CRC-8 and CRC-16 over "123456789" (05_drevline.md). -/
theorem test_crc8 : crc8 (beBytes 9 0x313233343536373839) = 0xF4 := by decide +kernel
theorem test_crc16 : crc16 (beBytes 9 0x313233343536373839) = 0x29B1 := by decide +kernel

/-- A frame of 12 bytes at CP2 has 344 symbols (04_mains_slots.md). -/
theorem test_frameLen : frameLen 12 2 = 344 := by decide +kernel

/-- The ceilings of lanes 17, 30, 44 and 58 of grid A under EN_A, in 0.25 dB (02_line_ports.md). -/
theorem test_ceilings : [17, 30, 44, 58].map (fun k => enA.ceiling 2 k) = [505, 496, 488, 483] := by decide +kernel

/-- The AES-128 and AES-256 values of FIPS 197, and the empty and "abc" digests of FIPS 180-4, which the specification names. -/
theorem test_aes128 : aesEnc (beBytes 16 0x000102030405060708090a0b0c0d0e0f) (beBytes 16 0x00112233445566778899aabbccddeeff) =
    beBytes 16 0x69c4e0d86a7b0430d8cdb78070b4c55a := by decide +kernel
theorem test_aes256 : aesDec (beBytes 32 0x000102030405060708090a0b0c0d0e0f101112131415161718191a1b1c1d1e1f)
    (beBytes 16 0x8ea2b7ca516745bfeafc49904b496089) = beBytes 16 0x00112233445566778899aabbccddeeff := by decide +kernel
theorem test_sha256 : sha256 [0x61#8, 0x62#8, 0x63#8] =
    beBytes 32 0xba7816bf8f01cfea414140de5dae2223b00361a396177a9cb410ff61f20015ad := by decide +kernel

/-- The counters of the worked example in 14_warden.md: the last two values of a slot, then none. -/
theorem test_counters :
    let s := run.setSlot 20 { key := 7, type := 1, usage := 3, version := 7, counter := 0xFFFFFFFD }
    let a := s.takeCounter 20
    let b := a.2.takeCounter 20
    a.1 = some 0xFFFFFFFD ∧ b.1 = some 0xFFFFFFFE ∧ (b.2.slot 20).exhausted = true ∧ (b.2.takeCounter 20).1 = none := by
  decide +kernel

/-- A counter loaded with 2^48 − 16 reads so; one at 2^48 − 1 wraps to 0 with its overflow bit (17_counters.md). -/
theorem test_counter_wraps :
    let s := fun v => nextOf (.pmCtrLoWrite .host 3 v) (nextOf (.pmCtrHiWrite .host 3 0xFFFF) (run.setReg (PM_SEL 3) 0x80000001))
    let t := nextOf (.counterOverflow 3 1) (s 0xFFFFFFFF)
    (s 0xFFFFFFF0).pmCount 3 = 0xFFFFFFFFFFF0 ∧ t.pmCount 3 = 0 ∧ t.reg PM_OVF_LO = 8 := by
  decide +kernel

/-! ### The hypotheses of each statement can be met: a conjunct for each of its clauses -/

theorem wit_OperandListsOfAnyLengthRun :
    (∃ (n : Nat) (l : List Int) (i : _), i < n ∧ i < l.length) ∧
    (∃ (l : List Int), l.length = 60) ∧
    (∃ (u : Uart) (l : List Sample3) (early : Bool) (s : State), l.length = (s.uaRxSet u early).bits) :=
  ⟨⟨1, ([5] : List Int), 0, by decide +kernel⟩,
   ⟨(List.replicate 60 5 : List Int), by decide +kernel⟩,
   ⟨0, (List.replicate 10 ⟨true, true, true, 0, 0⟩ : List Sample3), false, run, by decide +kernel⟩⟩

theorem wit_LaneRegisterWriteFollowsAccessCodes :
    ∃ (who : Accessor) (a : Word) (s : State) (d : RegDesc) (ix : List Nat), a.toNat / 65536 = 16 ∧ regFind a.toNat = some (d, ix) ∧
    a.toNat ≠ LN_CFG ((a.toNat - 0x100000) / 64) ∧ a.toNat ≠ LN_AGC ((a.toNat - 0x100000) / 64) ∧
    a.toNat ≠ LN_MASK_LO ((a.toNat - 0x100000) / 64) ∧ s.refusedFields who a.toNat = [] ∧ Writable s who a.toNat :=
  ⟨.host, 0x100010, run, (((regFind (0x100010 : Word).toNat).get (by decide +kernel)).1 : RegDesc),
  (((regFind (0x100010 : Word).toNat).get (by decide +kernel)).2 : List Nat), by unfold Writable; decide +kernel⟩

theorem wit_ClosedFieldsKeepTheirValue :
    ∃ (who : Accessor) (n : Fin 256) (s : State), s.mode ≠ 3 ∧ Writable s who (LN_TXQ n.val) :=
  ⟨.host, 0, run, by unfold Writable; decide +kernel⟩

theorem wit_ReadsThatClearOrLatch :
    (∃ (who : Accessor) (n : Fin 256) (s : State) (a : Nat), (a = LN_CNT_OK n.val ∨ a = LN_CNT_ERR n.val) ∧ s.reads who = true) ∧
    (∃ (who : Accessor) (i : Fin 6) (j : Fin 16) (s : State) (a : Nat),
    a ∈ [LK_CNT, MT_BAL_CNT, HP_EV_LOST, RF_CNT, AL_CNT, UA_CNT i.val, QP_ECC j.val] ∧ s.reads who = true) :=
  ⟨⟨.host, 0, run, (LN_CNT_OK 0 : Nat), by decide +kernel⟩,
   ⟨.host, 0, 0, run, LK_CNT, by decide +kernel⟩⟩

theorem wit_HolesReadZeroAndAreReported :
    (∃ (a : Word) (s : State), isHole .host a.toNat = true ∧ s.reads .host = true) ∧
    (∃ (a : Word) (s : State), isHole .host a.toNat = true ∧ s.reach .host = true) ∧
    (∃ (k : Core) (a : Word) (s : State), isHole (.core k) a.toNat = true ∧ s.seqMode = true ∧ s.coreState k.val = 0) :=
  ⟨⟨0x00FFFFFC, run, by decide +kernel⟩,
   ⟨0x00FFFFFC, run, by decide +kernel⟩,
   ⟨0, 0x00FFFFFC, ((run.put (SEQ_STAT.STATE 0) 0) : State), by decide +kernel⟩⟩

theorem wit_EventBitsRiseAndReportOnce :
    (∃ (s : State) (f : Fld), s.flag f = true) ∧
    (∃ (s : State) (f : Fld), s.flag f = false ∧ (s.putFlag f true).evtEnabled f = false) ∧
    (∃ (s : State) (f : Fld), s.flag f = false ∧ (s.putFlag f true).evtEnabled f = true ∧ (s.putFlag f true).follower = false ∧
    (s.putFlag f true).island = false) ∧
    (∃ (s : State), s.rings = false) ∧
    (∃ (s : State), s.rings = true ∧ s.evCount + 1 < s.evSize) ∧
    (∃ (s : State), s.rings = true ∧ ¬ s.evCount + 1 < s.evSize) :=
  ⟨⟨((run.putFlag (LN_CFG.ENABLE 0 : Fld) true) : State), (LN_CFG.ENABLE 0 : Fld), by decide +kernel⟩,
   ⟨((run.putFlag (LN_CFG.ENABLE 0 : Fld) false) : State), (LN_CFG.ENABLE 0 : Fld), by decide +kernel⟩,
   ⟨(((run.putFlag (LK_EVT.REPLAY : Fld) false).setReg LK_EVT 0xFFFF0000) : State), LK_EVT.REPLAY, by decide +kernel⟩,
   ⟨((run.putFlag HP_CFG.ENABLE false) : State), by decide +kernel⟩,
   ⟨((run.putFlag HP_CFG.ENABLE true) : State), by decide +kernel⟩,
   ⟨(((run.putFlag HP_CFG.ENABLE true).put HP_EV_IDX.TAIL 15) : State), by decide +kernel⟩⟩

theorem wit_CoefficientBanksSwapAndTakeTaps :
    (∃ (who : Accessor) (p : Port) (v : Word) (s : State), bit v.toNat 31 = true ∧ s.flag (LP_BANK.FADING p) = false ∧
    s.flag (LP_BANK.QUEUED p) = false ∧ Writable s who (LP_BANK p)) ∧
    (∃ (who : Accessor) (p : Port) (v : Word) (s : State), bit v.toNat 31 = true ∧ s.flag (LP_BANK.FADING p) = true ∧
    s.flag (LP_BANK.QUEUED p) = false ∧ Writable s who (LP_BANK p)) ∧
    (∃ (who : Accessor) (p : Port) (v : Word) (s : State), bit v.toNat 31 = true ∧ s.flag (LP_BANK.QUEUED p) = true ∧
    Writable s who (LP_BANK p)) ∧
    (∃ (p : Port) (s : State), s.portOn p = true ∧ s.flag (LP_BANK.FADING p) = true) ∧
    (∃ (p : Port) (n : Nat) (s : State), s.portOn p = true ∧ s.flag (LP_BANK.FADING p) = false ∧ s.flag (LP_BANK.QUEUED p) = true ∧
    (s.port p).queued = some n) ∧
    (∃ (who : Accessor) (p : Port) (s : State), s.flag (LP_BANK.FADING p) = false ∧ s.flag (LP_BANK.QUEUED p) = false ∧
    s.get (LP_COEF_IDX.BANK p) ≠ s.get (LP_BANK.ACTIVE p) ∧ s.get (LP_COEF_IDX.INDEX p) ≤ 383 ∧ Writable s who (LP_COEF_DATA p)) ∧
    (∃ (who : Accessor) (p : Port) (s : State),
    ((s.flag (LP_BANK.FADING p) = true ∨ s.flag (LP_BANK.QUEUED p) = true ∨ s.get (LP_COEF_IDX.BANK p) = s.get (LP_BANK.ACTIVE p) ∨ 383 < s.get (LP_COEF_IDX.INDEX p))) ∧
    Writable s who (LP_COEF_DATA p)) ∧
    (∃ (who : Accessor) (p : Port) (s : State), s.reads who = true ∧ s.get (LP_COEF_IDX.INDEX p) ≤ 383) :=
  ⟨⟨.host, 0, 2147483648, (((run.putFlag (LP_BANK.FADING (0 : Port)) false).putFlag (LP_BANK.QUEUED (0 : Port)) false) : State),
   by unfold Writable; decide +kernel⟩,
   ⟨.host, 0, 2147483648, (((run.putFlag (LP_BANK.FADING (0 : Port)) true).putFlag (LP_BANK.QUEUED (0 : Port)) false) : State),
   by unfold Writable; decide +kernel⟩,
   ⟨.host, 0, 2147483648, ((run.putFlag (LP_BANK.QUEUED (0 : Port)) true) : State), by unfold Writable; decide +kernel⟩,
   ⟨0, (((run.putFlag (LP_CFG.ENABLE (0 : Port)) true).putFlag (LP_BANK.FADING (0 : Port)) true) : State), by decide +kernel⟩,
   ⟨0,
   ((((((((run.putFlag (LP_CFG.ENABLE (0 : Port)) true).putFlag (LP_BANK.FADING (0 : Port)) false).putFlag (LP_BANK.QUEUED (0 : Port)) true).modPort 0 (fun x => { x with queued := some 5 })) : State).port (0 : Port)).queued).get (by decide +kernel) : Nat),
   (((((run.putFlag (LP_CFG.ENABLE (0 : Port)) true).putFlag (LP_BANK.FADING (0 : Port)) false).putFlag (LP_BANK.QUEUED (0 : Port)) true).modPort 0 (fun x => { x with queued := some 5 })) : State),
   by decide +kernel⟩,
   ⟨.host, 0,
   ((((run.putFlag (LP_BANK.FADING (0 : Port)) false).putFlag (LP_BANK.QUEUED (0 : Port)) false).putFlag (LP_COEF_IDX.BANK 0) true) : State),
   by unfold Writable; decide +kernel⟩,
   ⟨.host, 0, run, by unfold Writable; decide +kernel⟩,
   ⟨.host, 0, run, by decide +kernel⟩⟩

theorem wit_HeadroomLoopStepsThePga :
    (∃ (p : Port) (m : SlotMeasure) (s : State) (u k : _), k = s.get (LP_MSTAT.SLOT p) ∧
    u = foldState (onceLanes m) (fun e t => t.laneSlot p e) (((((s.crestSlot p m).countSymbols p false).headroom p m).nmapSlot p k (onceLanes m)).echoSlot p m) ∧
    s.portOn p = true ∧ s.get (LP_MSTAT.STATE p) ≠ 0 ∧ (s.port p).slotEnd = false) ∧
    (∃ (p : Port) (k : Nat) (s : State) (u : _), u = s.countSymbols p true ∧ s.portOn p = true ∧ s.get (LP_MSTAT.STATE p) ≠ 0 ∧
    (s.port p).oldSlot = some k) ∧
    (∃ (p : Nat) (s : State), ((s.locked p = false ∨ s.flag (LP_PGA.MODE p) = true ∨ (s.port p).manual = true))) ∧
    (∃ (p : Nat) (m : SlotMeasure) (s : State), s.locked p = true ∧ s.flag (LP_PGA.MODE p) = false ∧ (s.port p).manual = false ∧
    m.overload = true) ∧
    (∃ (p : Nat) (m : SlotMeasure) (s : State), s.locked p = true ∧ s.flag (LP_PGA.MODE p) = false ∧ (s.port p).manual = false ∧
    m.overload = false ∧ m.atten ≤ 50 * s.get (LP_PGA.HI_THR p)) ∧
    (∃ (p : Nat) (m : SlotMeasure) (s : State), s.locked p = true ∧ s.flag (LP_PGA.MODE p) = false ∧ (s.port p).manual = false ∧
    m.overload = false ∧ 50 * s.get (LP_PGA.HI_THR p) < m.atten) ∧
    (∃ (p : Nat) (r : Byte) (m : SlotMeasure) (s : State), m.resid = some r ∧ s.flag (LP_CANC.ENABLE p) = true) :=
  ⟨⟨0, aSlot, (((run.putFlag (LP_CFG.ENABLE (0 : Port)) true).put (LP_MSTAT.STATE (0 : Port)) 1) : State), _, _, rfl, rfl,
   by decide +kernel⟩,
   ⟨0, 0, (run.modPort 0 (fun x => { x with oldSlot := some 0 }) : State), _, rfl, by decide +kernel⟩,
   ⟨0, ((run.putFlag (LP_PGA.MODE 0) true) : State), by decide +kernel⟩,
   ⟨0, ({ aSlot with overload := true } : SlotMeasure),
   (((run.putFlag (LP_STAT.LOCKED (0 : Nat)) true).putFlag (LP_PGA.MODE (0 : Nat)) false) : State), by decide +kernel⟩,
   ⟨0, aSlot, (((run.putFlag (LP_STAT.LOCKED (0 : Nat)) true).putFlag (LP_PGA.MODE (0 : Nat)) false) : State), by decide +kernel⟩,
   ⟨0, ({ aSlot with atten := 5000 } : SlotMeasure),
   ((((run.putFlag (LP_STAT.LOCKED (0 : Nat)) true).putFlag (LP_PGA.MODE (0 : Nat)) false).put (LP_PGA.HI_THR 0) 0) : State),
   by decide +kernel⟩,
   ⟨0, 3, ({ aSlot with resid := some 3 } : SlotMeasure), ((run.putFlag (LP_CANC.ENABLE (0 : Nat)) true) : State), by decide +kernel⟩⟩

theorem wit_LinePortControlsAndProbe :
    (∃ (who : Accessor) (p : Port) (v : Word) (s : State), bit v.toNat 28 = true ∧ bit v.toNat 29 = true ∧ Writable s who (LP_CANC p)) ∧
    (∃ (p : Port) (s : State), s.portOn p = true ∧ s.locked p = true ∧ s.ctxWaits p = true) ∧
    (∃ (p : Port) (s : State), (s.port p).tail = true ∧ s.lineBusy p = false) ∧
    (∃ (who : Accessor) (p : Port) (v : Word) (s : State) (u : _), u = s.merge (LP_ZPROBE p) 0x0100003F v ∧ bit v.toNat 31 = true ∧
    s.flag (LP_ZPROBE.BUSY p) = false ∧ Writable s who (LP_ZPROBE p)) ∧
    (∃ (who : Accessor) (p : Port) (s : State), s.flag (LP_ZPROBE.BUSY p) = true ∧ Writable s who (LP_ZPROBE p)) ∧
    (∃ (p : Port) (v i m : Nat) (phase : Int) (s : State), (s.port p).probe = .measured ∧ 0 < s.get (LP_ZCAL.KI p) * i ∧
    16 * s.get (LP_ZCAL.KV p) * v = m * (s.get (LP_ZCAL.KI p) * i) ∧ m ≤ 65535 ∧ -18000 ≤ phase ∧ phase ≤ 18000) ∧
    (∃ (who : Accessor) (p : Port) (v : Word) (s : State), bit v.toNat 31 = true ∧ Writable s who (LP_NMAP_CFG p)) ∧
    (∃ (who : Accessor) (p : Port) (s : State) (k w : _), k = s.get (LP_NMAP_IDX.LANE p) ∧ w = s.get (LP_NMAP_IDX.WORD p) ∧
    s.reads who = true) :=
  ⟨⟨.host, 0, 0xB0000000, run, by unfold Writable; decide +kernel⟩,
   ⟨0,
   ((((run.putFlag (LP_CFG.ENABLE (0 : Port)) true).putFlag (LP_STAT.LOCKED (0 : Port)) true).modPort 0 (fun x => { x with ctxs := [(0, some aCtx)] })) : State),
   by decide +kernel⟩,
   ⟨0, ((run.modPort 0 (fun x => { x with tail := true })) : State), by decide +kernel⟩,
   ⟨.host, 0, 2147483648, ((run.putFlag (LP_ZPROBE.BUSY (0 : Port)) false) : State), _, rfl, by unfold Writable; decide +kernel⟩,
   ⟨.host, 0, ((run.putFlag (LP_ZPROBE.BUSY (0 : Port)) true) : State), by unfold Writable; decide +kernel⟩,
   ⟨0, 0, 1, 0, 0, ((run.put (LP_ZCAL.KI 0) 1).modPort 0 (fun x => { x with probe := .measured }) : State), by decide +kernel⟩,
   ⟨.host, 0, 2147483648, run, by unfold Writable; decide +kernel⟩,
   ⟨.host, 0, run, _, _, rfl, rfl, by decide +kernel⟩⟩

theorem wit_MainsLockFollowsCrossings :
    (∃ (p : Port) (t x : Nat) (z : Int) (s : State), z = usTime (s.getInt (LP_MAINS.ZC_TRIM p)) ∧ x = ((t : Int) + z).toNat ∧
    s.get (LP_MSTAT.STATE p) = 1 ∧ s.metering = true ∧ s.powered (s.get (LP_MAINS.VCH p)) = true ∧ s.meter.fastLeft = 0 ∧
    (s.port p).trim = z) ∧
    (∃ (p x : Nat) (s : State), (((s.port p).lastX = none ∨ ∃ l, (s.port p).lastX = some l ∧ inRange (x - l) = false))) ∧
    (∃ (p x l q : Nat) (s : State), (s.port p).lastX = some l ∧ (s.port p).lastPer = some q ∧ inRange (x - l) = true ∧
    200 * (x - l - q) ≤ q ∧ 200 * (q - (x - l)) ≤ q ∧ (s.port p).run < 7) ∧
    (∃ (p x l q m : Nat) (s : State) (u off : _),
    u = s.modPort p (fun z => { z with run := (s.port p).run + 1, lastX := some x, lastPer := some (x - l) }) ∧
    off = ((m : Int) - x) % ((x - l : Nat) : Int) ∧ (s.port p).lastX = some l ∧ (s.port p).lastPer = some q ∧ inRange (x - l) = true ∧
    200 * (x - l - q) ≤ q ∧ 200 * (q - (x - l)) ≤ q ∧ 7 ≤ (s.port p).run ∧ s.lastSense x = some m) ∧
    (∃ (p : Port) (t x q per : Nat) (z e : Int) (s : State), z = usTime (s.getInt (LP_MAINS.ZC_TRIM p)) ∧ x = ((t : Int) + z).toNat ∧
    e = (x : Int) - q ∧ per = ((s.period p : Int) + e / 16).toNat ∧ ((s.get (LP_MSTAT.STATE p) = 2 ∨ s.get (LP_MSTAT.STATE p) = 3)) ∧
    s.metering = true ∧ s.powered (s.get (LP_MAINS.VCH p)) = true ∧ s.meter.fastLeft = 0 ∧ (s.port p).trim = z ∧
    (s.port p).pred = some q ∧ (s.port p).taken = false ∧ 360 * e ≤ s.period p ∧ 360 * (-e) ≤ s.period p ∧ e % 64 = 0) ∧
    (∃ (p : Port) (t x q : Nat) (z : Int) (s : State), z = usTime (s.getInt (LP_MAINS.ZC_TRIM p)) ∧ x = ((t : Int) + z).toNat ∧
    ((s.get (LP_MSTAT.STATE p) = 2 ∨ s.get (LP_MSTAT.STATE p) = 3)) ∧ s.metering = true ∧ s.powered (s.get (LP_MAINS.VCH p)) = true ∧
    s.meter.fastLeft = 0 ∧ (s.port p).trim = z ∧ (s.port p).pred = some q ∧
    (((s.port p).taken = true ∨ (s.period p : Int) < 360 * ((x : Int) - q) ∨ (s.period p : Int) < 360 * ((q : Int) - x)))) ∧
    (∃ (p : Nat) (z d off : Int) (s : State) (u : _), d = z - (s.port p).trim ∧
    off = ((s.port p).alpha - d) % (max (s.port p).alphaPer 1 : Nat) ∧
    u = s.modPort p (fun x => { x with trim := z, lastX := x.lastX.map (fun t => ((t : Int) + d).toNat), pred := x.pred.map (fun t => ((t : Int) + d).toNat), z := if x.begun then ((x.z : Int) + d).toNat else x.z, alpha := off }) ∧
    d ≠ 0) ∧
    (∃ (p : Port) (s : State), s.get (LP_MSTAT.STATE p) = 2 ∧ (s.port p).taken = false ∧ 0 < s.get (LP_MAINS.HOLDOVER p)) ∧
    (∃ (p : Port) (s : State), s.get (LP_MSTAT.STATE p) = 2 ∧ (s.port p).taken = false ∧ s.get (LP_MAINS.HOLDOVER p) = 0) ∧
    (∃ (p : Port) (s : State), s.get (LP_MSTAT.STATE p) = 3 ∧ (s.port p).taken = false ∧
    s.get (LP_MAINS.HOLDOVER p) ≤ s.get (LP_MSTAT.HOLD_CNT p) + 1) ∧
    (∃ (p : Port) (s : State), s.get (LP_MSTAT.STATE p) = 3 ∧ (s.port p).taken = false ∧
    s.get (LP_MSTAT.HOLD_CNT p) + 1 < s.get (LP_MAINS.HOLDOVER p)) ∧
    (∃ (who : Accessor) (n : LaneN) (s : State), Writable s who (LN_MASK_LO n)) :=
  ⟨⟨0, 0, _, _,
   (((((run.putBit MT_CFG.CH_EN 0 true).put (LP_MSTAT.STATE (0 : Port)) 1).putFlag MT_CFG.ENABLE true).modPort 0 (fun x => { x with trim := 0 })) : State),
   rfl, rfl, by decide +kernel⟩,
   ⟨0, 0, run, by decide +kernel⟩,
   ⟨0, 20971520, 0, 20971520, (run.modPort 0 (fun x => { x with lastX := some 0, lastPer := some 20971520 }) : State), by decide +kernel⟩,
   ⟨0, 20971520, 0, 20971520,
   (((((({ run with iron := { run.iron with lastRise := some 655 } } : State)).modPort 0 (fun x => { x with lastX := some 0, lastPer := some 20971520, run := 7 })) : State).lastSense (20971520 : Nat)).get (by decide +kernel) : Nat),
   (((({ run with iron := { run.iron with lastRise := some 655 } } : State)).modPort 0 (fun x => { x with lastX := some 0, lastPer := some 20971520, run := 7 })) : State),
   _, _, rfl, rfl, by decide +kernel⟩,
   ⟨0, 0, _, 0, _, _, _,
   ((((run.putBit MT_CFG.CH_EN 0 true).putFlag MT_CFG.ENABLE true).modPort 0 (fun x => { x with pred := some 0 })) : State), rfl, rfl,
   rfl, rfl, by decide +kernel⟩,
   ⟨0, 0, _, 0, _,
   ((((run.putBit MT_CFG.CH_EN 0 true).putFlag MT_CFG.ENABLE true).modPort 0 (fun x => { x with pred := some 0, taken := true })) : State),
   rfl, rfl, by decide +kernel⟩,
   ⟨0, 5, _, _, run, _, rfl, rfl, rfl, by decide +kernel⟩,
   ⟨0, (((run.put (LP_MSTAT.STATE (0 : Port)) 2).put (LP_MAINS.HOLDOVER (0 : Port)) 1) : State), by decide +kernel⟩,
   ⟨0, (((run.put (LP_MSTAT.STATE (0 : Port)) 2).put (LP_MAINS.HOLDOVER (0 : Port)) 0) : State), by decide +kernel⟩,
   ⟨0, (((run.put (LP_MSTAT.STATE (0 : Port)) 3).put (LP_MSTAT.HOLD_CNT 0) 255) : State), by decide +kernel⟩,
   ⟨0, ((run.put (LP_MSTAT.STATE (0 : Port)) 3) : State), by decide +kernel⟩,
   ⟨.host, 0, run, by unfold Writable; decide +kernel⟩⟩

theorem wit_LaneFindsAFrame :
    (∃ (n : LaneN) (x : Nat) (l : List Int) (s : State) (u : _), u = (s.agcRun n l).holdNoise n ∧ s.laneState n = 3 ∧
    u.matchOk n x = true) ∧
    (∃ (n : LaneN) (x : Nat) (l : List Int) (s : State) (u : _), u = (s.agcRun n l).holdNoise n ∧ s.laneState n = 3 ∧
    u.matchOk n x = false) ∧
    (∃ (n : LaneN) (d : Int) (s : State), d = s.deltaHz (n / 64) ∧ s.laneState n = 4 ∧ 8 ≤ (s.lane n).symFull) ∧
    (∃ (n : LaneN) (s : State), s.laneState n = 4 ∧ s.syncWin n ≤ (s.lane n).symMain ∧ s.syncWin n ≤ (s.lane n).symFull) ∧
    (∃ (n : LaneN) (a b : Option SyncSeen) (full : Bool) (y : SyncSeen) (c r : Reception) (d : Int) (s : State),
    d = s.deltaHz (n / 64) / 2 ∧
    r = s.fixRx n { c with full := full, mask := if full = true then s.fullMask (n / 64) else c.mask, fofs := s.getInt (LN_FOFS.FOFS n) + clampInt (-d) d y.fofs } y ∧
    s.laneState n = 4 ∧ (s.lane n).sync = some c ∧ s.syncPick n a b = some (full, y)) ∧
    (∃ (n : Nat) (y z : SyncSeen) (s : State), (s.lane n).symMain ≤ s.syncWin n ∧ (s.lane n).symFull ≤ s.syncWin n ∧
    s.syncOk n false y = true ∧ s.syncOk n true z = true) ∧
    (∃ (n : LaneN) (y : SyncSeen) (g : Int) (c r : Reception) (s : State), r = s.shadowRx n c y g ∧ (s.lane n).rx = some c ∧
    s.syncOk n c.full y = true ∧ s.get (LN_STAT.SYM n) ≤ 60) ∧
    (∃ (n : LaneN) (y : SyncSeen) (g : Int) (c r : Reception) (h : Nat × Nat) (s : State), r = s.shadowRx n c y g ∧
    (s.lane n).rx = some c ∧ s.syncOk n c.full y = true ∧ c.hdr = some h ∧ 60 < s.get (LN_STAT.SYM n) ∧
    s.get (LN_STAT.SYM n) = 60 + paySymbols h.1 h.2) ∧
    (∃ (n : LaneN) (y : SyncSeen) (g : Int) (c r : Reception) (h : Nat × Nat) (s : State), r = s.shadowRx n c y g ∧
    (s.lane n).rx = some c ∧ s.syncOk n c.full y = true ∧ c.hdr = some h ∧ 60 < s.get (LN_STAT.SYM n) ∧
    s.get (LN_STAT.SYM n) ≠ 60 + paySymbols h.1 h.2) ∧
    (∃ (n : LaneN) (s : State), s.laneState n = 4 ∧ s.flag (LN_GAIN.FROZEN n) = true) ∧
    (∃ (n : LaneN) (s : State), s.laneState n ≠ 4) :=
  ⟨⟨0, 4095, ([] : List Int), (((run.put (LN_STAT.STATE 0) 3).modLane 0 (fun x => { x with noise := [1] })) : State), _, rfl,
   by decide +kernel⟩,
   ⟨0, 0, ([] : List Int), (((run.put (LN_STAT.STATE 0) 3).modLane 0 (fun x => { x with noise := [1] })) : State), _, rfl,
   by decide +kernel⟩,
   ⟨0, _, (((run.put (LN_STAT.STATE 0) 4).modLane 0 (fun x => { x with symFull := 8 })) : State), rfl, by decide +kernel⟩,
   ⟨0, (((run.put (LN_STAT.STATE 0) 4).modLane 0 (fun x => { x with symMain := 48, symFull := 48 })) : State), by decide +kernel⟩,
   ⟨0, (some aSync : Option SyncSeen), none, false, aSync, aRec, _, _,
   (((run.put (LN_STAT.STATE 0) 4).modLane 0 (fun x => { x with sync := some aRec, noise := [1] })) : State), rfl, rfl, by decide +kernel⟩,
   ⟨0, aFull, aFull, run, by decide +kernel⟩,
   ⟨0, aSync, 0, aRec, _, (run.modLane 0 (fun x => { x with rx := some aRec, noise := [1] }) : State), rfl, by decide +kernel⟩,
   ⟨0, aSync, 0, ({ aRec with hdr := some (0, 1) } : Reception), _, ((0, 1) : Nat × Nat),
   ((run.put (LN_STAT.SYM 0) (60 + paySymbols 0 1)).modLane 0 (fun x => { x with rx := some { aRec with hdr := some (0, 1) }, noise := [1] }) : State),
   rfl, by decide +kernel⟩,
   ⟨0, aSync, 0, ({ aRec with hdr := some (0, 1) } : Reception), _, ((0, 1) : Nat × Nat),
   ((run.put (LN_STAT.SYM 0) 61).modLane 0 (fun x => { x with rx := some { aRec with hdr := some (0, 1) }, noise := [1] }) : State), rfl,
   by decide +kernel⟩,
   ⟨0, (((run.put (LN_STAT.STATE 0) 4).putFlag (LN_GAIN.FROZEN (0 : LaneN)) true) : State), by decide +kernel⟩,
   ⟨0, run, by decide +kernel⟩⟩

theorem wit_LaneDecodesAFrame :
    (∃ (n : LaneN) (l soft : List Int) (r : Reception) (s : State) (u : _), s.demod false r.amp 60 l = (soft, u) ∧ l.length = 60 ∧
    s.laneState n = 5 ∧ (s.lane n).rx = some r ∧ 60 ≤ s.get (LN_STAT.SYM n) ∧ ((∀ j ∈ s.dec.hdrs, j.n ≠ n.val)) ∧ ((∀ e ∈ s.dec.tiles,
    ∀ j, e.2 = some j → j.n ≠ n.val ∨ j.hdr = false))) ∧
    (∃ (n : LaneN) (l soft : List Int) (r : Reception) (len cp : Nat) (s : State) (u : _),
    s.demod (decide (cp ≤ 1)) r.amp (softCount len cp) l = (soft, u) ∧ s.laneState n = 6 ∧ (s.lane n).rx = some r ∧ r.hdr = some (len,
    cp) ∧ 60 + paySymbols len cp ≤ s.get (LN_STAT.SYM n)) ∧
    (∃ (tile : Tile) (j : DecJob) (t : List DecJob) (s : State), mget tileDef s.dec.tiles tile = none ∧ s.dec.hdrs = j :: t) ∧
    (∃ (tile : Tile) (j : DecJob) (t : List DecJob) (s : State), mget tileDef s.dec.tiles tile = none ∧ s.dec.hdrs = [] ∧
    s.dec.pays = j :: t) ∧
    (∃ (tile : Tile) (j : DecJob) (n : LaneN) (r : Reception) (o : Option (Nat × Nat)) (k : Nat) (s : State) (u v : _),
    u = State.setDecPend { s with dec := { s.dec with tiles := mset tileDef s.dec.tiles tile none } } n ∧ u.decodeHeader j.soft = (o, k,
    v) ∧ mget tileDef s.dec.tiles tile = some j ∧ j.hdr = true ∧ j.n = n.val ∧ (u.lane n).rx = some r) ∧
    (∃ (tile : Tile) (j : DecJob) (n : LaneN) (len cp fixed : Nat) (l : List Byte) (ok : Bool) (s : State) (v rx : _),
    rx = { j.rx with corrected := j.rx.corrected + fixed } ∧
    (State.setDecPend { s with dec := { s.dec with tiles := mset tileDef s.dec.tiles tile none } } n).decodePayload j.soft len cp (ones 60 j.rx.mask)
    = (l, ok, fixed, v) ∧ mget tileDef s.dec.tiles tile = some j ∧ j.hdr = false ∧ j.n = n.val ∧ j.rx.hdr = some (len, cp)) ∧
    (∃ (who : Accessor) (n : LaneN) (v : Word) (s : State), bit v.toNat 31 = true ∧ (s.lane n).bound = true ∧
    s.flag (LN_CFG.ENABLE n) = false ∧ Writable s who (LN_CFG n)) ∧
    (∃ (who : Accessor) (n : LaneN) (v : Word) (s : State), bit v.toNat 31 = true ∧ (s.lane n).bound = true ∧
    s.flag (LN_CFG.ENABLE n) = true ∧ Writable s who (LN_CFG n)) ∧
    (∃ (who : Accessor) (n : LaneN) (v : Word) (s : State), ((bit v.toNat 31 = false ∨ (s.lane n).bound = false)) ∧
    Writable s who (LN_CFG n)) ∧
    (∃ (p : Port) (k : LaneK) (s : State), (s.lane (p.val * 64 + k.val)).blk = 2) :=
  ⟨⟨0, (List.replicate 60 (-64) : List Int), _, aRec,
   ((((run.put (LN_STAT.STATE 0) 5).put (LN_STAT.SYM (0 : LaneN)) 60).modLane 0 (fun x => { x with rx := some aRec })) : State), _,
   parts _, by decide +kernel⟩,
   ⟨0, (List.replicate (softCount 0 1) 64 : List Int), _, ({ aRec with hdr := some (0, 1) } : Reception), 0, 1,
   (((run.put (LN_STAT.STATE 0) 6).put (LN_STAT.SYM 0) (60 + paySymbols 0 1)).modLane 0 (fun x => { x with rx := some { aRec with hdr := some (0, 1) } }) : State),
   _, parts _, by decide +kernel⟩,
   ⟨0, aDec, ([] : List DecJob), ({ run with dec := { hdrs := [aDec] } } : State), by decide +kernel⟩,
   ⟨0, ({ aDec with hdr := false } : DecJob), ([] : List DecJob), ({ run with dec := { pays := [{ aDec with hdr := false }] } } : State),
   by decide +kernel⟩,
   ⟨0, aDec, 0, aRec, _, _, (({ run with dec := { tiles := [(0, some aDec)] } }).modLane 0 (fun x => { x with rx := some aRec }) : State),
   _, _, rfl, parts _, by decide +kernel⟩,
   ⟨0, ({ aDec with hdr := false, soft := List.replicate 60 7, rx := { aRec with hdr := some (1, 1) } } : DecJob), 0, 1, 1, _, _, _,
   ({ run with dec := { tiles := [(0, some { aDec with hdr := false, soft := List.replicate 60 7, rx := { aRec with hdr := some (1, 1) } })] } } : State),
   _, _, rfl, parts _, by decide +kernel⟩,
   ⟨.host, 0, 2147483648, ((run.putFlag (LN_CFG.ENABLE (0 : LaneN)) false) : State), by unfold Writable; decide +kernel⟩,
   ⟨.host, 0, 2147483648, ((run.putFlag (LN_CFG.ENABLE (0 : LaneN)) true) : State), by unfold Writable; decide +kernel⟩,
   ⟨.host, 0, 0, run, by unfold Writable; decide +kernel⟩,
   ⟨0, 0, ((run.modLane 0 (fun x => { x with blk := 2 })) : State), by decide +kernel⟩⟩

theorem wit_TransmissionFollowsItsCycle :
    (∃ (p : Port) (c : Nat) (s : State) (u v : _), c = (s.get (LP_MCYC.CYCLE p) + 1) % 2 ^ 32 ∧
    u = (((((s.sweep p).readItems p).closeJoins p c).allocBeacon p c).allocAnswers p c) ∧
    v = foldState (u.port p).joins (fun j t => t.allocJoin p c j) u ∧ s.portOn p = true ∧ s.locked p = true) ∧
    (∃ (p : Port) (s : State), s.portOn p = true ∧ s.locked p = false) ∧
    (∃ (p : Nat) (s : State), s.txHeld p = true) ∧
    (∃ (p : Port) (s : State) (u : _),
    u = ((((s.beginCycle p).put (LP_MSTAT.SLOT p) 0).modPort p (fun x => { x with slotEnd := false })).beginSlot p) ∧ s.portOn p = true ∧
    s.get (LP_MSTAT.STATE p) ≠ 0 ∧ (s.port p).begun = false ∧ (s.port p).slotEnd = true) ∧
    (∃ (p : Nat) (s : State) (u v : _), u = s.modPort p (fun x => { x with z := x.pred.getD x.z, begun := true }) ∧
    v = u.modPort p (fun x => { x with readAt := if 2 * ((u.port p).z : Int) < (u.port p).readTwice then some ((u.port p).readTwice / 2) else none }) ∧
    s.locked p = true) ∧
    (∃ (p : Nat) (s : State) (u : _), u = s.modPort p (fun x => { x with z := x.pred.getD x.z, begun := true }) ∧ s.locked p = false) ∧
    (∃ (p : Port) (c : Ctx) (x : TxCtx) (s : State) (m u : _), m = s.txMask p x.k x.full ∧
    u = (((s.cutSpan p).setCtx p c (some { x with started := true, mask := m, syms := s.txSymbols p x m })).onStart p x) ∧
    s.ctx p c = some x ∧ x.started = false ∧ s.portOn p = true ∧ s.locked p = true ∧ (s.port p).slotEnd = false ∧
    s.get (LP_MSTAT.SLOT p) = lowSlot m (s.slots p)) ∧
    (∃ (p : Port) (c : Ctx) (x : TxCtx) (s : State) (u : _), u = (((s.cutSpan p).setCtx p c none).showCtx p x.k) ∧ s.ctx p c = some x ∧
    x.started = true ∧ s.ctxLen p x ≤ x.sent ∧ x.kind ≠ .tone) ∧
    (∃ (n : LaneN) (q i : Nat) (s : State), s.portOn (n / 64) = true ∧ s.nextItem n = some (q, i)) ∧
    (∃ (p : Port) (s : State), s.portOn p = true ∧ s.get (LP_ISNS.OC_LIMIT p) ≠ 0) :=
  ⟨⟨0, _, (((run.putFlag (LP_CFG.ENABLE (0 : Port)) true).putFlag (LP_STAT.LOCKED (0 : Port)) true) : State), _, _, rfl, rfl, rfl,
   by decide +kernel⟩,
   ⟨0, (((run.putFlag (LP_CFG.ENABLE (0 : Port)) true).putFlag (LP_STAT.LOCKED (0 : Port)) false) : State), by decide +kernel⟩,
   ⟨0, ((run.putFlag (LP_CFG.TX_HOLD 0) true) : State), by decide +kernel⟩,
   ⟨0,
   ((((run.putFlag (LP_CFG.ENABLE (0 : Port)) true).put (LP_MSTAT.STATE (0 : Port)) 1).modPort 0 (fun x => { x with slotEnd := true })) : State),
   _, rfl, by decide +kernel⟩,
   ⟨0, ((run.putFlag (LP_STAT.LOCKED (0 : Nat)) true) : State), _, _, rfl, rfl, by decide +kernel⟩,
   ⟨0, ((run.putFlag (LP_STAT.LOCKED (0 : Nat)) false) : State), _, rfl, by decide +kernel⟩,
   ⟨0, 0, aCtx,
   ((((run.putFlag (LP_CFG.ENABLE (0 : Port)) true).putFlag (LP_STAT.LOCKED (0 : Port)) true).modPort 0 (fun x => { x with ctxs := [(0, some aCtx)] })) : State),
   _, _, rfl, rfl, by decide +kernel⟩,
   ⟨0, 0, ({ aCtx with started := true, sent := 1000 } : TxCtx),
   (run.modPort 0 (fun x => { x with ctxs := [(0, some { aCtx with started := true, sent := 1000 })] }) : State), _, rfl,
   by decide +kernel⟩,
   ⟨0, (((((packed.putFlag (LP_CFG.ENABLE ((0 : LaneN) / 64)) true) : State).nextItem (0 : LaneN)).get (by decide +kernel)).1 : Nat),
   (((((packed.putFlag (LP_CFG.ENABLE ((0 : LaneN) / 64)) true) : State).nextItem (0 : LaneN)).get (by decide +kernel)).2 : Nat),
   ((packed.putFlag (LP_CFG.ENABLE ((0 : LaneN) / 64)) true) : State), by decide +kernel⟩,
   ⟨0, (((run.putFlag (LP_CFG.ENABLE (0 : Port)) true).put (LP_ISNS.OC_LIMIT (0 : Port)) 1) : State), by decide +kernel⟩⟩

theorem wit_LinkLayerAcceptsDataOnce :
    (∃ (f : LinkRx) (m : Mac) (s : State) (u : _), s.takeRx .data = some (f, u) ∧ parseMac f.bytes = some m ∧ m.kind = 3 ∧ m.toMe = true) ∧
    (∃ (f : LinkRx) (t : List LinkRx) (s : State), s.link.rx = f :: t ∧ s.rxKind f = .data) ∧
    (∃ (m : Mac) (s : State), s.sender m.src = none ∧ s.island = false) ∧
    (∃ (f : LinkRx) (m : Mac) (i : Nat) (s : State), s.sender m.src = some i ∧ s.pass f i = none ∧ s.openFrame m i = none) ∧
    (∃ (f : LinkRx) (m : Mac) (i : Nat) (b : List Byte) (s : State), s.sender m.src = some i ∧ s.pass f i = none ∧
    s.openFrame m i = some b ∧ s.entState i ≠ 2) ∧
    (∃ (f : LinkRx) (m : Mac) (i : Nat) (b : List Byte) (s : State), s.sender m.src = some i ∧ s.pass f i = none ∧
    s.openFrame m i = some b ∧ s.entState i = 2 ∧ dupCheck (s.entNat i 12 1) (s.entNat i 14 2) m.seq = none) ∧
    (∃ (f : LinkRx) (m : Mac) (i r d : Nat) (b : List Byte) (s : State), s.sender m.src = some i ∧ s.pass f i = none ∧
    s.openFrame m i = some b ∧ s.entState i = 2 ∧ dupCheck (s.entNat i 12 1) (s.entNat i 14 2) m.seq = some (r, d)) ∧
    (∃ (f : LinkRx) (s : State) (u : _), u = s.count LK_CNT.DUP_RX 1 ∧ s.flag (LN_CFG.ERR_REC (f.lane % 256)) = false ∧
    s.ownLane f.lane = some (f.lane % 256)) ∧
    (∃ (f : LinkRx) (q code : Nat) (b : List Byte) (l : List PoolNote) (s : State) (u : _), q = s.get (LP_LINK.DLVQ (f.lane % 256 / 64)) ∧
    s.putPacket (.engine 0) q b = (code, u, l) ∧ s.follower = false ∧ s.island = false ∧ code ≠ 1) ∧
    (∃ (f : LinkRx) (m : Mac) (i r d fc q : Nat) (b : List Byte) (l : List PoolNote) (s : State) (u v w x : _),
    v = ((u.tellPool l).putEntry i 12 (leBytes 1 r)).putEntry i 14 (leBytes 2 d ++ leBytes 4 fc ++ leBytes 4 f.endCyc) ∧
    w = v.putEntry i 28 (leBytes 2 (putBits (v.entNat i 28 2) 8 0 f.lane) ++ leBytes 1 (bits (nth 0 f.quality 4).toNat 31 24) ++ leBytes 1 (bits (nth 0 f.quality 0).toNat 23 16)) ∧
    x = (if m.ackreq = true then w.reply f m (some i) none else w) ∧ s.putPacket (.engine 0) q b = (1, u, l) ∧ s.follower = false ∧
    s.island = false ∧ q = s.get (LP_LINK.DLVQ (f.lane % 256 / 64))) ∧
    (∃ (x q : Nat), x < 256 ∧ q < 256) :=
  ⟨⟨dataRx, ((parseMac dataRx.bytes).get (by decide +kernel) : Mac), (heard keyed dataRx : State),
   (((heard keyed dataRx : State).takeRx .data).get (by decide +kernel)).2, by decide +kernel⟩,
   ⟨dataRx, ([] : List LinkRx), (heard keyed dataRx : State), by decide +kernel⟩,
   ⟨aGot, run, by decide +kernel⟩,
   ⟨dataRx, aGot, (((heard keyed dataRx : State).sender aGot.src).get (by decide +kernel) : Nat), (heard keyed dataRx : State),
   by decide +kernel⟩,
   ⟨ackRx, ((parseMac dataBytes).getD aGot : Mac), 0, ([1#8, 2#8] : List Byte), (keyed.putEntry 0 10 [3#8] : State), by decide +kernel⟩,
   ⟨ackRx, ((parseMac dataBytes).getD aGot : Mac), 0, ([1#8, 2#8] : List Byte), (keyed.putEntry 0 12 [5#8, 0#8, 1#8, 0#8] : State),
   by decide +kernel⟩,
   ⟨ackRx, ((parseMac dataBytes).getD aGot : Mac), 0, 5, 1, ([1#8, 2#8] : List Byte), keyed, by decide +kernel⟩,
   ⟨ackRx, ((run.putFlag (LN_CFG.ERR_REC (ackRx.lane % 256)) false) : State), _, rfl, by decide +kernel⟩,
   ⟨ackRx, _, _, ([] : List Byte), _, run, _, rfl, parts _, by decide +kernel⟩,
   ⟨dataRx, aGot, 0, 0, 0, 0, 0, ([1#8] : List Byte), ((packed.putPacket (.engine 0) (0 : Nat) ([1#8] : List Byte)).2.2 : List PoolNote),
   packed, (packed.putPacket (.engine 0) (0 : Nat) ([1#8] : List Byte)).2.1, _, _, _, rfl, rfl, rfl,
   Prod.ext (by decide +kernel) (Prod.ext rfl rfl), by decide +kernel⟩,
   ⟨0, 0, by decide +kernel⟩⟩

theorem wit_LinkLayerAnswersJoinsAndEchoes :
    (∃ (f : LinkRx) (m : Mac) (i n : Nat) (b : List Byte) (x : SendSt) (s : State) (u : _), s.takeRx .ack = some (f, u) ∧
    parseMac f.bytes = some m ∧ u.sender m.src = some i ∧ u.pass f i = none ∧ u.openFrame m i = some b ∧ u.answered i m.seq = some (x, n)) ∧
    (∃ (f : LinkRx) (m : Mac) (s : State) (u : _), s.takeRx .join = some (f, u) ∧ parseMac f.bytes = some m) ∧
    (∃ (f : LinkRx) (m : Mac) (n : Nat) (s : State), s.island = false ∧ s.paired = false ∧ s.ownLane f.lane = some n ∧
    s.joinTag m = false) ∧
    (∃ (f : LinkRx) (m : Mac) (n : Nat) (s : State), s.island = false ∧ s.paired = false ∧ s.ownLane f.lane = some n ∧
    s.joinTag m = true ∧ s.joinOk (n / 64) = false) ∧
    (∃ (f : LinkRx) (m : Mac) (n : Nat) (s : State), s.island = false ∧ s.paired = false ∧ s.ownLane f.lane = some n ∧
    s.joinOk (n / 64) = true ∧ s.joinTag m = true ∧ m.rest.length = 17 ∧ u8 m.rest 7 < 2 ∧ s.joinSeen f m = none) ∧
    (∃ (f : LinkRx) (m : Mac) (n b : Nat) (s : State) (u l : _), s.takeRx .echo = some (f, u) ∧ parseMac f.bytes = some m ∧
    u.ownLane f.lane = some n ∧ u.echoPort (n / 64) m = some b ∧ l = u.link.echoes.filter (fun e => nearCycles f.endCyc e.2.2.2 64) ∧
    ((∀ e ∈ l, (e.1, e.2.1, e.2.2.1) ≠ (leNat m.src, m.seq, (m.route.map (fun r => r.2.1)).getD 0)))) ∧
    (∃ (f : LinkRx) (m : Mac) (n b : Nat) (s : State) (u l : _), l = u.link.echoes.filter (fun e => nearCycles f.endCyc e.2.2.2 64) ∧
    s.takeRx .echo = some (f, u) ∧ parseMac f.bytes = some m ∧ u.ownLane f.lane = some n ∧ u.echoPort (n / 64) m = some b ∧ ((∃ e ∈ l,
    (e.1, e.2.1, e.2.2.1) = (leNat m.src, m.seq, (m.route.map (fun r => r.2.1)).getD 0)))) ∧
    (∃ (a b : Nat), a < 2 ^ 32 ∧ b < 2 ^ 32) ∧
    (∃ (p : Port) (j : PendJoin) (t : List PendJoin) (s : State), s.freeJoins p (s.port p).joins [] = j :: t ∧ s.locked p = true ∧
    laterCycle (s.get (LP_MCYC.CYCLE p) + 1) j.last = true) ∧
    (∃ (tag : TagN) (x : SendSt) (c : Copy) (d : Nat) (s : State),
    s.copyWith tag (fun c => match c.phase with | .waiting _ late => !late | _ => false) = some (x, c) ∧ c.phase = .waiting d false ∧
    s.locked (c.n / 64) = true ∧ laterCycle (s.get (LP_MCYC.CYCLE (c.n / 64))) d = true) ∧
    (∃ (tag : TagN) (p : Port) (x : SendSt) (c : Copy) (s : State), (s.copyWith tag (fun c => decide (c.n / 64 = p.val ∧
    c.result = none) && s.backedOff p c) = some (x, c))) ∧
    (∃ (p t : Nat) (c : Copy) (s : State), c.phase = .backoff t ∧ s.locked p = true) ∧
    (∃ (who : Accessor) (p : Port) (s : State), Writable s who (LP_JOIN p)) ∧
    (∃ (a : Word) (i : Nat) (s : State), s.reach .host = true ∧ s.partOf a.toNat = some .registry ∧ a.toNat % 4 = 0 ∧ i < s.entries ∧
    s.regBase + 64 * i ≤ a.toNat ∧ a.toNat < s.regBase + 64 * i + 32 ∧ s.entState i = 0 ∧ s.paired = false ∧ s.regBase % 4 = 0) :=
  ⟨⟨ackRx, ((parseMac ackRx.bytes).get (by decide +kernel) : Mac), 0, 0, ([0#8] : List Byte),
   ({ aSend with seq := 5, copies := [{ aCopy with phase := .waiting 0 false }] } : SendSt),
   ({ heard keyed ackRx with link := { (heard keyed ackRx).link with sends := [{ aSend with seq := 5, copies := [{ aCopy with phase := .waiting 0 false }] }] } } : State),
   (((({ heard keyed ackRx with link := { (heard keyed ackRx).link with sends := [{ aSend with seq := 5, copies := [{ aCopy with phase := .waiting 0 false }] }] } } : State) : State).takeRx .ack).get (by decide +kernel)).2,
   by decide +kernel⟩,
   ⟨joinRx, ((parseMac joinRx.bytes).get (by decide +kernel) : Mac), (heard keyed joinRx : State),
   (((heard keyed joinRx : State).takeRx .join).get (by decide +kernel)).2, by decide +kernel⟩,
   ⟨ackRx, aGot, ((run.ownLane ackRx.lane).get (by decide +kernel) : Nat), run, by decide +kernel⟩,
   ⟨joinRx, ((parseMac joinBytes).getD aGot : Mac), 0, keyed, by decide +kernel⟩,
   ⟨ackRx, ((parseMac joinBytes).getD aGot : Mac), 0, (keyed.setReg (LP_JOIN 0) 0x3F393603 : State), by decide +kernel⟩,
   ⟨echoRx, ((parseMac echoRx.bytes).get (by decide +kernel) : Mac), 0, 1,
   ((heard keyed echoRx).putBit (LP_LINK.ECHO_TO 0) 1 true : State),
   ((((heard keyed echoRx).putBit (LP_LINK.ECHO_TO 0) 1 true : State).takeRx .echo).get (by decide +kernel)).2,
   ([] : List (Nat × Nat × Nat × Nat)), by decide +kernel⟩,
   ⟨echoRx, ((parseMac echoRx.bytes).get (by decide +kernel) : Mac), 0, 1,
   ({ (heard keyed echoRx).putBit (LP_LINK.ECHO_TO 0) 1 true with link := { (heard keyed echoRx).link with echoes := [(1, 5, 0, 0)] } } : State),
   (((({ (heard keyed echoRx).putBit (LP_LINK.ECHO_TO 0) 1 true with link := { (heard keyed echoRx).link with echoes := [(1, 5, 0, 0)] } } : State) : State).takeRx .echo).get (by decide +kernel)).2,
   _, rfl, by decide +kernel⟩,
   ⟨0, 0, by decide +kernel⟩,
   ⟨0, aJoin, ([] : List PendJoin),
   (((run.putFlag (LP_STAT.LOCKED (0 : Port)) true).modPort 0 (fun x => { x with joins := [aJoin] })) : State), by decide +kernel⟩,
   ⟨5, ({ aSend with copies := [{ aCopy with phase := .waiting 0 false }] } : SendSt), ({ aCopy with phase := .waiting 0 false } : Copy),
   0,
   (({ run with link := { sends := [{ aSend with copies := [{ aCopy with phase := .waiting 0 false }] }] } } : State).put (LP_MCYC.CYCLE 0) 1 : State),
   by decide +kernel⟩,
   ⟨5, 0, ({ aSend with copies := [{ aCopy with phase := .backoff 0 }] } : SendSt), ({ aCopy with phase := .backoff 0 } : Copy),
   ({ run with link := { sends := [{ aSend with copies := [{ aCopy with phase := .backoff 0 }] }] } } : State), by decide +kernel⟩,
   ⟨0, 0, ({ aCopy with phase := .backoff 0 } : Copy), ((run.putFlag (LP_STAT.LOCKED (0 : Nat)) true) : State), by decide +kernel⟩,
   ⟨.host, 0, run, by unfold Writable; decide +kernel⟩,
   ⟨0x01100000, 0, run, by decide +kernel⟩⟩

theorem wit_MeteringCycleAccumulatesEnergy :
    (∃ (v : VChan) (t a : Nat) (s : State) (u : _),
    u = (s.phref v t true).modChan v (fun x => { x with lastX := some t, period := some (t - a) }) ∧ s.metering = true ∧
    s.powered v = true ∧ s.sampledTo t = true ∧ s.nearReset t = false ∧ (s.chan v).lastX = some a ∧ a < t ∧ inRange (t - a) = true) ∧
    (∃ (f t p k : Nat) (r : Int) (s : State) (n : _), (s.feeder f).forced = false ∧ (s.feeder f).running = true ∧
    (s.chan (s.vch f)).period = some p ∧ (s.feeder f).number = some k ∧ s.feederNumber t p = some (n, r)) ∧
    (∃ (f k : Nat) (l : List FeedSample) (b : Bool) (span : Option (Nat × Nat)) (s : State) (u g : _), u = s.endCycle f l k b span ∧
    g ≠ f) ∧
    (∃ (f k : Nat) (l : List FeedSample) (b : Bool) (span : Option (Nat × Nat)) (s : State) (u : _), u = s.endCycle f l k b span ∧
    u.seqMode = true) ∧
    (∃ (p q : Int), 0 ≤ p ∧ 0 ≤ q) ∧
    (∃ (p q : Int), p < 0 ∧ 0 ≤ q) ∧
    (∃ (p q : Int), p < 0 ∧ q < 0) ∧
    (∃ (p q : Int), 0 ≤ p ∧ q < 0) ∧
    (∃ (f : Feeder) (k : Nat) (s : State), s.metering = true ∧ s.mayForce f = true ∧ (s.feeder f).forced = false ∧
    (s.feeder f).number = some k) ∧
    (∃ (f : Feeder) (k : Nat) (s : State), s.metering = true ∧ s.mayForce f = true ∧ (s.feeder f).forced = true ∧
    (s.feeder f).number = some k) :=
  ⟨⟨0, 20971520, 0,
   ((({ run with meter := { lastFine := 999999, chans := [(0, { lastX := some 0 })] } } : State).putBit MT_CFG.CH_EN 0 true).putFlag MT_CFG.ENABLE true : State),
   _, rfl, by decide +kernel⟩,
   ⟨0, 0, 20971520, 5,
   ((((({ run with iron := { run.iron with lastRise := some 0 }, meter := { chans := [(0, { period := some 20971520 })], feeders := [(0, { running := true, number := some 5 })] } } : State) : State).feederNumber (0 : Nat) (20971520 : Nat)).get (by decide +kernel)).2 : Int),
   ({ run with iron := { run.iron with lastRise := some 0 }, meter := { chans := [(0, { period := some 20971520 })], feeders := [(0, { running := true, number := some 5 })] } } : State),
   (((({ run with iron := { run.iron with lastRise := some 0 }, meter := { chans := [(0, { period := some 20971520 })], feeders := [(0, { running := true, number := some 5 })] } } : State) : State).feederNumber (0 : Nat) (20971520 : Nat)).get (by decide +kernel)).1,
   by decide +kernel⟩,
   ⟨0, 0, ([] : List FeedSample), false, none, run, _, 1, rfl, by decide +kernel⟩,
   ⟨0, 0, ([] : List FeedSample), false, none, run, _, rfl, by decide +kernel⟩,
   ⟨0, 0, by decide +kernel⟩,
   ⟨(-5 : Int), 0, by decide +kernel⟩,
   ⟨(-5 : Int), (-5 : Int), by decide +kernel⟩,
   ⟨0, (-5 : Int), by decide +kernel⟩,
   ⟨0, 5,
   ((({ run with meter := { feeders := [(0, { since := 99999, number := some 5, samples := List.replicate 80 ⟨0, 0, 0, 0, false, false, 0⟩ })] } } : State).putFlag (MT_PCFG.ENABLE 0) true).putFlag MT_CFG.ENABLE true : State),
   by decide +kernel⟩,
   ⟨0, 5,
   ((({ run with meter := { feeders := [(0, { since := 99999, forced := true, number := some 5, samples := List.replicate 80 ⟨0, 0, 0, 0, false, false, 0⟩ })] } } : State).putFlag (MT_PCFG.ENABLE 0) true).putFlag MT_CFG.ENABLE true : State),
   by decide +kernel⟩⟩

theorem wit_MeteringResetsSamplesAndBalance :
    (∃ (who : Accessor) (v : Word) (s : State), bit v.toNat 31 = true ∧ s.metering = true ∧ Writable s who MT_SYNC) ∧
    (∃ (b : Bool) (s : State), b = !s.flag MT_CFG.SYNC_EDGE ∧ s.metering = true ∧ s.get MT_CFG.SYNC_MODE = 1) ∧
    (∃ (e : Nat) (l : List Nat) (s : State), s.metering = true ∧ s.meter.resets = e :: l ∧ ((∀ x ∈ l, e < x))) ∧
    (∃ (s : State), s.flag MT_STAT.SETTLING = true ∧ s.settleCount ≤ s.meter.fineN) ∧
    (∃ (c : Chan) (l : List (Int × Bool × Bool)) (s : State) (r : _), l = (s.chan c).words ∧
    r = State.putWord (s.modChan c (fun x => { x with words := l.drop 10 })) (.tile c) (s.get (MT_CHCFG.FINEQ c)) (mkLine 0 ((l.take 10).map (fun x => unsgn 24 x.1)) false ((l.take 10).any (·.2.1)) ((l.take 10).any (·.2.2))) ∧
    s.metering = true ∧ 10 ≤ l.length) ∧
    (∃ (who : Accessor) (s : State), s.reads who = true) ∧
    (∃ (q : Nat) (s : State) (u v : _), q = s.get MT_BAL_CFG.REPQ ∧ u = s.readPacket q ((s.queue q).chain.headD ⟨0, 0, false, 0⟩).seq ∧
    v = (u.dropRest q).1.tellPool (u.dropRest q).2 ∧ s.flag MT_BAL_CFG.ENABLE = true ∧ s.seqMode = true ∧ s.ready q = true ∧
    (s.queue q).stream = false ∧ (s.queue q).fmt = 1) ∧
    (∃ (d : List Byte) (s : State), u8 d 2 < 2 ∧ u8 d 3 = 0 ∧ 1 ≤ u16 d 0 ∧ u16 d 0 ≤ s.entries ∧ s.entState (u16 d 0 - 1) ≠ 0) ∧
    (∃ (w : Nat) (l : List Byte) (b : Bool) (t : List (Nat × List Byte × Bool)) (s : State) (r u : _),
    r = State.putPacket { s with meter := { s.meter with results := t } } (.engine 2) (s.get MT_BAL_CFG.RESQ) l ∧
    u = ((r.2.1.tellPool r.2.2).put MT_BAL_STAT.LAST w).setEvt MT_EVT.BAL_DONE ∧ s.meter.results = (w, l, b) :: t) :=
  ⟨⟨.host, 2147483648, ((run.putFlag MT_CFG.ENABLE true) : State), by unfold Writable; decide +kernel⟩,
   ⟨_, (((run.putFlag MT_CFG.ENABLE true).put MT_CFG.SYNC_MODE 1) : State), rfl, by decide +kernel⟩,
   ⟨7, ([] : List Nat), (((({ run with meter := { resets := [7] } } : State)).putFlag MT_CFG.ENABLE true) : State), by decide +kernel⟩,
   ⟨(((({ run with meter := { fineN := 64 } } : State)).putFlag MT_STAT.SETTLING true) : State), by decide +kernel⟩,
   ⟨0, _,
   (({ run with meter := { chans := [(0, { words := List.replicate 10 (0, false, false) })] } } : State).putFlag MT_CFG.ENABLE true : State),
   _, rfl, rfl, by decide +kernel⟩,
   ⟨.host, run, by decide +kernel⟩,
   ⟨_, ((packed.putFlag MT_BAL_CFG.ENABLE true) : State), _, _, rfl, rfl, rfl, by decide +kernel⟩,
   ⟨([1#8, 0#8, 0#8, 0#8] : List Byte), keyed, by decide +kernel⟩,
   ⟨1, ([0#8] : List Byte), true, ([] : List (Nat × List Byte × Bool)), ({ run with meter := { results := [(1, [0#8], true)] } } : State),
   _, _, rfl, rfl, by decide +kernel⟩⟩

theorem wit_QueueWordsCommitInOrder :
    (∃ (q : QId) (w : Line) (s : State) (x : _), s.awake = true ∧ s.queue q = x ∧ x.en = true ∧ x.broken = false ∧ x.stream = true ∧
    x.fmt ≠ 3 ∧ lineOk x.fmt w = true ∧ s.touch q = (s, []) ∧ x.cells ≠ [] ∧ x.tailFill < 8) ∧
    (∃ (prod : Producer) (q : QId) (w : Line) (s : State) (x : _) (o : OpenPkt) (r u m : _), r = (s.setOpen o).placeAll o [w] ∧
    u = (r.2.1.setOpen r.1).commit r.1 ∧ m = u.1.marks q (s.usedCells q) ∧ s.awake = true ∧ s.queue q = x ∧ x.en = true ∧
    x.broken = false ∧ x.stream = false ∧ x.fmt = 1 ∧ lineOk 1 w = true ∧ lineEop w = true ∧ s.touch q = (s, []) ∧
    s.openOf prod q = some o ∧ o.doom = none ∧ r.1.doom = none) ∧
    (∃ (prod : Producer) (q : QId) (w : Line) (s : State) (r : _), r = s.refuseWord prod q .full (lineEop w) ∧ ((∀ x, prod ≠ .win x)) ∧
    s.awake = true ∧ (s.queue q).en = false) ∧
    (∃ (q : Nat) (s : State), (s.queue q).broken = false ∧ s.touch q = (s, []) ∧ (s.queue q).stream = false ∧
    (∀ o ∈ (s.flush q).1.pool.opens, o.q = q)) ∧
    (∃ (who : Accessor) (q : QId) (s : State) (u : _), u = foldState (s.holders q) (fun w t => t.clearWin w) s ∧ Writable s who QP_CMD) ∧
    (∃ (q : Nat) (s : State), (s.queue q).stream = false ∧ s.ready q = true ∧ s.touch q = (s, [])) :=
  ⟨⟨0, (mkLine 0 [5] false false false : Line),
   ({ packed with pool := { packed.pool with queues := [(0, { packed.queue 0 with stream := true, fmt := 0 })] } } : State),
   (({ packed with pool := { packed.pool with queues := [(0, { packed.queue 0 with stream := true, fmt := 0 })] } } : State) : State).queue (0 : QId),
   by decide +kernel⟩,
   ⟨(.win 0 : Producer), 0, (mkLine 1 [5] true false false : Line),
   ({ packed with pool := { packed.pool with opens := [{ aOpen with prod := .win 0 }] } } : State),
   (({ packed with pool := { packed.pool with opens := [{ aOpen with prod := .win 0 }] } } : State) : State).queue (0 : QId),
   ({ aOpen with prod := .win 0 } : OpenPkt), _, _, _, rfl, rfl, rfl, by decide +kernel⟩,
   ⟨(.engine 0 : Producer), 0, aLine, run, _, rfl, nofun, by decide +kernel⟩,
   ⟨0, run, by decide +kernel⟩,
   ⟨.host, 0, run, _, rfl, by unfold Writable; decide +kernel⟩,
   ⟨0, packed, by decide +kernel⟩⟩

theorem wit_HostWindowsMoveWordsInParts :
    (∃ (who : Accessor) (w : Win) (s : State), Writable s who (QP_WIN_CFG w)) ∧
    (∃ (w : Win) (s : State), s.reach .host = true ∧ s.winProduces w = true ∧ (s.win w).held.length < 7) ∧
    (∃ (w : Win) (s : State), s.reach .host = true ∧ s.winProduces w = true ∧ (s.win w).held.length = 7) ∧
    (∃ (w : Win) (s : State), s.reads .host = true ∧ s.winConsumes w = true ∧ (s.win w).held ≠ [] ∧ s.get (QP_WIN_STAT.PART w) < 7) ∧
    (∃ (w : Win) (s : State), s.reads .host = true ∧ s.winConsumes w = true ∧ (s.win w).held ≠ [] ∧ s.get (QP_WIN_STAT.PART w) = 7) ∧
    (∃ (w : Win) (q d : Nat) (x : QSlot) (l : List QSlot) (ps : List Word) (s : State), q = s.get (QP_WIN_CFG.QUEUE w) ∧
    d = (BitVec.ofNat 256 (leNat (s.bytes (cellAddr x.cell x.word) 32))).toNat ∧
    ps = (List.range 8).map (fun i => BitVec.ofNat 32 (bits d (32 * i + 31) (32 * i))) ∧ s.reads .host = true ∧ s.winConsumes w = true ∧
    (s.win w).held = [] ∧ s.touch q = (s, []) ∧ s.ready q = true ∧ (s.queue q).chain = x :: l ∧ (s.queue q).badRun = false ∧
    s.poisoned (cellAddr x.cell x.word) = false ∧ s.upset (cellAddr x.cell x.word) = .clean ∧ s.get (QP_WIN_STAT.PART w) = 0) ∧
    (∃ (w : Win) (s : State), s.reads .host = true ∧ s.hp.wait = some w.val ∧ s.winConsumes w = true ∧ (s.win w).held = [] ∧
    (s.queue (s.get (QP_WIN_CFG.QUEUE w))).en = false) ∧
    (∃ (w : Win) (s : State) (r : _), r = s.rewind (.win w) (s.get (QP_WIN_CFG.QUEUE w)) ∧ s.reach .host = true ∧ s.winOpen w = true) ∧
    (∃ (w : Win) (s : State), s.reach .host = true ∧ (s.queue (s.get (QP_WIN_CFG.QUEUE w))).stream = false ∧ (s.win w).at_ = none) ∧
    (∃ (w : Win) (x : QSlot) (q : Nat) (s : State) (u : _), q = s.get (QP_WIN_CFG.QUEUE w) ∧
    u = (s.setWin w {}).put (QP_WIN_STAT.PART w) 0 ∧ s.reach .host = true ∧ (s.queue q).stream = false ∧ (s.win w).at_ = some x) ∧
    (∃ (who : Accessor) (s : State), (s.queue s.qsel).en = true ∧ Writable s who QP_QWM) :=
  ⟨⟨.host, 0, run, by unfold Writable; decide +kernel⟩,
   ⟨0, (((run.putFlag (QP_WIN_CFG.EN (0 : Win)) true).putFlag (QP_WIN_CFG.DIR (0 : Win)) true) : State), by decide +kernel⟩,
   ⟨0,
   ((((run.putFlag (QP_WIN_CFG.EN (0 : Win)) true).putFlag (QP_WIN_CFG.DIR (0 : Win)) true).setWin 0 { held := [0, 0, 0, 0, 0, 0, 0] }) : State),
   by decide +kernel⟩,
   ⟨0,
   ((((run.putFlag (QP_WIN_CFG.EN (0 : Win)) true).putFlag (QP_WIN_CFG.DIR (0 : Win)) false).setWin 0 { held := [0, 0, 0, 0, 0, 0, 0] }) : State),
   by decide +kernel⟩,
   ⟨0,
   (((((run.putFlag (QP_WIN_CFG.EN (0 : Win)) true).putFlag (QP_WIN_CFG.DIR (0 : Win)) false).put (QP_WIN_STAT.PART (0 : Win)) 7).setWin 0 { held := [0, 0, 0, 0, 0, 0, 0] }) : State),
   by decide +kernel⟩,
   ⟨0, _, _, (⟨0x1290, 0, true, 0⟩ : QSlot), ([] : List QSlot), _,
   ((((packed.putFlag (QP_WIN_CFG.EN (0 : Win)) true).putFlag (QP_WIN_CFG.DIR (0 : Win)) false).put (QP_WIN_STAT.PART (0 : Win)) 0) : State),
   rfl, rfl, rfl, by decide +kernel⟩,
   ⟨0,
   ((((({ run with hp := { wait := some 0 } } : State)).putFlag (QP_WIN_CFG.EN (0 : Win)) true).putFlag (QP_WIN_CFG.DIR (0 : Win)) false) : State),
   by decide +kernel⟩,
   ⟨0, ((({ packed with pool := { packed.pool with opens := [{ aOpen with prod := .win 0 }] } } : State)) : State), _, rfl,
   by decide +kernel⟩,
   ⟨0, run, by decide +kernel⟩,
   ⟨0, (⟨0x1290, 0, true, 0⟩ : QSlot), _, (run.setWin 0 { at_ := some ⟨0x1290, 0, true, 0⟩ } : State), _, rfl, rfl, by decide +kernel⟩,
   ⟨.host, packed, by unfold Writable; decide +kernel⟩⟩

theorem wit_SramWindowAndScrubber :
    (∃ (a : Word) (s : State), s.reads .host = true ∧ inSram a.toNat = true ∧ a.toNat % 4 = 0 ∧ s.partOf a.toNat ≠ none ∧
    s.upset a.toNat = .clean) ∧
    (∃ (a : Word) (s : State), s.reads .host = true ∧ inSram a.toNat = true ∧ a.toNat % 4 = 0 ∧ s.partOf a.toNat = none) ∧
    (∃ (a : Word) (s : State), s.reach .host = true ∧ inSram a.toNat = true ∧ a.toNat % 4 = 0 ∧ s.partOf a.toNat = some .capture ∧
    s.poisoned a.toNat = false ∧ s.upset (wordAddr a.toNat) = .clean) ∧
    (∃ (a : Word) (s : State), s.reach .host = true ∧ inSram a.toNat = true ∧ a.toNat % 4 = 0 ∧
    ((s.partOf a.toNat = none ∨ s.partOf a.toNat = some .pool ∨ (s.partOf a.toNat = some .code ∧ s.mode ≠ 3)))) ∧
    (∃ (s : State), s.awake = true ∧ s.flag QP_SCRUB.EN = true ∧ s.pool.scrub + 1 < 524288 ∧
    s.upset (sramBase + 32 * s.pool.scrub) = .clean ∧ s.poisoned (sramBase + 32 * s.pool.scrub) = false) ∧
    (∃ (s : State), s.awake = true ∧ s.flag QP_SCRUB.EN = true ∧ s.pool.scrub = 524287 ∧ s.upset (sramBase + 32 * s.pool.scrub) = .clean ∧
    s.poisoned (sramBase + 32 * s.pool.scrub) = false) ∧
    (∃ (a : Nat) (s : State), s.poisoned a = false) :=
  ⟨⟨0x01110000, run, by decide +kernel⟩,
   ⟨0x01FFFFFC, run, by decide +kernel⟩,
   ⟨0x01110000, run, by decide +kernel⟩,
   ⟨0x01FFFFFC, run, by decide +kernel⟩,
   ⟨((run.putFlag QP_SCRUB.EN true) : State), by decide +kernel⟩,
   ⟨(((({ run with pool := { scrub := 524287 } } : State)).putFlag QP_SCRUB.EN true) : State), by decide +kernel⟩,
   ⟨0, run, by decide +kernel⟩⟩

theorem wit_IngotsAreFetchedCheckedAndCast :
    (∃ (who : Accessor) (v : Word) (s : State) (u : _), u = s.merge FAB_LOAD 0x70000000 v ∧ bit v.toNat 31 = true ∧
    Writable s who FAB_LOAD) ∧
    (∃ (v : Word) (s : State) (u : _), u = { s with fab := { s.fab with push := s.fab.push ++ leBytes 4 v.toNat } } ∧ s.fabState = 1 ∧
    s.fab.src = 2 ∧ s.fab.push.length < 60 ∧ Writable s .host FAB_PUSH) ∧
    (∃ (v : Word) (g : List Byte) (s : State) (u : _), g = s.fab.push ++ leBytes 4 v.toNat ∧
    u = State.put { s with fab := { s.fab with push := g } } FAB_STAT.SCOPE (ingScope g) ∧ s.fabState = 1 ∧ s.fab.src = 2 ∧
    s.fab.partialLoad = false ∧ 64 ≤ g.length ∧ g.length = ingLen g ∧ u.earlyCheck g = none ∧ Writable s .host FAB_PUSH) ∧
    (∃ (s : State), ((s.fabState ≠ 1 ∨ s.fab.src ≠ 2)) ∧ Writable s .host FAB_PUSH) ∧
    (∃ (s : State), s.fabState = 1 ∧ s.fab.src = 2 ∧ s.fab.push ≠ []) ∧
    (∃ (o : Option (List Byte)) (g : List Byte) (s : State) (u r : _), u = s.showScope g ∧
    r = State.stageFlash { u with fab := { u.fab with restore := false } } g ∧ s.verifyReady = true ∧
    ((s.fab.partialLoad = false ∨ s.fab.outNow = false)) ∧ s.fetched o = some g ∧ s.fetchCheck g = none ∧ u.signCheck g = none ∧
    u.versionCheck u.fab.partialLoad g = none ∧ u.fab.restore = false ∧ r.1 = none ∧ r.2.lateCheck g = none) ∧
    (∃ (o : Option (List Byte)) (s : State), s.verifyReady = true ∧ ((s.fab.partialLoad = false ∨ s.fab.outNow = false)) ∧
    s.fetched o = none) ∧
    (∃ (o : Option (List Byte)) (g : List Byte) (e : IngErr) (s : State), s.verifyReady = true ∧
    ((s.fab.partialLoad = false ∨ s.fab.outNow = false)) ∧ s.fetched o = some g ∧ s.fetchCheck g = some e) ∧
    (∃ (o : Option (List Byte)) (g : List Byte) (e : IngErr) (s : State) (u : _), u = s.showScope g ∧ s.verifyReady = true ∧
    ((s.fab.partialLoad = false ∨ s.fab.outNow = false)) ∧ s.fetched o = some g ∧ s.fetchCheck g = none ∧
    ((u.signCheck g = some e ∨ (u.signCheck g = none ∧ u.versionCheck u.fab.partialLoad g = some e)))) ∧
    (∃ (s : State) (r : _), r = s.outWins ∧ s.verifyReady = true ∧ s.fab.partialLoad = true ∧ s.fab.outNow = true) ∧
    (∃ (n c : Nat) (s : State) (u : _), u = (((s.put FAB_STAT.ERR c).put FAB_STAT.ERR_SECT n).put FAB_STAT.STATE 0).unstage ∧
    s.fab.chain = 0) ∧
    (∃ (p : Port) (s : State), s.fabState = 4 ∧ ingScope s.fab.ingot = p.val + 1 ∧ s.get (LP_STAT.TX_CNT p) = 0) ∧
    (∃ (s : State), s.fabState = 4 ∧ ((ingScope s.fab.ingot = 0 ∨ 5 ≤ ingScope s.fab.ingot))) ∧
    (∃ (o : Option (List Byte)) (us : Nat) (g : List Byte) (s : State) (u : _), g = s.fab.ingot ∧
    u = ((((State.castSections { s with pool := { s.pool with hadQueues := false } } g).castRecord g us).followRole).relevel) ∧
    s.mode = 3 ∧ s.fabState = 5 ∧ ((s.fab.restore = false ∨ ∃ l, o = some l ∧ ingDigest (l.take (ingLen l)) = ingDigest g))) ∧
    (∃ (l : List Byte) (s : State) (u : _), u = (s.put FAB_STAT.STATE 0).backToAssay 3 (0, 2) ∧ s.mode = 3 ∧ s.fabState = 5 ∧
    s.fab.restore = true ∧ ingDigest (l.take (ingLen l)) ≠ ingDigest s.fab.ingot) ∧
    (∃ (us : Nat) (g : List Byte) (s : State) (u : _), g = s.fab.ingot ∧
    u = ((((s.partSections g).unstage.put FAB_PARTIAL.VERSION (ingVer g)).put FAB_TIME.US us).put FAB_STAT.STATE 0) ∧ s.fabState = 5 ∧
    s.fab.partialLoad = true) :=
  ⟨⟨.host, 2147483648, run, _, rfl, by unfold Writable; decide +kernel⟩,
   ⟨0,
   (((({ run with fab := { run.fab with src := 2, push := [0x4D#8, 0x5A#8, 0x49#8, 0x47#8] } } : State)).put FAB_STAT.STATE 1) : State),
   _, rfl, by unfold Writable; decide +kernel⟩,
   ⟨0, _, (((({ run with fab := { run.fab with src := 2, push := bareIngot } } : State)).put FAB_STAT.STATE 1) : State), _, rfl, rfl,
   by unfold Writable; decide +kernel⟩,
   ⟨run, by unfold Writable; decide +kernel⟩,
   ⟨(((({ run with fab := { run.fab with src := 2, push := [0x4D#8, 0x5A#8, 0x49#8, 0x47#8] } } : State)).put FAB_STAT.STATE 1) : State),
   by decide +kernel⟩,
   ⟨none, anIngot, pushed, _, _, rfl, rfl, by decide +kernel⟩,
   ⟨none, (run.put FAB_STAT.STATE 1 : State), by decide +kernel⟩,
   ⟨(some (List.replicate 64 0#8) : Option (List Byte)), (List.replicate 64 0#8 : List Byte), (errHead 4 : IngErr),
   (run.put FAB_STAT.STATE 1 : State), by decide +kernel⟩,
   ⟨none, ([] : List Byte), errRoot, (({ run with fab := { run.fab with src := 2 } } : State).put FAB_STAT.STATE 2 : State), _, rfl,
   by decide +kernel⟩,
   ⟨(({ run with fab := { run.fab with partialLoad := true, outNow := true } } : State).put FAB_STAT.STATE 1 : State), _, rfl,
   by decide +kernel⟩,
   ⟨0, 0, run, _, rfl, by decide +kernel⟩,
   ⟨0,
   ((((({ run with fab := { run.fab with ingot := List.replicate 13 0#8 ++ [1#8] } } : State)).put FAB_STAT.STATE 4).put (LP_STAT.TX_CNT (0 : Port)) 0) : State),
   by decide +kernel⟩,
   ⟨((run.put FAB_STAT.STATE 4) : State), by decide +kernel⟩,
   ⟨none, 0, _, (((run.put SYS_MODE.MODE 3).put FAB_STAT.STATE 5) : State), _, rfl, rfl, by decide +kernel⟩,
   ⟨([] : List Byte),
   ((((({ run with fab := { run.fab with restore := true, ingot := bareIngot } } : State)).put SYS_MODE.MODE 3).put FAB_STAT.STATE 5) : State),
   _, rfl, by decide +kernel⟩,
   ⟨0, _, (((({ run with fab := { run.fab with partialLoad := true } } : State)).put FAB_STAT.STATE 5) : State), _, rfl, rfl,
   by decide +kernel⟩⟩

theorem wit_FetchTakesTheWordAtThePc :
    (∃ (k : Core) (s u : State), u = s.readSpan (lineOf (s.pc k.val)) 32 ∧ s.mayFetch k.val (s.pc k.val) = false) ∧
    (∃ (k : Core) (s u : State) (l : _), u = s.readSpan (lineOf (s.pc k.val)) 32 ∧ s.mayFetch k.val (s.pc k.val) = true ∧
    s.cached k.val (s.pc k.val) = some l) ∧
    (∃ (k : Core) (s u : State), u = s.readSpan (lineOf (s.pc k.val)) 32 ∧ s.mayFetch k.val (s.pc k.val) = true ∧
    s.cached k.val (s.pc k.val) = none ∧ u.poisoned (s.pc k.val) = true) ∧
    (∃ (k : Core) (s u : State), u = s.readSpan (lineOf (s.pc k.val)) 32 ∧ s.mayFetch k.val (s.pc k.val) = true ∧
    s.cached k.val (s.pc k.val) = none ∧ u.poisoned (s.pc k.val) = false ∧ s.pc k.val % 4 = 0) ∧
    (∃ (k : Nat) (s : State), s.lCore k = false) ∧
    (∃ (k : Nat) (s : State), s.lCore k = true) ∧
    (∃ (k : Core) (s u : State) (w : Word) (j : Nat), ((s.cached k.val (s.pc k.val) ≠ none ∨ s.upset (s.pc k.val) = .clean)) ∧
    s.fetch k = (some w, u) ∧ j ≠ k.val) ∧
    (∃ (i : Instr) (k : Core) (w : Nat) (s : State), seqWord i = some (k, w) ∧ s.coreRuns k.val = true ∧ s.irqDue k.val = true ∧
    6 ≤ (s.core k.val).since) :=
  ⟨⟨0, (run.setPc 0 0x01F00000 : State), _, rfl, by decide +kernel⟩,
   ⟨0, ((run.fetch 0).2 : State), _, run.loadLine 0x01000000, rfl, by decide +kernel⟩,
   ⟨0, ({ run with poison := [0] } : State), _, rfl, by decide +kernel⟩,
   ⟨0, run, _, rfl, by decide +kernel⟩,
   ⟨0, run, by decide +kernel⟩,
   ⟨0, ((run.putFlag (SEQ_CFG.PRIV 0) true) : State), by decide +kernel⟩,
   ⟨0, run, ((run.fetch (0 : Core)).2 : State), ((run.fetch (0 : Core)).1.get (by decide +kernel) : Word), 1, by decide +kernel⟩,
   ⟨(Instr.aclr 0 1 : Instr), (((seqWord (Instr.aclr 0 1 : Instr)).get (by decide +kernel)).1 : Core), 0x60004007,
   (((run.putFlag (SEQ_CFG.INT_PM 0) true).modCore 0 (fun c => { c with irq := true, since := 6 })) : State), by decide +kernel⟩⟩

theorem wit_IntegerInstructionsWriteRd :
    ∃ (k : Core) (rd ra rb : Sreg) (imm : Half) (sh : ShAmt) (s u : State) (x y : Word) (i : Instr) (v : Word), x = u.sr k.val ra ∧
    y = u.sr k.val rb ∧ Fetched i k s u ∧ (i,
    v) ∈ [(.add k rd ra rb, x + y), (.sub k rd ra rb, x - y), (.and_ k rd ra rb, x &&& y), (.or_ k rd ra rb, x ||| y), (.xor_ k rd ra rb, x ^^^ y), (.shl k rd ra rb, x <<< (y.toNat % 32)), (.shr k rd ra rb, x >>> (y.toNat % 32)), (.asr k rd ra rb, x.sshiftRight (y.toNat % 32)), (.clt k rd ra rb, if x.toInt < y.toInt then 1 else 0), (.cltu k rd ra rb, if x.toNat < y.toNat then 1 else 0), (.mul k rd ra rb, x * y), (.mulhi k rd ra rb, BitVec.ofInt 32 (x.toInt * y.toInt / 2 ^ 32)), (.mulhiu k rd ra rb, BitVec.ofNat 32 (x.toNat * y.toNat / 2 ^ 32)), (.min k rd ra rb, if x.toInt < y.toInt then x else y), (.max k rd ra rb, if x.toInt < y.toInt then y else x), (.addk k rd ra imm, x + imm.signExtend 32), (.andk k rd ra imm, x &&& imm.setWidth 32), (.ork k rd ra imm, x ||| imm.setWidth 32), (.xork k rd ra imm, x ^^^ imm.setWidth 32), (.cltk k rd ra imm, if x.toInt < (imm.signExtend 32).toInt then 1 else 0), (.lih k rd imm, imm.setWidth 32 <<< 16), (.shlk k rd ra sh, x <<< sh.val), (.shrk k rd ra sh, x >>> sh.val), (.asrk k rd ra sh, x.sshiftRight sh.val)] :=
  ⟨0, 0, 0, 0, 0, 0, ((coded (Instr.add (0 : Core) (0 : Sreg) (0 : Sreg) (0 : Sreg)) run) : State),
  ((fetched (Instr.add (0 : Core) (0 : Sreg) (0 : Sreg) (0 : Sreg)) run) : State), _, _, (.add (0 : Core) (0 : Sreg) (0 : Sreg) (0 : Sreg)
  : Instr),
  (((fetched (Instr.add (0 : Core) (0 : Sreg) (0 : Sreg) (0 : Sreg)) run) : State).sr (0 : Core).val (0 : Sreg) : Word) + (((fetched (Instr.add (0 : Core) (0 : Sreg) (0 : Sreg) (0 : Sreg)) run) : State).sr (0 : Core).val (0 : Sreg) : Word),
  rfl, rfl, fetched_coded _ _ (by decide +kernel), .head _⟩

theorem wit_HopsCallAndJmprMoveThePc :
    (∃ (k : Core) (ra rb : Sreg) (off : Half) (s u : State) (w x y : Word) (i : Instr) (c : Prop), s.coreRuns k.val = true ∧
    s.fetch k = (some w, u) ∧ x = s.sr k.val ra ∧ y = s.sr k.val rb ∧ i = .heq k ra rb off ∧ (c ↔ x = y)) ∧
    (∃ (k : Core) (off : Off26) (s u : State), Fetched (.call k off) k s u) ∧
    (∃ (k : Core) (rd ra : Sreg) (imm : Half) (s u : State) (a : Word), a = u.sr k.val ra + imm.signExtend 32 ∧
    Fetched (.jmpr k rd ra imm) k s u ∧ a.toNat % 4 ≠ 0) ∧
    (∃ (k : Core) (rd ra : Sreg) (imm : Half) (s u : State) (a : Word), a = u.sr k.val ra + imm.signExtend 32 ∧
    Fetched (.jmpr k rd ra imm) k s u ∧ a.toNat % 4 = 0) :=
  ⟨⟨0, 0, 0, 0, run, (run.fetch 0).2, (run.fetch 0).1.get (by decide +kernel), _, _, .heq 0 0 0 0, True, by decide +kernel,
   by decide +kernel, rfl, rfl, rfl, by decide +kernel⟩,
   ⟨0, 0, ((coded (Instr.call (0 : Core) (0 : Off26)) run) : State), ((fetched (Instr.call (0 : Core) (0 : Off26)) run) : State),
   fetched_coded _ _ (by decide +kernel)⟩,
   ⟨0, 0, 0, 2, ((coded (Instr.jmpr (0 : Core) (0 : Sreg) (0 : Sreg) (2 : Half)) run) : State),
   ((fetched (Instr.jmpr (0 : Core) (0 : Sreg) (0 : Sreg) (2 : Half)) run) : State), _, rfl, fetched_coded _ _ (by decide +kernel),
   by decide +kernel⟩,
   ⟨0, 0, 0, 0, ((coded (Instr.jmpr (0 : Core) (0 : Sreg) (0 : Sreg) (0 : Half)) run) : State),
   ((fetched (Instr.jmpr (0 : Core) (0 : Sreg) (0 : Sreg) (0 : Half)) run) : State), _, rfl, fetched_coded _ _ (by decide +kernel),
   by decide +kernel⟩⟩

theorem wit_AccumulatorInstructionsComputeAndSaturate :
    (∃ (k : Core) (r1 r2 : Sreg) (ad src : AccN) (s u : State) (i : Instr) (x : Int), Fetched i k s u ∧ (i,
    x) ∈ [(.mula k r1 r2 ad, op24 (u.sr k.val r1) * op24 (u.sr k.val r2)), (.mta k r1 ad, (u.sr k.val r1).toInt), (.aclr k ad, 0), (.amov k ad src, u.acc k.val src), (.pset k r1 r2 ad, accPair (op24 (u.sr k.val r1)) (op24 (u.sr k.val r2)))]) ∧
    (∃ (k : Core) (r1 r2 : Sreg) (ad : AccN) (s u : State) (i : Instr) (x : Int), Fetched i k s u ∧ (i,
    x) ∈ [(.mac k r1 r2 ad, u.acc k.val ad + op24 (u.sr k.val r1) * op24 (u.sr k.val r2)), (.msu k r1 r2 ad, u.acc k.val ad - op24 (u.sr k.val r1) * op24 (u.sr k.val r2))]) ∧
    (∃ (k : Core) (r1 : Sreg) (ad src : AccN) (s u : State) (i : Instr) (hi lo : Int), Fetched i k s u ∧ (i, hi,
    lo) ∈ [(.padd k ad src, accHi (u.acc k.val ad) + accHi (u.acc k.val src), accLo (u.acc k.val ad) + accLo (u.acc k.val src)), (.psub k ad src, accHi (u.acc k.val ad) - accHi (u.acc k.val src), accLo (u.acc k.val ad) - accLo (u.acc k.val src)), (.pscl k r1 ad, roundDiv (accHi (u.acc k.val ad) * op24 (u.sr k.val r1)) (2 ^ 23), roundDiv (accLo (u.acc k.val ad) * op24 (u.sr k.val r1)) (2 ^ 23))]) ∧
    (∃ (k : Core) (r1 : Sreg) (src : AccN) (sh : ShAmt) (s u : State) (v : Word) (x : Int) (i : Instr) (b : Bool),
    x = roundDiv (u.acc k.val src) (2 ^ sh.val) ∧ Fetched i k s u ∧ ((i, v,
    b) ∈ [(.mfa k r1 src sh, BitVec.ofInt 32 (clampInt (-(2 ^ 31 - 1)) (2 ^ 31 - 1) x), decide (x < -(2 ^ 31 - 1) ∨ 2 ^ 31 - 1 < x)), (.mfal k r1 src, BitVec.ofInt 32 (u.acc k.val src), false), (.mfau k r1 src, BitVec.ofInt 32 (u.acc k.val src / 2 ^ 32), false), (.pgeth k r1 src, BitVec.ofInt 32 (accHi (u.acc k.val src)), false), (.pgetl k r1 src, BitVec.ofInt 32 (accLo (u.acc k.val src)), false)])) :=
  ⟨⟨0, 0, 0, 0, 0, ((coded (Instr.mula (0 : Core) (0 : Sreg) (0 : Sreg) (0 : AccN)) run) : State),
   ((fetched (Instr.mula (0 : Core) (0 : Sreg) (0 : Sreg) (0 : AccN)) run) : State), (.mula (0 : Core) (0 : Sreg) (0 : Sreg) (0 : AccN)
   : Instr),
   (op24 (((fetched (Instr.mula (0 : Core) (0 : Sreg) (0 : Sreg) (0 : AccN)) run) : State).sr (0 : Core).val (0 : Sreg)) * op24 (((fetched (Instr.mula (0 : Core) (0 : Sreg) (0 : Sreg) (0 : AccN)) run) : State).sr (0 : Core).val (0 : Sreg)) : Int),
   fetched_coded _ _ (by decide +kernel), .head _⟩,
   ⟨0, 0, 0, 0, ((coded (Instr.mac (0 : Core) (0 : Sreg) (0 : Sreg) (0 : AccN)) run) : State),
   ((fetched (Instr.mac (0 : Core) (0 : Sreg) (0 : Sreg) (0 : AccN)) run) : State), (.mac (0 : Core) (0 : Sreg) (0 : Sreg) (0 : AccN)
   : Instr),
   (((fetched (Instr.mac (0 : Core) (0 : Sreg) (0 : Sreg) (0 : AccN)) run) : State).acc (0 : Core).val (0 : AccN) + op24 (((fetched (Instr.mac (0 : Core) (0 : Sreg) (0 : Sreg) (0 : AccN)) run) : State).sr (0 : Core).val (0 : Sreg)) * op24 (((fetched (Instr.mac (0 : Core) (0 : Sreg) (0 : Sreg) (0 : AccN)) run) : State).sr (0 : Core).val (0 : Sreg)) : Int),
   fetched_coded _ _ (by decide +kernel), .head _⟩,
   ⟨0, 0, 0, 0, ((coded (Instr.padd (0 : Core) (0 : AccN) (0 : AccN)) run) : State),
   ((fetched (Instr.padd (0 : Core) (0 : AccN) (0 : AccN)) run) : State), (.padd (0 : Core) (0 : AccN) (0 : AccN) : Instr),
   (accHi (((fetched (Instr.padd (0 : Core) (0 : AccN) (0 : AccN)) run) : State).acc (0 : Core).val (0 : AccN)) + accHi (((fetched (Instr.padd (0 : Core) (0 : AccN) (0 : AccN)) run) : State).acc (0 : Core).val (0 : AccN)) : Int),
   (accLo (((fetched (Instr.padd (0 : Core) (0 : AccN) (0 : AccN)) run) : State).acc (0 : Core).val (0 : AccN)) + accLo (((fetched (Instr.padd (0 : Core) (0 : AccN) (0 : AccN)) run) : State).acc (0 : Core).val (0 : AccN)) : Int),
   fetched_coded _ _ (by decide +kernel), .head _⟩,
   ⟨0, 0, 0, 0, ((coded (Instr.mfa (0 : Core) (0 : Sreg) (0 : AccN) (0 : ShAmt)) run) : State),
   ((fetched (Instr.mfa (0 : Core) (0 : Sreg) (0 : AccN) (0 : ShAmt)) run) : State),
   (BitVec.ofInt 32 (clampInt (-(2 ^ 31 - 1)) (2 ^ 31 - 1) (roundDiv (((fetched (Instr.mfa (0 : Core) (0 : Sreg) (0 : AccN) (0 : ShAmt)) run) : State).acc (0 : Core).val (0 : AccN)) (2 ^ (0 : ShAmt).val) : Int)) : Word),
   _, (.mfa (0 : Core) (0 : Sreg) (0 : AccN) (0 : ShAmt) : Instr),
   (decide ((roundDiv (((fetched (Instr.mfa (0 : Core) (0 : Sreg) (0 : AccN) (0 : ShAmt)) run) : State).acc (0 : Core).val (0 : AccN)) (2 ^ (0 : ShAmt).val) : Int) < -(2 ^ 31 - 1) ∨ 2 ^ 31 - 1 < (roundDiv (((fetched (Instr.mfa (0 : Core) (0 : Sreg) (0 : AccN) (0 : ShAmt)) run) : State).acc (0 : Core).val (0 : AccN)) (2 ^ (0 : ShAmt).val) : Int)) : Bool),
   rfl, fetched_coded _ _ (by decide +kernel), .head _⟩⟩

theorem wit_LoadsAndStoresReachTheirBytes :
    (∃ (k : Core) (rd ra : Sreg) (imm : Half) (e : Ecc) (s u : State) (a n : Nat) (ld st : Instr),
    a = (u.sr k.val ra + imm.signExtend 32).toNat ∧ (n, ld,
    st) ∈ [(4, .ldw k rd ra imm e, .stw k rd ra imm), (2, .ldh k rd ra imm e, .sth k rd ra imm), (1, .ldb k rd ra imm e, .stb k rd ra imm)] ∧
    Fetched ld k s u ∧ a % n ≠ 0) ∧
    (∃ (k : Core) (rd ra : Sreg) (imm : Half) (e : Ecc) (s u : State) (a n : Nat) (ld st : Instr),
    a = (u.sr k.val ra + imm.signExtend 32).toNat ∧ (n, ld,
    st) ∈ [(4, .ldw k rd ra imm e, .stw k rd ra imm), (2, .ldh k rd ra imm e, .sth k rd ra imm), (1, .ldb k rd ra imm e, .stb k rd ra imm)] ∧
    Fetched ld k s u ∧ a % n = 0 ∧ inSram a = true ∧ u.mayLoad k.val a = false) ∧
    (∃ (k : Core) (rd ra : Sreg) (imm : Half) (e : Ecc) (s u : State) (a n : Nat) (ld st : Instr),
    a = (u.sr k.val ra + imm.signExtend 32).toNat ∧ (n, ld,
    st) ∈ [(4, .ldw k rd ra imm e, .stw k rd ra imm), (2, .ldh k rd ra imm e, .sth k rd ra imm), (1, .ldb k rd ra imm e, .stb k rd ra imm)] ∧
    Fetched ld k s u ∧ a % n = 0 ∧ inSram a = false ∧ ((n ≠ 4 ∨ u.mayReadReg k a = false))) ∧
    (∃ (k : Core) (rd ra : Sreg) (imm : Half) (e : Ecc) (s u : State) (a n : Nat) (ld st : Instr) (r v : _),
    a = (u.sr k.val ra + imm.signExtend 32).toNat ∧ r = u.eccRead a e ∧ v = r.1.tellPool r.2 ∧ (n, ld,
    st) ∈ [(4, .ldw k rd ra imm e, .stw k rd ra imm), (2, .ldh k rd ra imm e, .sth k rd ra imm), (1, .ldb k rd ra imm e, .stb k rd ra imm)] ∧
    Fetched ld k s u ∧ a % n = 0 ∧ inSram a = true ∧ u.mayLoad k.val a = true) ∧
    (∃ (k : Core) (rd ra : Sreg) (imm : Half) (e : Ecc) (s u : State) (a n : Nat) (ld st : Instr),
    a = (u.sr k.val ra + imm.signExtend 32).toNat ∧ e = .clean ∧ (n, ld,
    st) ∈ [(4, .ldw k rd ra imm e, .stw k rd ra imm), (2, .ldh k rd ra imm e, .sth k rd ra imm), (1, .ldb k rd ra imm e, .stb k rd ra imm)] ∧
    Fetched ld k s u ∧ a % n = 0 ∧ inSram a = true ∧ u.mayLoad k.val a = true ∧ u.poisoned a = false ∧ u.upset a = .clean) ∧
    (∃ (k : Core) (rd ra : Sreg) (imm : Half) (e : Ecc) (s u : State) (a n : Nat) (ld st : Instr) (r : _),
    a = (u.sr k.val ra + imm.signExtend 32).toNat ∧ n = 4 ∧ r = u.readReg (.core k) a e ∧ (n, ld,
    st) ∈ [(4, .ldw k rd ra imm e, .stw k rd ra imm), (2, .ldh k rd ra imm e, .sth k rd ra imm), (1, .ldb k rd ra imm e, .stb k rd ra imm)] ∧
    Fetched ld k s u ∧ a % n = 0 ∧ inSram a = false ∧ u.mayReadReg k a = true) ∧
    (∃ (k : Core) (rd ra : Sreg) (imm : Half) (e : Ecc) (s u : State) (a n : Nat) (ld st : Instr),
    a = (u.sr k.val ra + imm.signExtend 32).toNat ∧ (n, ld,
    st) ∈ [(4, .ldw k rd ra imm e, .stw k rd ra imm), (2, .ldh k rd ra imm e, .sth k rd ra imm), (1, .ldb k rd ra imm e, .stb k rd ra imm)] ∧
    Fetched st k s u ∧ a % n ≠ 0) ∧
    (∃ (k : Core) (rd ra : Sreg) (imm : Half) (e : Ecc) (s u : State) (a n : Nat) (ld st : Instr),
    a = (u.sr k.val ra + imm.signExtend 32).toNat ∧ (n, ld,
    st) ∈ [(4, .ldw k rd ra imm e, .stw k rd ra imm), (2, .ldh k rd ra imm e, .sth k rd ra imm), (1, .ldb k rd ra imm e, .stb k rd ra imm)] ∧
    Fetched st k s u ∧ a % n = 0 ∧ inSram a = true ∧ u.mayStore k.val a = false) ∧
    (∃ (k : Core) (rd ra : Sreg) (imm : Half) (e : Ecc) (s u : State) (a n : Nat) (ld st : Instr),
    a = (u.sr k.val ra + imm.signExtend 32).toNat ∧ (n, ld,
    st) ∈ [(4, .ldw k rd ra imm e, .stw k rd ra imm), (2, .ldh k rd ra imm e, .sth k rd ra imm), (1, .ldb k rd ra imm e, .stb k rd ra imm)] ∧
    Fetched st k s u ∧ a % n = 0 ∧ inSram a = false ∧ ((n ≠ 4 ∨ u.mayWriteReg k a = false))) ∧
    (∃ (k : Core) (rd ra : Sreg) (imm : Half) (e : Ecc) (s u : State) (a n : Nat) (ld st : Instr),
    a = (u.sr k.val ra + imm.signExtend 32).toNat ∧ (n, ld,
    st) ∈ [(4, .ldw k rd ra imm e, .stw k rd ra imm), (2, .ldh k rd ra imm e, .sth k rd ra imm), (1, .ldb k rd ra imm e, .stb k rd ra imm)] ∧
    Fetched st k s u ∧ a % n = 0 ∧ inSram a = true ∧ u.mayStore k.val a = true ∧ u.partOf a = some .registry) ∧
    (∃ (k : Core) (rd ra : Sreg) (imm : Half) (e : Ecc) (s u : State) (a n : Nat) (ld st : Instr),
    a = (u.sr k.val ra + imm.signExtend 32).toNat ∧ (n, ld,
    st) ∈ [(4, .ldw k rd ra imm e, .stw k rd ra imm), (2, .ldh k rd ra imm e, .sth k rd ra imm), (1, .ldb k rd ra imm e, .stb k rd ra imm)] ∧
    Fetched st k s u ∧ a % n = 0 ∧ inSram a = true ∧ u.mayStore k.val a = true ∧ u.partOf a ≠ some .registry ∧ u.upset a = .clean) ∧
    (∃ (k : Core) (rd ra : Sreg) (imm : Half) (e : Ecc) (s u : State) (a n : Nat) (ld st : Instr),
    a = (u.sr k.val ra + imm.signExtend 32).toNat ∧ n = 4 ∧ (n, ld,
    st) ∈ [(4, .ldw k rd ra imm e, .stw k rd ra imm), (2, .ldh k rd ra imm e, .sth k rd ra imm), (1, .ldb k rd ra imm e, .stb k rd ra imm)] ∧
    Fetched st k s u ∧ a % n = 0 ∧ inSram a = false ∧ u.mayWriteReg k a = true) :=
  ⟨⟨0, 0, 2, 0, .clean,
   ((coded (Instr.ldw (0 : Core) (0 : Sreg) (2 : Sreg) (0 : Half) (.clean : Ecc)) (run.setSr 0 2 0x01110002)) : State),
   ((fetched (Instr.ldw (0 : Core) (0 : Sreg) (2 : Sreg) (0 : Half) (.clean : Ecc)) (run.setSr 0 2 0x01110002)) : State), _, 4,
   (.ldw (0 : Core) (0 : Sreg) (2 : Sreg) (0 : Half) (.clean : Ecc) : Instr), (.stw (0 : Core) (0 : Sreg) (2 : Sreg) (0 : Half) : Instr),
   rfl, .head _, fetched_coded _ _ (by decide +kernel), by decide +kernel⟩,
   ⟨0, 0, 2, 0, .clean,
   ((coded (Instr.ldw (0 : Core) (0 : Sreg) (2 : Sreg) (0 : Half) (.clean : Ecc)) (run.setSr 0 2 0x01FFFFFC)) : State),
   ((fetched (Instr.ldw (0 : Core) (0 : Sreg) (2 : Sreg) (0 : Half) (.clean : Ecc)) (run.setSr 0 2 0x01FFFFFC)) : State), _, 4,
   (.ldw (0 : Core) (0 : Sreg) (2 : Sreg) (0 : Half) (.clean : Ecc) : Instr), (.stw (0 : Core) (0 : Sreg) (2 : Sreg) (0 : Half) : Instr),
   rfl, .head _, fetched_coded _ _ (by decide +kernel), by decide +kernel⟩,
   ⟨0, 0, 2, 0, .clean,
   ((coded (Instr.ldw (0 : Core) (0 : Sreg) (2 : Sreg) (0 : Half) (.clean : Ecc)) (run.setSr 0 2 0x00FFFFFC)) : State),
   ((fetched (Instr.ldw (0 : Core) (0 : Sreg) (2 : Sreg) (0 : Half) (.clean : Ecc)) (run.setSr 0 2 0x00FFFFFC)) : State), _, 4,
   (.ldw (0 : Core) (0 : Sreg) (2 : Sreg) (0 : Half) (.clean : Ecc) : Instr), (.stw (0 : Core) (0 : Sreg) (2 : Sreg) (0 : Half) : Instr),
   rfl, .head _, fetched_coded _ _ (by decide +kernel), by decide +kernel⟩,
   ⟨0, 0, 2, 0, .clean,
   ((coded (Instr.ldw (0 : Core) (0 : Sreg) (2 : Sreg) (0 : Half) (.clean : Ecc)) (run.setSr 0 2 0x01110000)) : State),
   ((fetched (Instr.ldw (0 : Core) (0 : Sreg) (2 : Sreg) (0 : Half) (.clean : Ecc)) (run.setSr 0 2 0x01110000)) : State), _, 4,
   (.ldw (0 : Core) (0 : Sreg) (2 : Sreg) (0 : Half) (.clean : Ecc) : Instr), (.stw (0 : Core) (0 : Sreg) (2 : Sreg) (0 : Half) : Instr),
   _, _, rfl, rfl, rfl, .head _, fetched_coded _ _ (by decide +kernel), by decide +kernel⟩,
   ⟨0, 0, 2, 0, _, ((coded (Instr.ldw (0 : Core) (0 : Sreg) (2 : Sreg) (0 : Half) (.clean : Ecc)) (run.setSr 0 2 0x01110000)) : State),
   ((fetched (Instr.ldw (0 : Core) (0 : Sreg) (2 : Sreg) (0 : Half) (.clean : Ecc)) (run.setSr 0 2 0x01110000)) : State), _, 4,
   (.ldw (0 : Core) (0 : Sreg) (2 : Sreg) (0 : Half) (.clean : Ecc) : Instr), (.stw (0 : Core) (0 : Sreg) (2 : Sreg) (0 : Half) : Instr),
   rfl, rfl, .head _, fetched_coded _ _ (by decide +kernel), by decide +kernel⟩,
   ⟨0, 0, 2, 0, .clean,
   ((coded (Instr.ldw (0 : Core) (0 : Sreg) (2 : Sreg) (0 : Half) (.clean : Ecc)) (run.setSr 0 2 0x00050000)) : State),
   ((fetched (Instr.ldw (0 : Core) (0 : Sreg) (2 : Sreg) (0 : Half) (.clean : Ecc)) (run.setSr 0 2 0x00050000)) : State), _, _,
   (.ldw (0 : Core) (0 : Sreg) (2 : Sreg) (0 : Half) (.clean : Ecc) : Instr), (.stw (0 : Core) (0 : Sreg) (2 : Sreg) (0 : Half) : Instr),
   _, rfl, rfl, rfl, .head _, fetched_coded _ _ (by decide +kernel), by decide +kernel⟩,
   ⟨0, 0, 2, 0, .clean, ((coded (Instr.stw (0 : Core) (0 : Sreg) (2 : Sreg) (0 : Half)) (run.setSr 0 2 0x01110002)) : State),
   ((fetched (Instr.stw (0 : Core) (0 : Sreg) (2 : Sreg) (0 : Half)) (run.setSr 0 2 0x01110002)) : State), _, 4, (.ldw (0 : Core)
   (0 : Sreg) (2 : Sreg) (0 : Half) (.clean : Ecc) : Instr), (.stw (0 : Core) (0 : Sreg) (2 : Sreg) (0 : Half) : Instr), rfl, .head _,
   fetched_coded _ _ (by decide +kernel), by decide +kernel⟩,
   ⟨0, 0, 2, 0, .clean, ((coded (Instr.stw (0 : Core) (0 : Sreg) (2 : Sreg) (0 : Half)) (run.setSr 0 2 0x01FFFFFC)) : State),
   ((fetched (Instr.stw (0 : Core) (0 : Sreg) (2 : Sreg) (0 : Half)) (run.setSr 0 2 0x01FFFFFC)) : State), _, 4, (.ldw (0 : Core)
   (0 : Sreg) (2 : Sreg) (0 : Half) (.clean : Ecc) : Instr), (.stw (0 : Core) (0 : Sreg) (2 : Sreg) (0 : Half) : Instr), rfl, .head _,
   fetched_coded _ _ (by decide +kernel), by decide +kernel⟩,
   ⟨0, 0, 2, 0, .clean, ((coded (Instr.stw (0 : Core) (0 : Sreg) (2 : Sreg) (0 : Half)) (run.setSr 0 2 0x00FFFFFC)) : State),
   ((fetched (Instr.stw (0 : Core) (0 : Sreg) (2 : Sreg) (0 : Half)) (run.setSr 0 2 0x00FFFFFC)) : State), _, 4, (.ldw (0 : Core)
   (0 : Sreg) (2 : Sreg) (0 : Half) (.clean : Ecc) : Instr), (.stw (0 : Core) (0 : Sreg) (2 : Sreg) (0 : Half) : Instr), rfl, .head _,
   fetched_coded _ _ (by decide +kernel), by decide +kernel⟩,
   ⟨0, 0, 2, 0, .clean, ((coded (Instr.stw (0 : Core) (0 : Sreg) (2 : Sreg) (0 : Half)) (run.setSr 0 2 0x01100000)) : State),
   ((fetched (Instr.stw (0 : Core) (0 : Sreg) (2 : Sreg) (0 : Half)) (run.setSr 0 2 0x01100000)) : State), _, 4, (.ldw (0 : Core)
   (0 : Sreg) (2 : Sreg) (0 : Half) (.clean : Ecc) : Instr), (.stw (0 : Core) (0 : Sreg) (2 : Sreg) (0 : Half) : Instr), rfl, .head _,
   fetched_coded _ _ (by decide +kernel), by decide +kernel⟩,
   ⟨0, 0, 2, 0, .clean, ((coded (Instr.stw (0 : Core) (0 : Sreg) (2 : Sreg) (0 : Half)) (run.setSr 0 2 0x01110000)) : State),
   ((fetched (Instr.stw (0 : Core) (0 : Sreg) (2 : Sreg) (0 : Half)) (run.setSr 0 2 0x01110000)) : State), _, 4, (.ldw (0 : Core)
   (0 : Sreg) (2 : Sreg) (0 : Half) (.clean : Ecc) : Instr), (.stw (0 : Core) (0 : Sreg) (2 : Sreg) (0 : Half) : Instr), rfl, .head _,
   fetched_coded _ _ (by decide +kernel), by decide +kernel⟩,
   ⟨0, 0, 2, 0, .clean, ((coded (Instr.stw (0 : Core) (0 : Sreg) (2 : Sreg) (0 : Half)) (run.setSr 0 2 0x00050000)) : State),
   ((fetched (Instr.stw (0 : Core) (0 : Sreg) (2 : Sreg) (0 : Half)) (run.setSr 0 2 0x00050000)) : State), _, _, (.ldw (0 : Core)
   (0 : Sreg) (2 : Sreg) (0 : Half) (.clean : Ecc) : Instr), (.stw (0 : Core) (0 : Sreg) (2 : Sreg) (0 : Half) : Instr), rfl, rfl,
   .head _, fetched_coded _ _ (by decide +kernel), by decide +kernel⟩⟩

theorem wit_QueueAndStreamInstructions :
    (∃ (a : Nat), a % 32 ≠ 0) ∧
    (∃ (k : Core) (q a : Nat) (may : Bool) (s : State), a % 32 = 0 ∧ ((inSram a = false ∨ may = false ∨ s.mayQueue k.val q = false))) ∧
    (∃ (k : Core) (q a : Nat) (may : Bool) (s : State), a % 32 = 0 ∧ inSram a = true ∧ may = true ∧ s.mayQueue k.val q = true) ∧
    (∃ (k : Core) (rd ra rb : Sreg) (e : Ecc) (x : Nat × Nat) (s u : State) (i : Instr),
    i ∈ [Instr.qget k rd ra rb e, .qgete k rd ra rb e, .qtry k rd ra rb e] ∧ Fetched i k s u ∧
    u.queueFault k (u.qreg k ra) (u.qaddr k rb) (u.mayStore k.val (u.qaddr k rb)) = some x) ∧
    (∃ (k : Core) (rd ra rb : Sreg) (e : Ecc) (s u v : State) (h : Line) (l : List PoolNote) (i : Instr),
    i ∈ [Instr.qget k rd ra rb e, .qgete k rd ra rb e, .qtry k rd ra rb e] ∧ Fetched i k s u ∧
    u.queueFault k (u.qreg k ra) (u.qaddr k rb) (u.mayStore k.val (u.qaddr k rb)) = none ∧ u.takeWord (u.qreg k ra) e = (some h, v, l)) ∧
    (∃ (k : Core) (rd ra rb : Sreg) (e : Ecc) (s u v w : State) (l : List PoolNote), w = v.tellPool l ∧
    u.takeWord (u.qreg k ra) e = (none, v, l) ∧ Fetched (.qtry k rd ra rb e) k s u ∧
    u.queueFault k (u.qreg k ra) (u.qaddr k rb) (u.mayStore k.val (u.qaddr k rb)) = none) ∧
    (∃ (k : Core) (rd ra rb : Sreg) (e : Ecc) (s u v w : State) (l : List PoolNote), w = v.tellPool l ∧
    u.takeWord (u.qreg k ra) e = (none, v, l) ∧ Fetched (.qget k rd ra rb e) k s u ∧
    u.queueFault k (u.qreg k ra) (u.qaddr k rb) (u.mayStore k.val (u.qaddr k rb)) = none) ∧
    (∃ (k : Core) (rd ra rb : Sreg) (e : Ecc) (s u v w : State) (l : List PoolNote), w = v.tellPool l ∧
    u.takeWord (u.qreg k ra) e = (none, v, l) ∧ Fetched (.qgete k rd ra rb e) k s u ∧
    u.queueFault k (u.qreg k ra) (u.qaddr k rb) (u.mayStore k.val (u.qaddr k rb)) = none ∧ w.seqEvents k.val ≠ 0) ∧
    (∃ (k : Core) (rd ra rb : Sreg) (e : Ecc) (s u v w : State) (l : List PoolNote), w = v.tellPool l ∧
    u.takeWord (u.qreg k ra) e = (none, v, l) ∧ Fetched (.qgete k rd ra rb e) k s u ∧
    u.queueFault k (u.qreg k ra) (u.qaddr k rb) (u.mayStore k.val (u.qaddr k rb)) = none ∧ w.seqEvents k.val = 0) ∧
    (∃ (k : Core) (rd ra rb : Sreg) (e : Ecc) (x : Nat × Nat) (s u : State), Fetched (.qput k rd ra rb e) k s u ∧
    u.queueFault k (u.qreg k ra) (u.qaddr k rb) (u.mayLoad k.val (u.qaddr k rb)) = some x) ∧
    (∃ (k : Core) (rd ra rb : Sreg) (e : Ecc) (s u v : State) (r : _), r = u.eccRead (u.qaddr k rb) e ∧ v = r.1.tellPool r.2 ∧
    Fetched (.qput k rd ra rb e) k s u ∧ u.queueFault k (u.qreg k ra) (u.qaddr k rb) (u.mayLoad k.val (u.qaddr k rb)) = none ∧
    v.poisoned (u.qaddr k rb) = true) ∧
    (∃ (k : Core) (rd ra rb : Sreg) (e : Ecc) (s u v : State) (r p : _), r = u.eccRead (u.qaddr k rb) e ∧ v = r.1.tellPool r.2 ∧
    p = v.putWord (.core k) (u.qreg k ra) (v.sramLine (u.qaddr k rb)) ∧ Fetched (.qput k rd ra rb e) k s u ∧
    u.queueFault k (u.qreg k ra) (u.qaddr k rb) (u.mayLoad k.val (u.qaddr k rb)) = none ∧ v.poisoned (u.qaddr k rb) = false) ∧
    (∃ (k : Core) (rd ra : Sreg) (s u : State) (q : Nat) (r : _), q = u.qreg k ra ∧ r = u.rewind (.core k) q ∧
    Fetched (.qrew k rd ra) k s u ∧ u.mayQueue k.val q = true ∧ (u.queue q).en = true) ∧
    (∃ (k : Core) (rd ra : Sreg) (s u : State) (q : Nat) (r : _), q = u.qreg k ra ∧ r = u.touch q ∧ Fetched (.qlvl k rd ra) k s u ∧
    u.mayQueue k.val q = true ∧ (u.queue q).en = true) ∧
    (∃ (k : Core) (rd ra : Sreg) (s u : State) (q : Nat) (i : Instr), q = u.qreg k ra ∧ i ∈ [Instr.qrew k rd ra, .qlvl k rd ra] ∧
    Fetched i k s u ∧ u.mayQueue k.val q = false) ∧
    (∃ (k : Core) (rd ra : Sreg) (s u : State) (q : Nat) (i : Instr), q = u.qreg k ra ∧ i ∈ [Instr.qrew k rd ra, .qlvl k rd ra] ∧
    Fetched i k s u ∧ u.mayQueue k.val q = true ∧ (u.queue q).en = false) ∧
    (∃ (k : Core) (r : Sreg) (p : StreamP) (s u : State), Fetched (.sin k r p) k s u ∧ u.sinSource k p = none) ∧
    (∃ (k : Core) (r : Sreg) (p : StreamP) (s u : State), Fetched (.sin k r p) k s u ∧ u.sinComplex k p = true ∧ r.val % 2 = 1) ∧
    (∃ (k : Core) (r : Sreg) (p : StreamP) (s u : State), Fetched (.sout k r p) k s u ∧ u.soutRouted k p = false) ∧
    (∃ (k : Core) (r : Sreg) (p : StreamP) (s u : State), Fetched (.sout k r p) k s u ∧ u.soutRouted k p = true ∧ r.val % 2 = 1 ∧
    (mget fifoDef (u.core k.val).fout p.val).length < 16) ∧
    (∃ (k : Core) (r : Sreg) (p : StreamP) (s u : State), Fetched (.sin k r p) k s u ∧ u.sinSource k p ≠ none ∧
    ((u.sinComplex k p = true → r.val % 2 = 0)) ∧ mget fifoDef (u.core k.val).fin p.val = []) ∧
    (∃ (k : Core) (r : Sreg) (p : StreamP) (s u : State) (x y t : _), Fetched (.sin k r p) k s u ∧ u.sinSource k p ≠ none ∧
    ((u.sinComplex k p = true → r.val % 2 = 0)) ∧ mget fifoDef (u.core k.val).fin p.val = (x, y) :: t) ∧
    (∃ (k : Core) (r : Sreg) (p : StreamP) (s u : State), Fetched (.sout k r p) k s u ∧ ((u.soutComplex k p = true → r.val % 2 = 0)) ∧
    u.soutRouted k p = true ∧ 16 ≤ (mget fifoDef (u.core k.val).fout p.val).length) ∧
    (∃ (k : Core) (r : Sreg) (p : StreamP) (s u : State), Fetched (.sout k r p) k s u ∧ ((u.soutComplex k p = true → r.val % 2 = 0)) ∧
    u.soutRouted k p = true ∧ (mget fifoDef (u.core k.val).fout p.val).length < 16) ∧
    (∃ (k : Core) (p : StreamP) (src : TapSrc) (re im : BitVec 24) (s : State) (l x : _), l = mget fifoDef (s.core k.val).fin p.val ∧
    x = ((tapSample src re im).re, (tapSample src re im).im) ∧ s.seqMode = true ∧
    sinksOf s.fab.routes (tapEnd src) = [0x5000 + k.val * 4 + p.val] ∧ 16 ≤ l.length) ∧
    (∃ (k : Core) (p : StreamP) (src : TapSrc) (re im : BitVec 24) (s : State) (l x : _), l = mget fifoDef (s.core k.val).fin p.val ∧
    x = ((tapSample src re im).re, (tapSample src re im).im) ∧ l = [] ∧ s.seqMode = true ∧
    sinksOf s.fab.routes (tapEnd src) = [0x5000 + k.val * 4 + p.val]) ∧
    (∃ (k : Core) (p : StreamP) (src : TapSrc) (re im : BitVec 24) (s : State) (l x : _), l = mget fifoDef (s.core k.val).fin p.val ∧
    x = ((tapSample src re im).re, (tapSample src re im).im) ∧ s.seqMode = true ∧
    sinksOf s.fab.routes (tapEnd src) = [0x5000 + k.val * 4 + p.val] ∧ 0 < l.length ∧ l.length < 16) ∧
    (∃ (q : QId) (src : TapSrc) (s : State), s.seqMode = true ∧ sinksOf s.fab.routes (tapEnd src) = [0x7000 + q.val]) :=
  ⟨⟨1, by decide +kernel⟩,
   ⟨0, 0, 0, false, run, by decide +kernel⟩,
   ⟨0, 0, 0x01110000, true, run, by decide +kernel⟩,
   ⟨0, 0, 0, 0, .clean,
   ((((fetched (Instr.qget (0 : Core) (0 : Sreg) (0 : Sreg) (0 : Sreg) (.clean : Ecc)) run) : State).queueFault (0 : Core) (((fetched (Instr.qget (0 : Core) (0 : Sreg) (0 : Sreg) (0 : Sreg) (.clean : Ecc)) run) : State).qreg (0 : Core) (0 : Sreg)) (((fetched (Instr.qget (0 : Core) (0 : Sreg) (0 : Sreg) (0 : Sreg) (.clean : Ecc)) run) : State).qaddr (0 : Core) (0 : Sreg)) (((fetched (Instr.qget (0 : Core) (0 : Sreg) (0 : Sreg) (0 : Sreg) (.clean : Ecc)) run) : State).mayStore (0 : Core).val (((fetched (Instr.qget (0 : Core) (0 : Sreg) (0 : Sreg) (0 : Sreg) (.clean : Ecc)) run) : State).qaddr (0 : Core) (0 : Sreg)))).get (by decide +kernel) : Nat × Nat),
   ((coded (Instr.qget (0 : Core) (0 : Sreg) (0 : Sreg) (0 : Sreg) (.clean : Ecc)) run) : State),
   ((fetched (Instr.qget (0 : Core) (0 : Sreg) (0 : Sreg) (0 : Sreg) (.clean : Ecc)) run) : State), (Instr.qget (0 : Core) (0 : Sreg)
   (0 : Sreg) (0 : Sreg) (.clean : Ecc) : Instr), .head _, fetched_coded _ _ (by decide +kernel), by decide +kernel⟩,
   ⟨0, 0, 0, 2, .clean,
   ((coded (Instr.qget (0 : Core) (0 : Sreg) (0 : Sreg) (2 : Sreg) (.clean : Ecc)) (packed.setSr 0 2 0x01110000)) : State),
   ((fetched (Instr.qget (0 : Core) (0 : Sreg) (0 : Sreg) (2 : Sreg) (.clean : Ecc)) (packed.setSr 0 2 0x01110000)) : State),
   ((((fetched (Instr.qget (0 : Core) (0 : Sreg) (0 : Sreg) (2 : Sreg) (.clean : Ecc)) (packed.setSr 0 2 0x01110000)) : State).takeWord (((fetched (Instr.qget (0 : Core) (0 : Sreg) (0 : Sreg) (2 : Sreg) (.clean : Ecc)) (packed.setSr 0 2 0x01110000)) : State).qreg (0 : Core) (0 : Sreg)) (.clean : Ecc)).2.1 : State),
   ((((fetched (Instr.qget (0 : Core) (0 : Sreg) (0 : Sreg) (2 : Sreg) (.clean : Ecc)) (packed.setSr 0 2 0x01110000)) : State).takeWord (((fetched (Instr.qget (0 : Core) (0 : Sreg) (0 : Sreg) (2 : Sreg) (.clean : Ecc)) (packed.setSr 0 2 0x01110000)) : State).qreg (0 : Core) (0 : Sreg)) (.clean : Ecc)).1.get (by decide +kernel) : Line),
   ((((fetched (Instr.qget (0 : Core) (0 : Sreg) (0 : Sreg) (2 : Sreg) (.clean : Ecc)) (packed.setSr 0 2 0x01110000)) : State).takeWord (((fetched (Instr.qget (0 : Core) (0 : Sreg) (0 : Sreg) (2 : Sreg) (.clean : Ecc)) (packed.setSr 0 2 0x01110000)) : State).qreg (0 : Core) (0 : Sreg)) (.clean : Ecc)).2.2 : List PoolNote),
   (Instr.qget (0 : Core) (0 : Sreg) (0 : Sreg) (2 : Sreg) (.clean : Ecc) : Instr), .head _, fetched_coded _ _ (by decide +kernel),
   by decide +kernel⟩,
   ⟨0, 0, 0, 2, .clean,
   ((coded (Instr.qtry (0 : Core) (0 : Sreg) (0 : Sreg) (2 : Sreg) (.clean : Ecc)) (emptyQ.setSr 0 2 0x01110000)) : State),
   ((fetched (Instr.qtry (0 : Core) (0 : Sreg) (0 : Sreg) (2 : Sreg) (.clean : Ecc)) (emptyQ.setSr 0 2 0x01110000)) : State),
   ((((fetched (Instr.qtry (0 : Core) (0 : Sreg) (0 : Sreg) (2 : Sreg) (.clean : Ecc)) (emptyQ.setSr 0 2 0x01110000)) : State).takeWord (((fetched (Instr.qtry (0 : Core) (0 : Sreg) (0 : Sreg) (2 : Sreg) (.clean : Ecc)) (emptyQ.setSr 0 2 0x01110000)) : State).qreg (0 : Core) (0 : Sreg)) (.clean : Ecc)).2.1 : State),
   _,
   ((((fetched (Instr.qtry (0 : Core) (0 : Sreg) (0 : Sreg) (2 : Sreg) (.clean : Ecc)) (emptyQ.setSr 0 2 0x01110000)) : State).takeWord (((fetched (Instr.qtry (0 : Core) (0 : Sreg) (0 : Sreg) (2 : Sreg) (.clean : Ecc)) (emptyQ.setSr 0 2 0x01110000)) : State).qreg (0 : Core) (0 : Sreg)) (.clean : Ecc)).2.2 : List PoolNote),
   rfl, Prod.ext (by decide +kernel) (Prod.ext rfl rfl), fetched_coded _ _ (by decide +kernel), by decide +kernel⟩,
   ⟨0, 0, 0, 2, .clean,
   ((coded (Instr.qget (0 : Core) (0 : Sreg) (0 : Sreg) (2 : Sreg) (.clean : Ecc)) (emptyQ.setSr 0 2 0x01110000)) : State),
   ((fetched (Instr.qget (0 : Core) (0 : Sreg) (0 : Sreg) (2 : Sreg) (.clean : Ecc)) (emptyQ.setSr 0 2 0x01110000)) : State),
   ((((fetched (Instr.qget (0 : Core) (0 : Sreg) (0 : Sreg) (2 : Sreg) (.clean : Ecc)) (emptyQ.setSr 0 2 0x01110000)) : State).takeWord (((fetched (Instr.qget (0 : Core) (0 : Sreg) (0 : Sreg) (2 : Sreg) (.clean : Ecc)) (emptyQ.setSr 0 2 0x01110000)) : State).qreg (0 : Core) (0 : Sreg)) (.clean : Ecc)).2.1 : State),
   _,
   ((((fetched (Instr.qget (0 : Core) (0 : Sreg) (0 : Sreg) (2 : Sreg) (.clean : Ecc)) (emptyQ.setSr 0 2 0x01110000)) : State).takeWord (((fetched (Instr.qget (0 : Core) (0 : Sreg) (0 : Sreg) (2 : Sreg) (.clean : Ecc)) (emptyQ.setSr 0 2 0x01110000)) : State).qreg (0 : Core) (0 : Sreg)) (.clean : Ecc)).2.2 : List PoolNote),
   rfl, Prod.ext (by decide +kernel) (Prod.ext rfl rfl), fetched_coded _ _ (by decide +kernel), by decide +kernel⟩,
   ⟨0, 0, 0, 2, .clean,
   ((coded (Instr.qgete (0 : Core) (0 : Sreg) (0 : Sreg) (2 : Sreg) (.clean : Ecc)) ((emptyQ.setSr 0 2 0x01110000).setReg (SEQ_EV 0) 0x00FF00FF)) : State),
   ((fetched (Instr.qgete (0 : Core) (0 : Sreg) (0 : Sreg) (2 : Sreg) (.clean : Ecc)) ((emptyQ.setSr 0 2 0x01110000).setReg (SEQ_EV 0) 0x00FF00FF)) : State),
   ((((fetched (Instr.qgete (0 : Core) (0 : Sreg) (0 : Sreg) (2 : Sreg) (.clean : Ecc)) ((emptyQ.setSr 0 2 0x01110000).setReg (SEQ_EV 0) 0x00FF00FF)) : State).takeWord (((fetched (Instr.qgete (0 : Core) (0 : Sreg) (0 : Sreg) (2 : Sreg) (.clean : Ecc)) ((emptyQ.setSr 0 2 0x01110000).setReg (SEQ_EV 0) 0x00FF00FF)) : State).qreg (0 : Core) (0 : Sreg)) (.clean : Ecc)).2.1 : State),
   _,
   ((((fetched (Instr.qgete (0 : Core) (0 : Sreg) (0 : Sreg) (2 : Sreg) (.clean : Ecc)) ((emptyQ.setSr 0 2 0x01110000).setReg (SEQ_EV 0) 0x00FF00FF)) : State).takeWord (((fetched (Instr.qgete (0 : Core) (0 : Sreg) (0 : Sreg) (2 : Sreg) (.clean : Ecc)) ((emptyQ.setSr 0 2 0x01110000).setReg (SEQ_EV 0) 0x00FF00FF)) : State).qreg (0 : Core) (0 : Sreg)) (.clean : Ecc)).2.2 : List PoolNote),
   rfl, Prod.ext (by decide +kernel) (Prod.ext rfl rfl), fetched_coded _ _ (by decide +kernel), by decide +kernel⟩,
   ⟨0, 0, 0, 2, .clean,
   ((coded (Instr.qgete (0 : Core) (0 : Sreg) (0 : Sreg) (2 : Sreg) (.clean : Ecc)) (emptyQ.setSr 0 2 0x01110000)) : State),
   ((fetched (Instr.qgete (0 : Core) (0 : Sreg) (0 : Sreg) (2 : Sreg) (.clean : Ecc)) (emptyQ.setSr 0 2 0x01110000)) : State),
   ((((fetched (Instr.qgete (0 : Core) (0 : Sreg) (0 : Sreg) (2 : Sreg) (.clean : Ecc)) (emptyQ.setSr 0 2 0x01110000)) : State).takeWord (((fetched (Instr.qgete (0 : Core) (0 : Sreg) (0 : Sreg) (2 : Sreg) (.clean : Ecc)) (emptyQ.setSr 0 2 0x01110000)) : State).qreg (0 : Core) (0 : Sreg)) (.clean : Ecc)).2.1 : State),
   _,
   ((((fetched (Instr.qgete (0 : Core) (0 : Sreg) (0 : Sreg) (2 : Sreg) (.clean : Ecc)) (emptyQ.setSr 0 2 0x01110000)) : State).takeWord (((fetched (Instr.qgete (0 : Core) (0 : Sreg) (0 : Sreg) (2 : Sreg) (.clean : Ecc)) (emptyQ.setSr 0 2 0x01110000)) : State).qreg (0 : Core) (0 : Sreg)) (.clean : Ecc)).2.2 : List PoolNote),
   rfl, Prod.ext (by decide +kernel) (Prod.ext rfl rfl), fetched_coded _ _ (by decide +kernel), by decide +kernel⟩,
   ⟨0, 0, 0, 0, .clean,
   ((((fetched (Instr.qput (0 : Core) (0 : Sreg) (0 : Sreg) (0 : Sreg) (.clean : Ecc)) run) : State).queueFault (0 : Core) (((fetched (Instr.qput (0 : Core) (0 : Sreg) (0 : Sreg) (0 : Sreg) (.clean : Ecc)) run) : State).qreg (0 : Core) (0 : Sreg)) (((fetched (Instr.qput (0 : Core) (0 : Sreg) (0 : Sreg) (0 : Sreg) (.clean : Ecc)) run) : State).qaddr (0 : Core) (0 : Sreg)) (((fetched (Instr.qput (0 : Core) (0 : Sreg) (0 : Sreg) (0 : Sreg) (.clean : Ecc)) run) : State).mayLoad (0 : Core).val (((fetched (Instr.qput (0 : Core) (0 : Sreg) (0 : Sreg) (0 : Sreg) (.clean : Ecc)) run) : State).qaddr (0 : Core) (0 : Sreg)))).get (by decide +kernel) : Nat × Nat),
   ((coded (Instr.qput (0 : Core) (0 : Sreg) (0 : Sreg) (0 : Sreg) (.clean : Ecc)) run) : State),
   ((fetched (Instr.qput (0 : Core) (0 : Sreg) (0 : Sreg) (0 : Sreg) (.clean : Ecc)) run) : State), fetched_coded _ _ (by decide +kernel),
   by decide +kernel⟩,
   ⟨0, 0, 0, 2, .clean,
   ((coded (Instr.qput (0 : Core) (0 : Sreg) (0 : Sreg) (2 : Sreg) (.clean : Ecc)) (({ packed with poison := [0x8800] } : State).setSr 0 2 0x01110000)) : State),
   ((fetched (Instr.qput (0 : Core) (0 : Sreg) (0 : Sreg) (2 : Sreg) (.clean : Ecc)) (({ packed with poison := [0x8800] } : State).setSr 0 2 0x01110000)) : State),
   _, _, rfl, rfl, fetched_coded _ _ (by decide +kernel), by decide +kernel⟩,
   ⟨0, 0, 0, 2, .clean,
   ((coded (Instr.qput (0 : Core) (0 : Sreg) (0 : Sreg) (2 : Sreg) (.clean : Ecc)) (packed.setSr 0 2 0x01110000)) : State),
   ((fetched (Instr.qput (0 : Core) (0 : Sreg) (0 : Sreg) (2 : Sreg) (.clean : Ecc)) (packed.setSr 0 2 0x01110000)) : State), _, _, _,
   rfl, rfl, rfl, fetched_coded _ _ (by decide +kernel), by decide +kernel⟩,
   ⟨0, 0, 0, ((coded (Instr.qrew (0 : Core) (0 : Sreg) (0 : Sreg)) packed) : State),
   ((fetched (Instr.qrew (0 : Core) (0 : Sreg) (0 : Sreg)) packed) : State), _, _, rfl, rfl, fetched_coded _ _ (by decide +kernel),
   by decide +kernel⟩,
   ⟨0, 0, 0, ((coded (Instr.qlvl (0 : Core) (0 : Sreg) (0 : Sreg)) packed) : State),
   ((fetched (Instr.qlvl (0 : Core) (0 : Sreg) (0 : Sreg)) packed) : State), _, _, rfl, rfl, fetched_coded _ _ (by decide +kernel),
   by decide +kernel⟩,
   ⟨0, 0, 0,
   ((coded (Instr.qrew (0 : Core) (0 : Sreg) (0 : Sreg)) (((run.put (SEQ_LWIN.SIZE 0) 1).putFlag (SEQ_CFG.PRIV 0) true).modQueue 0 (fun x => { x with nseq := 5 }))) : State),
   ((fetched (Instr.qrew (0 : Core) (0 : Sreg) (0 : Sreg)) (((run.put (SEQ_LWIN.SIZE 0) 1).putFlag (SEQ_CFG.PRIV 0) true).modQueue 0 (fun x => { x with nseq := 5 }))) : State),
   _, (Instr.qrew (0 : Core) (0 : Sreg) (0 : Sreg) : Instr), rfl, .head _, fetched_coded _ _ (by decide +kernel), by decide +kernel⟩,
   ⟨0, 0, 0, ((coded (Instr.qrew (0 : Core) (0 : Sreg) (0 : Sreg)) run) : State),
   ((fetched (Instr.qrew (0 : Core) (0 : Sreg) (0 : Sreg)) run) : State), _, (Instr.qrew (0 : Core) (0 : Sreg) (0 : Sreg) : Instr), rfl,
   .head _, fetched_coded _ _ (by decide +kernel), by decide +kernel⟩,
   ⟨0, 0, 0, ((coded (Instr.sin (0 : Core) (0 : Sreg) (0 : StreamP)) run) : State),
   ((fetched (Instr.sin (0 : Core) (0 : Sreg) (0 : StreamP)) run) : State), fetched_coded _ _ (by decide +kernel), by decide +kernel⟩,
   ⟨0, 1, 0,
   ((coded (Instr.sin (0 : Core) (1 : Sreg) (0 : StreamP)) ({ run with fab := { run.fab with routes := [(0x9000, 0x5000)] } } : State)) : State),
   ((fetched (Instr.sin (0 : Core) (1 : Sreg) (0 : StreamP)) ({ run with fab := { run.fab with routes := [(0x9000, 0x5000)] } } : State)) : State),
   fetched_coded _ _ (by decide +kernel), by decide +kernel⟩,
   ⟨0, 0, 0, ((coded (Instr.sout (0 : Core) (0 : Sreg) (0 : StreamP)) run) : State),
   ((fetched (Instr.sout (0 : Core) (0 : Sreg) (0 : StreamP)) run) : State), fetched_coded _ _ (by decide +kernel), by decide +kernel⟩,
   ⟨0, 1, 0,
   ((coded (Instr.sout (0 : Core) (1 : Sreg) (0 : StreamP)) ({ run with fab := { run.fab with routes := [(0x6000, 0x7000)] } } : State)) : State),
   ((fetched (Instr.sout (0 : Core) (1 : Sreg) (0 : StreamP)) ({ run with fab := { run.fab with routes := [(0x6000, 0x7000)] } } : State)) : State),
   fetched_coded _ _ (by decide +kernel), by decide +kernel⟩,
   ⟨0, 0, 0,
   ((coded (Instr.sin (0 : Core) (0 : Sreg) (0 : StreamP)) ({ run with fab := { run.fab with routes := [(0xA000, 0x5000)] } } : State)) : State),
   ((fetched (Instr.sin (0 : Core) (0 : Sreg) (0 : StreamP)) ({ run with fab := { run.fab with routes := [(0xA000, 0x5000)] } } : State)) : State),
   fetched_coded _ _ (by decide +kernel), by decide +kernel⟩,
   ⟨0, 0, 0,
   ((coded (Instr.sin (0 : Core) (0 : Sreg) (0 : StreamP)) (({ run with fab := { run.fab with routes := [(0xA000, 0x5000)] } } : State).modCore 0 (fun c => { c with fin := [(0, [(1, 0)])] }))) : State),
   ((fetched (Instr.sin (0 : Core) (0 : Sreg) (0 : StreamP)) (({ run with fab := { run.fab with routes := [(0xA000, 0x5000)] } } : State).modCore 0 (fun c => { c with fin := [(0, [(1, 0)])] }))) : State),
   1, 0, ([] : List (Int × Int)), fetched_coded _ _ (by decide +kernel), by decide +kernel⟩,
   ⟨0, 2, 0,
   ((coded (Instr.sout (0 : Core) (2 : Sreg) (0 : StreamP)) (({ run with fab := { run.fab with routes := [(0x6000, 0x7000)] } } : State).modCore 0 (fun c => { c with fout := [(0, List.replicate 16 (1, 0))] }))) : State),
   ((fetched (Instr.sout (0 : Core) (2 : Sreg) (0 : StreamP)) (({ run with fab := { run.fab with routes := [(0x6000, 0x7000)] } } : State).modCore 0 (fun c => { c with fout := [(0, List.replicate 16 (1, 0))] }))) : State),
   fetched_coded _ _ (by decide +kernel), fun _ => by decide, by decide +kernel⟩,
   ⟨0, 2, 0,
   ((coded (Instr.sout (0 : Core) (2 : Sreg) (0 : StreamP)) ({ run with fab := { run.fab with routes := [(0x6000, 0x7000)] } } : State)) : State),
   ((fetched (Instr.sout (0 : Core) (2 : Sreg) (0 : StreamP)) ({ run with fab := { run.fab with routes := [(0x6000, 0x7000)] } } : State)) : State),
   fetched_coded _ _ (by decide +kernel), fun _ => by decide, by decide +kernel⟩,
   ⟨0, 0, (.conv 0 : TapSrc), 0, 0,
   (({ run with fab := { run.fab with routes := [(0xA000, 0x5000)] } } : State).modCore 0 (fun c => { c with fin := [(0, List.replicate 16 (1, 0))] }) : State),
   _, _, rfl, rfl, by decide +kernel⟩,
   ⟨0, 0, (.conv 0 : TapSrc), 0, 0, ({ run with fab := { run.fab with routes := [(0xA000, 0x5000)] } } : State), _, _, rfl, rfl, rfl,
   by decide +kernel⟩,
   ⟨0, 0, (.conv 0 : TapSrc), 0, 0,
   (({ run with fab := { run.fab with routes := [(0xA000, 0x5000)] } } : State).modCore 0 (fun c => { c with fin := [(0, List.replicate 15 (1, 0))] }) : State),
   _, _, rfl, rfl, by decide +kernel⟩,
   ⟨0, (.conv 0 : TapSrc), ({ run with fab := { run.fab with routes := [(0xA000, 0x7000)] } } : State), by decide +kernel⟩⟩

theorem wit_ExceptionsAreTakenOrHalt :
    (∃ (k c x : Nat) (s t : State), t = s.raise k c x ∧ k < 32 ∧ c < 12 ∧ x < 2 ^ 32 ∧ s.lCore k = false ∧
    s.flag (SEQ_STAT.INEXC k) = false ∧ s.reg (SEQ_VEC k) ≠ 0) ∧
    (∃ (k : Nat) (s : State), s.lCore k = false ∧ s.flag (SEQ_STAT.INEXC k) = false ∧ s.reg (SEQ_VEC k) = 0 ∧ k < 32) ∧
    (∃ (k : Nat) (s : State), s.lCore k = false ∧ s.flag (SEQ_STAT.INEXC k) = true ∧ k < 32) ∧
    (∃ (k : Nat) (s : State), s.lCore k = true ∧ k < 32) ∧
    (∃ (k : Nat) (s u v : State), u = (s.put (SEQ_STAT.STATE k) 5).modCore k (fun c => { c with stall := .none }) ∧
    v = u.coreEvent (s.get (SEQ_CFG.SUPER k)) 7 ∧ k < 32) ∧
    (∃ (k : Core) (s : State), (s.core k.val).irq = true ∧ s.seqMode = true ∧ s.lCore k.val = false ∧
    s.flag (SEQ_CFG.INT_PM k.val) = true ∧ s.flag (SEQ_STAT.INEXC k.val) = false ∧ s.coreState k.val ≤ 3) ∧
    (∃ (k : Core) (s : State),
    (((s.core k.val).irq = false ∨ s.lCore k.val = true ∨ s.flag (SEQ_CFG.INT_PM k.val) = false ∨ s.flag (SEQ_STAT.INEXC k.val) = true ∨ 3 < s.coreState k.val ∨ s.seqMode = false))) ∧
    (∃ (k : Core) (s u : State), Fetched (.hret k) k s u ∧ u.lCore k.val = false) ∧
    (∃ (k : Core) (s u v : State) (w : Word), v = (u.setReg (SEQ_PC k.val) (u.reg (SEQ_EPC k.val))).putFlag (SEQ_STAT.INEXC k.val) false ∧
    s.coreRuns k.val = true ∧ s.flag (SEQ_STAT.INEXC k.val) = true ∧ w.toNat = 0x78000004 ∧ s.fetch k = (some w, u) ∧
    u.lCore k.val = false ∧ v.irqDue k.val = true) :=
  ⟨⟨0, 0, 0, (((run.putFlag (SEQ_STAT.INEXC (0 : Nat)) false).setReg (SEQ_VEC (0 : Nat)) 4) : State), _, rfl, by decide +kernel⟩,
   ⟨0, ((run.putFlag (SEQ_STAT.INEXC (0 : Nat)) false) : State), by decide +kernel⟩,
   ⟨0, ((run.putFlag (SEQ_STAT.INEXC (0 : Nat)) true) : State), by decide +kernel⟩,
   ⟨0, ((run.putFlag (SEQ_CFG.PRIV 0) true) : State), by decide +kernel⟩,
   ⟨0, run, _, _, rfl, rfl, by decide +kernel⟩,
   ⟨0,
   ((((run.putFlag (SEQ_CFG.INT_PM (0 : Core).val) true).putFlag (SEQ_STAT.INEXC (0 : Core).val) false).modCore 0 (fun c => { c with irq := true })) : State),
   by decide +kernel⟩,
   ⟨0, run, by decide +kernel⟩,
   ⟨0, ((coded (Instr.hret (0 : Core)) run) : State), ((fetched (Instr.hret (0 : Core)) run) : State),
   fetched_coded _ _ (by decide +kernel), by decide +kernel⟩,
   ⟨0,
   ((((run.putFlag (SEQ_STAT.INEXC 0) true).putFlag (SEQ_CFG.INT_PM 0) true).modCore 0 (fun c => { c with irq := true })).setBytes 0x01000000 (leBytes 4 0x78000004) : State),
   ((((((run.putFlag (SEQ_STAT.INEXC 0) true).putFlag (SEQ_CFG.INT_PM 0) true).modCore 0 (fun c => { c with irq := true })).setBytes 0x01000000 (leBytes 4 0x78000004) : State).fetch (0 : Core)).2 : State),
   _,
   ((((((run.putFlag (SEQ_STAT.INEXC 0) true).putFlag (SEQ_CFG.INT_PM 0) true).modCore 0 (fun c => { c with irq := true })).setBytes 0x01000000 (leBytes 4 0x78000004) : State).fetch (0 : Core)).1.get (by decide +kernel) : Word),
   rfl, by decide +kernel⟩⟩

theorem wit_SystemInstructionsAndWake :
    (∃ (k : Core) (rd : Sreg) (s u : State), Fetched (.wait k rd) k s u ∧ u.seqEvents k.val ≠ 0) ∧
    (∃ (k : Core) (rd : Sreg) (s u : State), Fetched (.wait k rd) k s u ∧ u.seqEvents k.val = 0) ∧
    (∃ (k : Core) (rd : Sreg) (i : Cix) (s u : State) (r : _), r = u.readReg (.core k) (0x30000 + k.val * 256 + 4 * i.val) .clean ∧
    Fetched (.rdctl k rd i) k s u ∧ i.val ≤ 0x11) ∧
    (∃ (k : Core) (rd : Sreg) (i : Cix) (s u : State), Fetched (.rdctl k rd i) k s u ∧ i.val = 0x3F) ∧
    (∃ (k : Core) (rd : Sreg) (i : Cix) (s u : State), Fetched (.rdctl k rd i) k s u ∧ 0x11 < i.val ∧ i.val ≠ 0x3F) ∧
    (∃ (k : Core) (ra : Sreg) (i : Cix) (s u : State), Fetched (.wrctl k ra i) k s u ∧ 0x11 < i.val ∧ i.val ≠ 0x3F) ∧
    (∃ (k : Core) (ra : Sreg) (i : Cix) (s u : State), Fetched (.wrctl k ra i) k s u ∧ i.val ≤ 0x11 ∧
    ((u.lCore k.val = false ∨ i.val = 7 ∨ i.val = 8))) ∧
    (∃ (k : Core) (ra : Sreg) (i : Cix) (s u : State), Fetched (.wrctl k ra i) k s u ∧ i.val ≤ 0x11 ∧ u.lCore k.val = true ∧ i.val ≠ 7 ∧
    i.val ≠ 8) ∧
    (∃ (k : Core) (ra : Sreg) (i : Cix) (s u : State), Fetched (.wrctl k ra i) k s u ∧ i.val = 0x3F ∧ u.lCore k.val = false) ∧
    (∃ (k : Core) (ra : Sreg) (i : Cix) (s u : State), Fetched (.wrctl k ra i) k s u ∧ i.val = 0x3F ∧ u.lCore k.val = true) ∧
    (∃ (k : Core) (s u : State), Fetched (.supc k) k s u ∧ u.lCore k.val = false) ∧
    (∃ (k : Core) (s u : State), Fetched (.supc k) k s u ∧ u.lCore k.val = true) ∧
    (∃ (k : Core) (s u : State), Fetched (.hret k) k s u ∧ u.lCore k.val = true) ∧
    (∃ (k : Core) (s u : State), Fetched (.hret k) k s u ∧ u.lCore k.val = false) ∧
    (∃ (k : Core) (s u : State), Fetched (.trap k) k s u) ∧
    (∃ (k : Core) (s u : State), Fetched (.synci k) k s u) ∧
    (∃ (k : Core) (s u : State) (rd : Sreg), u = s.unstall k.val ∧ s.seqMode = true ∧ (s.core k.val).irq = false ∧ 1 ≤ s.coreState k.val ∧
    s.coreState k.val ≤ 3 ∧ (s.core k.val).stall = .wait rd.val) ∧
    (∃ (k : Core) (s u : State) (rd : Sreg) (q a b : _), u = s.unstall k.val ∧ s.seqMode = true ∧ (s.core k.val).irq = false ∧
    1 ≤ s.coreState k.val ∧ s.coreState k.val ≤ 3 ∧ (s.core k.val).stall = .qget rd.val q a b) ∧
    (∃ (k : Core) (s u : State) (r : Sreg) (p : StreamP), u = s.unstall k.val ∧ s.seqMode = true ∧ (s.core k.val).irq = false ∧
    1 ≤ s.coreState k.val ∧ s.coreState k.val ≤ 3 ∧ (s.core k.val).stall = .sin r.val p.val) ∧
    (∃ (k : Core) (s u : State) (r : Sreg) (p : StreamP), u = s.unstall k.val ∧ s.seqMode = true ∧ (s.core k.val).irq = false ∧
    1 ≤ s.coreState k.val ∧ s.coreState k.val ≤ 3 ∧ (s.core k.val).stall = .sout r.val p.val) ∧
    (∃ (k : Core) (s u : State), u = s.unstall k.val ∧ s.seqMode = true ∧ (s.core k.val).irq = false ∧ 1 ≤ s.coreState k.val ∧
    s.coreState k.val ≤ 3 ∧ (s.core k.val).stall = .none) :=
  ⟨⟨0, 0, ((coded (Instr.wait (0 : Core) (0 : Sreg)) (run.setReg (SEQ_EV 0) 0x00FF00FF)) : State),
   ((fetched (Instr.wait (0 : Core) (0 : Sreg)) (run.setReg (SEQ_EV 0) 0x00FF00FF)) : State), fetched_coded _ _ (by decide +kernel),
   by decide +kernel⟩,
   ⟨0, 0, ((coded (Instr.wait (0 : Core) (0 : Sreg)) run) : State), ((fetched (Instr.wait (0 : Core) (0 : Sreg)) run) : State),
   fetched_coded _ _ (by decide +kernel), by decide +kernel⟩,
   ⟨0, 0, 0, ((coded (Instr.rdctl (0 : Core) (0 : Sreg) (0 : Cix)) run) : State),
   ((fetched (Instr.rdctl (0 : Core) (0 : Sreg) (0 : Cix)) run) : State), _, rfl, fetched_coded _ _ (by decide +kernel),
   by decide +kernel⟩,
   ⟨0, 0, 0x3F, ((coded (Instr.rdctl (0 : Core) (0 : Sreg) (0x3F : Cix)) run) : State),
   ((fetched (Instr.rdctl (0 : Core) (0 : Sreg) (0x3F : Cix)) run) : State), fetched_coded _ _ (by decide +kernel), by decide +kernel⟩,
   ⟨0, 0, 0x12, ((coded (Instr.rdctl (0 : Core) (0 : Sreg) (0x12 : Cix)) run) : State),
   ((fetched (Instr.rdctl (0 : Core) (0 : Sreg) (0x12 : Cix)) run) : State), fetched_coded _ _ (by decide +kernel), by decide +kernel⟩,
   ⟨0, 0, 0x12, ((coded (Instr.wrctl (0 : Core) (0 : Sreg) (0x12 : Cix)) run) : State),
   ((fetched (Instr.wrctl (0 : Core) (0 : Sreg) (0x12 : Cix)) run) : State), fetched_coded _ _ (by decide +kernel), by decide +kernel⟩,
   ⟨0, 0, 0, ((coded (Instr.wrctl (0 : Core) (0 : Sreg) (0 : Cix)) run) : State),
   ((fetched (Instr.wrctl (0 : Core) (0 : Sreg) (0 : Cix)) run) : State), fetched_coded _ _ (by decide +kernel), by decide +kernel⟩,
   ⟨0, 0, 0,
   ((coded (Instr.wrctl (0 : Core) (0 : Sreg) (0 : Cix)) ((run.put (SEQ_LWIN.SIZE 0) 1).putFlag (SEQ_CFG.PRIV 0) true)) : State),
   ((fetched (Instr.wrctl (0 : Core) (0 : Sreg) (0 : Cix)) ((run.put (SEQ_LWIN.SIZE 0) 1).putFlag (SEQ_CFG.PRIV 0) true)) : State),
   fetched_coded _ _ (by decide +kernel), by decide +kernel⟩,
   ⟨0, 0, 0x3F, ((coded (Instr.wrctl (0 : Core) (0 : Sreg) (0x3F : Cix)) run) : State),
   ((fetched (Instr.wrctl (0 : Core) (0 : Sreg) (0x3F : Cix)) run) : State), fetched_coded _ _ (by decide +kernel), by decide +kernel⟩,
   ⟨0, 0, 0x3F,
   ((coded (Instr.wrctl (0 : Core) (0 : Sreg) (0x3F : Cix)) ((run.put (SEQ_LWIN.SIZE 0) 1).putFlag (SEQ_CFG.PRIV 0) true)) : State),
   ((fetched (Instr.wrctl (0 : Core) (0 : Sreg) (0x3F : Cix)) ((run.put (SEQ_LWIN.SIZE 0) 1).putFlag (SEQ_CFG.PRIV 0) true)) : State),
   fetched_coded _ _ (by decide +kernel), by decide +kernel⟩,
   ⟨0, ((coded (Instr.supc (0 : Core)) run) : State), ((fetched (Instr.supc (0 : Core)) run) : State),
   fetched_coded _ _ (by decide +kernel), by decide +kernel⟩,
   ⟨0, ((coded (Instr.supc (0 : Core)) ((run.put (SEQ_LWIN.SIZE 0) 1).putFlag (SEQ_CFG.PRIV 0) true)) : State),
   ((fetched (Instr.supc (0 : Core)) ((run.put (SEQ_LWIN.SIZE 0) 1).putFlag (SEQ_CFG.PRIV 0) true)) : State),
   fetched_coded _ _ (by decide +kernel), by decide +kernel⟩,
   ⟨0, ((coded (Instr.hret (0 : Core)) ((run.put (SEQ_LWIN.SIZE 0) 1).putFlag (SEQ_CFG.PRIV 0) true)) : State),
   ((fetched (Instr.hret (0 : Core)) ((run.put (SEQ_LWIN.SIZE 0) 1).putFlag (SEQ_CFG.PRIV 0) true)) : State),
   fetched_coded _ _ (by decide +kernel), by decide +kernel⟩,
   ⟨0, ((coded (Instr.hret (0 : Core)) run) : State), ((fetched (Instr.hret (0 : Core)) run) : State),
   fetched_coded _ _ (by decide +kernel), by decide +kernel⟩,
   ⟨0, ((coded (Instr.trap (0 : Core)) run) : State), ((fetched (Instr.trap (0 : Core)) run) : State),
   fetched_coded _ _ (by decide +kernel)⟩,
   ⟨0, ((coded (Instr.synci (0 : Core)) run) : State), ((fetched (Instr.synci (0 : Core)) run) : State),
   fetched_coded _ _ (by decide +kernel)⟩,
   ⟨0, (((run.put (SEQ_STAT.STATE 0) 1).modCore 0 (fun c => { c with stall := .wait 0 })) : State), _, 0, rfl, by decide +kernel⟩,
   ⟨0, (((run.put (SEQ_STAT.STATE 0) 1).modCore 0 (fun c => { c with stall := .qget 0 0 0 false })) : State), _, 0, 0, 0, false, rfl,
   by decide +kernel⟩,
   ⟨0, (((run.put (SEQ_STAT.STATE 0) 1).modCore 0 (fun c => { c with stall := .sin 0 0 })) : State), _, 0, 0, rfl, by decide +kernel⟩,
   ⟨0, (((run.put (SEQ_STAT.STATE 0) 1).modCore 0 (fun c => { c with stall := .sout 0 0 })) : State), _, 0, 0, rfl, by decide +kernel⟩,
   ⟨0, ((run.put (SEQ_STAT.STATE 0) 1) : State), _, rfl, by decide +kernel⟩⟩

theorem wit_CoreControlThroughSeqCtl :
    (∃ (who : Accessor) (k : Core) (s : State), s.coreState k.val ≤ 4 ∧ Writable s who (SEQ_CTL k.val)) ∧
    (∃ (who : Accessor) (k : Core) (s : State), 4 < s.coreState k.val ∧ Writable s who (SEQ_CTL k.val)) ∧
    (∃ (who : Accessor) (k : Core) (s : State), s.coreState k.val = 4 ∧ s.pc k.val % 4 = 0 ∧ Writable s who (SEQ_CTL k.val)) ∧
    (∃ (who : Accessor) (k : Core) (s : State), s.coreHalted k.val = false ∧ s.coreState k.val ≠ 4 ∧ Writable s who (SEQ_CTL k.val)) ∧
    (∃ (who : Accessor) (k : Core) (s : State) (u t w f : _),
    u = State.put (s.modCore k.val (fun c => { c with step := false })) (SEQ_STAT.STATE k.val) 0 ∧ seqDecode w.toNat = some f ∧
    s.coreHalted k.val = true ∧ s.seqMode = true ∧ (s.core k.val).irq = false ∧ u.fetch k = (some w, t) ∧ Writable s who (SEQ_CTL k.val)) ∧
    (∃ (who : Accessor) (k : Core) (s : State) (u t w : _),
    u = State.put (s.modCore k.val (fun c => { c with step := false })) (SEQ_STAT.STATE k.val) 0 ∧ s.coreHalted k.val = true ∧
    s.seqMode = true ∧ (s.core k.val).irq = false ∧ u.fetch k = (some w, t) ∧ seqDecode w.toNat = none ∧ Writable s who (SEQ_CTL k.val)) ∧
    (∃ (who : Accessor) (k : Core) (v : Word) (s : State) (first n : _), first = bits v.toNat 7 0 ∧ n = min 32 (bits v.toNat 21 16) ∧
    ((first + n ≤ 256 ∧ ∀ j : Fin 32,
    j.val ≠ k.val → n = 0 ∨ (s.attached j.val).2 = 0 ∨ first + n ≤ (s.attached j.val).1 ∨ (s.attached j.val).1 + (s.attached j.val).2 ≤ first)) ∧
    Writable s who (SEQ_LANE k.val)) ∧
    (∃ (who : Accessor) (k : Core) (v : Word) (s : State) (first n : _), first = bits v.toNat 7 0 ∧ n = min 32 (bits v.toNat 21 16) ∧
    256 < first + n ∧ Writable s who (SEQ_LANE k.val)) ∧
    (∃ (who : Accessor) (k : Core) (v : Word) (s : State) (first n : _) (j : Fin 32), first = bits v.toNat 7 0 ∧
    n = min 32 (bits v.toNat 21 16) ∧ j.val ≠ k.val ∧ 0 < n ∧ 0 < (s.attached j.val).2 ∧
    first < (s.attached j.val).1 + (s.attached j.val).2 ∧ (s.attached j.val).1 < first + n ∧ Writable s who (SEQ_LANE k.val)) ∧
    (∃ (k : Core) (s : State), s.seqMode = true ∧ s.get (SEQ_TIMER.COUNT k.val) ≠ 0 ∧ s.flag (SEQ_TIMER.PERIODIC k.val) = false) ∧
    (∃ (k : Core) (s : State), s.seqMode = true ∧ s.get (SEQ_TIMER.COUNT k.val) ≠ 0 ∧ s.flag (SEQ_TIMER.PERIODIC k.val) = true) :=
  ⟨⟨.host, 0, run, by unfold Writable; decide +kernel⟩,
   ⟨.host, 0, (run.put (SEQ_STAT.STATE 0) 5 : State), by unfold Writable; decide +kernel⟩,
   ⟨.host, 0, ((run.put (SEQ_STAT.STATE 0) 4) : State), by unfold Writable; decide +kernel⟩,
   ⟨.host, 0, run, by unfold Writable; decide +kernel⟩,
   ⟨.host, 0, ((run.put (SEQ_STAT.STATE 0) 6) : State), _,
   ((State.put (((run.put (SEQ_STAT.STATE 0) 6) : State).modCore (0 : Core).val (fun c => { c with step := false })) (SEQ_STAT.STATE (0 : Core).val) 0).fetch (0 : Core)).2,
   ((State.put (((run.put (SEQ_STAT.STATE 0) 6) : State).modCore (0 : Core).val (fun c => { c with step := false })) (SEQ_STAT.STATE (0 : Core).val) 0).fetch (0 : Core)).1.get (by decide +kernel),
   (seqDecode (((State.put (((run.put (SEQ_STAT.STATE 0) 6) : State).modCore (0 : Core).val (fun c => { c with step := false })) (SEQ_STAT.STATE (0 : Core).val) 0).fetch (0 : Core)).1.get (by decide +kernel)).toNat).get (by decide +kernel),
   rfl, (Option.some_get _).symm, by unfold Writable; decide +kernel⟩,
   ⟨.host, 0, (((run.setBytes 0x01000000 [255#8, 255#8, 255#8, 255#8]).put (SEQ_STAT.STATE 0) 6) : State), _,
   ((State.put ((((run.setBytes 0x01000000 [255#8, 255#8, 255#8, 255#8]).put (SEQ_STAT.STATE 0) 6) : State).modCore (0 : Core).val (fun c => { c with step := false })) (SEQ_STAT.STATE (0 : Core).val) 0).fetch (0 : Core)).2,
   ((State.put ((((run.setBytes 0x01000000 [255#8, 255#8, 255#8, 255#8]).put (SEQ_STAT.STATE 0) 6) : State).modCore (0 : Core).val (fun c => { c with step := false })) (SEQ_STAT.STATE (0 : Core).val) 0).fetch (0 : Core)).1.get (by decide +kernel),
   rfl, by unfold Writable; decide +kernel⟩,
   ⟨.host, 0, 0, run, _, _, rfl, rfl, by unfold Writable; decide +kernel⟩,
   ⟨.host, 0, 0x000200FF, run, _, _, rfl, rfl, by unfold Writable; decide +kernel⟩,
   ⟨.host, 0, 0x00010000, (run.setReg (SEQ_LANE 1) 0x00010000 : State), _, _, 1, rfl, rfl, by unfold Writable; decide +kernel⟩,
   ⟨0, (((run.put (SEQ_TIMER.COUNT (0 : Core).val) 1).putFlag (SEQ_TIMER.PERIODIC (0 : Core).val) false) : State), by decide +kernel⟩,
   ⟨0, (((run.put (SEQ_TIMER.COUNT (0 : Core).val) 1).putFlag (SEQ_TIMER.PERIODIC (0 : Core).val) true) : State), by decide +kernel⟩⟩

theorem wit_HostBurstsReachRegistersAndSram :
    (∃ (a : Word) (s : State), s.reads .host = true ∧ a.toNat % 4 ≠ 0) ∧
    (∃ (s : State), s.reads .host = false) ∧
    (∃ (a : Word) (n es ms : _) (s : State) (r : _), r = s.readWords a.toNat n 0 es ms [] ∧ s.reads .host = true ∧ a.toNat % 4 = 0) ∧
    (∃ (a i : Nat) (es ms : _) (v : Word) (s t : State), s.readHost (burstAddr a i) (nth .clean es i) (nth 0 ms i) = (some v, t)) ∧
    (∃ (a i : Nat) (es ms : _) (s t : State), s.readHost (burstAddr a i) (nth .clean es i) (nth 0 ms i) = (none, t)) ∧
    (∃ (a : Nat), inSram a = false ∧ inMirror a = false ∧ isReg .host a = true) ∧
    (∃ (a : Nat) (s : State), inMirror a = true ∧ s.mirrorUp = true) ∧
    (∃ (a : Nat) (s : State), ((inMirror a = true ∧ s.mirrorUp = false) ∨ (inMirror a = false ∧ inSram a = false ∧
    isReg .host a = false))) ∧
    (∃ (a : Word) (s : State), s.awake = true ∧ a.toNat % 4 ≠ 0) ∧
    (∃ (a : Word) (s : State), s.awake = true ∧ a.toNat % 4 = 0 ∧ s.follower = false) ∧
    (∃ (a : Word) (s : State), (s.awake = false ∨ (s.follower = true ∧ a.toNat % 4 = 0 ∧ s.al.healedNow = false))) ∧
    (∃ (a : Nat) (s : State), inMirror a = false ∧ inSram a = true ∧ s.reach .host = true) ∧
    (∃ (c : Byte) (a : Word) (s : State) (u : _), u = s.putFlag HP_STAT.PROTO_ERR true ∧ s.awake = true ∧ c ≠ 0x0B#8 ∧ c ≠ 0x02#8 ∧
    ((c ≠ 0x05#8 ∨ a.toNat % 4 ≠ 0))) ∧
    (∃ (c : Byte) (s : State), ((s.awake = false ∨ c = 0x0B#8 ∨ c = 0x02#8))) :=
  ⟨⟨1, run, by decide +kernel⟩,
   ⟨((run.put SYS_MODE.MODE 1) : State), by decide +kernel⟩,
   ⟨0, 1, ([] : List Ecc), ([] : List Word), run, _, rfl, by decide +kernel⟩,
   ⟨0, 0, ([] : List Ecc), ([] : List Word),
   ((run.readHost (burstAddr (0 : Nat) (0 : Nat)) (nth .clean (([] : List Ecc)) (0 : Nat)) (nth 0 (([] : List Word)) (0 : Nat))).1.get (by decide +kernel) : Word),
   run,
   ((run.readHost (burstAddr (0 : Nat) (0 : Nat)) (nth .clean (([] : List Ecc)) (0 : Nat)) (nth 0 (([] : List Word)) (0 : Nat))).2 : State),
   by decide +kernel⟩,
   ⟨(QP_WIN_DATA 0 : Nat), 0, ([] : List Ecc), ([] : List Word),
   ((emptyQ.putFlag (QP_WIN_CFG.EN 0) true).putFlag (QP_WIN_CFG.DIR 0) false : State),
   ((((emptyQ.putFlag (QP_WIN_CFG.EN 0) true).putFlag (QP_WIN_CFG.DIR 0) false : State).readHost (burstAddr (QP_WIN_DATA 0 : Nat) (0 : Nat)) (nth .clean (([] : List Ecc)) (0 : Nat)) (nth 0 (([] : List Word)) (0 : Nat))).2 : State),
   Prod.ext (by decide +kernel) rfl⟩,
   ⟨0, by decide +kernel⟩,
   ⟨0x80050000, (((run.put AL_STAT.LINK 2).put SYS_MODE.MODE 7).put AL_STAT.ROLE 1 : State), by decide +kernel⟩,
   ⟨0x00FFFFFC, run, by decide +kernel⟩,
   ⟨2, run, by decide +kernel⟩,
   ⟨0, run, by decide +kernel⟩,
   ⟨0, (run.put SYS_MODE.MODE 1 : State), by decide +kernel⟩,
   ⟨0x01110000, run, by decide +kernel⟩,
   ⟨9, 0, run, _, rfl, by decide +kernel⟩,
   ⟨0x0B, run, by decide +kernel⟩⟩

theorem wit_RingsAreEnabledAndTheirIndexesMove :
    (∃ (who : Accessor) (v : Word) (s : State), bit v.toNat 31 = true ∧ ((s.ringsOk = false ∨ s.follower = true ∨ s.island = true)) ∧
    Writable s who HP_CFG) ∧
    (∃ (who : Accessor) (v : Word) (s : State), bit v.toNat 31 = false ∧ s.hp.outst ≠ [] ∧ Writable s who HP_CFG) ∧
    (∃ (who : Accessor) (v : Word) (s : State), bit v.toNat 31 = true ∧ s.ringsOk = true ∧ s.follower = false ∧ s.island = false ∧
    Writable s who HP_CFG) ∧
    (∃ (who : Accessor) (v : Word) (s : State), bit v.toNat 31 = false ∧ s.hp.outst = [] ∧ Writable s who HP_CFG) ∧
    (∃ (who : Accessor) (v : Word) (s : State), s.rings = true ∧
    ringCount (bits v.toNat 15 0) (s.get HP_CR_IDX.HEAD) ≤ 2 ^ s.get HP_CR_BASE.LOG2N ∧ Writable s who HP_DB) ∧
    (∃ (who : Accessor) (v : Word) (s : State),
    ((s.rings = false ∨ 2 ^ s.get HP_CR_BASE.LOG2N < ringCount (bits v.toNat 15 0) (s.get HP_CR_IDX.HEAD))) ∧ Writable s who HP_DB) ∧
    (∃ (who : Accessor) (v : Word) (s : State) (h r : _), h = bits v.toNat 15 0 ∧
    r = (s.put HP_CPL_IDX.HEAD h).agedNext s.hp.cplAged (ringCount (s.get HP_CPL_IDX.TAIL) h) ∧
    ringCount (s.get HP_CPL_IDX.TAIL) h ≤ s.cplCount ∧ h ≠ s.get HP_CPL_IDX.HEAD ∧ Writable s who HP_CPL_IDX) ∧
    (∃ (who : Accessor) (v : Word) (s : State), bits v.toNat 15 0 = s.get HP_CPL_IDX.HEAD ∧ Writable s who HP_CPL_IDX) ∧
    (∃ (who : Accessor) (v : Word) (s : State), s.cplCount < ringCount (s.get HP_CPL_IDX.TAIL) (bits v.toNat 15 0) ∧
    Writable s who HP_CPL_IDX) ∧
    (∃ (b : Bool) (n : Nat), ((n = 0 ∨ b = false))) ∧
    (∃ (who : Accessor) (v : Word) (s : State) (h r : _), h = bits v.toNat 15 0 ∧
    r = (s.put HP_EV_IDX.HEAD h).agedNext s.hp.evAged (ringCount (s.get HP_EV_IDX.TAIL) h) ∧
    ringCount (s.get HP_EV_IDX.TAIL) h ≤ s.evCount ∧ h ≠ s.get HP_EV_IDX.HEAD ∧ Writable s who HP_EV_IDX) ∧
    (∃ (who : Accessor) (v : Word) (s : State), bits v.toNat 15 0 = s.get HP_EV_IDX.HEAD ∧ Writable s who HP_EV_IDX) ∧
    (∃ (s : State), s.rings = true ∧ 0 < s.hp.lostSince ∧ s.evCount < s.evSize) ∧
    (∃ (s : State), ((s.rings = false ∨ s.hp.lostSince = 0 ∨ s.evSize ≤ s.evCount))) ∧
    (∃ (who : Accessor) (v : Word) (s : State), s.evCount < ringCount (s.get HP_EV_IDX.TAIL) (bits v.toNat 15 0) ∧
    Writable s who HP_EV_IDX) ∧
    (∃ (s : State), 0 < s.evCount) ∧
    (∃ (s : State), 0 < s.cplCount) :=
  ⟨⟨.host, 2147483648, (run.setReg HP_CPL_BASE 0x01110004 : State), by unfold Writable; decide +kernel⟩,
   ⟨.host, 0, ({ run with hp := { outst := [aTrans] } } : State), by unfold Writable; decide +kernel⟩,
   ⟨.host, 2147483648, run, by unfold Writable; decide +kernel⟩,
   ⟨.host, 0, run, by unfold Writable; decide +kernel⟩,
   ⟨.host, 0, ((run.putFlag HP_CFG.ENABLE true) : State), by unfold Writable; decide +kernel⟩,
   ⟨.host, 17, run, by unfold Writable; decide +kernel⟩,
   ⟨.host, 1, (run.put HP_CPL_IDX.TAIL 1 : State), _, _, rfl, rfl, by unfold Writable; decide +kernel⟩,
   ⟨.host, 0, run, by unfold Writable; decide +kernel⟩,
   ⟨.host, 1, run, by unfold Writable; decide +kernel⟩,
   ⟨false, 0, by decide +kernel⟩,
   ⟨.host, 1, (run.put HP_EV_IDX.TAIL 1 : State), _, _, rfl, rfl, by unfold Writable; decide +kernel⟩,
   ⟨.host, 0, run, by unfold Writable; decide +kernel⟩,
   ⟨({ run with hp := { lostSince := 1 } } : State), by decide +kernel⟩,
   ⟨run, by decide +kernel⟩,
   ⟨.host, 1, run, by unfold Writable; decide +kernel⟩,
   ⟨(run.put HP_EV_IDX.TAIL 1 : State), by decide +kernel⟩,
   ⟨(run.put HP_CPL_IDX.TAIL 1 : State), by decide +kernel⟩⟩

theorem wit_DescriptorsAreTakenAndRun :
    (∃ (s : State) (d : List Byte) (u : _), u = s.put HP_CR_IDX.HEAD ((s.get HP_CR_IDX.HEAD + 1) % 65536) ∧
    s.outstanding (descTag d) ≠ none) ∧
    (∃ (s : State) (d : List Byte), s.outstanding (descTag d) = none ∧ headerOk d = true) ∧
    (∃ (s : State) (u d : _), Taken d s u ∧ u8 d 0 = 1 ∧ u.sendForm d = true ∧ u.entState (u16 d 8 - 1) ≠ 2) ∧
    (∃ (s : State) (u d n : _), Taken d s u ∧ u8 d 0 = 1 ∧ u.sendForm d = true ∧ u.entState (u16 d 8 - 1) = 2 ∧
    u.ownLane (u.entLane (u16 d 8 - 1)) = some n ∧ u.flag (LN_TXCFG.TX_EN n) = false) ∧
    (∃ (s : State) (u d n : _), Taken d s u ∧ u8 d 0 = 1 ∧ u.sendForm d = true ∧ u.entState (u16 d 8 - 1) = 2 ∧
    u.ownLane (u.entLane (u16 d 8 - 1)) = some n ∧ u.flag (LN_TXCFG.TX_EN n) = true ∧ u.drefBytes (drefAt d 20) = none) ∧
    (∃ (s : State) (u d n body : _), Taken d s u ∧ u8 d 0 = 1 ∧ u.sendForm d = true ∧ u.entState (u16 d 8 - 1) = 2 ∧
    u.ownLane (u.entLane (u16 d 8 - 1)) = some n ∧ u.flag (LN_TXCFG.TX_EN n) = true ∧ u.drefBytes (drefAt d 20) = some body ∧
    255 < macLen (u.firstMac (u16 d 8 - 1) d body)) ∧
    (∃ (s : State) (u d n body : _), Taken d s u ∧ u8 d 0 = 1 ∧ u.sendForm d = true ∧ u.entState (u16 d 8 - 1) = 2 ∧
    u.ownLane (u.entLane (u16 d 8 - 1)) = some n ∧ u.flag (LN_TXCFG.TX_EN n) = true ∧ u.drefBytes (drefAt d 20) = some body ∧
    macLen (u.firstMac (u16 d 8 - 1) d body) ≤ 255) ∧
    (∃ (s : State) (u d : _), Taken d s u ∧ ((u8 d 0 = 1 ∧ u.sendForm d = false) ∨ listedType (u8 d 0) = false)) ∧
    (∃ (s : State) (u d body : _), Taken d s u ∧ u8 d 0 = 1 ∧ u.sendForm d = true ∧ u.entState (u16 d 8 - 1) = 2 ∧
    u.ownLane (u.entLane (u16 d 8 - 1)) = none ∧ u.leads = true ∧ u.linkUp = true ∧ u.acting (u16 d 8 - 1) = false ∧
    u.drefBytes (drefAt d 20) = some body ∧ macLen (u.firstMac (u16 d 8 - 1) d body) ≤ 255) ∧
    (∃ (s : State) (u v d body : _), v = u.drefTake (drefAt d 20) ∧ Taken d s u ∧ u8 d 0 = 2 ∧ u.paired = false ∧
    bcastForm d false = true ∧ u.bcastLanes d ≠ ([], []) ∧ u.drefBytes (drefAt d 20) = some body ∧
    macLen (bcastMac u.link.bcast.toNat (bit (u8 d 10) 1) body) ≤ 255) ∧
    (∃ (s : State) (u d : _), Taken d s u ∧ u8 d 0 = 2 ∧ bcastForm d (u.leads || u.upper) = false) ∧
    (∃ (s : State) (u d : _), Taken d s u ∧ u8 d 0 = 3 ∧ zeros d 10 63 = true ∧ u16 d 8 < 1024 ∧ (u.queue (u16 d 8)).en = true ∧
    (u.queue (u16 d 8)).stream = false ∧ (u.queue (u16 d 8)).fmt = 1 ∧ u.fab.mtProg = false) ∧
    (∃ (s : State) (u d r : _), r = u.putPacket (.engine 5) (u16 d 8) u.meterBlock ∧ Taken d s u ∧ u8 d 0 = 3 ∧ zeros d 10 63 = true ∧
    u16 d 8 < 1024 ∧ (u.queue (u16 d 8)).en = true ∧ (u.queue (u16 d 8)).stream = false ∧ (u.queue (u16 d 8)).fmt = 1 ∧
    u.fab.mtProg = true) ∧
    (∃ (s : State) (u d : _) (x : Trans), Taken d s u ∧ u8 d 0 = 8 ∧ zeros d 10 63 = true ∧ u16 d 8 < 1024 ∧
    u.outstanding (u16 d 8) = some x ∧ u16 d 8 ≠ descTag d ∧ x.type ≠ 7) ∧
    (∃ (s : State) (u d : _) (x : Trans), Taken d s u ∧ u8 d 0 = 8 ∧ zeros d 10 63 = true ∧ u16 d 8 < 1024 ∧
    u.outstanding (u16 d 8) = some x ∧ x.type = 7 ∧ u16 d 8 ≠ descTag d) ∧
    (∃ (s : State) (u d : _) (x : Trans), Taken d s u ∧ u8 d 0 = 8 ∧ zeros d 10 63 = true ∧ u16 d 8 < 1024 ∧
    u.outstanding (u16 d 8) = some x ∧ u16 d 8 = descTag d) ∧
    (∃ (s : State) (u d : _), Taken d s u ∧ u8 d 0 = 8 ∧ zeros d 10 63 = true ∧ u16 d 8 < 1024 ∧ u.outstanding (u16 d 8) = none) ∧
    (∃ (s : State) (x : Trans) (r : _), r = s.abortInfo x.tag ∧ (x.type = 1 ∨ x.type = 2)) ∧
    (∃ (s : State) (tag : Nat) (x : SendSt), s.link.sends.find? (fun y => decide (y.tag = tag) && y.handoff.isNone) = some x) ∧
    (∃ (s : State) (tag : Nat) (x : Trans) (u : State),
    u = { s with hp := { s.hp with outst := s.hp.outst.filter (fun y => y.tag ≠ tag) } } ∧ s.outstanding tag = some x) ∧
    (∃ (s : State) (tag : Nat), s.outstanding tag = none) :=
  ⟨⟨({ run with hp := { outst := [aTrans] } } : State), (desc 1 [] : List Byte), _, rfl, by decide +kernel⟩,
   ⟨run, ([] : List Byte), by decide +kernel⟩,
   ⟨((posted run (desc 1 [1#8])) : State), (took run (desc 1 [1#8])), (desc 1 [1#8]), taken_posted _ _ (by decide +kernel),
   by decide +kernel⟩,
   ⟨((posted keyed (desc 1 [1#8])) : State), (took keyed (desc 1 [1#8])), (desc 1 [1#8]), 0, taken_posted _ _ (by decide +kernel),
   by decide +kernel⟩,
   ⟨((posted (keyed.putFlag (LN_TXCFG.TX_EN 0) true) (desc 1 ([1#8] ++ List.replicate 11 0#8 ++ [4#8, 0#8, 1#8]))) : State),
   (took (keyed.putFlag (LN_TXCFG.TX_EN 0) true) (desc 1 ([1#8] ++ List.replicate 11 0#8 ++ [4#8, 0#8, 1#8]))),
   (desc 1 ([1#8] ++ List.replicate 11 0#8 ++ [4#8, 0#8, 1#8])), 0, taken_posted _ _ (by decide +kernel), by decide +kernel⟩,
   ⟨((posted (keyed.putFlag (LN_TXCFG.TX_EN 0) true) (desc 1 ([1#8] ++ List.replicate 11 0#8 ++ [2#8, 0#8, 255#8, 0#8] ++ leBytes 4 0x01110400))) : State),
   (took (keyed.putFlag (LN_TXCFG.TX_EN 0) true) (desc 1 ([1#8] ++ List.replicate 11 0#8 ++ [2#8, 0#8, 255#8, 0#8] ++ leBytes 4 0x01110400))),
   (desc 1 ([1#8] ++ List.replicate 11 0#8 ++ [2#8, 0#8, 255#8, 0#8] ++ leBytes 4 0x01110400)), 0, List.replicate 255 0#8,
   taken_posted _ _ (by decide +kernel), by decide +kernel⟩,
   ⟨((posted (keyed.putFlag (LN_TXCFG.TX_EN 0) true) (desc 1 [1#8])) : State),
   (took (keyed.putFlag (LN_TXCFG.TX_EN 0) true) (desc 1 [1#8])), (desc 1 [1#8]), 0, ([] : List Byte),
   taken_posted _ _ (by decide +kernel), by decide +kernel⟩,
   ⟨((posted run (desc 0 [])) : State), (took run (desc 0 [])), (desc 0 []), taken_posted _ _ (by decide +kernel), by decide +kernel⟩,
   ⟨((posted (pairOf (keyed.putEntry 0 32 (leBytes 2 (2048 + 512 + 256))) 1 7) (desc 1 [1#8])) : State),
   (took (pairOf (keyed.putEntry 0 32 (leBytes 2 (2048 + 512 + 256))) 1 7) (desc 1 [1#8])), (desc 1 [1#8]), ([] : List Byte),
   taken_posted _ _ (by decide +kernel), by decide +kernel⟩,
   ⟨((posted run (desc 2 [1#8])) : State), (took run (desc 2 [1#8])), _, (desc 2 [1#8]), ([] : List Byte), rfl,
   taken_posted _ _ (by decide +kernel), by decide +kernel⟩,
   ⟨((posted run (desc 2 [])) : State), (took run (desc 2 [])), (desc 2 []), taken_posted _ _ (by decide +kernel), by decide +kernel⟩,
   ⟨((posted packed (desc 3 [])) : State), (took packed (desc 3 [])), (desc 3 []), taken_posted _ _ (by decide +kernel),
   by decide +kernel⟩,
   ⟨((posted ({ packed with fab := { packed.fab with mtProg := true } } : State) (desc 3 [])) : State),
   (took ({ packed with fab := { packed.fab with mtProg := true } } : State) (desc 3 [])), (desc 3 []), _, rfl,
   taken_posted _ _ (by decide +kernel), by decide +kernel⟩,
   ⟨((posted ({ run with hp := { outst := [⟨6, 1⟩] } } : State) (desc 8 [6#8])) : State),
   (took ({ run with hp := { outst := [⟨6, 1⟩] } } : State) (desc 8 [6#8])), (desc 8 [6#8]), (⟨6, 1⟩ : Trans),
   taken_posted _ _ (by decide +kernel), by decide +kernel⟩,
   ⟨((posted ({ run with hp := { outst := [⟨6, 7⟩] } } : State) (desc 8 [6#8])) : State),
   (took ({ run with hp := { outst := [⟨6, 7⟩] } } : State) (desc 8 [6#8])), (desc 8 [6#8]), (⟨6, 7⟩ : Trans),
   taken_posted _ _ (by decide +kernel), by decide +kernel⟩,
   ⟨((posted run (desc 8 [5#8])) : State), (took run (desc 8 [5#8])), (desc 8 [5#8]), (⟨5, 8⟩ : Trans),
   taken_posted _ _ (by decide +kernel), by decide +kernel⟩,
   ⟨((posted run (desc 8 [6#8])) : State), (took run (desc 8 [6#8])), (desc 8 [6#8]), taken_posted _ _ (by decide +kernel),
   by decide +kernel⟩,
   ⟨run, aTrans, _, rfl, by decide +kernel⟩,
   ⟨({ run with link := { sends := [aSend] } } : State), 5, aSend, by decide +kernel⟩,
   ⟨({ run with hp := { outst := [aTrans] } } : State), 5, aTrans, _, rfl, by decide +kernel⟩,
   ⟨run, 0, by decide +kernel⟩⟩

theorem wit_UartsReceiveCharacters :
    (∃ (u : Uart), u.val ≠ 4) ∧
    (∃ (s : State), s.flag (UA_OPT.SIR 4) = true) ∧
    (∃ (u : Uart) (b : List Sample3) (early near : Bool) (s v : State) (x : UaSet) (l : List UaBit), x = s.uaRxSet u.val early ∧
    l = b.map (fun y => s.uaSense u.val y) ∧ v = s.modUart u.val (fun y => { y with rxOld := none, deaf := y.deaf && near }) ∧
    s.uaHears u.val near = true ∧ s.flag (UA_CFG.AUTOBAUD u.val) = false ∧ s.flag (UA_STAT.LINE_STUCK u.val) = false ∧ b.length = x.bits ∧
    l.all (·.low) = true) ∧
    (∃ (u : Uart) (b : List Sample3) (early near : Bool) (s v : State) (x : UaSet) (l : List UaBit), x = s.uaRxSet u.val early ∧
    l = b.map (fun y => s.uaSense u.val y) ∧ v = s.modUart u.val (fun y => { y with rxOld := none, deaf := y.deaf && near }) ∧
    s.uaHears u.val near = true ∧ s.flag (UA_CFG.AUTOBAUD u.val) = false ∧ s.flag (UA_STAT.LINE_STUCK u.val) = false ∧ b.length = x.bits ∧
    l.all (·.low) = false ∧ (l.headD ⟨true, false, false⟩).value = false) ∧
    (∃ (u : Uart) (b : List Sample3) (early near : Bool) (s v : State) (x : UaSet) (l : List UaBit), x = s.uaRxSet u.val early ∧
    l = b.map (fun y => s.uaSense u.val y) ∧ v = s.modUart u.val (fun y => { y with rxOld := none, deaf := y.deaf && near }) ∧
    s.uaHears u.val near = true ∧ s.flag (UA_CFG.AUTOBAUD u.val) = false ∧ s.flag (UA_STAT.LINE_STUCK u.val) = false ∧ b.length = x.bits ∧
    l.all (·.low) = false ∧ (l.headD ⟨true, false, false⟩).value = true) ∧
    (∃ (u : Uart) (x : UaSet) (l : List UaBit) (level : Bool) (s v : State) (data ones : Nat) (stop : Bool), stop = (l.getLastD ⟨true,
    false, false⟩).value ∧ data = (((l.drop 1).take x.width).zipIdx.map (fun (y, i) => b2n y.value * 2 ^ i)).sum ∧
    ones = (((l.drop 1).take (l.length - 2)).filter (·.value)).length ∧
    v = (s.modUart u.val (fun y => { y with inBreak := false })).putFlag (UA_STAT.LINE u.val) level ∧ s.flag (UA_CFG.NINE u.val) = false ∧
    ((s.flag (UA_FLOW.XEN u.val) = false ∨ (data ≠ 0x11 ∧ data ≠ 0x13)))) ∧
    (∃ (u : Uart) (data : Nat) (p f n : Bool) (s v w x : State), v = (if f = true then s.count (UA_CNT.FRAMING u.val) 1 else s) ∧
    w = (if p = true then v.count (UA_CNT.PARITY u.val) 1 else v) ∧
    x = State.modUart (if n = true then w.count (UA_CNT.NOISE u.val) 1 else w) u.val (fun y => { y with units := y.units ++ [data + 512 * b2n p + 1024 * b2n f + 2048 * b2n n] }) ∧
    (s.uart u.val).units.length ≠ 14) ∧
    (∃ (u : Uart) (data : Nat) (p f n : Bool) (s v w x : State), v = (if f = true then s.count (UA_CNT.FRAMING u.val) 1 else s) ∧
    w = (if p = true then v.count (UA_CNT.PARITY u.val) 1 else v) ∧
    x = State.modUart (if n = true then w.count (UA_CNT.NOISE u.val) 1 else w) u.val (fun y => { y with units := y.units ++ [data + 512 * b2n p + 1024 * b2n f + 2048 * b2n n] }) ∧
    (s.uart u.val).units.length = 14) ∧
    (∃ (u : Uart) (s : State), s.uaHears u.val false = true ∧ s.flag (UA_CFG.AUTOBAUD u.val) = false ∧
    s.flag (UA_STAT.LINE_STUCK u.val) = false) ∧
    (∃ (u : Uart) (s v : State), v = (s.putFlag (UA_STAT.LINE_STUCK u.val) true).setEvt (UA_EVT.LINE_STUCK u.val) ∧
    (s.uart u.val).inBreak = true ∧ s.flag (UA_STAT.LINE_STUCK u.val) = false) ∧
    (∃ (u : Uart) (s : State), s.flag (UA_STAT.LINE_STUCK u.val) = true) ∧
    (∃ (u : Uart) (s v : State),
    v = (s.modUart u.val (fun y => { y with inBreak := false })).putFlag (UA_STAT.LINE u.val) (s.urxIdle u.val) ∧ s.uaOn u.val = true ∧
    s.get (UA_RX.RTO u.val) ≠ 0 ∧ s.flag (UA_STAT.LINE_STUCK u.val) = false ∧ (s.uart u.val).units ≠ []) ∧
    (∃ (u : Uart) (s : State), s.get (UA_RX.RTO u.val) = 0) ∧
    (∃ (u : Uart) (t : Nat) (s r : State) (d c : Nat), c = (if s.flag (UA_CFG.AB_CHAR u.val) = true then 0x2F else 0x55) ∧
    (s.putFlag (UA_STAT.LINE u.val) (s.urxIdle u.val)).abDiv t (if s.flag (UA_CFG.AB_CHAR u.val) = true then 8 else 9) = (d, r) ∧
    s.uaHears u.val false = true ∧ s.flag (UA_CFG.AUTOBAUD u.val) = true ∧ 300 * d ≤ 384000000 ∧ 384000000 ≤ 1000000 * d) ∧
    (∃ (n : Nat), 0 < n) :=
  ⟨⟨0, by decide +kernel⟩,
   ⟨((run.putFlag (UA_OPT.SIR 4) true) : State), by decide +kernel⟩,
   ⟨0, (List.replicate 10 ⟨false, false, false, 0, 13⟩ : List Sample3), false, false,
   ((((run.putFlag (UA_CFG.AUTOBAUD (0 : Uart).val) false).putFlag (UA_STAT.LINE_STUCK (0 : Uart).val) false).putFlag (UA_CFG.ENABLE 0) true) : State),
   _, _, _, rfl, rfl, rfl, by decide +kernel⟩,
   ⟨0, (List.replicate 9 ⟨false, false, false, 0, 13⟩ ++ [⟨true, true, true, 13, 0⟩] : List Sample3), false, false,
   ((((run.putFlag (UA_CFG.AUTOBAUD (0 : Uart).val) false).putFlag (UA_STAT.LINE_STUCK (0 : Uart).val) false).putFlag (UA_CFG.ENABLE 0) true) : State),
   _, _, _, rfl, rfl, rfl, by decide +kernel⟩,
   ⟨0, (List.replicate 10 ⟨true, true, true, 13, 0⟩ : List Sample3), false, false,
   ((((run.putFlag (UA_CFG.AUTOBAUD (0 : Uart).val) false).putFlag (UA_STAT.LINE_STUCK (0 : Uart).val) false).putFlag (UA_CFG.ENABLE 0) true) : State),
   _, _, _, rfl, rfl, rfl, by decide +kernel⟩,
   ⟨0, ({} : UaSet), ([] : List UaBit), false, ((run.putFlag (UA_CFG.NINE (0 : Uart).val) false) : State), _, _, _, _, rfl, rfl, rfl, rfl,
   by decide +kernel⟩,
   ⟨0, 0, false, false, false, run, _, _, _, rfl, rfl, rfl, by decide +kernel⟩,
   ⟨0, 0, false, false, false, ((run.modUart 0 (fun x => { x with units := List.replicate 14 0 })) : State), _, _, _, rfl, rfl, rfl,
   by decide +kernel⟩,
   ⟨0,
   ((((run.putFlag (UA_CFG.AUTOBAUD (0 : Uart).val) false).putFlag (UA_STAT.LINE_STUCK (0 : Uart).val) false).putFlag (UA_CFG.ENABLE 0) true) : State),
   by decide +kernel⟩,
   ⟨0, (((run.putFlag (UA_STAT.LINE_STUCK (0 : Uart).val) false).modUart 0 (fun x => { x with inBreak := true })) : State), _, rfl,
   by decide +kernel⟩,
   ⟨0, ((run.putFlag (UA_STAT.LINE_STUCK (0 : Uart).val) true) : State), by decide +kernel⟩,
   ⟨0,
   (((((run.putFlag (UA_CFG.ENABLE (0 : Uart).val) true).put (UA_RX.RTO (0 : Uart).val) 1).putFlag (UA_STAT.LINE_STUCK (0 : Uart).val) false).modUart 0 (fun x => { x with units := [65] })) : State),
   _, rfl, by decide +kernel⟩,
   ⟨0, ((run.put (UA_RX.RTO (0 : Uart).val) 0) : State), by decide +kernel⟩,
   ⟨0, 18000, ((run.putFlag (UA_CFG.ENABLE 0) true).putFlag (UA_CFG.AUTOBAUD 0) true : State), _, _, _, rfl, parts _, by decide +kernel⟩,
   ⟨1, by decide +kernel⟩⟩

theorem wit_UartsSendAndTakeTheirSettings :
    (∃ (s : State) (u d l n : _), n = u8 d 8 ∧ Taken d s u ∧ u8 d 0 = 6 ∧ uartForm d = true ∧ u.uaChars (drefAt d 12) = some l ∧
    (u.flag (UA_CFG.ENABLE n) = false ∨ u.flag (UA_CFG.AUTOBAUD n) = true)) ∧
    (∃ (s : State) (u d l n : _), n = u8 d 8 ∧ Taken d s u ∧ u8 d 0 = 6 ∧ uartForm d = true ∧ u.uaChars (drefAt d 12) = some l ∧
    u.flag (UA_CFG.ENABLE n) = true ∧ u.flag (UA_CFG.AUTOBAUD n) = false ∧ bit (u8 d 9) 0 = false) ∧
    (∃ (s : State) (u d l n : _), n = u8 d 8 ∧ Taken d s u ∧ u8 d 0 = 6 ∧ uartForm d = true ∧ u.uaChars (drefAt d 12) = some l ∧
    u.flag (UA_CFG.ENABLE n) = true ∧ u.flag (UA_CFG.AUTOBAUD n) = false ∧ bit (u8 d 9) 0 = true) ∧
    (∃ (s : State) (u d : _), Taken d s u ∧ u8 d 0 = 6 ∧ ((uartForm d = false ∨ u.uaChars (drefAt d 12) = none))) ∧
    (∃ (n c : Nat) (t : List Nat) (s : State), (s.uart n).cur = none ∧ s.uaOn n = true ∧ (s.uart n).flow = c :: t) ∧
    (∃ (n : Nat) (s : State) (x : UaSend) (t : List UaSend), (s.uart n).cur = none ∧ s.uaOn n = true ∧ (s.uart n).flow = [] ∧
    (s.uart n).sends = x :: t ∧ x.sent < x.chars.length ∧ (s.uaFlowOn n = true ∧ s.flag (UA_STAT.XOFF_RX n) = true)) ∧
    (∃ (n : Nat) (s : State) (x : UaSend) (t : List UaSend), (s.uart n).cur = none ∧ s.uaOn n = true ∧ (s.uart n).flow = [] ∧
    (s.uart n).sends = x :: t ∧ x.sent < x.chars.length ∧ (s.uaFlowOn n = false ∨ s.flag (UA_STAT.XOFF_RX n) = false)) ∧
    (∃ (n : Nat) (s : State), ((s.uart n).cur ≠ none ∨ s.uaOn n = false)) ∧
    (∃ (n : Nat), n < 6) ∧
    (∃ (u : Uart) (c : UaOut) (s v w x : State),
    v = (s.modUart u.val (fun y => { y with cur := none, deaf := decide (u.val = 4), sends := y.sends.map (fun x => if c.tag = some x.tag then { x with sent := x.sent + 1 } else x) })).putFlag (UA_STAT.TX_BUSY u.val) false ∧
    w = (if c.flow = true then v.putFlag (UA_STAT.XOFF_TX u.val) (decide (c.data = 0x13)) else v) ∧
    x = w.uaFinish ((w.uart u.val).sends.length + 1) u.val ∧ (s.uart u.val).cur = some c) ∧
    (∃ (n : Nat) (s : State) (x : UaSend) (t : List UaSend), (s.uart n).sends = x :: t ∧ x.chars.length ≤ x.sent) ∧
    (∃ (u : Uart) (s : State), (s.uart u.val).cur = none) ∧
    (∃ (who : Accessor) (u : Uart) (v : Word) (s : State) (w : _), w = (s.uaKeep u.val).merge (UA_CFG u.val) 0xFFC000FF v ∧
    s.flag (UA_CFG.AMATCH u.val) = false ∧ w.flag (UA_CFG.AMATCH u.val) = true ∧ Writable s who (UA_CFG u.val)) ∧
    (∃ (who : Accessor) (u : Uart) (v : Word) (s : State) (w : _), w = (s.uaKeep u.val).merge (UA_CFG u.val) 0xFFC000FF v ∧
    w.flag (UA_CFG.AMATCH u.val) = false ∧ Writable s who (UA_CFG u.val)) ∧
    (∃ (who : Accessor) (u : Uart) (v : Word) (s : State) (w : _), w = (s.uaKeep u.val).merge (UA_CFG u.val) 0xFFC000FF v ∧
    s.flag (UA_CFG.AMATCH u.val) = true ∧ w.flag (UA_CFG.AMATCH u.val) = true ∧ Writable s who (UA_CFG u.val)) ∧
    (∃ (who : Accessor) (u : Uart) (v : Word) (s : State) (d : _),
    d = (if bits v.toNat 21 6 = 0 then bits v.toNat 21 0 + 64 else bits v.toNat 21 0) ∧ bit v.toNat 31 = true ∧
    Writable s who (UA_BAUD u.val)) ∧
    (∃ (who : Accessor) (u : Uart) (v : Word) (s : State) (d : _),
    d = (if bits v.toNat 21 6 = 0 then bits v.toNat 21 0 + 64 else bits v.toNat 21 0) ∧ bit v.toNat 31 = false ∧
    Writable s who (UA_BAUD u.val)) :=
  ⟨⟨((posted run (desc 6 uaBody)) : State), (took run (desc 6 uaBody)), (desc 6 uaBody), [0], _, rfl,
   taken_posted _ _ (by decide +kernel), by decide +kernel⟩,
   ⟨((posted (run.putFlag (UA_CFG.ENABLE 0) true) (desc 6 uaBody)) : State), (took (run.putFlag (UA_CFG.ENABLE 0) true) (desc 6 uaBody)),
   (desc 6 uaBody), [0], _, rfl, taken_posted _ _ (by decide +kernel), by decide +kernel⟩,
   ⟨((posted (run.putFlag (UA_CFG.ENABLE 0) true) (desc 6 uaBreak)) : State),
   (took (run.putFlag (UA_CFG.ENABLE 0) true) (desc 6 uaBreak)), (desc 6 uaBreak), [0], _, rfl, taken_posted _ _ (by decide +kernel),
   by decide +kernel⟩,
   ⟨((posted run (desc 6 [0#8, 0#8, 0#8, 0#8, 3#8])) : State), (took run (desc 6 [0#8, 0#8, 0#8, 0#8, 3#8])),
   (desc 6 [0#8, 0#8, 0#8, 0#8, 3#8]), taken_posted _ _ (by decide +kernel), by decide +kernel⟩,
   ⟨0, 19, ([] : List Nat), (((run.putFlag (UA_CFG.ENABLE (0 : Nat)) true).modUart 0 (fun x => { x with flow := [19] })) : State),
   by decide +kernel⟩,
   ⟨0,
   (((run.putFlag (UA_CFG.ENABLE 0) true).putFlag (UA_FLOW.XEN 0) true).putFlag (UA_STAT.XOFF_RX 0) true |>.modUart 0 (fun x => { x with sends := [aUaSend] }) : State),
   aUaSend, ([] : List UaSend), by decide +kernel⟩,
   ⟨0, (((run.putFlag (UA_CFG.ENABLE (0 : Nat)) true).modUart 0 (fun x => { x with sends := [aUaSend] })) : State), aUaSend,
   ([] : List UaSend), by decide +kernel⟩,
   ⟨0, run, by decide +kernel⟩,
   ⟨0, by decide +kernel⟩,
   ⟨0, (⟨65, false, some 5, {}⟩ : UaOut), (run.modUart 0 (fun x => { x with cur := some ⟨65, false, some 5, {}⟩ }) : State), _, _, _, rfl,
   rfl, rfl, by decide +kernel⟩,
   ⟨0, (run.modUart 0 (fun x => { x with sends := [{ aUaSend with sent := 1 }] }) : State), ({ aUaSend with sent := 1 } : UaSend),
   ([] : List UaSend), by decide +kernel⟩,
   ⟨0, run, by decide +kernel⟩,
   ⟨.host, 0, 0xFFFFFFFF, ((run.putFlag (UA_CFG.AMATCH (0 : Uart).val) false) : State), _, rfl, by unfold Writable; decide +kernel⟩,
   ⟨.host, 0, 0, run, _, rfl, by unfold Writable; decide +kernel⟩,
   ⟨.host, 0, 0xFFFFFFFF, ((run.putFlag (UA_CFG.AMATCH (0 : Uart).val) true) : State), _, rfl, by unfold Writable; decide +kernel⟩,
   ⟨.host, 0, 2147483648, run, _, rfl, by unfold Writable; decide +kernel⟩,
   ⟨.host, 0, 0, run, _, rfl, by unfold Writable; decide +kernel⟩⟩

theorem wit_ControlOutputsFollowCommandsAndInterlocks :
    (∃ (who : Accessor) (v : Word) (s : State), s.namesHeld (bits v.toNat 15 0) 0 = true ∧ Writable s who CT_SET) ∧
    (∃ (who : Accessor) (v : Word) (s : State), s.namesHeld (bits v.toNat 15 0) 0 = false ∧ s.bothOn (bits v.toNat 15 0) = true ∧
    Writable s who CT_SET) ∧
    (∃ (who : Accessor) (v : Word) (s : State), s.namesHeld (bits v.toNat 15 0) 0 = false ∧ s.bothOn (bits v.toNat 15 0) = false ∧
    Writable s who CT_SET ∧ s.namesHeld 0 (bits v.toNat 15 0) = false ∧ Writable s who CT_CLR) ∧
    (∃ (who : Accessor) (v : Word) (s : State), s.namesHeld 0 (bits v.toNat 15 0) = true ∧ Writable s who CT_CLR) ∧
    (∃ (s : State) (u d : _), Taken d s u ∧ u8 d 0 = 7 ∧ zeros d 12 63 = true ∧ u16 d 8 &&& u16 d 10 = 0 ∧
    u.namesHeld (u16 d 8) (u16 d 10) = true) ∧
    (∃ (s : State) (u d : _), Taken d s u ∧ u8 d 0 = 7 ∧ zeros d 12 63 = true ∧ u16 d 8 &&& u16 d 10 = 0 ∧
    u.namesHeld (u16 d 8) (u16 d 10) = false ∧ u.bothOn (u16 d 8) = true) ∧
    (∃ (s : State) (u d : _), Taken d s u ∧ u8 d 0 = 7 ∧ zeros d 12 63 = true ∧ u16 d 8 &&& u16 d 10 = 0 ∧
    u.namesHeld (u16 d 8) (u16 d 10) = false ∧ u.bothOn (u16 d 8) = false) ∧
    (∃ (s : State) (u d : _), Taken d s u ∧ u8 d 0 = 7 ∧ ((zeros d 12 63 = false ∨ u16 d 8 &&& u16 d 10 ≠ 0))) ∧
    (∃ (who : Accessor) (v : Word) (s : State) (t : _), t = s.writePlain CT_PAIR v ∧ t.bothSafe = true ∧ Writable s who CT_PAIR) ∧
    (∃ (who : Accessor) (v : Word) (s : State) (t : _), t = s.writePlain CT_PAIR v ∧ t.bothSafe = false ∧ Writable s who CT_PAIR) ∧
    (∃ (who : Accessor) (o : CtlO) (v : Word) (s : State) (t : _), t = s.writePlain (CT_OCFG o.val) v ∧ t.bothSafe = true ∧
    Writable s who (CT_OCFG o.val)) ∧
    (∃ (who : Accessor) (o : CtlO) (v : Word) (s : State) (t : _), t = s.writePlain (CT_OCFG o.val) v ∧ t.bothSafe = false ∧
    Writable s who (CT_OCFG o.val)) ∧
    (∃ (i : PairN) (s : State), i.val ∈ s.ctl.dead) ∧
    (∃ (i : PairN) (s : State), i.val ∉ s.ctl.dead) ∧
    (∃ (o : CtlO) (s : State), s.ctWant o.val = false) ∧
    (∃ (o : CtlO) (before : Nat) (s : State), s.ctWant o.val = true ∧ ((bit before o.val = true ∨ s.paired2 (o.val / 2) = false))) ∧
    (∃ (o : CtlO) (before : Nat) (s : State), s.ctWant o.val = true ∧ bit before o.val = false ∧ s.paired2 (o.val / 2) = true ∧
    ((bit before (partner o.val) = true ∨ o.val / 2 ∈ s.ctl.dead))) :=
  ⟨⟨.host, 1, (tripped run : State), by unfold Writable; decide +kernel⟩,
   ⟨.host, 3, (run.setReg CT_PAIR 1 : State), by unfold Writable; decide +kernel⟩,
   ⟨.host, 0, run, by unfold Writable; decide +kernel⟩,
   ⟨.host, 1, (tripped run : State), by unfold Writable; decide +kernel⟩,
   ⟨((posted (tripped run) (desc 7 [1#8])) : State), (took (tripped run) (desc 7 [1#8])), (desc 7 [1#8]),
   taken_posted _ _ (by decide +kernel), by decide +kernel⟩,
   ⟨((posted (run.setReg CT_PAIR 1) (desc 7 [3#8])) : State), (took (run.setReg CT_PAIR 1) (desc 7 [3#8])), (desc 7 [3#8]),
   taken_posted _ _ (by decide +kernel), by decide +kernel⟩,
   ⟨((posted run (desc 7 [1#8])) : State), (took run (desc 7 [1#8])), (desc 7 [1#8]), taken_posted _ _ (by decide +kernel),
   by decide +kernel⟩,
   ⟨((posted run (desc 7 [1#8, 0#8, 1#8])) : State), (took run (desc 7 [1#8, 0#8, 1#8])), (desc 7 [1#8, 0#8, 1#8]),
   taken_posted _ _ (by decide +kernel), by decide +kernel⟩,
   ⟨.host, 1, ((run.putFlag (CT_OCFG.SAFE 0) true).putFlag (CT_OCFG.SAFE 1) true : State), _, rfl, by unfold Writable; decide +kernel⟩,
   ⟨.host, 0, run, _, rfl, by unfold Writable; decide +kernel⟩,
   ⟨.host, 0, 0x80000000, (((run.setReg CT_PAIR 1).putFlag (CT_OCFG.SAFE 1) true).putFlag (CT_OCFG.SAFE 0) true : State), _, rfl,
   by unfold Writable; decide +kernel⟩,
   ⟨.host, 0, 0, run, _, rfl, by unfold Writable; decide +kernel⟩,
   ⟨0, ({ run with ctl := { dead := [0] } } : State), by decide +kernel⟩,
   ⟨0, run, by decide +kernel⟩,
   ⟨0, run, by decide +kernel⟩,
   ⟨0, 0, ({ run with ctl := { cmd := 1 } } : State), by decide +kernel⟩,
   ⟨0, 0, (({ run with ctl := { cmd := 1, dead := [0] } } : State).setReg CT_PAIR 1 : State), by decide +kernel⟩⟩

theorem wit_InterlockedPairsAreNeverBothOn :
    ∃ (who : Accessor) (o : CtlO) (v : Word) (s t : State),
    ((exec (.ctPairWrite who v) s = .next t ∨ exec (.ctOcfgWrite who o v) s = .next t)) ∧ s.bothSafe = false :=
  ⟨.host, 0, 0, run, (nextOf (.ctPairWrite .host 0) run : State), Or.inl rfl, by decide +kernel⟩

theorem wit_GuardsTripAndInputsChange :
    (∃ (s : State), s.metering = true) ∧
    (∃ (s : State), s.metering = false) ∧
    (∃ (first : Nat) (s : State), first ≤ s.meter.edge + 1 ∧ ((∀ r ∈ s.meter.resets, s.meter.edge < r))) ∧
    (∃ (who : Accessor) (s : State), Writable s who CT_TRIP) ∧
    (∃ (o : CtlO) (s : State) (u : _), u = { s with ctl := { s.ctl with check := s.ctl.check.filter (fun p => p ≠ o.val) } } ∧
    o.val ∈ s.ctl.check ∧ s.flag (CT_OCFG.FB_EN o.val) = true) ∧
    (∃ (o : CtlO) (s : State) (u : _), u = { s with ctl := { s.ctl with check := s.ctl.check.filter (fun p => p ≠ o.val) } } ∧
    o.val ∈ s.ctl.check ∧ s.flag (CT_OCFG.FB_EN o.val) = false) ∧
    (∃ (o : CtlO) (s : State), o.val ∉ s.ctl.check) ∧
    (∃ (s : State), s.iron.viron = true) ∧
    (∃ (s : State), s.iron.viron = false) ∧
    (∃ (i : CtlO) (b : Bool) (n : Nat) (s : State),
    n = (if s.bitOf CT_DIN.LEVEL i.val = b then 0 else mget natDef s.ctl.bounce i.val + 1) ∧ n < max (s.get CT_CFG.DEB) 1) ∧
    (∃ (i : CtlO) (b : Bool) (n : Nat) (s : State),
    n = (if s.bitOf CT_DIN.LEVEL i.val = b then 0 else mget natDef s.ctl.bounce i.val + 1) ∧ max (s.get CT_CFG.DEB) 1 ≤ n) ∧
    (∃ (who : Accessor) (v : Word) (s : State) (t : _), t = s.writePlain CT_DLIM v ∧ bits v.toNat 31 28 ≠ s.get CT_DLIM.LEVEL ∧
    Writable s who CT_DLIM) ∧
    (∃ (who : Accessor) (v : Word) (s : State) (t : _), t = s.writePlain CT_DLIM v ∧ bits v.toNat 31 28 = s.get CT_DLIM.LEVEL ∧
    Writable s who CT_DLIM) :=
  ⟨⟨((run.putFlag MT_CFG.ENABLE true) : State), by decide +kernel⟩,
   ⟨run, by decide +kernel⟩,
   ⟨0, run, by decide +kernel⟩,
   ⟨.host, run, by unfold Writable; decide +kernel⟩,
   ⟨0, (((({ run with ctl := { check := [0] } } : State)).putFlag (CT_OCFG.FB_EN (0 : CtlO).val) true) : State), _, rfl,
   by decide +kernel⟩,
   ⟨0, (((({ run with ctl := { check := [0] } } : State)).putFlag (CT_OCFG.FB_EN (0 : CtlO).val) false) : State), _, rfl,
   by decide +kernel⟩,
   ⟨0, run, by decide +kernel⟩,
   ⟨run, by decide +kernel⟩,
   ⟨({ run with iron := { run.iron with viron := false } } : State), by decide +kernel⟩,
   ⟨0, false, _, run, rfl, by decide +kernel⟩,
   ⟨0, true, 1, ((run.put CT_CFG.DEB 1) : State), by decide +kernel⟩,
   ⟨.host, 0xF0000000, run, _, rfl, by unfold Writable; decide +kernel⟩,
   ⟨.host, 0, run, _, rfl, by unfold Writable; decide +kernel⟩⟩

theorem wit_MailboxKeyCommandsCheckAndAct :
    (∃ (s : State), s.mbxReady 0x01 = false) ∧
    (∃ (s : State) (ty : Nat) (key : List Byte) (c : MbxOut), ty = bits s.arg0 15 8 ∧ key = s.mbxData (keyLen ty) ∧
    c = firstFail [(decide (s.mode = 10), (stNotPermitted, dMode)), (bit s.arg0 7, (stBad, dSlot)), (!typeCode ty || (decide (ty = 3) && !scalarOk key), (stBad, dType)), (!s.flag WD_POLICY.PLAIN_LOAD, (stNotPermitted, dPolicy)), (masterUsage (bits s.arg0 23 16) && !s.wd.mbxPres, (stPresence, 0#8)), (s.staleCounter (bits s.arg0 6 0) s.arg1 key, (stNotPermitted, dCounter))] ∧
    s.mbxReady 0x01 = true ∧ c ≠ mbxOk) ∧
    (∃ (s : State) (ty : Nat) (key : List Byte) (c : MbxOut), ty = bits s.arg0 15 8 ∧ key = s.mbxData (keyLen ty) ∧
    c = firstFail [(decide (s.mode = 10), (stNotPermitted, dMode)), (bit s.arg0 7, (stBad, dSlot)), (!typeCode ty || (decide (ty = 3) && !scalarOk key), (stBad, dType)), (!s.flag WD_POLICY.PLAIN_LOAD, (stNotPermitted, dPolicy)), (masterUsage (bits s.arg0 23 16) && !s.wd.mbxPres, (stPresence, 0#8)), (s.staleCounter (bits s.arg0 6 0) s.arg1 key, (stNotPermitted, dCounter))] ∧
    s.mbxReady 0x01 = true ∧ c = mbxOk) ∧
    (∃ (s : State) (kek : KeySlot) (b : Option (List Byte × Nat × Nat × Nat)) (c : MbxOut), kek = s.slot (bits s.arg0 30 24) ∧
    b = (s.blobPlain kek).map blobParts ∧
    c = firstFail [(decide (s.mode = 10), (stNotPermitted, dMode)), (bit s.arg0 7, (stBad, dSlot)), (decide (kek.type = 0), (stNotPermitted, dEmpty)), (!kek.isAes, (stNotPermitted, dType)), (!kek.may 6, (stNotPermitted, dUsage)), (b.any (fun x => !typeCode x.2.1 || decide (keyLen x.2.1 ≠ x.1.length) || (decide (x.2.1 = 3) && !scalarOk x.1)), (stBad, dType)), (!s.flag WD_POLICY.PLAIN_LOAD, (stNotPermitted, dPolicy)), (b.any (fun x => masterUsage x.2.2.1) && !s.wd.mbxPres, (stPresence, 0#8)), (b.isNone, (stAuthFail, 0#8)), (b.any (fun x => s.staleCounter (bits s.arg0 6 0) x.2.2.2 x.1), (stNotPermitted, dCounter))] ∧
    s.mbxReady 0x02 = true ∧ c ≠ mbxOk) ∧
    (∃ (s : State) (kek : KeySlot) (b : Option (List Byte × Nat × Nat × Nat)) (c : MbxOut) (x : _), kek = s.slot (bits s.arg0 30 24) ∧
    b = (s.blobPlain kek).map blobParts ∧
    c = firstFail [(decide (s.mode = 10), (stNotPermitted, dMode)), (bit s.arg0 7, (stBad, dSlot)), (decide (kek.type = 0), (stNotPermitted, dEmpty)), (!kek.isAes, (stNotPermitted, dType)), (!kek.may 6, (stNotPermitted, dUsage)), (b.any (fun x => !typeCode x.2.1 || decide (keyLen x.2.1 ≠ x.1.length) || (decide (x.2.1 = 3) && !scalarOk x.1)), (stBad, dType)), (!s.flag WD_POLICY.PLAIN_LOAD, (stNotPermitted, dPolicy)), (b.any (fun x => masterUsage x.2.2.1) && !s.wd.mbxPres, (stPresence, 0#8)), (b.isNone, (stAuthFail, 0#8)), (b.any (fun x => s.staleCounter (bits s.arg0 6 0) x.2.2.2 x.1), (stNotPermitted, dCounter))] ∧
    s.mbxReady 0x02 = true ∧ c = mbxOk ∧ b = some x) ∧
    (∃ (s : State) (k kek : KeySlot) (c : MbxOut), k = s.slot (bits s.arg0 6 0) ∧ kek = s.slot (bits s.arg0 30 24) ∧
    c = firstFail [(decide (s.mode = 10), (stNotPermitted, dMode)), (bit s.arg0 7, (stBad, dSlot)), (decide (k.type = 0), (stNotPermitted, dEmpty)), (decide (kek.type = 0), (stNotPermitted, dEmpty)), (!kek.isAes, (stNotPermitted, dType)), (!kek.may 6 || !k.may 7, (stNotPermitted, dUsage)), (!s.flag WD_POLICY.EXPORT_EN, (stNotPermitted, dPolicy))] ∧
    s.mbxReady 0x03 = true ∧ c ≠ mbxOk) ∧
    (∃ (s : State) (k kek : KeySlot) (c : MbxOut), k = s.slot (bits s.arg0 6 0) ∧ kek = s.slot (bits s.arg0 30 24) ∧
    c = firstFail [(decide (s.mode = 10), (stNotPermitted, dMode)), (bit s.arg0 7, (stBad, dSlot)), (decide (k.type = 0), (stNotPermitted, dEmpty)), (decide (kek.type = 0), (stNotPermitted, dEmpty)), (!kek.isAes, (stNotPermitted, dType)), (!kek.may 6 || !k.may 7, (stNotPermitted, dUsage)), (!s.flag WD_POLICY.EXPORT_EN, (stNotPermitted, dPolicy))] ∧
    s.mbxReady 0x03 = true ∧ c = mbxOk) ∧
    (∃ (s : State) (ty : Nat) (c : MbxOut), ty = bits s.arg0 15 8 ∧
    c = firstFail [(decide (s.mode = 10), (stNotPermitted, dMode)), (bit s.arg0 7, (stBad, dSlot)), (!typeCode ty, (stBad, dType)), (!s.flag WD_POLICY.PLAIN_LOAD, (stNotPermitted, dPolicy)), (masterUsage (bits s.arg0 23 16) && !s.wd.mbxPres, (stPresence, 0#8))] ∧
    s.mbxReady 0x04 = true ∧ c ≠ mbxOk) ∧
    (∃ (s : State) (ty : Nat) (c : MbxOut), ty = bits s.arg0 15 8 ∧
    c = firstFail [(decide (s.mode = 10), (stNotPermitted, dMode)), (bit s.arg0 7, (stBad, dSlot)), (!typeCode ty, (stBad, dType)), (!s.flag WD_POLICY.PLAIN_LOAD, (stNotPermitted, dPolicy)), (masterUsage (bits s.arg0 23 16) && !s.wd.mbxPres, (stPresence, 0#8))] ∧
    s.mbxReady 0x04 = true ∧ c = mbxOk ∧ ty ≠ 3) ∧
    (∃ (s : State) (ty : Nat) (c : MbxOut), ty = bits s.arg0 15 8 ∧
    c = firstFail [(decide (s.mode = 10), (stNotPermitted, dMode)), (bit s.arg0 7, (stBad, dSlot)), (!typeCode ty, (stBad, dType)), (!s.flag WD_POLICY.PLAIN_LOAD, (stNotPermitted, dPolicy)), (masterUsage (bits s.arg0 23 16) && !s.wd.mbxPres, (stPresence, 0#8))] ∧
    s.mbxReady 0x04 = true ∧ c = mbxOk ∧ ty = 3) ∧
    (∃ (s : State) (i : Nat) (c : MbxOut), i = bits s.arg0 6 0 ∧
    c = firstFail [(decide (s.mode = 10), (stNotPermitted, dMode)), (bit s.arg0 7, (stBad, dSlot)), (decide ((s.slot i).type = 0), (stNotPermitted, dEmpty)), (masterUsage (s.slot i).usage.toNat && !s.wd.mbxPres, (stPresence, 0#8))] ∧
    s.mbxReady 0x05 = true ∧ c ≠ mbxOk) ∧
    (∃ (s : State) (i : Nat) (c : MbxOut), i = bits s.arg0 6 0 ∧
    c = firstFail [(decide (s.mode = 10), (stNotPermitted, dMode)), (bit s.arg0 7, (stBad, dSlot)), (decide ((s.slot i).type = 0), (stNotPermitted, dEmpty)), (masterUsage (s.slot i).usage.toNat && !s.wd.mbxPres, (stPresence, 0#8))] ∧
    s.mbxReady 0x05 = true ∧ c = mbxOk) ∧
    (∃ (s : State) (i : Nat) (c : MbxOut), i = bits s.arg0 6 0 ∧
    c = firstFail [(decide (s.mode = 10), (stNotPermitted, dMode)), (bit s.arg0 7, (stBad, dSlot)), (decide ((s.slot i).type = 0), (stNotPermitted, dEmpty)), (decide ((s.slot i).type ≠ 3), (stNotPermitted, dType))] ∧
    s.mbxReady 0x06 = true ∧ c ≠ mbxOk) ∧
    (∃ (s : State) (i : Nat) (c : MbxOut), i = bits s.arg0 6 0 ∧
    c = firstFail [(decide (s.mode = 10), (stNotPermitted, dMode)), (bit s.arg0 7, (stBad, dSlot)), (decide ((s.slot i).type = 0), (stNotPermitted, dEmpty)), (decide ((s.slot i).type ≠ 3), (stNotPermitted, dType))] ∧
    s.mbxReady 0x06 = true ∧ c = mbxOk) ∧
    (∃ (s : State) (i : Nat) (c : MbxOut), i = bits s.arg0 6 0 ∧
    c = firstFail [(decide (s.mode = 10), (stNotPermitted, dMode)), (bit s.arg0 7, (stBad, dSlot)), (decide ((s.slot i).type = 0), (stNotPermitted, dEmpty)), (decide (s.arg1 ≤ (s.slot i).counter.toNat), (stNotPermitted, dValue))] ∧
    s.mbxReady 0x07 = true ∧ c ≠ mbxOk) ∧
    (∃ (s : State) (i : Nat) (c : MbxOut), i = bits s.arg0 6 0 ∧
    c = firstFail [(decide (s.mode = 10), (stNotPermitted, dMode)), (bit s.arg0 7, (stBad, dSlot)), (decide ((s.slot i).type = 0), (stNotPermitted, dEmpty)), (decide (s.arg1 ≤ (s.slot i).counter.toNat), (stNotPermitted, dValue))] ∧
    s.mbxReady 0x07 = true ∧ c = mbxOk ∧ s.arg1 < 2 ^ 32 - 1) ∧
    (∃ (s : State) (i : Nat) (c : MbxOut), i = bits s.arg0 6 0 ∧
    c = firstFail [(decide (s.mode = 10), (stNotPermitted, dMode)), (bit s.arg0 7, (stBad, dSlot)), (decide ((s.slot i).type = 0), (stNotPermitted, dEmpty)), (decide (s.arg1 ≤ (s.slot i).counter.toNat), (stNotPermitted, dValue))] ∧
    s.mbxReady 0x07 = true ∧ c = mbxOk ∧ s.arg1 = 2 ^ 32 - 1) ∧
    (∃ (s : State), s.mbxReady 0x0A = true ∧ s.mode ≠ 10 ∧ s.wd.mbxPres = true) ∧
    (∃ (s : State), s.mbxReady 0x0A = true ∧ s.mode ≠ 10 ∧ s.wd.mbxPres = false) :=
  ⟨⟨run, by decide +kernel⟩,
   ⟨(mbx keks 1 false 0x00000080 0 : State), _, _, _, rfl, rfl, rfl, by decide +kernel⟩,
   ⟨(mbx keks 1 false 0x00040104 0 : State), _, _, _, rfl, rfl, rfl, by decide +kernel⟩,
   ⟨(mbx keks 2 false 0x01000004 0 : State), _, _, _, rfl, rfl, rfl, by decide +kernel⟩,
   ⟨((mbx keks 2 false 0x01000004 0).putMbxData 0 aBlob : State), _, _, _, (List.replicate 16 5#8, 1, 4, 3), rfl, rfl, rfl,
   by decide +kernel⟩,
   ⟨(mbx keks 3 false 0x01000002 0 : State), _, _, _, rfl, rfl, rfl, by decide +kernel⟩,
   ⟨(mbx (keks.putFlag WD_POLICY.EXPORT_EN true) 3 false 0x01000002 0 : State), _, _, _, rfl, rfl, rfl, by decide +kernel⟩,
   ⟨(mbx keks 4 false 0x00000080 0 : State), _, _, rfl, rfl, by decide +kernel⟩,
   ⟨(mbx keks 4 false 0x00040104 0 : State), _, _, rfl, rfl, by decide +kernel⟩,
   ⟨(mbx keks 4 false 0x00100304 0 : State), _, _, rfl, rfl, by decide +kernel⟩,
   ⟨(mbx keks 5 false 0x00000009 0 : State), _, _, rfl, rfl, by decide +kernel⟩,
   ⟨(mbx keks 5 false 0x00000002 0 : State), _, _, rfl, rfl, by decide +kernel⟩,
   ⟨(mbx keks 6 false 0x00000002 0 : State), _, _, rfl, rfl, by decide +kernel⟩,
   ⟨(mbx keks 6 false 0x00000003 0 : State), _, _, rfl, rfl, by decide +kernel⟩,
   ⟨(mbx keks 7 false 0x00000002 1 : State), _, _, rfl, rfl, by decide +kernel⟩,
   ⟨(mbx keks 7 false 0x00000002 2 : State), _, _, rfl, rfl, by decide +kernel⟩,
   ⟨(mbx keks 7 false 0x00000002 0xFFFFFFFF : State), _, _, rfl, rfl, by decide +kernel⟩,
   ⟨(mbx keks 10 true 0 0 : State), by decide +kernel⟩,
   ⟨(mbx keks 10 false 0 0 : State), by decide +kernel⟩⟩

theorem wit_SlotsAgeWithEveryChange :
    (∃ (s : State) (i type usage counter : Nat) (key : List Byte) (t : State) (j : _), t = s.loadSlot i type usage counter key ∧
    type ≠ 0 ∧ j ≠ i) ∧
    (∃ (s : State) (i : Nat) (t : State) (j : _), t = s.eraseSlot i ∧ (s.slot i).type ≠ 0 ∧ j ≠ i) ∧
    (∃ (s : State) (i : Nat) (t : State) (j : CipherJob), t = s.eraseSlot i ∧ (s.slot i).type ≠ 0 ∧ j ∈ s.wd.jobs ∧ j.entered = true ∧
    j.verdict = none ∧ j.op ∉ [7, 9, 12] ∧ j.slot = i) ∧
    (∃ (s : State) (i : Nat), (s.slot i).type = 0) ∧
    (∃ (s : State) (i p m : Nat) (x : TxCtx) (y : SendSt), x.kind = .item m ∧ s.sendIn (p * 64 + x.k) x.kind = some y ∧
    s.macSlot y.mac ≠ some i) ∧
    (∃ (s : State) (i p m : Nat) (x : TxCtx) (y : SendSt) (d : Nat) (u : State), s.free 2 = (d, u) ∧ x.kind = .item m ∧
    s.sendIn (p * 64 + x.k) x.kind = some y ∧ s.macSlot y.mac = some i) ∧
    (∃ (s : State) (p : Nat) (x : TxCtx), s.sendIn (p * 64 + x.k) x.kind = none) ∧
    (∃ (s : State) (i v : Nat) (t : State) (j : _), s.takeCounter i = (some v, t) ∧ j ≠ i) :=
  ⟨⟨run, 0, 1, 0, 0, ([] : List Byte), _, (2 : Nat), rfl, by decide +kernel⟩,
   ⟨keyed, 1, _, (2 : Nat), rfl, by decide +kernel⟩,
   ⟨withJob (run.loadSlot 0 1 0 0 []) { aJob with entered := true }, 0, _, { aJob with entered := true }, rfl, by decide +kernel,
   List.mem_singleton_self _, rfl, rfl, by decide +kernel, rfl⟩,
   ⟨run, 0, by decide +kernel⟩,
   ⟨({ keyed with link := { sends := [aSend] } } : State), 0, 0, 0, aCtx, aSend, by decide +kernel⟩,
   ⟨(({ keyed with link := { sends := [{ aSend with mac := { aMac with slv := 6 } }] } } : State).put LK_CFG.LINK_SLOT 1 : State), 1, 0,
   0, aCtx, ({ aSend with mac := { aMac with slv := 6 } } : SendSt), _, _, parts _, by decide +kernel⟩,
   ⟨run, 0, aCtx, by decide +kernel⟩,
   ⟨run, 0, ((run.takeCounter (0 : Nat)).1.get (by decide +kernel) : Nat), ((run.takeCounter (0 : Nat)).2 : State), (2 : Nat),
   by decide +kernel⟩⟩

theorem wit_MailboxOtpAndModeCommands :
    (∃ (s : State) (c : MbxOut),
    c = firstFail [(decide (s.mode = 10), (stNotPermitted, dMode)), (!s.wd.mbxPres, (stPresence, 0#8)), (decide (8 ≤ s.wd.otp.roots.length), (stNotPermitted, dOtpFull))] ∧
    s.mbxReady 0x10 = true ∧ c ≠ mbxOk) ∧
    (∃ (s : State) (b : Bool) (c : MbxOut),
    c = firstFail [(decide (s.mode = 10), (stNotPermitted, dMode)), (!s.wd.mbxPres, (stPresence, 0#8)), (decide (8 ≤ s.wd.otp.roots.length), (stNotPermitted, dOtpFull))] ∧
    b = true ∧ s.mbxReady 0x10 = true ∧ c = mbxOk) ∧
    (∃ (s : State) (b : Bool) (c : MbxOut),
    c = firstFail [(decide (s.mode = 10), (stNotPermitted, dMode)), (!s.wd.mbxPres, (stPresence, 0#8)), (decide (8 ≤ s.wd.otp.roots.length), (stNotPermitted, dOtpFull))] ∧
    b = false ∧ s.mbxReady 0x10 = true ∧ c = mbxOk) ∧
    (∃ (s : State) (c : MbxOut),
    c = firstFail [(decide (s.mode = 10), (stNotPermitted, dMode)), (decide ((s.reg FAB_INGOT).toNat < s.arg1), (stBad, dValue)), (!s.wd.mbxPres, (stPresence, 0#8)), (decide (s.arg1 ≤ s.wd.otp.floor), (stNotPermitted, dValue)), (decide (16 ≤ s.wd.otp.floors.length), (stNotPermitted, dOtpFull))] ∧
    s.mbxReady 0x11 = true ∧ c ≠ mbxOk) ∧
    (∃ (s : State) (b : Bool) (c : MbxOut),
    c = firstFail [(decide (s.mode = 10), (stNotPermitted, dMode)), (decide ((s.reg FAB_INGOT).toNat < s.arg1), (stBad, dValue)), (!s.wd.mbxPres, (stPresence, 0#8)), (decide (s.arg1 ≤ s.wd.otp.floor), (stNotPermitted, dValue)), (decide (16 ≤ s.wd.otp.floors.length), (stNotPermitted, dOtpFull))] ∧
    b = true ∧ s.mbxReady 0x11 = true ∧ c = mbxOk) ∧
    (∃ (s : State) (b : Bool) (c : MbxOut),
    c = firstFail [(decide (s.mode = 10), (stNotPermitted, dMode)), (decide ((s.reg FAB_INGOT).toNat < s.arg1), (stBad, dValue)), (!s.wd.mbxPres, (stPresence, 0#8)), (decide (s.arg1 ≤ s.wd.otp.floor), (stNotPermitted, dValue)), (decide (16 ≤ s.wd.otp.floors.length), (stNotPermitted, dOtpFull))] ∧
    b = false ∧ s.mbxReady 0x11 = true ∧ c = mbxOk) ∧
    (∃ (s : State) (c : MbxOut),
    (c = firstFail [(decide (s.mode = 10), (stNotPermitted, dMode)), (decide (s.arg1 < 10 ∨ 300 < s.arg1), (stBad, dValue)), (!s.wd.mbxPres, (stPresence, 0#8)), (decide (4 ≤ s.wd.otp.windows.length), (stNotPermitted, dOtpFull))]) ∧
    s.mbxReady 0x12 = true ∧ c ≠ mbxOk) ∧
    (∃ (s : State) (b : Bool) (c : MbxOut),
    (c = firstFail [(decide (s.mode = 10), (stNotPermitted, dMode)), (decide (s.arg1 < 10 ∨ 300 < s.arg1), (stBad, dValue)), (!s.wd.mbxPres, (stPresence, 0#8)), (decide (4 ≤ s.wd.otp.windows.length), (stNotPermitted, dOtpFull))]) ∧
    b = true ∧ s.mbxReady 0x12 = true ∧ c = mbxOk) ∧
    (∃ (s : State) (b : Bool) (c : MbxOut),
    (c = firstFail [(decide (s.mode = 10), (stNotPermitted, dMode)), (decide (s.arg1 < 10 ∨ 300 < s.arg1), (stBad, dValue)), (!s.wd.mbxPres, (stPresence, 0#8)), (decide (4 ≤ s.wd.otp.windows.length), (stNotPermitted, dOtpFull))]) ∧
    b = false ∧ s.mbxReady 0x12 = true ∧ c = mbxOk) ∧
    (∃ (s : State) (c : MbxOut),
    c = firstFail [(decide (s.mode = 10), (stNotPermitted, dMode)), (decide (4 ≤ s.arg1), (stBad, dValue)), (!s.wd.mbxPres, (stPresence, 0#8))] ∧
    s.mbxReady 0x13 = true ∧ c ≠ mbxOk) ∧
    (∃ (s : State) (b : Bool) (c : MbxOut),
    c = firstFail [(decide (s.mode = 10), (stNotPermitted, dMode)), (decide (4 ≤ s.arg1), (stBad, dValue)), (!s.wd.mbxPres, (stPresence, 0#8))] ∧
    b = true ∧ s.mbxReady 0x13 = true ∧ c = mbxOk) ∧
    (∃ (s : State) (b : Bool) (c : MbxOut),
    c = firstFail [(decide (s.mode = 10), (stNotPermitted, dMode)), (decide (4 ≤ s.arg1), (stBad, dValue)), (!s.wd.mbxPres, (stPresence, 0#8))] ∧
    b = false ∧ s.mbxReady 0x13 = true ∧ c = mbxOk) ∧
    (∃ (s : State), s.mbxReady 0x08 = true ∧ bit s.arg0 0 = true) ∧
    (∃ (s : State), s.mbxReady 0x08 = true ∧ bit s.arg0 0 = false) ∧
    (∃ (s : State), s.mbxReady 0x09 = true ∧ s.mode = 10) ∧
    (∃ (s : State) (q : QCause), s.mbxReady 0x09 = true ∧ s.mode ≠ 10 ∧ q.val = 0) ∧
    (∃ (s : State) (q : QCause), s.mbxReady 0x09 = true ∧ s.mode ≠ 10 ∧ q.val ≠ 0) ∧
    (∃ (s : State), s.mbxReady 0x18 = true ∧ s.running = false ∧ s.mode ≠ 10) ∧
    (∃ (s : State), s.mbxReady 0x18 = true ∧ ((s.running = true ∨ s.mode = 10)) ∧ s.wd.mbxPres = false) ∧
    (∃ (s : State), s.mbxReady 0x18 = true ∧ ((s.running = true ∨ s.mode = 10)) ∧ s.wd.mbxPres = true ∧ s.mode = 9) ∧
    (∃ (s : State), s.mbxReady 0x18 = true ∧ ((s.running = true ∨ s.mode = 10)) ∧ s.wd.mbxPres = true ∧ s.mode ≠ 9 ∧ s.mode ≠ 10) ∧
    (∃ (s : State), s.mbxReady 0x18 = true ∧ ((s.running = true ∨ s.mode = 10)) ∧ s.wd.mbxPres = true ∧ s.mode = 10) ∧
    (∃ (s : State) (c : MbxOut),
    c = firstFail [(decide (s.mode = 10), (stNotPermitted, dMode)), (!s.running, (stNotPermitted, dMode)), (!s.flag SYS_STRAP.TEST_EN, (stNotPermitted, dStrap)), (s.wd.otp.testOff, (stNotPermitted, dLifecycle)), (!s.wd.mbxPres, (stPresence, 0#8))] ∧
    s.mbxReady 0x19 = true ∧ c ≠ mbxOk) ∧
    (∃ (s : State) (c : MbxOut),
    c = firstFail [(decide (s.mode = 10), (stNotPermitted, dMode)), (!s.running, (stNotPermitted, dMode)), (!s.flag SYS_STRAP.TEST_EN, (stNotPermitted, dStrap)), (s.wd.otp.testOff, (stNotPermitted, dLifecycle)), (!s.wd.mbxPres, (stPresence, 0#8))] ∧
    s.mbxReady 0x19 = true ∧ c = mbxOk) ∧
    (∃ (s : State) (op : Nat) (o : Byte × Byte), s.wd.mbxOp = some op ∧ s.wd.mbxRes = some o) ∧
    (∃ (s : State) (op : Nat), s.wd.mbxOp = some op ∧ s.wd.mbxRes = none ∧ op ∉ mbxOps) ∧
    (∃ (op : Nat), op ≠ 1) ∧
    (∃ (s : State) (i : Nat), typeCode (bits s.arg0 15 8) = true ∧ 4 * i < keyLen (bits s.arg0 15 8)) :=
  ⟨⟨(mbx run 0x10 false 0 0 : State), _, rfl, by decide +kernel⟩,
   ⟨(mbx run 0x10 true 0 0 : State), _, _, rfl, rfl, by decide +kernel⟩,
   ⟨(mbx run 0x10 true 0 0 : State), _, _, rfl, rfl, by decide +kernel⟩,
   ⟨(mbx run 0x11 false 0 5 : State), _, rfl, by decide +kernel⟩,
   ⟨(mbx (run.setReg FAB_INGOT 9) 0x11 true 0 5 : State), _, _, rfl, rfl, by decide +kernel⟩,
   ⟨(mbx (run.setReg FAB_INGOT 9) 0x11 true 0 5 : State), _, _, rfl, rfl, by decide +kernel⟩,
   ⟨(mbx run 0x12 true 0 9 : State), _, rfl, by decide +kernel⟩,
   ⟨(mbx run 0x12 true 0 300 : State), _, _, rfl, rfl, by decide +kernel⟩,
   ⟨(mbx run 0x12 true 0 300 : State), _, _, rfl, rfl, by decide +kernel⟩,
   ⟨(mbx run 0x13 true 0 4 : State), _, rfl, by decide +kernel⟩,
   ⟨(mbx run 0x13 true 0 3 : State), _, _, rfl, rfl, by decide +kernel⟩,
   ⟨(mbx run 0x13 true 0 3 : State), _, _, rfl, rfl, by decide +kernel⟩,
   ⟨(mbx run 0x08 false 1 0 : State), by decide +kernel⟩,
   ⟨(mbx run 0x08 false 0 0 : State), by decide +kernel⟩,
   ⟨(mbx (run.put SYS_MODE.MODE 10) 0x09 false 0 0 : State), by decide +kernel⟩,
   ⟨(mbx run 0x09 false 0 0 : State), 0, by decide +kernel⟩,
   ⟨(mbx run 0x09 false 0 0 : State), 1, by decide +kernel⟩,
   ⟨(mbx (run.put SYS_MODE.MODE 1) 0x18 false 0 0 : State), by decide +kernel⟩,
   ⟨(mbx run 0x18 false 0 0 : State), by decide +kernel⟩,
   ⟨(mbx (run.put SYS_MODE.MODE 9) 0x18 true 0 0 : State), by decide +kernel⟩,
   ⟨(mbx run 0x18 true 0 0 : State), by decide +kernel⟩,
   ⟨(mbx (run.put SYS_MODE.MODE 10) 0x18 true 0 0 : State), by decide +kernel⟩,
   ⟨(mbx run 0x19 true 0 0 : State), _, rfl, by decide +kernel⟩,
   ⟨(mbx (run.putFlag SYS_STRAP.TEST_EN true) 0x19 true 0 0 : State), _, rfl, by decide +kernel⟩,
   ⟨({ run with wd := { mbxOp := some 1, mbxRes := some (0, 0) } } : State), 1, ((0, 0) : Byte × Byte), by decide +kernel⟩,
   ⟨(mbx run 0x44 true 0 0 : State), 0x44, by decide +kernel⟩,
   ⟨0, by decide +kernel⟩,
   ⟨(mbx run 1 true 0x100 0 : State), 3, by decide +kernel⟩⟩

theorem wit_PresenceWindowsAndPolicy :
    (∃ (s : State) (t u : _),
    t = State.putFlag { u with wd := { u.wd with presArmed := false, presFrom := u.iron.rtc, presLen := u.wd.otp.len } } WD_STAT.PRES_OPEN true ∧
    s.wd.presArmed = true ∧ u = s.putFlag WD_STAT.PRES_LVL true) ∧
    (∃ (s : State), s.wd.presArmed = false) ∧
    (∃ (s : State), s.wd.presLen * 32768 ≤ (s.iron.rtc + 2 ^ 48 - s.wd.presFrom) % 2 ^ 48) ∧
    (∃ (s : State), (s.iron.rtc + 2 ^ 48 - s.wd.presFrom) % 2 ^ 48 < s.wd.presLen * 32768) ∧
    (∃ (s : State), s.presence = true) ∧
    (∃ (s : State), s.presence = false) ∧
    (∃ (v : Word) (s : State), bit v.toNat 31 = true ∧ Writable s .host WD_PRES) ∧
    (∃ (v : Word) (s : State), bit v.toNat 31 = false ∧ Writable s .host WD_PRES) ∧
    (∃ (v : Word) (s : State), s.refusedFields .host WD_POLICY = [] ∧ (((s.mode = 9 ∨ s.mode = 11) ∧
    s.wd.otp.debugOff = false) ∨ bit v.toNat 31 = false) ∧ Writable s .host WD_POLICY) ∧
    (∃ (v : Word) (s : State), s.refusedFields .host WD_POLICY = [] ∧ bit v.toNat 31 = true ∧ s.flag WD_POLICY.DBG_UNLOCK = false ∧
    (((s.mode ≠ 9 ∧ s.mode ≠ 11) ∨ s.wd.otp.debugOff = true)) ∧ Writable s .host WD_POLICY) ∧
    (∃ (s : State) (k : KeySlot), k = s.slot (s.get WD_SLOTSEL.SLOT) ∧ s.reads .host = true ∧ k.type < 64) :=
  ⟨⟨({ run with wd := { presArmed := true } } : State), _,
   (({ run with wd := { presArmed := true } } : State).putFlag WD_STAT.PRES_LVL true), rfl, by decide +kernel⟩,
   ⟨run, by decide +kernel⟩,
   ⟨run, by decide +kernel⟩,
   ⟨({ run with wd := { presLen := 5 } } : State), by decide +kernel⟩,
   ⟨(run.putFlag WD_STAT.PRES_OPEN true : State), by decide +kernel⟩,
   ⟨run, by decide +kernel⟩,
   ⟨2147483648, run, by unfold Writable; decide +kernel⟩,
   ⟨0, run, by unfold Writable; decide +kernel⟩,
   ⟨0, (run.putFlag WD_STAT.PRES_OPEN true : State), by unfold Writable; decide +kernel⟩,
   ⟨2147483648, (run.putFlag WD_STAT.PRES_OPEN true : State), by unfold Writable; decide +kernel⟩,
   ⟨run, _, rfl, by decide +kernel⟩⟩

theorem wit_CipherDescriptorsBecomeJobs :
    (∃ (i : Instr) (op : Nat) (o : CipherOp) (s u v : State) (d a b : List Byte), v = u.drefTake (drefAt d 12) ∧ Taken d s u ∧ (i,
    op) ∈ [(.gcmEnc, 0x01), (.gcmDec, 0x02), (.ccmEnc, 0x03), (.ccmDec, 0x04), (.cmacGen, 0x05), (.cmacVer, 0x06), (.sha256, 0x07), (.ecdsaSign, 0x08), (.ecdsaVer, 0x09), (.ecdh, 0x0A), (.kdf, 0x0B), (.random, 0x0C)] ∧
    s.wd.jobs.length < 64 ∧ u8 d 0 = 4 ∧ u8 d 8 = op ∧ cipherOp op = some o ∧ firstFail (cipherForm o d) = mbxOk ∧
    u.drefBytes (drefAt d 12) = some a ∧ v.drefBytes (drefAt d 20) = some b ∧
    firstFail (cipherLens op o d a b ++ [(o.out && !u.outOk (drefAt d 28), (stBad, 0#8))] ++ u.cipherSlot op o d) = mbxOk) ∧
    (∃ (i : Instr) (op : Nat) (o : CipherOp) (c : MbxOut) (s u : State) (d : List Byte), Taken d s u ∧ ((firstFail (cipherForm o d) = c ∧
    c ≠ mbxOk ∨ firstFail (cipherForm o d) = mbxOk ∧ u.drefBytes (drefAt d 12) = none ∧ c = (stBad,
    0#8) ∨ firstFail (cipherForm o d) = mbxOk ∧ c ≠ mbxOk ∧ ∃ a b, u.drefBytes (drefAt d 12) = some a ∧
    (u.drefTake (drefAt d 12)).drefBytes (drefAt d 20) = some b ∧
    firstFail (cipherLens op o d a b ++ [(o.out && !u.outOk (drefAt d 28), (stBad, 0#8))] ++ u.cipherSlot op o d) = c ∨ firstFail (cipherForm o d) = mbxOk ∧
    c = (stBad, 0#8) ∧ (∃ a, u.drefBytes (drefAt d 12) = some a) ∧ (u.drefTake (drefAt d 12)).drefBytes (drefAt d 20) = none)) ∧ (i,
    op) ∈ [(.gcmEnc, 0x01), (.gcmDec, 0x02), (.ccmEnc, 0x03), (.ccmDec, 0x04), (.cmacGen, 0x05), (.cmacVer, 0x06), (.sha256, 0x07), (.ecdsaSign, 0x08), (.ecdsaVer, 0x09), (.ecdh, 0x0A), (.kdf, 0x0B), (.random, 0x0C)] ∧
    s.wd.jobs.length < 64 ∧ u8 d 0 = 4 ∧ u8 d 8 = op ∧ cipherOp op = some o) ∧
    (∃ (s : State) (i : Instr),
    i ∈ [Instr.gcmEnc, .gcmDec, .ccmEnc, .ccmDec, .cmacGen, .cmacVer, .sha256, .ecdsaSign, .ecdsaVer, .ecdh, .kdf, .random] ∧
    64 ≤ s.wd.jobs.length) ∧
    (∃ (s u : State) (d : List Byte), Taken d s u ∧ s.wd.jobs.length < 64 ∧ u8 d 0 = 4 ∧ cipherOp (u8 d 8) = none) :=
  ⟨⟨Instr.random, 12, ((cipherOp 12).get (by decide +kernel) : CipherOp), ((posted run (desc 4 rndBody)) : State),
   ((took run (desc 4 rndBody)) : State), _, ((desc 4 rndBody) : List Byte), ([] : List Byte), ([] : List Byte), rfl,
   taken_posted _ _ (by decide +kernel), by decide +kernel⟩,
   ⟨Instr.random, 12, ((cipherOp 12).get (by decide +kernel) : CipherOp), ((stBad, dValue) : MbxOut),
   ((posted run (desc 4 [12#8])) : State), ((took run (desc 4 [12#8])) : State), ((desc 4 [12#8]) : List Byte),
   taken_posted _ _ (by decide +kernel), Or.inl ⟨by decide +kernel, by decide +kernel⟩, by decide +kernel⟩,
   ⟨({ run with wd := { jobs := List.replicate 64 aJob } } : State), Instr.gcmEnc, .head _, by decide +kernel⟩,
   ⟨((posted run (desc 4 [0x44#8])) : State), ((took run (desc 4 [0x44#8])) : State), ((desc 4 [0x44#8]) : List Byte),
   taken_posted _ _ (by decide +kernel), by decide +kernel⟩⟩

theorem wit_CipherJobsEnterAndComplete :
    (∃ (s : State), s.selftesting = true) ∧
    (∃ (s : State) (j : CipherJob) (o : CipherOp), s.selftesting = false ∧ s.wd.jobs.find? (fun x => !x.entered) = some j ∧
    cipherOp j.op = some o ∧ s.mode = 10) ∧
    (∃ (s : State) (j : CipherJob) (o : CipherOp), s.selftesting = false ∧ s.wd.jobs.find? (fun x => !x.entered) = some j ∧
    cipherOp j.op = some o ∧ s.mode ≠ 10 ∧ o.slot.isSome = true ∧ (s.slot j.slot).version ≠ j.ver) ∧
    (∃ (s : State) (j : CipherJob) (o : CipherOp), s.selftesting = false ∧ s.wd.jobs.find? (fun x => !x.entered) = some j ∧
    cipherOp j.op = some o ∧ s.mode ≠ 10 ∧ ((o.slot.isSome = true → (s.slot j.slot).version = j.ver)) ∧ j.op ≠ 1 ∧ j.op ≠ 3) ∧
    (∃ (s : State) (j : CipherJob) (o : CipherOp) (v t : _), s.selftesting = false ∧ s.wd.jobs.find? (fun x => !x.entered) = some j ∧
    cipherOp j.op = some o ∧ s.mode ≠ 10 ∧ (s.slot j.slot).version = j.ver ∧ ((j.op = 1 ∨ j.op = 3)) ∧ s.takeCounter j.slot = (some v, t)) ∧
    (∃ (s : State) (j : CipherJob) (o : CipherOp) (t : _), s.takeCounter j.slot = (none, t) ∧ s.selftesting = false ∧
    s.wd.jobs.find? (fun x => !x.entered) = some j ∧ cipherOp j.op = some o ∧ s.mode ≠ 10 ∧ (s.slot j.slot).version = j.ver ∧
    ((j.op = 1 ∨ j.op = 3))) ∧
    (∃ (s : State) (j : CipherJob) (v : Byte × Byte), s.selftesting = false ∧ s.wd.jobs.find? (fun x => x.entered) = some j ∧
    j.verdict = some v) ∧
    (∃ (s : State) (j : CipherJob), s.selftesting = false ∧ s.wd.jobs.find? (fun x => x.entered) = some j ∧ j.verdict = none ∧
    j.op = 0x01) ∧
    (∃ (s : State) (j : CipherJob) (p : _), s.selftesting = false ∧ s.wd.jobs.find? (fun x => x.entered) = some j ∧ j.verdict = none ∧
    j.op = 0x02 ∧ gcmDec j.key.bytes (j.st ++ beBytes 4 j.ic) j.inp2 j.inp j.tagLen = some p) ∧
    (∃ (s : State) (j : CipherJob), s.selftesting = false ∧ s.wd.jobs.find? (fun x => x.entered) = some j ∧ j.verdict = none ∧
    j.op = 0x02 ∧ gcmDec j.key.bytes (j.st ++ beBytes 4 j.ic) j.inp2 j.inp j.tagLen = none) ∧
    (∃ (s : State) (j : CipherJob), s.selftesting = false ∧ s.wd.jobs.find? (fun x => x.entered) = some j ∧ j.verdict = none ∧
    j.op = 0x03) ∧
    (∃ (s : State) (j : CipherJob) (p : _), s.selftesting = false ∧ s.wd.jobs.find? (fun x => x.entered) = some j ∧ j.verdict = none ∧
    j.op = 0x04 ∧ ccmDec j.key.bytes (j.st ++ beBytes 4 j.ic ++ leBytes 1 j.slv) j.inp2 j.inp j.tagLen = some p) ∧
    (∃ (s : State) (j : CipherJob), s.selftesting = false ∧ s.wd.jobs.find? (fun x => x.entered) = some j ∧ j.verdict = none ∧
    j.op = 0x04 ∧ ccmDec j.key.bytes (j.st ++ beBytes 4 j.ic ++ leBytes 1 j.slv) j.inp2 j.inp j.tagLen = none) ∧
    (∃ (s : State) (j : CipherJob), s.selftesting = false ∧ s.wd.jobs.find? (fun x => x.entered) = some j ∧ j.verdict = none ∧
    j.op = 0x05) ∧
    (∃ (s : State) (j : CipherJob), s.selftesting = false ∧ s.wd.jobs.find? (fun x => x.entered) = some j ∧ j.verdict = none ∧
    j.op = 0x06) ∧
    (∃ (s : State) (j : CipherJob), s.selftesting = false ∧ s.wd.jobs.find? (fun x => x.entered) = some j ∧ j.verdict = none ∧
    j.op = 0x07) ∧
    (∃ (s : State) (j : CipherJob), s.selftesting = false ∧ s.wd.jobs.find? (fun x => x.entered) = some j ∧ j.verdict = none ∧
    j.op = 0x08) ∧
    (∃ (s : State) (j : CipherJob), s.selftesting = false ∧ s.wd.jobs.find? (fun x => x.entered) = some j ∧ j.verdict = none ∧
    j.op = 0x09 ∧ verifyJob j = mbxOk) ∧
    (∃ (s : State) (j : CipherJob) (c : _), s.selftesting = false ∧ s.wd.jobs.find? (fun x => x.entered) = some j ∧ j.verdict = none ∧
    j.op = 0x09 ∧ verifyJob j = c ∧ c ≠ mbxOk) ∧
    (∃ (s : State) (j : CipherJob), s.selftesting = false ∧ s.wd.jobs.find? (fun x => x.entered) = some j ∧ j.verdict = none ∧
    j.op = 0x0A ∧ ecValid (beNat (j.inp2.take 32)) (beNat (j.inp2.drop 32)) = false) ∧
    (∃ (s : State) (j : CipherJob) (z y : _), s.selftesting = false ∧ s.wd.jobs.find? (fun x => x.entered) = some j ∧ j.verdict = none ∧
    j.op = 0x0A ∧ ecValid (beNat (j.inp2.take 32)) (beNat (j.inp2.drop 32)) = true ∧
    ecMul (beNat j.key.bytes) (some (beNat (j.inp2.take 32), beNat (j.inp2.drop 32))) = some (z, y)) ∧
    (∃ (s : State) (j : CipherJob), s.selftesting = false ∧ s.wd.jobs.find? (fun x => x.entered) = some j ∧ j.verdict = none ∧
    j.op = 0x0B) ∧
    (∃ (s : State) (j : CipherJob), s.selftesting = false ∧ s.wd.jobs.find? (fun x => x.entered) = some j ∧ j.verdict = none ∧
    j.op = 0x0C) ∧
    (∃ (s u : State) (j : CipherJob), u = { s with wd := { s.wd with jobs := s.wd.jobs.filter (fun x => x.tag ≠ j.tag) } } ∧
    j.outKind = 2) ∧
    (∃ (s u : State) (j : CipherJob), u = { s with wd := { s.wd with jobs := s.wd.jobs.filter (fun x => x.tag ≠ j.tag) } } ∧
    j.outKind = 0) ∧
    (∃ (s u : State) (j : CipherJob) (l : List Byte) (r : _),
    u = { s with wd := { s.wd with jobs := s.wd.jobs.filter (fun x => x.tag ≠ j.tag) } } ∧ r = u.putPacket (.engine 4) j.outQ l ∧
    j.outKind = 1 ∧ r.1 = 1) :=
  ⟨⟨(mbx run 9 false 0 0 : State), by decide +kernel⟩,
   ⟨((withJob keyed aJob).put SYS_MODE.MODE 10 : State), aJob, ((cipherOp aJob.op).get (by decide +kernel) : CipherOp), by decide +kernel⟩,
   ⟨(withJob keyed { aJob with slot := 1 } : State), ({ aJob with slot := 1 } : CipherJob),
   ((cipherOp ({ aJob with slot := 1 } : CipherJob).op).get (by decide +kernel) : CipherOp), by decide +kernel⟩,
   ⟨(withJob keyed { aJob with op := 7 } : State), ({ aJob with op := 7 } : CipherJob),
   ((cipherOp ({ aJob with op := 7 } : CipherJob).op).get (by decide +kernel) : CipherOp), by decide +kernel⟩,
   ⟨(withJob keyed { aJob with slot := 1, ver := 1 } : State), ({ aJob with slot := 1, ver := 1 } : CipherJob),
   ((cipherOp ({ aJob with slot := 1, ver := 1 } : CipherJob).op).get (by decide +kernel) : CipherOp),
   ((withJob keyed { aJob with slot := 1, ver := 1 } : State).takeCounter ({ aJob with slot := 1, ver := 1 } : CipherJob).slot).1.get (by decide +kernel),
   ((withJob keyed { aJob with slot := 1, ver := 1 } : State).takeCounter ({ aJob with slot := 1, ver := 1 } : CipherJob).slot).2,
   by decide +kernel⟩,
   ⟨(withJob (keyed.setSlot 1 { keyed.slot 1 with counter := 0xFFFFFFFF, exhausted := true }) { aJob with slot := 1, ver := 1 } : State),
   ({ aJob with slot := 1, ver := 1 } : CipherJob),
   ((cipherOp ({ aJob with slot := 1, ver := 1 } : CipherJob).op).get (by decide +kernel) : CipherOp),
   ((withJob (keyed.setSlot 1 { keyed.slot 1 with counter := 0xFFFFFFFF, exhausted := true }) { aJob with slot := 1, ver := 1 } : State).takeCounter ({ aJob with slot := 1, ver := 1 } : CipherJob).slot).2,
   Prod.ext (by decide +kernel) rfl, by decide +kernel⟩,
   ⟨(withJob run { aJob with entered := true, verdict := some (0x17#8, 0#8) } : State),
   ({ aJob with entered := true, verdict := some (0x17#8, 0#8) } : CipherJob), ((0x17#8, 0#8) : Byte × Byte), by decide +kernel⟩,
   ⟨(withJob run { aJob with entered := true } : State), ({ aJob with entered := true } : CipherJob), by decide +kernel⟩,
   ⟨(withJob run { aJob with entered := true, op := 2, tagLen := 16, st := List.replicate 8 0#8, inp := beBytes 17 0xcbbd33dc74bbc157dee2b3835d177d63f0 } : State),
   ({ aJob with entered := true, op := 2, tagLen := 16, st := List.replicate 8 0#8, inp := beBytes 17 0xcbbd33dc74bbc157dee2b3835d177d63f0 } : CipherJob),
   [5#8], by decide +kernel⟩,
   ⟨(withJob run { aJob with entered := true, op := 2, tagLen := 16, st := List.replicate 8 0#8, inp := List.replicate 17 0#8 } : State),
   ({ aJob with entered := true, op := 2, tagLen := 16, st := List.replicate 8 0#8, inp := List.replicate 17 0#8 } : CipherJob),
   by decide +kernel⟩,
   ⟨(withJob run { aJob with entered := true, op := 3 } : State), ({ aJob with entered := true, op := 3 } : CipherJob), by decide +kernel⟩,
   ⟨(withJob run { aJob with entered := true, op := 4, tagLen := 8, st := List.replicate 8 0#8, inp := beBytes 9 0xd84916aeb4f1ceabe6 } : State),
   ({ aJob with entered := true, op := 4, tagLen := 8, st := List.replicate 8 0#8, inp := beBytes 9 0xd84916aeb4f1ceabe6 } : CipherJob),
   [5#8], by decide +kernel⟩,
   ⟨(withJob run { aJob with entered := true, op := 4, tagLen := 8, st := List.replicate 8 0#8, inp := List.replicate 9 0#8 } : State),
   ({ aJob with entered := true, op := 4, tagLen := 8, st := List.replicate 8 0#8, inp := List.replicate 9 0#8 } : CipherJob),
   by decide +kernel⟩,
   ⟨(withJob run { aJob with entered := true, op := 5 } : State), ({ aJob with entered := true, op := 5 } : CipherJob), by decide +kernel⟩,
   ⟨(withJob run { aJob with entered := true, op := 6 } : State), ({ aJob with entered := true, op := 6 } : CipherJob), by decide +kernel⟩,
   ⟨(withJob run { aJob with entered := true, op := 7 } : State), ({ aJob with entered := true, op := 7 } : CipherJob), by decide +kernel⟩,
   ⟨(withJob run { aJob with entered := true, op := 8 } : State), ({ aJob with entered := true, op := 8 } : CipherJob), by decide +kernel⟩,
   ⟨(withJob run { aJob with entered := true, op := 9, prehash := true, inp := List.replicate 32 0#8, inp2 := aPoint ++ aPoint.take 32 ++ aPoint.take 32 } : State),
   ({ aJob with entered := true, op := 9, prehash := true, inp := List.replicate 32 0#8, inp2 := aPoint ++ aPoint.take 32 ++ aPoint.take 32 } : CipherJob),
   by decide +kernel⟩,
   ⟨(withJob run { aJob with entered := true, op := 9 } : State), ({ aJob with entered := true, op := 9 } : CipherJob), (stBad, dPoint),
   by decide +kernel⟩,
   ⟨(withJob run { aJob with entered := true, op := 10 } : State), ({ aJob with entered := true, op := 10 } : CipherJob),
   by decide +kernel⟩,
   ⟨(withJob run { aJob with entered := true, op := 10, key := { key := 1, type := 3 }, inp2 := aPoint } : State),
   ({ aJob with entered := true, op := 10, key := { key := 1, type := 3 }, inp2 := aPoint } : CipherJob), beNat (aPoint.take 32),
   beNat (aPoint.drop 32), by decide +kernel⟩,
   ⟨(withJob run { aJob with entered := true, op := 11 } : State), ({ aJob with entered := true, op := 11 } : CipherJob),
   by decide +kernel⟩,
   ⟨(withJob run { aJob with entered := true, op := 12 } : State), ({ aJob with entered := true, op := 12 } : CipherJob),
   by decide +kernel⟩,
   ⟨run, _, ({ aJob with outKind := 2 } : CipherJob), rfl, by decide +kernel⟩,
   ⟨run, _, aJob, rfl, by decide +kernel⟩,
   ⟨emptyQ, _, ({ aJob with outKind := 1 } : CipherJob), ([1#8] : List Byte), _, rfl, rfl, by decide +kernel⟩⟩

theorem wit_ResetsSuppliesAndClocks :
    (∃ (role test : Bool) (s : State) (u : _), u = (State.latchStraps { s with iron := { s.iron with held := false } } role test) ∧
    s.iron.viron = true ∧ s.iron.held = true ∧ u.mode = 0 ∧ u.iron.asleep = false ∧
    ((u.flag PWR_STAT.MAINS = true ∨ u.flag PWR_CFG.BOOT_ANY = true))) ∧
    (∃ (role test : Bool) (s : State) (u : _), u = (State.latchStraps { s with iron := { s.iron with held := false } } role test) ∧
    s.iron.viron = true ∧ s.iron.held = true ∧ u.flag PWR_STAT.MAINS = false ∧ u.flag PWR_CFG.BOOT_ANY = false) ∧
    (∃ (c : Nat) (s : State), s.iron.boot = some c ∧ s.iron.held = false) ∧
    (∃ (s : State), ((s.iron.boot = none ∨ s.iron.held = true))) ∧
    (∃ (s : State), s.iron.viron = true ∧ s.flag CLK_STAT.X32_OK = false) ∧
    (∃ (s : State), s.flag CLK_STAT.X32_OK = true) ∧
    (∃ (s : State), s.awake = true ∧ s.pllHeld = false ∧ s.asksClock = false) ∧
    (∃ (s : State), (s.pllHeld = true ∨ s.asksClock = true)) :=
  ⟨⟨false, false, ({ (run.put SYS_MODE.MODE 0).putFlag PWR_STAT.MAINS true with iron := { viron := true, held := true } } : State), _,
   rfl, by decide +kernel⟩,
   ⟨false, false, run, _, rfl, by decide +kernel⟩,
   ⟨1, ({ run with iron := { boot := some 1 } } : State), by decide +kernel⟩,
   ⟨run, by decide +kernel⟩,
   ⟨((run.putFlag CLK_STAT.X32_OK false) : State), by decide +kernel⟩,
   ⟨((run.putFlag CLK_STAT.X32_OK true) : State), by decide +kernel⟩,
   ⟨(State.reset.put SYS_MODE.MODE 4 : State), by decide +kernel⟩,
   ⟨run, by decide +kernel⟩⟩

theorem wit_ModesChangeAsTheTableSays :
    (∃ (who : Accessor) (v : Word) (s : State) (u : _), u = s.merge SYS_CTL 0x40000000 v ∧ s.mode ≠ 7 ∧ s.mode ≠ 8 ∧
    Writable s who SYS_CTL) ∧
    (∃ (who : Accessor) (v : Word) (s : State) (u : _), u = s.merge SYS_CTL 0x40000000 v ∧ (s.mode = 7 ∨ s.mode = 8) ∧
    Writable s who SYS_CTL) ∧
    (∃ (s : State), s.mode = 6 ∧ s.iron.lossAt = some s.iron.rtc) ∧
    (∃ (s : State) (t : Nat), t = s.mode ∧ t < 16 ∧ ((s.mode = 6 → s.iron.lossAt ≠ some s.iron.rtc))) ∧
    (∃ (s : State) (t : Nat), t < 16 ∧ ((s.mode = 6 → s.iron.lossAt ≠ some s.iron.rtc)) ∧ t ≠ s.mode ∧ (s.mode,
    t) ∉ [(4, 5), (4, 0), (4, 1), (5, 4), (5, 0), (5, 1), (6, 0), (6, 1), (9, 2)]) ∧
    (∃ (s : State) (t : Nat), t = 5 ∧ t < 16 ∧ ((s.mode = 6 → s.iron.lossAt ≠ some s.iron.rtc)) ∧ s.mode = 4 ∧ s.hot = true) ∧
    (∃ (s : State) (t : Nat), t = 5 ∧ t < 16 ∧ ((s.mode = 6 → s.iron.lossAt ≠ some s.iron.rtc)) ∧ s.mode = 4 ∧ s.hot = false) ∧
    (∃ (s : State) (t : Nat), t = 4 ∧ t < 16 ∧ ((s.mode = 6 → s.iron.lossAt ≠ some s.iron.rtc)) ∧ s.mode = 5) ∧
    (∃ (s : State) (t : Nat), t < 16 ∧ ((s.mode = 6 → s.iron.lossAt ≠ some s.iron.rtc)) ∧ 4 ≤ s.mode ∧ s.mode ≤ 6 ∧ t ≤ 1) ∧
    (∃ (s : State) (t : Nat), t = 2 ∧ t < 16 ∧ ((s.mode = 6 → s.iron.lossAt ≠ some s.iron.rtc)) ∧ s.mode = 9) ∧
    (∃ (m c : Nat), m < 16 ∧ c < 32) ∧
    (∃ (s : State), s.iron.viron = true) ∧
    (∃ (s : State), s.seqMode = false) ∧
    (∃ (c : Nat) (s : State), (s.flag PWR_STAT.MAINS = false ∨ s.lossDue c = false)) ∧
    (∃ (c : Nat) (s u v : State), u = s.putFlag PWR_STAT.MAINS false ∧
    v = State.endLine (State.setEvt { u with iron := { u.iron with lost := true, run := 0, halves := [], lastEdge := none } } PWR_EVT.MAINS_LOST) stMainsLost ∧
    s.flag PWR_STAT.MAINS = true ∧ s.lossDue c = true ∧ s.mode ∈ [4, 5, 7, 8]) ∧
    (∃ (s : State), s.mode = 6 ∧ s.outDue = true ∧ s.get PWR_CFG.OUT_SLEEP = 1) ∧
    (∃ (s : State), s.mode = 6 ∧ s.outDue = true ∧ s.get PWR_CFG.OUT_SLEEP = 2) ∧
    (∃ (s : State), (s.mode ≠ 6 ∨ s.outDue = false)) ∧
    (∃ (x : Int) (s : State) (u : _), u = s.putInt PWR_TEMP.TEMP x ∧ s.awake = true ∧ -128 ≤ x ∧ x ≤ 127 ∧ u.hot = false) ∧
    (∃ (x : Int) (s : State) (u : _), u = s.putInt PWR_TEMP.TEMP x ∧ s.awake = true ∧ -128 ≤ x ∧ x ≤ 127 ∧ u.hot = true ∧ s.mode = 5) ∧
    (∃ (x : Int) (s : State) (u : _), u = s.putInt PWR_TEMP.TEMP x ∧ s.awake = true ∧ -128 ≤ x ∧ x ≤ 127 ∧ u.hot = true ∧
    s.mode ∉ [5, 7, 8]) ∧
    (∃ (s : State), s.alarmNow = true) ∧
    (∃ (s : State), s.alarmNow = false) ∧
    (∃ (s : State) (u : _), u = (s.put WD_STAT.STATE 1).setEvt WD_EVT.SELFTEST_DONE ∧ s.mode = 2 ∧ s.get WD_STAT.STATE = 0 ∧
    s.fab.due = none) ∧
    (∃ (s : State) (u src n : _), u = (s.put WD_STAT.STATE 1).setEvt WD_EVT.SELFTEST_DONE ∧ s.mode = 2 ∧ s.get WD_STAT.STATE = 0 ∧
    s.fab.due = some (src, n)) ∧
    (∃ (c : QCause) (s : State), ((7 ≤ c.val ∧ c.val ≤ 10 ∧ (s.running = true ∨ s.mode = 2 ∨ s.mode = 3)) ∨ ((c.val ≤ 6 ∨ 11 ≤ c.val) ∧
    1 ≤ c.val ∧ c.val ≤ 12 ∧ s.mode = 2 ∧ s.get WD_STAT.STATE = 0))) ∧
    (∃ (c : Nat) (s : State) (u : _), u = (((s.put WD_STAT.QCAUSE c).put WD_STAT.STATE 2).setEvt WD_EVT.QUARANTINE).stopJobs ∧
    ((u.running = true ∨ u.mode = 2 ∨ u.mode = 3))) :=
  ⟨⟨.host, 0, run, _, rfl, by unfold Writable; decide +kernel⟩,
   ⟨.host, 0, (run.put SYS_MODE.MODE 7 : State), _, rfl, by unfold Writable; decide +kernel⟩,
   ⟨({ run.put SYS_MODE.MODE 6 with iron := { run.iron with lossAt := some run.iron.rtc } } : State), by decide +kernel⟩,
   ⟨run, _, rfl, by decide +kernel⟩,
   ⟨run, 2, by decide +kernel⟩,
   ⟨(run.put PWR_TEMP.LIMIT 0 : State), _, rfl, by decide +kernel⟩,
   ⟨((run.put SYS_MODE.MODE 4) : State), _, rfl, by decide +kernel⟩,
   ⟨((run.put SYS_MODE.MODE 5) : State), _, rfl, by decide +kernel⟩,
   ⟨run, 0, by decide +kernel⟩,
   ⟨((run.put SYS_MODE.MODE 9) : State), _, rfl, by decide +kernel⟩,
   ⟨0, 0, by decide +kernel⟩,
   ⟨run, by decide +kernel⟩,
   ⟨((run.put SYS_MODE.MODE 1) : State), by decide +kernel⟩,
   ⟨0, run, by decide +kernel⟩,
   ⟨0, ((run.putFlag PWR_STAT.MAINS true) : State), _, _, rfl, rfl, by decide +kernel⟩,
   ⟨({ (run.put SYS_MODE.MODE 6).put PWR_CFG.OUT_SLEEP 1 with iron := { run.iron with rtc := 2 ^ 32, outSince := 0 } } : State),
   by decide +kernel⟩,
   ⟨({ (run.put SYS_MODE.MODE 6).put PWR_CFG.OUT_SLEEP 2 with iron := { run.iron with rtc := 2 ^ 32, outSince := 0 } } : State),
   by decide +kernel⟩,
   ⟨run, by decide +kernel⟩,
   ⟨0, run, _, rfl, by decide +kernel⟩,
   ⟨0, ((run.put SYS_MODE.MODE 5).put PWR_TEMP.LIMIT 0 : State), _, rfl, by decide +kernel⟩,
   ⟨0, (run.put PWR_TEMP.LIMIT 0 : State), _, rfl, by decide +kernel⟩,
   ⟨({ run with iron := { alarm := true } } : State), by decide +kernel⟩,
   ⟨run, by decide +kernel⟩,
   ⟨(((run.put SYS_MODE.MODE 2).put WD_STAT.STATE 0) : State), _, rfl, by decide +kernel⟩,
   ⟨({ (run.put SYS_MODE.MODE 2).put WD_STAT.STATE 0 with fab := { run.fab with due := some (1, 4) } } : State), _, 1, 4, rfl,
   by decide +kernel⟩,
   ⟨7, run, by decide +kernel⟩,
   ⟨0, run, _, rfl, by decide +kernel⟩⟩

theorem wit_AlloyLinkComesUpAndIsLost :
    (∃ (b : Beat) (s : State) (u : _), u = State.put { s with al := { s.al with beats := min 16 (s.al.beats + 1) } } AL_STAT.MISSES 0 ∧
    s.alloyOn = true ∧ s.pairs b = false) ∧
    (∃ (b : Beat) (s : State) (u : _), u = State.put { s with al := { s.al with beats := min 16 (s.al.beats + 1) } } AL_STAT.MISSES 0 ∧
    s.alloyOn = true ∧ s.pairs b = true ∧ s.linkUp = true ∧ s.role = 2) ∧
    (∃ (b : Beat) (s : State) (u : _), u = State.put { s with al := { s.al with beats := min 16 (s.al.beats + 1) } } AL_STAT.MISSES 0 ∧
    s.alloyOn = true ∧ s.pairs b = true ∧ s.linkUp = true ∧ s.role ≠ 2) ∧
    (∃ (b : Beat) (s : State) (u : _), u = State.put { s with al := { s.al with beats := min 16 (s.al.beats + 1) } } AL_STAT.MISSES 0 ∧
    s.alloyOn = true ∧ s.pairs b = true ∧ s.linkUp = false ∧ ((s.al.beats < 15 ∨ b.heard = false))) ∧
    (∃ (b : Beat) (s : State) (u : _), u = State.put { s with al := { s.al with beats := min 16 (s.al.beats + 1) } } AL_STAT.MISSES 0 ∧
    s.alloyOn = true ∧ s.pairs b = true ∧ s.linkUp = false ∧ 15 ≤ s.al.beats ∧ b.heard = true) ∧
    (∃ (s : State) (u : _), u = State.put { s with al := { s.al with beats := 0 } } AL_STAT.MISSES (min 8 (s.get AL_STAT.MISSES + 1)) ∧
    s.alloyOn = true ∧ s.get AL_STAT.MISSES < 7) ∧
    (∃ (s : State) (u : _), u = State.put { s with al := { s.al with beats := 0 } } AL_STAT.MISSES (min 8 (s.get AL_STAT.MISSES + 1)) ∧
    s.alloyOn = true ∧ 7 ≤ s.get AL_STAT.MISSES) ∧
    (∃ (n : Nat) (s : State), s.alloyOn = true ∧ n < max 1 (s.get AL_CFG.CRC_BURST)) ∧
    (∃ (n : Nat) (s : State), s.alloyOn = true ∧ max 1 (s.get AL_CFG.CRC_BURST) ≤ n) ∧
    (∃ (c : Nat) (s u : State), u = ((s.put AL_STAT.LINK 1).put AL_STAT.LOST_CAUSE c).setEvt AL_EVT.LINK_LOST ∧ s.linkUp = true ∧
    s.follower = false) ∧
    (∃ (c : Nat) (s u : State), u = ((s.put AL_STAT.LINK 1).put AL_STAT.LOST_CAUSE c).setEvt AL_EVT.LINK_LOST ∧ s.linkUp = true ∧
    s.follower = true) ∧
    (∃ (s : State), s.leads = true ∧ s.linkUp = true ∧ s.al.healing = false ∧ s.markDue = true) ∧
    (∃ (s : State), s.leads = true ∧ s.linkUp = true ∧ s.al.healing = false ∧ s.markDue = false) ∧
    (∃ (s : State), s.linkUp = true ∧ s.al.healing = false ∧ s.follower = true) ∧
    (∃ (c : Word) (s : State), s.linkUp = true ∧ s.al.healing = false ∧ s.follower = false ∧ s.leads = true ∧ s.al.lastMark = some c) ∧
    (∃ (c : Word) (s : State), s.linkUp = true ∧ s.al.healing = false ∧ s.follower = false ∧ s.al.lastMark ≠ some c) :=
  ⟨⟨aBeat, (run.putFlag AL_CFG.ENABLE true : State), _, rfl, by decide +kernel⟩,
   ⟨({ aBeat with entries := 4 } : Beat), (((run.putFlag AL_CFG.ENABLE true).put AL_STAT.LINK 2).put AL_STAT.ROLE 2 : State), _, rfl,
   by decide +kernel⟩,
   ⟨({ aBeat with entries := 4 } : Beat), ((run.putFlag AL_CFG.ENABLE true).put AL_STAT.LINK 2 : State), _, rfl, by decide +kernel⟩,
   ⟨({ aBeat with entries := 4 } : Beat), (run.putFlag AL_CFG.ENABLE true : State), _, rfl, by decide +kernel⟩,
   ⟨({ aBeat with entries := 4 } : Beat), ({ run.putFlag AL_CFG.ENABLE true with al := { beats := 15 } } : State), _, rfl,
   by decide +kernel⟩,
   ⟨(run.putFlag AL_CFG.ENABLE true : State), _, rfl, by decide +kernel⟩,
   ⟨((run.putFlag AL_CFG.ENABLE true).put AL_STAT.MISSES 7 : State), _, rfl, by decide +kernel⟩,
   ⟨0, (run.putFlag AL_CFG.ENABLE true : State), by decide +kernel⟩,
   ⟨300, (run.putFlag AL_CFG.ENABLE true : State), by decide +kernel⟩,
   ⟨0, ((run.put AL_STAT.LINK 2) : State), _, rfl, by decide +kernel⟩,
   ⟨0, ((((run.put AL_STAT.LINK 2).put AL_STAT.ROLE 2).put SYS_MODE.MODE 7) : State), _, rfl, by decide +kernel⟩,
   ⟨((((run.put AL_STAT.ROLE 1).put SYS_MODE.MODE 7).put AL_STAT.LINK 2) : State), by decide +kernel⟩,
   ⟨({ pairOf run 1 7 with al := { lastMark := some 0 } } : State), by decide +kernel⟩,
   ⟨((((run.put AL_STAT.LINK 2).put AL_STAT.ROLE 2).put SYS_MODE.MODE 7) : State), by decide +kernel⟩,
   ⟨0, ({ pairOf run 1 7 with al := { lastMark := some 0 } } : State), by decide +kernel⟩,
   ⟨0, ((run.put AL_STAT.LINK 2) : State), by decide +kernel⟩⟩

theorem wit_PairSharesWorkAndHeals :
    (∃ (i : Nat) (s : State), s.paired = true ∧ s.linkUp = true ∧ i < s.entries ∧ s.al.healing = false) ∧
    (∃ (i : Nat) (s : State), s.paired = true ∧ s.linkUp = true ∧ i < s.entries ∧ s.al.healing = true) ∧
    (∃ (d : List Byte) (s : State) (i : _), i = u16 d 8 - 1 ∧ s.follower = true ∧ s.linkUp = true ∧ u8 d 0 = 1 ∧
    s.ownLane (s.entLane i) = none) ∧
    (∃ (d : List Byte) (s : State) (i n : _), i = u16 d 8 - 1 ∧ s.follower = true ∧ s.linkUp = true ∧ u8 d 0 = 1 ∧
    s.ownLane (s.entLane i) = some n ∧ s.sendForm d = false) ∧
    (∃ (d : List Byte) (s : State) (i n : _), i = u16 d 8 - 1 ∧ s.follower = true ∧ s.linkUp = true ∧ u8 d 0 = 1 ∧
    s.ownLane (s.entLane i) = some n ∧ s.sendForm d = true ∧ s.entState i = 2 ∧ s.flag (LN_TXCFG.TX_EN n) = true) ∧
    (∃ (d : List Byte) (s : State) (l : _),
    l = ((List.range 4).filter (fun p => bit (u8 d 8) (4 + p))).map (fun p => p * 64 + u8 d 12 % 64) ∧ s.follower = true ∧
    s.linkUp = true ∧ u8 d 0 = 2) ∧
    (∃ (r : List Byte) (s : State) (c : _), c = (r.drop 8).take 32 ∧ s.linkUp = true ∧ s.leads = true ∧ r ≠ [] ∧ u8 r 0 = 0 ∧
    s.al.handoffs.contains (u16 c 0 % 1024, u16 r 2) = true ∧ u16 r 2 ∉ s.al.fenced) ∧
    (∃ (r : List Byte) (s : State) (c : _), c = (r.drop 8).take 32 ∧ s.linkUp = true ∧ s.leads = true ∧ r ≠ [] ∧ u8 r 0 = 0 ∧
    (s.al.handoffs.contains (u16 c 0 % 1024, u16 r 2) = false ∨ u16 r 2 ∈ s.al.fenced)) ∧
    (∃ (r : List Byte) (s : State) (c : _), c = (r.drop 8).take 32 ∧ s.linkUp = true ∧ s.leads = true ∧ r ≠ [] ∧ u8 r 0 ≠ 0 ∧ u8 c 0 ≠ 1) ∧
    (∃ (r : List Byte) (s : State) (c p : _), c = (r.drop 8).take 32 ∧ p = s.putPacket (.engine 0) (u32 c 4 % 1024) (r.drop 40) ∧
    s.linkUp = true ∧ s.leads = true ∧ r ≠ [] ∧ u8 r 0 ≠ 0 ∧ u8 c 0 = 1 ∧ s.al.healing = false) ∧
    (∃ (s : State), s.linkUp = true ∧ s.leads = true ∧ s.al.healing = true) ∧
    (∃ (r : List Byte) (s : State), r = s.bufHead ∧ s.linkUp = true ∧ s.island = true ∧ s.al.healing = true ∧ r ≠ []) ∧
    (∃ (r : List Byte) (s : State), r = [] ∧ s.linkUp = true ∧ s.island = true ∧ s.al.healing = true) ∧
    (∃ (part : Nat), part < 8 ∧ part ≠ 6) ∧
    (∃ (part : Nat), 8 < part) ∧
    (∃ (v : Word) (s : State), s.island = true ∧ s.presence = true ∧ bit v.toNat 31 = true) ∧
    (∃ (v : Word) (s : State), s.island = true ∧ bit v.toNat 31 = false ∧ s.flag AL_CTL.PROMOTE = false) :=
  ⟨⟨0, (pairOf run 1 7 : State), by decide +kernel⟩,
   ⟨0, ({ pairOf run 1 7 with al := { healing := true } } : State), by decide +kernel⟩,
   ⟨(desc 1 [1#8] : List Byte), (pairOf run 2 7 : State), _, rfl, by decide +kernel⟩,
   ⟨(desc 1 [1#8, 0#8, 128#8] : List Byte), (pairOf (keyed.putEntry 0 32 (leBytes 2 (2048 + 512 + 256))) 2 7 : State), _,
   ((pairOf (keyed.putEntry 0 32 (leBytes 2 (2048 + 512 + 256))) 2 7 : State).ownLane ((pairOf (keyed.putEntry 0 32 (leBytes 2 (2048 + 512 + 256))) 2 7 : State).entLane (u16 (desc 1 [1#8, 0#8, 128#8] : List Byte) 8 - 1))).get (by decide +kernel),
   rfl, by decide +kernel⟩,
   ⟨(desc 1 [1#8, 0#8] : List Byte),
   ((pairOf (keyed.putEntry 0 32 (leBytes 2 (2048 + 512 + 256))) 2 7).putFlag (LN_TXCFG.TX_EN 0) true : State), _,
   (((pairOf (keyed.putEntry 0 32 (leBytes 2 (2048 + 512 + 256))) 2 7).putFlag (LN_TXCFG.TX_EN 0) true : State).ownLane (((pairOf (keyed.putEntry 0 32 (leBytes 2 (2048 + 512 + 256))) 2 7).putFlag (LN_TXCFG.TX_EN 0) true : State).entLane (u16 (desc 1 [1#8, 0#8] : List Byte) 8 - 1))).get (by decide +kernel),
   rfl, by decide +kernel⟩,
   ⟨(desc 2 [] : List Byte), (pairOf run 2 7 : State), _, rfl, by decide +kernel⟩,
   ⟨(List.replicate 40 0#8 : List Byte), ({ pairOf run 1 7 with al := { handoffs := [(0, 0)] } } : State), _, rfl, by decide +kernel⟩,
   ⟨(List.replicate 40 0#8 : List Byte), (pairOf run 1 7 : State), _, rfl, by decide +kernel⟩,
   ⟨(1#8 :: List.replicate 39 0#8 : List Byte), (pairOf run 1 7 : State), _, rfl, by decide +kernel⟩,
   ⟨(1#8 :: List.replicate 7 0#8 ++ 1#8 :: List.replicate 31 0#8 : List Byte), (pairOf run 1 7 : State), _, _, rfl, rfl,
   by decide +kernel⟩,
   ⟨({ pairOf run 1 7 with al := { healing := true } } : State), by decide +kernel⟩,
   ⟨_,
   ({ pairOf ((packed.setBytes 0x0112901E [1#8, 0x80#8]).setBytes 0x01129000 [7#8]) 2 8 with al := { healing := true }, fab := { run.fab with bufq := some 0 } } : State),
   rfl, by decide +kernel⟩,
   ⟨_, ({ pairOf run 2 8 with al := { healing := true } } : State), rfl, by decide +kernel⟩,
   ⟨0, by decide +kernel⟩,
   ⟨9, by decide +kernel⟩,
   ⟨2147483648, ((pairOf run 2 8).putFlag WD_STAT.PRES_OPEN true : State), by decide +kernel⟩,
   ⟨0, ((((run.put AL_STAT.ROLE 2).put SYS_MODE.MODE 8).putFlag AL_CTL.PROMOTE false) : State), by decide +kernel⟩⟩

theorem wit_CountersCountAndAreCopied :
    (∃ (k : CtrN) (s : State), (s.flag PM_CTL.FREEZE = true ∨ s.pmValid k.val = false)) ∧
    (∃ (k : CtrN) (n d : Nat) (s : State),
    d = (if s.pmLevelEvent k.val = true then (if s.pmHit k.val = true then min 1 n else 0) else n) ∧ s.flag PM_CTL.FREEZE = false ∧
    s.pmValid k.val = true) ∧
    (∃ (who : Accessor) (v : Word) (s : State), bit v.toNat 31 = true ∧ Writable s who PM_SNAP) ∧
    (∃ (who : Accessor) (v : Word) (s : State), bit v.toNat 31 = false ∧ Writable s who PM_SNAP) ∧
    (∃ (who : Accessor) (k : CtrN) (s : State), Writable s who (PM_CTR_LO k.val) ∧ Writable s who (PM_CTR_HI k.val)) :=
  ⟨⟨0, run, by decide +kernel⟩,
   ⟨0, 0, _, (run.put (PM_SEL.EVENT 0) 1 : State), rfl, by decide +kernel⟩,
   ⟨.host, 2147483648, run, by unfold Writable; decide +kernel⟩,
   ⟨.host, 0, run, by unfold Writable; decide +kernel⟩,
   ⟨.host, 0, run, by unfold Writable; decide +kernel⟩⟩

theorem wit_RadioIsConfiguredAndSends :
    (∃ (who : Accessor) (v : Word) (s : State) (u : _), u = s.merge RF_CFG 0x7FFF7F7F v ∧ s.refusedFields who RF_CFG = [] ∧
    bit v.toNat 31 = true ∧ u.rfBadCfg = true ∧ Writable s who RF_CFG) ∧
    (∃ (who : Accessor) (v : Word) (s : State) (u : _), u = s.merge RF_CFG 0x7FFF7F7F v ∧ s.refusedFields who RF_CFG = [] ∧
    bit v.toNat 31 = true ∧ u.rfBadCfg = false ∧ Writable s who RF_CFG) ∧
    (∃ (who : Accessor) (v : Word) (s : State) (u : _), u = s.merge RF_CFG 0x7FFF7F7F v ∧ s.refusedFields who RF_CFG = [] ∧
    bit v.toNat 31 = false ∧ Writable s who RF_CFG) ∧
    (∃ (who : Accessor) (c : LinkC) (v : Word) (s : State) (u w : _), u = s.merge (RF_LCFG c.val) 0x600000FF v ∧
    w = u.putFlag (RF_LCFG.ENABLE c.val) true ∧ s.flag (RF_LCFG.ENABLE c.val) = false ∧ bit v.toNat 31 = true ∧
    ((u.rfRole c.val ≠ 0 ∨ s.get RF_CFG.PROFILE ≠ 2)) ∧ Writable s who (RF_LCFG c.val)) ∧
    (∃ (who : Accessor) (c : LinkC) (v : Word) (s : State), s.flag (RF_LCFG.ENABLE c.val) = true ∧ bit v.toNat 31 = true ∧
    Writable s who (RF_LCFG c.val)) ∧
    (∃ (who : Accessor) (c : LinkC) (v : Word) (s : State), s.flag (RF_LCFG.ENABLE c.val) = true ∧ bit v.toNat 31 = false ∧
    s.rfState c.val = 4 ∧ Writable s who (RF_LCFG c.val)) ∧
    (∃ (who : Accessor) (c : LinkC) (v : Word) (s : State) (m : _), m = s.rfMap c.val / 2 ^ 32 * 2 ^ 32 + v.toNat ∧ s.rfRole c.val = 0 ∧
    s.rfThinMap m = true ∧ Writable s who (RF_LMAP_LO c.val)) ∧
    (∃ (who : Accessor) (c : LinkC) (v : Word) (s : State) (m : _), m = s.rfMap c.val / 2 ^ 32 * 2 ^ 32 + v.toNat ∧ s.rfRole c.val = 0 ∧
    s.rfThinMap m = false ∧ s.rfLinked c.val = true ∧ Writable s who (RF_LMAP_LO c.val)) ∧
    (∃ (who : Accessor) (c : LinkC) (v : Word) (s : State) (m : _), m = s.rfMap c.val / 2 ^ 32 * 2 ^ 32 + v.toNat ∧ s.rfRole c.val = 0 ∧
    s.rfThinMap m = false ∧ s.rfLinked c.val = false ∧ Writable s who (RF_LMAP_LO c.val)) ∧
    (∃ (who : Accessor) (c : LinkC) (s : State), s.rfRole c.val ≠ 0 ∧ Writable s who (RF_LMAP_LO c.val)) ∧
    (∃ (c : LinkC) (s : State) (m : _), (s.rlink c.val).map = some m ∧ s.rfLinked c.val = true ∧ s.rfRole c.val = 0 ∧
    (s.rlink c.val).agreed = false ∧ (s.get (RF_LSTAT.EVENT c.val) + 65537 - m.1) % 65536 < 32768) ∧
    (∃ (c : LinkC) (s : State) (m : _), (s.rlink c.val).map = some m ∧ s.rfLinked c.val = true ∧ s.rfRole c.val = 0 ∧
    (s.rlink c.val).agreed = false ∧ 32768 ≤ (s.get (RF_LSTAT.EVENT c.val) + 65537 - m.1) % 65536) ∧
    (∃ (c : LinkC) (s : State), ((s.rlink c.val).map = none ∨ (s.rlink c.val).agreed = true)) ∧
    (∃ (s : State) (u d b c : _), c = u8 d 9 ∧ Taken d s u ∧ (u.flag RF_CFG.ENABLE = false ∨ u.rfLinked c = false ∨ (∃ air,
    air = u.rfAir (b.length + (if b = [] then 18 else 31)) (bit (u8 d 10) 1) ∧ (u.rfTooLong c air = true ∨ u.rfLimit < air))) ∧
    u8 d 0 = 5 ∧ u8 d 8 = 0 ∧ radioForm d = true ∧ u.drefBytes (drefAt d 12) = some b ∧ b.length ≤ 224) ∧
    (∃ (s : State) (u d b c n air : _), c = u8 d 9 ∧ n = b.length + (if b = [] then 18 else 31) ∧ air = u.rfAir n (bit (u8 d 10) 1) ∧
    Taken d s u ∧ u8 d 0 = 5 ∧ u8 d 8 = 0 ∧ radioForm d = true ∧ u.drefBytes (drefAt d 12) = some b ∧ b.length ≤ 224 ∧
    u.flag RF_CFG.ENABLE = true ∧ u.rfLinked c = true ∧ u.rfTooLong c air = false ∧ air ≤ u.rfLimit) ∧
    (∃ (s : State) (u d : _), Taken d s u ∧ u8 d 0 = 5 ∧ radioForm d = false) ∧
    (∃ (s : State) (u d b air : _), air = u.rfAir (b.length + 37) (bit (u8 d 10) 1) ∧ Taken d s u ∧ u8 d 0 = 5 ∧ u8 d 8 = 1 ∧
    radioForm d = true ∧ u.drefBytes (drefAt d 12) = some b ∧ b.length + 37 ≤ 255 ∧
    (u.flag RF_CFG.ENABLE = false ∨ u.rfLimit < air + u.rfReserve)) ∧
    (∃ (s : State) (u d b air : _), air = u.rfAir (b.length + 37) (bit (u8 d 10) 1) ∧ Taken d s u ∧ u8 d 0 = 5 ∧ u8 d 8 = 1 ∧
    radioForm d = true ∧ u.drefBytes (drefAt d 12) = some b ∧ b.length + 37 ≤ 255 ∧ u.flag RF_CFG.ENABLE = true ∧
    air + u.rfReserve ≤ u.rfLimit) ∧
    (∃ (who : Accessor) (v : Word) (s : State), bit v.toNat 31 = true ∧ Writable s who LK_EPOCH) ∧
    (∃ (who : Accessor) (v : Word) (s : State), bit v.toNat 31 = false ∧ Writable s who LK_EPOCH) ∧
    (∃ (s : State), s.flag RF_CFG.ENABLE = false ∧ s.linkUp = false) :=
  ⟨⟨.host, 2147483648, (run.put SYS_MODE.MODE 3 : State), _, rfl, by unfold Writable; decide +kernel⟩,
   ⟨.host, 0xC0000000, (aired.put SYS_MODE.MODE 3 : State), _, rfl, by unfold Writable; decide +kernel⟩,
   ⟨.host, 0, (run.put SYS_MODE.MODE 3 : State), _, rfl, by unfold Writable; decide +kernel⟩,
   ⟨.host, 0, 2147483648, ((run.putFlag (RF_LCFG.ENABLE (0 : LinkC).val) false) : State), _, _, rfl, rfl,
   by unfold Writable; decide +kernel⟩,
   ⟨.host, 0, 2147483648, ((run.putFlag (RF_LCFG.ENABLE (0 : LinkC).val) true) : State), by unfold Writable; decide +kernel⟩,
   ⟨.host, 0, 0, (((run.putFlag (RF_LCFG.ENABLE (0 : LinkC).val) true).put (RF_LCFG.STATE 0) 4) : State),
   by unfold Writable; decide +kernel⟩,
   ⟨.host, 0, 0, ((run.put (RF_LCFG.ROLE 0) 0) : State), _, rfl, by unfold Writable; decide +kernel⟩,
   ⟨.host, 0, 15, airedLead, _, rfl, by unfold Writable; decide +kernel⟩,
   ⟨.host, 0, 15, (airedLead.put (RF_LCFG.STATE 0) 1 : State), _, rfl, by unfold Writable; decide +kernel⟩,
   ⟨.host, 0, ((run.put (RF_LCFG.ROLE 0) 1) : State), by unfold Writable; decide +kernel⟩,
   ⟨0, (airedLead.modRlink 0 (fun x => { x with map := some (1, 15) }) : State), (1, 15), by decide +kernel⟩,
   ⟨0, (airedLead.modRlink 0 (fun x => { x with map := some (8, 15) }) : State),
   (((airedLead.modRlink 0 (fun x => { x with map := some (8, 15) }) : State).rlink (0 : LinkC).val).map).get (by decide +kernel),
   by decide +kernel⟩,
   ⟨0, run, by decide +kernel⟩,
   ⟨((posted run (desc 5 rsBody)) : State), (took run (desc 5 rsBody)), (desc 5 rsBody), [0#8], _, rfl,
   taken_posted _ _ (by decide +kernel), Or.inl (by decide +kernel), by decide +kernel⟩,
   ⟨((posted aired (desc 5 rsBody)) : State), (took aired (desc 5 rsBody)), (desc 5 rsBody), [0#8], _, _, _, rfl, rfl, rfl,
   taken_posted _ _ (by decide +kernel), by decide +kernel⟩,
   ⟨((posted run (desc 5 [0#8, 0#8, 9#8])) : State), (took run (desc 5 [0#8, 0#8, 9#8])), (desc 5 [0#8, 0#8, 9#8]),
   taken_posted _ _ (by decide +kernel), by decide +kernel⟩,
   ⟨((posted run (desc 5 rsFlood)) : State), (took run (desc 5 rsFlood)), (desc 5 rsFlood), [0#8], _, rfl,
   taken_posted _ _ (by decide +kernel), by decide +kernel⟩,
   ⟨((posted aired (desc 5 rsFlood)) : State), (took aired (desc 5 rsFlood)), (desc 5 rsFlood), [0#8], _, rfl,
   taken_posted _ _ (by decide +kernel), by decide +kernel⟩,
   ⟨.host, 2147483648, run, by unfold Writable; decide +kernel⟩,
   ⟨.host, 0, run, by unfold Writable; decide +kernel⟩,
   ⟨((run.putFlag RF_CFG.ENABLE false) : State), by decide +kernel⟩⟩

theorem wit_RadioActivitiesFollowTheirEvents :
    (∃ (c : LinkC) (s : State) (u : _), u = s.rfStep c.val ∧ s.radioOn = true ∧ s.rfState c.val = 4 ∧ u.rfRole c.val = 0 ∧
    (s.rfYields c.val = true ∨ u.rfFree 2 = false)) ∧
    (∃ (c : LinkC) (s : State) (u : _), u = s.rfStep c.val ∧ s.radioOn = true ∧ s.rfState c.val = 4 ∧ u.rfRole c.val = 0 ∧
    s.rfYields c.val = false ∧ u.rfFree 2 = true) ∧
    (∃ (c : LinkC) (s : State) (u : _), u = s.rfStep c.val ∧ s.radioOn = true ∧ s.rfState c.val = 4 ∧ u.rfRole c.val ≠ 0 ∧
    (s.rfYields c.val = true ∨ u.rfFree 2 = false)) ∧
    (∃ (c : LinkC) (now : Nat) (s : State) (u v : _), u = s.rfStep c.val ∧ v = u.rfCut now ∧ s.radioOn = true ∧ s.rfState c.val = 4 ∧
    u.rfRole c.val ≠ 0 ∧ s.rfYields c.val = false ∧ u.rfFree 2 = true) ∧
    (∃ (c : LinkC) (s : State), (s.radioOn = false ∨ s.rfState c.val ≠ 4)) ∧
    (∃ (c : Nat) (s : State), s.rfReady c = none) ∧
    (∃ (c ch now : Nat) (s v : State) (x y : RfItem), s.sealItem c x = (stOk, y, v) ∧ s.rfReady c = some x ∧
    s.rfDwell ch now (s.rfAir (x.body.length + (if x.body.isEmpty = true then 18 else 31)) x.coded) false = true) ∧
    (∃ (c : LinkC) (s : State), s.rfState c.val = 4 ∧ s.rfRole c.val ≠ 0 ∧ s.radioOn = true ∧ s.radio.event = some c.val ∧
    s.radio.listen = true ∧ ((∀ x, s.radio.rx = some x → x.inWin = false))) ∧
    (∃ (c : LinkC) (s : State) (x : _), s.rfState c.val = 4 ∧ s.rfRole c.val ≠ 0 ∧ s.radioOn = true ∧ s.radio.event = some c.val ∧
    s.radio.listen = true ∧ s.radio.rx = some x ∧ x.inWin = true) ∧
    (∃ (c : Nat) (s : State), c < 16 ∧ s.get (RF_LSTAT.MISSES c) < 2) ∧
    (∃ (c : Nat) (s : State), c < 16 ∧ 2 ≤ s.get (RF_LSTAT.MISSES c)) ∧
    (∃ (c : LinkC) (x : RfItem) (s : State), s.itemOn c.val = some x ∧ s.get RF_CFG.RETRY_MAX < x.attempts) ∧
    (∃ (c : LinkC) (x : RfItem) (s : State), s.itemOn c.val = some x ∧ x.attempts ≤ s.get RF_CFG.RETRY_MAX) ∧
    (∃ (c : LinkC) (s : State), s.radioOn = true ∧ s.rfState c.val = 2) ∧
    (∃ (c : LinkC) (s : State), s.radioOn = true ∧ s.rfState c.val = 3 ∧ (s.rlink c.val).fails < 2) ∧
    (∃ (c : LinkC) (s : State), s.radioOn = true ∧ s.rfState c.val = 3 ∧ 2 ≤ (s.rlink c.val).fails) ∧
    (∃ (s : State), s.radioOn = true ∧ s.flag RF_DISC.BCN_EN = true ∧ s.rfFree 3 = false) ∧
    (∃ (s : State), (s.radioOn = false ∨ s.flag RF_DISC.BCN_EN = false)) ∧
    (∃ (s : State) (ch : _), ch = nth 0 s.discChans (s.radio.bseq % 3) ∧ s.radioOn = true ∧ s.flag RF_DISC.BCN_EN = true ∧
    s.rfFree 3 = true) ∧
    (∃ (now : Nat) (s : State) (f air : _), air = s.rfAir (25 + f.body.length) f.coded ∧ s.radioOn = true ∧ s.rfFree 4 = true ∧
    s.radio.fwds.find? (fun f => decide (f.due ≤ now)) = some f ∧ s.forwardWaits now air = true) ∧
    (∃ (now : Nat) (s : State) (f air : _), air = s.rfAir (25 + f.body.length) f.coded ∧ s.radioOn = true ∧ s.rfFree 4 = true ∧
    s.radio.fwds.find? (fun f => decide (f.due ≤ now)) = some f ∧ s.forwardWaits now air = false ∧
    s.rfDwell (s.get RF_FLOOD.CHAN) now air false = false) ∧
    (∃ (now : Nat) (s : State) (f air : _), air = s.rfAir (25 + f.body.length) f.coded ∧ s.radioOn = true ∧ s.rfFree 4 = true ∧
    s.radio.fwds.find? (fun f => decide (f.due ≤ now)) = some f ∧ s.forwardWaits now air = false ∧
    s.rfDwell (s.get RF_FLOOD.CHAN) now air false = true) ∧
    (∃ (s : State) (f : _), s.radioOn = true ∧ s.rfFree 1 = true ∧ s.radio.floods.find? (fun f => f.2.1) = some f) ∧
    (∃ (s : State) (u : _), u = State.rfShow { s with radio := { s.radio with tx := .none, paTail := true } } ∧ s.radio.tx = .none) ∧
    (∃ (s : State) (u : _), u = State.rfShow { s with radio := { s.radio with tx := .none, paTail := true } } ∧ s.radio.tx = .beacon) ∧
    (∃ (s : State) (u c x : _), u = State.rfShow { s with radio := { s.radio with tx := .none, paTail := true } } ∧ s.radio.tx = .item c ∧
    u.itemOn c = some x ∧ x.ackreq = true) ∧
    (∃ (s : State) (u c x : _), u = State.rfShow { s with radio := { s.radio with tx := .none, paTail := true } } ∧ s.radio.tx = .item c ∧
    u.itemOn c = some x ∧ x.ackreq = false ∧ u.rfRole c = 0) ∧
    (∃ (s : State) (u c x : _), u = State.rfShow { s with radio := { s.radio with tx := .none, paTail := true } } ∧ s.radio.tx = .item c ∧
    u.itemOn c = some x ∧ x.ackreq = false ∧ u.rfRole c ≠ 0) ∧
    (∃ (s : State) (u c : _), u = State.rfShow { s with radio := { s.radio with tx := .none, paTail := true } } ∧
    s.radio.tx = .ack (some c)) ∧
    (∃ (s : State) (u tag g : _), u = State.rfShow { s with radio := { s.radio with tx := .none, paTail := true } } ∧
    s.radio.tx = .flood tag g) ∧
    (∃ (s : State) (u c : _), u = State.rfShow { s with radio := { s.radio with tx := .none, paTail := true } } ∧ s.radio.tx = .bye c) ∧
    (∃ (y : RfSync) (s : State), ((s.radioOn = true ∨ s.sniffing = true)) ∧ s.radio.tx = .none ∧ s.radio.rx = none ∧ s.radio.held = none ∧
    ((∀ c, s.radio.event = some c → s.get (RF_LSTAT.CHAN c) = y.chan.val)) ∧ rfSyncOk y = true) ∧
    (∃ (y : RfSync) (s : State), (rfSyncOk y = false ∨ s.radio.tx ≠ .none ∨ s.radio.rx ≠ none ∨ s.radio.held ≠ none ∨ (s.radioOn = false ∧
    s.sniffing = false))) ∧
    (∃ (s : State), s.mode = 1 ∧ s.flag RF_CFG.ENABLE = true ∧ s.flag RF_SNIFF.EN = true ∧ s.radio.sniffed = true) ∧
    (∃ (s : State), s.mode = 1 ∧ s.flag RF_CFG.ENABLE = true ∧ s.flag RF_SNIFF.EN = true ∧ s.radio.sniffed = false) ∧
    (∃ (s : State), s.mode = 1 ∧ s.flag RF_CFG.ENABLE = true ∧ s.flag RF_SNIFF.EN = true ∧ s.get RF_STAT.STATE ≠ 4) ∧
    (∃ (s : State) (u w : _), u = { s with radio := { s.radio with sniffed := true, synced := false, rx := none } } ∧
    w = (u.putFlag RF_EVT.WAKE true).wake PWR_WAKE.RADIO ∧ s.mode = 1 ∧ s.flag RF_CFG.ENABLE = true ∧ s.flag RF_SNIFF.EN = true ∧
    s.get RF_STAT.STATE = 4 ∧ s.flag PWR_WAKE.RADIO = true) ∧
    (∃ (s : State) (u : _), u = { s with radio := { s.radio with sniffed := true, synced := false, rx := none } } ∧ s.mode = 1 ∧
    s.flag RF_CFG.ENABLE = true ∧ s.flag RF_SNIFF.EN = true ∧ s.get RF_STAT.STATE = 4 ∧ s.flag PWR_WAKE.RADIO = false) ∧
    (∃ (s : State), s.radio.sniffed = true ∧ s.radio.synced = false) ∧
    (∃ (s : State), (s.radio.sniffed = false ∨ s.radio.synced = true)) :=
  ⟨⟨0, ({ airedLead with radio := { airedLead.radio with event := some 5 } } : State), _, rfl, by decide +kernel⟩,
   ⟨0, airedLead, _, rfl, by decide +kernel⟩,
   ⟨0, ({ aired with radio := { aired.radio with tx := .item 0 } } : State), _, rfl, by decide +kernel⟩,
   ⟨0, 0, aired, _, _, rfl, rfl, by decide +kernel⟩,
   ⟨0, run, by decide +kernel⟩,
   ⟨0, run, by decide +kernel⟩,
   ⟨0, 0, 0, (airedItem { aItem with onAir := true } : State),
   (((airedItem { aItem with onAir := true } : State).sealItem (0 : Nat) ({ aItem with onAir := true } : RfItem)).2.2 : State),
   ({ aItem with onAir := true } : RfItem),
   (((airedItem { aItem with onAir := true } : State).sealItem (0 : Nat) ({ aItem with onAir := true } : RfItem)).2.1 : RfItem),
   Prod.ext (by decide +kernel) (Prod.ext rfl rfl), by decide +kernel⟩,
   ⟨0, ({ aired with radio := { aired.radio with event := some 0, listen := true } } : State), by decide +kernel⟩,
   ⟨0, ({ aired with radio := { aired.radio with event := some 0, listen := true, rx := some { aRfRx with inWin := true } } } : State),
   { aRfRx with inWin := true }, by decide +kernel⟩,
   ⟨0, run, by decide +kernel⟩,
   ⟨0, ((run.put (RF_LSTAT.MISSES (0 : Nat)) 2) : State), by decide +kernel⟩,
   ⟨0, ({ aItem with onAir := true, attempts := 9 } : RfItem), (airedItem { aItem with onAir := true, attempts := 9 } : State),
   by decide +kernel⟩,
   ⟨0, ({ aItem with onAir := true } : RfItem), (airedItem { aItem with onAir := true } : State), by decide +kernel⟩,
   ⟨0, (((run.putFlag RF_CFG.ENABLE true).put (RF_LCFG.STATE 0) 2) : State), by decide +kernel⟩,
   ⟨0, (((run.putFlag RF_CFG.ENABLE true).put (RF_LCFG.STATE 0) 3) : State), by decide +kernel⟩,
   ⟨0, ((aired.put (RF_LCFG.STATE 0) 3).modRlink 0 (fun x => { x with fails := 2 }) : State), by decide +kernel⟩,
   ⟨(({ aired with radio := { aired.radio with tx := .item 0 } } : State).putFlag RF_DISC.BCN_EN true : State), by decide +kernel⟩,
   ⟨run, by decide +kernel⟩,
   ⟨(((run.putFlag RF_CFG.ENABLE true).putFlag RF_DISC.BCN_EN true) : State), _, rfl, by decide +kernel⟩,
   ⟨0, ({ aired with radio := { aired.radio with fwds := [⟨[], 0, [], false, 0, 0⟩] } } : State), (⟨[], 0, [], false, 0, 0⟩ : RfFwd), _,
   rfl, by decide +kernel⟩,
   ⟨0,
   ((({ aired with radio := { aired.radio with fwds := [⟨[], 0, [], false, 0, 0⟩] } } : State).put (RF_LCFG.STATE 0) 0).put RF_DWELL.LIMIT 0 : State),
   (⟨[], 0, [], false, 0, 0⟩ : RfFwd), _, rfl, by decide +kernel⟩,
   ⟨0, (({ aired with radio := { aired.radio with fwds := [⟨[], 0, [], false, 0, 0⟩] } } : State).put (RF_LCFG.STATE 0) 0 : State), (⟨[],
   0, [], false, 0, 0⟩ : RfFwd), _, rfl, by decide +kernel⟩,
   ⟨({ aired with radio := { aired.radio with floods := [(none, true, false, [])] } } : State), ((none, true, false,
   []) : Option Nat × Bool × Bool × List Byte), by decide +kernel⟩,
   ⟨run, _, rfl, by decide +kernel⟩,
   ⟨({ aired with radio := { aired.radio with tx := .beacon } } : State), _, rfl, by decide +kernel⟩,
   ⟨({ airedItem { aItem with onAir := true } with radio := { (airedItem { aItem with onAir := true }).radio with tx := .item 0 } } : State),
   _, (0 : Nat), { aItem with onAir := true }, rfl, by decide +kernel⟩,
   ⟨(({ airedItem { aItem with onAir := true, ackreq := false } with radio := { (airedItem { aItem with onAir := true, ackreq := false }).radio with tx := .item 0 } } : State).put (RF_LCFG.ROLE 0) 0 : State),
   _, (0 : Nat), { aItem with onAir := true, ackreq := false }, rfl, by decide +kernel⟩,
   ⟨({ airedItem { aItem with onAir := true, ackreq := false } with radio := { (airedItem { aItem with onAir := true, ackreq := false }).radio with tx := .item 0 } } : State),
   _, (0 : Nat), { aItem with onAir := true, ackreq := false }, rfl, by decide +kernel⟩,
   ⟨({ aired with radio := { aired.radio with tx := .ack (some 0) } } : State), _, (0 : Nat), rfl, by decide +kernel⟩,
   ⟨({ aired with radio := { aired.radio with tx := .flood none true } } : State), _, (none : Option Nat), true, rfl, by decide +kernel⟩,
   ⟨({ aired with radio := { aired.radio with tx := .bye 0 } } : State), _, (0 : Nat), rfl, by decide +kernel⟩,
   ⟨aRfSync, aired, by decide +kernel⟩,
   ⟨aRfSync, run, by decide +kernel⟩,
   ⟨(({ run.put SYS_MODE.MODE 1 with radio := { run.radio with sniffed := true } } : State).putFlag RF_CFG.ENABLE true |>.putFlag RF_SNIFF.EN true : State),
   by decide +kernel⟩,
   ⟨((((run.put SYS_MODE.MODE 1).putFlag RF_CFG.ENABLE true).putFlag RF_SNIFF.EN true) : State), by decide +kernel⟩,
   ⟨((((run.put SYS_MODE.MODE 1).putFlag RF_CFG.ENABLE true).putFlag RF_SNIFF.EN true) : State), by decide +kernel⟩,
   ⟨((((((run.put SYS_MODE.MODE 1).putFlag RF_CFG.ENABLE true).putFlag RF_SNIFF.EN true).put RF_STAT.STATE 4).putFlag PWR_WAKE.RADIO true) : State),
   _, _, rfl, rfl, by decide +kernel⟩,
   ⟨((((((run.put SYS_MODE.MODE 1).putFlag RF_CFG.ENABLE true).putFlag RF_SNIFF.EN true).put RF_STAT.STATE 4).putFlag PWR_WAKE.RADIO false) : State),
   _, rfl, by decide +kernel⟩,
   ⟨(({ aired with radio := { aired.radio with sniffed := true } } : State).put SYS_MODE.MODE 1 : State), by decide +kernel⟩,
   ⟨run, by decide +kernel⟩⟩

theorem wit_RadioFramesAreCheckedAndActedOn :
    (∃ (r : RfSeen) (s : State) (i : Instr),
    i ∈ [Instr.rfBeaconRx r, .connReqRx r, .connAckRx r, .rfDataRx r, .rfAckRx r, .rfNackRx r, .mapSetRx r, .disconnectRx r, .floodRx r] ∧
    (s.radio.rx = none ∨ s.radioOn = false ∧ s.sniffing = false)) ∧
    (∃ (r : RfSeen) (s : State) (i : Instr) (x : _),
    i ∈ [Instr.rfBeaconRx r, .connReqRx r, .connAckRx r, .rfDataRx r, .rfAckRx r, .rfNackRx r, .mapSetRx r, .disconnectRx r, .floodRx r] ∧
    s.radio.rx = some x ∧ s.radioOn = false ∧ s.sniffing = true) ∧
    (∃ (r : RfSeen) (s : State) (i : Instr) (x p t : _),
    i ∈ [Instr.rfBeaconRx r, .connReqRx r, .connAckRx r, .rfDataRx r, .rfAckRx r, .rfNackRx r, .mapSetRx r, .disconnectRx r, .floodRx r] ∧
    s.rfDecode x r = (p, none, t) ∧ s.radio.rx = some x ∧ s.radioOn = true) ∧
    (∃ (r : RfSeen) (s t : State) (x : RfRx) (l : List Byte) (coded : Bool) (m : RfMac) (types : List Nat), s.rfDecode x r = (true,
    some (l, coded), t) ∧ ((∀ c, x.link = some c → s.rfTooLong c (s.rfAir l.length coded) = false)) ∧ s.radio.rx = some x ∧
    s.radioOn = true ∧ parseRf l = some m ∧ m.type ∈ types ∧ ((m.dst = s.ownEui ∨ m.type = 0 ∨ m.type = 6))) ∧
    (∃ (r : RfSeen) (s : State) (u g m : _), s.rfSeen r [0] = (some (g, m), u) ∧ u.rfOpenGroup m = none) ∧
    (∃ (r : RfSeen) (s : State) (u g m b i : _), s.rfSeen r [0] = (some (g, m), u) ∧ u.rfOpenGroup m = some b ∧ u.findNbr m.src = some i ∧
    b.length = 14) ∧
    (∃ (r : RfSeen) (s : State) (u g m : _), s.rfSeen r [6] = (some (g, m), u) ∧ u.rfOpenGroup m = none) ∧
    (∃ (r : RfSeen) (s : State) (u g m b : _), s.rfSeen r [6] = (some (g, m), u) ∧ u.rfOpenGroup m = some b ∧ 12 ≤ b.length ∧
    1 ≤ u8 b 10 ∧ u8 b 10 < 16 ∧ u.radio.seen.contains (b.take 8, u16 b 8) = true) ∧
    (∃ (r : RfSeen) (s : State) (u g m b : _), s.rfSeen r [6] = (some (g, m), u) ∧ u.rfOpenGroup m = some b ∧ 12 ≤ b.length ∧
    1 ≤ u8 b 10 ∧ u8 b 10 < 16 ∧ u.radio.seen.contains (b.take 8, u16 b 8) = false) ∧
    (∃ (g : RfGot) (b : List Byte) (s : State) (v w p : _), v = s.remember (b.take 8) (u16 b 8) ∧
    p = v.putPacket (.engine 1) (v.get RF_NBR.DLVQ) b ∧
    w = ((p.2.1.tellPool p.2.2).setEvt RF_EVT.FLOOD_RX).rfEvent 5 stFrameOk 0xFF b.length (rfQuality g true 0) (b.take 8) ∧ p.1 = 1 ∧
    (w.flag RF_FLOOD.FWD_EN = false ∨ u8 b 10 % 16 ≤ 1)) ∧
    (∃ (g : RfGot) (b : List Byte) (s : State) (v w p : _), v = s.remember (b.take 8) (u16 b 8) ∧
    p = v.putPacket (.engine 1) (v.get RF_NBR.DLVQ) b ∧
    w = ((p.2.1.tellPool p.2.2).setEvt RF_EVT.FLOOD_RX).rfEvent 5 stFrameOk 0xFF b.length (rfQuality g true 0) (b.take 8) ∧ p.1 = 1 ∧
    w.flag RF_FLOOD.FWD_EN = true ∧ 1 < u8 b 10 % 16) ∧
    (∃ (r : RfSeen) (s : State) (u g m : _), s.rfSeen r [1] = (some (g, m), u) ∧ u.findNbr m.src = none) ∧
    (∃ (r : RfSeen) (s : State) (u g m i v b : _), s.rfSeen r [1] = (some (g, m), u) ∧ u.rfCheck m 2 = (some (i, b), v) ∧
    u.findNbr m.src = some i ∧ b.length = 2 ∧ ((List.range 16).find? (fun c => decide (v.rfRole c = 0 ∧
    v.rfNbr c = i) && v.flag (RF_LCFG.ENABLE c)) = none)) ∧
    (∃ (r : RfSeen) (s : State) (u g m i v b c : _), s.rfSeen r [1] = (some (g, m), u) ∧ u.rfCheck m 2 = (some (i, b), v) ∧
    u.findNbr m.src = some i ∧ b.length = 2 ∧ ((List.range 16).find? (fun c => decide (v.rfRole c = 0 ∧
    v.rfNbr c = i) && v.flag (RF_LCFG.ENABLE c)) = some c)) ∧
    (∃ (r : RfSeen) (s : State) (u v g m i b c : _), s.rfSeen r [2] = (some (g, m), u) ∧ u.rfCheck m 6 = (some (i, b), v) ∧
    ((List.range 16).find? (fun c => decide (v.rfState c = 3 ∧ v.rfNbr c = i)) = some c) ∧ b.length = 18) ∧
    (∃ (r : RfSeen) (s : State) (u g m i c : _), c = u.rfLinkOf g i ∧ s.rfSeen r [3] = (some (g, m), u) ∧ u.findNbr m.src = some i ∧
    m.sec = false ∧ m.rest = []) ∧
    (∃ (r : RfSeen) (s : State) (u g m i c : _), c = u.rfLinkOf g i ∧ s.rfSeen r [3] = (some (g, m), u) ∧ u.findNbr m.src = some i ∧
    m.sec = true ∧ u.rfOpenLink m i 6 = none) ∧
    (∃ (r : RfSeen) (s : State) (u g m i c b v : _), c = u.rfLinkOf g i ∧ v = u.rfAckd g m c ∧ s.rfSeen r [3] = (some (g, m), u) ∧
    u.findNbr m.src = some i ∧ m.sec = true ∧ u.rfOpenLink m i 6 = some b ∧ u.rfDup i m = .dup) ∧
    (∃ (r : RfSeen) (s : State) (u g m i c b v : _), c = u.rfLinkOf g i ∧ v = u.rfAckd g m c ∧ s.rfSeen r [3] = (some (g, m), u) ∧
    u.findNbr m.src = some i ∧ m.sec = true ∧ u.rfOpenLink m i 6 = some b ∧ u.rfDup i m = .replay) ∧
    (∃ (r : RfSeen) (s : State) (u g m i c b v q d p : _), c = u.rfLinkOf g i ∧ v = u.rfAckd g m c ∧
    p = v.putPacket (.engine 1) (v.get RF_NBR.DLVQ) b ∧ s.rfSeen r [3] = (some (g, m), u) ∧ u.findNbr m.src = some i ∧ m.sec = true ∧
    u.rfOpenLink m i 6 = some b ∧ u.rfDup i m = .fresh q d ∧ p.1 ≠ 1) ∧
    (∃ (r : RfSeen) (s : State) (u g m i c b v q d p : _), c = u.rfLinkOf g i ∧ v = u.rfAckd g m c ∧
    p = v.putPacket (.engine 1) (v.get RF_NBR.DLVQ) b ∧ s.rfSeen r [3] = (some (g, m), u) ∧ u.findNbr m.src = some i ∧ m.sec = true ∧
    u.rfOpenLink m i 6 = some b ∧ u.rfDup i m = .fresh q d ∧ p.1 = 1) ∧
    (∃ (r : RfSeen) (s : State) (u w g m i c b q d : _), w = ((u.rfAckd g m (some c)).rfAccept i q d m).rfNote i g ∧
    s.rfSeen r [7] = (some (g, m), u) ∧ u.findNbr m.src = some i ∧ u.rfLinkOf g i = some c ∧ u.rfOpenLink m i 6 = some b ∧
    u.rfDup i m = .fresh q d ∧ u8 b 0 = 1 ∧ b.length = 11) ∧
    (∃ (r : RfSeen) (s : State) (u w g m i c b q d : _), w = ((u.rfAckd g m (some c)).rfAccept i q d m).rfNote i g ∧
    s.rfSeen r [7] = (some (g, m), u) ∧ u.findNbr m.src = some i ∧ u.rfLinkOf g i = some c ∧ u.rfOpenLink m i 6 = some b ∧
    u.rfDup i m = .fresh q d ∧ u8 b 0 = 2 ∧ b.length = 1) ∧
    (∃ (r : RfSeen) (s : State) (u v w g m i c b x : _), w = (v.rfSetFc i m).rfNote i g ∧ u.rfCheck m 2 = (some (i, b), v) ∧
    s.rfSeen r [4] = (some (g, m), u) ∧ m.sec = true ∧ w.rfLinkOf g i = some c ∧ w.itemOn c = some x ∧ x.seq = m.seq ∧
    ((x.type ≠ 7 ∨ u8 x.body 0 ≠ 2))) ∧
    (∃ (r : RfSeen) (s : State) (u v w g m i c b x : _), w = (v.rfSetFc i m).rfNote i g ∧ u.rfCheck m 2 = (some (i, b), v) ∧
    s.rfSeen r [5] = (some (g, m), u) ∧ m.sec = true ∧ w.rfLinkOf g i = some c ∧ w.itemOn c = some x ∧ x.seq = m.seq ∧ u8 b 0 = 1) :=
  ⟨⟨aSeen, run, (Instr.rfBeaconRx aSeen : Instr), .head _, by decide +kernel⟩,
   ⟨aSeen, ({ run.put SYS_MODE.MODE 2 with radio := { sniffed := true, rx := some aRfRx } } : State), (Instr.connReqRx aSeen : Instr),
   aRfRx, .tail _ (.head _), by decide +kernel⟩,
   ⟨({ aSeen with hdr := bitYs (codeHeader (leBytes 1 33 ++ [0#8])), pay := bitYs (List.replicate 280 0) } : RfSeen),
   (receiving aired : State),
   (Instr.connReqRx { aSeen with hdr := bitYs (codeHeader (leBytes 1 33 ++ [0#8])), pay := bitYs (List.replicate 280 0) } : Instr), aRfRx,
   true, { receiving aired with freeCtr := 2 }, .tail _ (.head _),
   decode_bits (receiving aired) _ (List.replicate 280 0) 33 none (by decide) ⟨rfl, rfl⟩ (by decide +kernel), by decide +kernel⟩,
   ⟨(rfOf (rfBytes 1 5 2 9 (beBytes 10 0x557a33f21c9ca680)) : RfSeen), (receiving aired : State),
   ({ receiving aired with freeCtr := 2 } : State), aRfRx, (rfBytes 1 5 2 9 (beBytes 10 0x557a33f21c9ca680) : List Byte), false,
   ((parseRf (rfBytes 1 5 2 9 (beBytes 10 0x557a33f21c9ca680) : List Byte)).get (by decide +kernel) : RfMac), ([1] : List Nat),
   decode_bits (receiving aired) _ (rfPayloadBits (rfBytes 1 5 2 9 (beBytes 10 0x557a33f21c9ca680)) false) 33 (some (rfBytes 1 5 2 9 (beBytes 10 0x557a33f21c9ca680))) (by decide) ⟨rfl,
   rfl⟩ (by decide +kernel), fun c h => by cases h; decide +kernel, by decide +kernel⟩,
   ⟨(rfOf (rfBytes 0 5 10 9 (List.replicate 22 0#8)) : RfSeen), (receiving aired : State),
   gotU (receiving aired) (rfBytes 0 5 10 9 (List.replicate 22 0#8)), gotR (rfBytes 0 5 10 9 (List.replicate 22 0#8)),
   gotM (rfBytes 0 5 10 9 (List.replicate 22 0#8)), seen_got _ _ _ (by decide +kernel), by decide +kernel⟩,
   ⟨(rfOf (rfBytes 0 5 10 9 (beBytes 22 0x4f4d90c7780521d1)) : RfSeen), (receiving aired : State),
   gotU (receiving aired) (rfBytes 0 5 10 9 (beBytes 22 0x4f4d90c7780521d1)), gotR (rfBytes 0 5 10 9 (beBytes 22 0x4f4d90c7780521d1)),
   gotM (rfBytes 0 5 10 9 (beBytes 22 0x4f4d90c7780521d1)), List.replicate 14 0#8, 0, seen_got _ _ _ (by decide +kernel),
   by decide +kernel⟩,
   ⟨(rfOf (rfBytes 6 5 10 9 (List.replicate 20 0#8)) : RfSeen), (receiving aired : State),
   gotU (receiving aired) (rfBytes 6 5 10 9 (List.replicate 20 0#8)), gotR (rfBytes 6 5 10 9 (List.replicate 20 0#8)),
   gotM (rfBytes 6 5 10 9 (List.replicate 20 0#8)), seen_got _ _ _ (by decide +kernel), by decide +kernel⟩,
   ⟨(rfOf (rfBytes 6 5 10 9 (beBytes 20 0x2008b3897f678264e47)) : RfSeen),
   (receiving { aired with radio := { aired.radio with seen := [(List.replicate 8 0#8, 0)] } } : State),
   gotU (receiving { aired with radio := { aired.radio with seen := [(List.replicate 8 0#8, 0)] } }) (rfBytes 6 5 10 9 (beBytes 20 0x2008b3897f678264e47)),
   gotR (rfBytes 6 5 10 9 (beBytes 20 0x2008b3897f678264e47)), gotM (rfBytes 6 5 10 9 (beBytes 20 0x2008b3897f678264e47)),
   List.replicate 10 0#8 ++ [2#8, 0#8], seen_got _ _ _ (by decide +kernel), by decide +kernel⟩,
   ⟨(rfOf (rfBytes 6 5 10 9 (beBytes 20 0x2008b3897f678264e47)) : RfSeen), (receiving aired : State),
   gotU (receiving aired) (rfBytes 6 5 10 9 (beBytes 20 0x2008b3897f678264e47)),
   gotR (rfBytes 6 5 10 9 (beBytes 20 0x2008b3897f678264e47)), gotM (rfBytes 6 5 10 9 (beBytes 20 0x2008b3897f678264e47)),
   List.replicate 10 0#8 ++ [2#8, 0#8], seen_got _ _ _ (by decide +kernel), by decide +kernel⟩,
   ⟨aGet, (List.replicate 10 0#8 ++ [2#8, 0#8] : List Byte), (airedQ.putFlag RF_FLOOD.FWD_EN false : State), _, _, _, rfl, rfl, rfl,
   by decide +kernel⟩,
   ⟨aGet, (List.replicate 10 0#8 ++ [2#8, 0#8] : List Byte), (airedQ.putFlag RF_FLOOD.FWD_EN true : State), _, _, _, rfl, rfl, rfl,
   by decide +kernel⟩,
   ⟨(rfOf (rfBytes 1 5 2 9 (beBytes 10 0x557a33f21c9ca680)) : RfSeen), (receiving (aired.putNbr 0 8 [0#8]) : State),
   gotU (receiving (aired.putNbr 0 8 [0#8])) (rfBytes 1 5 2 9 (beBytes 10 0x557a33f21c9ca680)),
   gotR (rfBytes 1 5 2 9 (beBytes 10 0x557a33f21c9ca680)), gotM (rfBytes 1 5 2 9 (beBytes 10 0x557a33f21c9ca680)),
   seen_got _ _ _ (by decide +kernel), by decide +kernel⟩,
   ⟨(rfOf (rfBytes 1 5 2 9 (beBytes 10 0x557a33f21c9ca680)) : RfSeen), (receiving aired : State),
   gotU (receiving aired) (rfBytes 1 5 2 9 (beBytes 10 0x557a33f21c9ca680)), gotR (rfBytes 1 5 2 9 (beBytes 10 0x557a33f21c9ca680)),
   gotM (rfBytes 1 5 2 9 (beBytes 10 0x557a33f21c9ca680)), 0, gotU (receiving aired) (rfBytes 1 5 2 9 (beBytes 10 0x557a33f21c9ca680)),
   [0#8, 0#8], seen_got _ _ _ (by decide +kernel), check_ok _ _ _ _ _ (by decide +kernel), by decide +kernel⟩,
   ⟨(rfOf (rfBytes 1 5 2 9 (beBytes 10 0x557a33f21c9ca680)) : RfSeen), (receiving airedLead : State),
   gotU (receiving airedLead) (rfBytes 1 5 2 9 (beBytes 10 0x557a33f21c9ca680)), gotR (rfBytes 1 5 2 9 (beBytes 10 0x557a33f21c9ca680)),
   gotM (rfBytes 1 5 2 9 (beBytes 10 0x557a33f21c9ca680)), 0,
   gotU (receiving airedLead) (rfBytes 1 5 2 9 (beBytes 10 0x557a33f21c9ca680)), [0#8, 0#8], (0 : Nat),
   seen_got _ _ _ (by decide +kernel), check_ok _ _ _ _ _ (by decide +kernel), by decide +kernel⟩,
   ⟨(rfOf (rfBytes 2 5 6 9 (beBytes 26 0xdc8f194728433ea79fd2fe0b9f16fd2927118ff848f46f3dc28b)) : RfSeen),
   (receiving (aired.put (RF_LCFG.STATE 0) 3) : State),
   gotU (receiving (aired.put (RF_LCFG.STATE 0) 3)) (rfBytes 2 5 6 9 (beBytes 26 0xdc8f194728433ea79fd2fe0b9f16fd2927118ff848f46f3dc28b)),
   gotU (receiving (aired.put (RF_LCFG.STATE 0) 3)) (rfBytes 2 5 6 9 (beBytes 26 0xdc8f194728433ea79fd2fe0b9f16fd2927118ff848f46f3dc28b)),
   gotR (rfBytes 2 5 6 9 (beBytes 26 0xdc8f194728433ea79fd2fe0b9f16fd2927118ff848f46f3dc28b)),
   gotM (rfBytes 2 5 6 9 (beBytes 26 0xdc8f194728433ea79fd2fe0b9f16fd2927118ff848f46f3dc28b)), 0, List.replicate 18 0#8, (0 : Nat),
   seen_got _ _ _ (by decide +kernel), check_ok _ _ _ _ _ (by decide +kernel), by decide +kernel⟩,
   ⟨(rfOf (rfBytes 3 5 0 0 []) : RfSeen), (receiving aired : State), gotU (receiving aired) (rfBytes 3 5 0 0 []),
   gotR (rfBytes 3 5 0 0 []), gotM (rfBytes 3 5 0 0 []), 0, _, rfl, seen_got _ _ _ (by decide +kernel), by decide +kernel⟩,
   ⟨(rfOf (rfBytes 3 5 6 9 (List.replicate 9 0#8)) : RfSeen), (receiving aired : State),
   gotU (receiving aired) (rfBytes 3 5 6 9 (List.replicate 9 0#8)), gotR (rfBytes 3 5 6 9 (List.replicate 9 0#8)),
   gotM (rfBytes 3 5 6 9 (List.replicate 9 0#8)), 0, _, rfl, seen_got _ _ _ (by decide +kernel), by decide +kernel⟩,
   ⟨(rfOf (rfBytes 3 5 6 9 (beBytes 9 0xdb4e140a3b5c8a8c2e)) : RfSeen),
   (receiving ((aired.putNbr 0 10 [5#8]).putNbr 0 12 [1#8, 0#8]) : State),
   gotU (receiving ((aired.putNbr 0 10 [5#8]).putNbr 0 12 [1#8, 0#8])) (rfBytes 3 5 6 9 (beBytes 9 0xdb4e140a3b5c8a8c2e)),
   gotR (rfBytes 3 5 6 9 (beBytes 9 0xdb4e140a3b5c8a8c2e)), gotM (rfBytes 3 5 6 9 (beBytes 9 0xdb4e140a3b5c8a8c2e)), 0, _, [7#8], _, rfl,
   rfl, seen_got _ _ _ (by decide +kernel), by decide +kernel⟩,
   ⟨(rfOf (rfBytes 3 5 6 0 (beBytes 9 0x19c4a7d48d1eef9cdf)) : RfSeen), (receiving aired : State),
   gotU (receiving aired) (rfBytes 3 5 6 0 (beBytes 9 0x19c4a7d48d1eef9cdf)), gotR (rfBytes 3 5 6 0 (beBytes 9 0x19c4a7d48d1eef9cdf)),
   gotM (rfBytes 3 5 6 0 (beBytes 9 0x19c4a7d48d1eef9cdf)), 0, _, [7#8], _, rfl, rfl, seen_got _ _ _ (by decide +kernel),
   by decide +kernel⟩,
   ⟨(rfOf (rfBytes 3 5 6 9 (beBytes 9 0xdb4e140a3b5c8a8c2e)) : RfSeen), (receiving aired : State),
   gotU (receiving aired) (rfBytes 3 5 6 9 (beBytes 9 0xdb4e140a3b5c8a8c2e)), gotR (rfBytes 3 5 6 9 (beBytes 9 0xdb4e140a3b5c8a8c2e)),
   gotM (rfBytes 3 5 6 9 (beBytes 9 0xdb4e140a3b5c8a8c2e)), 0, _, [7#8], _, (5 : Nat), (1 : Nat), _, rfl, rfl, rfl,
   seen_got _ _ _ (by decide +kernel), by decide +kernel⟩,
   ⟨(rfOf (rfBytes 3 5 6 9 (beBytes 9 0xdb4e140a3b5c8a8c2e)) : RfSeen), (receiving airedQ : State),
   gotU (receiving airedQ) (rfBytes 3 5 6 9 (beBytes 9 0xdb4e140a3b5c8a8c2e)), gotR (rfBytes 3 5 6 9 (beBytes 9 0xdb4e140a3b5c8a8c2e)),
   gotM (rfBytes 3 5 6 9 (beBytes 9 0xdb4e140a3b5c8a8c2e)), 0, _, [7#8], _, (5 : Nat), (1 : Nat), _, rfl, rfl, rfl,
   seen_got _ _ _ (by decide +kernel), by decide +kernel⟩,
   ⟨(rfOf (rfBytes 7 5 6 9 (beBytes 19 0xdd8f194728433ea79fd2fec7e16cb7902d8867)) : RfSeen), (receiving aired : State),
   gotU (receiving aired) (rfBytes 7 5 6 9 (beBytes 19 0xdd8f194728433ea79fd2fec7e16cb7902d8867)), _,
   gotR (rfBytes 7 5 6 9 (beBytes 19 0xdd8f194728433ea79fd2fec7e16cb7902d8867)),
   gotM (rfBytes 7 5 6 9 (beBytes 19 0xdd8f194728433ea79fd2fec7e16cb7902d8867)), 0, (0 : Nat), 1#8 :: List.replicate 10 0#8, (5 : Nat),
   (1 : Nat), rfl, seen_got _ _ _ (by decide +kernel), by decide +kernel⟩,
   ⟨(rfOf (rfBytes 7 5 6 9 (beBytes 9 0xde8ade5a2d211e4cf3)) : RfSeen), (receiving aired : State),
   gotU (receiving aired) (rfBytes 7 5 6 9 (beBytes 9 0xde8ade5a2d211e4cf3)), _, gotR (rfBytes 7 5 6 9 (beBytes 9 0xde8ade5a2d211e4cf3)),
   gotM (rfBytes 7 5 6 9 (beBytes 9 0xde8ade5a2d211e4cf3)), 0, (0 : Nat), [2#8], (5 : Nat), (1 : Nat), rfl,
   seen_got _ _ _ (by decide +kernel), by decide +kernel⟩,
   ⟨(rfOf (rfBytes 4 5 2 9 (beBytes 8 0xe99993e052c03c63)) : RfSeen), (receiving (airedItem { aItem with onAir := true, seq := 5 })
   : State), gotU (receiving (airedItem { aItem with onAir := true, seq := 5 })) (rfBytes 4 5 2 9 (beBytes 8 0xe99993e052c03c63)),
   gotU (receiving (airedItem { aItem with onAir := true, seq := 5 })) (rfBytes 4 5 2 9 (beBytes 8 0xe99993e052c03c63)), _,
   gotR (rfBytes 4 5 2 9 (beBytes 8 0xe99993e052c03c63)), gotM (rfBytes 4 5 2 9 (beBytes 8 0xe99993e052c03c63)), 0, (0 : Nat),
   ([] : List Byte), { aItem with onAir := true, seq := 5 }, rfl, check_ok _ _ _ _ _ (by decide +kernel),
   seen_got _ _ _ (by decide +kernel), by decide +kernel⟩,
   ⟨(rfOf (rfBytes 5 5 2 9 (beBytes 9 0x10b0e83ee05d2b6d3)) : RfSeen), (receiving (airedItem { aItem with onAir := true, seq := 5 })
   : State), gotU (receiving (airedItem { aItem with onAir := true, seq := 5 })) (rfBytes 5 5 2 9 (beBytes 9 0x10b0e83ee05d2b6d3)),
   gotU (receiving (airedItem { aItem with onAir := true, seq := 5 })) (rfBytes 5 5 2 9 (beBytes 9 0x10b0e83ee05d2b6d3)), _,
   gotR (rfBytes 5 5 2 9 (beBytes 9 0x10b0e83ee05d2b6d3)), gotM (rfBytes 5 5 2 9 (beBytes 9 0x10b0e83ee05d2b6d3)), 0, (0 : Nat), [1#8],
   { aItem with onAir := true, seq := 5 }, rfl, check_ok _ _ _ _ _ (by decide +kernel), seen_got _ _ _ (by decide +kernel),
   by decide +kernel⟩⟩

theorem wit_SequencerWordsSpellTheirInstructions :
    (∃ (i : Instr) (k : Core) (w : Nat) (s u : State), seqWord i = some (k, w) ∧ Fetched i k s u) ∧
    (∃ (i : Instr) (k : Core) (w : Nat) (x : Word) (s u : State) (f : Body), s.fetch k = (some x, u) ∧ seqDecode x.toNat = some f ∧
    seqWord i = some (k, w) ∧ s.coreRuns k.val = true ∧ (s.core k.val).irq = false ∧ x.toNat ≠ w) ∧
    (∃ (w : Nat), ((∀ i k, seqWord i ≠ some (k, w))) ∧ w < 2 ^ 32) ∧
    (∃ (i : Instr) (k : Core) (w : Nat) (x : Word) (s u : State), s.fetch k = (some x, u) ∧ (∀ i' k', seqWord i' ≠ some (k', x.toNat)) ∧
    seqWord i = some (k, w) ∧ s.coreRuns k.val = true ∧ (s.core k.val).irq = false) ∧
    (∃ (who : Accessor) (k : Core) (s u t : State) (w : Word),
    u = State.put (s.modCore k.val (fun c => { c with step := false })) (SEQ_STAT.STATE k.val) 0 ∧ ((∀ i j, seqWord i ≠ some (j,
    w.toNat))) ∧ s.coreHalted k.val = true ∧ s.seqMode = true ∧ (s.core k.val).irq = false ∧ u.fetch k = (some w, t) ∧
    Writable s who (SEQ_CTL k.val)) :=
  ⟨⟨.aclr 0 1, 0, 0x60004007, coded (.aclr 0 1) run, fetched (.aclr 0 1) run, by decide +kernel, fetched_coded _ _ (by decide +kernel)⟩,
   ⟨.aclr 0 1, 0, 0x60004007, 0x04600040, coded (.addk 0 3 0 64) run, fetched (.addk 0 3 0 64) run, _, Prod.ext (by decide +kernel) rfl,
   (Option.some_get (by decide +kernel)).symm, by decide +kernel⟩,
   ⟨0xFFFFFFFF, fun i k => noWord (by decide) i k, by decide +kernel⟩,
   ⟨.aclr 0 1, 0, 0x60004007, 0xFFFFFFFF, run.setBytes 0x01000000 (List.replicate 4 255#8),
   ((run.setBytes 0x01000000 (List.replicate 4 255#8)).fetch 0).2, Prod.ext (by decide +kernel) rfl, fun i k => noWord (by decide) i k,
   by decide +kernel⟩,
   ⟨.host, 0, ((run.put (SEQ_STAT.STATE 0) 6).setBytes 0x01000000 [255#8, 255#8, 255#8, 255#8] : State), _,
   (((State.put (((run.put (SEQ_STAT.STATE 0) 6).setBytes 0x01000000 [255#8, 255#8, 255#8, 255#8] : State).modCore (0 : Core).val (fun c => { c with step := false })) (SEQ_STAT.STATE (0 : Core).val) 0 : State).fetch (0 : Core)).2 : State),
   (((State.put (((run.put (SEQ_STAT.STATE 0) 6).setBytes 0x01000000 [255#8, 255#8, 255#8, 255#8] : State).modCore 0 (fun c => { c with step := false })) (SEQ_STAT.STATE 0) 0).fetch 0).1.getD 0 : Word),
   rfl, fun i j => noWord (by decide +kernel) i j, by unfold Writable; decide +kernel⟩⟩

theorem wit_StepKeepsCanonicalForm :
    ∃ (s t : State), step s = .next t ∧ s.Canonical :=
  ⟨run, run.idleTick, rfl, ⟨by decide +kernel, by decide +kernel⟩⟩

theorem wit_LinkEventsUseTheMappedChannels :
    (∃ (c : Nat) (s : State) (used : List Nat), used = s.rfUsed (s.rlink c).inUse.toNat ∧ used ≠ []) ∧
    (∃ (c : Nat) (s t : State) (used : List Nat), t = s.rfStep c ∧ used = t.rfUsed (t.rlink c).inUse.toNat ∧ c < 16 ∧ s.rfRole c ≠ 2 ∧
    used ≠ []) ∧
    (∃ (who : Accessor) (c : LinkC) (v : Word) (s : State) (m : _), m = s.rfMap c.val / 2 ^ 32 * 2 ^ 32 + v.toNat ∧ s.rfRole c.val = 0 ∧
    (s.rfUsed m).length < 2 ∧ Writable s who (RF_LMAP_LO c.val) ∧ m = s.rfMap c.val % 2 ^ 32 + v.toNat * 2 ^ 32 ∧ s.rfRole c.val = 0 ∧
    (s.rfUsed m).length < 2 ∧ Writable s who (RF_LMAP_HI c.val)) :=
  ⟨⟨0, aired, _, rfl, by decide +kernel⟩,
   ⟨0, aired, _, _, rfl, rfl, by decide +kernel⟩,
   ⟨.host, 0, 0, ((run.put (RF_LCFG.ROLE 0) 0) : State), _, rfl, by unfold Writable; decide +kernel⟩⟩

theorem wit_ProtectedFramesOpenToWhatWasProtected :
    (∃ (key nonce aad body : List Byte) (slv : Nat) (tag : List Byte), ((key.length = 16 ∨ key.length = 32)) ∧ nonce.length = 13 ∧
    tag.length = 8 ∧ tag ≠ (protect key nonce slv aad body).drop body.length) ∧
    (∃ (eui : List Byte), eui.length = 8) :=
  ⟨⟨(List.replicate 16 0#8 : List Byte), (List.replicate 13 0#8 : List Byte), ([] : List Byte), ([] : List Byte), 6,
   (List.replicate 8 0#8 : List Byte), by decide +kernel⟩,
   ⟨(List.replicate 8 0#8 : List Byte), by decide +kernel⟩⟩

end Sys2Proof.Tests
end

/-! PROOFS. The words of the sequencer instructions (R181 to R186): the fields of each format, the decoder on the instructions' words,
and that it reads no other word. -/

namespace Sys2Proof.Machine

/-! ### Fields of a word in each format (R181) -/

theorem fields_wordR {fn : Nat} (rd ra rb : Sreg) (h : fn < 2 ^ 11) :
    wOp (wordR fn rd ra rb) = 0 ∧ wD (wordR fn rd ra rb) = rd ∧ wA (wordR fn rd ra rb) = ra ∧ wB (wordR fn rd ra rb) = rb ∧
      bits (wordR fn rd ra rb) 10 0 = fn := by
  have := rd.isLt; have := ra.isLt; have := rb.isLt
  simp only [wOp, wD, wA, wB, Fin.ext_iff, Fin.ofNat_eq_cast, Fin.val_natCast, bits_eq, wordR]
  omega

theorem fields_wordQ {fn : Nat} (rd ra rb : Sreg) (h : fn < 2 ^ 4) :
    wOp (wordQ fn rd ra rb) = 0x1C ∧ wD (wordQ fn rd ra rb) = rd ∧ wA (wordQ fn rd ra rb) = ra ∧ wB (wordQ fn rd ra rb) = rb ∧
      bits (wordQ fn rd ra rb) 15 11 = rb.val ∧ bits (wordQ fn rd ra rb) 10 4 = 0 ∧ bits (wordQ fn rd ra rb) 3 0 = fn := by
  have := rd.isLt; have := ra.isLt; have := rb.isLt
  simp only [wOp, wD, wA, wB, Fin.ext_iff, Fin.ofNat_eq_cast, Fin.val_natCast, bits_eq, wordQ]
  omega

theorem fields_wordI {op : Nat} (x y : Sreg) (imm : Half) (h : op < 2 ^ 6) :
    wOp (wordI op x y imm) = op ∧ wD (wordI op x y imm) = x ∧ wA (wordI op x y imm) = y ∧ wImm (wordI op x y imm) = imm ∧
      bits (wordI op x y imm) 20 16 = y.val := by
  have := x.isLt; have := y.isLt; have := imm.isLt
  simp only [wOp, wD, wA, wImm, Fin.ext_iff, ← BitVec.toNat_inj, BitVec.toNat_ofNat, Fin.ofNat_eq_cast, Fin.val_natCast, bits_eq, wordI]
  omega

theorem fields_wordShk {op : Nat} (rd ra : Sreg) (sh : ShAmt) (h : op < 4) :
    wOp (wordShk op rd ra sh) = 7 ∧ wD (wordShk op rd ra sh) = rd ∧ wA (wordShk op rd ra sh) = ra ∧
      bits (wordShk op rd ra sh) 15 7 = 0 ∧ bits (wordShk op rd ra sh) 6 5 = op ∧ bits (wordShk op rd ra sh) 4 0 = sh.val := by
  have := rd.isLt; have := ra.isLt; have := sh.isLt
  simp only [wOp, wD, wA, Fin.ext_iff, Fin.ofNat_eq_cast, Fin.val_natCast, bits_eq, wordShk]
  omega

theorem fields_wordA {fn : Nat} (r1 r2 : Sreg) (ad src : AccN) (sh : ShAmt) (h : fn < 2 ^ 7) :
    wOp (wordA fn r1 r2 ad src sh) = 0x18 ∧ wD (wordA fn r1 r2 ad src sh) = r1 ∧ wA (wordA fn r1 r2 ad src sh) = r2 ∧
      wAd (wordA fn r1 r2 ad src sh) = ad ∧ wAs (wordA fn r1 r2 ad src sh) = src ∧ wSh (wordA fn r1 r2 ad src sh) = sh ∧
      bits (wordA fn r1 r2 ad src sh) 25 21 = r1.val ∧ bits (wordA fn r1 r2 ad src sh) 20 16 = r2.val ∧
      bits (wordA fn r1 r2 ad src sh) 15 14 = ad.val ∧ bits (wordA fn r1 r2 ad src sh) 13 12 = src.val ∧
      bits (wordA fn r1 r2 ad src sh) 11 7 = sh.val ∧ bits (wordA fn r1 r2 ad src sh) 6 0 = fn := by
  have := r1.isLt; have := r2.isLt; have := ad.isLt; have := src.isLt; have := sh.isLt
  simp only [wOp, wD, wA, wAd, wAs, wSh, Fin.ext_iff, Fin.ofNat_eq_cast, Fin.val_natCast, bits_eq, wordA]
  omega

theorem fields_wordT {fn : Nat} (r : Sreg) (p : StreamP) (h : fn < 2 ^ 4) :
    wOp (wordT fn r p) = 0x1D ∧ wD (wordT fn r p) = r ∧ bits (wordT fn r p) 20 18 = 0 ∧ bits (wordT fn r p) 17 16 = p.val ∧
      bits (wordT fn r p) 15 4 = 0 ∧ bits (wordT fn r p) 3 0 = fn := by
  have := r.isLt; have := p.isLt
  simp only [wOp, wD, Fin.ext_iff, Fin.ofNat_eq_cast, Fin.val_natCast, bits_eq, wordT]
  omega

theorem fields_wordY {fn : Nat} (rd ra : Sreg) (i : Cix) (h : fn < 2 ^ 4) :
    wOp (wordY fn rd ra i) = 0x1E ∧ wD (wordY fn rd ra i) = rd ∧ wA (wordY fn rd ra i) = ra ∧ bits (wordY fn rd ra i) 25 21 = rd.val ∧
      bits (wordY fn rd ra i) 20 16 = ra.val ∧ bits (wordY fn rd ra i) 15 10 = i.val ∧ bits (wordY fn rd ra i) 9 4 = 0 ∧
      bits (wordY fn rd ra i) 3 0 = fn := by
  have := rd.isLt; have := ra.isLt; have := i.isLt
  simp only [wOp, wD, wA, Fin.ext_iff, Fin.ofNat_eq_cast, Fin.val_natCast, bits_eq, wordY]
  omega

/-- Format J, which CALL alone has: OP and OFFS26. -/
theorem fields_wordJ (off : Off26) : wOp (0x16 * 2 ^ 26 + off.toNat) = 0x16 ∧ BitVec.ofNat 26 (0x16 * 2 ^ 26 + off.toNat) = off := by
  have := off.isLt
  simp only [wOp, ← BitVec.toNat_inj, BitVec.toNat_ofNat, bits_eq]
  omega

/-! ### Each instruction's word decodes to the instruction's effect (R182 to R186) -/

/-- The word `w` decodes to an effect, and the command `i` has exactly that effect on core `k` when the word at its PC is `w`. -/
def Spells (w : Nat) (i : Instr) (k : Core) : Prop :=
  ∃ f, seqDecode w = some f ∧ ∀ s, exec i s = .next (s.instr k w (seqEcc i) (f k (seqEcc i)))

theorem Spells.of_effect {w : Nat} {i : Instr} {k : Core} {g : State → State}
    (hexec : ∀ s, exec i s = .next (s.instr k w (seqEcc i) g)) (hdec : (seqDecode w).map (fun f => f k (seqEcc i)) = some g) :
    Spells w i k := by
  obtain ⟨f, hf, rfl⟩ := Option.map_eq_some_iff.mp hdec
  exact ⟨f, hf, hexec⟩

/-- Format by format, the fields read back from an instruction's word are its operands, and those it does not use are 0. -/
theorem seqWord_spells {i : Instr} {k : Core} {w : Nat} (h : seqWord i = some (k, w)) : Spells w i k := by
  cases i with
  | add k rd ra rb | sub k rd ra rb | and_ k rd ra rb | or_ k rd ra rb | xor_ k rd ra rb | shl k rd ra rb | shr k rd ra rb
  | asr k rd ra rb | clt k rd ra rb | cltu k rd ra rb | mul k rd ra rb | mulhi k rd ra rb | mulhiu k rd ra rb | min k rd ra rb
  | max k rd ra rb =>
    cases h
    exact .of_effect (fun _ => rfl) (by simp [seqDecode, decodeAlu, fields_wordR])
  | addk k x y imm | andk k x y imm | ork k x y imm | xork k x y imm | cltk k x y imm | ldw k x y imm _ | ldh k x y imm _
  | ldb k x y imm _ | stw k x y imm | sth k x y imm | stb k x y imm | heq k x y imm | hne k x y imm | hlt k x y imm | hle k x y imm
  | hltu k x y imm | hleu k x y imm | jmpr k x y imm | lih k x imm =>
    cases h
    exact .of_effect (fun _ => rfl) (by simp [seqDecode, decodeHop, clearBits, fields_wordI, seqEcc])
  | shlk k rd ra sh | shrk k rd ra sh | asrk k rd ra sh =>
    cases h
    exact .of_effect (fun _ => rfl) (by simp [seqDecode, decodeShift, clearBits, fields_wordShk])
  | call k off =>
    cases h
    exact .of_effect (fun _ => rfl) (by simp only [seqDecode, fields_wordJ, Option.map_some])
  | mula k r1 r2 ad | mac k r1 r2 ad | msu k r1 r2 ad | mta k r1 ad | mfa k r1 src sh | mfal k r1 src | mfau k r1 src | aclr k ad
  | pset k r1 r2 ad | padd k ad src | psub k ad src | pscl k r1 ad | pgeth k r1 src | pgetl k r1 src | amov k ad src =>
    cases h
    exact .of_effect (fun _ => rfl) (by simp [seqDecode, decodeAcc, clearBits, fields_wordA])
  | qget k rd ra rb _ | qgete k rd ra rb _ | qtry k rd ra rb _ | qput k rd ra rb _ | qrew k rd ra | qlvl k rd ra =>
    cases h
    exact .of_effect (fun _ => rfl) (by simp [seqDecode, decodeQueue, clearBits, fields_wordQ, seqEcc])
  | sin k r port | sout k r port =>
    cases h
    exact .of_effect (fun _ => rfl) (by simp [seqDecode, decodeStream, clearBits, fields_wordT])
  | wait k rd | rdctl k rd i | wrctl k ra i | supc k | hret k | trap k | synci k =>
    cases h
    exact .of_effect (fun _ => rfl) (by simp [seqDecode, decodeSys, clearBits, fields_wordY])
  | _ => cases h

/-! ### A decoded word is the word of an instruction -/

/-- Some instruction's word is `w`. -/
def Spelled (w : Nat) : Prop := ∃ i k, seqWord i = some (k, w)

theorem Spelled.of_word {i : Instr} {k : Core} {v w : Nat} (h : seqWord i = some (k, v)) (e : v = w) : Spelled w := ⟨i, k, e ▸ h⟩

section
variable {w : Nat} (hw : w < 2 ^ 32)
include hw

theorem wordI_fields {op : Nat} (hop : wOp w = op) : wordI op (wD w) (wA w) (wImm w) = w := by
  simp only [wOp, bits_eq] at hop
  simp only [wordI, wD, wA, wImm, BitVec.toNat_ofNat, Fin.ofNat_eq_cast, Fin.val_natCast, bits_eq]
  omega

theorem wordR_fields {fn : Nat} (hop : wOp w = 0) (hfn : bits w 10 0 = fn) : wordR fn (wD w) (wA w) (wB w) = w := by
  simp only [wOp, bits_eq] at hop hfn
  simp only [wordR, wD, wA, wB, Fin.ofNat_eq_cast, Fin.val_natCast, bits_eq]
  omega

theorem decodeAlu_spelled {f : Body} (hop : wOp w = 0) (h : decodeAlu w = some f) : Spelled w := by
  unfold decodeAlu at h
  have word {fn} := wordR_fields hw (fn := fn) hop
  split at h
  next hfn => exact .of_word (i := .add 0 _ _ _) rfl (word hfn)
  next hfn => exact .of_word (i := .sub 0 _ _ _) rfl (word hfn)
  next hfn => exact .of_word (i := .and_ 0 _ _ _) rfl (word hfn)
  next hfn => exact .of_word (i := .or_ 0 _ _ _) rfl (word hfn)
  next hfn => exact .of_word (i := .xor_ 0 _ _ _) rfl (word hfn)
  next hfn => exact .of_word (i := .shl 0 _ _ _) rfl (word hfn)
  next hfn => exact .of_word (i := .shr 0 _ _ _) rfl (word hfn)
  next hfn => exact .of_word (i := .asr 0 _ _ _) rfl (word hfn)
  next hfn => exact .of_word (i := .clt 0 _ _ _) rfl (word hfn)
  next hfn => exact .of_word (i := .cltu 0 _ _ _) rfl (word hfn)
  next hfn => exact .of_word (i := .mul 0 _ _ _) rfl (word hfn)
  next hfn => exact .of_word (i := .mulhi 0 _ _ _) rfl (word hfn)
  next hfn => exact .of_word (i := .mulhiu 0 _ _ _) rfl (word hfn)
  next hfn => exact .of_word (i := .min 0 _ _ _) rfl (word hfn)
  next hfn => exact .of_word (i := .max 0 _ _ _) rfl (word hfn)
  next => cases h

theorem wordShk_fields {op : Nat} (hop : wOp w = 7) (hz : clearBits w 15 7 = true) (hs : bits w 6 5 = op) :
    wordShk op (wD w) (wA w) (Fin.ofNat 32 (bits w 4 0)) = w := by
  simp only [wOp, clearBits, decide_eq_true_eq, bits_eq] at hop hz hs
  simp only [wordShk, wD, wA, Fin.ofNat_eq_cast, Fin.val_natCast, bits_eq]
  omega

theorem decodeShift_spelled {f : Body} (hop : wOp w = 7) (h : decodeShift w = some f) : Spelled w := by
  simp only [decodeShift, ite_not, Option.ite_none_right_eq_some] at h
  obtain ⟨hz, h⟩ := h
  have word {op} := wordShk_fields hw (op := op) hop hz
  split at h
  next hs => exact .of_word (i := .shlk 0 _ _ _) rfl (word hs)
  next hs => exact .of_word (i := .shrk 0 _ _ _) rfl (word hs)
  next hs => exact .of_word (i := .asrk 0 _ _ _) rfl (word hs)
  next => cases h

theorem wordJ_fields (hop : wOp w = 0x16) : 0x16 * 2 ^ 26 + (BitVec.ofNat 26 w : Off26).toNat = w := by
  simp only [wOp, bits_eq] at hop
  simp only [BitVec.toNat_ofNat]
  omega

theorem wordA_fields {fn : Nat} {r1 r2 : Sreg} {ad src : AccN} {sh : ShAmt} (hop : wOp w = 0x18) (hfn : bits w 6 0 = fn)
    (h1 : wD w = r1) (h2 : wA w = r2) (had : wAd w = ad) (has : wAs w = src) (hsh : wSh w = sh) : wordA fn r1 r2 ad src sh = w := by
  subst h1 h2 had has hsh
  simp only [wOp, bits_eq] at hop hfn
  simp only [wordA, wD, wA, wAd, wAs, wSh, Fin.ofNat_eq_cast, Fin.val_natCast, bits_eq]
  omega

theorem wordQ_fields {fn : Nat} {rb : Sreg} (hop : wOp w = 0x1C) (hz : clearBits w 10 4 = true) (hfn : bits w 3 0 = fn)
    (hb : wB w = rb) : wordQ fn (wD w) (wA w) rb = w := by
  subst hb
  simp only [wOp, clearBits, decide_eq_true_eq, bits_eq] at hop hz hfn
  simp only [wordQ, wD, wA, wB, Fin.ofNat_eq_cast, Fin.val_natCast, bits_eq]
  omega

theorem wordT_fields {fn : Nat} (hop : wOp w = 0x1D) (hz : clearBits w 20 18 = true) (hz' : clearBits w 15 4 = true)
    (hfn : bits w 3 0 = fn) : wordT fn (wD w) (Fin.ofNat 4 (bits w 17 16)) = w := by
  simp only [wOp, clearBits, decide_eq_true_eq, bits_eq] at hop hz hz' hfn
  simp only [wordT, wD, Fin.ofNat_eq_cast, Fin.val_natCast, bits_eq]
  omega

theorem wordY_fields {fn : Nat} {rd ra : Sreg} {i : Cix} (hop : wOp w = 0x1E) (hz : clearBits w 9 4 = true) (hfn : bits w 3 0 = fn)
    (hd : wD w = rd) (ha : wA w = ra) (hi : Fin.ofNat 64 (bits w 15 10) = i) : wordY fn rd ra i = w := by
  subst hd ha hi
  simp only [wOp, clearBits, decide_eq_true_eq, bits_eq] at hop hz hfn
  simp only [wordY, wD, wA, Fin.ofNat_eq_cast, Fin.val_natCast, bits_eq]
  omega

end

/-- A field that is clear reads as the number 0. -/
theorem ofNat_bits_of_clear {w n hi lo : Nat} [NeZero n] (h : clearBits w hi lo = true) : Fin.ofNat n (bits w hi lo) = 0 := by
  simp only [clearBits, decide_eq_true_eq] at h
  rw [h]; rfl

theorem wD_of_clear {w : Nat} (h : clearBits w 25 21 = true) : wD w = 0 := ofNat_bits_of_clear h
theorem wA_of_clear {w : Nat} (h : clearBits w 20 16 = true) : wA w = 0 := ofNat_bits_of_clear h
theorem wB_of_clear {w : Nat} (h : clearBits w 15 11 = true) : wB w = 0 := ofNat_bits_of_clear h
theorem wAd_of_clear {w : Nat} (h : clearBits w 15 14 = true) : wAd w = 0 := ofNat_bits_of_clear h
theorem wAs_of_clear {w : Nat} (h : clearBits w 13 12 = true) : wAs w = 0 := ofNat_bits_of_clear h
theorem wSh_of_clear {w : Nat} (h : clearBits w 11 7 = true) : wSh w = 0 := ofNat_bits_of_clear h

theorem decodeAcc_spelled {w : Nat} {f : Body} (hw : w < 2 ^ 32) (hop : wOp w = 0x18) (h : decodeAcc w = some f) : Spelled w := by
  unfold decodeAcc at h
  have z1 := @wD_of_clear w
  have z2 := @wA_of_clear w
  have zd := @wAd_of_clear w
  have zs := @wAs_of_clear w
  have zh := @wSh_of_clear w
  split at h <;> simp only [Option.ite_none_right_eq_some, Bool.and_eq_true, and_assoc, reduceCtorEq] at h
  next hfn =>
    obtain ⟨hs, hh, -⟩ := h
    exact .of_word (i := .mula 0 _ _ _) rfl (wordA_fields hw hop hfn rfl rfl rfl (zs hs) (zh hh))
  next hfn =>
    obtain ⟨hs, hh, -⟩ := h
    exact .of_word (i := .mac 0 _ _ _) rfl (wordA_fields hw hop hfn rfl rfl rfl (zs hs) (zh hh))
  next hfn =>
    obtain ⟨hs, hh, -⟩ := h
    exact .of_word (i := .msu 0 _ _ _) rfl (wordA_fields hw hop hfn rfl rfl rfl (zs hs) (zh hh))
  next hfn =>
    obtain ⟨h2, hs, hh, -⟩ := h
    exact .of_word (i := .mta 0 _ _) rfl (wordA_fields hw hop hfn rfl (z2 h2) rfl (zs hs) (zh hh))
  next hfn =>
    obtain ⟨h2, hd, -⟩ := h
    exact .of_word (i := .mfa 0 _ _ _) rfl (wordA_fields hw hop hfn rfl (z2 h2) (zd hd) rfl rfl)
  next hfn =>
    obtain ⟨h2, hd, hh, -⟩ := h
    exact .of_word (i := .mfal 0 _ _) rfl (wordA_fields hw hop hfn rfl (z2 h2) (zd hd) rfl (zh hh))
  next hfn =>
    obtain ⟨h2, hd, hh, -⟩ := h
    exact .of_word (i := .mfau 0 _ _) rfl (wordA_fields hw hop hfn rfl (z2 h2) (zd hd) rfl (zh hh))
  next hfn =>
    obtain ⟨h1, h2, hs, hh, -⟩ := h
    exact .of_word (i := .aclr 0 _) rfl (wordA_fields hw hop hfn (z1 h1) (z2 h2) rfl (zs hs) (zh hh))
  next hfn =>
    obtain ⟨hs, hh, -⟩ := h
    exact .of_word (i := .pset 0 _ _ _) rfl (wordA_fields hw hop hfn rfl rfl rfl (zs hs) (zh hh))
  next hfn =>
    obtain ⟨h1, h2, hh, -⟩ := h
    exact .of_word (i := .padd 0 _ _) rfl (wordA_fields hw hop hfn (z1 h1) (z2 h2) rfl rfl (zh hh))
  next hfn =>
    obtain ⟨h1, h2, hh, -⟩ := h
    exact .of_word (i := .psub 0 _ _) rfl (wordA_fields hw hop hfn (z1 h1) (z2 h2) rfl rfl (zh hh))
  next hfn =>
    obtain ⟨h2, hs, hh, -⟩ := h
    exact .of_word (i := .pscl 0 _ _) rfl (wordA_fields hw hop hfn rfl (z2 h2) rfl (zs hs) (zh hh))
  next hfn =>
    obtain ⟨h2, hd, hh, -⟩ := h
    exact .of_word (i := .pgeth 0 _ _) rfl (wordA_fields hw hop hfn rfl (z2 h2) (zd hd) rfl (zh hh))
  next hfn =>
    obtain ⟨h2, hd, hh, -⟩ := h
    exact .of_word (i := .pgetl 0 _ _) rfl (wordA_fields hw hop hfn rfl (z2 h2) (zd hd) rfl (zh hh))
  next hfn =>
    obtain ⟨h1, h2, hh, -⟩ := h
    exact .of_word (i := .amov 0 _ _) rfl (wordA_fields hw hop hfn (z1 h1) (z2 h2) rfl rfl (zh hh))

theorem decodeQueue_spelled {w : Nat} {f : Body} (hw : w < 2 ^ 32) (hop : wOp w = 0x1C) (h : decodeQueue w = some f) : Spelled w := by
  simp only [decodeQueue, ite_not, Option.ite_none_right_eq_some] at h
  obtain ⟨hz, h⟩ := h
  split at h
  next hfn => exact .of_word (i := .qget 0 _ _ _ .clean) rfl (wordQ_fields hw hop hz hfn rfl)
  next hfn => exact .of_word (i := .qgete 0 _ _ _ .clean) rfl (wordQ_fields hw hop hz hfn rfl)
  next hfn => exact .of_word (i := .qtry 0 _ _ _ .clean) rfl (wordQ_fields hw hop hz hfn rfl)
  next hfn => exact .of_word (i := .qput 0 _ _ _ .clean) rfl (wordQ_fields hw hop hz hfn rfl)
  next hfn =>
    obtain ⟨hb, -⟩ := Option.ite_none_right_eq_some.mp h
    exact .of_word (i := .qrew 0 _ _) rfl (wordQ_fields hw hop hz hfn (wB_of_clear hb))
  next hfn =>
    obtain ⟨hb, -⟩ := Option.ite_none_right_eq_some.mp h
    exact .of_word (i := .qlvl 0 _ _) rfl (wordQ_fields hw hop hz hfn (wB_of_clear hb))
  next => cases h

theorem decodeStream_spelled {w : Nat} {f : Body} (hw : w < 2 ^ 32) (hop : wOp w = 0x1D) (h : decodeStream w = some f) : Spelled w := by
  simp only [decodeStream, ite_not, Option.ite_none_right_eq_some, Bool.and_eq_true] at h
  obtain ⟨⟨hz, hz'⟩, h⟩ := h
  split at h
  next hfn => exact .of_word (i := .sin 0 _ _) rfl (wordT_fields hw hop hz hz' hfn)
  next hfn => exact .of_word (i := .sout 0 _ _) rfl (wordT_fields hw hop hz hz' hfn)
  next => cases h

theorem decodeSys_spelled {w : Nat} {f : Body} (hw : w < 2 ^ 32) (hop : wOp w = 0x1E) (h : decodeSys w = some f) : Spelled w := by
  simp only [decodeSys, ite_not, Option.ite_none_right_eq_some] at h
  obtain ⟨hz, h⟩ := h
  have zd := @wD_of_clear w
  have za := @wA_of_clear w
  have zi : clearBits w 15 10 = true → Fin.ofNat 64 (bits w 15 10) = 0 := ofNat_bits_of_clear
  split at h <;> simp only [Option.ite_none_right_eq_some, Bool.and_eq_true, and_assoc, reduceCtorEq] at h
  next hfn =>
    obtain ⟨ha, hi, -⟩ := h
    exact .of_word (i := .wait 0 _) rfl (wordY_fields hw hop hz hfn rfl (za ha) (zi hi))
  next hfn =>
    obtain ⟨ha, -⟩ := h
    exact .of_word (i := .rdctl 0 _ _) rfl (wordY_fields hw hop hz hfn rfl (za ha) rfl)
  next hfn =>
    obtain ⟨hd, -⟩ := h
    exact .of_word (i := .wrctl 0 _ _) rfl (wordY_fields hw hop hz hfn (zd hd) rfl rfl)
  next hfn =>
    obtain ⟨hd, ha, hi, -⟩ := h
    exact .of_word (i := .supc 0) rfl (wordY_fields hw hop hz hfn (zd hd) (za ha) (zi hi))
  next hfn =>
    obtain ⟨hd, ha, hi, -⟩ := h
    exact .of_word (i := .hret 0) rfl (wordY_fields hw hop hz hfn (zd hd) (za ha) (zi hi))
  next hfn =>
    obtain ⟨hd, ha, hi, -⟩ := h
    exact .of_word (i := .trap 0) rfl (wordY_fields hw hop hz hfn (zd hd) (za ha) (zi hi))
  next hfn =>
    obtain ⟨hd, ha, hi, -⟩ := h
    exact .of_word (i := .synci 0) rfl (wordY_fields hw hop hz hfn (zd hd) (za ha) (zi hi))

/-- The decoder reads no word but those of the instructions. -/
theorem seqDecode_spelled {w : Nat} {f : Body} (hw : w < 2 ^ 32) (h : seqDecode w = some f) : Spelled w := by
  unfold seqDecode at h
  have word {op} := wordI_fields hw (op := op)
  split at h
  next hop => exact decodeAlu_spelled hw hop h
  next hop => exact .of_word (i := .addk 0 _ _ _) rfl (word hop)
  next hop => exact .of_word (i := .andk 0 _ _ _) rfl (word hop)
  next hop => exact .of_word (i := .ork 0 _ _ _) rfl (word hop)
  next hop => exact .of_word (i := .xork 0 _ _ _) rfl (word hop)
  next hop => exact .of_word (i := .cltk 0 _ _ _) rfl (word hop)
  next hop =>
    obtain ⟨ha, -⟩ := Option.ite_none_right_eq_some.mp h
    exact .of_word (i := .lih 0 _ _) rfl (wA_of_clear ha ▸ word hop)
  next hop => exact decodeShift_spelled hw hop h
  next hop => exact .of_word (i := .ldw 0 _ _ _ .clean) rfl (word hop)
  next hop => exact .of_word (i := .ldh 0 _ _ _ .clean) rfl (word hop)
  next hop => exact .of_word (i := .ldb 0 _ _ _ .clean) rfl (word hop)
  next hop => exact .of_word (i := .stw 0 _ _ _) rfl (word hop)
  next hop => exact .of_word (i := .sth 0 _ _ _) rfl (word hop)
  next hop => exact .of_word (i := .stb 0 _ _ _) rfl (word hop)
  next hop => exact .of_word (i := .heq 0 _ _ _) rfl (word hop)
  next hop => exact .of_word (i := .hne 0 _ _ _) rfl (word hop)
  next hop => exact .of_word (i := .hlt 0 _ _ _) rfl (word hop)
  next hop => exact .of_word (i := .hle 0 _ _ _) rfl (word hop)
  next hop => exact .of_word (i := .hltu 0 _ _ _) rfl (word hop)
  next hop => exact .of_word (i := .hleu 0 _ _ _) rfl (word hop)
  next hop => exact .of_word (i := .call 0 _) rfl (wordJ_fields hw hop)
  next hop => exact .of_word (i := .jmpr 0 _ _ _) rfl (word hop)
  next hop => exact decodeAcc_spelled hw hop h
  next hop => exact decodeQueue_spelled hw hop h
  next hop => exact decodeStream_spelled hw hop h
  next hop => exact decodeSys_spelled hw hop h
  next => cases h

theorem seqDecode_eq_none_of_not_spelled {w : Nat} (hw : w < 2 ^ 32) (h : ∀ i k, seqWord i ≠ some (k, w)) : seqDecode w = none := by
  by_contra hne
  obtain ⟨f, hf⟩ := Option.ne_none_iff_exists'.mp hne
  obtain ⟨i, k, hik⟩ := seqDecode_spelled hw hf
  exact h i k hik

end Sys2Proof.Machine

/-! PROOFS. How a core runs the word at its PC (R194, R195), and O56. -/

namespace Sys2Proof.Machine

/-! ### Interrupts around an instruction (R194) -/

theorem State.irqDue_of_irq {s : State} {k : Nat} (h : (s.core k).irq = false) : s.irqDue k = false := by
  simp [State.irqDue, h]

theorem State.takeIrq_of_not_due {s : State} {k : Nat} (h : s.irqDue k = false) : s.takeIrq k = s := by
  simp [State.takeIrq, h]

theorem State.irqFirst_of_not_due {s : State} {k : Nat} (h : s.irqDue k = false) : s.irqFirst k = s := by
  simp [State.irqFirst, State.takeIrq_of_not_due h]

theorem State.irqCount_of_irq {s : State} {k : Nat} (h : (s.core k).irq = false) : s.irqCount k = s := by
  simp [State.irqCount, State.irqDue_of_irq h]

/-! ### The word at the PC runs -/

theorem State.coreRuns_iff {s : State} {k : Nat} : s.coreRuns k = true ↔ s.seqMode = true ∧ s.coreState k = 0 := by
  simp [State.coreRuns]

theorem State.fetchRun_of_fetch {s u : State} {k : Core} {x : Word} {g : Word → State → State} (hr : s.coreState k.val = 0)
    (hq : s.irqDue k.val = false) (hf : s.fetch k = (some x, u)) : s.fetchRun k g = (g x u).irqCount k.val := by
  simp [State.fetchRun, State.irqFirst_of_not_due hq, hr, hf]

theorem State.perform_of_decode {s : State} {k : Core} {e : Ecc} {x : Word} {f : Body} (h : seqDecode x.toNat = some f) :
    s.perform k e x = f k e s := by simp [State.perform, h]

/-- A word that spells no instruction raises ILLEGAL. -/
theorem State.perform_of_not_spelled {s : State} {k : Core} {e : Ecc} {x : Word} (h : ∀ i j, seqWord i ≠ some (j, x.toNat)) :
    s.perform k e x = s.raise k.val 1 0 := by
  simp [State.perform, seqDecode_eq_none_of_not_spelled x.isLt h]

/-- A core that runs, no interrupt due, executes the word at its PC: `g` where that is `w`, else what it spells. -/
theorem State.instr_of_fetch {s u : State} {k : Core} {w : Nat} {e : Ecc} {g : State → State} {x : Word} (hr : s.coreRuns k.val = true)
    (hq : s.irqDue k.val = false) (hf : s.fetch k = (some x, u)) :
    s.instr k w e g = State.irqCount (if x.toNat = w then g u else u.perform k e x) k.val := by
  rw [State.instr, if_neg (by simp [hr]), State.fetchRun_of_fetch (State.coreRuns_iff.mp hr).2 hq hf]

/-- The command of an instruction does what the word at the PC spells, be that its own word or another. -/
theorem exec_of_fetch {i : Instr} {k : Core} {w : Nat} {x : Word} {s u : State} (hw : seqWord i = some (k, w))
    (hr : s.coreRuns k.val = true) (hq : s.irqDue k.val = false) (hf : s.fetch k = (some x, u)) :
    exec i s = .next ((u.perform k (seqEcc i) x).irqCount k.val) := by
  obtain ⟨f, hd, hx⟩ := seqWord_spells hw
  rw [hx, State.instr_of_fetch hr hq hf]
  split
  next h => rw [State.perform_of_decode (h ▸ hd)]
  next => rfl

/-- STEP of a halted core performs the word at its PC and halts the core again (R195). -/
theorem exec_step_of_fetch {who : Accessor} {k : Core} {e : Ecc} {s u t : State} {w : Word} (hwr : Writable s who (SEQ_CTL k.val))
    (hh : s.coreHalted k.val = true) (hm : s.seqMode = true) (hq : (s.core k.val).irq = false)
    (hu : u = State.put (s.modCore k.val (fun c => { c with step := false })) (SEQ_STAT.STATE k.val) 0)
    (hf : u.fetch k = (some w, t)) :
    exec (.step who k e) s = .next (((t.perform k e w).irqCount k.val).halt k.val) := by
  have hrun : u.coreState k.val = 0 := hu ▸ State.get_put_same _ _ _ (by simp [SEQ_STAT.STATE]) (by simp [SEQ_STAT.STATE])
  have hirq : (u.core k.val).irq = false := by
    rw [hu]; simpa [State.core, State.modCore, mmod] using hq
  have hh' : (s.modCore k.val (fun c => { c with step := false })).coreHalted k.val = true := hh
  have hm' : (s.modCore k.val (fun c => { c with step := false })).seqMode = true := hm
  show Host.Outcome.next _ = _
  rw [State.enter_of_writable _ _ _ _ hwr, State.stepCore]
  simp only [hh', hm', Bool.and_self, if_true, ← hu, State.runWord, State.fetchRun_of_fetch hrun (State.irqDue_of_irq hirq) hf]

/-- Settles O56: each instruction's word decodes to its effect (`seqWord_spells`), every word that decodes is an instruction's word
(`seqDecode_spelled`), and a command performs whatever word its core has fetched (`exec_of_fetch`). -/
theorem sequencerWordsSpellTheirInstructions : Obligations.SequencerWordsSpellTheirInstructions := by
  refine ⟨fun i k w hw => ?_, fun i k w x s u f hw hr hq hf _ hd => ?_, fun w hw hn => ?_, fun i k w x s u hw hr hq hf hn => ?_,
    fun who k e s u t w hn hwr hh hm hq hu hf => ?_⟩
  · obtain ⟨f, hd, -⟩ := seqWord_spells hw
    refine ⟨lt_trans (Laws.SeqWord.holds i k w hw) (by decide), f, hd, fun s u ⟨hr, hq, _, x, hx, hf⟩ => ?_⟩
    obtain ⟨-, rfl⟩ := Prod.mk.inj (Option.some.inj (hw.symm.trans hx))
    rw [exec_of_fetch hw hr (State.irqDue_of_irq hq) hf, State.perform_of_decode hd]
  · rw [exec_of_fetch hw hr (State.irqDue_of_irq hq) hf, State.perform_of_decode hd]
  · exact seqDecode_eq_none_of_not_spelled hw hn
  · rw [exec_of_fetch hw hr (State.irqDue_of_irq hq) hf, State.perform_of_not_spelled hn]
  · rw [exec_step_of_fetch hwr hh hm hq hu hf, State.perform_of_not_spelled hn]

end Sys2Proof.Machine

/-! PROOFS. Exceptions and interrupts of a core (R192 to R194), and O31. -/

namespace Sys2Proof.Machine

/-! ### Reads of registers and fields after a write -/

theorem State.get_setReg_ne (s : State) {f : Fld} {a : Nat} (v : Word) (h : f.addr ≠ a) : (s.setReg a v).get f = s.get f := by
  simp only [State.get, State.reg_setReg_ne s v h]

/-- Two fields of one register do not overlap: a write of the one is not read in the other. -/
theorem State.get_put_other (s : State) {a hi lo hi' lo' : Nat} (v : Nat) (h : lo ≤ hi) (h' : hi < 32) (hg : lo' ≤ hi')
    (hd : hi < lo' ∨ hi' < lo) : (s.put ⟨a, hi, lo⟩ v).get ⟨a, hi', lo'⟩ = s.get ⟨a, hi', lo'⟩ :=
  State.get_put_apart s ⟨a, hi, lo⟩ ⟨a, hi', lo'⟩ v rfl (Nat.le_succ_of_le h) h' hg hd

@[simp] theorem State.reg_modCore (s : State) (k : Nat) (f : CoreSt → CoreSt) (a : Nat) : (s.modCore k f).reg a = s.reg a := by
  rw [State.reg, State.reg, State.modCore_regs]
@[simp] theorem State.get_modCore (s : State) (k : Nat) (f : CoreSt → CoreSt) (g : Fld) : (s.modCore k f).get g = s.get g := by
  rw [State.get, State.get, State.reg_modCore]
@[simp] theorem State.core_setReg (s : State) (a : Nat) (v : Word) (j : Nat) : (s.setReg a v).core j = s.core j := by
  rw [State.core, State.core, State.setReg_cores]
@[simp] theorem State.core_put (s : State) (f : Fld) (v j : Nat) : (s.put f v).core j = s.core j := State.core_setReg ..
@[simp] theorem State.core_putFlag (s : State) (f : Fld) (b : Bool) (j : Nat) : (s.putFlag f b).core j = s.core j := State.core_put ..
@[simp] theorem State.core_setPc (s : State) (k a j : Nat) : (s.setPc k a).core j = s.core j := State.core_setReg ..

/-! ### Frames -/

theorem Same.trans {c : Comp} {s t u : State} (h : Same c s t) (h' : Same c t u) : Same c s u := by
  cases c with
  | poison => exact ⟨h'.1.trans h.1, h'.2.trans h.2⟩
  | _ => exact Eq.trans h' h

theorem Frame.trans {l : List Comp} {s t u : State} (h : Frame l s t) (h' : Frame l t u) : Frame l s u :=
  fun c hc => (h c hc).trans (h' c hc)

theorem Frame.mono {l m : List Comp} {s t : State} (h : Frame l s t) (hm : l ⊆ m) : Frame m s t := fun c hc => h c (fun hl => hc (hm hl))

theorem Frame.setReg (s : State) (a : Nat) (v : Word) : Frame [.regs] s (s.setReg a v) := by
  intro c hc
  cases c with
  | regs => simp at hc
  | poison => exact ⟨rfl, rfl⟩
  | _ => rfl

theorem Frame.put (s : State) (f : Fld) (v : Nat) : Frame [.regs] s (s.put f v) := Frame.setReg _ _ _

theorem Frame.modCore (s : State) (k : Nat) (f : CoreSt → CoreSt) : Frame [.cores] s (s.modCore k f) := by
  intro c hc
  cases c with
  | cores => simp at hc
  | poison => exact ⟨rfl, rfl⟩
  | _ => rfl

/-! ### An exception (R193) -/

/-- What an S core saves when it enters a handler. -/
def State.saveExc (s : State) (k c x : Nat) : State :=
  (((s.setReg (SEQ_EVAL k) (BitVec.ofNat 32 x)).setReg (SEQ_EPC k) (s.reg (SEQ_PC k))).put (SEQ_STAT.CAUSE k) c).putFlag
    (SEQ_STAT.INEXC k) true

/-- EVAL of an exception changes none of what decides how it is taken. -/
theorem State.lCore_setEval (s : State) (k : Nat) (v : Word) : (s.setReg (SEQ_EVAL k) v).lCore k = s.lCore k := by
  rw [State.lCore, State.flag, State.get_setReg_ne _ _ (by simp [SEQ_CFG.PRIV, SEQ_CFG, SEQ_EVAL]), ← State.flag, ← State.lCore]

theorem State.inexc_setEval (s : State) (k : Nat) (v : Word) :
    (s.setReg (SEQ_EVAL k) v).flag (SEQ_STAT.INEXC k) = s.flag (SEQ_STAT.INEXC k) := by
  rw [State.flag, State.get_setReg_ne _ _ (by simp [SEQ_STAT.INEXC, SEQ_STAT, SEQ_EVAL]), ← State.flag]

theorem State.pc_setEval (s : State) (k : Nat) (v : Word) : (s.setReg (SEQ_EVAL k) v).reg (SEQ_PC k) = s.reg (SEQ_PC k) :=
  State.reg_setReg_ne s v (by simp [SEQ_PC, SEQ_EVAL])

/-- Of the registers, an entry saves into EVAL, EPC and STAT alone. -/
theorem State.saveExc_reg (s : State) (k c x : Nat) {a : Nat} (h1 : a ≠ SEQ_EVAL k) (h2 : a ≠ SEQ_EPC k) (h3 : a ≠ SEQ_STAT k) :
    (s.saveExc k c x).reg a = s.reg a := by
  rw [State.saveExc, State.putFlag, State.reg_put_ne _ _ _ h3, State.reg_put_ne _ _ _ h3, State.reg_setReg_ne _ _ h2,
    State.reg_setReg_ne _ _ h1]

theorem State.raise_of_lCore {s : State} {k : Nat} (c x : Nat) (h : s.lCore k = true) :
    s.raise k c x = ((s.setReg (SEQ_EVAL k) (BitVec.ofNat 32 x)).put (SEQ_STAT.CAUSE k) c).haltExc k := by
  simp only [State.raise, State.lCore_setEval, h, if_true]

theorem State.raise_of_inexc {s : State} {k : Nat} (c x : Nat) (h : s.lCore k = false) (hi : s.flag (SEQ_STAT.INEXC k) = true) :
    s.raise k c x = ((s.setReg (SEQ_EVAL k) (BitVec.ofNat 32 x)).put (SEQ_STAT.CAUSE k) 11).haltExc k := by
  simp only [State.raise, State.lCore_setEval, h, Bool.false_eq_true, if_false, State.inexc_setEval, hi, if_true]

theorem State.reg_setPc_ne (s : State) (k a : Nat) {b : Nat} (h : b ≠ SEQ_PC k) : (s.setPc k a).reg b = s.reg b :=
  State.reg_setReg_ne s _ h

theorem State.toNat_setPc (s : State) (k : Nat) (v : Word) : ((s.setPc k v.toNat).reg (SEQ_PC k)).toNat = v.toNat / 4 * 4 := by
  simp only [State.setPc, State.reg_setReg_self, BitVec.toNat_ofNat]
  have := v.isLt
  omega

section
variable (s : State) (k c x : Nat)

theorem State.saveExc_eval : (s.saveExc k c x).reg (SEQ_EVAL k) = BitVec.ofNat 32 x := by
  rw [State.saveExc, State.putFlag, State.reg_put_ne _ _ _ (by simp [SEQ_EVAL, SEQ_STAT.INEXC, SEQ_STAT]),
    State.reg_put_ne _ _ _ (by simp [SEQ_EVAL, SEQ_STAT.CAUSE, SEQ_STAT]), State.reg_setReg_ne _ _ (by simp [SEQ_EVAL, SEQ_EPC]),
    State.reg_setReg_self]

theorem State.saveExc_epc : (s.saveExc k c x).reg (SEQ_EPC k) = s.reg (SEQ_PC k) := by
  rw [State.saveExc, State.putFlag, State.reg_put_ne _ _ _ (by simp [SEQ_EPC, SEQ_STAT.INEXC, SEQ_STAT]),
    State.reg_put_ne _ _ _ (by simp [SEQ_EPC, SEQ_STAT.CAUSE, SEQ_STAT]), State.reg_setReg_self]

theorem State.saveExc_inexc : (s.saveExc k c x).get (SEQ_STAT.INEXC k) = 1 :=
  State.get_put_same _ _ _ (by simp [SEQ_STAT.INEXC]) (by simp [SEQ_STAT.INEXC])

theorem State.saveExc_cause (h : c < 16) : (s.saveExc k c x).get (SEQ_STAT.CAUSE k) = c := by
  rw [State.saveExc, State.putFlag, SEQ_STAT.CAUSE, SEQ_STAT.INEXC, State.get_put_other _ _ (by decide) (by decide) (by decide) (by decide),
    State.get_put_same _ _ _ (by simp) (by simp)]
  exact Nat.mod_eq_of_lt h

/-- A field of SEQ_STAT below CAUSE is not touched. -/
theorem State.saveExc_get {hi lo : Nat} (h : lo ≤ hi) (h' : hi < 24) :
    (s.saveExc k c x).get ⟨SEQ_STAT k, hi, lo⟩ = s.get ⟨SEQ_STAT k, hi, lo⟩ := by
  rw [State.saveExc, State.putFlag, SEQ_STAT.CAUSE, SEQ_STAT.INEXC, State.get_put_other _ _ (by decide) (by decide) h (.inr (by omega)),
    State.get_put_other _ _ (by decide) (by decide) h (.inr h'),
    State.get_setReg_ne _ _ (by simp [SEQ_STAT, SEQ_EPC]), State.get_setReg_ne _ _ (by simp [SEQ_STAT, SEQ_EVAL])]

theorem State.saveExc_core (j : Nat) : (s.saveExc k c x).core j = s.core j := by
  rw [State.saveExc, State.core_putFlag, State.core_put, State.core_setReg, State.core_setReg]

theorem State.saveExc_frame : Frame [.regs] s (s.saveExc k c x) :=
  (((Frame.setReg _ _ _).trans (Frame.setReg _ _ _)).trans (Frame.put _ _ _)).trans (Frame.put _ _ _)

/-- Core k in its handler, with what the exception has saved. -/
def State.inHandler : State :=
  (((s.saveExc k c x).setPc k (s.reg (SEQ_VEC k)).toNat).put (SEQ_STAT.STATE k) 0).modCore k (fun d => { d with stall := .none })

theorem State.inHandler_reg_ne {a : Nat} (h : a ≠ SEQ_STAT k) (h' : a ≠ SEQ_PC k) :
    (s.inHandler k c x).reg a = (s.saveExc k c x).reg a := by
  rw [State.inHandler, State.reg_modCore, State.reg_put_ne _ _ _ h, State.reg_setPc_ne _ _ _ h']

theorem State.inHandler_pc : ((s.inHandler k c x).reg (SEQ_PC k)).toNat = (s.reg (SEQ_VEC k)).toNat / 4 * 4 := by
  rw [State.inHandler, State.reg_modCore, State.reg_put_ne _ _ _ (by simp [SEQ_STAT.STATE, SEQ_STAT, SEQ_PC]), State.toNat_setPc]

theorem State.inHandler_coreState : (s.inHandler k c x).coreState k = 0 := by
  rw [State.coreState, State.inHandler, State.get_modCore,
    State.get_put_same _ _ _ (by simp [SEQ_STAT.STATE]) (by simp [SEQ_STAT.STATE]), Nat.zero_mod]

/-- A field of SEQ_STAT below STATE reads as the entry has saved it. -/
theorem State.inHandler_get {hi lo : Nat} (h : lo ≤ hi) (h' : hi < 29) :
    (s.inHandler k c x).get ⟨SEQ_STAT k, hi, lo⟩ = (s.saveExc k c x).get ⟨SEQ_STAT k, hi, lo⟩ := by
  rw [State.inHandler, State.get_modCore, SEQ_STAT.STATE, State.get_put_other _ _ (by omega) (by omega) h (.inr h'), State.setPc,
    State.get_setReg_ne _ _ (by simp [SEQ_STAT, SEQ_PC])]

theorem State.inHandler_core (j : Nat) : (s.inHandler k c x).core j = if j = k then { s.core k with stall := .none } else s.core j := by
  rw [State.inHandler, State.core_modCore]
  simp only [State.core_put, State.core_setPc, State.saveExc_core]

theorem State.inHandler_sr (j : Nat) (i : Sreg) : (s.inHandler k c x).sr j i = s.sr j i := by
  rw [State.sr, State.sr, State.inHandler_core]
  by_cases hj : j = k <;> simp [hj]

theorem State.inHandler_acc (j : Nat) (i : AccN) : (s.inHandler k c x).acc j i = s.acc j i := by
  rw [State.acc, State.acc, State.inHandler_core]
  by_cases hj : j = k <;> simp [hj]

theorem State.inHandler_regsBut : RegsBut [SEQ_EPC k, SEQ_EVAL k, SEQ_STAT k, SEQ_PC k] s (s.inHandler k c x) := by
  intro a h
  simp only [List.mem_cons, List.not_mem_nil, or_false, not_or] at h
  obtain ⟨h1, h2, h3, h4⟩ := h
  rw [State.inHandler_reg_ne _ _ _ _ h3 h4, State.saveExc_reg _ _ _ _ h2 h1 h3]

theorem State.inHandler_frame : Frame [.regs, .cores] s (s.inHandler k c x) :=
  have hregs := ((State.saveExc_frame s k c x).trans (Frame.setReg _ _ _)).trans (Frame.put _ (SEQ_STAT.STATE k) 0)
  (hregs.mono (by simp)).trans ((Frame.modCore _ _ _).mono (by simp))

end

/-- An S core outside a handler saves what it must and enters its handler, or halts for want of one. -/
theorem State.raise_of_free {s : State} {k : Nat} (c x : Nat) (h : s.lCore k = false) (hi : s.flag (SEQ_STAT.INEXC k) = false) :
    s.raise k c x = if s.reg (SEQ_VEC k) = 0 then (s.saveExc k c x).haltExc k else s.inHandler k c x := by
  have hv : (s.saveExc k c x).reg (SEQ_VEC k) = s.reg (SEQ_VEC k) :=
    State.saveExc_reg s k c x (by simp [SEQ_VEC, SEQ_EVAL]) (by simp [SEQ_VEC, SEQ_EPC]) (by simp [SEQ_VEC, SEQ_STAT])
  simp only [State.raise, State.lCore_setEval, h, Bool.false_eq_true, if_false, State.inexc_setEval, hi, State.pc_setEval,
    ← State.saveExc.eq_def, hv, State.inHandler]

/-! ### A halt on an exception (R193, R210) -/

/-- An event of a kind that a follower does not send to the lead goes to this unit's own ring. -/
theorem State.event_own (s : State) {kind : Nat} (status source info : Nat) (detail : List Byte) (h : kind < 256)
    (hk : forwarded kind = false) : s.event kind status source info detail = s.ringEvent (eventRec kind status source info detail) := by
  have hn : leNat ((eventRec kind status source info detail).take 1) = kind := by
    simp [eventRec, leBytes, leNat, Nat.mod_eq_of_lt h]
  simp [State.event, State.tell, State.tellFuel, State.note, hn, hk]

@[simp] theorem State.core_coreEvent (s : State) (k b j : Nat) : (s.coreEvent k b).core j = s.core j := State.core_put ..

theorem State.cores_ringEvent (s : State) (rec : List Byte) : (s.ringEvent rec).cores = s.cores := by
  unfold State.ringEvent
  split
  · exact State.count_cores ..
  · split
    · rw [State.pushEvent, State.put_cores, State.setWord_cores]
    · simp only [State.count_cores]

@[simp] theorem State.core_ringEvent (s : State) (rec : List Byte) (j : Nat) : (s.ringEvent rec).core j = s.core j := by
  rw [State.core, State.core, State.cores_ringEvent]

/-- A change of one core that leaves its waiting interrupt alone (R194). -/
theorem State.irq_modCore (s : State) (k : Nat) (f : CoreSt → CoreSt) (j : Nat) (hf : ∀ c, (f c).irq = c.irq) :
    ((s.modCore k f).core j).irq = (s.core j).irq := by
  rw [State.core_modCore]
  split
  next h => rw [hf, h]
  next => rfl

theorem State.reg_coreEvent_ne (s : State) (k b : Nat) {a : Nat} (h : a ≠ SEQ_EV k) : (s.coreEvent k b).reg a = s.reg a :=
  State.reg_put_ne s _ _ h

/-- Core k in HALT_EXC, before its supervisor and the host are told. -/
def State.haltedExc (s : State) (k : Nat) : State := (s.put (SEQ_STAT.STATE k) 5).modCore k (fun c => { c with stall := .none })

/-- CALL latched in core j touches no register of core k but, where j is k, SEQ_EV. -/
theorem State.haltedExc_reg_ne (s : State) (k j : Nat) {a : Nat} (h : a ≠ SEQ_EV j) (h' : a ≠ SEQ_STAT k) :
    ((s.haltedExc k).coreEvent j 7).reg a = s.reg a := by
  rw [State.reg_coreEvent_ne _ _ _ h, State.haltedExc, State.reg_modCore, State.reg_put_ne _ _ _ h']

theorem State.haltedExc_cause (s : State) (k j : Nat) :
    ((s.haltedExc k).coreEvent j 7).get (SEQ_STAT.CAUSE k) = s.get (SEQ_STAT.CAUSE k) := by
  rw [State.get, State.reg_coreEvent_ne _ _ _ (by simp only [SEQ_STAT.CAUSE, SEQ_STAT, SEQ_EV]; omega), ← State.get, State.haltedExc,
    State.get_modCore, SEQ_STAT.STATE, SEQ_STAT.CAUSE, State.get_put_other _ _ (by decide) (by decide) (by decide) (by decide)]

theorem State.haltedExc_super (s : State) (k : Nat) : (s.haltedExc k).get (SEQ_CFG.SUPER k) = s.get (SEQ_CFG.SUPER k) := by
  rw [State.haltedExc, State.get_modCore, State.get_put_ne _ _ _ _ (by simp [SEQ_CFG.SUPER, SEQ_CFG, SEQ_STAT.STATE, SEQ_STAT])]

/-- The event carries cause, PC and EVAL as they were before the halt. -/
theorem State.haltExc_eq (s : State) (k : Nat) :
    s.haltExc k = ((s.haltedExc k).coreEvent (s.get (SEQ_CFG.SUPER k)) 7).event 7 0 k (s.get (SEQ_STAT.CAUSE k))
      (leBytes 4 (s.reg (SEQ_PC k)).toNat ++ leBytes 4 (s.reg (SEQ_EVAL k)).toNat) := by
  rw [State.haltExc, ← State.haltedExc, State.haltedExc_super, State.haltedExc_cause,
    State.haltedExc_reg_ne _ _ _ (by simp only [SEQ_PC, SEQ_EV]; omega) (by simp [SEQ_PC, SEQ_STAT]),
    State.haltedExc_reg_ne _ _ _ (by simp only [SEQ_EVAL, SEQ_EV]; omega) (by simp [SEQ_EVAL, SEQ_STAT])]

@[simp] theorem State.irq_haltExc (s : State) (k j : Nat) : ((s.haltExc k).core j).irq = (s.core j).irq := by
  rw [State.haltExc_eq, State.event_own _ _ _ _ _ (by decide) (by decide), State.core_ringEvent, State.core_coreEvent,
    State.haltedExc, State.irq_modCore, State.core_put]
  exact fun _ => rfl

/-- An exception neither signals an interrupt nor withdraws one. -/
@[simp] theorem State.irq_raise (s : State) (k c x j : Nat) : ((s.raise k c x).core j).irq = (s.core j).irq := by
  cases hl : s.lCore k with
  | true => rw [State.raise_of_lCore c x hl, State.irq_haltExc, State.core_put, State.core_setReg]
  | false =>
    cases hi : s.flag (SEQ_STAT.INEXC k) with
    | true => rw [State.raise_of_inexc c x hl hi, State.irq_haltExc, State.core_put, State.core_setReg]
    | false =>
      rw [State.raise_of_free c x hl hi]
      split
      · rw [State.irq_haltExc, State.saveExc_core]
      · rw [State.inHandler, State.irq_modCore, State.core_put, State.core_setPc, State.saveExc_core]
        exact fun _ => rfl

/-! ### The commands of the system instructions (R188 to R193) -/

theorem exec_wait (k : Core) (rd : Sreg) (s : State) :
    exec (.wait k rd) s = .next (s.instr k (wordY 0 rd 0 0) .clean (fun t => t.waitFor k rd)) := rfl
theorem exec_rdctl (k : Core) (rd : Sreg) (i : Cix) (s : State) :
    exec (.rdctl k rd i) s = .next (s.instr k (wordY 1 rd 0 i) .clean (fun t => t.rdctl k rd i)) := rfl
theorem exec_wrctl (k : Core) (ra : Sreg) (i : Cix) (s : State) :
    exec (.wrctl k ra i) s = .next (s.instr k (wordY 2 0 ra i) .clean (fun t => t.wrctl k ra i)) := rfl
theorem exec_supc (k : Core) (s : State) : exec (.supc k) s = .next (s.instr k (wordY 3 0 0 0) .clean (fun t => t.supc k)) := rfl
theorem exec_hret (k : Core) (s : State) : exec (.hret k) s = .next (s.instr k (wordY 4 0 0 0) .clean (fun t => t.hret k)) := rfl
theorem exec_trap (k : Core) (s : State) : exec (.trap k) s = .next (s.instr k (wordY 5 0 0 0) .clean (fun t => t.raise k.val 9 0)) := rfl
theorem exec_synci (k : Core) (s : State) : exec (.synci k) s = .next (s.instr k (wordY 6 0 0 0) .clean (fun t => t.synci k)) := rfl

/-! ### An instruction's command on a core that has fetched it -/

/-- The command of an instruction with effect `g`, and the interrupt that R194 counts it for. -/
theorem exec_of_fetched {i : Instr} {k : Core} {w : Nat} {e : Ecc} {g : State → State} {s u : State}
    (hx : ∀ s, exec i s = .next (s.instr k w e g)) (hw : seqWord i = some (k, w)) (h : Fetched i k s u) :
    exec i s = .next ((g u).irqCount k.val) := by
  obtain ⟨hr, hq, -, x, hx', hf⟩ := h
  obtain ⟨-, hxw⟩ := Prod.mk.inj (Option.some.inj (hw.symm.trans hx'))
  rw [hx, State.instr_of_fetch hr (State.irqDue_of_irq hq) hf, if_pos hxw.symm]

theorem Fetched.irq {i : Instr} {k : Core} {s u : State} (h : Fetched i k s u) : (u.core k.val).irq = false := by
  obtain ⟨-, -, hu, -⟩ := h
  exact hu

/-- Where the instruction signals no interrupt, the command has its effect alone. -/
theorem exec_of_fetched_quiet {i : Instr} {k : Core} {w : Nat} {e : Ecc} {g : State → State} {s u : State}
    (hx : ∀ s, exec i s = .next (s.instr k w e g)) (hw : seqWord i = some (k, w)) (h : Fetched i k s u)
    (hg : ((g u).core k.val).irq = (u.core k.val).irq) : exec i s = .next (g u) := by
  rw [exec_of_fetched hx hw h, State.irqCount_of_irq (hg.trans h.irq)]

/-- HRET of an S core, and the interrupt that its handler held (R193, R194). -/
theorem State.hret_of_sCore {s : State} {k : Core} (h : s.lCore k.val = false) :
    s.hret k = ((s.setReg (SEQ_PC k.val) (s.reg (SEQ_EPC k.val))).putFlag (SEQ_STAT.INEXC k.val) false).takeIrq k.val := by
  simp [State.hret, h]

theorem exec_hret_of_sCore {k : Core} {s u : State} (h : Fetched (.hret k) k s u) (hl : u.lCore k.val = false) :
    exec (.hret k) s = .next ((u.setReg (SEQ_PC k.val) (u.reg (SEQ_EPC k.val))).putFlag (SEQ_STAT.INEXC k.val) false) := by
  have hq : (((u.setReg (SEQ_PC k.val) (u.reg (SEQ_EPC k.val))).putFlag (SEQ_STAT.INEXC k.val) false).core k.val).irq = false := by
    rw [State.core_putFlag, State.core_setReg, h.irq]
  have hret := State.hret_of_sCore hl
  rw [State.takeIrq_of_not_due (State.irqDue_of_irq hq)] at hret
  rw [exec_of_fetched_quiet (exec_hret k) rfl h (by rw [hret, hq, h.irq]), hret]

theorem exec_interruptEntry (k : Core) (s : State) : exec (.interruptEntry k) s = .next (s.takeIrq k.val) := rfl

theorem State.takeIrq_of_due {s : State} {k : Nat} (h : s.irqDue k = true) :
    s.takeIrq k = (s.modCore k (fun c => { c with irq := false })).raise k 10 0 := by simp only [State.takeIrq, h, if_true]

/-- The entry of an interrupt leaves none waiting. -/
theorem State.irqCount_takeIrq {s : State} {k : Nat} (h : s.irqDue k = true) : (s.takeIrq k).irqCount k = s.takeIrq k := by
  rw [State.takeIrq_of_due h]
  refine State.irqCount_of_irq ?_
  rw [State.irq_raise, State.core_modCore, if_pos rfl]

theorem exec_hret_of_due {k : Core} {s u v : State} {w : Word} (hr : s.coreRuns k.val = true) (hi : s.flag (SEQ_STAT.INEXC k.val) = true)
    (hw : w.toNat = 0x78000004) (hf : s.fetch k = (some w, u)) (hl : u.lCore k.val = false)
    (hv : v = (u.setReg (SEQ_PC k.val) (u.reg (SEQ_EPC k.val))).putFlag (SEQ_STAT.INEXC k.val) false) (hd : v.irqDue k.val = true) :
    exec (.hret k) s = .next ((v.modCore k.val (fun c => { c with irq := false })).raise k.val 10 0) := by
  have hs : s.irqDue k.val = false := by simp [State.irqDue, hi]
  rw [exec_hret, State.instr_of_fetch hr hs hf, if_pos (show w.toNat = wordY 4 0 0 0 from hw), State.hret_of_sCore hl, ← hv,
    State.irqCount_takeIrq hd, State.takeIrq_of_due hd]

/-- Settles O31: how `State.raise` comes out by privilege, INEXC and SEQ_VEC (`raise_of_lCore`, `raise_of_inexc`, `raise_of_free`), what
a handler finds (`inHandler`), and the interrupt that INTERRUPT_ENTRY and HRET take (`takeIrq_of_due`). -/
theorem exceptionsAreTakenOrHalt : Obligations.ExceptionsAreTakenOrHalt := by
  refine ⟨fun k c x s t _ hc _ ht hl hi hv => ?_, fun k c x s hl hi hv _ => ?_, fun k c x s hl hi _ => State.raise_of_inexc c x hl hi,
    fun k c x s hl _ => State.raise_of_lCore c x hl, fun k s u v hu hv _ => ?_, fun k s hq hm hl hp hi hst => ?_, fun k s h => ?_,
    fun k s u h hl => exec_hret_of_sCore h hl, fun k s u v w hr hi hw hf hl hv hd => exec_hret_of_due hr hi hw hf hl hv hd⟩
  · rw [State.raise_of_free c x hl hi, if_neg hv] at ht
    subst ht
    refine ⟨?_, ?_, ?_, ?_, State.inHandler_pc .., State.inHandler_coreState .., ?_, ?_, fun i j => State.inHandler_sr s k c x j i,
      fun a j => State.inHandler_acc s k c x j a, State.inHandler_regsBut s k c x, State.inHandler_frame s k c x⟩
    · rw [State.inHandler_reg_ne _ _ _ _ (by simp [SEQ_EPC, SEQ_STAT]) (by simp [SEQ_EPC, SEQ_PC]), State.saveExc_epc]
    · rw [State.inHandler_reg_ne _ _ _ _ (by simp [SEQ_EVAL, SEQ_STAT]) (by simp [SEQ_EVAL, SEQ_PC]), State.saveExc_eval]
    · exact (State.inHandler_get s k c x (by decide) (by decide)).trans (State.saveExc_cause s k c x (by omega))
    · rw [State.flag, SEQ_STAT.INEXC, State.inHandler_get s k c x (by decide) (by decide), ← SEQ_STAT.INEXC, State.saveExc_inexc]; rfl
    · rw [State.flag, State.flag, SEQ_STAT.ACC_SAT, State.inHandler_get s k c x (by decide) (by decide),
        State.saveExc_get s k c x (by decide) (by decide)]
    · rw [State.flag, State.flag, SEQ_STAT.SIN_OVF, State.inHandler_get s k c x (by decide) (by decide),
        State.saveExc_get s k c x (by decide) (by decide)]
  · rw [State.raise_of_free c x hl hi, if_pos hv, State.saveExc]
  · rw [State.haltExc_eq, hv, hu, State.haltedExc]
  · have hd : s.irqDue k.val = true := by simp [State.irqDue, hq, hm, hl, hp, hi, hst]
    rw [exec_interruptEntry, State.takeIrq_of_due hd]
  · have hd : s.irqDue k.val = false := by
      rcases h with h | h | h | h | h | h <;> simp [State.irqDue, h]
    rw [exec_interruptEntry, State.takeIrq_of_not_due hd]

end Sys2Proof.Machine

/-! PROOFS. The system instructions and CORE_WAKE (R188, R189, R191, R193), and O32. -/

namespace Sys2Proof.Machine

/-! ### What keeps a waiting interrupt as it is (R194) -/

@[simp] theorem State.irq_setSr (s : State) (k : Nat) (i : Sreg) (v : Word) (j : Nat) : ((s.setSr k i v).core j).irq = (s.core j).irq := by
  unfold State.setSr
  split
  · rfl
  · exact State.irq_modCore _ _ _ _ (fun _ => rfl)

@[simp] theorem State.core_advance (s : State) (k j : Nat) : (s.advance k).core j = s.core j := State.core_setReg ..

@[simp] theorem State.irq_retire (s : State) (k : Nat) (rd : Sreg) (v : Word) (j : Nat) :
    ((s.retire k rd v).core j).irq = (s.core j).irq := by
  rw [State.retire, State.core_advance, State.irq_setSr]

@[simp] theorem State.irq_stallCore (s : State) (k n : Nat) (x : Stall) (j : Nat) : ((s.stallCore k n x).core j).irq = (s.core j).irq := by
  rw [State.stallCore, State.irq_modCore, State.core_put]
  exact fun _ => rfl

@[simp] theorem State.irq_unstall (s : State) (k j : Nat) : ((s.unstall k).core j).irq = (s.core j).irq := by
  rw [State.unstall, State.irq_modCore, State.core_put]
  exact fun _ => rfl

@[simp] theorem State.irq_waitFor (s : State) (k : Core) (rd : Sreg) (j : Nat) : ((s.waitFor k rd).core j).irq = (s.core j).irq := by
  unfold State.waitFor
  split
  · exact State.irq_retire ..
  · exact State.irq_stallCore ..

@[simp] theorem State.irq_synci (s : State) (k : Core) (j : Nat) : ((s.synci k).core j).irq = (s.core j).irq := by
  rw [State.synci, State.core_advance, State.irq_modCore]
  exact fun _ => rfl

/-- A SIN raises, stalls, or takes a sample from its FIFO into one or two registers. -/
@[simp] theorem State.irq_sin (s : State) (k : Core) (r : Sreg) (p : StreamP) (j : Nat) : ((s.sin k r p).core j).irq = (s.core j).irq := by
  unfold State.sin
  dsimp only
  split
  · exact State.irq_raise ..
  · split
    · exact State.irq_raise ..
    · split
      · exact State.irq_stallCore ..
      · rename_i x t _
        have htake : ((s.modCore k.val (fun c => { c with fin := mset fifoDef c.fin p.val t })).core j).irq = (s.core j).irq :=
          State.irq_modCore _ _ _ _ (fun _ => rfl)
        rw [State.core_advance]
        split <;> simp only [State.irq_setSr, htake]

/-! ### WAIT, RDCTL and WRCTL (R188, R189) -/

theorem State.waitFor_of_events {s : State} {k : Core} (rd : Sreg) (h : s.seqEvents k.val ≠ 0) :
    s.waitFor k rd = s.retire k.val rd (BitVec.ofNat 32 (s.seqEvents k.val)) := if_pos h

theorem State.waitFor_of_none {s : State} {k : Core} (rd : Sreg) (h : s.seqEvents k.val = 0) :
    s.waitFor k rd = s.stallCore k.val 1 (.wait rd.val) := if_neg (not_not.mpr h)

/-- RDCTL of the mains cycle counter, of an index outside the list, and of the core's own register. -/
theorem State.rdctl_of_mcyc {s : State} {k : Core} (rd : Sreg) {i : Cix} (h : i.val = 0x3F) :
    s.rdctl k rd i = s.retire k.val rd (s.reg PWR_MCYC) := if_pos h

theorem State.rdctl_of_unlisted {s : State} {k : Core} (rd : Sreg) {i : Cix} (h : 0x11 < i.val) (h' : i.val ≠ 0x3F) :
    s.rdctl k rd i = s.raise k.val 1 0 := by rw [State.rdctl, if_neg h', if_pos h]

theorem State.rdctl_of_listed {s : State} {k : Core} (rd : Sreg) {i : Cix} (h : i.val ≤ 0x11) :
    s.rdctl k rd i = (s.readReg (.core k) (ctlAddr k i) .clean).2.retire k.val rd
      ((s.readReg (.core k) (ctlAddr k i) .clean).1.getD 0) := by
  rw [State.rdctl, if_neg (by omega), if_neg (by omega)]

theorem State.wrctl_of_unlisted {s : State} {k : Core} (ra : Sreg) {i : Cix} (h : 0x11 < i.val) (h' : i.val ≠ 0x3F) :
    s.wrctl k ra i = s.raise k.val 1 0 := if_pos ⟨h, h'⟩

theorem State.wrctl_of_priv {s : State} {k : Core} (ra : Sreg) {i : Cix} (h : i.val ≤ 0x11 ∨ i.val = 0x3F) (hl : s.lCore k.val = true)
    (h7 : i.val ≠ 7) (h8 : i.val ≠ 8) : s.wrctl k ra i = s.raise k.val 2 0 := by
  rw [State.wrctl, if_neg (by omega), if_pos ⟨hl, h7, h8⟩]

theorem State.wrctl_of_mcyc {s : State} {k : Core} (ra : Sreg) {i : Cix} (h : i.val = 0x3F) (hl : s.lCore k.val = false) :
    s.wrctl k ra i = s.advance k.val := by
  rw [State.wrctl, if_neg (by omega), if_neg (by simp [hl]), if_pos h]

theorem State.wrctl_of_listed {s : State} {k : Core} (ra : Sreg) {i : Cix} (h : i.val ≤ 0x11)
    (hp : s.lCore k.val = false ∨ i.val = 7 ∨ i.val = 8) :
    s.wrctl k ra i = (s.advance k.val).act (.core k) (ctlAddr k i) (s.sr k.val ra) := by
  have hp' : ¬ (s.lCore k.val = true ∧ i.val ≠ 7 ∧ i.val ≠ 8) := by
    rintro ⟨hl, h7, h8⟩
    rcases hp with hp | hp | hp
    · simp [hp] at hl
    · exact h7 hp
    · exact h8 hp
  rw [State.wrctl, if_neg (by omega), if_neg hp', if_neg (by omega)]

/-! ### SUPC (R191) -/

theorem State.supc_of_sCore {s : State} {k : Core} (h : s.lCore k.val = false) : s.supc k = s.raise k.val 8 0 := by simp [State.supc, h]

/-- SEQ_ARG as SUPC fills it: s1 to s4. -/
def State.argsTaken (s : State) (k : Nat) : State :=
  (((s.setReg (SEQ_ARG k 0) (s.sr k 1)).setReg (SEQ_ARG k 1) (s.sr k 2)).setReg (SEQ_ARG k 2) (s.sr k 3)).setReg (SEQ_ARG k 3) (s.sr k 4)

@[simp] theorem State.sr_setReg (s : State) (a : Nat) (v : Word) (k : Nat) (i : Sreg) : (s.setReg a v).sr k i = s.sr k i := by
  rw [State.sr, State.sr, State.core_setReg]

theorem State.argsTaken_eq_fold (s : State) (k : Nat) :
    foldState (List.range 4) (fun i t => t.setReg (SEQ_ARG k i) (t.sr k (Fin.ofNat 32 (i + 1)))) s = s.argsTaken k := by
  simp only [show List.range 4 = [0, 1, 2, 3] from rfl, foldState, State.sr_setReg, State.argsTaken]
  rfl

theorem State.argsTaken_reg_ne (s : State) (k : Nat) {a : Nat} (h : ∀ i < 4, a ≠ SEQ_ARG k i) : (s.argsTaken k).reg a = s.reg a := by
  rw [State.argsTaken, State.reg_setReg_ne _ _ (h 3 (by decide)), State.reg_setReg_ne _ _ (h 2 (by decide)),
    State.reg_setReg_ne _ _ (h 1 (by decide)), State.reg_setReg_ne _ _ (h 0 (by decide))]

theorem State.argsTaken_arg (s : State) (k : Nat) {i : Nat} (h : i < 4) :
    (s.argsTaken k).reg (SEQ_ARG k i) = s.sr k (Fin.ofNat 32 (i + 1)) := by
  have hne {i j : Nat} (h : i ≠ j) : SEQ_ARG k i ≠ SEQ_ARG k j := by simp only [SEQ_ARG]; omega
  rw [State.argsTaken]
  match i, h with
  | 0, _ =>
    rw [State.reg_setReg_ne _ _ (hne (by decide)), State.reg_setReg_ne _ _ (hne (by decide)), State.reg_setReg_ne _ _ (hne (by decide)),
      State.reg_setReg_self]
    rfl
  | 1, _ =>
    rw [State.reg_setReg_ne _ _ (hne (by decide)), State.reg_setReg_ne _ _ (hne (by decide)), State.reg_setReg_self]
    rfl
  | 2, _ =>
    rw [State.reg_setReg_ne _ _ (hne (by decide)), State.reg_setReg_self]
    rfl
  | 3, _ =>
    rw [State.reg_setReg_self]
    rfl

theorem State.argsTaken_frame (s : State) (k : Nat) : Frame [.regs] s (s.argsTaken k) :=
  (((Frame.setReg _ _ _).trans (Frame.setReg _ _ _)).trans (Frame.setReg _ _ _)).trans (Frame.setReg _ _ _)

theorem State.supc_of_lCore {s : State} {k : Core} (h : s.lCore k.val = true) :
    s.supc k = ((s.argsTaken k.val).put (SEQ_STAT.STATE k.val) 4).coreEvent (s.get (SEQ_CFG.SUPER k.val)) 7 := by
  have hsuper : (s.argsTaken k.val).get (SEQ_CFG.SUPER k.val) = s.get (SEQ_CFG.SUPER k.val) := by
    rw [State.get, State.argsTaken_reg_ne _ _ (fun i _ => by simp only [SEQ_CFG.SUPER, SEQ_CFG, SEQ_ARG]; omega), State.get]
  simp only [State.supc, h, not_true, if_false, State.argsTaken_eq_fold, hsuper]

/-- The CALL event is latched (R187). -/
theorem State.bitOf_coreEvent_call (s : State) (j : Nat) : (s.coreEvent j 7).bitOf (SEQ_EV.PEND j) 7 = true := by
  have h := bits_putBits_same (s.get (SEQ_EV.PEND j)) 7 7 (b2n true) (by decide)
  rw [bits_eq] at h
  rw [State.bitOf, State.coreEvent, State.putBit, State.get_put_same _ _ _ (by simp [SEQ_EV.PEND]) (by simp [SEQ_EV.PEND])]
  simp only [bit, Nat.shiftRight_eq_div_pow, SEQ_EV.PEND, b2n, if_true] at h ⊢
  simp only [decide_eq_true_eq]
  omega

theorem State.supc_frame {s : State} {k : Core} (h : s.lCore k.val = true) : Frame [.regs] s (s.supc k) := by
  rw [State.supc_of_lCore h]
  exact ((State.argsTaken_frame _ _).trans (Frame.put _ _ _)).trans (Frame.put _ _ _)

/-- An L core in CALL: its arguments, its state, its supervisor's event and its frame. -/
theorem exec_supc_of_lCore {k : Core} {s u : State} (h : Fetched (.supc k) k s u) (hl : u.lCore k.val = true) :
    ∃ t, exec (.supc k) s = .next t ∧
      (∀ i : Fin 4, t.reg (SEQ_ARG k.val i.val) = u.sr k.val (Fin.ofNat 32 (i.val + 1))) ∧ t.coreState k.val = 4 ∧
      t.bitOf (SEQ_EV.PEND (u.get (SEQ_CFG.SUPER k.val))) 7 = true ∧ t.cores = u.cores ∧
      RegsBut [SEQ_ARG k.val 0, SEQ_ARG k.val 1, SEQ_ARG k.val 2, SEQ_ARG k.val 3, SEQ_STAT k.val, SEQ_EV (u.get (SEQ_CFG.SUPER k.val))] u t ∧
      Frame [.regs] u t := by
  have hsupc := State.supc_of_lCore hl
  have hframe := State.supc_frame hl
  have hcores : (u.supc k).cores = u.cores := hframe .cores (by simp)
  have hirq : ((u.supc k).core k.val).irq = (u.core k.val).irq := by rw [State.core, State.core, hcores]
  generalize u.get (SEQ_CFG.SUPER k.val) = j at hsupc ⊢
  have hexec := exec_of_fetched_quiet (exec_supc k) rfl h hirq
  refine ⟨u.supc k, hexec, fun i => ?_, ?_, ?_, hcores, fun a ha => ?_, hframe⟩
  · rw [hsupc, State.reg_coreEvent_ne _ _ _ (by simp only [SEQ_ARG, SEQ_EV]; omega),
      State.reg_put_ne _ _ _ (by simp only [SEQ_STAT.STATE, SEQ_ARG, SEQ_STAT]; omega), State.argsTaken_arg _ _ i.isLt]
  · rw [hsupc, State.coreState, State.get, State.reg_coreEvent_ne _ _ _ (by simp only [SEQ_STAT.STATE, SEQ_STAT, SEQ_EV]; omega), ← State.get,
      State.get_put_same _ _ _ (by simp [SEQ_STAT.STATE]) (by simp [SEQ_STAT.STATE])]
    rfl
  · rw [hsupc, State.bitOf_coreEvent_call]
  · simp only [List.mem_cons, List.not_mem_nil, or_false, not_or] at ha
    obtain ⟨h0, h1, h2, h3, hs, he⟩ := ha
    have hargs : ∀ i < 4, a ≠ SEQ_ARG k.val i := by
      intro i hi
      interval_cases i <;> assumption
    rw [hsupc, State.reg_coreEvent_ne _ _ _ he, State.reg_put_ne _ _ _ hs, State.argsTaken_reg_ne _ _ hargs]

theorem State.hret_of_lCore {s : State} {k : Core} (h : s.lCore k.val = true) : s.hret k = s.raise k.val 2 0 := if_pos h

/-! ### CORE_WAKE (R188, R194) -/

theorem State.again_of_wait {s : State} {k : Core} {rd : Sreg} (e : Ecc) (h : (s.core k.val).stall = .wait rd.val) :
    s.again k e = (s.unstall k.val).waitFor k rd := by simp [State.again, h]

theorem State.again_of_qget {s : State} {k : Core} {rd : Sreg} {q a : Nat} {b : Bool} (e : Ecc)
    (h : (s.core k.val).stall = .qget rd.val q a b) :
    s.again k e = (s.unstall k.val).qget k rd q a b e := by simp [State.again, h]

theorem State.again_of_sin {s : State} {k : Core} {r : Sreg} {p : StreamP} (e : Ecc) (h : (s.core k.val).stall = .sin r.val p.val) :
    s.again k e = (s.unstall k.val).sin k r p := by simp [State.again, h]

theorem State.again_of_sout {s : State} {k : Core} {r : Sreg} {p : StreamP} (e : Ecc) (h : (s.core k.val).stall = .sout r.val p.val) :
    s.again k e = ((s.unstall k.val).drainPort k.val p.val).sout k r p := by simp [State.again, h]

theorem State.again_of_none {s : State} {k : Core} (e : Ecc) (h : (s.core k.val).stall = .none) : s.again k e = s := by simp [State.again, h]

/-- A core that sleeps or is stalled, no interrupt waiting for it, runs its instruction again. -/
theorem exec_coreWake {k : Core} {s : State} (e : Ecc) (hm : s.seqMode = true) (hq : (s.core k.val).irq = false)
    (h1 : 1 ≤ s.coreState k.val) (h3 : s.coreState k.val ≤ 3) : exec (.coreWake k e) s = .next ((s.again k e).irqCount k.val) := by
  show Host.Outcome.next (ite _ _ _) = _
  rw [if_pos ⟨hm, h1, h3⟩, State.wakeCore]
  simp only [State.irqFirst_of_not_due (State.irqDue_of_irq hq)]
  rw [if_neg (by omega)]

/-- Settles O32: each instruction's command on a core that has fetched it is its effect (`exec_of_fetched`), which leaves a waiting
interrupt alone wherever the statement names no count of R194. -/
theorem systemInstructionsAndWake : Obligations.SystemInstructionsAndWake := by
  refine ⟨fun k rd s u h => ⟨fun he => ?_, fun he => ?_⟩, fun k rd i s u h => ⟨fun r hi hr => ?_, fun hi => ?_, fun hi hi' => ?_⟩,
    fun k ra i s u h => ⟨fun hi hi' => ?_, fun hi hp => ?_, fun hi hl h7 h8 => ?_, fun hi hl => ?_, fun hi hl => ?_⟩,
    fun k s u h => ⟨fun hl => ?_, fun hl => exec_supc_of_lCore h hl⟩, fun k s u h => ⟨fun hl => ?_, fun hl => exec_hret_of_sCore h hl⟩,
    fun k s u h => ?_, fun k s u h => ?_, fun k e s u hm hq h1 h3 hu => ?_⟩
  · rw [exec_of_fetched_quiet (exec_wait k rd) rfl h (State.irq_waitFor ..), State.waitFor_of_events rd he]
  · rw [exec_of_fetched_quiet (exec_wait k rd) rfl h (State.irq_waitFor ..), State.waitFor_of_none rd he]
  · rw [exec_of_fetched (exec_rdctl k rd i) rfl h, State.rdctl_of_listed rd hi, hr, ctlAddr]
  · have hc := State.rdctl_of_mcyc (s := u) (k := k) rd hi
    rw [exec_of_fetched_quiet (exec_rdctl k rd i) rfl h (by rw [hc, State.irq_retire]), hc]
  · have hc := State.rdctl_of_unlisted (s := u) (k := k) rd hi hi'
    rw [exec_of_fetched_quiet (exec_rdctl k rd i) rfl h (by rw [hc, State.irq_raise]), hc]
  · have hc := State.wrctl_of_unlisted (s := u) (k := k) ra hi hi'
    rw [exec_of_fetched_quiet (exec_wrctl k ra i) rfl h (by rw [hc, State.irq_raise]), hc]
  · rw [exec_of_fetched (exec_wrctl k ra i) rfl h, State.wrctl_of_listed ra hi hp, ctlAddr]
  · have hc := State.wrctl_of_priv ra (.inl hi) hl h7 h8
    rw [exec_of_fetched_quiet (exec_wrctl k ra i) rfl h (by rw [hc, State.irq_raise]), hc]
  · have hc := State.wrctl_of_mcyc ra hi hl
    rw [exec_of_fetched_quiet (exec_wrctl k ra i) rfl h (by rw [hc, State.core_advance]), hc]
  · have hc := State.wrctl_of_priv ra (.inr hi) hl (by omega) (by omega)
    rw [exec_of_fetched_quiet (exec_wrctl k ra i) rfl h (by rw [hc, State.irq_raise]), hc]
  · have hc := State.supc_of_sCore hl
    rw [exec_of_fetched_quiet (exec_supc k) rfl h (by rw [hc, State.irq_raise]), hc]
  · have hc := State.hret_of_lCore hl
    rw [exec_of_fetched_quiet (exec_hret k) rfl h (by rw [hc, State.irq_raise]), hc]
  · rw [exec_of_fetched_quiet (exec_trap k) rfl h (State.irq_raise ..)]
  · rw [exec_of_fetched_quiet (exec_synci k) rfl h (State.irq_synci ..), State.synci]
  · subst hu
    have hu : ((s.unstall k.val).core k.val).irq = false := by rw [State.irq_unstall, hq]
    rw [exec_coreWake e hm hq h1 h3]
    refine ⟨fun rd hst => ?_, fun rd q a b hst => ?_, fun r p hst => ?_, fun r p hst => ?_, fun hst => ?_⟩
    · rw [State.again_of_wait e hst, State.irqCount_of_irq (by rw [State.irq_waitFor, hu])]
    · rw [State.again_of_qget e hst]
    · rw [State.again_of_sin e hst, State.irqCount_of_irq (by rw [State.irq_sin, hu])]
    · rw [State.again_of_sout e hst]
    · rw [State.again_of_none e hst, State.irqCount_of_irq hq]

end Sys2Proof.Machine

/-! PROOFS. The channel of a link event and the maps R229 refuses, and O58. -/

namespace Sys2Proof.Machine

/-! ### Usable channels (R217, R229) -/

theorem State.mem_rfUsed {s : State} {map i : Nat} : i ∈ s.rfUsed map ↔ i < 64 ∧ bit map i = true ∧ s.rfUsable i = true := by
  simp [State.rfUsed]

theorem State.rfUsed_pairwise_lt (s : State) (map : Nat) : (s.rfUsed map).Pairwise (· < ·) :=
  List.pairwise_lt_range.filter _

theorem State.nth_rfUsed_lt (s : State) (map i : Nat) : nth 0 (s.rfUsed map) i < 64 := by
  rw [nth]
  cases h : (s.rfUsed map)[i]? with
  | none => simp
  | some x => exact (State.mem_rfUsed.mp (List.mem_of_getElem? h)).1

/-- The registers of the link contexts do not decide which channels are usable. -/
theorem State.rfUsable_setReg (s : State) {a : Nat} (v : Word) (ha : 0xA0100 ≤ a) (i : Nat) :
    (s.setReg a v).rfUsable i = s.rfUsable i := by
  have hget : ∀ f : Fld, f.addr < 0xA0100 → (s.setReg a v).get f = s.get f := fun f hf => s.get_setReg_ne v (by omega)
  have hsp : (s.setReg a v).rfSpacing = s.rfSpacing := by rw [State.rfSpacing, State.rfSpacing, hget _ (by decide)]
  have hband : (s.setReg a v).rfBand = s.rfBand := by rw [State.rfBand, State.rfBand, hget _ (by decide)]
  simp only [State.rfUsable, hsp, hband, hget RF_SYNTH.F0 (by decide), hget RF_CFG.PROFILE (by decide), hget RF_CFG.BAND (by decide)]

theorem State.rfUsed_setReg (s : State) {a : Nat} (v : Word) (ha : 0xA0100 ≤ a) (map : Nat) :
    (s.setReg a v).rfUsed map = s.rfUsed map := by
  simp only [State.rfUsed, State.rfUsable_setReg s v ha]

@[simp] theorem State.rlink_setReg (s : State) (a : Nat) (v : Word) (c : Nat) : (s.setReg a v).rlink c = s.rlink c := by
  rw [State.rlink, State.rlink, State.setReg_radio]

/-! ### The channel of an event (R229) -/

theorem State.rfEventChan_of_used {s : State} {c : Nat} (e : Nat) (h : s.rfUsed (s.rlink c).inUse.toNat ≠ []) :
    s.rfEventChan c e = (nth 0 (s.rfUsed (s.rlink c).inUse.toNat) (crc16 (leBytes 2 (s.get (RF_LWIN.CONN_ID c)) ++ leBytes 2 e) %
      (s.rfUsed (s.rlink c).inUse.toNat).length), s) := by
  rw [State.rfEventChan, if_neg (by simpa using h)]

theorem State.rfEventChan_of_unused {s : State} {c : Nat} (e : Nat) (h : s.rfUsed (s.rlink c).inUse.toNat = []) :
    s.rfEventChan c e = s.free 64 := by
  rw [State.rfEventChan, if_pos (by simp [h])]

/-- RF_LSTAT.CHAN of context `c` shows the channel of the event that RF_LSTAT.EVENT counts, unless no mapped channel is usable. -/
def State.ShowsEventChan (s : State) (c : Nat) : Prop :=
  s.rfUsed (s.rlink c).inUse.toNat ≠ [] → s.get (RF_LSTAT.CHAN c) = (s.rfEventChan c (s.get (RF_LSTAT.EVENT c))).1

/-- A write of another register of the link contexts moves no channel. -/
theorem State.rfEventChan_setReg {s : State} {c a : Nat} (v : Word) (e : Nat) (ha : 0xA0100 ≤ a) (hw : a ≠ RF_LWIN c)
    (h : s.rfUsed (s.rlink c).inUse.toNat ≠ []) : ((s.setReg a v).rfEventChan c e).1 = (s.rfEventChan c e).1 := by
  rw [State.rfEventChan_of_used e h, State.rfEventChan_of_used e (by rwa [State.rlink_setReg, State.rfUsed_setReg s v ha]),
    State.rlink_setReg, State.rfUsed_setReg s v ha, State.get_setReg_ne s v hw.symm]

theorem State.ShowsEventChan.setReg {s : State} {c a : Nat} (v : Word) (hs : s.ShowsEventChan c) (ha : 0xA0100 ≤ a) (hw : a ≠ RF_LWIN c)
    (hl : a ≠ RF_LSTAT c) : (s.setReg a v).ShowsEventChan c := by
  intro h
  rw [State.rlink_setReg, State.rfUsed_setReg s v ha] at h
  rw [State.get_setReg_ne s v hl.symm, State.get_setReg_ne s v hl.symm, State.rfEventChan_setReg v _ ha hw h]
  exact hs h

/-- The channel of the event, put into CHAN, shows there. -/
theorem State.showsEventChan_put_rfEventChan (s : State) (c : Nat) :
    ((s.rfEventChan c (s.get (RF_LSTAT.EVENT c))).2.put (RF_LSTAT.CHAN c)
      (s.rfEventChan c (s.get (RF_LSTAT.EVENT c))).1).ShowsEventChan c := by
  have ha : 0xA0100 ≤ RF_LSTAT c := by rw [RF_LSTAT]; omega
  have hw : RF_LSTAT c ≠ RF_LWIN c := by rw [RF_LSTAT, RF_LWIN]; omega
  intro ht
  by_cases h : s.rfUsed (s.rlink c).inUse.toNat = []
  · rw [State.rfEventChan_of_unused _ h] at ht
    exact absurd ((State.rfUsed_setReg _ _ ha _).trans h) (State.rlink_setReg .. ▸ ht)
  · have hlt : (s.rfEventChan c (s.get (RF_LSTAT.EVENT c))).1 < 64 := by
      rw [State.rfEventChan_of_used _ h]
      exact State.nth_rfUsed_lt ..
    have hst : (s.rfEventChan c (s.get (RF_LSTAT.EVENT c))).2 = s := by rw [State.rfEventChan_of_used _ h]
    rw [hst, State.get_put_same _ _ _ (by simp [RF_LSTAT.CHAN]) (by simp [RF_LSTAT.CHAN]), RF_LSTAT.EVENT, RF_LSTAT.CHAN,
      State.get_put_other _ _ (by decide) (by decide) (by decide) (.inl (by decide)), State.put, State.rfEventChan_setReg _ _ ha hw h]
    exact Nat.mod_eq_of_lt hlt

/-! ### The step to an event (R229, R233) -/

@[simp] theorem State.get_modRlink (s : State) (c : Nat) (f : RfLink → RfLink) (g : Fld) : (s.modRlink c f).get g = s.get g := by
  rw [State.get, State.get, State.reg, State.reg, State.modRlink_regs]

/-- The step of a link puts the channel of the new event into CHAN; of a follower it may then write the map it takes up. -/
theorem State.rfStep_cases {s : State} {c : Nat} (hr : s.rfRole c ≠ 2) : ∃ u w : State,
    w = (u.rfEventChan c (u.get (RF_LSTAT.EVENT c))).2.put (RF_LSTAT.CHAN c) (u.rfEventChan c (u.get (RF_LSTAT.EVENT c))).1 ∧
      (s.rfStep c = w ∨ ∃ lo hi, s.rfStep c = (w.setReg (RF_LMAP_LO c) lo).setReg (RF_LMAP_HI c) hi) := by
  have he : (if (s.rlink c).begun then (s.get (RF_LSTAT.EVENT c) + 1) % 65536 else s.get (RF_LSTAT.EVENT c)) < 65536 := by
    split
    · exact Nat.mod_lt _ (by decide)
    · exact Nat.mod_lt _ (Nat.two_pow_pos _)
  unfold State.rfStep
  simp only [if_neg hr]
  generalize (if (s.rlink c).begun then (s.get (RF_LSTAT.EVENT c) + 1) % 65536 else s.get (RF_LSTAT.EVENT c)) = e at he ⊢
  generalize hu : State.modRlink _ c _ = u
  have hue : u.get (RF_LSTAT.EVENT c) = e := by
    rw [← hu, State.get_modRlink, State.get_put_same _ _ _ (by simp [RF_LSTAT.EVENT]) (by simp [RF_LSTAT.EVENT])]
    exact Nat.mod_eq_of_lt he
  refine ⟨u, _, rfl, ?_⟩
  rw [hue]
  split
  · exact .inr ⟨_, _, rfl⟩
  · exact .inl rfl

theorem State.rfStep_showsEventChan {s : State} {c : Nat} (hr : s.rfRole c ≠ 2) : (s.rfStep c).ShowsEventChan c := by
  obtain ⟨u, w, hw, hstep⟩ := State.rfStep_cases hr
  have hshow : w.ShowsEventChan c := hw ▸ u.showsEventChan_put_rfEventChan c
  rcases hstep with h | ⟨lo, hi, h⟩
  · rwa [h]
  · rw [h]
    refine (hshow.setReg lo ?_ ?_ ?_).setReg hi ?_ ?_ ?_ <;> simp only [RF_LMAP_LO, RF_LMAP_HI, RF_LWIN, RF_LSTAT] <;> omega

/-! ### The CRC (R81) -/

theorem crcStep_lt {w poly : Nat} (c b : Nat) (h : poly < 2 ^ w) : crcStep w poly c b < 2 ^ w := by
  refine Nat.xor_lt_two_pow (Nat.mod_lt _ (by positivity)) ?_
  split
  · exact h
  · positivity

/-- The step of a CRC of 16 bits on a bit: the polynomial comes in where the bit shifted out differs from it. -/
theorem crcStep_of_bit {c b : Nat} (poly : Nat) (hc : c < 65536) (hb : b < 2) :
    crcStep 16 poly c b = ((2 * c) % 65536) ^^^ (if c / 32768 = b then 0 else poly) := by
  have htop : c / 32768 < 2 := by omega
  simp only [crcStep, Nat.shiftRight_eq_div_pow, Nat.mul_comm c 2, Nat.reducePow, Nat.reduceSub]
  generalize c / 32768 = t at htop ⊢
  interval_cases t <;> interval_cases b <;> rfl

theorem msbBits_lt {l : List Byte} {x : Nat} (h : x ∈ msbBits l) : x < 2 := by
  simp only [msbBits, List.mem_flatMap, List.mem_map] at h
  obtain ⟨b, -, i, -, rfl⟩ := h
  rw [b2n]
  split <;> decide

theorem foldl_crcStep_of_bits {l : List Nat} {poly : Nat} (hp : poly < 65536) (hl : ∀ x ∈ l, x < 2) {c : Nat} (hc : c < 65536) :
    l.foldl (crcStep 16 poly) c = l.foldl (fun r x => ((2 * r) % 65536) ^^^ (if r / 32768 = x then 0 else poly)) c := by
  induction l generalizing c with
  | nil => rfl
  | cons x t ih =>
    rw [List.foldl_cons, List.foldl_cons, ih (fun y hy => hl y (List.mem_cons_of_mem x hy)) (crcStep_lt c x hp),
      crcStep_of_bit poly hc (hl x List.mem_cons_self)]

/-! ### Writes of a leader's map (R229, R233) -/

theorem State.rfThinMap_of_lt {s : State} {map : Nat} (h : (s.rfUsed map).length < 2) : s.rfThinMap map = true := by
  simp [State.rfThinMap, h]

theorem State.writeRfLmap_low_of_thin {s : State} {c : Nat} {v : Word} (hr : s.rfRole c = 0)
    (h : s.rfThinMap (s.rfMap c / 2 ^ 32 * 2 ^ 32 + v.toNat) = true) : s.writeRfLmap c false v = s.setEvt RF_EVT.CFG_REFUSED := by
  simp only [State.writeRfLmap, hr, h, ne_eq, not_true_eq_false, Bool.false_eq_true, if_true, if_false]

theorem State.writeRfLmap_high_of_thin {s : State} {c : Nat} {v : Word} (hr : s.rfRole c = 0)
    (h : s.rfThinMap (s.rfMap c % 2 ^ 32 + v.toNat * 2 ^ 32) = true) : s.writeRfLmap c true v = s.setEvt RF_EVT.CFG_REFUSED := by
  simp only [State.writeRfLmap, hr, h, ne_eq, not_true_eq_false, if_true, if_false]

theorem exec_mapSetArm {who : Accessor} {c : LinkC} (v : Word) {s : State} (hw : Writable s who (RF_LMAP_LO c.val)) :
    exec (.mapSetArm who c v) s = .next (s.writeRfLmap c.val false v) := by
  show Host.Outcome.next _ = _
  rw [State.enter_of_writable _ _ _ _ hw]

/-- An accepted write of a register that may be addressed acts, AL_CTL's way out of Island aside (R329). -/
theorem exec_registerWrite {who : Accessor} {a : Word} (v : Word) {s : State} (hreg : isReg who a.toNat = true) (hal : a.toNat ≠ AL_CTL)
    (hw : Writable s who a.toNat) : exec (.registerWrite who a v) s = .next (s.act who a.toNat v) := by
  show Host.Outcome.next _ = _
  rw [if_pos hreg, State.regWrite, if_neg (fun h => hal h.2.1), State.enter_of_writable _ _ _ _ hw]

theorem toNat_RF_LMAP_HI (c : LinkC) : (BitVec.ofNat 32 (RF_LMAP_HI c.val)).toNat = RF_LMAP_HI c.val := by
  rw [BitVec.toNat_ofNat, RF_LMAP_HI]
  omega

theorem isReg_RF_LMAP_HI (who : Accessor) (c : LinkC) : isReg who (RF_LMAP_HI c.val) = true := by
  have hfind : ∀ d : LinkC, (regFind (RF_LMAP_HI d.val)).isSome = true := by decide
  have hblock : RF_LMAP_HI c.val / 65536 ≠ 7 := by rw [RF_LMAP_HI]; omega
  simp [isReg, hfind c, hblock]

theorem State.act_RF_LMAP_HI (s : State) (who : Accessor) (c : LinkC) (v : Word) :
    s.act who (RF_LMAP_HI c.val) v = s.writeRfLmap c.val true v := by
  have hblock : RF_LMAP_HI c.val / 65536 = 10 := by rw [RF_LMAP_HI]; omega
  have hctx : (RF_LMAP_HI c.val - 0xA0100) / 32 = c.val := by rw [RF_LMAP_HI]; omega
  simp only [State.act, hblock, State.actRadio, hctx]
  rw [if_neg (by rw [RF_LMAP_HI, RF_CFG]; omega), if_neg (by rw [RF_LMAP_HI]; omega), if_neg (by rw [RF_LMAP_HI, RF_LCFG]; omega),
    if_neg (by rw [RF_LMAP_HI, RF_LTIME]; omega), if_neg (by rw [RF_LMAP_HI, RF_LMAP_LO]; omega), if_pos trivial]

theorem exec_registerWrite_RF_LMAP_HI {who : Accessor} {c : LinkC} (v : Word) {s : State} (hw : Writable s who (RF_LMAP_HI c.val)) :
    exec (.registerWrite who (BitVec.ofNat 32 (RF_LMAP_HI c.val)) v) s = .next (s.writeRfLmap c.val true v) := by
  have ha := toNat_RF_LMAP_HI c
  have hal : RF_LMAP_HI c.val ≠ AL_CTL := by rw [RF_LMAP_HI, AL_CTL]; omega
  rw [exec_registerWrite v (ha.symm ▸ isReg_RF_LMAP_HI who c) (ha.symm ▸ hal) (ha.symm ▸ hw), ha, State.act_RF_LMAP_HI]

/-- Settles O58: the channel of an event from the mapped usable channels (`State.rfEventChan_of_used`), which the step to the event puts
into CHAN (`State.rfStep_showsEventChan`), the CRC bit by bit (`foldl_crcStep_of_bits`), and both halves of a thin map refused. -/
theorem linkEventsUseTheMappedChannels : Obligations.LinkEventsUseTheMappedChannels := by
  refine ⟨fun s map i => State.mem_rfUsed, State.rfUsed_pairwise_lt, fun c e s used hu h => ?_, fun c s t used _ hr ht hu h => ?_,
    fun l => ?_, fun who c v s m hw hr hm h => ?_, fun who c v s m hw hr hm h => ?_⟩
  · subst hu
    exact State.rfEventChan_of_used e h
  · subst hu ht
    rw [State.rfStep_showsEventChan hr h, State.rfEventChan_of_used _ h]
  · exact foldl_crcStep_of_bits (by decide) (fun x => msbBits_lt) (by decide)
  · rw [exec_mapSetArm v hw, State.writeRfLmap_low_of_thin hr (hm ▸ State.rfThinMap_of_lt h)]
  · rw [exec_registerWrite_RF_LMAP_HI v hw, State.writeRfLmap_high_of_thin hr (hm ▸ State.rfThinMap_of_lt h)]

end Sys2Proof.Machine

/-! PROOFS. The canonical form of the registers and the SRAM (R132, R345), and O57. Every function of the model that answers a state is
built from `State.setReg`, `State.setBytes` and changes of other parts of the state, and calls earlier ones: one lemma per function, in
the model's order, says that it keeps the canonical form, and cites those of the functions it calls. -/

namespace Sys2Proof.Machine
theorem State.Canonical.same {s t : State} (h : s.Canonical) (hr : t.regs = s.regs) (hm : t.sram = s.sram) : t.Canonical := by
  rw [State.Canonical, hr, hm]; exact h
/-- A change of any part but the registers and the SRAM keeps the canonical form. -/
theorem State.Canonical.update {s : State} {n : Nat} {pend : List Instr} {ps : List Nat} {us : SMap Ecc} {hp : HostSt} {po : PoolSt}
    {pt : SMap PortSt} {la : SMap LaneSt} {de : DecSt} {lk : LinkSt} {me : MeterSt} {fa : FabSt} {co : SMap CoreSt} {ra : RadioSt}
    {ua : SMap UartSt} {ct : CtlSt} {wd : WardenSt} {ir : IronSt} {al : AlloySt} {pm : PmSt} (h : s.Canonical) :
    State.Canonical ⟨pend, s.regs, s.sram, ps, us, n, hp, po, pt, la, de, lk, me, fa, co, ra, ua, ct, wd, ir, al, pm⟩ := h

theorem State.Canonical.ite {c : Prop} [Decidable c] {s t : State} (hs : s.Canonical) (ht : t.Canonical) :
    (if c then s else t).Canonical := by split <;> assumption
theorem State.Canonical.ite_fst {α : Type} {c : Prop} [Decidable c] {x y : State × α} (hx : x.1.Canonical) (hy : y.1.Canonical) :
    (if c then x else y).1.Canonical := by split <;> assumption
theorem State.Canonical.ite_snd {α : Type} {c : Prop} [Decidable c] {x y : α × State} (hx : x.2.Canonical) (hy : y.2.Canonical) :
    (if c then x else y).2.Canonical := by split <;> assumption
theorem State.Canonical.ite_snd_fst {α β : Type} {c : Prop} [Decidable c] {x y : α × State × β} (hx : x.2.1.Canonical)
    (hy : y.2.1.Canonical) : (if c then x else y).2.1.Canonical := by split <;> assumption
theorem State.Canonical.ite_snd_snd {α β : Type} {c : Prop} [Decidable c] {x y : α × β × State} (hx : x.2.2.Canonical)
    (hy : y.2.2.Canonical) : (if c then x else y).2.2.Canonical := by split <;> assumption
theorem State.Canonical.ite_snd_snd_snd {α β γ : Type} {c : Prop} [Decidable c] {x y : α × β × γ × State} (hx : x.2.2.2.Canonical)
    (hy : y.2.2.2.Canonical) : (if c then x else y).2.2.2.Canonical := by split <;> assumption
theorem State.Canonical.foldState {β : Type} {l : List β} {f : β → State → State} {s : State} (h : s.Canonical)
    (hf : ∀ a t, t.Canonical → (f a t).Canonical) : (Machine.foldState l f s).Canonical :=
  foldState_keeps State.Canonical l f hf s h
theorem State.Canonical.setReg {s : State} {a : Nat} {v : Word} (h : s.Canonical) : (s.setReg a v).Canonical :=
  ⟨mwf_mset _ _ _ _ h.1, h.2⟩
theorem State.Canonical.setBytes {s : State} {a : Nat} {l : List Byte} (h : s.Canonical) : (s.setBytes a l).Canonical :=
  ⟨h.1, State.setBytes_wf _ _ _ h.2⟩

theorem State.Canonical.mapGetD {α : Type} {o : Option α} {f : α → State} {s : State} (h : s.Canonical)
    (hf : ∀ a, (f a).Canonical) : ((o.map f).getD s).Canonical := by
  cases o
  · exact h
  · exact hf _

theorem State.Canonical.reset : State.reset.Canonical := ⟨rfl, rfl⟩

/-- A command's next state is in canonical form where the state was. -/
def KeepsCanonical (f : State → Result) : Prop := ∀ s t : State, s.Canonical → f s = .next t → t.Canonical

theorem KeepsCanonical.next {f : State → State} (hf : ∀ s, s.Canonical → (f s).Canonical) : KeepsCanonical (fun s => .next (f s)) :=
  fun _ _ h ht => Host.Outcome.next.inj ht ▸ hf _ h

theorem State.Canonical.takeRx {s t : State} {k : RxKind} {f : LinkRx} (h : s.Canonical) (ht : s.takeRx k = some (f, t)) :
    t.Canonical := by
  unfold State.takeRx at ht
  split at ht
  · cases ht
  · split at ht
    · exact (Prod.mk.inj (Option.some.inj ht)).2 ▸ h.update
    · cases ht

theorem State.Canonical.of_snd {α : Type} {a : α} {s : State} (h : s.Canonical) : (a, s).2.Canonical := h

/-! #### Ops -/

theorem State.Canonical.put {s : State} {f : Fld} {v : Nat} (h : s.Canonical) : (s.put f v).Canonical := h.setReg

theorem State.Canonical.putFlag {s : State} {f : Fld} {b : Bool} (h : s.Canonical) : (s.putFlag f b).Canonical := h.put

theorem State.Canonical.putInt {s : State} {f : Fld} {v : Int} (h : s.Canonical) : (s.putInt f v).Canonical := h.put

theorem State.Canonical.count {s : State} {f : Fld} {n : Nat} (h : s.Canonical) : (s.count f n).Canonical := h.put

theorem State.Canonical.putBit {s : State} {f : Fld} {i : Nat} {b : Bool} (h : s.Canonical) : (s.putBit f i b).Canonical := h.put

theorem State.Canonical.putMapBit {s : State} {lo hi : Fld} {k : Nat} {b : Bool} (h : s.Canonical) : (s.putMapBit lo hi k b).Canonical :=
  .ite h.putBit h.putBit

theorem State.Canonical.free {s : State} {n : Nat} (h : s.Canonical) : (s.free n).2.Canonical := h.update

theorem State.Canonical.divFree {s : State} {a : Int} {b : Nat} (h : s.Canonical) : (s.divFree a b).2.Canonical := .ite_snd h h.update

theorem State.Canonical.nearest {s : State} {a : Int} {b : Nat} (h : s.Canonical) : (s.nearest a b).2.Canonical := .ite_snd h.update h

theorem State.Canonical.freeInt {s : State} {n : Nat} (h : s.Canonical) : (s.freeInt n).2.Canonical := h.update

theorem State.Canonical.padOpen {α : Type} {s : State} {n m : Nat} {f : Nat → α} {l : List α} (h : s.Canonical) :
    (s.padOpen n m f l).2.Canonical := by
  induction n generalizing s l with
  | zero => exact h
  | succ n ih =>
    cases l with
    | nil => exact ih h.free
    | cons x t => exact ih h

theorem State.Canonical.freeBytes {s : State} {n : Nat} (h : s.Canonical) : (s.freeBytes n).2.Canonical := h.update

theorem State.Canonical.setUpset {s : State} {a : Nat} {e : Ecc} (h : s.Canonical) : (s.setUpset a e).Canonical := h.update

theorem State.Canonical.freshCode {s : State} {a : Nat} (h : s.Canonical) : (s.freshCode a).Canonical := h.update

theorem State.Canonical.setWord {s : State} {a : Nat} {l : List Byte} (h : s.Canonical) : (s.setWord a l).Canonical := h.setBytes.freshCode

theorem State.Canonical.setPart {s : State} {a : Nat} {l : List Byte} (h : s.Canonical) : (s.setPart a l).Canonical :=
  (State.Canonical.ite h.setBytes.setBytes h.setBytes).freshCode

theorem State.Canonical.setSpanFuel {fuel : Nat} {s : State} {a : Nat} {l : List Byte} (h : s.Canonical) :
    (State.setSpanFuel fuel s a l).Canonical := by
  induction fuel generalizing s a l with
  | zero => exact h
  | succ n ih => exact .ite h (ih (.ite h.setWord h.setPart))

theorem State.Canonical.setSpan {s : State} {a : Nat} {l : List Byte} (h : s.Canonical) : (s.setSpan a l).Canonical := h.setSpanFuel

theorem State.Canonical.modPort {s : State} {p : Nat} {f : PortSt → PortSt} (h : s.Canonical) : (s.modPort p f).Canonical := h.update

theorem State.Canonical.modLane {s : State} {n : Nat} {f : LaneSt → LaneSt} (h : s.Canonical) : (s.modLane n f).Canonical := h.update

theorem State.Canonical.modFeeder {s : State} {f : Nat} {g : FeederSt → FeederSt} (h : s.Canonical) : (s.modFeeder f g).Canonical :=
  h.update

theorem State.Canonical.modChan {s : State} {c : Nat} {g : ChanSt → ChanSt} (h : s.Canonical) : (s.modChan c g).Canonical := h.update

theorem State.Canonical.modCore {s : State} {k : Nat} {f : CoreSt → CoreSt} (h : s.Canonical) : (s.modCore k f).Canonical := h.update

theorem State.Canonical.modRlink {s : State} {c : Nat} {f : RfLink → RfLink} (h : s.Canonical) : (s.modRlink c f).Canonical := h.update

theorem State.Canonical.modUart {s : State} {u : Nat} {f : UartSt → UartSt} (h : s.Canonical) : (s.modUart u f).Canonical := h.update

theorem State.Canonical.modQueue {s : State} {q : Nat} {f : QueueSt → QueueSt} (h : s.Canonical) : (s.modQueue q f).Canonical := h.update

theorem State.Canonical.setWin {s : State} {w : Nat} {x : WinSt} (h : s.Canonical) : (s.setWin w x).Canonical := h.update

theorem State.Canonical.setSlot {s : State} {i : Nat} {x : KeySlot} (h : s.Canonical) : (s.setSlot i x).Canonical := h.update

/-! #### Pool -/

theorem State.Canonical.eccRead {s : State} {a : Nat} {e : Ecc} (h : s.Canonical) : (s.eccRead a e).1.Canonical := by
  unfold State.eccRead
  split
  · exact h
  · exact .ite_fst h h.setUpset.count
  · exact .ite_fst h h.setUpset.update.count.put
  · exact h.setUpset.freeBytes.setBytes

theorem State.Canonical.eccWords {s : State} {l : List Nat} (h : s.Canonical) : (s.eccWords l).1.Canonical := by
  induction l generalizing s with
  | nil => exact h
  | cons a t ih => exact ih h.eccRead

theorem State.Canonical.takeCellFuel {fuel : Nat} {s : State} (h : s.Canonical) : (State.takeCellFuel fuel s).2.1.Canonical := by
  induction fuel generalizing s with
  | zero => exact h
  | succ n ih => exact .ite_snd_fst h (.ite_snd_fst (ih h.free.update.eccRead) h.free.update.eccRead)

theorem State.Canonical.takeCell {s : State} (h : s.Canonical) : (s.takeCell).2.1.Canonical := h.takeCellFuel

theorem State.Canonical.freeThese {s : State} {cells : List Nat} (h : s.Canonical) : (s.freeThese cells).Canonical := h.update

theorem State.Canonical.marks {s : State} {q before : Nat} (h : s.Canonical) : (s.marks q before).1.Canonical := .ite_fst h.modQueue h

theorem State.Canonical.touch {s : State} {q : Nat} (h : s.Canonical) : (s.touch q).1.Canonical :=
  .ite_fst h (.ite_fst h.eccWords.modQueue h.eccWords)

theorem State.Canonical.setOpen {s : State} {o : OpenPkt} (h : s.Canonical) : (s.setOpen o).Canonical := h.update

theorem State.Canonical.dropOpen {s : State} {prod : Producer} {q : Nat} (h : s.Canonical) : (s.dropOpen prod q).Canonical := h.update

theorem State.Canonical.endOpen {s : State} {o : OpenPkt} (h : s.Canonical) : (s.endOpen o).Canonical :=
  .ite h.dropOpen.modQueue h.dropOpen.freeThese

theorem State.Canonical.placeOpen {s : State} {o : OpenPkt} {w : Line} (h : s.Canonical) : (s.placeOpen o w).2.1.Canonical := by
  unfold State.placeOpen
  have h1 := h.takeCell
  refine .ite_snd_fst h (.ite_snd_fst (.ite_snd_fst h.modQueue ?_) h.setWord)
  split
  next heq => rw [heq] at h1; exact h1.modQueue
  next heq => rw [heq] at h1; exact h1.setWord

theorem State.Canonical.placeAll {s : State} {o : OpenPkt} {ws : List Line} (h : s.Canonical) : (s.placeAll o ws).2.1.Canonical := by
  induction ws generalizing s o with
  | nil => exact h
  | cons w t ih => exact ih h.placeOpen.setOpen

theorem State.Canonical.commit {s : State} {o : OpenPkt} (h : s.Canonical) : (s.commit o).1.Canonical := h.update.dropOpen.modQueue

theorem State.Canonical.placeStream {s : State} {q : Nat} {w : Line} (h : s.Canonical) : (s.placeStream q w).2.1.Canonical := by
  unfold State.placeStream
  have h1 := h.takeCell
  refine .ite_snd_fst h.update.setWord.modQueue (.ite_snd_fst h.modQueue ?_)
  split
  next heq => rw [heq] at h1; exact h1.modQueue
  next heq => rw [heq] at h1; exact h1.update.setWord.modQueue

theorem State.Canonical.placeStreams {s : State} {q : Nat} {ws : List Line} (h : s.Canonical) : (s.placeStreams q ws).2.1.Canonical := by
  induction ws generalizing s with
  | nil => exact h
  | cons w t ih => exact ih h.placeStream

theorem State.Canonical.refuseWord {s : State} {prod : Producer} {q : Nat} {d : Doom} {eop : Bool} (h : s.Canonical) :
    (s.refuseWord prod q d eop).2.Canonical :=
  .ite_snd h.endOpen h.setOpen

theorem State.Canonical.putWord {s : State} {prod : Producer} {q : Nat} {w : Line} (h : s.Canonical) : (s.putWord prod q w).2.1.Canonical :=
  .ite_snd_fst h.touch.refuseWord
    (.ite_snd_fst (.ite_snd_fst h.touch.modQueue h.touch.modQueue.refuseWord)
       (.ite_snd_fst (.ite_snd_fst h.touch.modQueue h.touch.modQueue.refuseWord.marks)
          (.ite_snd_fst (.ite_snd_fst h.touch.setOpen.placeStreams.marks h.touch.placeStream.marks)
             (.ite_snd_fst
                (.ite_snd_fst
                   ((State.Canonical.ite_snd_fst h.touch (.ite_snd_fst h.touch.setOpen.placeAll h.touch.setOpen.placeAll)).setOpen.endOpen.marks)
                   ((State.Canonical.ite_snd_fst h.touch (.ite_snd_fst h.touch.setOpen.placeAll h.touch.setOpen.placeAll)).setOpen.commit.marks))
                ((State.Canonical.ite_snd_fst h.touch (.ite_snd_fst h.touch.setOpen.placeAll h.touch.setOpen.placeAll)).setOpen.marks)))))

theorem State.Canonical.putWords {s : State} {prod : Producer} {q : Nat} {ws : List Line} (h : s.Canonical) :
    (s.putWords prod q ws).2.1.Canonical := by
  induction ws generalizing s with
  | nil => exact h
  | cons w t ih =>
    cases t with
    | nil => exact h.putWord
    | cons v t => exact ih h.putWord

theorem State.Canonical.putPacket {s : State} {prod : Producer} {q : Nat} {l : List Byte} (h : s.Canonical) :
    (s.putPacket prod q l).2.1.Canonical :=
  h.putWords

theorem State.Canonical.rewind {s : State} {prod : Producer} {q : Nat} (h : s.Canonical) : (s.rewind prod q).1.Canonical := by
  unfold State.rewind
  split
  · exact h
  · exact .ite_fst h h.touch.endOpen.marks

theorem State.Canonical.peekWord {s : State} {q : Nat} {e : Ecc} (h : s.Canonical) : (s.peekWord q e).2.1.Canonical := by
  unfold State.peekWord
  refine .ite_snd_fst h.touch ?_
  split
  · exact h.touch
  · exact .ite_snd_fst h.touch.eccRead.modQueue (.ite_snd_fst h.touch.eccRead h.touch.eccRead)

theorem State.Canonical.popWords {s : State} {q n : Nat} (h : s.Canonical) : (s.popWords q n).1.Canonical := h.modQueue.freeThese.marks

theorem State.Canonical.takeWord {s : State} {q : Nat} {e : Ecc} (h : s.Canonical) : (s.takeWord q e).2.1.Canonical := by
  unfold State.takeWord
  have h1 := h.peekWord (q := q) (e := e)
  split
  next heq => rw [heq] at h1; exact h1
  next heq => rw [heq] at h1; exact h1.popWords

theorem State.Canonical.dropRest {s : State} {q : Nat} (h : s.Canonical) : (s.dropRest q).1.Canonical := .ite_fst h.touch h.touch.popWords

theorem State.Canonical.flush {s : State} {q : Nat} (h : s.Canonical) : (s.flush q).1.Canonical :=
  .ite_fst h.touch h.touch.modQueue.freeThese.update

theorem State.Canonical.removePacket {s : State} {q seq : Nat} (h : s.Canonical) : (s.removePacket q seq).1.Canonical :=
  .ite_fst h.touch h.touch.modQueue.freeThese.marks

/-! #### Flags -/

theorem State.Canonical.pushEvent {s : State} {rec : List Byte} (h : s.Canonical) : (s.pushEvent rec).Canonical := h.setWord.put

theorem State.Canonical.ringEvent {s : State} {rec : List Byte} (h : s.Canonical) : (s.ringEvent rec).Canonical :=
  .ite h.count (.ite h.pushEvent h.count.update)

theorem State.Canonical.overflowRecord {s : State} (h : s.Canonical) : (s.overflowRecord).Canonical := .ite h.pushEvent.update h

theorem State.Canonical.coreEvent {s : State} {k b : Nat} (h : s.Canonical) : (s.coreEvent k b).Canonical := h.putBit

theorem State.Canonical.coresEvent {s : State} {b : Nat} (h : s.Canonical) : (s.coresEvent b).Canonical :=
  h.foldState (fun _ _ h1 => h1.coreEvent)

theorem State.Canonical.lanePend {s : State} {n : Nat} (h : s.Canonical) : (s.lanePend n).Canonical := by
  unfold State.lanePend
  split
  · exact h
  · exact .ite h h.putBit.coreEvent

theorem State.Canonical.keepRecord {s : State} {rkind number : Nat} {rec body : List Byte} (h : s.Canonical) :
    (s.keepRecord rkind number rec body).1.Canonical := by
  unfold State.keepRecord
  split
  · exact h.count
  · exact .ite h.putPacket h.putPacket.count

theorem State.Canonical.signalCores {s : State} (h : s.Canonical) : (s.signalCores).Canonical := h.foldState (fun _ _ h1 => h1.modCore)

theorem State.Canonical.note {s : State} {n : Note} (h : s.Canonical) : (s.note n).1.Canonical := by
  unfold State.note
  split
  · exact .ite_fst h (.ite_fst h.coreEvent h)
  · exact .ite_fst h (.ite_fst h.coreEvent h)
  · exact h
  · exact h
  · exact .ite_fst h h.putFlag
  · exact .ite_fst h.update (.ite_fst h.keepRecord h.ringEvent)
  · exact .ite_fst h.keepRecord h.update
  · exact .ite_fst h h
  · exact .ite_fst h.update (.ite_fst (.ite h.update.signalCores h.update) ((State.Canonical.ite h.update.signalCores h.update).putFlag))

theorem State.Canonical.tellFuel {fuel : Nat} {s : State} {l : List Note} (h : s.Canonical) : (State.tellFuel fuel s l).Canonical := by
  induction fuel generalizing s l with
  | zero => exact h
  | succ n ih =>
    cases l with
    | nil => exact h
    | cons x t => exact ih h.note

theorem State.Canonical.tell {s : State} {l : List Note} (h : s.Canonical) : (s.tell l).Canonical := h.tellFuel

theorem State.Canonical.tellPool {s : State} {l : List PoolNote} (h : s.Canonical) : (s.tellPool l).Canonical := h.tell

theorem State.Canonical.readSpan {s : State} {a n : Nat} (h : s.Canonical) : (s.readSpan a n).Canonical := h.eccWords.tellPool

theorem State.Canonical.readPacket {s : State} {q seq : Nat} (h : s.Canonical) : (s.readPacket q seq).Canonical := h.eccWords.tellPool

theorem State.Canonical.setEvt {s : State} {f : Fld} (h : s.Canonical) : (s.setEvt f).Canonical := h.tell

theorem State.Canonical.setEvtWith {s : State} {f : Fld} {more : List Byte} (h : s.Canonical) : (s.setEvtWith f more).Canonical := h.tell

theorem State.Canonical.event {s : State} {kind status source info : Nat} {detail : List Byte} (h : s.Canonical) :
    (s.event kind status source info detail).Canonical :=
  h.tell

theorem State.Canonical.occurs {s : State} {event qual n : Nat} (h : s.Canonical) : (s.occurs event qual n).Canonical := h.tell

theorem State.Canonical.refuse {s : State} {who : Accessor} {addr status : Nat} (h : s.Canonical) : (s.refuse who addr status).Canonical :=
  h.event

theorem State.Canonical.pushCpl {s : State} {rec : List Byte} (h : s.Canonical) : (s.pushCpl rec).Canonical := h.setWord.put

theorem State.Canonical.complete {s : State} {tag status info : Nat} {result : List Byte} (h : s.Canonical) :
    (s.complete tag status info result).Canonical := by
  unfold State.complete
  split
  · exact h
  · exact h.update.pushCpl

theorem State.Canonical.agedAfter {s : State} {aged : Bool} {n old new : Nat} (h : s.Canonical) : (s.agedAfter aged n old new).2.Canonical
    :=
  .ite_snd h (.ite_snd h h.update)

theorem State.Canonical.agedNext {s : State} {aged : Bool} {n : Nat} (h : s.Canonical) : (s.agedNext aged n).2.Canonical :=
  .ite_snd h h.update

/-! #### Operands -/

theorem State.Canonical.readRef {s : State} {r : Dref} (h : s.Canonical) : (s.readRef r).Canonical :=
  .ite h (.ite h.readPacket (.ite h.readSpan h))

theorem State.Canonical.readRefs {s : State} {d : List Byte} (h : s.Canonical) : (s.readRefs d).Canonical :=
  h.foldState (fun _ _ h1 => h1.readRef)

theorem State.Canonical.drefTake {s : State} {r : Dref} (h : s.Canonical) : (s.drefTake r).Canonical := .ite h.dropRest.tellPool h

/-! #### Keys -/

theorem State.Canonical.loadSlot {s : State} {i type usage counter : Nat} {key : List Byte} (h : s.Canonical) :
    (s.loadSlot i type usage counter key).Canonical :=
  h.setSlot

theorem State.Canonical.eraseJobs {s : State} {i : Nat} (h : s.Canonical) : (s.eraseJobs i).Canonical := h.update

theorem State.Canonical.eraseSlot {s : State} {i : Nat} (h : s.Canonical) : (s.eraseSlot i).Canonical := .ite h h.setSlot.eraseJobs

theorem State.Canonical.takeCounter {s : State} {i : Nat} (h : s.Canonical) : (s.takeCounter i).2.Canonical :=
  .ite_snd h (.ite ((State.Canonical.ite h.setSlot.setEvtWith h.setSlot).setEvtWith) (.ite h.setSlot.setEvtWith h.setSlot))

theorem State.Canonical.closeWindow {s : State} (h : s.Canonical) : (s.closeWindow).Canonical := .ite h.putFlag.setEvt h

theorem State.Canonical.takeFrameKey {s : State} {i : Nat} {group : Bool} {key : KeySlot → List Byte} (h : s.Canonical) :
    (s.takeFrameKey i group key).2.2.2.Canonical := by
  unfold State.takeFrameKey
  have h1 := h.takeCounter (i := i)
  refine .ite_snd_snd_snd h ?_
  split
  next heq => rw [heq] at h1; exact h1
  next heq => rw [heq] at h1; exact h1

/-! #### LinePort -/

theorem State.Canonical.enter {s : State} {who : Accessor} {a : Nat} {f : State → State} (h : s.Canonical)
    (hf : ∀ t, t.Canonical → (f t).Canonical) : (s.enter who a f).Canonical :=
  .ite h (.ite h.refuse (hf _ h))

theorem State.Canonical.gate {s : State} {who : Accessor} {a : Nat} {value : Word} (h : s.Canonical) : (s.gate who a value).2.Canonical :=
  .ite h h.refuse

theorem State.Canonical.answer {s : State} {who : Accessor} {v : Word} (h : s.Canonical) : (s.answer who v).Canonical := by
  unfold State.answer
  split
  · exact h.update
  · exact h

theorem State.Canonical.merge {s : State} {a mask : Nat} {value : Word} (h : s.Canonical) : (s.merge a mask value).Canonical := h.setReg

theorem State.Canonical.swap {s : State} {p n : Nat} (h : s.Canonical) : (s.swap p n).Canonical :=
  .ite (.ite h.modPort.putFlag.setEvt h.modPort.putFlag) h.modPort.putFlag

theorem State.Canonical.writeLpBank {s : State} {p : Nat} {value : Word} (h : s.Canonical) : (s.writeLpBank p value).Canonical :=
  .ite h.merge.swap h.merge

theorem State.Canonical.fadeEnd {s : State} {p : Nat} (h : s.Canonical) : (s.fadeEnd p).Canonical := h.putFlag.putFlag.modPort.setEvt

theorem State.Canonical.fadeBack {s : State} {p : Nat} (h : s.Canonical) : (s.fadeBack p).Canonical := h.putFlag.putFlag.modPort

theorem State.Canonical.coefStep {s : State} {p : Nat} (h : s.Canonical) : (s.coefStep p).Canonical := .ite h.put h

theorem State.Canonical.writeCoef {s : State} {p : Nat} {value : Word} (h : s.Canonical) : (s.writeCoef p value).Canonical :=
  (State.Canonical.ite h.modPort h.setEvt).coefStep

theorem State.Canonical.readCoef {s : State} {p : Nat} (h : s.Canonical) : (s.readCoef p).2.Canonical := .ite_snd h.coefStep h.free.coefStep

theorem State.Canonical.setPga {s : State} {p c : Nat} (h : s.Canonical) : (s.setPga p c).Canonical := .ite h h.put.setEvt

theorem State.Canonical.takeMode {s : State} {p : Nat} (h : s.Canonical) : (s.takeMode p).Canonical := .ite h.modPort.setPga h.modPort

theorem State.Canonical.writeLpPga {s : State} {p : Nat} {value : Word} (h : s.Canonical) : (s.writeLpPga p value).Canonical :=
  .ite h.merge h.merge.takeMode

theorem State.Canonical.loopStep {s : State} {p : Nat} {m : SlotMeasure} (h : s.Canonical) : (s.loopStep p m).Canonical :=
  .ite h.setPga.modPort.setEvt (.ite h.setPga.modPort (.ite h.setPga.modPort h.modPort))

theorem State.Canonical.headroom {s : State} {p : Nat} {m : SlotMeasure} (h : s.Canonical) : (s.headroom p m).Canonical :=
  .ite h.takeMode h.loopStep

theorem State.Canonical.cutSpan {s : State} {p : Nat} (h : s.Canonical) : (s.cutSpan p).Canonical := h.modPort

theorem State.Canonical.crestSlot {s : State} {p : Nat} {m : SlotMeasure} (h : s.Canonical) : (s.crestSlot p m).Canonical :=
  .ite h.padOpen.setEvt h.padOpen

theorem State.Canonical.writeLpCrest {s : State} {p : Nat} {value : Word} (h : s.Canonical) : (s.writeLpCrest p value).Canonical :=
  h.cutSpan.merge

theorem State.Canonical.echoSlot {s : State} {p : Nat} {m : SlotMeasure} (h : s.Canonical) : (s.echoSlot p m).Canonical := by
  unfold State.echoSlot
  refine .ite ?_ ?_
  · split
    · exact h
    · exact h.put
  · split
    · refine .ite ?_ ?_
      · refine State.Canonical.put ?_
        split
        · exact h
        · exact h.put
      · split
        · exact h
        · exact h.put
    · refine .ite ?_ ?_
      · refine State.Canonical.setEvt ?_
        refine State.Canonical.put ?_
        split
        · exact h
        · exact h.put
      · split
        · exact h
        · exact h.put
    · refine State.Canonical.put ?_
      split
      · exact h
      · exact h.put
    · split
      · exact h
      · exact h.put

theorem State.Canonical.writeCanc {s : State} {p : Nat} {value : Word} (h : s.Canonical) : (s.writeCanc p value).Canonical :=
  .ite h.merge.put (.ite h.merge.put h.merge)

theorem State.Canonical.txenStart {s : State} {p : Nat} (h : s.Canonical) : (s.txenStart p).Canonical := h.modPort.putFlag

theorem State.Canonical.txenEnd {s : State} {p : Nat} (h : s.Canonical) : (s.txenEnd p).Canonical := .ite h h.modPort

theorem State.Canonical.txenDrop {s : State} {p : Nat} (h : s.Canonical) : (s.txenDrop p).Canonical :=
  .ite h (.ite h.modPort h.modPort.putFlag)

theorem State.Canonical.setProbe {s : State} {p : Nat} {x : ProbeSt} (h : s.Canonical) : (s.setProbe p x).Canonical := h.modPort

theorem State.Canonical.probeEnd {s : State} {p : Nat} (h : s.Canonical) : (s.probeEnd p).Canonical := h.setProbe.putFlag.putFlag

theorem State.Canonical.refuseTone {s : State} {p : Nat} (h : s.Canonical) : (s.refuseTone p).Canonical := h.setReg.probeEnd.setEvt

theorem State.Canonical.writeZprobe {s : State} {p : Nat} {value : Word} (h : s.Canonical) : (s.writeZprobe p value).Canonical :=
  .ite h.merge
    (.ite h.merge.putFlag.putFlag.setProbe (.ite h.merge.putFlag.putFlag.setProbe.modPort h.merge.putFlag.putFlag.setProbe.refuseTone))

theorem State.Canonical.probeStart {s : State} {p k : Nat} {tone : Bool} (h : s.Canonical) : (s.probeStart p k tone).Canonical :=
  .ite h.setProbe h

theorem State.Canonical.probeFull {s : State} {p k : Nat} {tone : Bool} (h : s.Canonical) : (s.probeFull p k tone).Canonical :=
  .ite h.setProbe h

theorem State.Canonical.probeCut {s : State} {p k : Nat} (h : s.Canonical) : (s.probeCut p k).Canonical := by
  unfold State.probeCut
  split
  · exact .ite h (.ite h.setProbe.modPort h.setProbe)
  · exact h

theorem State.Canonical.probeMag {s : State} {p v i : Nat} (h : s.Canonical) : (s.probeMag p v i).2.Canonical :=
  .ite_snd h.free (.ite_snd h h.update)

/-! #### Sends -/

theorem State.Canonical.putEntry {s : State} {i off : Nat} {l : List Byte} (h : s.Canonical) : (s.putEntry i off l).Canonical :=
  .ite ((State.Canonical.ite h.readSpan.setPart h.readSpan.setSpan).update) (.ite h.readSpan.setPart h.readSpan.setSpan)

theorem State.Canonical.seal {s : State} {m : MacOut} (h : s.Canonical) : (s.seal m).2.2.Canonical :=
  .ite_snd_snd h (.ite_snd_snd h.takeFrameKey h.takeFrameKey)

theorem State.Canonical.modSend {s : State} {id : Nat} {f : SendSt → SendSt} (h : s.Canonical) : (s.modSend id f).Canonical := h.update

theorem State.Canonical.modCopy {s : State} {id n : Nat} {f : Copy → Copy} (h : s.Canonical) : (s.modCopy id n f).Canonical := h.modSend

theorem State.Canonical.endSend {s : State} {x : SendSt} {status : Nat} {result : List Byte} (h : s.Canonical) :
    (s.endSend x status result).Canonical := by
  unfold State.endSend
  split
  · exact h.update.complete
  · exact h.update.tell

theorem State.Canonical.judge {s : State} {id : Nat} {result : List Byte} (h : s.Canonical) : (s.judge id result).Canonical := by
  unfold State.judge
  split
  · exact h
  · exact .ite h h.endSend

theorem State.Canonical.dropItem {s : State} {n item : Nat} (h : s.Canonical) : (s.dropItem n item).Canonical :=
  .ite h.removePacket.tellPool h

theorem State.Canonical.endCopy {s : State} {id n status : Nat} {result : List Byte} (h : s.Canonical) :
    (s.endCopy id n status result).Canonical := by
  unfold State.endCopy
  split
  · exact h
  · exact h.dropItem.modCopy.judge

theorem State.Canonical.backOff {s : State} {id n r : Nat} (h : s.Canonical) : (s.backOff id n r).Canonical := h.free.modCopy

theorem State.Canonical.failAttempt {s : State} {id n : Nat} {busy : Bool} (h : s.Canonical) : (s.failAttempt id n busy).Canonical := by
  unfold State.failAttempt
  split
  · exact h
  · split
    · exact h
    · exact .ite h.modSend.endCopy h.modSend.backOff

theorem State.Canonical.recheck {s : State} {n : Nat} (h : s.Canonical) : (s.recheck n).Canonical :=
  h.foldState (fun _ _ h1 => h1.failAttempt)

theorem State.Canonical.lostAnswer {s : State} {n len cp : Nat} {full : Bool} (h : s.Canonical) : (s.lostAnswer n len cp full).Canonical :=
  h.foldState (fun _ _ h1 => h1.failAttempt)

/-! #### Phy -/

theorem State.Canonical.decode {s : State} {sent : List (Int × Bool)} (h : s.Canonical) : (s.decode sent).2.2.Canonical := h.free.update

theorem State.Canonical.decodeHeader {s : State} {soft : List Int} (h : s.Canonical) : (s.decodeHeader soft).2.2.Canonical :=
  h.decode (sent := (deinterleave soft).map (fun x => (x, true)))

theorem State.Canonical.decodePayload {s : State} {soft : List Int} {len cp e : Nat} (h : s.Canonical) :
    (s.decodePayload soft len cp e).2.2.2.Canonical :=
  h.decode

theorem State.Canonical.softOf {s : State} {num : Int} {den : Nat} (h : s.Canonical) : (s.softOf num den).2.Canonical :=
  .ite_snd h.update h.divFree

theorem State.Canonical.softList {s : State} {l : List (Int × Nat)} (h : s.Canonical) : (s.softList l).2.Canonical := by
  induction l generalizing s with
  | nil => exact h
  | cons x t ih => exact ih h.softOf

theorem State.Canonical.demod {s : State} {four : Bool} {amp n : Nat} {ys : List Int} (h : s.Canonical) :
    (s.demod four amp n ys).2.Canonical :=
  h.softList.padOpen

/-! #### Lane -/

theorem State.Canonical.agcRun {s : State} {n : Nat} {levels : List Int} (h : s.Canonical) : (s.agcRun n levels).Canonical :=
  .ite h h.modLane

theorem State.Canonical.writeLnAgc {s : State} {n : Nat} {value : Word} (h : s.Canonical) : (s.writeLnAgc n value).Canonical :=
  .ite h.merge.putFlag.modLane h.merge

theorem State.Canonical.putFreeze {s : State} {n : Nat} {g : Int} {pga : Nat} (h : s.Canonical) : (s.putFreeze n g pga).Canonical :=
  .ite h h.putInt.put.putFlag

theorem State.Canonical.thaw {s : State} {n : Nat} (h : s.Canonical) : (s.thaw n).Canonical := .ite h.putFlag.modLane h

theorem State.Canonical.rest {s : State} {n : Nat} (h : s.Canonical) : (s.rest n).Canonical := h.put.put.thaw.modLane

theorem State.Canonical.setDecPend {s : State} {n : Nat} (h : s.Canonical) : (s.setDecPend n).Canonical := h.putFlag

theorem State.Canonical.dropHeaderJob {s : State} {n : Nat} (h : s.Canonical) : (s.dropHeaderJob n).Canonical := h.update.setDecPend

theorem State.Canonical.dropJobs {s : State} {n : Nat} (h : s.Canonical) : (s.dropJobs n).Canonical := h.update.setDecPend

theorem State.Canonical.rewindRx {s : State} {n : Nat} (h : s.Canonical) : (s.rewindRx n).Canonical := by
  unfold State.rewindRx
  split
  · exact h
  · exact h.rewind.tellPool

theorem State.Canonical.countOutcome {s : State} {n code : Nat} (h : s.Canonical) : (s.countOutcome n code).Canonical :=
  .ite h.count (.ite h.count (.ite h.count (.ite h.count (.ite h.count (.ite h.count h)))))

theorem State.Canonical.outcome {s : State} {n code : Nat} {q : List Word} (h : s.Canonical) : (s.outcome n code q).Canonical :=
  .ite (.ite h.put.countOutcome.lanePend.occurs.event h.put.countOutcome.lanePend.occurs)
    ((State.Canonical.ite ((State.Canonical.ite h.put.countOutcome.lanePend.occurs.event h.put.countOutcome.lanePend.occurs).lostAnswer)
        (.ite h.put.countOutcome.lanePend.occurs.event h.put.countOutcome.lanePend.occurs)).recheck)

theorem State.Canonical.outcomeEarly {s : State} {n code : Nat} {r : Reception} (h : s.Canonical) : (s.outcomeEarly n code r).Canonical :=
  (State.Canonical.ite h.free.put h.free).outcome

theorem State.Canonical.holdNoise {s : State} {n : Nat} (h : s.Canonical) : (s.holdNoise n).Canonical := .ite h.free.modLane h

theorem State.Canonical.showNoise {s : State} {n : Nat} (h : s.Canonical) : (s.showNoise n).Canonical := h.free.put

theorem State.Canonical.laneSlot {s : State} {p : Nat} {x : LaneSlot} (h : s.Canonical) : (s.laneSlot p x).Canonical :=
  .ite h.agcRun.modLane.showNoise h.agcRun

theorem State.Canonical.startRx {s : State} {n : Nat} {r : Reception} (h : s.Canonical) : (s.startRx n r).Canonical :=
  h.put.put.put.putInt.putFlag.modLane

theorem State.Canonical.restartRx {s : State} {n code : Nat} {c r : Reception} (h : s.Canonical) : (s.restartRx n code c r).Canonical :=
  h.dropHeaderJob.rewindRx.outcomeEarly.putFreeze.startRx.recheck

theorem State.Canonical.unlock {s : State} {p : Nat} (h : s.Canonical) : (s.unlock p).Canonical :=
  h.modPort.foldState (fun _ _ h1 => h1.modLane)

theorem State.Canonical.headerPass {s : State} {n : LaneN} {r : Reception} {len cp fixed : Nat} (h : s.Canonical) :
    (s.headerPass n r len cp fixed).Canonical :=
  .ite h.free.put.put.modLane h.free.put.put.modLane.setOpen

theorem State.Canonical.leaveRx {s : State} {n : Nat} (h : s.Canonical) : (s.leaveRx n).Canonical := by
  unfold State.leaveRx
  split
  · exact h.rest
  · exact h.rest.putFreeze.startRx.modLane

theorem State.Canonical.failPacket {s : State} {n : LaneN} {q : Nat} {l : List Byte} (h : s.Canonical) : (s.failPacket n q l).2.Canonical :=
  h.putWords.tellPool.rewind.tellPool

theorem State.Canonical.toLink {s : State} {j : DecJob} {q : Nat} {bytes : List Byte} {qual : List Word} (h : s.Canonical) :
    (s.toLink j q bytes qual).Canonical :=
  h.removePacket.tellPool.update

theorem State.Canonical.cutRx {s : State} {n : Nat} (h : s.Canonical) : (s.cutRx n).Canonical := h.dropJobs.rewindRx.rest.recheck

theorem State.Canonical.writeLnCfg {s : State} {n : Nat} {value : Word} (h : s.Canonical) : (s.writeLnCfg n value).Canonical :=
  .ite h.merge.putFlag (.ite h.merge.putFlag.rest h.merge.putFlag.cutRx)

theorem State.Canonical.showBlock {s : State} {n : Nat} (h : s.Canonical) : (s.showBlock n).Canonical := h.putMapBit

theorem State.Canonical.blockLane {s : State} {n : Nat} (h : s.Canonical) : (s.blockLane n).Canonical := by
  unfold State.blockLane
  dsimp only
  split
  · exact .ite h.showBlock.dropHeaderJob.rewindRx.rest h.showBlock.dropHeaderJob.rewindRx.rest.outcomeEarly
  · exact .ite h.showBlock.rest h.showBlock

theorem State.Canonical.blockBegin {s : State} {p k : Nat} (h : s.Canonical) : (s.blockBegin p k).Canonical :=
  h.modLane.foldState (fun _ _ h1 => h1.blockLane)

theorem State.Canonical.parkLane {s : State} {n : Nat} (h : s.Canonical) : (s.parkLane n).Canonical :=
  .ite (.ite h.dropHeaderJob.rewindRx.rest.recheck.count (.ite h.rest h)) (.ite h.rest h)

theorem State.Canonical.repark {s : State} (h : s.Canonical) : (s.repark).Canonical := h.foldState (fun _ _ h1 => h1.parkLane)

theorem State.Canonical.laneSymbol {s : State} {slot n : Nat} (h : s.Canonical) : (s.laneSymbol slot n).Canonical :=
  .ite ((State.Canonical.ite h.put h).modLane) (.ite h.put h)

theorem State.Canonical.ctxSymbol {s : State} {p slot : Nat} {e : Nat × TxCtx} (h : s.Canonical) : (s.ctxSymbol p slot e).Canonical :=
  .ite h.modPort.probeFull h.modPort

theorem State.Canonical.countSymbols {s : State} {p : Nat} {old : Bool} (h : s.Canonical) : (s.countSymbols p old).Canonical :=
  (h.foldState (fun _ _ h1 => h1.laneSymbol)).foldState (fun _ _ h1 => h1.ctxSymbol)

/-! #### Mains -/

theorem State.Canonical.phref {s : State} {c t : Nat} {ok : Bool} (h : s.Canonical) : (s.phref c t ok).Canonical :=
  h.foldState (fun _ _ h1 => h1.put)

theorem State.Canonical.nominal {s : State} {p : Nat} (h : s.Canonical) : (s.nominal p).2.Canonical := h.divFree

theorem State.Canonical.acquire {s : State} {p : Nat} (h : s.Canonical) : (s.acquire p).Canonical := h.unlock.put.putFlag.put.modPort

theorem State.Canonical.portStart {s : State} {p : Nat} (h : s.Canonical) : (s.portStart p).Canonical :=
  .ite h ((State.Canonical.ite h h.nominal.put).acquire.modPort.foldState (fun _ _ h1 => h1.rest))

theorem State.Canonical.splitGrid {s : State} {p : Nat} (h : s.Canonical) : (s.splitGrid p).Canonical :=
  (h.foldState (fun _ _ h1 => h1.modLane)).modPort

theorem State.Canonical.lock {s : State} {p z m per : Nat} (h : s.Canonical) : (s.lock p z m per).Canonical :=
  h.splitGrid.put.put.putFlag.modPort.put.setEvt

theorem State.Canonical.runCrossing {s : State} {p x : Nat} (h : s.Canonical) : (s.runCrossing p x).Canonical := by
  unfold State.runCrossing
  dsimp only
  split
  · exact .ite h.modPort.lock h.modPort
  · exact h.modPort

theorem State.Canonical.roll {s : State} {p : Nat} (h : s.Canonical) : (s.roll p).Canonical := h.modPort

theorem State.Canonical.follow {s : State} {p : Nat} {e : Int} (h : s.Canonical) : (s.follow p e).Canonical :=
  h.divFree.divFree.put.put.put.modPort.roll

theorem State.Canonical.moveTrim {s : State} {p : Nat} {trim : Int} (h : s.Canonical) : (s.moveTrim p trim).Canonical :=
  .ite h (.ite h.modPort.put h.modPort)

theorem State.Canonical.lockedCrossing {s : State} {p x : Nat} (h : s.Canonical) : (s.lockedCrossing p x).Canonical := by
  unfold State.lockedCrossing
  split
  · exact h
  · exact .ite h h.follow

theorem State.Canonical.crossing {s : State} {p x : Nat} (h : s.Canonical) : (s.crossing p x).Canonical :=
  (State.Canonical.ite h.runCrossing h.lockedCrossing.modPort).phref

theorem State.Canonical.lateEdge {s : State} {t : Nat} (h : s.Canonical) : (s.lateEdge t).Canonical := by
  unfold State.lateEdge
  refine State.Canonical.foldState h ?_
  intro _ _ h1
  split
  · exact h1
  · exact .ite h1.modPort.put h1.modPort

theorem State.Canonical.lateFeeders {s : State} {t : Nat} (h : s.Canonical) : (s.lateFeeders t).Canonical :=
  h.foldState (fun _ _ h1 => h1.modFeeder)

theorem State.Canonical.writeMaskLo {s : State} {n : Nat} {value : Word} (h : s.Canonical) : (s.writeMaskLo n value).Canonical :=
  h.setReg.modLane

theorem State.Canonical.applyMask {s : State} {n : Nat} (h : s.Canonical) : (s.applyMask n).Canonical :=
  .ite h (.ite h.modLane.setEvtWith h.modLane)

theorem State.Canonical.applyMasks {s : State} {p : Nat} (h : s.Canonical) : (s.applyMasks p).Canonical :=
  h.foldState (fun _ _ h1 => h1.applyMask)

theorem State.Canonical.nmapSlot {s : State} {p slot : Nat} {lanes : List LaneSlot} (h : s.Canonical) : (s.nmapSlot p slot lanes).Canonical
    :=
  .ite h h.modPort

theorem State.Canonical.writeNmapCfg {s : State} {p : Nat} {value : Word} (h : s.Canonical) : (s.writeNmapCfg p value).Canonical :=
  .ite h.merge.modPort h.merge

theorem State.Canonical.readNmap {s : State} {p : Nat} (h : s.Canonical) : (s.readNmap p).2.Canonical := .ite h (.ite h.put.put h.put)

theorem State.Canonical.beginSlot {s : State} {p : Nat} (h : s.Canonical) : (s.beginSlot p).Canonical :=
  h.modPort.foldState (fun _ _ h1 => h1.modLane)

theorem State.Canonical.endSlot {s : State} {p : Nat} {m : SlotMeasure} (h : s.Canonical) : (s.endSlot p m).Canonical :=
  (State.Canonical.ite ((h.crestSlot.countSymbols.headroom.nmapSlot.echoSlot.foldState (fun _ _ h1 => h1.laneSlot)).put)
     ((h.crestSlot.countSymbols.headroom.nmapSlot.echoSlot.foldState (fun _ _ h1 => h1.laneSlot)).modPort)).beginSlot

theorem State.Canonical.endOld {s : State} {p : Nat} (h : s.Canonical) : (s.endOld p).Canonical := h.countSymbols.modPort

/-! #### Link -/

theorem State.Canonical.afterRx {s : State} {f : LinkRx} (h : s.Canonical) : (s.afterRx f).Canonical := by
  unfold State.afterRx
  split
  · exact h
  · exact h.recheck

theorem State.Canonical.reply {s : State} {f : LinkRx} {m : Mac} {i reason : Option Nat} (h : s.Canonical) :
    (s.reply f m i reason).Canonical := by
  unfold State.reply
  split
  · exact h.modPort
  · exact h.update

theorem State.Canonical.micFail {s : State} (h : s.Canonical) : (s.micFail).Canonical := h.count.setEvt

theorem State.Canonical.deliver {s : State} {f : LinkRx} {m : Mac} {i rxSeq map fc : Nat} {body : List Byte} (h : s.Canonical) :
    (s.deliver f m i rxSeq map fc body).Canonical :=
  .ite ((State.Canonical.ite_snd_fst h h.putPacket).tellPool.reply)
    ((State.Canonical.ite ((State.Canonical.ite_snd_fst h h.putPacket).tellPool.putEntry.putEntry.putEntry.reply)
        ((State.Canonical.ite_snd_fst h h.putPacket).tellPool.putEntry.putEntry.putEntry)).tell)

theorem State.Canonical.reportDup {s : State} {f : LinkRx} {n : Nat} (h : s.Canonical) : (s.reportDup f n).Canonical :=
  .ite h.occurs.event h

theorem State.Canonical.duplicate {s : State} {f : LinkRx} {m : Mac} {i : Nat} (h : s.Canonical) : (s.duplicate f m i).Canonical := by
  unfold State.duplicate
  have h1 : (((s.ownLane f.lane).map (fun n => (s.count LK_CNT.DUP_RX 1).reportDup f n)).getD (s.count LK_CNT.DUP_RX 1)).Canonical :=
    h.count.mapGetD fun _ => h.count.reportDup
  exact .ite h1.reply h1

theorem State.Canonical.pass {s t : State} {f : LinkRx} {i : Nat} (h : s.Canonical) (ht : s.pass f i = some t) : t.Canonical := by
  unfold State.pass at ht
  split at ht
  · split at ht
    · exact Option.some.inj ht ▸ h.update
    · exact Option.some.inj ht ▸ h.count
  · split at ht
    · exact Option.some.inj ht ▸ h.count
    · cases ht

theorem State.Canonical.rxData {s : State} {f : LinkRx} {m : Mac} (h : s.Canonical) : (s.rxData f m).Canonical := by
  unfold State.rxData
  split
  · exact .ite h.count (.ite h.reply h)
  · split
    next hp => exact h.pass hp
    · split
      · exact h.micFail
      · refine .ite h.reply ?_
        split
        · exact h.duplicate
        · exact .ite h.count.setEvt h.deliver

theorem State.Canonical.rxAck {s : State} {f : LinkRx} {m : Mac} (h : s.Canonical) : (s.rxAck f m).Canonical := by
  unfold State.rxAck
  split
  · exact .ite h.count h
  · split
    next hp => exact h.pass hp
    · split
      · exact h.micFail
      · split
        · exact h
        · exact .ite h.endCopy (.ite h.failAttempt (.ite h.putEntry.endCopy h))

theorem State.Canonical.queueJoin {s : State} {f : LinkRx} {n : Nat} {m : Mac} {result : Nat} {entry : Option Nat} (h : s.Canonical) :
    (s.queueJoin f n m result entry).Canonical :=
  h.free.modPort

theorem State.Canonical.setHome {s : State} {i n lane : Nat} (h : s.Canonical) : (s.setHome i n lane).Canonical := h.putEntry

theorem State.Canonical.noteJoin {s : State} {f : LinkRx} {m : Mac} {port : Nat} {entry : Option Nat} {homed : Bool} (h : s.Canonical) :
    (s.noteJoin f m port entry homed).Canonical :=
  h.update

theorem State.Canonical.allot {s : State} {f : LinkRx} {n : Nat} {m : Mac} {i : Nat} (h : s.Canonical) : (s.allot f n m i).Canonical :=
  .ite h.count.setEvt ((State.Canonical.ite h.putEntry.putEntry.putEntry.setHome h.putEntry.putEntry.putEntry).noteJoin.queueJoin)

theorem State.Canonical.firstJoin {s : State} {f : LinkRx} {n : Nat} {m : Mac} (h : s.Canonical) : (s.firstJoin f n m).Canonical := by
  unfold State.firstJoin
  split
  · exact h.allot
  · split
    · exact h.noteJoin.setEvt.queueJoin
    · exact .ite h.putEntry.putEntry.allot h.noteJoin.setEvtWith.queueJoin

theorem State.Canonical.laterJoin {s : State} {f : LinkRx} {m : Mac} {j : JoinSeen} (h : s.Canonical) : (s.laterJoin f m j).Canonical := by
  unfold State.laterJoin
  dsimp only
  refine .ite h ?_
  split
  · exact (h.foldState (fun _ _ h1 => h1.modPort)).update
  · refine .ite ?_ ?_
    · refine State.Canonical.queueJoin ?_
      split
      · exact (h.foldState (fun _ _ h1 => h1.modPort)).update.setHome
      · exact (h.foldState (fun _ _ h1 => h1.modPort)).update
    · split
      · exact (h.foldState (fun _ _ h1 => h1.modPort)).update.setHome
      · exact (h.foldState (fun _ _ h1 => h1.modPort)).update

theorem State.Canonical.rxJoin {s : State} {f : LinkRx} {m : Mac} (h : s.Canonical) : (s.rxJoin f m).Canonical := by
  unfold State.rxJoin
  dsimp only
  refine .ite h.count ?_
  refine .ite h.count ?_
  split
  · split
    · exact h.laterJoin
    · exact h.noteJoin
  · refine .ite h.micFail ?_
    refine .ite h ?_
    split
    · exact (State.Canonical.ite h.update h).laterJoin
    · exact (State.Canonical.ite h.update h).firstJoin

theorem State.Canonical.dropJoin {s : State} {p : Nat} {j : PendJoin} (h : s.Canonical) : (s.dropJoin p j).Canonical := h.modPort

theorem State.Canonical.writeLpJoin {s : State} {who : Accessor} {p : Nat} {value : Word} (h : s.Canonical) :
    (s.writeLpJoin who p value).Canonical :=
  .ite h.setReg h.refuse

theorem State.Canonical.queueCopy {s : State} {x : SendSt} {n : Nat} {timed : Bool} {notBefore : Nat} (h : s.Canonical) :
    (s.queueCopy x n timed notBefore).2.Canonical :=
  .ite_snd h (.ite_snd h.putPacket.tellPool h.putPacket.tellPool)

theorem State.Canonical.queueCopies {s : State} {x : SendSt} {l : List Nat} {timed : Bool} {notBefore : Nat} (h : s.Canonical) :
    (s.queueCopies x l timed notBefore).2.Canonical := by
  induction l generalizing s with
  | nil => exact h
  | cons n t ih => exact ih h.queueCopy

theorem State.Canonical.startSend {s : State} {x : SendSt} {lanes : List Nat} {timed : Bool} {notBefore : Nat} (h : s.Canonical) :
    (s.startSend x lanes timed notBefore).Canonical :=
  h.queueCopies.update.judge

theorem State.Canonical.runSend {s : State} {id tag : Nat} {handoff : Option Nat} {d : List Byte} {i n : Nat} {body : List Byte}
    (h : s.Canonical) : (s.runSend id tag handoff d i n body).Canonical :=
  h.putEntry.startSend

theorem State.Canonical.runBcast {s : State} {id tag : Nat} {handoff : Option Nat} {d : List Byte} {seq : Nat} {lanes far : List Nat}
    {mac : MacOut} (h : s.Canonical) : (s.runBcast id tag handoff d seq lanes far mac).Canonical :=
  h.startSend

theorem State.Canonical.writeWord0 {s : State} {a : Nat} {value : Word} (h : s.Canonical) : (s.writeWord0 a value).Canonical :=
  .ite h.refuse (.ite h.putEntry (.ite h.putEntry h.refuse))

/-! #### Uart -/

theorem State.Canonical.uaFinish {s : State} {fuel u : Nat} (h : s.Canonical) : (s.uaFinish fuel u).Canonical := by
  induction fuel generalizing s with
  | zero => exact h
  | succ n ih =>
    unfold State.uaFinish
    split
    · exact h
    · exact .ite h (ih h.modUart.complete)

theorem State.Canonical.uaStart {s : State} {u c : Nat} {tag : Option Nat} (h : s.Canonical) : (s.uaStart u c tag).Canonical :=
  .ite h.modUart.putFlag.putFlag h.modUart.putFlag

theorem State.Canonical.uaKick {s : State} {u : Nat} (h : s.Canonical) : (s.uaKick u).Canonical := by
  unfold State.uaKick
  dsimp only
  refine .ite h ?_
  split
  · exact h.modUart.uaStart
  · refine .ite h ?_
    split
    · exact h.uaFinish
    · exact h.uaFinish.uaStart

theorem State.Canonical.uaFlow {s : State} {u : Nat} (h : s.Canonical) : (s.uaFlow u).Canonical :=
  .ite h (.ite (.ite h.modUart.uaKick h) (.ite h.modUart.uaKick h))

theorem State.Canonical.uaFlows {s : State} (h : s.Canonical) : (s.uaFlows).Canonical := h.foldState (fun _ _ h1 => h1.uaFlow)

theorem State.Canonical.uaWord {s : State} {u : Uart} {eop rto : Bool} (h : s.Canonical) : (s.uaWord u eop rto).Canonical :=
  (State.Canonical.ite h.putWord.tellPool.modUart.count.setEvt h.putWord.tellPool.modUart).uaFlow

theorem State.Canonical.uaStore {s : State} {u : Uart} {data : Nat} {parity framing noise brk : Bool} (h : s.Canonical) :
    (s.uaStore u data parity framing noise brk).Canonical :=
  .ite
    ((State.Canonical.ite ((State.Canonical.ite ((State.Canonical.ite h.count h).count) (.ite h.count h)).count)
        (.ite ((State.Canonical.ite h.count h).count) (.ite h.count h))).modUart.uaWord)
    (.ite
       ((State.Canonical.ite ((State.Canonical.ite ((State.Canonical.ite h.count h).count) (.ite h.count h)).count)
           (.ite ((State.Canonical.ite h.count h).count) (.ite h.count h))).modUart.uaWord)
       ((State.Canonical.ite ((State.Canonical.ite ((State.Canonical.ite h.count h).count) (.ite h.count h)).count)
           (.ite ((State.Canonical.ite h.count h).count) (.ite h.count h))).modUart))

theorem State.Canonical.endUarts {s : State} {status : Nat} (h : s.Canonical) : (s.endUarts status).Canonical :=
  h.foldState (fun _ _ h1 => (h1.foldState (fun _ _ h2 => h2.complete)).modUart)

/-! #### PoolCmd -/

theorem State.Canonical.produce {s : State} {prod : Producer} {q : Nat} {word : Line} (h : s.Canonical) : (s.produce prod q word).Canonical
    := by
  unfold State.produce
  split
  · exact .ite h.putWord.tellPool.put h.putWord.tellPool
  · exact h.putWord.tellPool

theorem State.Canonical.clearWin {s : State} {w : Nat} (h : s.Canonical) : (s.clearWin w).Canonical := h.setWin.put

theorem State.Canonical.doFlush {s : State} {q : Nat} (h : s.Canonical) : (s.doFlush q).Canonical := h.flush.tellPool.uaFlows

theorem State.Canonical.doDropRest {s : State} {q : Nat} (h : s.Canonical) : (s.doDropRest q).Canonical :=
  (h.foldState (fun _ _ h1 => h1.clearWin)).dropRest.tellPool.uaFlows

theorem State.Canonical.writeQpCmd {s : State} {value : Word} (h : s.Canonical) : (s.writeQpCmd value).Canonical := by
  unfold State.writeQpCmd
  split
  · exact h.doFlush
  · exact h.doDropRest
  · exact h

theorem State.Canonical.rewindWin {s : State} {w : Win} (h : s.Canonical) : (s.rewindWin w).Canonical := .ite h.rewind.tellPool.put h

theorem State.Canonical.writeWinCfg {s : State} {w : Win} {value : Word} (h : s.Canonical) : (s.writeWinCfg w value).Canonical :=
  h.rewindWin.clearWin.merge

theorem State.Canonical.writeWinData {s : State} {w : Win} {value : Word} (h : s.Canonical) : (s.writeWinData w value).Canonical :=
  .ite h (.ite h.setWin.put h.clearWin.produce)

theorem State.Canonical.consumeHeld {s : State} {q : Nat} {x : Option QSlot} (h : s.Canonical) : (s.consumeHeld q x).Canonical :=
  .ite h.popWords.tellPool.uaFlows h

theorem State.Canonical.nextPart {s : State} {w : Win} {q : Nat} (h : s.Canonical) : (s.nextPart w q).2.Canonical :=
  .ite h.clearWin.consumeHeld h.put

theorem State.Canonical.readWinData {s : State} {w : Win} {e : Ecc} (h : s.Canonical) : (s.readWinData w e).2.Canonical := by
  unfold State.readWinData
  have h1 := h.peekWord (q := s.get (QP_WIN_CFG.QUEUE w)) (e := e)
  refine .ite_snd h (.ite_snd h.nextPart ?_)
  split
  next heq => rw [heq] at h1; exact h1.tellPool
  next heq => rw [heq] at h1; exact h1.tellPool.setWin.nextPart

theorem State.Canonical.setWait {s : State} {w : Option Nat} (h : s.Canonical) : (s.setWait w).Canonical := h.update

theorem State.Canonical.timeoutRead {s : State} (h : s.Canonical) : (s.timeoutRead).Canonical := h.putFlag

theorem State.Canonical.winDropRest {s : State} {w : Win} (h : s.Canonical) : (s.winDropRest w).Canonical := by
  unfold State.winDropRest
  refine .ite h ?_
  split
  · exact h.doDropRest
  · exact .ite h.clearWin.doDropRest h.clearWin

theorem State.Canonical.winRestart {s : State} {w : Win} (h : s.Canonical) : (s.winRestart w).Canonical := .ite h.clearWin h.put

theorem State.Canonical.writeWinCmd {s : State} {w : Win} {value : Word} (h : s.Canonical) : (s.writeWinCmd w value).Canonical :=
  .ite ((State.Canonical.ite ((State.Canonical.ite h.rewindWin h).winDropRest) (.ite h.rewindWin h)).winRestart)
    (.ite ((State.Canonical.ite h.rewindWin h).winDropRest) (.ite h.rewindWin h))

theorem State.Canonical.writeQstat {s : State} {value : Word} (h : s.Canonical) : (s.writeQstat value).Canonical := h.modQueue

theorem State.Canonical.writeQwm {s : State} {value : Word} (h : s.Canonical) : (s.writeQwm value).Canonical := .ite h h.modQueue

theorem State.Canonical.readSram {s : State} {a : Nat} {e : Ecc} (h : s.Canonical) : (s.readSram a e).2.Canonical :=
  .ite_snd h.refuse h.eccRead.tellPool

theorem State.Canonical.writeSram {s : State} {a : Nat} {value : Word} (h : s.Canonical) : (s.writeSram a value).Canonical := by
  unfold State.writeSram
  split
  · exact h.readSpan.setPart
  · exact .ite h.readSpan.setPart h.refuse
  · exact .ite h.writeWord0 h.putEntry
  · exact h.refuse

theorem State.Canonical.scrubNext {s : State} (h : s.Canonical) : (s.scrubNext).Canonical := .ite h.update h.update.put.setEvt

/-! #### Tx -/

theorem State.Canonical.showCtx {s : State} {p k : Nat} (h : s.Canonical) : (s.showCtx p k).Canonical := by
  unfold State.showCtx
  dsimp only
  split
  · exact h.put.putFlag
  · exact h.put.putFlag.put

theorem State.Canonical.setCtx {s : State} {p c : Nat} {x : Option TxCtx} (h : s.Canonical) : (s.setCtx p c x).Canonical := h.modPort

theorem State.Canonical.toSend {s : State} {p : Nat} {c : TxCtx} {r : Report75} (h : s.Canonical) : (s.toSend p c r).Canonical := by
  unfold State.toSend
  dsimp only
  split
  · exact h
  · split
    · exact .ite h.modCopy h.endCopy
    · exact h.failAttempt
    · exact h.endCopy
    · exact h.endCopy
    · exact h.endCopy

theorem State.Canonical.report {s : State} {p : Nat} {c : TxCtx} {r : Report75} (h : s.Canonical) : (s.report p c r).Canonical := by
  unfold State.report
  split
  · exact h.removePacket.tellPool.modLane.toSend.lanePend
  · exact h.modLane.toSend.lanePend
  · exact h

theorem State.Canonical.lineOff {s : State} {p k : Nat} (h : s.Canonical) : (s.lineOff p k).Canonical := h.putMapBit.modLane.txenEnd

theorem State.Canonical.probeOff {s : State} {p : Nat} {x : TxCtx} {r : Report75} (h : s.Canonical) : (s.probeOff p x r).Canonical :=
  .ite h.probeFull h.probeCut

theorem State.Canonical.endFrame {s : State} {p c : Nat} {r : Report75} (h : s.Canonical) : (s.endFrame p c r).Canonical := by
  unfold State.endFrame
  split
  · exact h
  · exact (State.Canonical.ite ((State.Canonical.ite h.cutSpan h).setCtx.showCtx.lineOff.probeOff)
       (.ite ((State.Canonical.ite h.cutSpan h).setCtx.showCtx.modPort) ((State.Canonical.ite h.cutSpan h).setCtx.showCtx))).report

theorem State.Canonical.headCheck {s : State} {n : Nat} (h : s.Canonical) : (s.headCheck n).Canonical := by
  unfold State.headCheck
  split
  · exact h
  · exact .ite h h.setEvt.report

theorem State.Canonical.headChecks {s : State} {fuel n : Nat} (h : s.Canonical) : (s.headChecks fuel n).Canonical := by
  induction fuel generalizing s with
  | zero => exact h
  | succ k ih => exact ih h.headCheck

theorem State.Canonical.giveCtx {s : State} {p k coming : Nat} {kind : TxKind} {frame : List Byte} {cp : Nat} {full : Bool} {ref : Nat}
    (h : s.Canonical) : (s.giveCtx p k coming kind frame cp full ref).Canonical :=
  .ite h.free.setCtx.showCtx.put.setEvt h.free.setCtx.showCtx.put

theorem State.Canonical.allocBeacon {s : State} {p coming : Nat} (h : s.Canonical) : (s.allocBeacon p coming).Canonical := .ite h.giveCtx h

theorem State.Canonical.allocAnswer {s : State} {p coming : Nat} {a : PendAns} (h : s.Canonical) : (s.allocAnswer p coming a).Canonical :=
  .ite (.ite h.seal.giveCtx h.seal) h.count

theorem State.Canonical.allocAnswers {s : State} {p coming : Nat} (h : s.Canonical) : (s.allocAnswers p coming).Canonical :=
  h.modPort.count.foldState (fun _ _ h1 => h1.allocAnswer)

theorem State.Canonical.allocJoin {s : State} {p coming : Nat} {j : PendJoin} (h : s.Canonical) : (s.allocJoin p coming j).Canonical :=
  .ite (.ite ((State.Canonical.ite_snd_snd h.seal h).modPort.giveCtx) ((State.Canonical.ite_snd_snd h.seal h).dropJoin)) h

theorem State.Canonical.allocWait {s : State} {p coming : Nat} {w : PendAir} (h : s.Canonical) : (s.allocWait p coming w).Canonical := by
  unfold State.allocWait
  split
  · exact .ite h.modPort (.ite h.giveCtx h)
  · exact .ite h.refuseTone (.ite h.giveCtx h.modPort)

theorem State.Canonical.allocWaits {s : State} {p coming : Nat} (h : s.Canonical) : (s.allocWaits p coming).Canonical :=
  h.modPort.foldState (fun _ _ h1 => h1.allocWait)

theorem State.Canonical.deferCand {s : State} {p : Nat} {c : Cand} (h : s.Canonical) : (s.deferCand p c).Canonical := by
  unfold State.deferCand
  split
  · exact h.modLane
  · exact h.modCopy
  · exact h

theorem State.Canonical.airFrame {s : State} {x : SendSt} {n : Nat} (h : s.Canonical) : (s.airFrame x n).2.2.2.Canonical :=
  .ite_snd_snd_snd h (.ite_snd_snd_snd h h.seal)

theorem State.Canonical.serve {s : State} {p coming : Nat} {c : Cand} (h : s.Canonical) : (s.serve p coming c).Canonical := by
  unfold State.serve
  dsimp only
  split
  · exact h.giveCtx
  · exact .ite h.report (.ite h.setEvt.report (.ite h.airFrame.endCopy h.airFrame.modSend.modCopy.giveCtx))

theorem State.Canonical.judgeCand {s : State} {p coming k : Nat} (h : s.Canonical) : (s.judgeCand p coming k).2.Canonical := by
  unfold State.judgeCand
  dsimp only
  refine .ite_snd h ?_
  split
  · exact h.headChecks
  · exact .ite_snd h.headChecks.setEvt.report (.ite_snd h.headChecks.deferCand h.headChecks)

theorem State.Canonical.judgeAll {s : State} {p coming : Nat} {l : List Nat} (h : s.Canonical) : (s.judgeAll p coming l).2.Canonical := by
  induction l generalizing s with
  | nil => exact h
  | cons k t ih => exact ih h.judgeCand

theorem State.Canonical.allocItems {s : State} {p coming : Nat} (h : s.Canonical) : (s.allocItems p coming).Canonical :=
  .ite h (h.judgeAll.foldState (fun _ _ h1 => .ite h1.serve h1))

theorem State.Canonical.closeJoins {s : State} {p coming : Nat} (h : s.Canonical) : (s.closeJoins p coming).Canonical := h.update

theorem State.Canonical.sweep {s : State} {p : Nat} (h : s.Canonical) : (s.sweep p).Canonical := h.foldState (fun _ _ h1 => h1.endCopy)

theorem State.Canonical.readItems {s : State} {p : Nat} (h : s.Canonical) : (s.readItems p).Canonical :=
  h.foldState (fun _ _ h1 => h1.readPacket)

theorem State.Canonical.releaseCtx {s : State} {p key : Nat} {x : TxCtx} (h : s.Canonical) : (s.releaseCtx p key x).Canonical := by
  unfold State.releaseCtx
  dsimp only
  split
  · exact h.setCtx.showCtx.txenDrop.count
  · exact h.setCtx.showCtx.txenDrop.modPort
  · exact h.setCtx.showCtx.txenDrop.modCopy
  · split
    · exact h.setCtx.showCtx.txenDrop
    · exact h.setCtx.showCtx.txenDrop.modCopy
  · exact h.setCtx.showCtx.txenDrop

theorem State.Canonical.dropCtxs {s : State} {p : Nat} (h : s.Canonical) : (s.dropCtxs p).Canonical :=
  h.foldState (fun _ _ h1 => h1.releaseCtx)

theorem State.Canonical.startCtxs {s : State} {p : Nat} (h : s.Canonical) : (s.startCtxs p).Canonical :=
  h.dropCtxs.foldState (fun _ _ h1 => (State.Canonical.ite h1.endFrame h1).setCtx.setCtx.showCtx)

theorem State.Canonical.beginCycle {s : State} {p : Nat} (h : s.Canonical) : (s.beginCycle p).Canonical :=
  .ite h.modPort.modPort.put.roll h.modPort.modPort

theorem State.Canonical.cycleSlot {s : State} {p : Nat} (h : s.Canonical) : (s.cycleSlot p).Canonical :=
  (State.Canonical.ite h h.countSymbols).beginCycle.put.modPort.beginSlot

theorem State.Canonical.onStart {s : State} {p : Nat} {x : TxCtx} (h : s.Canonical) : (s.onStart p x).Canonical := by
  unfold State.onStart
  split
  · split
    · exact h
    · exact h.dropJoin
  · exact h.modLane
  · exact h.modCopy
  · exact h

theorem State.Canonical.startFrame {s : State} {p c : Nat} {x : TxCtx} (h : s.Canonical) : (s.startFrame p c x).Canonical :=
  h.cutSpan.setCtx.onStart.txenStart.probeStart.putMapBit.blockBegin

theorem State.Canonical.cutFrames {s : State} {p : Nat} {r : Report75} (h : s.Canonical) : (s.cutFrames p r).Canonical :=
  h.foldState (fun _ _ h1 => h1.endFrame)

/-! #### Modes -/

theorem State.Canonical.setMode {s : State} {m cause : Nat} (h : s.Canonical) : (s.setMode m cause).Canonical :=
  .ite h.put.put.put h.put.put.put.event

theorem State.Canonical.applyRate {s : State} (h : s.Canonical) : (s.applyRate).Canonical := h.put.repark

theorem State.Canonical.laneStop {s : State} {n : Nat} (h : s.Canonical) : (s.laneStop n).Canonical := h.dropJobs.rewindRx.modLane.rest

theorem State.Canonical.portStop {s : State} {p : Nat} (h : s.Canonical) : (s.portStop p).Canonical :=
  .ite h
    ((h.foldState (fun _ _ h1 => h1.releaseCtx)).cutFrames.putFlag.unlock.count.modPort.put.put.putFlag.putFlag.setReg.setReg.setReg.setReg.foldState
       (fun _ _ h1 => h1.laneStop))

theorem State.Canonical.followPorts {s : State} (h : s.Canonical) : (s.followPorts).Canonical :=
  h.foldState (fun _ _ h1 => .ite h1.portStart h1.portStop)

theorem State.Canonical.endSends {s : State} {status : Nat} (h : s.Canonical) : (s.endSends status).Canonical :=
  h.foldState (fun _ _ h1 => (h1.foldState (fun _ _ h2 => h2.dropItem)).endSend)

theorem State.Canonical.endLine {s : State} {status : Nat} (h : s.Canonical) : (s.endLine status).Canonical :=
  h.endSends.foldState (fun _ _ h1 => h1.update.complete)

/-! #### Ring -/

theorem State.Canonical.admitDesc {s : State} {d : List Byte} (h : s.Canonical) : (s.admitDesc d).2.Canonical :=
  .ite_snd h.put.update.pushCpl (.ite_snd h.put.update.update h.put.update.update.complete)

theorem State.Canonical.admitDesc_some {s t u : State} {d : List Byte} (h : s.Canonical) (ht : s.admitDesc d = (some t, u)) : t.Canonical :=
    by
  unfold State.admitDesc at ht
  simp only at ht
  split at ht
  · simp at ht
  · split at ht
    · obtain ⟨ht, -⟩ := Prod.mk.inj ht
      exact Option.some.inj ht ▸ h.put.update.update
    · simp at ht

theorem State.Canonical.takeDesc {s : State} {p : List Byte → Bool} {f : List Byte → State → State} (h : s.Canonical)
    (hf : ∀ x t, t.Canonical → (f x t).Canonical) : (s.takeDesc p f).Canonical := by
  unfold State.takeDesc
  split
  · exact h
  next d _ =>
    have h1 := (h.readSpan (a := s.crAddr) (n := 64)).admitDesc (d := d)
    refine .ite h ?_
    split
    next heq => rw [heq] at h1; exact h1
    next heq => exact hf _ _ (h.readSpan.admitDesc_some heq).readRefs

/-! #### Control -/

theorem State.Canonical.writePlain {s : State} {a : Nat} {value : Word} (h : s.Canonical) : (s.writePlain a value).Canonical := by
  unfold State.writePlain
  split
  · exact h
  · exact h.setReg

theorem State.Canonical.command {s : State} {o : Nat} {on : Bool} (h : s.Canonical) : (s.command o on).Canonical := h.update

theorem State.Canonical.settlePair {s : State} {i : Nat} (h : s.Canonical) : (s.settlePair i).Canonical :=
  .ite (.ite h.command (.ite h.command h.free.command)) h

theorem State.Canonical.fbPass {s : State} (h : s.Canonical) : (s.fbPass).Canonical := h.update

theorem State.Canonical.putLevels {s : State} {after : Nat} (h : s.Canonical) : (s.putLevels after).Canonical := h.put.put.update.fbPass

theorem State.Canonical.finishActs {s : State} (h : s.Canonical) : (s.finishActs).Canonical :=
  h.update.foldState (fun _ _ h1 => h1.complete)

theorem State.Canonical.relevel {s : State} (h : s.Canonical) : (s.relevel).Canonical :=
  (h.foldState (fun _ _ h1 => h1.settlePair)).update.putLevels.finishActs

theorem State.Canonical.request {s : State} {set clr : Nat} (h : s.Canonical) : (s.request set clr).Canonical :=
  (h.foldState (fun _ _ h1 => .ite h1.command (.ite (.ite h1.command.command h1.command) h1))).relevel

theorem State.Canonical.writeCtl {s : State} {set clr : Nat} (h : s.Canonical) : (s.writeCtl set clr).Canonical :=
  .ite h (.ite h.setEvt h.request)

theorem State.Canonical.runControl {s : State} {d : List Byte} (h : s.Canonical) : (s.runControl d).Canonical :=
  .ite h.complete (.ite h.complete (.ite h.setEvt.complete h.update.request))

theorem State.Canonical.writeCtCfg {s : State} {who : Accessor} {a : Nat} {value : Word} (h : s.Canonical) :
    (s.writeCtCfg who a value).Canonical :=
  .ite h.refuse h.writePlain.relevel

theorem State.Canonical.trip {s : State} {g : Nat} (h : s.Canonical) : (s.trip g).Canonical := h.update.putBit.relevel.setEvt

theorem State.Canonical.guardSample {s : State} {g : Nat} {x : Int} {valid : Bool} (h : s.Canonical) : (s.guardSample g x valid).Canonical
    :=
  .ite h.update.trip h.update

theorem State.Canonical.cleared {s : State} {l : List Nat} (h : s.Canonical) : (s.cleared l).2.Canonical := by
  induction l with
  | nil => exact h
  | cons g t ih => exact .ite_snd ih.update ih

theorem State.Canonical.writeCtTrip {s : State} {value : Word} (h : s.Canonical) : (s.writeCtTrip value).Canonical :=
  (h.cleared.foldState (fun _ _ h1 => h1.putBit)).update.relevel

theorem State.Canonical.dinChange {s : State} {i : Nat} {level : Bool} (h : s.Canonical) : (s.dinChange i level).Canonical :=
  h.putBit.putBit.fbPass.setEvt

theorem State.Canonical.dinSample {s : State} {i : Nat} {raw : Bool} (h : s.Canonical) : (s.dinSample i raw).Canonical :=
  .ite h.update.dinChange h.update

theorem State.Canonical.writeDlim {s : State} {value : Word} (h : s.Canonical) : (s.writeDlim value).Canonical :=
  .ite h.writePlain h.writePlain.setEvt

/-! #### Stream -/

theorem State.Canonical.fir {s : State} {coefs : List (BitVec 24)} {xs : List Int} (h : s.Canonical) : (s.fir coefs xs).2.Canonical :=
  .ite_snd h.freeInt (.ite_snd h.nearest.freeInt h.nearest)

theorem State.Canonical.firPast {s : State} {n : Nat} {l : List (Int × Int)} (h : s.Canonical) : (s.firPast n l).2.Canonical := h.padOpen

theorem State.Canonical.filtOut {s : State} {f : FiltSt} {x : Sample} {y : Int × Int} (h : s.Canonical) : (s.filtOut f x y).2.Canonical :=
  .ite_snd (.ite_snd h.firPast.fir.fir h.firPast.fir) h

theorem State.Canonical.filtStep {s : State} {i : Nat} {x : Sample} (h : s.Canonical) : (s.filtStep i x).2.Canonical := by
  unfold State.filtStep
  split
  · exact h
  · exact .ite_snd h.update.filtOut h.update

theorem State.Canonical.sampleIn {s : State} {k p : Nat} {x : Int × Int} (h : s.Canonical) : (s.sampleIn k p x).Canonical :=
  .ite h.putFlag (.ite h.modCore.coreEvent h.modCore)

theorem State.Canonical.packSample {s : State} {q : Nat} {x : Sample} (h : s.Canonical) : (s.packSample q x).Canonical :=
  .ite h.update h.update.putWord.tellPool

theorem State.Canonical.emit {fuel : Nat} {s : State} {src : Nat} {x : Sample} (h : s.Canonical) : (State.emit fuel s src x).Canonical := by
  induction fuel generalizing s src x with
  | zero => exact h
  | succ n ih =>
    refine h.foldState fun dst t h1 => ?_
    split
    · have h2 := h1.filtStep (i := epIndex dst) (x := x)
      split
      next heq => rw [heq] at h2; exact h2
      next heq => rw [heq] at h2; exact ih h2
    · exact .ite h1.sampleIn h1
    · exact h1.packSample
    · exact h1.modFeeder
    · exact h1

theorem State.Canonical.drainPort {s : State} {k p : Nat} (h : s.Canonical) : (s.drainPort k p).Canonical := by
  unfold State.drainPort
  split
  · exact h
  · exact h.modCore.emit

/-! #### Metering -/

theorem State.Canonical.flushWord {s : State} {c : Nat} (h : s.Canonical) : (s.flushWord c).Canonical := .ite h h.modChan.putWord.tellPool

theorem State.Canonical.chanBit {s : State} {c : Nat} {b : Bool} (h : s.Canonical) : (s.chanBit c b).Canonical := by
  unfold State.chanBit
  refine State.Canonical.modChan ?_
  split
  · exact h
  · exact h.update

theorem State.Canonical.fastChan {s : State} {c : Nat} {valid : Bool} (h : s.Canonical) : (s.fastChan c valid).2.Canonical :=
  h.modChan.put.putFlag.guardSample.emit

theorem State.Canonical.fastChans {s : State} {valid : Bool} {l : List Nat} (h : s.Canonical) : (s.fastChans valid l).2.Canonical := by
  induction l generalizing s with
  | nil => exact h
  | cons c t ih => exact ih h.fastChan

theorem State.Canonical.fineChan {s : State} {c : Nat} {x : Int} {tag : Bool} (h : s.Canonical) : (s.fineChan c x tag).Canonical :=
  (State.Canonical.ite ((State.Canonical.ite h.modChan.putBit.setEvt h.modChan.putBit).flushWord.modChan)
     (.ite h.modChan.putBit.setEvt h.modChan.putBit)).emit

theorem State.Canonical.fineAt {s : State} {c n : Nat} (h : s.Canonical) : (s.fineAt c n).2.Canonical := by
  unfold State.fineAt
  split
  · exact h
  · exact h.update

theorem State.Canonical.feedSample {s : State} {f : Nat} {tag : Bool} {instant : Int} (h : s.Canonical) :
    (s.feedSample f tag instant).Canonical := by
  unfold State.feedSample
  extract_lets v i q iq v90 x
  have hi : i.2.Canonical := h.fineAt.fineAt
  have hq : iq.2.Canonical := .ite_snd hi.fineAt hi
  have h90 : v90.2.Canonical := by
    refine .ite_snd ?_ hq
    split
    · exact hq
    · exact hq.freeInt
  exact .ite h h90.modFeeder

theorem State.Canonical.settleDone {s : State} (h : s.Canonical) : (s.settleDone).Canonical := h.put.putFlag.setEvt

theorem State.Canonical.fineTick {s : State} {l : List (Nat × Int)} (h : s.Canonical) : (s.fineTick l).Canonical :=
  .ite ((h.update.foldState (fun _ _ h1 => h1.fineChan)).foldState (fun _ _ h1 => h1.feedSample))
    (.ite (((h.update.foldState (fun _ _ h1 => h1.fineChan)).foldState (fun _ _ h1 => h1.feedSample)).put)
       (((h.update.foldState (fun _ _ h1 => h1.fineChan)).foldState (fun _ _ h1 => h1.feedSample)).settleDone))

theorem State.Canonical.fastTick {s : State} (h : s.Canonical) : (s.fastTick).Canonical :=
  .ite h.update.fastChans.fineTick h.update.fastChans

theorem State.Canonical.edgeTo {s : State} {e : Nat} (h : s.Canonical) : (s.edgeTo e).Canonical :=
  .ite h.update (h.update.foldState (fun _ _ h1 => h1.modChan))

theorem State.Canonical.resetChain {s : State} (h : s.Canonical) : (s.resetChain).Canonical :=
  ((h.foldState (fun _ _ h1 => h1.flushWord.modChan)).foldState (fun _ _ h1 => h1.modFeeder)).update.put.put.putFlag

theorem State.Canonical.resetsTo {s : State} {e : Nat} (h : s.Canonical) : (s.resetsTo e).Canonical :=
  h.foldState (fun _ _ h1 => h1.edgeTo.resetChain)

theorem State.Canonical.modClock {s : State} {bits : BitVec 8} (h : s.Canonical) : (s.modClock bits).Canonical :=
  .ite ((h.edgeTo.update.foldState (fun _ _ h1 => h1.chanBit)).resetChain)
    (.ite ((h.edgeTo.update.foldState (fun _ _ h1 => h1.chanBit)).update) ((h.edgeTo.update.foldState (fun _ _ h1 => h1.chanBit)).fastTick))

theorem State.Canonical.modClocks {s : State} {first : Nat} {clocks : List (BitVec 8)} (h : s.Canonical) :
    (s.modClocks first clocks).Canonical :=
  (State.Canonical.ite h.resetsTo h.resetsTo.edgeTo).foldState (fun _ _ h1 => h1.modClock)

theorem State.Canonical.schedule {s : State} {t0 : Nat} (h : s.Canonical) : (s.schedule t0).Canonical := h.update

theorem State.Canonical.writeMtSync {s : State} {value : Word} (h : s.Canonical) : (s.writeMtSync value).Canonical := .ite h.schedule h

theorem State.Canonical.near {s : State} {num den : Nat} (h : s.Canonical) : (s.near num den).2.Canonical := .ite_snd h.free h.divFree

theorem State.Canonical.rootFree {s : State} {num den : Nat} (h : s.Canonical) : (s.rootFree num den).2.Canonical :=
  .ite_snd h.free (.ite_snd h h.update)

theorem State.Canonical.powerFactor {s : State} {p : Int} {vv ii : Nat} (h : s.Canonical) : (s.powerFactor p vv ii).2.Canonical :=
  .ite_snd h.free (.ite_snd h.rootFree h.rootFree.free)

theorem State.Canonical.harmonic {s : State} {xs : List Int} {sq n k : Nat} (h : s.Canonical) : (s.harmonic xs sq n k).2.Canonical :=
  .ite_snd h.free h.update

theorem State.Canonical.harmonicsFrom {s : State} {xs : List Int} {sq n fuel k : Nat} (h : s.Canonical) :
    (s.harmonicsFrom xs sq n fuel k).2.Canonical := by
  induction fuel generalizing s k with
  | zero => exact h
  | succ m ih => exact ih h.harmonic

theorem State.Canonical.harmonics {s : State} {xs : List Int} {sq n top : Nat} (h : s.Canonical) : (s.harmonics xs sq n top).2.Canonical :=
  h.harmonicsFrom

theorem State.Canonical.endWindow {s : State} {f : Nat} (h : s.Canonical) : (s.endWindow f).Canonical :=
  .ite h (.ite h.modFeeder h.harmonics.harmonics.modFeeder)

theorem State.Canonical.writeRecord {s : State} {f : Nat} {c : CycleLatch} {l : List FeedSample} {span : Option (Nat × Nat)}
    (h : s.Canonical) : (s.writeRecord f c l span).Canonical := by
  unfold State.writeRecord
  refine State.Canonical.endWindow ?_
  refine State.Canonical.modFeeder ?_
  refine State.Canonical.powerFactor ?_
  split
  · exact h.rootFree.rootFree
  · exact .ite_snd h.rootFree.rootFree h.rootFree.rootFree.near

theorem State.Canonical.endCycle {s : State} {f : Nat} {l : List FeedSample} {number : Nat} {forced : Bool} {span : Option (Nat × Nat)}
    (h : s.Canonical) : (s.endCycle f l number forced span).Canonical :=
  .ite
    ((State.Canonical.ite
        ((State.Canonical.ite ((State.Canonical.ite h.modFeeder.setEvt h.modFeeder).update) (.ite h.modFeeder.setEvt h.modFeeder)).writeRecord)
        (.ite ((State.Canonical.ite h.modFeeder.setEvt h.modFeeder).update) (.ite h.modFeeder.setEvt h.modFeeder))).coresEvent)
    (.ite
       ((State.Canonical.ite ((State.Canonical.ite h.modFeeder.setEvt h.modFeeder).update) (.ite h.modFeeder.setEvt h.modFeeder)).writeRecord)
       (.ite ((State.Canonical.ite h.modFeeder.setEvt h.modFeeder).update) (.ite h.modFeeder.setEvt h.modFeeder)))

theorem State.Canonical.endNumber {s : State} {own next : Option Nat} (h : s.Canonical) : (s.endNumber own next).2.Canonical := by
  unfold State.endNumber
  split
  · exact h
  · exact h
  · exact h.free

theorem State.Canonical.feederCrossing {s : State} {f t : Nat} {span : Option (Nat × Nat)} {good : Bool} (h : s.Canonical) :
    (s.feederCrossing f t span good).Canonical :=
  .ite h ((State.Canonical.ite h.endNumber.endCycle h).modFeeder)

theorem State.Canonical.voltCrossing {s : State} {v t : Nat} (h : s.Canonical) : (s.voltCrossing v t).Canonical :=
  .ite ((h.phref.modChan.foldState (fun _ _ h1 => h1.feederCrossing)).putBit) (h.phref.modChan.foldState (fun _ _ h1 => h1.feederCrossing))

theorem State.Canonical.forceBoundary {s : State} {f : Nat} (h : s.Canonical) : (s.forceBoundary f).Canonical :=
  (State.Canonical.ite h h.putBit.setEvt.phref).endNumber.endCycle.modFeeder

theorem State.Canonical.snapshot {s : State} {f : Nat} (h : s.Canonical) : (s.snapshot f).Canonical :=
  h.put.put.put.put.put.putFlag.putFlag.putFlag.put.foldState (fun _ _ h1 => h1.put.put)

/-! #### Balance -/

theorem State.Canonical.takeRecord {s : State} {d : List Byte} (h : s.Canonical) : (s.takeRecord d).Canonical :=
  .ite h.count (.ite h.count (.ite h.count (.ite h.count (.ite h.count (.ite h.update.putEntry h.update)))))

theorem State.Canonical.lossOf {s : State} {feed : Option Int} {sum : Int} (h : s.Canonical) : (s.lossOf feed sum).2.Canonical := by
  unfold State.lossOf
  split
  · exact h
  · exact .ite_snd h (.ite_snd h h.update)

theorem State.Canonical.groupRecord {s : State} {w : Nat} {rs : List Report} {g : Group} (h : s.Canonical) :
    (s.groupRecord w rs g).2.2.Canonical :=
  h.lossOf

theorem State.Canonical.groupRecords {s : State} {w : Nat} {rs : List Report} {l : List Group} (h : s.Canonical) :
    (s.groupRecords w rs l).2.2.Canonical := by
  induction l generalizing s with
  | nil => exact h
  | cons g t ih => exact ih h.groupRecord

theorem State.Canonical.finalise {s : State} {w : Nat} (h : s.Canonical) : (s.finalise w).Canonical := h.groupRecords.update

theorem State.Canonical.balanceStep {s : State} (h : s.Canonical) : (s.balanceStep).Canonical := .ite h.finalise h

/-! #### Counters -/

theorem State.Canonical.pmCycle {s : State} (h : s.Canonical) : (s.pmCycle).Canonical := .ite h h.tell

theorem State.Canonical.pmShadow {s : State} (h : s.Canonical) : (s.pmShadow).Canonical :=
  h.setReg.setReg.foldState (fun _ _ h1 => h1.setReg.setReg)

theorem State.Canonical.writeSnap {s : State} {value : Word} (h : s.Canonical) : (s.writeSnap value).Canonical := .ite h.pmShadow h

theorem State.Canonical.writeCtrLo {s : State} {k : Nat} {value : Word} (h : s.Canonical) : (s.writeCtrLo k value).Canonical := h.update

theorem State.Canonical.writeCtrHi {s : State} {k : Nat} {value : Word} (h : s.Canonical) : (s.writeCtrHi k value).Canonical := h.update

theorem State.Canonical.readCtrLo {s : State} {k : Nat} (h : s.Canonical) : (s.readCtrLo k).2.Canonical := h.setReg

/-! #### Warden -/

theorem State.Canonical.mbxSet {s : State} {o : MbxOut} (h : s.Canonical) : (s.mbxSet o).Canonical := h.update

theorem State.Canonical.mbxRun {s : State} {op : Nat} {checks : State → List (Bool × MbxOut)} {eff : State → MbxOut × State}
    (h : s.Canonical) (heff : ∀ t, t.Canonical → (eff t).2.Canonical) : (s.mbxRun op checks eff).Canonical :=
  .ite h (.ite h.mbxSet ((heff _ h).mbxSet))

theorem State.Canonical.putMbxData {s : State} {i : Nat} {l : List Byte} (h : s.Canonical) : (s.putMbxData i l).Canonical :=
  h.foldState (fun _ _ h1 => h1.setReg)

theorem State.Canonical.newScalar {s : State} (h : s.Canonical) : (s.newScalar).2.Canonical := h.update

theorem State.Canonical.eraseFrame {s : State} {i p key : Nat} {x : TxCtx} (h : s.Canonical) : (s.eraseFrame i p key x).Canonical := by
  unfold State.eraseFrame
  dsimp only
  split
  · exact .ite (.ite h.free.setCtx.showCtx.txenDrop.endCopy h.free) h
  · exact h

theorem State.Canonical.eraseKey {s : State} {i : Nat} (h : s.Canonical) : (s.eraseKey i).Canonical :=
  .ite h (h.eraseSlot.foldState (fun _ _ h1 => h1.foldState (fun _ _ h2 => h2.eraseFrame)))

theorem State.Canonical.eraseAll {s : State} (h : s.Canonical) : (s.eraseAll).Canonical := h.foldState (fun _ _ h1 => h1.eraseKey)

theorem State.Canonical.otpDone {s : State} {good : Bool} (h : s.Canonical) : (s.otpDone good).2.Canonical := .ite_snd h.setEvt h

theorem State.Canonical.modOtp {s : State} {f : OtpSt → OtpSt} (h : s.Canonical) : (s.modOtp f).Canonical := h.update

theorem State.Canonical.signDigest {s : State} {d : Nat} {digest : List Byte} (h : s.Canonical) : (s.signDigest d digest).2.Canonical := by
  unfold State.signDigest
  dsimp only
  split
  · exact h.newScalar
  · split
    · exact h.newScalar.newScalar
    · exact h.newScalar.newScalar.freeBytes

theorem State.Canonical.writeMbxCmd {s : State} {value : Word} (h : s.Canonical) : (s.writeMbxCmd value).Canonical :=
  .ite h (.ite h.refuse h.putFlag.putFlag.update)

theorem State.Canonical.writeMbxArg {s : State} {a : Nat} {value : Word} (h : s.Canonical) : (s.writeMbxArg a value).Canonical :=
  .ite h.refuse h.setReg

theorem State.Canonical.wipeInput {s : State} {op : Nat} (h : s.Canonical) : (s.wipeInput op).Canonical := .ite h.putMbxData h

theorem State.Canonical.mbxEnd {s : State} {op : Nat} {o : Byte × Byte} (h : s.Canonical) : (s.mbxEnd op o).Canonical :=
  h.wipeInput.setReg.update.setEvt

theorem State.Canonical.readSlot {s : State} (h : s.Canonical) : (s.readSlot).2.Canonical := h.setReg.setReg

theorem State.Canonical.writeWdPres {s : State} {value : Word} (h : s.Canonical) : (s.writeWdPres value).Canonical := .ite h.closeWindow h

theorem State.Canonical.writePolicy {s : State} {who : Accessor} {value : Word} (h : s.Canonical) : (s.writePolicy who value).Canonical :=
  .ite h.gate.refuse.merge h.gate.merge

theorem State.Canonical.openWindow {s : State} (h : s.Canonical) : (s.openWindow).Canonical := h.update.putFlag.setEvt

/-! #### Cipher -/

theorem State.Canonical.endCipher {s : State} {tag status written : Nat} {detail : Byte} {ctr ver : Nat} (h : s.Canonical) :
    (s.endCipher tag status written detail ctr ver).Canonical :=
  h.complete

theorem State.Canonical.runCipher {s : State} {op : Nat} {d : List Byte} (h : s.Canonical) : (s.runCipher op d).Canonical := by
  unfold State.runCipher
  dsimp only
  split
  · exact h.endCipher
  · refine .ite h.endCipher ?_
    split
    · exact h.endCipher
    · split
      · exact h.endCipher
      · exact .ite h.endCipher h.drefTake.drefTake.update

theorem State.Canonical.takeCipher {s : State} {p : Nat → Bool} (h : s.Canonical) : (s.takeCipher p).Canonical :=
  .ite h (h.takeDesc (fun _ _ h1 => h1.runCipher))

theorem State.Canonical.modJob {s : State} {tag : Nat} {f : CipherJob → CipherJob} (h : s.Canonical) : (s.modJob tag f).Canonical :=
  h.update

theorem State.Canonical.failJob {s : State} {j : CipherJob} {status : Nat} {detail : Byte} (h : s.Canonical) :
    (s.failJob j status detail).Canonical :=
  (State.Canonical.ite h.update.setSpan h.update).endCipher

theorem State.Canonical.passJob {s : State} {j : CipherJob} {out : List Byte} (h : s.Canonical) : (s.passJob j out).Canonical :=
  .ite h.update.putPacket.tellPool.endCipher (.ite h.update.setSpan.endCipher h.update.endCipher)

theorem State.Canonical.runEcdh {s : State} {j : CipherJob} (h : s.Canonical) : (s.runEcdh j).2.Canonical := by
  unfold State.runEcdh
  refine .ite_snd h ?_
  split
  · exact h
  · exact h.free.loadSlot

theorem State.Canonical.runKdf {s : State} {j : CipherJob} (h : s.Canonical) : (s.runKdf j).Canonical := h.free.loadSlot

theorem State.Canonical.engine {s : State} {j : CipherJob} (h : s.Canonical) : (s.engine j).2.2.Canonical :=
  .ite_snd_snd h.signDigest (.ite_snd_snd h.runEcdh (.ite_snd_snd h.runKdf (.ite_snd_snd h.freeBytes h)))

/-! #### Radio -/

theorem State.Canonical.rfShow {s : State} (h : s.Canonical) : (s.rfShow).Canonical := h.put.putFlag.put

theorem State.Canonical.rfCut {s : State} {t : Nat} (h : s.Canonical) : (s.rfCut t).Canonical := .ite h h.update

theorem State.Canonical.rfSend {s : State} {x : RfTx} {frame : List Byte} {coded : Bool} {ch t : Nat} (h : s.Canonical) :
    (s.rfSend x frame coded ch t).Canonical :=
  h.rfCut.update.rfShow

theorem State.Canonical.rfEndEvent {s : State} (h : s.Canonical) : (s.rfEndEvent).Canonical := h.update.rfShow

theorem State.Canonical.rfEndOf {s : State} {c : Nat} (h : s.Canonical) : (s.rfEndOf c).Canonical := .ite h.rfEndEvent h

theorem State.Canonical.rfDefer {s : State} (h : s.Canonical) : (s.rfDefer).Canonical := h.setEvt

theorem State.Canonical.putNbr {s : State} {i off : Nat} {l : List Byte} (h : s.Canonical) : (s.putNbr i off l).Canonical :=
  h.readSpan.setPart

theorem State.Canonical.setNbrState {s : State} {i v : Nat} (h : s.Canonical) : (s.setNbrState i v).Canonical := h.putNbr

theorem State.Canonical.rfEvent {s : State} {reason status source body : Nat} {quality eui : List Byte} (h : s.Canonical) :
    (s.rfEvent reason status source body quality eui).Canonical :=
  h.event

theorem State.Canonical.endItem {s : State} {x : RfItem} {status info : Nat} {quality : List Byte} (h : s.Canonical) :
    (s.endItem x status info quality).Canonical := by
  unfold State.endItem
  split
  · exact h
  · exact h.complete

theorem State.Canonical.rfPark {s : State} {c : Nat} (h : s.Canonical) : (s.rfPark c).Canonical := h.put.modRlink

theorem State.Canonical.endLink {s : State} {c reason : Nat} (h : s.Canonical) : (s.endLink c reason).Canonical :=
  .ite h.rfPark
    (.ite
       ((State.Canonical.ite
           ((State.Canonical.ite ((h.foldState (fun _ _ h1 => h1.endItem)).modRlink.setNbrState)
               ((h.foldState (fun _ _ h1 => h1.endItem)).modRlink)).update)
           (.ite ((h.foldState (fun _ _ h1 => h1.endItem)).modRlink.setNbrState) ((h.foldState (fun _ _ h1 => h1.endItem)).modRlink))).put.rfPark.rfShow)
       ((State.Canonical.ite
           ((State.Canonical.ite ((h.foldState (fun _ _ h1 => h1.endItem)).modRlink.setNbrState)
               ((h.foldState (fun _ _ h1 => h1.endItem)).modRlink)).update)
           (.ite ((h.foldState (fun _ _ h1 => h1.endItem)).modRlink.setNbrState) ((h.foldState (fun _ _ h1 => h1.endItem)).modRlink))).put.rfPark.rfShow.setEvt.rfEvent))

theorem State.Canonical.endLinks {s : State} {reason : Nat} (h : s.Canonical) : (s.endLinks reason).Canonical :=
  h.foldState (fun _ _ h1 => h1.endLink)

theorem State.Canonical.endRadio {s : State} {status info : Nat} (h : s.Canonical) : (s.endRadio status info).Canonical := by
  unfold State.endRadio
  refine State.Canonical.update ?_
  refine State.Canonical.foldState (h.foldState fun _ _ h1 => (h1.foldState fun _ _ h2 => h2.endItem).modRlink) ?_
  exact fun _ _ h1 => h1.mapGetD fun _ => h1.complete

theorem State.Canonical.rfStop {s : State} (h : s.Canonical) : (s.rfStop).Canonical := h.rfCut.update.rfShow

theorem State.Canonical.followRadio {s : State} {was : Bool} (h : s.Canonical) : (s.followRadio was).Canonical :=
  .ite h (.ite h.endLinks.rfStop h.endLinks.rfShow)

theorem State.Canonical.modItem {s : State} {c : Nat} {f : RfItem → RfItem} (h : s.Canonical) : (s.modItem c f).Canonical := h.modRlink

theorem State.Canonical.dropOn {s : State} {c : Nat} (h : s.Canonical) : (s.dropOn c).Canonical := h.modRlink

theorem State.Canonical.failItem {s : State} {c : Nat} {busy : Bool} (h : s.Canonical) : (s.failItem c busy).Canonical := by
  unfold State.failItem
  split
  · exact h
  · exact .ite h.dropOn.endItem h.free.modItem

theorem State.Canonical.ackItem {s : State} {c : Nat} {quality : List Byte} (h : s.Canonical) : (s.ackItem c quality).Canonical := by
  unfold State.ackItem
  split
  · exact h
  · exact .ite h.dropOn.endItem.modRlink h.dropOn.endItem

theorem State.Canonical.rfSeal {s : State} {slv : Nat} {eui : List Byte} {gen : Nat} {head body : List Byte} (h : s.Canonical) :
    (s.rfSeal slv eui gen head body).2.2.Canonical :=
  .ite_snd_snd h (.ite_snd_snd h.takeFrameKey h.takeFrameKey)

theorem State.Canonical.remember {s : State} {orig : List Byte} {fseq : Nat} (h : s.Canonical) : (s.remember orig fseq).Canonical :=
  h.update

theorem State.Canonical.originate {s : State} {tag : Option Nat} {kind ttl : Nat} {coded : Bool} {content : List Byte} (h : s.Canonical) :
    (s.originate tag kind ttl coded content).Canonical :=
  h.remember.update

theorem State.Canonical.endFlood {s : State} {tag : Option Nat} {gasp : Bool} {status : Nat} (h : s.Canonical) :
    (s.endFlood tag gasp status).Canonical := by
  unfold State.endFlood
  split
  · exact h
  · exact State.Canonical.mapGetD h.update fun _ => h.update.complete

theorem State.Canonical.startFlood {s : State} {f : Option Nat × Bool × Bool × List Byte} {t : Nat} (h : s.Canonical) :
    (s.startFlood f t).Canonical :=
  .ite h.rfDefer (.ite h.free.rfSeal.endFlood h.free.rfSeal.rfSend)

theorem State.Canonical.kickFloods {s : State} (h : s.Canonical) : (s.kickFloods).Canonical := by
  unfold State.kickFloods
  dsimp only
  refine .ite h ?_
  split
  · exact h
  · exact h.startFlood

theorem State.Canonical.lastGasp {s : State} (h : s.Canonical) : (s.lastGasp).Canonical := .ite h h.originate

theorem State.Canonical.cutRadio {s : State} (h : s.Canonical) : (s.cutRadio).Canonical := by
  unfold State.cutRadio
  split
  · exact h.rfCut.update.rfShow.failItem
  · exact h.rfCut.update.rfShow.endLink
  · exact h.rfCut.update.rfShow

theorem State.Canonical.raiseEpoch {s : State} (h : s.Canonical) : (s.raiseEpoch).Canonical :=
  .ite
    ((State.Canonical.ite ((h.put.foldState (fun _ _ h1 => h1.free.put)).setEvt.update)
        ((h.put.foldState (fun _ _ h1 => h1.free.put)).setEvt)).originate.kickFloods)
    (.ite ((h.put.foldState (fun _ _ h1 => h1.free.put)).setEvt.update) ((h.put.foldState (fun _ _ h1 => h1.free.put)).setEvt))

/-! #### RadioCmd -/

theorem State.Canonical.writeRfCfg {s : State} {value : Word} (h : s.Canonical) : (s.writeRfCfg value).Canonical :=
  (State.Canonical.ite h.merge.putFlag (.ite h.merge.putFlag.setEvt h.merge.putFlag)).followRadio

theorem State.Canonical.writeRfLcfg {s : State} {c : Nat} {value : Word} (h : s.Canonical) : (s.writeRfLcfg c value).Canonical :=
  .ite (.ite h h.merge)
    (.ite ((State.Canonical.ite ((State.Canonical.ite h h.merge).endLink) (.ite h h.merge)).putFlag.put.rfShow)
       (.ite ((State.Canonical.ite h h.merge).setEvt) ((State.Canonical.ite h h.merge).putFlag.rfPark.rfShow)))

theorem State.Canonical.writeRfLtime {s : State} {c : Nat} {value : Word} (h : s.Canonical) : (s.writeRfLtime c value).Canonical :=
  .ite h.setReg h

theorem State.Canonical.mapItem {s : State} {c map : Nat} (h : s.Canonical) : (s.mapItem c map).Canonical := h.modRlink

theorem State.Canonical.writeRfLmap {s : State} {c : Nat} {high : Bool} {value : Word} (h : s.Canonical) :
    (s.writeRfLmap c high value).Canonical :=
  .ite h (.ite h.setEvt (.ite h.setReg.mapItem h.setReg))

theorem State.Canonical.nextBeacon {s : State} (h : s.Canonical) : (s.nextBeacon).Canonical := h.update

theorem State.Canonical.sealItem {s : State} {c : Nat} {x : RfItem} (h : s.Canonical) : (s.sealItem c x).2.2.Canonical :=
  .ite_snd_snd h (.ite_snd_snd h.rfSeal h.rfSeal.putNbr)

theorem State.Canonical.sendItem {s : State} {c : Nat} {x : RfItem} {ch t : Nat} {other : State → State} (h : s.Canonical)
    (hother : ∀ t, t.Canonical → (other t).Canonical) : (s.sendItem c x ch t other).Canonical :=
  .ite h.rfDefer (.ite (hother _ h.sealItem.modRlink.endItem) h.sealItem.modRlink.rfSend)

theorem State.Canonical.sendShort {s : State} {kind : RfTx} {frame : List Byte} {ch t : Nat} (h : s.Canonical) :
    (s.sendShort kind frame ch t).Canonical :=
  .ite h.free.rfDefer h.free.rfSend

theorem State.Canonical.sendPoll {s : State} {c ch t : Nat} (h : s.Canonical) : (s.sendPoll c ch t).Canonical := h.free.sendShort

theorem State.Canonical.leaderEvent {s : State} {c ch t : Nat} (h : s.Canonical) : (s.leaderEvent c ch t).Canonical := by
  unfold State.leaderEvent
  split
  · exact h.sendPoll
  · exact h.sendItem (fun _ h1 => h1.sendPoll)

theorem State.Canonical.sendAck {s : State} {i : Nat} {kind : RfTx} {m : RfMac} {busy : Bool} {ch t : Nat} (h : s.Canonical) :
    (s.sendAck i kind m busy ch t).Canonical :=
  .ite h.rfSeal h.rfSeal.sendShort

theorem State.Canonical.rfEventChan {s : State} {c e : Nat} (h : s.Canonical) : (s.rfEventChan c e).2.Canonical := .ite_snd h.free h

theorem State.Canonical.rfMiss {s : State} {c : Nat} (h : s.Canonical) : (s.rfMiss c).Canonical := .ite h.put.endLink h.put

theorem State.Canonical.rfStep {s : State} {c : Nat} (h : s.Canonical) : (s.rfStep c).Canonical :=
  .ite ((State.Canonical.ite_snd h.rfEndOf.put.modRlink h.rfEndOf.put.modRlink.rfEventChan).put.setReg.setReg)
    ((State.Canonical.ite_snd h.rfEndOf.put.modRlink h.rfEndOf.put.modRlink.rfEventChan).put)

theorem State.Canonical.paOff {s : State} (h : s.Canonical) : (s.paOff).Canonical := .ite (.ite h.free h.free.update.rfShow) h

theorem State.Canonical.rfBegin {s : State} {y : RfSync} (h : s.Canonical) : (s.rfBegin y).Canonical := h.divFree.update.rfShow

theorem State.Canonical.rfHeader {s : State} {amp : Nat} {ys : List Int} (h : s.Canonical) : (s.rfHeader amp ys).2.Canonical :=
  (h.demod (four := false) (amp := amp) (n := 60) (ys := ys)).decodeHeader (soft := (s.demod false amp 60 ys).1)

theorem State.Canonical.hardBits {s : State} {l : List Int} (h : s.Canonical) : (s.hardBits l).2.Canonical := by
  induction l generalizing s with
  | nil => exact h
  | cons x t ih => exact ih (.ite_snd h.free h)

theorem State.Canonical.rfPayload {s : State} {amp len : Nat} {coded : Bool} {ys : List Int} (h : s.Canonical) :
    (s.rfPayload amp len coded ys).2.Canonical :=
  .ite_snd h.demod.decodePayload h.demod.hardBits

theorem State.Canonical.rfDecode {s : State} {x : RfRx} {r : RfSeen} (h : s.Canonical) : (s.rfDecode x r).2.2.Canonical := by
  unfold State.rfDecode
  have h1 := h.rfHeader (amp := x.amp) (ys := r.hdr)
  split
  next heq => rw [heq] at h1; exact h1
  next heq => rw [heq] at h1; exact h1.rfPayload

theorem State.Canonical.rfEndRx {s : State} {x : RfRx} {passed : Bool} (h : s.Canonical) : (s.rfEndRx x passed).Canonical := by
  unfold State.rfEndRx
  split
  · exact h.update.rfShow
  · exact .ite h.update.update.put.modRlink.rfShow (.ite h.update.rfEndEvent.rfMiss h.update.rfShow)

theorem State.Canonical.rfLast {s : State} {x : RfRx} {r : RfSeen} (h : s.Canonical) : (s.rfLast x r).Canonical := by
  unfold State.rfLast
  split
  · exact h.setReg
  · exact h.setReg.modRlink

theorem State.Canonical.rfSeen {s : State} {r : RfSeen} {types : List Nat} (h : s.Canonical) : (s.rfSeen r types).2.Canonical := by
  unfold State.rfSeen
  split
  · exact h
  next x _ =>
    have h1 := h.rfDecode (x := x) (r := r)
    refine .ite_snd (.ite h.update h) ?_
    split
    next heq => rw [heq] at h1; exact h1.rfEndRx
    next heq => rw [heq] at h1; exact .ite_snd h h1.rfLast.rfEndRx

theorem State.Canonical.rfMicFail {s : State} (h : s.Canonical) : (s.rfMicFail).Canonical := h.count

theorem State.Canonical.rfNote {s : State} {i : Nat} {r : RfGot} (h : s.Canonical) : (s.rfNote i r).Canonical := h.putNbr

theorem State.Canonical.rfCheck {s : State} {m : RfMac} {slv : Nat} (h : s.Canonical) : (s.rfCheck m slv).2.Canonical := by
  unfold State.rfCheck
  split
  · exact h
  · split
    · exact h.rfMicFail
    · exact .ite_snd h.count h

theorem State.Canonical.rfSetFc {s : State} {i : Nat} {m : RfMac} (h : s.Canonical) : (s.rfSetFc i m).Canonical := h.putNbr

theorem State.Canonical.rfAnswer {s : State} {c : Option Nat} {i : Nat} {r : RfGot} {m : RfMac} {busy bye : Bool} (h : s.Canonical) :
    (s.rfAnswer c i r m busy bye).Canonical := by
  unfold State.rfAnswer
  split
  · exact .ite h.sendAck h
  · refine .ite ?_ ?_
    · refine State.Canonical.rfEndOf ?_
      refine .ite (.ite h.sendAck h) ?_
      refine .ite h.sendAck ?_
      split
      · exact h.sendAck
      · exact h.sendItem (fun _ h1 => h1.sendAck)
    · refine .ite (.ite h.sendAck h) ?_
      refine .ite h.sendAck ?_
      split
      · exact h.sendAck
      · exact h.sendItem (fun _ h1 => h1.sendAck)

theorem State.Canonical.rfAccept {s : State} {i q d : Nat} {m : RfMac} (h : s.Canonical) : (s.rfAccept i q d m).Canonical :=
  h.putNbr.putNbr.rfSetFc

theorem State.Canonical.rfAckd {s : State} {r : RfGot} {m : RfMac} {c : Option Nat} (h : s.Canonical) : (s.rfAckd r m c).Canonical := by
  unfold State.rfAckd
  split
  · exact .ite h.ackItem h
  · exact h

theorem State.Canonical.rfSecured {s : State} {r : RfGot} {m : RfMac} {i : Nat} {c : Option Nat} {f : List Byte → Nat → Nat → State → State}
    (h : s.Canonical) (hf : ∀ x y z t, t.Canonical → (f x y z t).Canonical) : (s.rfSecured r m i c f).Canonical := by
  unfold State.rfSecured
  split
  · exact h.rfMicFail
  · split
    · exact h.rfAckd.count.rfAnswer
    · exact h.count
    · exact hf _ _ _ _ h.rfAckd

theorem State.Canonical.rxRfData {s : State} {r : RfGot} {m : RfMac} {i : Nat} {c : Option Nat} (h : s.Canonical) :
    (s.rxRfData r m i c).Canonical :=
  .ite (.ite h.rfMicFail h.rfAckd.rfNote.rfAnswer)
    (h.rfSecured (fun _ _ _ _ h1 => .ite h1.putPacket.tellPool.rfAnswer h1.putPacket.tellPool.rfAccept.rfNote.rfEvent.rfAnswer))

theorem State.Canonical.rxLinkCmd {s : State} {r : RfSeen} {cmd n : Nat} {f : RfGot → Nat → Nat → List Byte → RfMac → State → State}
    (h : s.Canonical) (hf : ∀ x y z w v t, t.Canonical → (f x y z w v t).Canonical) : (s.rxLinkCmd r cmd n f).Canonical := by
  unfold State.rxLinkCmd
  have h1 := h.rfSeen (r := r) (types := [7])
  split
  next heq => rw [heq] at h1; exact h1
  next heq =>
    rw [heq] at h1
    split
    · exact h1
    · refine h1.rfSecured fun _ _ _ t h2 => .ite h2 ?_
      split
      · exact hf _ _ _ _ _ _ h2.rfAccept.rfNote
      · exact h2.rfAccept.rfNote.rfAnswer

theorem State.Canonical.rxRfAck {s : State} {r : RfSeen} {type : Nat} {f : RfGot → Nat → List Byte → State → State} (h : s.Canonical)
    (hf : ∀ x y z t, t.Canonical → (f x y z t).Canonical) : (s.rxRfAck r type f).Canonical := by
  unfold State.rxRfAck
  have h1 := h.rfSeen (r := r) (types := [type])
  split
  next heq => rw [heq] at h1; exact h1
  next g m s1 heq =>
    rw [heq] at h1
    have h2 : (if m.sec then s1.rfCheck m 2 else ((s1.findNbr m.src).map (fun i => (i, m.rest)), s1)).2.Canonical :=
      .ite_snd h1.rfCheck h1
    dsimp only
    split
    next heq2 => rw [heq2] at h2; exact h2
    next heq2 =>
      rw [heq2] at h2
      have h3 := fun i => (State.Canonical.ite (c := m.sec = true) (h2.rfSetFc (i := i) (m := m)) h2).rfNote (i := i) (r := g)
      split
      · exact h3 _
      · exact (State.Canonical.ite (hf _ _ _ _ (h3 _)) (h3 _)).rfEndOf

theorem State.Canonical.rfOpen {s : State} {c i map : Nat} (h : s.Canonical) : (s.rfOpen c i map).Canonical :=
  h.modRlink.put.put.put.setNbrState.setEvt.rfEvent.rfShow

theorem State.Canonical.sendConnAck {s : State} {c : Option Nat} {i seq gen ch : Nat} {fields : List Byte} (h : s.Canonical) :
    (s.sendConnAck c i seq gen ch fields).Canonical :=
  .ite h.rfSeal h.rfSeal.sendShort

theorem State.Canonical.connFailed {s : State} {c : Nat} (h : s.Canonical) : (s.connFailed c).Canonical :=
  .ite h.modRlink h.modRlink.put.rfShow

theorem State.Canonical.connAccept {s : State} {c i : Nat} {b : List Byte} (h : s.Canonical) : (s.connAccept c i b).Canonical :=
  h.put.put.put.put.setReg.setReg.putNbr.putNbr.modRlink.rfOpen

theorem State.Canonical.sendConnReq {s : State} {c i ch : Nat} (h : s.Canonical) : (s.sendConnReq c i ch).Canonical :=
  .ite h.rfSeal (.ite h.rfSeal.putNbr.sendShort h.rfSeal.putNbr.sendShort.put.rfShow)

theorem State.Canonical.beaconOn {s : State} {r : RfGot} {i : Nat} {b : List Byte} {c : Nat} (h : s.Canonical) :
    (s.beaconOn r i b c).Canonical :=
  .ite h
    (.ite (.ite h.modRlink.sendConnReq h.modRlink)
       (.ite (.ite h.modRlink.put.put.rfEndOf h.modRlink) (.ite h.modRlink.put.put.put.modRlink.put.setEvt.rfEvent.rfShow h.modRlink)))

theorem State.Canonical.floodCopy {s : State} {orig : List Byte} {fseq : Nat} (h : s.Canonical) : (s.floodCopy orig fseq).Canonical :=
  h.update

theorem State.Canonical.floodNew {s : State} {r : RfGot} {b : List Byte} (h : s.Canonical) : (s.floodNew r b).Canonical :=
  .ite ((State.Canonical.ite h.remember.putPacket.tellPool h.remember.putPacket.tellPool.setEvt.rfEvent).free.update)
    (.ite h.remember.putPacket.tellPool h.remember.putPacket.tellPool.setEvt.rfEvent)

theorem State.Canonical.floodNote {s : State} {src : List Byte} {r : RfGot} (h : s.Canonical) : (s.floodNote src r).Canonical := by
  unfold State.floodNote
  cases s.findNbr src
  · exact h
  · exact h.putNbr

theorem State.Canonical.rxFlood {s : State} {r : RfGot} {src b : List Byte} (h : s.Canonical) : (s.rxFlood r src b).Canonical :=
  .ite h (.ite h.count.floodCopy h.floodNote.floodNew)

theorem State.Canonical.radioLink {s : State} {d : List Byte} (h : s.Canonical) : (s.radioLink d).Canonical := by
  unfold State.radioLink
  split
  · exact h.complete
  · exact .ite h.complete (.ite h.complete h.drefTake.modRlink)

theorem State.Canonical.radioFlood {s : State} {d : List Byte} (h : s.Canonical) : (s.radioFlood d).Canonical := by
  unfold State.radioFlood
  split
  · exact h.complete
  · exact .ite h.complete (.ite h.complete h.drefTake.originate.kickFloods)

theorem State.Canonical.writeEpoch {s : State} {value : Word} (h : s.Canonical) : (s.writeEpoch value).Canonical := .ite h.raiseEpoch h

/-! #### UartCmd -/

theorem State.Canonical.uaKeep {s : State} {u : Nat} (h : s.Canonical) : (s.uaKeep u).Canonical := h.modUart

theorem State.Canonical.uaBreak {s : State} {u : Uart} (h : s.Canonical) : (s.uaBreak u).Canonical := h.modUart.putFlag.uaStore.setEvt

theorem State.Canonical.uaSwitch {s : State} {u data : Nat} (h : s.Canonical) : (s.uaSwitch u data).Canonical := by
  unfold State.uaSwitch
  split
  · exact h
  · exact .ite h h.modUart.putFlag.put.put.setEvt

theorem State.Canonical.uaFlowRx {s : State} {u data : Nat} (h : s.Canonical) : (s.uaFlowRx u data).2.Canonical :=
  .ite_snd h.putFlag.uaKick h

theorem State.Canonical.uaMute {s : State} {u data : Nat} {bad : Bool} (h : s.Canonical) : (s.uaMute u data bad).2.Canonical :=
  .ite_snd h (.ite_snd h h.putFlag)

theorem State.Canonical.uaChar {s : State} {u : Uart} {x : UaSet} {l : List UaBit} {level : Bool} (h : s.Canonical) :
    (s.uaChar u x l level).Canonical :=
  (State.Canonical.ite h.modUart.putFlag.uaFlowRx.uaMute.uaStore h.modUart.putFlag.uaFlowRx.uaMute).uaSwitch

theorem State.Canonical.abDiv {s : State} {t n : Nat} (h : s.Canonical) : (s.abDiv t n).2.Canonical := .ite_snd h (.ite_snd h h.update)

theorem State.Canonical.writeUaCfg {s : State} {u : Nat} {value : Word} (h : s.Canonical) : (s.writeUaCfg u value).Canonical :=
  (State.Canonical.ite h.uaKeep.merge.putFlag (.ite h.uaKeep.merge.putFlag h.uaKeep.merge)).uaFlow.uaKick

theorem State.Canonical.writeUaBaud {s : State} {u : Nat} {value : Word} (h : s.Canonical) : (s.writeUaBaud u value).Canonical :=
  .ite h.modUart.putFlag h.uaKeep.modUart.setReg

theorem State.Canonical.uartSend {s : State} {d : List Byte} (h : s.Canonical) : (s.uartSend d).Canonical := by
  unfold State.uartSend
  split
  · exact h.complete
  · exact .ite h.complete h.drefTake.modUart.uaKick

/-! #### HostCmd -/

theorem State.Canonical.ringErr {s : State} (h : s.Canonical) : (s.ringErr).Canonical := h.putFlag

theorem State.Canonical.ringsTurned {s : State} {on : Bool} (h : s.Canonical) : (s.ringsTurned on).Canonical := h.update

theorem State.Canonical.writeHpCfg {s : State} {value : Word} (h : s.Canonical) : (s.writeHpCfg value).Canonical :=
  .ite h.ringErr (.ite h.writePlain h.writePlain.ringsTurned)

theorem State.Canonical.writeBase {s : State} {a : Nat} {value : Word} (h : s.Canonical) : (s.writeBase a value).Canonical :=
  .ite h.ringErr h.writePlain

theorem State.Canonical.writeDb {s : State} {value : Word} (h : s.Canonical) : (s.writeDb value).Canonical := .ite h.ringErr h.put.update

theorem State.Canonical.writeCplHead {s : State} {value : Word} (h : s.Canonical) : (s.writeCplHead value).Canonical :=
  .ite h.ringErr (.ite h h.put.agedNext.update)

theorem State.Canonical.writeEvHead {s : State} {value : Word} (h : s.Canonical) : (s.writeEvHead value).Canonical :=
  .ite h.ringErr (.ite h h.put.agedNext.update.overflowRecord)

theorem State.Canonical.writeCoal {s : State} {value : Word} (h : s.Canonical) : (s.writeCoal value).Canonical :=
  h.writePlain.agedAfter.agedAfter.update

theorem State.Canonical.handOver {s : State} {tag : Nat} {desc body : List Byte} (h : s.Canonical) : (s.handOver tag desc body).Canonical :=
  h.update

theorem State.Canonical.takeSend {s : State} {d : List Byte} (h : s.Canonical) : (s.takeSend d).Canonical := by
  unfold State.takeSend
  refine .ite h.complete ?_
  refine .ite h.complete ?_
  refine .ite h.complete ?_
  refine .ite h.complete ?_
  split
  · exact h.complete
  · refine .ite h.complete ?_
    split
    · exact h.drefTake.runSend
    · exact h.drefTake.handOver

theorem State.Canonical.takeBcast {s : State} {d : List Byte} (h : s.Canonical) : (s.takeBcast d).Canonical := by
  unfold State.takeBcast
  refine .ite h.complete ?_
  split
  · exact h.complete
  · exact .ite h.complete ((State.Canonical.ite h.drefTake.update h.drefTake.update.handOver).runBcast)

theorem State.Canonical.takeReadMt {s : State} {d : List Byte} (h : s.Canonical) : (s.takeReadMt d).Canonical :=
  .ite h.complete (.ite h.complete h.putPacket.tellPool.complete)

theorem State.Canonical.abortSend {s : State} {tag : Nat} (h : s.Canonical) : (s.abortSend tag).Canonical :=
  (h.foldState (fun _ _ h1 => h1.foldState (fun _ _ h2 => h2.dropItem))).update.update

theorem State.Canonical.abortInfo {s : State} {tag : Nat} (h : s.Canonical) : (s.abortInfo tag).2.Canonical := by
  unfold State.abortInfo
  split
  · exact h
  · exact h.free

theorem State.Canonical.abortRadio {s : State} {tag : Nat} (h : s.Canonical) : (s.abortRadio tag).Canonical := by
  unfold State.abortRadio
  extract_lets s1 onAir s2
  have h1 : s1.Canonical := h.foldState fun _ _ h1 => h1.modRlink.foldState fun _ _ h2 => h2.endItem
  exact State.Canonical.complete h1.update

theorem State.Canonical.abortUart {s : State} {tag : Nat} (h : s.Canonical) : (s.abortUart tag).Canonical :=
  h.foldState (fun _ _ h1 => h1.modUart)

theorem State.Canonical.abortTag {s : State} {t : Trans} (h : s.Canonical) : (s.abortTag t).Canonical := by
  unfold State.abortTag
  split
  · exact h.abortInfo.abortSend.complete
  · exact h.abortInfo.abortSend.complete
  · split
    · exact h.complete
    · exact h.failJob
  · exact h.abortRadio
  · exact h.abortUart.complete
  · exact h.complete

theorem State.Canonical.takeAbort {s : State} {d : List Byte} (h : s.Canonical) : (s.takeAbort d).Canonical := by
  unfold State.takeAbort
  refine .ite h.complete ?_
  split
  · exact h.complete
  · exact .ite h.complete (.ite h.complete h.abortTag.complete)

/-! #### Alloy -/

theorem State.Canonical.followRole {s : State} (h : s.Canonical) : (s.followRole).Canonical := .ite h h.put

theorem State.Canonical.post {s : State} {m : AlloyMsg} (h : s.Canonical) : (s.post m).Canonical := h.update

theorem State.Canonical.takeTiming {s : State} {b : Beat} (h : s.Canonical) : (s.takeTiming b).Canonical :=
  .ite h (.ite h.setReg.put.setEvt h.setReg.put)

theorem State.Canonical.copyRegistry {s : State} (h : s.Canonical) : (s.copyRegistry).Canonical := .ite h.update.post h

theorem State.Canonical.becomeUp {s : State} {b : Beat} (h : s.Canonical) : (s.becomeUp b).Canonical :=
  h.put.setEvt.takeTiming.update.copyRegistry

theorem State.Canonical.conflict {s : State} (h : s.Canonical) : (s.conflict).Canonical := h.put.setEvt

theorem State.Canonical.beat {s : State} {b : Beat} (h : s.Canonical) : (s.beat b).Canonical :=
  .ite h.update.put.conflict (.ite (.ite h.update.put.put h.update.put) (.ite h.update.put.becomeUp h.update.put.put))

theorem State.Canonical.loseLink {s : State} {cause : Nat} (h : s.Canonical) : (s.loseLink cause).Canonical :=
  .ite h (.ite h.put.put.setEvt.update.setMode.applyRate.followPorts h.put.put.setEvt.update)

theorem State.Canonical.takeHandoff {s : State} {number tag : Nat} {d body : List Byte} (h : s.Canonical) :
    (s.takeHandoff number tag d body).Canonical := by
  unfold State.takeHandoff
  dsimp only
  refine .ite ?_ h.runBcast
  split
  · exact h.tell
  · exact .ite h.tell (.ite h.tell h.runSend)

theorem State.Canonical.pin {s : State} {cycle : Word} (h : s.Canonical) : (s.pin cycle).Canonical := h.update.setReg.put

theorem State.Canonical.sendMark {s : State} (h : s.Canonical) : (s.sendMark).Canonical := h.update.post

theorem State.Canonical.farCopies {s : State} {x : SendSt} {status info : Nat} (h : s.Canonical) : (s.farCopies x status info).Canonical :=
  h.foldState (fun _ _ h1 => h1.endCopy)

theorem State.Canonical.endHandoff {s : State} {tag status info : Nat} {result : List Byte} (h : s.Canonical) :
    (s.endHandoff tag status info result).Canonical := by
  unfold State.endHandoff
  dsimp only
  split
  · exact h.update.farCopies
  · exact h.update.complete

theorem State.Canonical.farCompletion {s : State} {r : List Byte} (h : s.Canonical) : (s.farCompletion r).Canonical := .ite h.endHandoff h

theorem State.Canonical.farFrame {s : State} {r : List Byte} (h : s.Canonical) : (s.farFrame r).Canonical :=
  .ite h.putPacket.tellPool.ringEvent h.putPacket.tellPool

theorem State.Canonical.farEvent {s : State} {r : List Byte} {judge : Bool} (h : s.Canonical) : (s.farEvent r judge).Canonical :=
  .ite h.ringEvent (.ite (.ite h.free.farFrame h.free.count) h.farFrame)

theorem State.Canonical.farRecord {s : State} {r : List Byte} {judge : Bool} (h : s.Canonical) : (s.farRecord r judge).Canonical :=
  .ite h.farCompletion h.farEvent

theorem State.Canonical.reconcile {s : State} (h : s.Canonical) : (s.reconcile).Canonical := h.foldState (fun _ _ h1 => h1.readSpan.setPart)

theorem State.Canonical.healLead {s : State} {live : List Nat} (h : s.Canonical) : (s.healLead live).Canonical :=
  (h.foldState (fun _ _ h1 => h1.endHandoff)).reconcile.update.setEvt.sendMark

theorem State.Canonical.healFollower {s : State} {live : List Nat} (h : s.Canonical) : (s.healFollower live).Canonical :=
  (h.foldState (fun _ _ h1 => h1.foldState (fun _ _ h2 => h2.dropItem))).update.reconcile.update.setMode.applyRate.followPorts.setEvt

theorem State.Canonical.bufPop {s : State} (h : s.Canonical) : (s.bufPop).Canonical := by
  unfold State.bufPop
  split
  · exact h
  · exact h.dropRest.tellPool

theorem State.Canonical.replayOwn {s : State} {fuel : Nat} (h : s.Canonical) : (s.replayOwn fuel).Canonical := by
  induction fuel generalizing s with
  | zero => exact h
  | succ n ih => exact .ite h (ih h.bufPop.farRecord)

theorem State.Canonical.promoted {s : State} (h : s.Canonical) : (s.promoted).Canonical :=
  h.putFlag.put.update.setMode.applyRate.followPorts.writeHpCfg.replayOwn

theorem State.Canonical.writeAlCtl {s : State} {who : Accessor} {value : Word} (h : s.Canonical) : (s.writeAlCtl who value).Canonical :=
  .ite h.gate.promoted (.ite h.gate.refuse h.gate)

/-! #### Stop -/

theorem State.Canonical.endOthers {s : State} {status : Nat} (h : s.Canonical) : (s.endOthers status).Canonical :=
  (h.endUarts.foldState (fun _ _ h1 => h1.failJob)).update.foldState (fun _ _ h1 => h1.complete)

theorem State.Canonical.endAll {s : State} {status : Nat} (h : s.Canonical) : (s.endAll status).Canonical := h.endLine.endRadio.endOthers

theorem State.Canonical.rewindAll {s : State} {p : Producer → Bool} (h : s.Canonical) : (s.rewindAll p).Canonical :=
  h.foldState (fun _ _ h1 => h1.rewind.tellPool)

theorem State.Canonical.stopCore {s : State} {k : Core} (h : s.Canonical) : (s.stopCore k).Canonical := h.put.modCore.rewindAll

theorem State.Canonical.stopCores {s : State} (h : s.Canonical) : (s.stopCores).Canonical := h.foldState (fun _ _ h1 => h1.stopCore)

theorem State.Canonical.enterMode {s : State} {m cause : Nat} (h : s.Canonical) : (s.enterMode m cause).Canonical :=
  (State.Canonical.ite h.putFlag h).update.setMode.applyRate.followPorts.followRadio

theorem State.Canonical.loseBanks {s : State} (h : s.Canonical) : (s.loseBanks).Canonical := ⟨h.1, mwf_mkeep memDefault _ _ h.2⟩

theorem State.Canonical.loseWins {s : State} (h : s.Canonical) : (s.loseWins).Canonical := (h.foldState (fun _ _ h1 => h1.put)).update

/-- The registers that a reset keeps are still in canonical form. -/
theorem mwfFrom_filterMap_keptReg {sleep : Bool} {m : SMap Word} {b : Option Nat} (h : mwfFrom resetValue b m = true) : mwfFrom resetValue b
    (m.filterMap (keptReg sleep)) = true := by
  induction m generalizing b with
  | nil => rfl
  | cons e t ih =>
    obtain ⟨j, v⟩ := e
    simp only [mwfFrom, Bool.and_eq_true] at h
    obtain ⟨⟨hb, -⟩, ht⟩ := h
    simp only [List.filterMap_cons, keptReg]
    split
    next hn =>
      refine mwfFrom_weaken resetValue _ b (ih ht) fun x hx => ?_
      subst hx
      exact Nat.le_of_lt (of_decide_eq_true hb)
    next hs =>
      split at hs
      · cases hs
      next hv =>
        cases hs
        simpa only [mwfFrom, hb, ih ht, Bool.and_true, Bool.true_and, decide_eq_true_eq] using hv

theorem State.Canonical.resetQuick {s : State} {sleep : Bool} (h : s.Canonical) : (s.resetQuick sleep).Canonical :=
  ⟨mwfFrom_filterMap_keptReg h.1, h.2⟩

theorem State.Canonical.unstage {s : State} (h : s.Canonical) : (s.unstage).Canonical := h.freeThese.update

theorem State.Canonical.dropPower {s : State} {outage : Bool} (h : s.Canonical) : (s.dropPower outage).Canonical :=
  (State.Canonical.ite h.unstage.rewindAll.update h.unstage.rewindAll.loseWins.update).update.loseBanks.resetQuick.update.putFlag.putFlag

theorem State.Canonical.sleep {s : State} {m cause : Nat} (h : s.Canonical) : (s.sleep m cause).Canonical :=
  h.endLine.endRadio.endOthers.enterMode.dropPower

theorem State.Canonical.enterAssay {s : State} {cause : Nat} (h : s.Canonical) : (s.enterAssay cause).Canonical :=
  .ite h.setMode.update.put.putFlag.update.update.setEvt h.setMode.update.put.putFlag.update

theorem State.Canonical.powerUp {s : State} {cause : Nat} (h : s.Canonical) : (s.powerUp cause).Canonical :=
  .ite h (.ite h.putFlag.putFlag.enterAssay h.putFlag.putFlag.update)

theorem State.Canonical.wake {s : State} {f : Fld} (h : s.Canonical) : (s.wake f).Canonical := .ite h.powerUp h

theorem State.Canonical.tryBoot {s : State} (h : s.Canonical) : (s.tryBoot).Canonical := .ite h.powerUp h

theorem State.Canonical.backToAssay {s : State} {cause : Nat} {due : Nat × Nat} (h : s.Canonical) : (s.backToAssay cause due).Canonical :=
  h.endAll.stopCores.enterMode.put.update

theorem State.Canonical.ironEvt {s : State} {f : Fld} (h : s.Canonical) : (s.ironEvt f).Canonical := .ite h.setEvt h.putFlag

/-! #### Load -/

theorem State.Canonical.beginLoad {s : State} {src : Nat} {part : Bool} {chain : Nat} (h : s.Canonical) :
    (s.beginLoad src part chain).Canonical :=
  h.put.put.put.update

theorem State.Canonical.openTime {s : State} (h : s.Canonical) : (s.openTime).Canonical := h.free.put

theorem State.Canonical.loadFail {s : State} {e : IngErr} (h : s.Canonical) : (s.loadFail e).Canonical := by
  unfold State.loadFail
  refine .ite ?_ ?_
  · refine State.Canonical.setEvt ?_
    refine State.Canonical.update ?_
    refine State.Canonical.unstage ?_
    refine State.Canonical.put ?_
    refine State.Canonical.put ?_
    refine State.Canonical.put ?_
    split
    · exact h
    · exact h.free
  · refine .ite ?_ ?_
    · refine State.Canonical.beginLoad ?_
      refine State.Canonical.setEvt ?_
      refine State.Canonical.update ?_
      refine State.Canonical.unstage ?_
      refine State.Canonical.put ?_
      refine State.Canonical.put ?_
      refine State.Canonical.put ?_
      split
      · exact h
      · exact h.free
    · refine .ite ?_ ?_
      · refine State.Canonical.beginLoad ?_
        refine State.Canonical.setEvt ?_
        refine State.Canonical.update ?_
        refine State.Canonical.unstage ?_
        refine State.Canonical.put ?_
        refine State.Canonical.put ?_
        refine State.Canonical.put ?_
        split
        · exact h
        · exact h.free
      · refine .ite ?_ ?_
        · refine State.Canonical.setMode ?_
          refine State.Canonical.setEvt ?_
          refine State.Canonical.update ?_
          refine State.Canonical.unstage ?_
          refine State.Canonical.put ?_
          refine State.Canonical.put ?_
          refine State.Canonical.put ?_
          split
          · exact h
          · exact h.free
        · refine State.Canonical.setEvt ?_
          refine State.Canonical.update ?_
          refine State.Canonical.unstage ?_
          refine State.Canonical.put ?_
          refine State.Canonical.put ?_
          refine State.Canonical.put ?_
          split
          · exact h
          · exact h.free

theorem State.Canonical.loadFailNow {s : State} {e : IngErr} (h : s.Canonical) : (s.loadFailNow e).Canonical := h.openTime.loadFail

theorem State.Canonical.writeFabLoad {s : State} {value : Word} (h : s.Canonical) : (s.writeFabLoad value).Canonical :=
  .ite h.merge (.ite h.merge.setEvt (.ite h.merge.beginLoad (.ite h.merge.backToAssay h.merge.beginLoad)))

theorem State.Canonical.takeStage {s : State} {n : Nat} (h : s.Canonical) : (s.takeStage n).2.Canonical := by
  induction n generalizing s with
  | zero => exact h
  | succ n ih =>
    unfold State.takeStage
    have h1 := h.takeCell
    split
    next heq => rw [heq] at h1; exact h1.tellPool
    next heq => rw [heq] at h1; exact ih h1.update.tellPool

theorem State.Canonical.stageBytes {s : State} {i : Nat} {l : List Byte} (h : s.Canonical) : (s.stageBytes i l).Canonical :=
  .ite (.ite h.setSpan (h.foldState (fun _ _ h1 => h1.setSpan))) h.setSpan

theorem State.Canonical.showScope {s : State} {g : List Byte} (h : s.Canonical) : (s.showScope g).Canonical := .ite h.put h

theorem State.Canonical.openStage {s : State} {g : List Byte} (h : s.Canonical) : (s.openStage g).2.Canonical :=
  .ite_snd (.ite_snd h.takeStage.stageBytes h.takeStage) h

theorem State.Canonical.pushWord {s : State} {value : Word} (h : s.Canonical) : (s.pushWord value).Canonical := by
  unfold State.pushWord
  dsimp only
  split
  · exact h.update.showScope.loadFailNow
  · split
    · exact (State.Canonical.ite_snd h.update.showScope.stageBytes (.ite_snd h.update.showScope.openStage h.update.showScope)).loadFailNow
    · exact .ite ((State.Canonical.ite_snd h.update.showScope.stageBytes (.ite_snd h.update.showScope.openStage h.update.showScope)).put)
        (.ite_snd h.update.showScope.stageBytes (.ite_snd h.update.showScope.openStage h.update.showScope))

theorem State.Canonical.writeFabPush {s : State} {value : Word} (h : s.Canonical) : (s.writeFabPush value).Canonical := .ite h.pushWord h

/-! #### SeqCtl -/

theorem State.Canonical.setPc {s : State} {k a : Nat} (h : s.Canonical) : (s.setPc k a).Canonical := h.setReg

theorem State.Canonical.setSr {s : State} {k : Nat} {i : Sreg} {v : Word} (h : s.Canonical) : (s.setSr k i v).Canonical := .ite h h.modCore

theorem State.Canonical.haltExc {s : State} {k : Nat} (h : s.Canonical) : (s.haltExc k).Canonical := h.put.modCore.coreEvent.event

theorem State.Canonical.raise {s : State} {k cause value : Nat} (h : s.Canonical) : (s.raise k cause value).Canonical :=
  .ite h.setReg.put.haltExc
    (.ite h.setReg.put.haltExc (.ite h.setReg.setReg.put.putFlag.haltExc h.setReg.setReg.put.putFlag.setPc.put.modCore))

theorem State.Canonical.takeIrq {s : State} {k : Nat} (h : s.Canonical) : (s.takeIrq k).Canonical := .ite h.modCore.raise h

theorem State.Canonical.irqFirst {s : State} {k : Nat} (h : s.Canonical) : (s.irqFirst k).Canonical := .ite h.takeIrq h

theorem State.Canonical.irqCount {s : State} {k : Nat} (h : s.Canonical) : (s.irqCount k).Canonical := .ite h.modCore h

theorem State.Canonical.halt {s : State} {k : Nat} (h : s.Canonical) : (s.halt k).Canonical := .ite h.put.modCore h

theorem State.Canonical.resume {s : State} {k : Nat} (h : s.Canonical) : (s.resume k).Canonical :=
  .ite h.put (.ite h.setSr.setSr.setPc.put h)

theorem State.Canonical.restartCore {s : State} {k : Nat} (h : s.Canonical) : (s.restartCore k).Canonical := h.modCore.put.putFlag.put.put

theorem State.Canonical.restart {s : State} {k : Nat} (h : s.Canonical) : (s.restart k).Canonical := .ite h.restartCore h

theorem State.Canonical.kick {s : State} {k : Nat} (h : s.Canonical) : (s.kick k).Canonical := h.coreEvent

theorem State.Canonical.writeSeqCtl {s : State} {k : Nat} {value : Word} (h : s.Canonical) : (s.writeSeqCtl k value).Canonical :=
  .ite h
    (.ite ((State.Canonical.ite h.kick h).halt)
       (.ite ((State.Canonical.ite h.kick h).resume)
          (.ite ((State.Canonical.ite h.kick h).restart) (.ite ((State.Canonical.ite h.kick h).modCore) (.ite h.kick h)))))

theorem State.Canonical.writeSeqLane {s : State} {who : Accessor} {k : Nat} {value : Word} (h : s.Canonical) :
    (s.writeSeqLane who k value).Canonical :=
  .ite h.refuse h.merge.put

theorem State.Canonical.writeSeqTimer {s : State} {k : Nat} {value : Word} (h : s.Canonical) : (s.writeSeqTimer k value).Canonical :=
  h.merge.modCore

theorem State.Canonical.timerEnd {s : State} {k : Nat} (h : s.Canonical) : (s.timerEnd k).Canonical := h.coreEvent.put

theorem State.Canonical.timersTick {s : State} (h : s.Canonical) : (s.timersTick).Canonical :=
  h.foldState (fun _ _ h1 => .ite h1 (.ite h1.timerEnd h1.put))

theorem State.Canonical.readLpend {s : State} {k : Nat} (h : s.Canonical) : (s.readLpend k).2.Canonical := h.put

/-! #### Power -/

theorem State.Canonical.latchStraps {s : State} {role testEn : Bool} (h : s.Canonical) : (s.latchStraps role testEn).Canonical :=
  h.putFlag.putFlag

theorem State.Canonical.resetPin {s : State} (h : s.Canonical) : (s.resetPin).Canonical :=
  h.loseBanks.resetQuick.update.putFlag.putFlag.put.put

theorem State.Canonical.brownout {s : State} {supply : Nat} (h : s.Canonical) : (s.brownout supply).Canonical :=
  h.update.setMode.followRadio.dropPower.putBit.putFlag

theorem State.Canonical.requestMode {s : State} {who : Accessor} {t : Nat} (h : s.Canonical) : (s.requestMode who t).Canonical :=
  .ite h.refuse (.ite h (.ite h.refuse (.ite h.sleep (.ite h.backToAssay h.enterMode))))

theorem State.Canonical.writeSysCtl {s : State} {who : Accessor} {value : Word} (h : s.Canonical) : (s.writeSysCtl who value).Canonical :=
  .ite ((State.Canonical.ite h.merge.applyRate h.merge).requestMode) (.ite h.merge.applyRate h.merge)

theorem State.Canonical.outageActs {s : State} {f : State → State} (h : s.Canonical) (hf : ∀ t, t.Canonical → (f t).Canonical) :
    (s.outageActs f).Canonical :=
  (hf _ h.endLine).cutRadio.lastGasp

theorem State.Canonical.mainsLost {s : State} (h : s.Canonical) : (s.mainsLost).Canonical :=
  .ite (h.putFlag.update.ironEvt.outageActs (fun _ h1 => h1.update.enterMode))
    (.ite (h.putFlag.update.ironEvt.outageActs (fun _ h1 => h1.update.applyRate.followPorts)) h.putFlag.update.ironEvt)

theorem State.Canonical.outageEnd {s : State} (h : s.Canonical) : (s.outageEnd).Canonical := by
  unfold State.outageEnd
  split
  · exact h
  · exact .ite h.sleep h

theorem State.Canonical.writePwrCfg {s : State} {value : Word} (h : s.Canonical) : (s.writePwrCfg value).Canonical :=
  .ite h.writePlain.outageEnd h.writePlain

theorem State.Canonical.leaveOutage {s : State} {m cause : Nat} (h : s.Canonical) : (s.leaveOutage m cause).Canonical :=
  .ite ((State.Canonical.ite h.raiseEpoch h).enterMode.copyRegistry) ((State.Canonical.ite h.raiseEpoch h).enterMode)

theorem State.Canonical.restored {s : State} (h : s.Canonical) : (s.restored).Canonical :=
  .ite h.update.ironEvt.leaveOutage (.ite h.update.ironEvt.update.raiseEpoch.applyRate.followPorts h.update.ironEvt.wake)

theorem State.Canonical.halfPeriod {s : State} {t : Nat} (h : s.Canonical) : (s.halfPeriod t).Canonical := by
  unfold State.halfPeriod
  split
  · exact h.update
  · exact h.divFree.update.put

theorem State.Canonical.riseRun {s : State} {t : Nat} (h : s.Canonical) : (s.riseRun t).Canonical :=
  .ite h.update.putFlag.restored h.update.putFlag.tryBoot

theorem State.Canonical.stepCycle {s : State} (h : s.Canonical) : (s.stepCycle).Canonical :=
  (State.Canonical.ite h.setReg.coresEvent h.setReg).balanceStep

theorem State.Canonical.alarmHit {s : State} (h : s.Canonical) : (s.alarmHit).Canonical := h.update.ironEvt.wake

theorem State.Canonical.writeAlarm {s : State} {value : Word} (h : s.Canonical) : (s.writeAlarm value).Canonical :=
  .ite h.setReg.update.alarmHit h.setReg.update

theorem State.Canonical.readRtc {s : State} (h : s.Canonical) : (s.readRtc).2.Canonical := h.setReg

theorem State.Canonical.stopJobs {s : State} (h : s.Canonical) : (s.stopJobs).Canonical := h.update

theorem State.Canonical.stopLoad {s : State} (h : s.Canonical) : (s.stopLoad).Canonical := .ite h.update.loadFailNow h.update

theorem State.Canonical.quarantine {s : State} {cause : Nat} (h : s.Canonical) : (s.quarantine cause).Canonical :=
  .ite h.put.put.setEvt.stopJobs.stopLoad.endLine.endRadio.enterMode h.put.put.setEvt.stopJobs

theorem State.Canonical.toMaintenance {s : State} (h : s.Canonical) : (s.toMaintenance).Canonical :=
  .ite h ((State.Canonical.ite h.put h).leaveOutage)

theorem State.Canonical.wakeEvent {s : State} (h : s.Canonical) : (s.wakeEvent).Canonical := .ite h.rfEvent h

/-! #### Access -/

theorem State.Canonical.gateAs {s : State} {who : Accessor} {a : Nat} {read value : Word} (h : s.Canonical) :
    (s.gateAs who a read value).2.Canonical :=
  h.setReg.gate.setReg

theorem State.Canonical.writeLpCfg {s : State} {who : Accessor} {p : Nat} {value : Word} (h : s.Canonical) :
    (s.writeLpCfg who p value).Canonical :=
  (State.Canonical.ite h.gate.writePlain.put h.gate.writePlain).followPorts

theorem State.Canonical.writeIf {s : State} {who : Accessor} {a : Nat} {read : Word} {ok : Bool} {value : Word} (h : s.Canonical) :
    (s.writeIf who a read ok value).Canonical :=
  .ite h.gateAs.writePlain h.gateAs

theorem State.Canonical.writeGated {s : State} {who : Accessor} {a : Nat} {value : Word} (h : s.Canonical) :
    (s.writeGated who a value).Canonical :=
  h.gate.writePlain

theorem State.Canonical.actLine {s : State} {who : Accessor} {a : Nat} {value : Word} (h : s.Canonical) : (s.actLine who a value).Canonical
    :=
  .ite h.writeEpoch
    (.ite h.writeGated
       (.ite h.writeLpCfg
          (.ite h.writeLpPga
             (.ite h.writeLpBank
                (.ite h.writeCoef
                   (.ite h.writeLpCrest
                      (.ite h.writeCanc
                         (.ite h.writeZprobe
                            (.ite h.writeNmapCfg
                               (.ite h.writeLpJoin (.ite h.writeIf (.ite h.writeIf (.ite (.ite h.writeGated h) h.writeGated)))))))))))))

theorem State.Canonical.actLane {s : State} {who : Accessor} {a : Nat} {value : Word} (h : s.Canonical) : (s.actLane who a value).Canonical
    :=
  .ite h.writeLnCfg (.ite h.writeLnAgc (.ite h.writeMaskLo h.writeGated))

theorem State.Canonical.actPool {s : State} {who : Accessor} {a : Nat} {value : Word} (h : s.Canonical) : (s.actPool who a value).Canonical
    := by
  unfold State.actPool
  refine .ite h.writeQpCmd ?_
  refine .ite h.writeQstat ?_
  refine .ite h.writeQwm ?_
  split
  · exact .ite h.writeWinCfg (.ite h.writeWinData (.ite h.writeWinCmd h.writeGated))
  · exact h.writeGated

theorem State.Canonical.actSeq {s : State} {who : Accessor} {a : Nat} {value : Word} (h : s.Canonical) : (s.actSeq who a value).Canonical :=
  .ite h.writeSeqCtl (.ite h.writeSeqLane (.ite h.writeSeqTimer (.ite (.ite h.writePlain h) h.writeGated)))

theorem State.Canonical.actHost {s : State} {who : Accessor} {a : Nat} {value : Word} (h : s.Canonical) : (s.actHost who a value).Canonical
    :=
  .ite h.writeHpCfg (.ite h.writeBase (.ite h.writeDb (.ite h.writeCplHead (.ite h.writeEvHead (.ite h.writeCoal h.writeGated)))))

theorem State.Canonical.actRadio {s : State} {who : Accessor} {a : Nat} {value : Word} (h : s.Canonical) :
    (s.actRadio who a value).Canonical :=
  .ite h.gate.writeRfCfg
    (.ite h.writeGated (.ite h.writeRfLcfg (.ite h.writeRfLtime (.ite h.writeRfLmap (.ite h.writeRfLmap h.writeGated)))))

theorem State.Canonical.writeUaFlow {s : State} {who : Accessor} {u : Nat} {value : Word} (h : s.Canonical) :
    (s.writeUaFlow who u value).Canonical :=
  h.writeGated.uaFlow.uaKick

theorem State.Canonical.actUart {s : State} {who : Accessor} {a : Nat} {value : Word} (h : s.Canonical) : (s.actUart who a value).Canonical
    :=
  .ite h.writeUaCfg (.ite h.writeUaBaud (.ite h.writeUaFlow h.writeGated))

theorem State.Canonical.actCtl {s : State} {who : Accessor} {a : Nat} {value : Word} (h : s.Canonical) : (s.actCtl who a value).Canonical :=
  .ite h.writeCtl (.ite h.writeCtl (.ite h.writeCtCfg (.ite h.writeCtTrip (.ite h.writeDlim h.writeGated.relevel))))

theorem State.Canonical.actWarden {s : State} {who : Accessor} {a : Nat} {value : Word} (h : s.Canonical) :
    (s.actWarden who a value).Canonical :=
  .ite h.writeWdPres (.ite h.writePolicy (.ite h.writeMbxCmd (.ite h.writeMbxArg h.writeGated)))

theorem State.Canonical.actCount {s : State} {who : Accessor} {a : Nat} {value : Word} (h : s.Canonical) :
    (s.actCount who a value).Canonical :=
  .ite h.writeSnap (.ite h.writeCtrLo (.ite h.writeCtrHi h.writeGated))

theorem State.Canonical.actMain {s : State} {who : Accessor} {a : Nat} {value : Word} (h : s.Canonical) : (s.actMain who a value).Canonical
    :=
  .ite h.writeSysCtl
    (.ite h.writePwrCfg
       (.ite h.writeAlarm
          (.ite h.writeFabLoad (.ite h.writeFabPush (.ite h.writeMtSync (.ite h.writeAlCtl (.ite h.writeGated.followRole h.writeGated)))))))

theorem State.Canonical.act {s : State} {who : Accessor} {a : Nat} {value : Word} (h : s.Canonical) : (s.act who a value).Canonical := by
  unfold State.act
  split
  · exact h.actSeq
  · exact h.actCount
  · exact h.actHost
  · exact h.actPool
  · exact h.actWarden
  · exact h.actLine
  · exact h.actRadio
  · exact h.actUart
  · exact h.actCtl
  · exact h.actLane
  · exact h.actMain

theorem State.Canonical.regWrite {s : State} {who : Accessor} {a : Nat} {value : Word} (h : s.Canonical) :
    (s.regWrite who a value).Canonical :=
  .ite h.writeAlCtl (h.enter (fun _ h1 => h1.act))

theorem State.Canonical.clearRc {s : State} {a : Nat} (h : s.Canonical) : (s.clearRc a).Canonical := by
  unfold State.clearRc
  split
  · exact h
  · exact h.setReg

theorem State.Canonical.readPlain {s : State} {a : Nat} (h : s.Canonical) : (s.readPlain a).2.Canonical := h.clearRc

theorem State.Canonical.readOpen {s : State} {a : Nat} {f : Fld} {lo : Int} {n : Nat} (h : s.Canonical) : (s.readOpen a f lo n).2.Canonical
    :=
  h.update

theorem State.Canonical.readLine {s : State} {a : Nat} (h : s.Canonical) : (s.readLine a).2.Canonical :=
  .ite_snd h
    (.ite_snd h.readPlain
       (.ite_snd h.readOpen
          (.ite_snd h (.ite_snd h (.ite_snd h.readCoef (.ite_snd h (.ite_snd h (.ite_snd h.readNmap (.ite_snd h h.readPlain)))))))))

theorem State.Canonical.readLane {s : State} {a : Nat} (h : s.Canonical) : (s.readLane a).2.Canonical := .ite_snd h h.readPlain

theorem State.Canonical.readPool {s : State} {who : Accessor} {a : Nat} {e : Ecc} (h : s.Canonical) : (s.readPool who a e).2.Canonical := by
  unfold State.readPool
  refine .ite_snd h ?_
  refine .ite_snd h ?_
  refine .ite_snd h ?_
  refine .ite_snd h ?_
  split
  · exact .ite_snd h.readWinData (.ite_snd h h)
  · exact h.readPlain

theorem State.Canonical.readWarden {s : State} {a : Nat} (h : s.Canonical) : (s.readWarden a).2.Canonical :=
  .ite_snd h (.ite_snd h (.ite_snd h.readSlot (.ite_snd h (.ite_snd h (.ite_snd h (.ite_snd h h.readPlain))))))

theorem State.Canonical.readUaStat {s : State} {u : Nat} (h : s.Canonical) : (s.readUaStat u).2.Canonical := .ite_snd h.update h

theorem State.Canonical.readMain {s : State} {a : Nat} (h : s.Canonical) : (s.readMain a).2.Canonical :=
  .ite_snd h.readRtc
    (.ite_snd h
       (.ite_snd h (.ite_snd h.snapshot (.ite_snd h (.ite_snd h.readLpend (.ite_snd h.readCtrLo (.ite_snd h.readUaStat h.readPlain)))))))

theorem State.Canonical.readRadio {s : State} {a : Nat} (h : s.Canonical) : (s.readRadio a).2.Canonical :=
  .ite_snd h (.ite_snd h h.readPlain)

theorem State.Canonical.readReg {s : State} {who : Accessor} {a : Nat} {e : Ecc} (h : s.Canonical) : (s.readReg who a e).2.Canonical := by
  unfold State.readReg
  refine .ite_snd h.readPool ?_
  split
  · exact h.readWarden
  · exact h.readLine
  · exact h.readRadio
  · exact h.readLane
  · exact h.readMain

theorem State.Canonical.hostHole {s : State} {a : Nat} {isWrite : Bool} (h : s.Canonical) : (s.hostHole a isWrite).Canonical :=
  .ite h.refuse h.refuse.answer

/-! #### Cast -/

theorem State.Canonical.castPolicy {s : State} {b : List Byte} (h : s.Canonical) : (s.castPolicy b).Canonical :=
  h.put.put.put.put.put.update

theorem State.Canonical.castLane {s : State} {b : List Byte} {n : Nat} (h : s.Canonical) : (s.castLane b n).Canonical := h.setReg.modLane

theorem State.Canonical.castLanes {s : State} {b : List Byte} {l : List Nat} (h : s.Canonical) : (s.castLanes b l).Canonical :=
  h.foldState (fun _ _ h1 => h1.castLane)

theorem State.Canonical.regdefPlain {s : State} {l : List (Nat × Nat × Nat)} (h : s.Canonical) : (s.regdefPlain l).Canonical :=
  h.foldState (fun _ _ h1 => h1.setReg)

theorem State.Canonical.castFabric {s : State} {g : List Byte} (h : s.Canonical) : (s.castFabric g).Canonical := h.castLanes.update

theorem State.Canonical.partFabric {s : State} {g : List Byte} (h : s.Canonical) : (s.partFabric g).Canonical :=
  .ite (.ite h h.castLanes) (.ite h.update h)

theorem State.Canonical.wouldBe {s : State} {part : Bool} {g : List Byte} (h : s.Canonical) : (s.wouldBe part g).Canonical :=
  .ite h.partFabric.regdefPlain h.castPolicy.update.castFabric.regdefPlain

theorem State.Canonical.layPool {s : State} (h : s.Canonical) : (s.layPool).Canonical := h.loseWins.update

theorem State.Canonical.zeroSpan {s : State} {lo hi : Nat} (h : s.Canonical) : (s.zeroSpan lo hi).Canonical := by
  unfold State.zeroSpan
  exact ⟨h.1, mwf_mkeep memDefault (fun a => decide (a < lo ∨ hi ≤ a)) _ h.2⟩

theorem State.Canonical.poolLost {s : State} (h : s.Canonical) : (s.poolLost).Canonical := .ite h.update.setEvt h

theorem State.Canonical.castMemory {s : State} {g : List Byte} (h : s.Canonical) : (s.castMemory g).Canonical :=
  h.castPolicy.layPool.zeroSpan.zeroSpan.update

theorem State.Canonical.restBank {s : State} {p : Nat} (h : s.Canonical) : (s.restBank p).Canonical := h.putFlag.putFlag.putFlag.modPort

theorem State.Canonical.freshPort {s : State} {p : Nat} (h : s.Canonical) : (s.freshPort p).Canonical := h.modPort

theorem State.Canonical.castCoefs {s : State} {g : List Byte} (h : s.Canonical) : (s.castCoefs g).Canonical :=
  h.foldState (fun _ _ h1 => h1.restBank.modPort)

theorem State.Canonical.castCode {s : State} {g : List Byte} (h : s.Canonical) : (s.castCode g).Canonical :=
  h.foldState (fun _ _ h1 => h1.setSpan.foldState (fun _ _ h2 => h2.putFlag.setReg))

theorem State.Canonical.idleCore {s : State} {k : Nat} (h : s.Canonical) : (s.idleCore k).Canonical := h.put.putFlag.put.modCore

theorem State.Canonical.castReg {s : State} {e : Nat × Nat × Nat} (h : s.Canonical) : (s.castReg e).Canonical := by
  unfold State.castReg
  split
  · exact h
  · exact .ite h.setReg.setReg h.setReg.act

theorem State.Canonical.castRegs {s : State} {g : List Byte} (h : s.Canonical) : (s.castRegs g).Canonical :=
  h.foldState (fun _ _ h1 => h1.castReg)

theorem State.Canonical.settleMask {s : State} {n : Nat} (h : s.Canonical) : (s.settleMask n).Canonical := h.modLane

theorem State.Canonical.stageFlash {s : State} {g : List Byte} (h : s.Canonical) : (s.stageFlash g).2.Canonical :=
  .ite_snd h (.ite_snd h.openStage h.setSpan)

theorem State.Canonical.openForge {s : State} {g : List Byte} (h : s.Canonical) : (s.openForge g).Canonical :=
  .ite h.update.put.enterMode.castPolicy h.update.put.enterMode.poolLost.castMemory

theorem State.Canonical.quiesceScope {s : State} {g : List Byte} (h : s.Canonical) : (s.quiesceScope g).Canonical :=
  (State.Canonical.ite h.update.put.modPort (.ite h.update.put.endRadio.endLinks.rfStop h.update.put)).foldState (fun _ _ h1 => h1.stopCore)

theorem State.Canonical.acceptIngot {s : State} {g : List Byte} {us : Nat} (h : s.Canonical) : (s.acceptIngot g us).Canonical := by
  unfold State.acceptIngot
  dsimp only
  split
  · exact h.stageFlash.put.loadFail
  · split
    · exact h.stageFlash.put.loadFail
    · exact .ite h.stageFlash.quiesceScope h.stageFlash.openForge

theorem State.Canonical.verify {s : State} {g : List Byte} {us : Nat} (h : s.Canonical) : (s.verify g us).Canonical := by
  unfold State.verify
  dsimp only
  split
  · exact h.put.loadFail
  · split
    · exact h.showScope.put.loadFail
    · split
      · exact h.showScope.put.loadFail
      · exact .ite h.showScope.openForge h.showScope.update.acceptIngot

theorem State.Canonical.outWins {s : State} (h : s.Canonical) : (s.outWins).2.Canonical := .ite_snd h.update h

theorem State.Canonical.endChecks {s : State} {flash : Option (List Byte)} {us : Nat} (h : s.Canonical) : (s.endChecks flash us).Canonical
    := by
  unfold State.endChecks
  split
  · exact h.put.loadFail
  · exact h.verify

theorem State.Canonical.after {s : State} {f : State → Result} (h : s.Canonical) (hf : KeepsCanonical f) : (s.after f).Canonical := by
  unfold State.after
  split
  next heq => exact hf _ _ h heq
  · exact h

theorem execRfDataRx_keeps (r : RfSeen) : KeepsCanonical (execRfDataRx r) := by
  refine KeepsCanonical.next fun s h => ?_
  have h1 := h.rfSeen (r := r) (types := [3])
  split
  next heq => rw [heq] at h1; exact h1
  next heq =>
    rw [heq] at h1
    split
    · exact h1
    · exact h1.rxRfData

theorem execMapSetRx_keeps (r : RfSeen) : KeepsCanonical (execMapSetRx r) :=
  KeepsCanonical.next fun _ h => h.rxLinkCmd (fun _ _ _ _ _ _ h1 => h1.modRlink.rfAnswer)

theorem execDisconnectRx_keeps (r : RfSeen) : KeepsCanonical (execDisconnectRx r) :=
  KeepsCanonical.next fun _ h => h.rxLinkCmd (fun _ _ _ _ _ _ h1 => .ite h1.rfAnswer.endLink h1.rfAnswer)

theorem execRfAckRx_keeps (r : RfSeen) : KeepsCanonical (execRfAckRx r) :=
  KeepsCanonical.next fun _ h => h.rxRfAck (fun _ _ _ _ h1 => .ite h1.ackItem.endLink h1.ackItem)

theorem execRfNackRx_keeps (r : RfSeen) : KeepsCanonical (execRfNackRx r) :=
  KeepsCanonical.next fun _ h => h.rxRfAck (fun _ _ _ _ h1 => .ite h1.failItem h1)

theorem execConnReqRx_keeps (r : RfSeen) : KeepsCanonical (execConnReqRx r) := by
  refine KeepsCanonical.next fun s h => ?_
  have h1 := h.rfSeen (r := r) (types := [1])
  split
  next heq => rw [heq] at h1; exact h1
  next m s1 heq =>
    rw [heq] at h1
    have h2 := h1.rfCheck (m := m) (slv := 2)
    refine .ite h1.setEvt.rfEvent ?_
    split
    next heq2 => rw [heq2] at h2; exact h2
    next i body s2 heq2 =>
      rw [heq2] at h2
      refine .ite h2 ?_
      have hq := h2.free (n := 256)
      split
      · exact hq.freeBytes.rfNote.sendConnAck
      next c _ =>
        have ho := State.Canonical.ite (c := (s2.free 256).2.rfState c = 4) (hq.endLink (c := c) (reason := 0)) hq
        have h2 := (ho.free (n := 65536)).free (n := 65534)
        exact .ite (h2.put.put.modRlink.putNbr.putNbr.putNbr.rfSetFc.putNbr.rfNote.sendConnAck)
          (h2.put.put.modRlink.putNbr.putNbr.putNbr.rfSetFc.putNbr.rfNote.sendConnAck.rfOpen)

theorem execConnAckRx_keeps (r : RfSeen) : KeepsCanonical (execConnAckRx r) := by
  refine KeepsCanonical.next fun s h => ?_
  have h1 := h.rfSeen (r := r) (types := [2])
  split
  next heq => rw [heq] at h1; exact h1
  next m s1 heq =>
    rw [heq] at h1
    have h2 := h1.rfCheck (m := m) (slv := 6)
    split
    next heq2 => rw [heq2] at h2; exact h2
    next heq2 =>
      rw [heq2] at h2
      split
      · exact h2
      · exact .ite h2.rfSetFc.rfNote (.ite h2.rfSetFc.rfNote.connAccept h2.rfSetFc.rfNote.connFailed)

theorem execRfBeaconRx_keeps (r : RfSeen) : KeepsCanonical (execRfBeaconRx r) := by
  refine KeepsCanonical.next fun s h => ?_
  have h1 := h.rfSeen (r := r) (types := [0])
  split
  next heq => rw [heq] at h1; exact h1
  next heq =>
    rw [heq] at h1
    split
    · exact h1.rfMicFail
    · split
      · exact h1
      · exact .ite h1 (h1.putNbr.foldState fun _ _ h2 => h2.beaconOn)

theorem execFloodRx_keeps (r : RfSeen) : KeepsCanonical (execFloodRx r) := by
  refine KeepsCanonical.next fun s h => ?_
  have h1 := h.rfSeen (r := r) (types := [6])
  split
  next heq => rw [heq] at h1; exact h1
  next heq =>
    rw [heq] at h1
    split
    · exact h1.rfMicFail
    · exact h1.rxFlood

theorem State.Canonical.deliverHeld {s : State} (h : s.Canonical) : (s.deliverHeld).Canonical := by
  unfold State.deliverHeld
  split
  · exact h
  next x r _ =>
    exact ((((((((h.update.after (execRfDataRx_keeps r)).after (execMapSetRx_keeps r)).after (execDisconnectRx_keeps r)).after
      (execRfAckRx_keeps r)).after (execRfNackRx_keeps r)).after (execConnReqRx_keeps r)).after (execConnAckRx_keeps r)).after
      (execRfBeaconRx_keeps r)).after (execFloodRx_keeps r)

theorem State.Canonical.clearEnergy {s : State} (h : s.Canonical) : (s.clearEnergy).Canonical := h.update.setReg.setReg

theorem State.Canonical.castSections {s : State} {g : List Byte} (h : s.Canonical) : (s.castSections g).Canonical :=
  ((((h.castFabric.foldState (fun _ _ h1 => h1.restBank.freshPort)).castCoefs.castCode.foldState (fun _ _ h1 => h1.idleCore)).castRegs.foldState
      (fun _ _ h1 => h1.settleMask)).foldState (fun _ _ h1 => h1.rest)).clearEnergy

theorem State.Canonical.castRecord {s : State} {g : List Byte} {us : Nat} (h : s.Canonical) : (s.castRecord g us).Canonical :=
  h.put.put.put.put.put.put.putFlag.free.update

theorem State.Canonical.leaveForge {s : State} (h : s.Canonical) : (s.leaveForge).Canonical :=
  .ite ((State.Canonical.ite h.endLine (.ite h.raiseEpoch h)).update.enterMode)
    (.ite ((State.Canonical.ite h.endLine (.ite h.raiseEpoch h)).update.enterMode.putFlag)
       ((State.Canonical.ite h.endLine (.ite h.raiseEpoch h)).update.enterMode.copyRegistry))

theorem State.Canonical.castDone {s : State} {g : List Byte} {us : Nat} (h : s.Canonical) : (s.castDone g us).Canonical :=
  (h.update.castSections.castRecord.followRole.relevel.foldState (fun _ _ h1 => h1.restartCore)).setEvt.leaveForge.deliverHeld

theorem State.Canonical.castAgain {s : State} (h : s.Canonical) : (s.castAgain).Canonical := h.put.backToAssay.update

theorem State.Canonical.relock {s : State} {p : Nat} (h : s.Canonical) : (s.relock p).Canonical := h.nominal.put.acquire.modPort

theorem State.Canonical.resumePort {s : State} {p vch grid : Nat} (h : s.Canonical) : (s.resumePort p vch grid).Canonical :=
  (State.Canonical.ite (.ite (h.modPort.foldState (fun _ _ h1 => h1.rest)) ((h.modPort.foldState (fun _ _ h1 => h1.rest)).modPort))
     ((State.Canonical.ite (h.modPort.foldState (fun _ _ h1 => h1.rest)) ((h.modPort.foldState (fun _ _ h1 => h1.rest)).modPort)).relock)).followPorts.repark

theorem State.Canonical.resumeMeter {s : State} (h : s.Canonical) : (s.resumeMeter).Canonical := .ite h.schedule h

theorem State.Canonical.partSections {s : State} {g : List Byte} (h : s.Canonical) : (s.partSections g).Canonical :=
  h.partFabric.castCoefs.castCode.castRegs.foldState (fun _ _ h1 => h1.settleMask)

theorem State.Canonical.partDone {s : State} {g : List Byte} {us : Nat} (h : s.Canonical) : (s.partDone g us).Canonical :=
  ((State.Canonical.ite h.partSections.unstage.put.put.put.update.resumePort
      (.ite h.partSections.unstage.put.put.put.update.resumeMeter h.partSections.unstage.put.put.put.update.endLinks.rfShow)).foldState
     (fun _ _ h1 => h1.restartCore)).setEvt

/-! #### SeqCore -/

theorem State.Canonical.useLine {s : State} {k : Nat} {l : CacheLine} (h : s.Canonical) : (s.useLine k l).Canonical := h.modCore

theorem State.Canonical.fetch {s : State} {k : Core} (h : s.Canonical) : (s.fetch k).2.Canonical := by
  unfold State.fetch
  refine .ite_snd h.raise ?_
  split
  · exact h.useLine
  · exact .ite_snd h.readSpan.raise h.readSpan.useLine

theorem State.Canonical.advance {s : State} {k : Nat} (h : s.Canonical) : (s.advance k).Canonical := h.setReg

theorem State.Canonical.retire {s : State} {k : Nat} {rd : Sreg} {v : Word} (h : s.Canonical) : (s.retire k rd v).Canonical :=
  h.setSr.advance

theorem State.Canonical.stallCore {s : State} {k state : Nat} {x : Stall} (h : s.Canonical) : (s.stallCore k state x).Canonical :=
  h.put.modCore

/-! #### SeqAlu -/

theorem State.Canonical.aluR {s : State} {k : Core} {rd ra rb : Sreg} {op : Word → Word → Word} (h : s.Canonical) :
    (s.aluR k rd ra rb op).Canonical :=
  h.retire

theorem State.Canonical.aluI {s : State} {k : Core} {rd ra : Sreg} {x : Word} {op : Word → Word → Word} (h : s.Canonical) :
    (s.aluI k rd ra x op).Canonical :=
  h.retire

theorem State.Canonical.lih {s : State} {k : Core} {rd : Sreg} {imm : Half} (h : s.Canonical) : (s.lih k rd imm).Canonical := h.retire

theorem State.Canonical.hopBy {s : State} {k : Nat} {off : Word} (h : s.Canonical) : (s.hopBy k off).Canonical := h.setReg

theorem State.Canonical.hop {s : State} {k : Core} {ra rb : Sreg} {off : Half} {c : Word → Word → Bool} (h : s.Canonical) :
    (s.hop k ra rb off c).Canonical :=
  .ite h.hopBy h.advance

theorem State.Canonical.call {s : State} {k : Core} {off : Off26} (h : s.Canonical) : (s.call k off).Canonical := h.setSr.hopBy

theorem State.Canonical.jmpr {s : State} {k : Core} {rd ra : Sreg} {imm : Half} (h : s.Canonical) : (s.jmpr k rd ra imm).Canonical :=
  .ite h.raise h.setSr.setReg

theorem State.Canonical.setAcc {s : State} {k : Nat} {i : AccN} {v : Int} (h : s.Canonical) : (s.setAcc k i v).Canonical := h.modCore

theorem State.Canonical.markSat {s : State} {k w : Nat} {x : Int} (h : s.Canonical) : (s.markSat k w x).Canonical := .ite h h.putFlag

theorem State.Canonical.putAcc {s : State} {k : Core} {ad : AccN} {x : Int} (h : s.Canonical) : (s.putAcc k ad x).Canonical :=
  h.setAcc.advance

theorem State.Canonical.satAcc {s : State} {k : Core} {ad : AccN} {x : Int} (h : s.Canonical) : (s.satAcc k ad x).Canonical :=
  h.markSat.setAcc.advance

theorem State.Canonical.satPair {s : State} {k : Core} {ad : AccN} {hi lo : Int} (h : s.Canonical) : (s.satPair k ad hi lo).Canonical :=
  h.markSat.markSat.setAcc.advance

theorem State.Canonical.mula {s : State} {k : Core} {r1 r2 : Sreg} {ad : AccN} (h : s.Canonical) : (s.mula k r1 r2 ad).Canonical := h.putAcc

theorem State.Canonical.mac {s : State} {k : Core} {r1 r2 : Sreg} {ad : AccN} (h : s.Canonical) : (s.mac k r1 r2 ad).Canonical := h.satAcc

theorem State.Canonical.msu {s : State} {k : Core} {r1 r2 : Sreg} {ad : AccN} (h : s.Canonical) : (s.msu k r1 r2 ad).Canonical := h.satAcc

theorem State.Canonical.mta {s : State} {k : Core} {r1 : Sreg} {ad : AccN} (h : s.Canonical) : (s.mta k r1 ad).Canonical := h.putAcc

theorem State.Canonical.mfa {s : State} {k : Core} {r1 : Sreg} {src : AccN} {sh : ShAmt} (h : s.Canonical) : (s.mfa k r1 src sh).Canonical
    :=
  h.markSat.retire

theorem State.Canonical.mfal {s : State} {k : Core} {r1 : Sreg} {src : AccN} (h : s.Canonical) : (s.mfal k r1 src).Canonical := h.retire

theorem State.Canonical.mfau {s : State} {k : Core} {r1 : Sreg} {src : AccN} (h : s.Canonical) : (s.mfau k r1 src).Canonical := h.retire

theorem State.Canonical.pset {s : State} {k : Core} {r1 r2 : Sreg} {ad : AccN} (h : s.Canonical) : (s.pset k r1 r2 ad).Canonical := h.putAcc

theorem State.Canonical.padd {s : State} {k : Core} {ad src : AccN} (h : s.Canonical) : (s.padd k ad src).Canonical := h.satPair

theorem State.Canonical.psub {s : State} {k : Core} {ad src : AccN} (h : s.Canonical) : (s.psub k ad src).Canonical := h.satPair

theorem State.Canonical.pscl {s : State} {k : Core} {r1 : Sreg} {ad : AccN} (h : s.Canonical) : (s.pscl k r1 ad).Canonical := h.satPair

theorem State.Canonical.pgeth {s : State} {k : Core} {r1 : Sreg} {src : AccN} (h : s.Canonical) : (s.pgeth k r1 src).Canonical := h.retire

theorem State.Canonical.pgetl {s : State} {k : Core} {r1 : Sreg} {src : AccN} (h : s.Canonical) : (s.pgetl k r1 src).Canonical := h.retire

/-! #### SeqMem -/

theorem State.Canonical.loadSram {s : State} {k : Core} {rd : Sreg} {a n : Nat} {e : Ecc} (h : s.Canonical) :
    (s.loadSram k rd a n e).Canonical :=
  .ite h.eccRead.tellPool.raise h.eccRead.tellPool.retire

theorem State.Canonical.load {s : State} {k : Core} {rd ra : Sreg} {imm : Half} {n : Nat} {e : Ecc} (h : s.Canonical) :
    (s.load k rd ra imm n e).Canonical :=
  .ite h.raise (.ite (.ite h.loadSram h.raise) (.ite h.readReg.retire h.raise))

theorem State.Canonical.storeSram {s : State} {a : Nat} {l : List Byte} (h : s.Canonical) : (s.storeSram a l).Canonical :=
  .ite h.putEntry (.ite h.setSpan h.readSpan.setSpan)

theorem State.Canonical.store {s : State} {k : Core} {rd ra : Sreg} {imm : Half} {n : Nat} (h : s.Canonical) :
    (s.store k rd ra imm n).Canonical :=
  .ite h.raise (.ite (.ite h.storeSram.advance h.raise) (.ite h.advance.act h.raise))

theorem State.Canonical.takenWord {s : State} {k : Core} {rd : Sreg} {a : Nat} {w : Line} (h : s.Canonical) :
    (s.takenWord k rd a w).Canonical :=
  h.storeSram.retire

theorem State.Canonical.takeTo {s : State} {k : Core} {rd : Sreg} {q a : Nat} {e : Ecc} {empty : State → State} (h : s.Canonical)
    (hempty : ∀ t, t.Canonical → (empty t).Canonical) : (s.takeTo k rd q a e empty).Canonical := by
  unfold State.takeTo
  have h1 := h.takeWord (q := q) (e := e)
  split
  · exact h.raise
  · split
    next heq => rw [heq] at h1; exact hempty _ h1.tellPool
    next heq => rw [heq] at h1; exact h1.tellPool.takenWord.uaFlows

theorem State.Canonical.qget {s : State} {k : Core} {rd : Sreg} {q a : Nat} {events : Bool} {e : Ecc} (h : s.Canonical) :
    (s.qget k rd q a events e).Canonical :=
  h.takeTo (fun _ h1 => .ite h1.retire h1.stallCore)

theorem State.Canonical.qtry {s : State} {k : Core} {rd : Sreg} {q a : Nat} {e : Ecc} (h : s.Canonical) : (s.qtry k rd q a e).Canonical :=
  h.takeTo (fun _ h1 => h1.retire)

theorem State.Canonical.qput {s : State} {k : Core} {rd : Sreg} {q a : Nat} {e : Ecc} (h : s.Canonical) : (s.qput k rd q a e).Canonical :=
    by
  unfold State.qput
  split
  · exact h.raise
  · exact .ite h.eccRead.tellPool.raise h.eccRead.tellPool.putWord.tellPool.retire

theorem State.Canonical.qrew {s : State} {k : Core} {rd ra : Sreg} (h : s.Canonical) : (s.qrew k rd ra).Canonical := by
  unfold State.qrew
  dsimp only
  split
  · exact h.raise
  · exact h.rewind.tellPool.retire

theorem State.Canonical.qlvl {s : State} {k : Core} {rd ra : Sreg} (h : s.Canonical) : (s.qlvl k rd ra).Canonical := by
  unfold State.qlvl
  dsimp only
  split
  · exact h.raise
  · exact h.touch.tellPool.retire

theorem State.Canonical.sin {s : State} {k : Core} {r : Sreg} {p : StreamP} (h : s.Canonical) : (s.sin k r p).Canonical := by
  unfold State.sin
  refine .ite h.raise ?_
  refine .ite h.raise ?_
  split
  · exact h.stallCore
  · exact (State.Canonical.ite h.modCore.setSr.setSr h.modCore.setSr).advance

theorem State.Canonical.sout {s : State} {k : Core} {r : Sreg} {p : StreamP} (h : s.Canonical) : (s.sout k r p).Canonical :=
  .ite h.raise (.ite h.raise (.ite h.stallCore h.modCore.advance))

theorem State.Canonical.waitFor {s : State} {k : Core} {rd : Sreg} (h : s.Canonical) : (s.waitFor k rd).Canonical :=
  .ite h.retire h.stallCore

theorem State.Canonical.rdctl {s : State} {k : Core} {rd : Sreg} {i : Cix} (h : s.Canonical) : (s.rdctl k rd i).Canonical :=
  .ite h.retire (.ite h.raise h.readReg.retire)

theorem State.Canonical.wrctl {s : State} {k : Core} {ra : Sreg} {i : Cix} (h : s.Canonical) : (s.wrctl k ra i).Canonical :=
  .ite h.raise (.ite h.raise (.ite h.advance h.advance.act))

theorem State.Canonical.supc {s : State} {k : Core} (h : s.Canonical) : (s.supc k).Canonical :=
  .ite h.raise ((h.foldState (fun _ _ h1 => h1.setReg)).put.coreEvent)

theorem State.Canonical.hret {s : State} {k : Core} (h : s.Canonical) : (s.hret k).Canonical := .ite h.raise h.setReg.putFlag.takeIrq

theorem State.Canonical.synci {s : State} {k : Core} (h : s.Canonical) : (s.synci k).Canonical := h.modCore.advance

/-! #### SeqRun -/

theorem State.Canonical.unstall {s : State} {k : Nat} (h : s.Canonical) : (s.unstall k).Canonical := h.put.modCore

theorem State.Canonical.again {s : State} {k : Core} {e : Ecc} (h : s.Canonical) : (s.again k e).Canonical := by
  unfold State.again
  split
  · exact h
  · exact h.unstall.waitFor
  · exact h.unstall.qget
  · exact h.unstall.sin
  · exact h.unstall.drainPort.sout

theorem State.Canonical.wakeCore {s : State} {k : Core} {e : Ecc} (h : s.Canonical) : (s.wakeCore k e).Canonical :=
  .ite h.irqFirst h.irqFirst.again.irqCount

theorem State.Canonical.fetchRun {s : State} {k : Core} {g : Word → State → State} (h : s.Canonical)
    (hg : ∀ x t, t.Canonical → (g x t).Canonical) : (s.fetchRun k g).Canonical := by
  unfold State.fetchRun
  have h1 := h.irqFirst (k := k.val) |>.fetch (k := k)
  refine .ite h.irqFirst ?_
  split
  next heq => rw [heq] at h1; exact h1
  next heq => rw [heq] at h1; exact (hg _ _ h1).irqCount

/-- Whatever word decodes, what it does keeps the canonical form. -/
def DecodeKeeps (o : Option Body) : Prop := ∀ f, o = some f → ∀ (k : Core) (e : Ecc) (s : State), s.Canonical → (f k e s).Canonical

theorem DecodeKeeps.none : DecodeKeeps none := fun _ hf => nomatch hf

theorem DecodeKeeps.some {f : Body} (hf : ∀ (k : Core) (e : Ecc) (s : State), s.Canonical → (f k e s).Canonical) : DecodeKeeps (some f) :=
  fun _ hg => Option.some.inj hg ▸ hf

theorem DecodeKeeps.ite {c : Prop} [Decidable c] {x y : Option Body} (hx : DecodeKeeps x) (hy : DecodeKeeps y) : DecodeKeeps
    (if c then x else y) :=
  by split <;> assumption

theorem DecodeKeeps.ite_some {c : Prop} [Decidable c] {f : Body}
    (hf : ∀ (k : Core) (e : Ecc) (s : State), s.Canonical → (f k e s).Canonical) :
    DecodeKeeps (if c then Option.some f else Option.none) :=
  .ite (.some hf) .none

theorem decodeAlu_keeps (w : Nat) : DecodeKeeps (decodeAlu w) := by
  have go : ∀ op, DecodeKeeps (some fun k _ s => s.aluR k (wD w) (wA w) (wB w) op) := fun _ => .some fun _ _ _ h => h.aluR
  unfold decodeAlu
  dsimp only
  split
  case h_16 => exact .none
  all_goals exact go _

theorem decodeShift_keeps (w : Nat) : DecodeKeeps (decodeShift w) := by
  have go : ∀ op, DecodeKeeps (some fun k _ s => s.aluI k (wD w) (wA w) (BitVec.ofNat 32 (bits w 4 0)) op) :=
    fun _ => .some fun _ _ _ h => h.aluI
  unfold decodeShift
  refine .ite .none ?_
  split
  · exact go _
  · exact go _
  · exact go _
  · exact .none

theorem decodeHop_keeps (w : Nat) (c : Word → Word → Bool) : DecodeKeeps (decodeHop w c) :=
  .some fun _ _ _ h => h.hop

theorem decodeAcc_keeps (w : Nat) : DecodeKeeps (decodeAcc w) := by
  unfold decodeAcc
  dsimp only
  split
  · exact .ite_some fun _ _ _ h => h.mula
  · exact .ite_some fun _ _ _ h => h.mac
  · exact .ite_some fun _ _ _ h => h.msu
  · exact .ite_some fun _ _ _ h => h.mta
  · exact .ite_some fun _ _ _ h => h.mfa
  · exact .ite_some fun _ _ _ h => h.mfal
  · exact .ite_some fun _ _ _ h => h.mfau
  · exact .ite_some fun _ _ _ h => h.putAcc
  · exact .ite_some fun _ _ _ h => h.pset
  · exact .ite_some fun _ _ _ h => h.padd
  · exact .ite_some fun _ _ _ h => h.psub
  · exact .ite_some fun _ _ _ h => h.pscl
  · exact .ite_some fun _ _ _ h => h.pgeth
  · exact .ite_some fun _ _ _ h => h.pgetl
  · exact .ite_some fun _ _ _ h => h.putAcc
  · exact .none

theorem decodeQueue_keeps (w : Nat) : DecodeKeeps (decodeQueue w) := by
  unfold decodeQueue
  refine .ite .none ?_
  split
  · exact .some fun _ _ _ h => h.qget
  · exact .some fun _ _ _ h => h.qget
  · exact .some fun _ _ _ h => h.qtry
  · exact .some fun _ _ _ h => h.qput
  · exact .ite_some fun _ _ _ h => h.qrew
  · exact .ite_some fun _ _ _ h => h.qlvl
  · exact .none

theorem decodeStream_keeps (w : Nat) : DecodeKeeps (decodeStream w) := by
  unfold decodeStream
  refine .ite .none ?_
  split
  · exact .some fun _ _ _ h => h.sin
  · exact .some fun _ _ _ h => h.sout
  · exact .none

theorem decodeSys_keeps (w : Nat) : DecodeKeeps (decodeSys w) := by
  unfold decodeSys
  refine .ite .none ?_
  dsimp only
  split
  · exact .ite_some fun _ _ _ h => h.waitFor
  · exact .ite_some fun _ _ _ h => h.rdctl
  · exact .ite_some fun _ _ _ h => h.wrctl
  · exact .ite_some fun _ _ _ h => h.supc
  · exact .ite_some fun _ _ _ h => h.hret
  · exact .ite_some fun _ _ _ h => h.raise
  · exact .ite_some fun _ _ _ h => h.synci
  · exact .none

theorem seqDecode_keeps (w : Nat) : DecodeKeeps (seqDecode w) := by
  unfold seqDecode
  split
  · exact decodeAlu_keeps w
  · exact .some fun _ _ _ h => h.aluI
  · exact .some fun _ _ _ h => h.aluI
  · exact .some fun _ _ _ h => h.aluI
  · exact .some fun _ _ _ h => h.aluI
  · exact .some fun _ _ _ h => h.aluI
  · exact .ite_some fun _ _ _ h => h.lih
  · exact decodeShift_keeps w
  · exact .some fun _ _ _ h => h.load
  · exact .some fun _ _ _ h => h.load
  · exact .some fun _ _ _ h => h.load
  · exact .some fun _ _ _ h => h.store
  · exact .some fun _ _ _ h => h.store
  · exact .some fun _ _ _ h => h.store
  · exact decodeHop_keeps w _
  · exact decodeHop_keeps w _
  · exact decodeHop_keeps w _
  · exact decodeHop_keeps w _
  · exact decodeHop_keeps w _
  · exact decodeHop_keeps w _
  · exact .some fun _ _ _ h => h.call
  · exact .some fun _ _ _ h => h.jmpr
  · exact decodeAcc_keeps w
  · exact decodeQueue_keeps w
  · exact decodeStream_keeps w
  · exact decodeSys_keeps w
  · exact .none

theorem State.Canonical.perform {s : State} {k : Core} {e : Ecc} {w : Word} (h : s.Canonical) : (s.perform k e w).Canonical := by
  unfold State.perform
  split
  · exact h.raise
  next heq => exact seqDecode_keeps _ _ heq _ _ _ h

theorem State.Canonical.instr {s : State} {k : Core} {w : Nat} {e : Ecc} {f : State → State} (h : s.Canonical)
    (hf : ∀ t, t.Canonical → (f t).Canonical) : (s.instr k w e f).Canonical :=
  .ite h (h.fetchRun (fun _ _ h1 => .ite (hf _ h1) h1.perform))

theorem State.Canonical.runWord {s : State} {k : Core} {e : Ecc} (h : s.Canonical) : (s.runWord k e).Canonical :=
  h.fetchRun (fun _ _ h1 => h1.perform)

theorem State.Canonical.stepCore {s : State} {k : Core} {e : Ecc} (h : s.Canonical) : (s.stepCore k e).Canonical :=
  .ite h.modCore.put.runWord.halt h.modCore

theorem State.Canonical.pendingSteps {s : State} (h : s.Canonical) : (s.pendingSteps).Canonical := h.foldState (fun _ _ h1 => h1.stepCore)

/-! #### HostPort -/

theorem State.Canonical.readHost {s : State} {a : Nat} {e : Ecc} {m : Word} (h : s.Canonical) : (s.readHost a e m).2.Canonical :=
  .ite_snd (.ite_snd h.post h.refuse) (.ite_snd h.readSram (.ite_snd h.readReg h.refuse))

theorem State.Canonical.readWords {s : State} {a n i : Nat} {eccs : List Ecc} {mirror out : List Word} (h : s.Canonical) :
    (s.readWords a n i eccs mirror out).2.Canonical := by
  induction n generalizing s i out with
  | zero => exact h
  | succ n ih =>
    unfold State.readWords
    have h1 := h.readHost (a := burstAddr a i) (e := nth .clean eccs i) (m := nth 0 mirror i)
    dsimp only
    split
    next heq => rw [heq] at h1; exact ih h1
    next heq => rw [heq] at h1; exact h1.setWait

theorem State.Canonical.readCut {s : State} {a i : Nat} {eccs : List Ecc} (h : s.Canonical) : (s.readCut a i eccs).Canonical :=
  .ite (h.readReg (who := .host) (a := burstAddr a i) (e := nth .clean eccs i)) h

theorem State.Canonical.drive {s : State} {l : List Word} (h : s.Canonical) : (s.drive l).Canonical := h.update

theorem State.Canonical.protoErr {s : State} (h : s.Canonical) : (s.protoErr).Canonical := h.putFlag

theorem State.Canonical.writeHost {s : State} {a : Nat} {v : Word} (h : s.Canonical) : (s.writeHost a v).Canonical :=
  .ite (.ite h.post (.ite h.refuse h)) (.ite (.ite h.writeSram h) (.ite h.regWrite.pendingSteps (.ite h.hostHole h)))

theorem State.Canonical.writeWords {s : State} {a i : Nat} {l : List Word} (h : s.Canonical) : (s.writeWords a i l).Canonical := by
  induction l generalizing s i with
  | nil => exact h
  | cons v t ih => exact ih (.ite h.writeHost h)

/-! #### Tick -/

theorem State.Canonical.sniffOff {s : State} (h : s.Canonical) : (s.sniffOff).Canonical := .ite h.put h

theorem State.Canonical.ironCycle {s : State} (h : s.Canonical) : (s.ironCycle).Canonical :=
  .ite h.update.sniffOff.alarmHit h.update.sniffOff

theorem State.Canonical.microsecond {s : State} (h : s.Canonical) : (s.microsecond).Canonical := .ite h.timersTick h

theorem State.Canonical.splitTime {s : State} (h : s.Canonical) : (s.splitTime).Canonical :=
  .ite ((State.Canonical.ite h.update.microsecond h.update).ironCycle) (.ite h.update.microsecond h.update)

theorem State.Canonical.drainAll {s : State} (h : s.Canonical) : (s.drainAll).Canonical :=
  h.foldState (fun _ _ h1 => h1.foldState (fun _ _ h2 => .ite h2 h2.drainPort))

theorem State.Canonical.softError {s : State} (h : s.Canonical) : (s.softError).Canonical := .ite h.free h.free.setUpset

theorem State.Canonical.loadStage {s : State} (h : s.Canonical) : (s.loadStage).Canonical := .ite h.free.put h

theorem State.Canonical.fabricCycle {s : State} (h : s.Canonical) : (s.fabricCycle).Canonical :=
  h.update.softError.splitTime.pmCycle.drainAll.uaFlows.kickFloods.paOff.pendingSteps.loadStage

theorem State.Canonical.idleTick {s : State} (h : s.Canonical) : (s.idleTick).Canonical := .ite h (.ite h.fabricCycle h.ironCycle)

/-! #### The commands -/

theorem execRegisterWrite_keeps {who addr value} : KeepsCanonical (execRegisterWrite who addr value) :=
  KeepsCanonical.next fun _ h => .ite h.regWrite h
theorem execHoleAccess_keeps {who addr isWrite} : KeepsCanonical (execHoleAccess who addr isWrite) := by
  refine KeepsCanonical.next fun s h => ?_
  refine .ite h ?_
  split
  · exact .ite h.hostHole h
  · exact .ite h.raise h
theorem execRcCounterRead_keeps {who addr} : KeepsCanonical (execRcCounterRead who addr) :=
  KeepsCanonical.next fun _ h => .ite h.readReg.answer h
theorem execSeqLpendRead_keeps {who k} : KeepsCanonical (execSeqLpendRead who k) :=
  KeepsCanonical.next fun _ h => .ite h.readLpend.answer h
theorem execRtcRead_keeps {who} : KeepsCanonical (execRtcRead who) := KeepsCanonical.next fun _ h => .ite h.readRtc.answer h
theorem execSwapRequest_keeps {who p value} : KeepsCanonical (execSwapRequest who p value) :=
  KeepsCanonical.next fun _ h => h.enter (fun _ h1 => h1.writeLpBank)
theorem execFadeComplete_keeps {p} : KeepsCanonical (execFadeComplete p) :=
  KeepsCanonical.next fun _ h => .ite h (.ite h.fadeEnd (.ite h.fadeBack h))
theorem execCoefWrite_keeps {who p value} : KeepsCanonical (execCoefWrite who p value) :=
  KeepsCanonical.next fun _ h => h.enter (fun _ h1 => h1.writeCoef)
theorem execCoefRead_keeps {who p} : KeepsCanonical (execCoefRead who p) := KeepsCanonical.next fun _ h => .ite h.readCoef.answer h
theorem execSlotBoundary_keeps {p old m} : KeepsCanonical (execSlotBoundary p old m) :=
  KeepsCanonical.next fun _ h => .ite h (.ite (.ite h.endOld h) (.ite h h.endSlot))
theorem execCancReset_keeps {who p value} : KeepsCanonical (execCancReset who p value) :=
  KeepsCanonical.next fun _ h => h.enter (fun _ h1 => h1.writeCanc)
theorem execPgaTagArrival_keeps {n code withDetect} : KeepsCanonical (execPgaTagArrival n code withDetect) :=
  KeepsCanonical.next fun _ h => .ite (.ite h.modLane.put h.modLane) (.ite h h.modLane)
theorem execTxenAssert_keeps {p} : KeepsCanonical (execTxenAssert p) := KeepsCanonical.next fun _ h => .ite h.modPort.putFlag h
theorem execTxenTailExpiry_keeps {p} : KeepsCanonical (execTxenTailExpiry p) := KeepsCanonical.next fun _ h => .ite h h.modPort.putFlag
theorem execOvercurrent_keeps {p mag samples} : KeepsCanonical (execOvercurrent p mag samples) :=
  KeepsCanonical.next fun _ h => .ite h h.cutFrames.modPort.putFlag.putFlag.setEvt
theorem execZprobeStart_keeps {who p value} : KeepsCanonical (execZprobeStart who p value) :=
  KeepsCanonical.next fun _ h => h.enter (fun _ h1 => h1.writeZprobe)
theorem execZprobeDone_keeps {p v i phase} : KeepsCanonical (execZprobeDone p v i phase) :=
  KeepsCanonical.next fun _ h => .ite h h.probeMag.put.putInt.probeEnd
theorem execPreambleDetect_keeps {n power levels} : KeepsCanonical (execPreambleDetect n power levels) :=
  KeepsCanonical.next fun _ h => .ite h (.ite h h.agcRun.holdNoise.put.putFreeze.modLane)
theorem execFofsLoad_keeps {n fofs} : KeepsCanonical (execFofsLoad n fofs) := KeepsCanonical.next fun _ h => .ite h h.putInt.putFlag
theorem execSyncSearchTimeout_keeps {n} : KeepsCanonical (execSyncSearchTimeout n) := KeepsCanonical.next fun _ h => .ite h.rest h
theorem execSyncDetect_keeps {n main shadow} : KeepsCanonical (execSyncDetect n main shadow) := by
  refine KeepsCanonical.next fun s h => ?_
  split
  · exact h.startRx
  · exact h
theorem execShadowSyncDetect_keeps {n y gain} : KeepsCanonical (execShadowSyncDetect n y gain) := by
  refine KeepsCanonical.next fun s h => ?_
  split
  · exact h
  · exact .ite h (.ite (.ite h.restartRx h) (.ite h.modLane (.ite h.restartRx h)))
theorem execHeaderEnd_keeps {n ys} : KeepsCanonical (execHeaderEnd n ys) := by
  refine KeepsCanonical.next fun s h => ?_
  split
  · exact .ite h h.demod.update.setDecPend
  · exact h
theorem execDecodeDispatch_keeps {tile} : KeepsCanonical (execDecodeDispatch tile) := by
  refine KeepsCanonical.next fun s h => ?_
  refine .ite h ?_
  split
  · exact h.update
  · exact h.update
  · exact h
theorem execHeaderDecodeDone_keeps {tile} : KeepsCanonical (execHeaderDecodeDone tile) := by
  refine KeepsCanonical.next fun s h => ?_
  split
  · exact h
  · refine .ite h ?_
    dsimp only
    split
    · exact h.update.setDecPend
    · split
      · exact .ite h.update.setDecPend.decodeHeader.headerPass h.update.setDecPend.decodeHeader.rest.outcomeEarly
      · exact h.update.setDecPend.decodeHeader.rest.outcomeEarly
theorem execPayloadEnd_keeps {n ys snr} : KeepsCanonical (execPayloadEnd n ys snr) := by
  refine KeepsCanonical.next fun s h => ?_
  split
  · exact .ite h h.demod.update.putInt.leaveRx.setDecPend
  · exact h
theorem execPayloadDecodeDone_keeps {tile} : KeepsCanonical (execPayloadDecodeDone tile) := by
  refine KeepsCanonical.next fun s h => ?_
  split
  · exact h
  · exact .ite h
      (.ite (.ite h.update.setDecPend.decode.putPacket.tellPool.outcome.toLink h.update.setDecPend.decode.putPacket.tellPool.outcome)
         h.update.setDecPend.decode.failPacket.outcome)
theorem execLaneEnable_keeps {who n value} : KeepsCanonical (execLaneEnable who n value) :=
  KeepsCanonical.next fun _ h => h.enter (fun _ h1 => h1.writeLnCfg)
theorem execMainsZeroCrossing_keeps {p t} : KeepsCanonical (execMainsZeroCrossing p t) :=
  KeepsCanonical.next fun _ h => .ite h h.moveTrim.crossing
theorem execCrossingMissed_keeps {p} : KeepsCanonical (execCrossingMissed p) :=
  KeepsCanonical.next fun _ h => .ite h
    (.ite ((State.Canonical.ite h.unlock.put.setEvt h).put.phref.acquire.setEvt)
       ((State.Canonical.ite h.unlock.put.setEvt h).put.phref.modPort.roll))
theorem execPortCycleStart_keeps {p} : KeepsCanonical (execPortCycleStart p) :=
  KeepsCanonical.next fun _ h => .ite h h.cycleSlot.applyMasks.putFlag.startCtxs
theorem execMaskArm_keeps {who n value} : KeepsCanonical (execMaskArm who n value) :=
  KeepsCanonical.next fun _ h => h.enter (fun _ h1 => h1.writeMaskLo)
theorem execNmapClear_keeps {who p value} : KeepsCanonical (execNmapClear who p value) :=
  KeepsCanonical.next fun _ h => h.enter (fun _ h1 => h1.writeNmapCfg)
theorem execNmapDataRead_keeps {who p} : KeepsCanonical (execNmapDataRead who p) :=
  KeepsCanonical.next fun _ h => .ite h.readNmap.answer h
theorem execAllocationPoint_keeps {p} : KeepsCanonical (execAllocationPoint p) :=
  KeepsCanonical.next fun _ h => .ite h
    (.ite h.count.modPort
       ((h.sweep.readItems.closeJoins.allocBeacon.allocAnswers.foldState (fun _ _ h1 => h1.allocJoin)).allocWaits.allocItems))
theorem execTxItemHeadCheck_keeps {n} : KeepsCanonical (execTxItemHeadCheck n) := KeepsCanonical.next fun _ h => .ite h.headCheck h
theorem execTxFrameStart_keeps {p ctx} : KeepsCanonical (execTxFrameStart p ctx) := by
  refine KeepsCanonical.next fun s h => ?_
  split
  · exact h
  · exact .ite h.startFrame h
theorem execTxFrameEnd_keeps {p ctx} : KeepsCanonical (execTxFrameEnd p ctx) := by
  refine KeepsCanonical.next fun s h => ?_
  split
  · exact h
  · exact .ite h.endFrame h
theorem execLaneBlockEnd_keeps {p k} : KeepsCanonical (execLaneBlockEnd p k) :=
  KeepsCanonical.next fun _ h => .ite h (h.modLane.foldState (fun _ _ h1 => .ite h1.showBlock.rest h1.showBlock))
theorem execLinkRxData_keeps : KeepsCanonical execLinkRxData := by
  refine KeepsCanonical.next fun s h => ?_
  split
  · exact h
  next f s1 heq =>
    have h1 := h.takeRx heq
    split
    · exact h1.afterRx
    · exact (State.Canonical.ite h1.rxData h1).afterRx
theorem execLinkRxAck_keeps : KeepsCanonical execLinkRxAck := by
  refine KeepsCanonical.next fun s h => ?_
  split
  · exact h
  next f s1 heq =>
    have h1 := h.takeRx heq
    split
    · exact h1.afterRx
    · exact h1.rxAck.afterRx
theorem execJoinReqRx_keeps : KeepsCanonical execJoinReqRx := by
  refine KeepsCanonical.next fun s h => ?_
  split
  · exact h
  next f s1 heq =>
    have h1 := h.takeRx heq
    split
    · exact h1.afterRx
    · exact h1.rxJoin.afterRx
theorem execJoinAckLate_keeps {p} : KeepsCanonical (execJoinAckLate p) := by
  refine KeepsCanonical.next fun s h => ?_
  split
  · exact h
  · exact .ite h h.dropJoin.count
theorem execEchoForwardRx_keeps : KeepsCanonical execEchoForwardRx := by
  refine KeepsCanonical.next fun s h => ?_
  split
  · exact h
  next f s1 heq =>
    have h1 := h.takeRx heq
    split
    · split
      · exact h1
      · exact .ite h1.update h1.update.modPort
    · exact h1
theorem execAckTimeout_keeps {tag} : KeepsCanonical (execAckTimeout tag) := by
  refine KeepsCanonical.next fun s h => ?_
  split
  · exact h
  · split
    · exact .ite h (.ite h.modCopy h.failAttempt)
    · exact h
theorem execRetryBackoffEnd_keeps {tag p} : KeepsCanonical (execRetryBackoffEnd tag p) := by
  refine KeepsCanonical.next fun s h => ?_
  split
  · exact h
  · exact h.modCopy
theorem execEpochRaise_keeps {who value} : KeepsCanonical (execEpochRaise who value) :=
  KeepsCanonical.next fun _ h => h.enter (fun _ h1 => h1.writeEpoch)
theorem execRegistryWord0Write_keeps {addr value} : KeepsCanonical (execRegistryWord0Write addr value) :=
  KeepsCanonical.next fun _ h => .ite h.writeWord0 h
theorem execLpJoinWrite_keeps {who p value} : KeepsCanonical (execLpJoinWrite who p value) :=
  KeepsCanonical.next fun _ h => h.enter (fun _ h1 => h1.writeLpJoin)
theorem execMeteringCycleEnd_keeps {v t} : KeepsCanonical (execMeteringCycleEnd v t) :=
  KeepsCanonical.next fun _ h => .ite h.voltCrossing h
theorem execForcedCycleBoundary_keeps {f} : KeepsCanonical (execForcedCycleBoundary f) :=
  KeepsCanonical.next fun _ h => .ite h.forceBoundary h
theorem execSyncResetWrite_keeps {who value} : KeepsCanonical (execSyncResetWrite who value) :=
  KeepsCanonical.next fun _ h => h.enter (fun _ h1 => h1.writeMtSync)
theorem execSyncMInput_keeps {rising} : KeepsCanonical (execSyncMInput rising) := KeepsCanonical.next fun _ h => .ite h.schedule h
theorem execSynchronisingReset_keeps : KeepsCanonical execSynchronisingReset := by
  refine KeepsCanonical.next fun s h => ?_
  split
  · exact h
  · exact .ite h.resetsTo h
theorem execSettleEnd_keeps : KeepsCanonical execSettleEnd := KeepsCanonical.next fun _ h => .ite h.settleDone h
theorem execFineqWordWrite_keeps {c} : KeepsCanonical (execFineqWordWrite c) := KeepsCanonical.next fun _ h => .ite h.flushWord h
theorem execMtSnapshotRead_keeps {who f} : KeepsCanonical (execMtSnapshotRead who f) :=
  KeepsCanonical.next fun _ h => .ite h.snapshot.answer h
theorem execBalReportPacket_keeps : KeepsCanonical execBalReportPacket :=
  KeepsCanonical.next fun _ h => .ite h
    (.ite h.readPacket.dropRest.tellPool.count (h.readPacket.dropRest.tellPool.foldState (fun _ _ h1 => h1.takeRecord)))
theorem execBalResultCommit_keeps : KeepsCanonical execBalResultCommit := by
  refine KeepsCanonical.next fun s h => ?_
  split
  · exact h
  · exact .ite h.update.putPacket.tellPool.put.setEvt.setEvt h.update.putPacket.tellPool.put.setEvt
theorem execQueueWordWrite_keeps {prod q word} : KeepsCanonical (execQueueWordWrite prod q word) :=
  KeepsCanonical.next fun _ h => .ite h.produce h
theorem execFlush_keeps {who q} : KeepsCanonical (execFlush who q) := KeepsCanonical.next fun _ h => h.enter (fun _ h1 => h1.doFlush)
theorem execDropRest_keeps {who q} : KeepsCanonical (execDropRest who q) :=
  KeepsCanonical.next fun _ h => h.enter (fun _ h1 => h1.doDropRest)
theorem execWinCfgWrite_keeps {who w value} : KeepsCanonical (execWinCfgWrite who w value) :=
  KeepsCanonical.next fun _ h => h.enter (fun _ h1 => h1.writeWinCfg)
theorem execWinDataWrite_keeps {w value} : KeepsCanonical (execWinDataWrite w value) :=
  KeepsCanonical.next fun _ h => .ite h.writeWinData h
theorem execWinDataRead_keeps {w ecc} : KeepsCanonical (execWinDataRead w ecc) := by
  refine KeepsCanonical.next fun s h => ?_
  have h1 := h.readWinData (w := w) (e := ecc)
  refine .ite h ?_
  split
  next heq => rw [heq] at h1; exact h1.setWait
  next heq => rw [heq] at h1; exact h1.setWait.answer
theorem execWinEmptyTimeout_keeps {w} : KeepsCanonical (execWinEmptyTimeout w) := by
  refine KeepsCanonical.next fun s h => ?_
  have h1 := h.readWinData (w := w) (e := .clean)
  refine .ite h ?_
  split
  next heq => rw [heq] at h1; exact h1.setWait.timeoutRead.answer
  next heq => rw [heq] at h1; exact h1.setWait.answer
theorem execWinRewind_keeps {w} : KeepsCanonical (execWinRewind w) := KeepsCanonical.next fun _ h => .ite h.rewindWin h
theorem execWinDropRest_keeps {w} : KeepsCanonical (execWinDropRest w) := KeepsCanonical.next fun _ h => .ite h.winDropRest h
theorem execWinRestart_keeps {w} : KeepsCanonical (execWinRestart w) := KeepsCanonical.next fun _ h => .ite h.winRestart h
theorem execQwmWrite_keeps {who value} : KeepsCanonical (execQwmWrite who value) :=
  KeepsCanonical.next fun _ h => h.enter (fun _ h1 => h1.writeQwm)
theorem execSramWindowRead_keeps {addr ecc} : KeepsCanonical (execSramWindowRead addr ecc) :=
  KeepsCanonical.next fun _ h => .ite h.readSram.answer h
theorem execSramWindowWrite_keeps {addr value} : KeepsCanonical (execSramWindowWrite addr value) :=
  KeepsCanonical.next fun _ h => .ite h.writeSram h
theorem execScrubRead_keeps {ecc} : KeepsCanonical (execScrubRead ecc) :=
  KeepsCanonical.next fun _ h => .ite ((State.Canonical.ite h.eccRead.tellPool.count h.eccRead.tellPool).scrubNext) h
theorem execLoadStart_keeps {who value} : KeepsCanonical (execLoadStart who value) :=
  KeepsCanonical.next fun _ h => h.enter (fun _ h1 => h1.writeFabLoad)
theorem execFabPushWrite_keeps {value} : KeepsCanonical (execFabPushWrite value) :=
  KeepsCanonical.next fun _ h => h.enter (fun _ h1 => h1.writeFabPush)
theorem execPushTimeout_keeps : KeepsCanonical execPushTimeout := KeepsCanonical.next fun _ h => .ite h.loadFailNow h
theorem execIngotVerifyDone_keeps {flash us} : KeepsCanonical (execIngotVerifyDone flash us) :=
  KeepsCanonical.next fun _ h => .ite h (.ite h.outWins.put.loadFail h.outWins.endChecks)
theorem execPartialQuiesceDone_keeps : KeepsCanonical execPartialQuiesceDone :=
  KeepsCanonical.next fun _ h => .ite h (.ite (.ite h (h.put.foldState (fun _ _ h1 => h1.cutRx))) h.put)
theorem execCastComplete_keeps {again us} : KeepsCanonical (execCastComplete again us) :=
  KeepsCanonical.next fun _ h => .ite h (.ite h.castAgain h.castDone)
theorem execPartialCastComplete_keeps {us} : KeepsCanonical (execPartialCastComplete us) :=
  KeepsCanonical.next fun _ h => .ite h.partDone h
theorem execAdd_keeps {k rd ra rb} : KeepsCanonical (execAdd k rd ra rb) := KeepsCanonical.next fun _ h => h.instr (fun _ h1 => h1.aluR)
theorem execSub_keeps {k rd ra rb} : KeepsCanonical (execSub k rd ra rb) := KeepsCanonical.next fun _ h => h.instr (fun _ h1 => h1.aluR)
theorem execAnd_keeps {k rd ra rb} : KeepsCanonical (execAnd k rd ra rb) := KeepsCanonical.next fun _ h => h.instr (fun _ h1 => h1.aluR)
theorem execOr_keeps {k rd ra rb} : KeepsCanonical (execOr k rd ra rb) := KeepsCanonical.next fun _ h => h.instr (fun _ h1 => h1.aluR)
theorem execXor_keeps {k rd ra rb} : KeepsCanonical (execXor k rd ra rb) := KeepsCanonical.next fun _ h => h.instr (fun _ h1 => h1.aluR)
theorem execShl_keeps {k rd ra rb} : KeepsCanonical (execShl k rd ra rb) := KeepsCanonical.next fun _ h => h.instr (fun _ h1 => h1.aluR)
theorem execShr_keeps {k rd ra rb} : KeepsCanonical (execShr k rd ra rb) := KeepsCanonical.next fun _ h => h.instr (fun _ h1 => h1.aluR)
theorem execAsr_keeps {k rd ra rb} : KeepsCanonical (execAsr k rd ra rb) := KeepsCanonical.next fun _ h => h.instr (fun _ h1 => h1.aluR)
theorem execClt_keeps {k rd ra rb} : KeepsCanonical (execClt k rd ra rb) := KeepsCanonical.next fun _ h => h.instr (fun _ h1 => h1.aluR)
theorem execCltu_keeps {k rd ra rb} : KeepsCanonical (execCltu k rd ra rb) := KeepsCanonical.next fun _ h => h.instr (fun _ h1 => h1.aluR)
theorem execMul_keeps {k rd ra rb} : KeepsCanonical (execMul k rd ra rb) := KeepsCanonical.next fun _ h => h.instr (fun _ h1 => h1.aluR)
theorem execMulhi_keeps {k rd ra rb} : KeepsCanonical (execMulhi k rd ra rb) :=
  KeepsCanonical.next fun _ h => h.instr (fun _ h1 => h1.aluR)
theorem execMulhiu_keeps {k rd ra rb} : KeepsCanonical (execMulhiu k rd ra rb) :=
  KeepsCanonical.next fun _ h => h.instr (fun _ h1 => h1.aluR)
theorem execMin_keeps {k rd ra rb} : KeepsCanonical (execMin k rd ra rb) := KeepsCanonical.next fun _ h => h.instr (fun _ h1 => h1.aluR)
theorem execMax_keeps {k rd ra rb} : KeepsCanonical (execMax k rd ra rb) := KeepsCanonical.next fun _ h => h.instr (fun _ h1 => h1.aluR)
theorem execAddk_keeps {k rd ra imm} : KeepsCanonical (execAddk k rd ra imm) :=
  KeepsCanonical.next fun _ h => h.instr (fun _ h1 => h1.aluI)
theorem execAndk_keeps {k rd ra imm} : KeepsCanonical (execAndk k rd ra imm) :=
  KeepsCanonical.next fun _ h => h.instr (fun _ h1 => h1.aluI)
theorem execOrk_keeps {k rd ra imm} : KeepsCanonical (execOrk k rd ra imm) := KeepsCanonical.next fun _ h => h.instr (fun _ h1 => h1.aluI)
theorem execXork_keeps {k rd ra imm} : KeepsCanonical (execXork k rd ra imm) :=
  KeepsCanonical.next fun _ h => h.instr (fun _ h1 => h1.aluI)
theorem execCltk_keeps {k rd ra imm} : KeepsCanonical (execCltk k rd ra imm) :=
  KeepsCanonical.next fun _ h => h.instr (fun _ h1 => h1.aluI)
theorem execLih_keeps {k rd imm} : KeepsCanonical (execLih k rd imm) := KeepsCanonical.next fun _ h => h.instr (fun _ h1 => h1.lih)
theorem execShlk_keeps {k rd ra sh} : KeepsCanonical (execShlk k rd ra sh) := KeepsCanonical.next fun _ h => h.instr (fun _ h1 => h1.aluI)
theorem execShrk_keeps {k rd ra sh} : KeepsCanonical (execShrk k rd ra sh) := KeepsCanonical.next fun _ h => h.instr (fun _ h1 => h1.aluI)
theorem execAsrk_keeps {k rd ra sh} : KeepsCanonical (execAsrk k rd ra sh) := KeepsCanonical.next fun _ h => h.instr (fun _ h1 => h1.aluI)
theorem execLdw_keeps {k rd ra imm ecc} : KeepsCanonical (execLdw k rd ra imm ecc) :=
  KeepsCanonical.next fun _ h => h.instr (fun _ h1 => h1.load)
theorem execLdh_keeps {k rd ra imm ecc} : KeepsCanonical (execLdh k rd ra imm ecc) :=
  KeepsCanonical.next fun _ h => h.instr (fun _ h1 => h1.load)
theorem execLdb_keeps {k rd ra imm ecc} : KeepsCanonical (execLdb k rd ra imm ecc) :=
  KeepsCanonical.next fun _ h => h.instr (fun _ h1 => h1.load)
theorem execStw_keeps {k rd ra imm} : KeepsCanonical (execStw k rd ra imm) :=
  KeepsCanonical.next fun _ h => h.instr (fun _ h1 => h1.store)
theorem execSth_keeps {k rd ra imm} : KeepsCanonical (execSth k rd ra imm) :=
  KeepsCanonical.next fun _ h => h.instr (fun _ h1 => h1.store)
theorem execStb_keeps {k rd ra imm} : KeepsCanonical (execStb k rd ra imm) :=
  KeepsCanonical.next fun _ h => h.instr (fun _ h1 => h1.store)
theorem execHeq_keeps {k ra rb off} : KeepsCanonical (execHeq k ra rb off) := KeepsCanonical.next fun _ h => h.instr (fun _ h1 => h1.hop)
theorem execHne_keeps {k ra rb off} : KeepsCanonical (execHne k ra rb off) := KeepsCanonical.next fun _ h => h.instr (fun _ h1 => h1.hop)
theorem execHlt_keeps {k ra rb off} : KeepsCanonical (execHlt k ra rb off) := KeepsCanonical.next fun _ h => h.instr (fun _ h1 => h1.hop)
theorem execHle_keeps {k ra rb off} : KeepsCanonical (execHle k ra rb off) := KeepsCanonical.next fun _ h => h.instr (fun _ h1 => h1.hop)
theorem execHltu_keeps {k ra rb off} : KeepsCanonical (execHltu k ra rb off) :=
  KeepsCanonical.next fun _ h => h.instr (fun _ h1 => h1.hop)
theorem execHleu_keeps {k ra rb off} : KeepsCanonical (execHleu k ra rb off) :=
  KeepsCanonical.next fun _ h => h.instr (fun _ h1 => h1.hop)
theorem execCall_keeps {k off} : KeepsCanonical (execCall k off) := KeepsCanonical.next fun _ h => h.instr (fun _ h1 => h1.call)
theorem execJmpr_keeps {k rd ra imm} : KeepsCanonical (execJmpr k rd ra imm) :=
  KeepsCanonical.next fun _ h => h.instr (fun _ h1 => h1.jmpr)
theorem execMula_keeps {k r1 r2 ad} : KeepsCanonical (execMula k r1 r2 ad) := KeepsCanonical.next fun _ h => h.instr (fun _ h1 => h1.mula)
theorem execMac_keeps {k r1 r2 ad} : KeepsCanonical (execMac k r1 r2 ad) := KeepsCanonical.next fun _ h => h.instr (fun _ h1 => h1.mac)
theorem execMsu_keeps {k r1 r2 ad} : KeepsCanonical (execMsu k r1 r2 ad) := KeepsCanonical.next fun _ h => h.instr (fun _ h1 => h1.msu)
theorem execMta_keeps {k r1 ad} : KeepsCanonical (execMta k r1 ad) := KeepsCanonical.next fun _ h => h.instr (fun _ h1 => h1.mta)
theorem execMfa_keeps {k r1 src sh} : KeepsCanonical (execMfa k r1 src sh) := KeepsCanonical.next fun _ h => h.instr (fun _ h1 => h1.mfa)
theorem execMfal_keeps {k r1 src} : KeepsCanonical (execMfal k r1 src) := KeepsCanonical.next fun _ h => h.instr (fun _ h1 => h1.mfal)
theorem execMfau_keeps {k r1 src} : KeepsCanonical (execMfau k r1 src) := KeepsCanonical.next fun _ h => h.instr (fun _ h1 => h1.mfau)
theorem execAclr_keeps {k ad} : KeepsCanonical (execAclr k ad) := KeepsCanonical.next fun _ h => h.instr (fun _ h1 => h1.putAcc)
theorem execPset_keeps {k r1 r2 ad} : KeepsCanonical (execPset k r1 r2 ad) := KeepsCanonical.next fun _ h => h.instr (fun _ h1 => h1.pset)
theorem execPadd_keeps {k ad src} : KeepsCanonical (execPadd k ad src) := KeepsCanonical.next fun _ h => h.instr (fun _ h1 => h1.padd)
theorem execPsub_keeps {k ad src} : KeepsCanonical (execPsub k ad src) := KeepsCanonical.next fun _ h => h.instr (fun _ h1 => h1.psub)
theorem execPscl_keeps {k r1 ad} : KeepsCanonical (execPscl k r1 ad) := KeepsCanonical.next fun _ h => h.instr (fun _ h1 => h1.pscl)
theorem execPgeth_keeps {k r1 src} : KeepsCanonical (execPgeth k r1 src) := KeepsCanonical.next fun _ h => h.instr (fun _ h1 => h1.pgeth)
theorem execPgetl_keeps {k r1 src} : KeepsCanonical (execPgetl k r1 src) := KeepsCanonical.next fun _ h => h.instr (fun _ h1 => h1.pgetl)
theorem execAmov_keeps {k ad src} : KeepsCanonical (execAmov k ad src) := KeepsCanonical.next fun _ h => h.instr (fun _ h1 => h1.putAcc)
theorem execQget_keeps {k rd ra rb ecc} : KeepsCanonical (execQget k rd ra rb ecc) :=
  KeepsCanonical.next fun _ h => h.instr (fun _ h1 => h1.qget)
theorem execQgete_keeps {k rd ra rb ecc} : KeepsCanonical (execQgete k rd ra rb ecc) :=
  KeepsCanonical.next fun _ h => h.instr (fun _ h1 => h1.qget)
theorem execQtry_keeps {k rd ra rb ecc} : KeepsCanonical (execQtry k rd ra rb ecc) :=
  KeepsCanonical.next fun _ h => h.instr (fun _ h1 => h1.qtry)
theorem execQput_keeps {k rd ra rb ecc} : KeepsCanonical (execQput k rd ra rb ecc) :=
  KeepsCanonical.next fun _ h => h.instr (fun _ h1 => h1.qput)
theorem execQrew_keeps {k rd ra} : KeepsCanonical (execQrew k rd ra) := KeepsCanonical.next fun _ h => h.instr (fun _ h1 => h1.qrew)
theorem execQlvl_keeps {k rd ra} : KeepsCanonical (execQlvl k rd ra) := KeepsCanonical.next fun _ h => h.instr (fun _ h1 => h1.qlvl)
theorem execSin_keeps {k r port} : KeepsCanonical (execSin k r port) := KeepsCanonical.next fun _ h => h.instr (fun _ h1 => h1.sin)
theorem execSout_keeps {k r port} : KeepsCanonical (execSout k r port) := KeepsCanonical.next fun _ h => h.instr (fun _ h1 => h1.sout)
theorem execWait_keeps {k rd} : KeepsCanonical (execWait k rd) := KeepsCanonical.next fun _ h => h.instr (fun _ h1 => h1.waitFor)
theorem execRdctl_keeps {k rd cix} : KeepsCanonical (execRdctl k rd cix) := KeepsCanonical.next fun _ h => h.instr (fun _ h1 => h1.rdctl)
theorem execWrctl_keeps {k ra cix} : KeepsCanonical (execWrctl k ra cix) := KeepsCanonical.next fun _ h => h.instr (fun _ h1 => h1.wrctl)
theorem execSupc_keeps {k} : KeepsCanonical (execSupc k) := KeepsCanonical.next fun _ h => h.instr (fun _ h1 => h1.supc)
theorem execHret_keeps {k} : KeepsCanonical (execHret k) := KeepsCanonical.next fun _ h => h.instr (fun _ h1 => h1.hret)
theorem execTrap_keeps {k} : KeepsCanonical (execTrap k) := KeepsCanonical.next fun _ h => h.instr (fun _ h1 => h1.raise)
theorem execSynci_keeps {k} : KeepsCanonical (execSynci k) := KeepsCanonical.next fun _ h => h.instr (fun _ h1 => h1.synci)
theorem execCoreWake_keeps {k ecc} : KeepsCanonical (execCoreWake k ecc) := KeepsCanonical.next fun _ h => .ite h.wakeCore h
theorem execInterruptEntry_keeps {k} : KeepsCanonical (execInterruptEntry k) := KeepsCanonical.next fun _ h => h.takeIrq
theorem execStreamSampleArrival_keeps {src re im} : KeepsCanonical (execStreamSampleArrival src re im) :=
  KeepsCanonical.next fun _ h => .ite h.emit h
theorem execSeqTimerExpiry_keeps {k} : KeepsCanonical (execSeqTimerExpiry k) := KeepsCanonical.next fun _ h => .ite h.timerEnd h
theorem execHalt_keeps {who k} : KeepsCanonical (execHalt who k) := KeepsCanonical.next fun _ h => h.enter (fun _ h1 => h1.writeSeqCtl)
theorem execResume_keeps {who k} : KeepsCanonical (execResume who k) :=
  KeepsCanonical.next fun _ h => h.enter (fun _ h1 => h1.writeSeqCtl)
theorem execRestart_keeps {who k} : KeepsCanonical (execRestart who k) :=
  KeepsCanonical.next fun _ h => h.enter (fun _ h1 => h1.writeSeqCtl)
theorem execKick_keeps {who k} : KeepsCanonical (execKick who k) := KeepsCanonical.next fun _ h => h.enter (fun _ h1 => h1.writeSeqCtl)
theorem execStep_keeps {who k ecc} : KeepsCanonical (execStep who k ecc) :=
  KeepsCanonical.next fun _ h => h.enter (fun _ h1 => h1.stepCore)
theorem execSeqLaneWrite_keeps {who k value} : KeepsCanonical (execSeqLaneWrite who k value) :=
  KeepsCanonical.next fun _ h => h.enter (fun _ h1 => h1.writeSeqLane)
theorem execRead_keeps {addr count eccs mirror cut} : KeepsCanonical (execRead addr count eccs mirror cut) :=
  KeepsCanonical.next fun _ h => .ite h (.ite h.protoErr.drive ((State.Canonical.ite h.readWords.readCut h.readWords).drive))
theorem execWrite_keeps {addr words} : KeepsCanonical (execWrite addr words) :=
  KeepsCanonical.next fun _ h => .ite h (.ite h.protoErr (.ite h h.writeWords))
theorem execStatus_keeps {cmd addr count} : KeepsCanonical (execStatus cmd addr count) :=
  KeepsCanonical.next fun _ h => .ite h (.ite h.drive h.protoErr.drive)
theorem execRingEnable_keeps {who value} : KeepsCanonical (execRingEnable who value) :=
  KeepsCanonical.next fun _ h => h.enter (fun _ h1 => h1.writeHpCfg)
theorem execDoorbell_keeps {who value} : KeepsCanonical (execDoorbell who value) :=
  KeepsCanonical.next fun _ h => h.enter (fun _ h1 => h1.writeDb)
theorem execCplHeadWrite_keeps {who value} : KeepsCanonical (execCplHeadWrite who value) :=
  KeepsCanonical.next fun _ h => h.enter (fun _ h1 => h1.writeCplHead)
theorem execEvHeadWrite_keeps {who value} : KeepsCanonical (execEvHeadWrite who value) :=
  KeepsCanonical.next fun _ h => h.enter (fun _ h1 => h1.writeEvHead)
theorem execIrqCoalesceTimeout_keeps {events} : KeepsCanonical (execIrqCoalesceTimeout events) :=
  KeepsCanonical.next fun _ h => .ite (.ite h.update h) (.ite h.update h)
theorem execSend_keeps : KeepsCanonical execSend := KeepsCanonical.next fun _ h => h.takeDesc (fun _ _ h1 => h1.takeSend)
theorem execBroadcast_keeps : KeepsCanonical execBroadcast := KeepsCanonical.next fun _ h => h.takeDesc (fun _ _ h1 => h1.takeBcast)
theorem execReadMt_keeps : KeepsCanonical execReadMt := KeepsCanonical.next fun _ h => h.takeDesc (fun _ _ h1 => h1.takeReadMt)
theorem execRadioSendLink_keeps : KeepsCanonical execRadioSendLink :=
  KeepsCanonical.next fun _ h => h.takeDesc (fun _ _ h1 => h1.radioLink)
theorem execRadioSendFlood_keeps : KeepsCanonical execRadioSendFlood :=
  KeepsCanonical.next fun _ h => h.takeDesc (fun _ _ h1 => h1.radioFlood)
theorem execUartSend_keeps : KeepsCanonical execUartSend := KeepsCanonical.next fun _ h => h.takeDesc (fun _ _ h1 => h1.uartSend)
theorem execControl_keeps : KeepsCanonical execControl := KeepsCanonical.next fun _ h => h.takeDesc (fun _ _ h1 => h1.runControl)
theorem execAbort_keeps : KeepsCanonical execAbort := KeepsCanonical.next fun _ h => h.takeDesc (fun _ _ h1 => h1.takeAbort)
theorem execRadioEnable_keeps {who value} : KeepsCanonical (execRadioEnable who value) :=
  KeepsCanonical.next fun _ h => h.enter (fun _ h1 => h1.gate.writeRfCfg)
theorem execLinkArm_keeps {who c value} : KeepsCanonical (execLinkArm who c value) :=
  KeepsCanonical.next fun _ h => h.enter (fun _ h1 => h1.writeRfLcfg)
theorem execRadioBeaconTx_keeps : KeepsCanonical execRadioBeaconTx :=
  KeepsCanonical.next fun _ h => .ite h
    (.ite h.nextBeacon
       (.ite h.rfDefer.nextBeacon
          (.ite h.free.free.rfSeal.nextBeacon (.ite h.free.free.rfSeal.rfSend.nextBeacon.update h.free.free.rfSeal.rfSend.nextBeacon))))
theorem execRfSyncDetect_keeps {y} : KeepsCanonical (execRfSyncDetect y) := KeepsCanonical.next fun _ h => .ite h.rfBegin h
theorem execFloodForward_keeps {now} : KeepsCanonical (execFloodForward now) := by
  refine KeepsCanonical.next fun s h => ?_
  refine .ite h ?_
  split
  · exact h
  · exact .ite h (.ite h.rfDefer (.ite h.free.rfSeal.update h.free.rfSeal.rfSend))
theorem execLinkEvent_keeps {c now} : KeepsCanonical (execLinkEvent c now) :=
  KeepsCanonical.next fun _ h => .ite h (.ite (.ite h.rfStep h.rfStep.leaderEvent) (.ite h.rfStep.rfMiss h.rfStep.rfCut.update.rfShow))
theorem execLinkWindowClose_keeps {c} : KeepsCanonical (execLinkWindowClose c) := by
  refine KeepsCanonical.next fun s h => ?_
  refine .ite ?_ h
  split
  · exact h.update
  · exact h.rfEndEvent.rfMiss
theorem execSupervision_keeps {c} : KeepsCanonical (execSupervision c) := KeepsCanonical.next fun _ h => .ite h.endLink h
theorem execScanChannelTimeout_keeps {c} : KeepsCanonical (execScanChannelTimeout c) := KeepsCanonical.next fun _ h => .ite h.modRlink h
theorem execMapSetArm_keeps {who c value} : KeepsCanonical (execMapSetArm who c value) :=
  KeepsCanonical.next fun _ h => h.enter (fun _ h1 => h1.writeRfLmap)
theorem execMapSetResend_keeps {c} : KeepsCanonical (execMapSetResend c) := by
  refine KeepsCanonical.next fun s h => ?_
  split
  · exact h
  · exact .ite h.mapItem h
theorem execLastGasp_keeps {now} : KeepsCanonical (execLastGasp now) := by
  refine KeepsCanonical.next fun s h => ?_
  refine .ite h ?_
  split
  · exact h
  · exact h.startFlood
theorem execSniffListen_keeps : KeepsCanonical execSniffListen := KeepsCanonical.next fun _ h => .ite h.put.update h
theorem execSniffDetect_keeps : KeepsCanonical execSniffDetect :=
  KeepsCanonical.next fun _ h => .ite h (.ite h.update.ironEvt.wake.wakeEvent h.update)
theorem execFalseWake_keeps : KeepsCanonical execFalseWake := KeepsCanonical.next fun _ h => .ite h.count.update h
theorem execUartCharRx_keeps {u bits early near} : KeepsCanonical (execUartCharRx u bits early near) :=
  KeepsCanonical.next fun _ h => .ite h (.ite h.padOpen.modUart.uaBreak (.ite h.padOpen.modUart h.padOpen.modUart.uaChar))
theorem execUartBreak_keeps {u} : KeepsCanonical (execUartBreak u) := KeepsCanonical.next fun _ h => .ite h h.modUart.uaBreak
theorem execLineStuck_keeps {u} : KeepsCanonical (execLineStuck u) :=
  KeepsCanonical.next fun _ h => .ite h (.ite h.putFlag.setEvt.uaWord h.putFlag.setEvt)
theorem execLineStuckClear_keeps {u} : KeepsCanonical (execLineStuckClear u) :=
  KeepsCanonical.next fun _ h => .ite h.putFlag.putFlag.modUart h
theorem execAutobaudMeasure_keeps {u t edgesOk} : KeepsCanonical (execAutobaudMeasure u t edgesOk) :=
  KeepsCanonical.next fun _ h => .ite h (.ite h.putFlag.abDiv.put.put.uaStore.putFlag.setEvt h.putFlag.abDiv.count.setEvt)
theorem execUartRxTimeout_keeps {u} : KeepsCanonical (execUartRxTimeout u) :=
  KeepsCanonical.next fun _ h => .ite h (.ite h.modUart.putFlag.uaWord h.modUart.putFlag)
theorem execUaCfgWrite_keeps {who u value} : KeepsCanonical (execUaCfgWrite who u value) :=
  KeepsCanonical.next fun _ h => h.enter (fun _ h1 => h1.writeUaCfg)
theorem execBaudWrite_keeps {who u value} : KeepsCanonical (execBaudWrite who u value) :=
  KeepsCanonical.next fun _ h => h.enter (fun _ h1 => h1.writeUaBaud)
theorem execUartTxCharDone_keeps {u} : KeepsCanonical (execUartTxCharDone u) := by
  refine KeepsCanonical.next fun s h => ?_
  split
  · exact h
  · exact (State.Canonical.ite h.modUart.putFlag.putFlag h.modUart.putFlag).uaFinish.uaFlow.uaKick
theorem execUdeTailExpiry_keeps {u} : KeepsCanonical (execUdeTailExpiry u) := KeepsCanonical.next fun _ h => .ite h.putFlag h
theorem execCtSet_keeps {who value} : KeepsCanonical (execCtSet who value) :=
  KeepsCanonical.next fun _ h => h.enter (fun _ h1 => h1.writeCtl)
theorem execCtClr_keeps {who value} : KeepsCanonical (execCtClr who value) :=
  KeepsCanonical.next fun _ h => h.enter (fun _ h1 => h1.writeCtl)
theorem execCtPairWrite_keeps {who value} : KeepsCanonical (execCtPairWrite who value) :=
  KeepsCanonical.next fun _ h => h.enter (fun _ h1 => h1.writeCtCfg)
theorem execCtOcfgWrite_keeps {who o value} : KeepsCanonical (execCtOcfgWrite who o value) :=
  KeepsCanonical.next fun _ h => h.enter (fun _ h1 => h1.writeCtCfg)
theorem execDeadTimeExpiry_keeps {i} : KeepsCanonical (execDeadTimeExpiry i) := KeepsCanonical.next fun _ h => .ite h.update.relevel h
theorem execGuardTrip_keeps {first clocks} : KeepsCanonical (execGuardTrip first clocks) :=
  KeepsCanonical.next fun _ h => .ite h.modClocks h
theorem execTripClear_keeps {who value} : KeepsCanonical (execTripClear who value) :=
  KeepsCanonical.next fun _ h => h.enter (fun _ h1 => h1.writeCtTrip)
theorem execFbMismatch_keeps {o} : KeepsCanonical (execFbMismatch o) :=
  KeepsCanonical.next fun _ h => .ite (.ite h.update.setEvt h.update) h
theorem execDinEdge_keeps {i raw} : KeepsCanonical (execDinEdge i raw) :=
  KeepsCanonical.next fun _ h => .ite (h.foldState (fun _ _ h1 => h1.dinSample)) h
theorem execDlimLevelWrite_keeps {who value} : KeepsCanonical (execDlimLevelWrite who value) :=
  KeepsCanonical.next fun _ h => h.enter (fun _ h1 => h1.writeDlim)
theorem execPresenceAssert_keeps : KeepsCanonical execPresenceAssert :=
  KeepsCanonical.next fun _ h => .ite h.putFlag.openWindow.wake h.putFlag
theorem execPresenceRelease_keeps : KeepsCanonical execPresenceRelease := KeepsCanonical.next fun _ h => h.putFlag.update
theorem execPresenceWindowExpiry_keeps : KeepsCanonical execPresenceWindowExpiry := KeepsCanonical.next fun _ h => .ite h.closeWindow h
theorem execPresenceClose_keeps {value} : KeepsCanonical (execPresenceClose value) :=
  KeepsCanonical.next fun _ h => h.enter (fun _ h1 => h1.writeWdPres)
theorem execDebugUnlock_keeps {value} : KeepsCanonical (execDebugUnlock value) :=
  KeepsCanonical.next fun _ h => h.enter (fun _ h1 => h1.writePolicy)
theorem execWdSlotRead_keeps : KeepsCanonical execWdSlotRead := KeepsCanonical.next fun _ h => .ite h.readSlot.answer h
theorem execKeyLoad_keeps : KeepsCanonical execKeyLoad := KeepsCanonical.next fun _ h => h.mbxRun (fun _ h1 => h1.loadSlot)
theorem execKeyUnwrap_keeps : KeepsCanonical execKeyUnwrap := by
  refine KeepsCanonical.next fun s h => ?_
  refine State.Canonical.mbxRun h ?_
  intro _ h1
  split
  · exact h1
  · exact h1.loadSlot
theorem execKeyWrap_keeps : KeepsCanonical execKeyWrap :=
  KeepsCanonical.next fun _ h => h.mbxRun fun _ h1 => State.Canonical.of_snd h1.putMbxData
theorem execKeyGen_keeps : KeepsCanonical execKeyGen :=
  KeepsCanonical.next fun _ h => h.mbxRun (fun _ h1 => .ite_snd h1.free.newScalar.loadSlot.putMbxData h1.free.freeBytes.loadSlot)
theorem execKeyErase_keeps : KeepsCanonical execKeyErase := KeepsCanonical.next fun _ h => h.mbxRun (fun _ h1 => h1.eraseKey)
theorem execPubkey_keeps : KeepsCanonical execPubkey := KeepsCanonical.next fun _ h => h.mbxRun (fun _ h1 => h1.putMbxData)
theorem execCtrRaise_keeps : KeepsCanonical execCtrRaise :=
  KeepsCanonical.next fun _ h => h.mbxRun (fun _ h1 => .ite h1.setSlot.setEvtWith h1.setSlot)
theorem execAttest_keeps : KeepsCanonical execAttest :=
  KeepsCanonical.next fun _ h => h.mbxRun (fun _ h1 => .ite_snd h1.putMbxData h1.signDigest.putMbxData.putMbxData)
theorem execSelftest_keeps {cause} : KeepsCanonical (execSelftest cause) :=
  KeepsCanonical.next fun _ h => h.mbxRun (fun _ h1 => .ite_snd h1.setEvt h1.quarantine)
theorem execZeroise_keeps : KeepsCanonical execZeroise :=
  KeepsCanonical.next fun _ h => h.mbxRun fun _ h1 => State.Canonical.of_snd h1.eraseAll
theorem execRootSet_keeps {readback} : KeepsCanonical (execRootSet readback) :=
  KeepsCanonical.next fun _ h => h.mbxRun (fun _ h1 => h1.modOtp.otpDone)
theorem execFloorSet_keeps {readback} : KeepsCanonical (execFloorSet readback) :=
  KeepsCanonical.next fun _ h => h.mbxRun (fun _ h1 => h1.modOtp.otpDone)
theorem execWindowSet_keeps {readback} : KeepsCanonical (execWindowSet readback) :=
  KeepsCanonical.next fun _ h => h.mbxRun (fun _ h1 => h1.modOtp.otpDone)
theorem execLifeBurn_keeps {readback} : KeepsCanonical (execLifeBurn readback) :=
  KeepsCanonical.next fun _ h => h.mbxRun (fun _ h1 => h1.modOtp.otpDone)
theorem execMaintEnter_keeps : KeepsCanonical execMaintEnter := KeepsCanonical.next fun _ h => h.mbxRun (fun _ h1 => h1.toMaintenance)
theorem execTestEnter_keeps : KeepsCanonical execTestEnter :=
  KeepsCanonical.next fun _ h => h.mbxRun (fun _ h1 => h1.eraseAll.leaveOutage)
theorem execMbxDone_keeps : KeepsCanonical execMbxDone := by
  refine KeepsCanonical.next fun s h => ?_
  split
  · exact h.mbxEnd
  · exact .ite h (.ite h.mbxEnd h.mbxEnd)
  · exact h
theorem execGcmEnc_keeps : KeepsCanonical execGcmEnc := KeepsCanonical.next fun _ h => h.takeCipher
theorem execGcmDec_keeps : KeepsCanonical execGcmDec := KeepsCanonical.next fun _ h => h.takeCipher
theorem execCcmEnc_keeps : KeepsCanonical execCcmEnc := KeepsCanonical.next fun _ h => h.takeCipher
theorem execCcmDec_keeps : KeepsCanonical execCcmDec := KeepsCanonical.next fun _ h => h.takeCipher
theorem execCmacGen_keeps : KeepsCanonical execCmacGen := KeepsCanonical.next fun _ h => h.takeCipher
theorem execCmacVer_keeps : KeepsCanonical execCmacVer := KeepsCanonical.next fun _ h => h.takeCipher
theorem execSha256_keeps : KeepsCanonical execSha256 := KeepsCanonical.next fun _ h => h.takeCipher
theorem execEcdsaSign_keeps : KeepsCanonical execEcdsaSign := KeepsCanonical.next fun _ h => h.takeCipher
theorem execEcdsaVer_keeps : KeepsCanonical execEcdsaVer := KeepsCanonical.next fun _ h => h.takeCipher
theorem execEcdh_keeps : KeepsCanonical execEcdh := KeepsCanonical.next fun _ h => h.takeCipher
theorem execKdf_keeps : KeepsCanonical execKdf := KeepsCanonical.next fun _ h => h.takeCipher
theorem execRandom_keeps : KeepsCanonical execRandom := KeepsCanonical.next fun _ h => h.takeCipher
theorem execCipherEngineEntry_keeps : KeepsCanonical execCipherEngineEntry := by
  refine KeepsCanonical.next fun s h => ?_
  split
  · exact h
  · split
    · exact h
    next j _ =>
      have h1 := h.takeCounter (i := j.slot)
      refine .ite h.failJob (.ite h.failJob (.ite ?_ h.modJob))
      split
      next heq => rw [heq] at h1; exact h1.failJob
      next heq => rw [heq] at h1; exact h1.modJob
theorem execCipherJobDone_keeps : KeepsCanonical execCipherJobDone := by
  refine KeepsCanonical.next fun s h => ?_
  refine .ite h ?_
  split
  · exact h
  · split
    · exact h.failJob
    · exact .ite h.engine.passJob h.engine.failJob
theorem execPowerUpSelftestDone_keeps : KeepsCanonical execPowerUpSelftestDone := by
  refine KeepsCanonical.next fun s h => ?_
  refine .ite h ?_
  dsimp only
  split
  · exact h.put.setEvt
  · exact h.put.setEvt.beginLoad
theorem execHealthTestFail_keeps {cause} : KeepsCanonical (execHealthTestFail cause) := KeepsCanonical.next fun _ h => .ite h.quarantine h
theorem execVironPowerOn_keeps {role testEn} : KeepsCanonical (execVironPowerOn role testEn) :=
  KeepsCanonical.next fun _ _ => State.Canonical.reset.update.latchStraps
theorem execRstNAssert_keeps : KeepsCanonical execRstNAssert := KeepsCanonical.next fun _ h => .ite h.resetPin h
theorem execRstNRelease_keeps {role testEn} : KeepsCanonical (execRstNRelease role testEn) :=
  KeepsCanonical.next fun _ h => .ite h h.update.latchStraps.tryBoot
theorem execSupplyInRange_keeps : KeepsCanonical execSupplyInRange := by
  refine KeepsCanonical.next fun s h => ?_
  dsimp only
  split
  · exact h.put
  · exact .ite h.put h.put.enterAssay
theorem execBrownout_keeps {supply} : KeepsCanonical (execBrownout supply) := KeepsCanonical.next fun _ h => .ite h.brownout h
theorem execX32Proven_keeps : KeepsCanonical execX32Proven := KeepsCanonical.next fun _ h => .ite h.putFlag h
theorem execX32Fail_keeps : KeepsCanonical execX32Fail := KeepsCanonical.next fun _ h => .ite h h.putFlag.ironEvt
theorem execPllLock_keeps : KeepsCanonical execPllLock := KeepsCanonical.next fun _ h => .ite h h.putFlag.putFlag.putFlag
theorem execClockIdleStop_keeps : KeepsCanonical execClockIdleStop :=
  KeepsCanonical.next fun _ h => .ite h (.ite h.putFlag.putFlag h.putFlag.putFlag.putFlag)
theorem execModeRequest_keeps {who value} : KeepsCanonical (execModeRequest who value) :=
  KeepsCanonical.next fun _ h => h.enter (fun _ h1 => h1.writeSysCtl)
theorem execFullSelect_keeps {who value} : KeepsCanonical (execFullSelect who value) :=
  KeepsCanonical.next fun _ h => h.enter (fun _ h1 => h1.writeSysCtl)
theorem execMainsSenseEdge_keeps {rising t} : KeepsCanonical (execMainsSenseEdge rising t) :=
  KeepsCanonical.next fun _ h => .ite h
    (.ite ((State.Canonical.ite h.lateEdge.lateFeeders.stepCycle h).halfPeriod.riseRun)
       ((State.Canonical.ite h.lateEdge.lateFeeders.stepCycle h).halfPeriod))
theorem execMainsLoss_keeps {t} : KeepsCanonical (execMainsLoss t) := KeepsCanonical.next fun _ h => .ite h.mainsLost h
theorem execOutageTimeout_keeps : KeepsCanonical execOutageTimeout := KeepsCanonical.next fun _ h => .ite h.outageEnd h
theorem execTempMeasure_keeps {temp} : KeepsCanonical (execTempMeasure temp) :=
  KeepsCanonical.next fun _ h => .ite h
    (.ite h.putInt (.ite h.putInt.putFlag.enterMode.setEvt (.ite h.putInt.putFlag.applyRate.setEvt h.putInt)))
theorem execRtcAlarm_keeps : KeepsCanonical execRtcAlarm := KeepsCanonical.next fun _ h => .ite h.alarmHit h
theorem execHeartbeatTx_keeps : KeepsCanonical execHeartbeatTx := KeepsCanonical.next fun _ h => .ite h.post h
theorem execHeartbeatRx_keeps {b} : KeepsCanonical (execHeartbeatRx b) := KeepsCanonical.next fun _ h => .ite h.beat h
theorem execHeartbeatMiss_keeps : KeepsCanonical execHeartbeatMiss :=
  KeepsCanonical.next fun _ h => .ite h (.ite h.update.put.loseLink h.update.put)
theorem execLinkFrameCrcFail_keeps {inWindow} : KeepsCanonical (execLinkFrameCrcFail inWindow) :=
  KeepsCanonical.next fun _ h => .ite h (.ite h.count.loseLink h.count)
theorem execReplicaWriteRx_keeps {index part value} : KeepsCanonical (execReplicaWriteRx index part value) :=
  KeepsCanonical.next fun _ h => .ite h (.ite h.update h.readSpan.setPart)
theorem execForwardedFrameRx_keeps {fr} : KeepsCanonical (execForwardedFrameRx fr) := KeepsCanonical.next fun _ h => .ite h.update h
theorem execHandoffRx_keeps {number tag desc body} : KeepsCanonical (execHandoffRx number tag desc body) :=
  KeepsCanonical.next fun _ h => .ite h.takeHandoff h
theorem execSyncMarkSend_keeps : KeepsCanonical execSyncMarkSend := KeepsCanonical.next fun _ h => .ite h.sendMark h
theorem execSyncMarkConfirm_keeps {cycle} : KeepsCanonical (execSyncMarkConfirm cycle) :=
  KeepsCanonical.next fun _ h => .ite h (.ite h.pin.post (.ite h.pin h))
theorem execBufqRecordReplay_keeps {rec live} : KeepsCanonical (execBufqRecordReplay rec live) :=
  KeepsCanonical.next fun _ h => .ite h (.ite (.ite h.farRecord (.ite h.healLead h)) (.ite (.ite h.healFollower (.ite h.bufPop h)) h))
theorem execPromote_keeps {value} : KeepsCanonical (execPromote value) :=
  KeepsCanonical.next fun _ h => .ite h.writeAlCtl (h.enter (fun _ h1 => h1.writeAlCtl))
theorem execCounterOverflow_keeps {k occ} : KeepsCanonical (execCounterOverflow k occ) := KeepsCanonical.next fun _ h => .ite h h.tell
theorem execPmSnapshot_keeps {who value} : KeepsCanonical (execPmSnapshot who value) :=
  KeepsCanonical.next fun _ h => h.enter (fun _ h1 => h1.writeSnap)
theorem execPmCtrLoWrite_keeps {who k value} : KeepsCanonical (execPmCtrLoWrite who k value) :=
  KeepsCanonical.next fun _ h => h.enter (fun _ h1 => h1.writeCtrLo)
theorem execPmCtrHiWrite_keeps {who k value} : KeepsCanonical (execPmCtrHiWrite who k value) :=
  KeepsCanonical.next fun _ h => h.enter (fun _ h1 => h1.writeCtrHi)
theorem execPmCtrLoRead_keeps {who k} : KeepsCanonical (execPmCtrLoRead who k) := KeepsCanonical.next fun _ h => .ite h.readCtrLo.answer h
theorem execRfTxEnd_keeps : KeepsCanonical execRfTxEnd := by
  refine KeepsCanonical.next fun s h => ?_
  refine .ite h ?_
  refine State.Canonical.kickFloods ?_
  split
  · exact h.update.rfShow.endFlood
  · exact h.update.rfShow.update
  · split
    · exact .ite h.update.rfShow ((State.Canonical.ite h.update.rfShow h.update.rfShow.rfEndOf).dropOn.endItem)
    · exact h.update.rfShow
  · exact h.update.rfShow.rfEndOf
  · exact h.update.rfShow.endLink
  · exact h.update.rfShow.modRlink
  · exact h.update.rfShow
theorem execLinkEventEnd_keeps {c} : KeepsCanonical (execLinkEventEnd c) := KeepsCanonical.next fun _ h => .ite h.rfEndOf.failItem h
theorem execConnAckTimeout_keeps {c} : KeepsCanonical (execConnAckTimeout c) := KeepsCanonical.next fun _ h => .ite h.connFailed h

/-- Whatever the command, its next state is in canonical form where the state was. -/
theorem exec_keeps (c : Instr) : KeepsCanonical (exec c) := by
  cases c with
  | registerWrite => exact execRegisterWrite_keeps
  | holeAccess => exact execHoleAccess_keeps
  | rcCounterRead => exact execRcCounterRead_keeps
  | seqLpendRead => exact execSeqLpendRead_keeps
  | rtcRead => exact execRtcRead_keeps
  | swapRequest => exact execSwapRequest_keeps
  | fadeComplete => exact execFadeComplete_keeps
  | coefWrite => exact execCoefWrite_keeps
  | coefRead => exact execCoefRead_keeps
  | slotBoundary => exact execSlotBoundary_keeps
  | cancReset => exact execCancReset_keeps
  | pgaTagArrival => exact execPgaTagArrival_keeps
  | txenAssert => exact execTxenAssert_keeps
  | txenTailExpiry => exact execTxenTailExpiry_keeps
  | overcurrent => exact execOvercurrent_keeps
  | zprobeStart => exact execZprobeStart_keeps
  | zprobeDone => exact execZprobeDone_keeps
  | preambleDetect => exact execPreambleDetect_keeps
  | fofsLoad => exact execFofsLoad_keeps
  | syncSearchTimeout => exact execSyncSearchTimeout_keeps
  | syncDetect => exact execSyncDetect_keeps
  | shadowSyncDetect => exact execShadowSyncDetect_keeps
  | headerEnd => exact execHeaderEnd_keeps
  | decodeDispatch => exact execDecodeDispatch_keeps
  | headerDecodeDone => exact execHeaderDecodeDone_keeps
  | payloadEnd => exact execPayloadEnd_keeps
  | payloadDecodeDone => exact execPayloadDecodeDone_keeps
  | laneEnable => exact execLaneEnable_keeps
  | mainsZeroCrossing => exact execMainsZeroCrossing_keeps
  | crossingMissed => exact execCrossingMissed_keeps
  | portCycleStart => exact execPortCycleStart_keeps
  | maskArm => exact execMaskArm_keeps
  | nmapClear => exact execNmapClear_keeps
  | nmapDataRead => exact execNmapDataRead_keeps
  | allocationPoint => exact execAllocationPoint_keeps
  | txItemHeadCheck => exact execTxItemHeadCheck_keeps
  | txFrameStart => exact execTxFrameStart_keeps
  | txFrameEnd => exact execTxFrameEnd_keeps
  | laneBlockEnd => exact execLaneBlockEnd_keeps
  | linkRxData => exact execLinkRxData_keeps
  | linkRxAck => exact execLinkRxAck_keeps
  | joinReqRx => exact execJoinReqRx_keeps
  | joinAckLate => exact execJoinAckLate_keeps
  | echoForwardRx => exact execEchoForwardRx_keeps
  | ackTimeout => exact execAckTimeout_keeps
  | retryBackoffEnd => exact execRetryBackoffEnd_keeps
  | epochRaise => exact execEpochRaise_keeps
  | registryWord0Write => exact execRegistryWord0Write_keeps
  | lpJoinWrite => exact execLpJoinWrite_keeps
  | meteringCycleEnd => exact execMeteringCycleEnd_keeps
  | forcedCycleBoundary => exact execForcedCycleBoundary_keeps
  | syncResetWrite => exact execSyncResetWrite_keeps
  | syncMInput => exact execSyncMInput_keeps
  | synchronisingReset => exact execSynchronisingReset_keeps
  | settleEnd => exact execSettleEnd_keeps
  | fineqWordWrite => exact execFineqWordWrite_keeps
  | mtSnapshotRead => exact execMtSnapshotRead_keeps
  | balReportPacket => exact execBalReportPacket_keeps
  | balResultCommit => exact execBalResultCommit_keeps
  | queueWordWrite => exact execQueueWordWrite_keeps
  | flush => exact execFlush_keeps
  | dropRest => exact execDropRest_keeps
  | winCfgWrite => exact execWinCfgWrite_keeps
  | winDataWrite => exact execWinDataWrite_keeps
  | winDataRead => exact execWinDataRead_keeps
  | winEmptyTimeout => exact execWinEmptyTimeout_keeps
  | winRewind => exact execWinRewind_keeps
  | winDropRest => exact execWinDropRest_keeps
  | winRestart => exact execWinRestart_keeps
  | qwmWrite => exact execQwmWrite_keeps
  | sramWindowRead => exact execSramWindowRead_keeps
  | sramWindowWrite => exact execSramWindowWrite_keeps
  | scrubRead => exact execScrubRead_keeps
  | loadStart => exact execLoadStart_keeps
  | fabPushWrite => exact execFabPushWrite_keeps
  | pushTimeout => exact execPushTimeout_keeps
  | ingotVerifyDone => exact execIngotVerifyDone_keeps
  | partialQuiesceDone => exact execPartialQuiesceDone_keeps
  | castComplete => exact execCastComplete_keeps
  | partialCastComplete => exact execPartialCastComplete_keeps
  | add => exact execAdd_keeps
  | sub => exact execSub_keeps
  | and_ => exact execAnd_keeps
  | or_ => exact execOr_keeps
  | xor_ => exact execXor_keeps
  | shl => exact execShl_keeps
  | shr => exact execShr_keeps
  | asr => exact execAsr_keeps
  | clt => exact execClt_keeps
  | cltu => exact execCltu_keeps
  | mul => exact execMul_keeps
  | mulhi => exact execMulhi_keeps
  | mulhiu => exact execMulhiu_keeps
  | min => exact execMin_keeps
  | max => exact execMax_keeps
  | addk => exact execAddk_keeps
  | andk => exact execAndk_keeps
  | ork => exact execOrk_keeps
  | xork => exact execXork_keeps
  | cltk => exact execCltk_keeps
  | lih => exact execLih_keeps
  | shlk => exact execShlk_keeps
  | shrk => exact execShrk_keeps
  | asrk => exact execAsrk_keeps
  | ldw => exact execLdw_keeps
  | ldh => exact execLdh_keeps
  | ldb => exact execLdb_keeps
  | stw => exact execStw_keeps
  | sth => exact execSth_keeps
  | stb => exact execStb_keeps
  | heq => exact execHeq_keeps
  | hne => exact execHne_keeps
  | hlt => exact execHlt_keeps
  | hle => exact execHle_keeps
  | hltu => exact execHltu_keeps
  | hleu => exact execHleu_keeps
  | call => exact execCall_keeps
  | jmpr => exact execJmpr_keeps
  | mula => exact execMula_keeps
  | mac => exact execMac_keeps
  | msu => exact execMsu_keeps
  | mta => exact execMta_keeps
  | mfa => exact execMfa_keeps
  | mfal => exact execMfal_keeps
  | mfau => exact execMfau_keeps
  | aclr => exact execAclr_keeps
  | pset => exact execPset_keeps
  | padd => exact execPadd_keeps
  | psub => exact execPsub_keeps
  | pscl => exact execPscl_keeps
  | pgeth => exact execPgeth_keeps
  | pgetl => exact execPgetl_keeps
  | amov => exact execAmov_keeps
  | qget => exact execQget_keeps
  | qgete => exact execQgete_keeps
  | qtry => exact execQtry_keeps
  | qput => exact execQput_keeps
  | qrew => exact execQrew_keeps
  | qlvl => exact execQlvl_keeps
  | sin => exact execSin_keeps
  | sout => exact execSout_keeps
  | wait => exact execWait_keeps
  | rdctl => exact execRdctl_keeps
  | wrctl => exact execWrctl_keeps
  | supc => exact execSupc_keeps
  | hret => exact execHret_keeps
  | trap => exact execTrap_keeps
  | synci => exact execSynci_keeps
  | coreWake => exact execCoreWake_keeps
  | interruptEntry => exact execInterruptEntry_keeps
  | streamSampleArrival => exact execStreamSampleArrival_keeps
  | seqTimerExpiry => exact execSeqTimerExpiry_keeps
  | halt => exact execHalt_keeps
  | resume => exact execResume_keeps
  | restart => exact execRestart_keeps
  | kick => exact execKick_keeps
  | step => exact execStep_keeps
  | seqLaneWrite => exact execSeqLaneWrite_keeps
  | read => exact execRead_keeps
  | write => exact execWrite_keeps
  | status => exact execStatus_keeps
  | ringEnable => exact execRingEnable_keeps
  | doorbell => exact execDoorbell_keeps
  | cplHeadWrite => exact execCplHeadWrite_keeps
  | evHeadWrite => exact execEvHeadWrite_keeps
  | irqCoalesceTimeout => exact execIrqCoalesceTimeout_keeps
  | send => exact execSend_keeps
  | broadcast => exact execBroadcast_keeps
  | readMt => exact execReadMt_keeps
  | radioSendLink => exact execRadioSendLink_keeps
  | radioSendFlood => exact execRadioSendFlood_keeps
  | uartSend => exact execUartSend_keeps
  | control => exact execControl_keeps
  | abort => exact execAbort_keeps
  | radioEnable => exact execRadioEnable_keeps
  | linkArm => exact execLinkArm_keeps
  | radioBeaconTx => exact execRadioBeaconTx_keeps
  | rfSyncDetect => exact execRfSyncDetect_keeps
  | rfBeaconRx r => exact execRfBeaconRx_keeps r
  | connReqRx r => exact execConnReqRx_keeps r
  | connAckRx r => exact execConnAckRx_keeps r
  | rfDataRx r => exact execRfDataRx_keeps r
  | rfAckRx r => exact execRfAckRx_keeps r
  | rfNackRx r => exact execRfNackRx_keeps r
  | mapSetRx r => exact execMapSetRx_keeps r
  | disconnectRx r => exact execDisconnectRx_keeps r
  | floodRx r => exact execFloodRx_keeps r
  | floodForward => exact execFloodForward_keeps
  | linkEvent => exact execLinkEvent_keeps
  | linkWindowClose => exact execLinkWindowClose_keeps
  | supervision => exact execSupervision_keeps
  | scanChannelTimeout => exact execScanChannelTimeout_keeps
  | mapSetArm => exact execMapSetArm_keeps
  | mapSetResend => exact execMapSetResend_keeps
  | lastGasp => exact execLastGasp_keeps
  | sniffListen => exact execSniffListen_keeps
  | sniffDetect => exact execSniffDetect_keeps
  | falseWake => exact execFalseWake_keeps
  | uartCharRx => exact execUartCharRx_keeps
  | uartBreak => exact execUartBreak_keeps
  | lineStuck => exact execLineStuck_keeps
  | lineStuckClear => exact execLineStuckClear_keeps
  | autobaudMeasure => exact execAutobaudMeasure_keeps
  | uartRxTimeout => exact execUartRxTimeout_keeps
  | uaCfgWrite => exact execUaCfgWrite_keeps
  | baudWrite => exact execBaudWrite_keeps
  | uartTxCharDone => exact execUartTxCharDone_keeps
  | udeTailExpiry => exact execUdeTailExpiry_keeps
  | ctSet => exact execCtSet_keeps
  | ctClr => exact execCtClr_keeps
  | ctPairWrite => exact execCtPairWrite_keeps
  | ctOcfgWrite => exact execCtOcfgWrite_keeps
  | deadTimeExpiry => exact execDeadTimeExpiry_keeps
  | guardTrip => exact execGuardTrip_keeps
  | tripClear => exact execTripClear_keeps
  | fbMismatch => exact execFbMismatch_keeps
  | dinEdge => exact execDinEdge_keeps
  | dlimLevelWrite => exact execDlimLevelWrite_keeps
  | presenceAssert => exact execPresenceAssert_keeps
  | presenceRelease => exact execPresenceRelease_keeps
  | presenceWindowExpiry => exact execPresenceWindowExpiry_keeps
  | presenceClose => exact execPresenceClose_keeps
  | debugUnlock => exact execDebugUnlock_keeps
  | wdSlotRead => exact execWdSlotRead_keeps
  | keyLoad => exact execKeyLoad_keeps
  | keyUnwrap => exact execKeyUnwrap_keeps
  | keyWrap => exact execKeyWrap_keeps
  | keyGen => exact execKeyGen_keeps
  | keyErase => exact execKeyErase_keeps
  | pubkey => exact execPubkey_keeps
  | ctrRaise => exact execCtrRaise_keeps
  | attest => exact execAttest_keeps
  | selftest => exact execSelftest_keeps
  | zeroise => exact execZeroise_keeps
  | rootSet => exact execRootSet_keeps
  | floorSet => exact execFloorSet_keeps
  | windowSet => exact execWindowSet_keeps
  | lifeBurn => exact execLifeBurn_keeps
  | maintEnter => exact execMaintEnter_keeps
  | testEnter => exact execTestEnter_keeps
  | mbxDone => exact execMbxDone_keeps
  | gcmEnc => exact execGcmEnc_keeps
  | gcmDec => exact execGcmDec_keeps
  | ccmEnc => exact execCcmEnc_keeps
  | ccmDec => exact execCcmDec_keeps
  | cmacGen => exact execCmacGen_keeps
  | cmacVer => exact execCmacVer_keeps
  | sha256 => exact execSha256_keeps
  | ecdsaSign => exact execEcdsaSign_keeps
  | ecdsaVer => exact execEcdsaVer_keeps
  | ecdh => exact execEcdh_keeps
  | kdf => exact execKdf_keeps
  | random => exact execRandom_keeps
  | cipherEngineEntry => exact execCipherEngineEntry_keeps
  | cipherJobDone => exact execCipherJobDone_keeps
  | powerUpSelftestDone => exact execPowerUpSelftestDone_keeps
  | healthTestFail => exact execHealthTestFail_keeps
  | vironPowerOn => exact execVironPowerOn_keeps
  | rstNAssert => exact execRstNAssert_keeps
  | rstNRelease => exact execRstNRelease_keeps
  | supplyInRange => exact execSupplyInRange_keeps
  | brownout => exact execBrownout_keeps
  | x32Proven => exact execX32Proven_keeps
  | x32Fail => exact execX32Fail_keeps
  | pllLock => exact execPllLock_keeps
  | clockIdleStop => exact execClockIdleStop_keeps
  | modeRequest => exact execModeRequest_keeps
  | fullSelect => exact execFullSelect_keeps
  | mainsSenseEdge => exact execMainsSenseEdge_keeps
  | mainsLoss => exact execMainsLoss_keeps
  | outageTimeout => exact execOutageTimeout_keeps
  | tempMeasure => exact execTempMeasure_keeps
  | rtcAlarm => exact execRtcAlarm_keeps
  | heartbeatTx => exact execHeartbeatTx_keeps
  | heartbeatRx => exact execHeartbeatRx_keeps
  | heartbeatMiss => exact execHeartbeatMiss_keeps
  | linkFrameCrcFail => exact execLinkFrameCrcFail_keeps
  | replicaWriteRx => exact execReplicaWriteRx_keeps
  | forwardedFrameRx => exact execForwardedFrameRx_keeps
  | handoffRx => exact execHandoffRx_keeps
  | syncMarkSend => exact execSyncMarkSend_keeps
  | syncMarkConfirm => exact execSyncMarkConfirm_keeps
  | bufqRecordReplay => exact execBufqRecordReplay_keeps
  | promote => exact execPromote_keeps
  | counterOverflow => exact execCounterOverflow_keeps
  | pmSnapshot => exact execPmSnapshot_keeps
  | pmCtrLoWrite => exact execPmCtrLoWrite_keeps
  | pmCtrHiWrite => exact execPmCtrHiWrite_keeps
  | pmCtrLoRead => exact execPmCtrLoRead_keeps
  | rfTxEnd => exact execRfTxEnd_keeps
  | linkEventEnd => exact execLinkEventEnd_keeps
  | connAckTimeout => exact execConnAckTimeout_keeps

/-- Settles O57: every command's effect (`exec_keeps`), and the idle tick, keeps both maps in canonical form. -/
theorem stepKeepsCanonicalForm : Obligations.StepKeepsCanonicalForm := by
  intro s t h hs
  unfold step at hs
  split at hs
  · cases hs
    exact h.idleTick
  · exact exec_keeps _ _ _ h.update hs

end Sys2Proof.Machine

/-! PROOFS. Integer instructions, hops and accumulator instructions of a core (O26, O27, O28). -/

namespace Sys2Proof.Machine

/-! ### Rules for the registers and accumulators of a core -/

theorem State.sr_of_val_zero (s : State) (k : Nat) {i : Sreg} (h : i.val = 0) : s.sr k i = 0 := if_pos h

theorem State.sr_setSr (s : State) (k : Nat) (i j : Sreg) (v : Word) :
    (s.setSr k i v).sr k j = if j = i ∧ i.val ≠ 0 then v else s.sr k j := by
  unfold State.setSr
  split
  next h => simp [h]
  next h =>
    simp only [State.sr, State.core_modCore, if_true, mget_mset, ← Fin.ext_iff]
    by_cases hji : j = i
    · subst hji; simp [h]
    · simp [hji]

theorem State.sr_setSr_self (s : State) (k : Nat) (i : Sreg) (v : Word) : (s.setSr k i v).sr k i = if i.val = 0 then 0 else v := by
  rw [State.sr_setSr]
  by_cases h : i.val = 0 <;> simp [h, State.sr_of_val_zero]

theorem State.sr_setSr_ne (s : State) (k : Nat) {i j : Sreg} (v : Word) (h : j ≠ i) : (s.setSr k i v).sr k j = s.sr k j := by
  simp [State.sr_setSr, h]

theorem State.sr_setAcc (s : State) (k : Nat) (i : AccN) (v : Int) (j : Sreg) : (s.setAcc k i v).sr k j = s.sr k j := by
  simp [State.sr, State.setAcc, State.core_modCore]

theorem State.acc_setSr (s : State) (k : Nat) (i : Sreg) (v : Word) (a : AccN) : (s.setSr k i v).acc k a = s.acc k a := by
  unfold State.setSr State.acc
  split
  · rfl
  · rw [State.core_modCore, if_pos rfl]

theorem State.acc_setReg (s : State) (b : Nat) (v : Word) (k : Nat) (a : AccN) : (s.setReg b v).acc k a = s.acc k a := by
  rw [State.acc, State.acc, State.core_setReg]

theorem State.acc_setAcc_ne (s : State) (k : Nat) {i j : AccN} (v : Int) (h : j ≠ i) : (s.setAcc k i v).acc k j = s.acc k j := by
  simp [State.acc, State.setAcc, State.core_modCore, mget_mset, ← Fin.ext_iff, h]

/-- A value of 48 bits is kept by an accumulator (R183). -/
theorem State.acc_setAcc_self (s : State) (k : Nat) (i : AccN) {v : Int} (h : -2 ^ 47 ≤ v) (h' : v < 2 ^ 47) :
    (s.setAcc k i v).acc k i = v := by
  simp only [State.acc, State.setAcc, State.core_modCore, if_true, mget_mset_self]
  exact BitVec.toInt_ofInt_eq_self (by decide) h h'

@[simp] theorem State.reg_setSr (s : State) (k : Nat) (i : Sreg) (v : Word) (a : Nat) : (s.setSr k i v).reg a = s.reg a := by
  unfold State.setSr; split <;> simp

@[simp] theorem State.reg_setAcc (s : State) (k : Nat) (i : AccN) (v : Int) (a : Nat) : (s.setAcc k i v).reg a = s.reg a := State.reg_modCore ..

@[simp] theorem State.irq_setAcc (s : State) (k : Nat) (i : AccN) (v : Int) (j : Nat) : ((s.setAcc k i v).core j).irq = (s.core j).irq := by
  rw [State.setAcc, State.core_modCore]; split
  next h => rw [h]
  next => rfl

theorem State.reg_advance_pc (s : State) (k : Nat) : (s.advance k).reg (SEQ_PC k) = s.reg (SEQ_PC k) + 4 := State.reg_setReg_self ..

theorem State.sr_advance (s : State) (k : Nat) (i : Sreg) : (s.advance k).sr k i = s.sr k i := State.sr_setReg ..

theorem State.acc_advance (s : State) (k : Nat) (a : AccN) : (s.advance k).acc k a = s.acc k a := State.acc_setReg ..

/-! ### What leaves all but a core's registers alone -/

theorem RegsBut.refl (l : List Nat) (s : State) : RegsBut l s s := fun _ _ => rfl

theorem RegsBut.trans {l : List Nat} {s t u : State} (h : RegsBut l s t) (h' : RegsBut l t u) : RegsBut l s u :=
  fun a ha => (h' a ha).trans (h a ha)

theorem RegsBut.setReg (s : State) {l : List Nat} {a : Nat} (v : Word) (h : a ∈ l) : RegsBut l s (s.setReg a v) :=
  fun _ hb => State.reg_setReg_ne _ _ (fun he => hb (he ▸ h))

theorem Frame.refl (l : List Comp) (s : State) : Frame l s s := fun c _ => by
  cases c
  case poison => exact ⟨rfl, rfl⟩
  all_goals rfl

theorem CoreBut.refl (k : Nat) (l : List Nat) (s : State) : CoreBut k l s s :=
  ⟨fun _ _ => rfl, ⟨(s.core k).s, (s.core k).a, rfl⟩, RegsBut.refl l s, Frame.refl _ s⟩

theorem CoreBut.trans {k : Nat} {l : List Nat} {s t u : State} (h : CoreBut k l s t) (h' : CoreBut k l t u) : CoreBut k l s u := by
  obtain ⟨hc, ⟨x, y, hk⟩, hr, hf⟩ := h
  obtain ⟨hc', ⟨x', y', hk'⟩, hr', hf'⟩ := h'
  exact ⟨fun j hj => (hc' j hj).trans (hc j hj), ⟨x', y', by rw [hk', hk]⟩, hr.trans hr', hf.trans hf'⟩

theorem CoreBut.setReg (s : State) (k : Nat) {l : List Nat} {a : Nat} (v : Word) (h : a ∈ l) : CoreBut k l s (s.setReg a v) :=
  ⟨fun _ _ => State.core_setReg .., ⟨(s.core k).s, (s.core k).a, State.core_setReg ..⟩, RegsBut.setReg s v h,
    (Frame.setReg s a v).mono (by decide)⟩

theorem CoreBut.setAcc (s : State) (k : Nat) (l : List Nat) (i : AccN) (v : Int) : CoreBut k l s (s.setAcc k i v) :=
  ⟨fun j hj => by rw [State.setAcc, State.core_modCore, if_neg hj], ⟨(s.core k).s, _, by rw [State.setAcc, State.core_modCore, if_pos rfl]⟩,
    fun a _ => State.reg_setAcc s k i v a, (Frame.modCore s k _).mono (by decide)⟩

theorem CoreBut.setSr (s : State) (k : Nat) (l : List Nat) (i : Sreg) (v : Word) : CoreBut k l s (s.setSr k i v) := by
  unfold State.setSr
  split
  · exact CoreBut.refl k l s
  · exact ⟨fun j hj => by rw [State.core_modCore, if_neg hj], ⟨_, (s.core k).a, by rw [State.core_modCore, if_pos rfl]⟩,
      fun a _ => State.reg_modCore .., (Frame.modCore s k _).mono (by decide)⟩

theorem CoreBut.advance (s : State) (k : Nat) {l : List Nat} (h : SEQ_PC k ∈ l) : CoreBut k l s (s.advance k) := CoreBut.setReg s k _ h

theorem CoreBut.retire (s : State) (k : Nat) {l : List Nat} (rd : Sreg) (v : Word) (h : SEQ_PC k ∈ l) : CoreBut k l s (s.retire k rd v) :=
  (CoreBut.setSr s k l rd v).trans (CoreBut.advance _ k h)

/-! ### The integer instructions (R182) -/

theorem State.sr_retire_self (s : State) (k : Nat) (rd : Sreg) (v : Word) : (s.retire k rd v).sr k rd = if rd.val = 0 then 0 else v := by
  rw [State.retire, State.sr_advance, State.sr_setSr_self]

theorem State.sr_retire_ne (s : State) (k : Nat) {rd j : Sreg} (v : Word) (h : j ≠ rd) : (s.retire k rd v).sr k j = s.sr k j := by
  rw [State.retire, State.sr_advance, State.sr_setSr_ne _ _ _ h]

theorem State.acc_retire (s : State) (k : Nat) (rd : Sreg) (v : Word) (a : AccN) : (s.retire k rd v).acc k a = s.acc k a := by
  rw [State.retire, State.acc_advance, State.acc_setSr]

theorem State.pc_retire (s : State) (k : Nat) (rd : Sreg) (v : Word) : (s.retire k rd v).reg (SEQ_PC k) = s.reg (SEQ_PC k) + 4 := by
  rw [State.retire, State.reg_advance_pc, State.reg_setSr]

/-- An instruction that retires RD with a value computes it and does nothing else. -/
theorem exec_of_retire {i : Instr} {k : Core} {w : Nat} {e : Ecc} {g : State → State} {s u : State} {rd : Sreg} {v : Word}
    (hx : ∀ s, exec i s = .next (s.instr k w e g)) (hw : seqWord i = some (k, w)) (h : Fetched i k s u)
    (hg : g u = u.retire k.val rd v) :
    ∃ t, exec i s = .next t ∧ t.sr k.val rd = (if rd.val = 0 then 0 else v) ∧
      (∀ j : Sreg, j ≠ rd → t.sr k.val j = u.sr k.val j) ∧ (∀ a : AccN, t.acc k.val a = u.acc k.val a) ∧
      t.reg (SEQ_PC k.val) = u.reg (SEQ_PC k.val) + 4 ∧ CoreBut k.val [SEQ_PC k.val] u t :=
  ⟨u.retire k.val rd v, hg ▸ exec_of_fetched_quiet hx hw h (by rw [hg, State.irq_retire]), State.sr_retire_self ..,
    fun _ hj => State.sr_retire_ne _ _ _ hj, State.acc_retire _ _ _ _, State.pc_retire .., CoreBut.retire _ _ _ _ (by simp)⟩

theorem shiftBy_shAmt (sh : ShAmt) : shiftBy (BitVec.ofNat 32 sh.val) = sh.val := by
  have := sh.isLt
  rw [shiftBy, BitVec.toNat_ofNat]; omega

/-- Settles O26: every listed instruction retires RD with its result. -/
theorem integerInstructionsWriteRd : Obligations.IntegerInstructionsWriteRd := by
  unfold Obligations.IntegerInstructionsWriteRd
  refine ⟨?_, fun k s => rfl⟩
  rintro k rd ra rb imm sh s u x y i v rfl rfl h hi
  simp only [List.mem_cons, Prod.mk.injEq, List.not_mem_nil, or_false] at hi
  rcases hi with ⟨rfl, rfl⟩ | ⟨rfl, rfl⟩ | ⟨rfl, rfl⟩ | ⟨rfl, rfl⟩ | ⟨rfl, rfl⟩ | ⟨rfl, rfl⟩ | ⟨rfl, rfl⟩ | ⟨rfl, rfl⟩ | ⟨rfl, rfl⟩ |
    ⟨rfl, rfl⟩ | ⟨rfl, rfl⟩ | ⟨rfl, rfl⟩ | ⟨rfl, rfl⟩ | ⟨rfl, rfl⟩ | ⟨rfl, rfl⟩ | ⟨rfl, rfl⟩ | ⟨rfl, rfl⟩ | ⟨rfl, rfl⟩ | ⟨rfl, rfl⟩ |
    ⟨rfl, rfl⟩ | ⟨rfl, rfl⟩ | ⟨rfl, rfl⟩ | ⟨rfl, rfl⟩ | ⟨rfl, rfl⟩
  iterate 21 exact exec_of_retire (fun _ => rfl) rfl h rfl
  · exact exec_of_retire (fun _ => rfl) rfl h (by rw [State.aluI, opShl, shiftBy_shAmt])
  · exact exec_of_retire (fun _ => rfl) rfl h (by rw [State.aluI, opShr, shiftBy_shAmt])
  · exact exec_of_retire (fun _ => rfl) rfl h (by rw [State.aluI, opAsr, shiftBy_shAmt])

/-! ### Hops, CALL and JMPR (R182) -/

theorem shiftLeft_two (x : Word) : x <<< 2 = 4 * x := by
  apply BitVec.eq_of_toNat_eq
  rw [BitVec.toNat_shiftLeft, BitVec.toNat_mul, Nat.shiftLeft_eq, Nat.mul_comm]
  rfl

theorem State.reg_hopBy_pc (s : State) (k : Nat) (off : Word) : (s.hopBy k off).reg (SEQ_PC k) = s.reg (SEQ_PC k) + 4 * off := by
  rw [State.hopBy, State.reg_setReg_self, shiftLeft_two]

/-- A hop only moves the PC: by its offset if its condition holds, and by 4 if not. -/
theorem State.hop_eq (s : State) (k : Core) (ra rb : Sreg) (off : Half) (c : Word → Word → Bool) :
    s.hop k ra rb off c = s.setReg (SEQ_PC k.val)
      (if c (s.sr k.val ra) (s.sr k.val rb) then s.reg (SEQ_PC k.val) + 4 * off.signExtend 32 else s.reg (SEQ_PC k.val) + 4) := by
  unfold State.hop
  split
  · rw [State.hopBy, shiftLeft_two]; rfl
  · rfl

theorem exec_of_hop {i : Instr} {k : Core} {w : Nat} {e : Ecc} {g : State → State} {s u : State} {ra rb : Sreg} {off : Half}
    {f : Word → Word → Bool} {c : Prop} [Decidable c] (hx : ∀ s, exec i s = .next (s.instr k w e g)) (hw : seqWord i = some (k, w))
    (h : Fetched i k s u) (hg : g u = u.hop k ra rb off f) (hc : c ↔ f (u.sr k.val ra) (u.sr k.val rb) = true) :
    ∃ t, exec i s = .next t ∧
      t.reg (SEQ_PC k.val) = (if c then u.reg (SEQ_PC k.val) + 4 * off.signExtend 32 else u.reg (SEQ_PC k.val) + 4) ∧
      (∀ j : Sreg, t.sr k.val j = u.sr k.val j) ∧ (∀ a : AccN, t.acc k.val a = u.acc k.val a) ∧ CoreBut k.val [SEQ_PC k.val] u t := by
  have hx' := exec_of_fetched_quiet hx hw h (by rw [hg, State.hop_eq, State.core_setReg])
  rw [hg, State.hop_eq] at hx'
  exact ⟨_, hx', by simp only [State.reg_setReg_self, hc], fun _ => State.sr_setReg .., fun _ => State.acc_setReg ..,
    CoreBut.setReg u k.val _ (by simp)⟩

theorem State.jmpr_of_aligned {s : State} {k : Core} {rd ra : Sreg} {imm : Half}
    (h : (s.sr k.val ra + imm.signExtend 32).toNat % 4 = 0) :
    s.jmpr k rd ra imm = (s.setSr k.val rd (s.reg (SEQ_PC k.val) + 4)).setReg (SEQ_PC k.val) (s.sr k.val ra + imm.signExtend 32) :=
  if_neg (fun hn => hn h)

theorem State.jmpr_of_misaligned {s : State} {k : Core} {rd ra : Sreg} {imm : Half}
    (h : (s.sr k.val ra + imm.signExtend 32).toNat % 4 ≠ 0) :
    s.jmpr k rd ra imm = s.raise k.val 3 (s.sr k.val ra + imm.signExtend 32).toNat := if_pos h

/-- Settles O27: a hop is `State.hop` under its comparison; CALL and JMPR write the link and the PC. -/
theorem hopsCallAndJmprMoveThePc : Obligations.HopsCallAndJmprMoveThePc := by
  unfold Obligations.HopsCallAndJmprMoveThePc
  refine ⟨?_, ?_, ?_⟩
  · rintro k ra rb off s u x y i c _ h rfl rfl (⟨rfl, hc⟩ | ⟨rfl, hc⟩ | ⟨rfl, hc⟩ | ⟨rfl, hc⟩ | ⟨rfl, hc⟩ | ⟨rfl, hc⟩)
    · exact exec_of_hop (fun _ => rfl) rfl h rfl (hc.trans decide_eq_true_iff.symm)
    · exact exec_of_hop (fun _ => rfl) rfl h rfl (hc.trans decide_eq_true_iff.symm)
    · exact exec_of_hop (fun _ => rfl) rfl h rfl (hc.trans decide_eq_true_iff.symm)
    · exact exec_of_hop (fun _ => rfl) rfl h rfl (hc.trans decide_eq_true_iff.symm)
    · exact exec_of_hop (fun _ => rfl) rfl h rfl (hc.trans decide_eq_true_iff.symm)
    · exact exec_of_hop (fun _ => rfl) rfl h rfl (hc.trans decide_eq_true_iff.symm)
  · intro k off s u h
    refine ⟨u.call k off, exec_of_fetched_quiet (fun _ => rfl) rfl h (by rw [State.call, State.hopBy, State.core_setReg, State.irq_setSr]),
      ?_, ?_, fun j hj => ?_, fun a => ?_, (CoreBut.setSr u k.val _ 31 _).trans (CoreBut.setReg _ k.val _ (by simp))⟩
    · rw [State.call, State.reg_hopBy_pc, State.reg_setSr]
    · rw [State.call, State.hopBy, State.sr_setReg, State.sr_setSr_self]; rfl
    · rw [State.call, State.hopBy, State.sr_setReg, State.sr_setSr_ne _ _ _ hj]
    · rw [State.call, State.hopBy, State.acc_setReg, State.acc_setSr]
  · rintro k rd ra imm s u a h rfl
    refine ⟨fun ha => ?_, fun ha => ⟨_, exec_of_fetched_quiet (fun _ => rfl) rfl h ?_, ?_⟩⟩
    · rw [exec_of_fetched_quiet (fun _ => rfl) rfl h (by rw [State.jmpr_of_misaligned ha, State.irq_raise]), State.jmpr_of_misaligned ha]
    · rw [State.jmpr_of_aligned ha, State.core_setReg, State.irq_setSr]
    · rw [State.jmpr_of_aligned ha]
      exact ⟨State.reg_setReg_self .., by rw [State.sr_setReg, State.sr_setSr_self],
        fun j hj => by rw [State.sr_setReg, State.sr_setSr_ne _ _ _ hj], fun b => by rw [State.acc_setReg, State.acc_setSr],
        (CoreBut.setSr u k.val _ rd _).trans (CoreBut.setReg _ k.val _ (by simp))⟩

/-! ### The accumulator instructions (R183) -/

theorem putBits_putBits (x hi lo v w : Nat) (h : lo ≤ hi + 1) : putBits (putBits x hi lo v) hi lo w = putBits x hi lo w := by
  rw [putBits, bits_putBits_same _ _ _ _ h, putBits, Nat.add_sub_cancel, putBits]

/-- Of two values put into a field the second stands. -/
theorem State.reg_put_put (s : State) (f : Fld) (v w : Nat) (h : f.lo ≤ f.hi + 1) (h' : f.hi < 32) (a : Nat) :
    ((s.put f v).put f w).reg a = (s.put f w).reg a := by
  by_cases ha : a = f.addr
  · subst ha
    apply BitVec.eq_of_toNat_eq
    rw [toNat_put _ _ _ h h', toNat_put _ _ _ h h', toNat_put _ _ _ h h', putBits_putBits _ _ _ _ _ h]
  · rw [State.reg_put_ne _ _ _ ha, State.reg_put_ne _ _ _ ha, State.reg_put_ne _ _ _ ha]

/-- A number of `w` bits in two's complement. -/
theorem sgn_range (w x : Nat) (h : 0 < w) : -2 ^ (w - 1) ≤ sgn w x ∧ sgn w x < 2 ^ (w - 1) := by
  have hw : 2 ^ w = 2 * 2 ^ (w - 1) := by rw [← pow_succ']; congr 1; omega
  have hx := Nat.mod_lt x (Nat.two_pow_pos w)
  have hc : ((2 ^ w : Nat) : Int) = 2 ^ w := by push_cast; rfl
  have hd : ((2 ^ (w - 1) : Nat) : Int) = 2 ^ (w - 1) := by push_cast; rfl
  simp only [sgn, ← hc, ← hd]
  split <;> omega

theorem unsgn_eq (w : Nat) (x : Int) : ((unsgn w x : Nat) : Int) = x % 2 ^ w :=
  Int.toNat_of_nonneg (Int.emod_nonneg _ (by positivity))

theorem op24_range (x : Word) : -2 ^ 23 ≤ op24 x ∧ op24 x < 2 ^ 23 := sgn_range 24 x.toNat (by decide)

/-- The product of two 24-bit operands fits an accumulator. -/
theorem State.product_range (s : State) (k : Nat) (r1 r2 : Sreg) : -2 ^ 47 ≤ s.product k r1 r2 ∧ s.product k r1 r2 < 2 ^ 47 := by
  obtain ⟨h1, h2⟩ := op24_range (s.sr k r1)
  obtain ⟨h3, h4⟩ := op24_range (s.sr k r2)
  rw [State.product]
  constructor <;> nlinarith

theorem State.acc_range (s : State) (k : Nat) (a : AccN) : -2 ^ 47 ≤ s.acc k a ∧ s.acc k a < 2 ^ 47 :=
  ⟨BitVec.le_toInt _, BitVec.toInt_lt⟩

theorem accPair_range (hi lo : Int) : -2 ^ 47 ≤ accPair hi lo ∧ accPair hi lo < 2 ^ 47 := sgn_range 48 _ (by decide)

theorem unsgn_sgn {w x : Nat} (h : x < 2 ^ w) : unsgn w (sgn w x) = x := by
  have hc : ((2 ^ w : Nat) : Int) = 2 ^ w := by push_cast; rfl
  zify
  rw [unsgn_eq, sgn, Nat.mod_eq_of_lt h, ← hc]
  split
  · exact Int.emod_eq_of_lt (by omega) (by omega)
  · rw [Int.sub_emod_right]; exact Int.emod_eq_of_lt (by omega) (by omega)

theorem sgn_unsgn {w : Nat} {x : Int} (h : 0 < w) (hx : -2 ^ (w - 1) ≤ x) (hx' : x < 2 ^ (w - 1)) : sgn w (unsgn w x) = x := by
  have hw : 2 ^ w = 2 * 2 ^ (w - 1) := by rw [← pow_succ']; congr 1; omega
  have hc : ((2 ^ w : Nat) : Int) = 2 ^ w := by push_cast; rfl
  have hd : ((2 ^ (w - 1) : Nat) : Int) = 2 ^ (w - 1) := by push_cast; rfl
  have hp := Nat.two_pow_pos (w - 1)
  have hu := unsgn_eq w x
  rw [← hd] at hx hx'
  rw [← hc] at hu
  by_cases hn : 0 ≤ x
  · rw [Int.emod_eq_of_lt hn (by omega)] at hu
    rw [sgn, Nat.mod_eq_of_lt (by omega)]
    exact (if_pos (by omega)).trans hu
  · rw [← Int.add_emod_right, Int.emod_eq_of_lt (by omega) (by omega)] at hu
    rw [sgn, Nat.mod_eq_of_lt (by omega)]
    exact (if_neg (by omega)).trans (by omega)

theorem unsgn_lt (w : Nat) (x : Int) : unsgn w x < 2 ^ w := by
  zify; rw [unsgn_eq]; exact Int.emod_lt_of_pos _ (by positivity)

/-- Two halves of 24 bits are read from the accumulator they were packed in. -/
theorem unsgn_accPair (hi lo : Int) : unsgn 48 (accPair hi lo) = unsgn 24 hi * 2 ^ 24 + unsgn 24 lo := by
  have h1 := unsgn_lt 24 hi
  have h2 := unsgn_lt 24 lo
  exact unsgn_sgn (by omega)

theorem accHi_accPair {hi : Int} (lo : Int) (h : -2 ^ 23 ≤ hi) (h' : hi < 2 ^ 23) : accHi (accPair hi lo) = hi := by
  have hl := unsgn_lt 24 lo
  rw [accHi, unsgn_accPair, show (unsgn 24 hi * 2 ^ 24 + unsgn 24 lo) / 2 ^ 24 = unsgn 24 hi by omega]
  exact sgn_unsgn (by decide) h h'

theorem accLo_accPair (hi : Int) {lo : Int} (h : -2 ^ 23 ≤ lo) (h' : lo < 2 ^ 23) : accLo (accPair hi lo) = lo := by
  rw [accLo, unsgn_accPair, sgn, Nat.mul_add_mod_self_right, ← sgn]
  exact sgn_unsgn (by decide) h h'

theorem sat_eq_self {w : Nat} {x : Int} : sat w x = x ↔ ¬ (x < -satMax w ∨ satMax w < x) := by
  simp only [sat, clampInt]
  split
  · omega
  · split <;> omega

theorem sat_range {w : Nat} (x : Int) (hw : 0 ≤ satMax w) : -satMax w ≤ sat w x ∧ sat w x ≤ satMax w := by
  simp only [sat, clampInt]
  split
  · omega
  · split <;> omega

theorem State.markSat_of_sat {s : State} {k w : Nat} {x : Int} (h : sat w x = x) : s.markSat k w x = s := if_pos h

theorem State.markSat_of_limited {s : State} {k w : Nat} {x : Int} (h : sat w x ≠ x) :
    s.markSat k w x = s.putFlag (SEQ_STAT.ACC_SAT k) true := if_neg h

@[simp] theorem State.core_markSat (s : State) (k w : Nat) (x : Int) (j : Nat) : (s.markSat k w x).core j = s.core j := by
  unfold State.markSat; split
  · rfl
  · exact State.core_putFlag ..

theorem State.reg_markSat_ne (s : State) (k w : Nat) (x : Int) {a : Nat} (h : a ≠ SEQ_STAT k) : (s.markSat k w x).reg a = s.reg a := by
  unfold State.markSat; split
  · rfl
  · exact State.reg_put_ne _ _ _ h

theorem State.reg_markSat (s : State) (k w : Nat) (x : Int) :
    (s.markSat k w x).reg (SEQ_STAT k) = if sat w x ≠ x then (s.putFlag (SEQ_STAT.ACC_SAT k) true).reg (SEQ_STAT k) else s.reg (SEQ_STAT k) := by
  unfold State.markSat; split <;> simp [*]

theorem State.sr_markSat (s : State) (k w : Nat) (x : Int) (j : Nat) (i : Sreg) : (s.markSat k w x).sr j i = s.sr j i := by
  rw [State.sr, State.sr, State.core_markSat]

theorem State.acc_markSat (s : State) (k w : Nat) (x : Int) (j : Nat) (i : AccN) : (s.markSat k w x).acc j i = s.acc j i := by
  rw [State.acc, State.acc, State.core_markSat]

theorem CoreBut.markSat (s : State) (k w : Nat) (x : Int) {l : List Nat} (h : SEQ_STAT k ∈ l) : CoreBut k l s (s.markSat k w x) := by
  unfold State.markSat; split
  · exact CoreBut.refl k l s
  · exact CoreBut.setReg s k _ h

theorem CoreBut.putAcc (s : State) (k : Core) {l : List Nat} (ad : AccN) (x : Int) (h : SEQ_PC k.val ∈ l) :
    CoreBut k.val l s (s.putAcc k ad x) := (CoreBut.setAcc s k.val l ad x).trans (CoreBut.advance _ k.val h)

theorem SEQ_STAT_ne_pc (k : Nat) : SEQ_STAT k ≠ SEQ_PC k := by simp only [SEQ_STAT, SEQ_PC]; omega

theorem State.pc_putAcc (s : State) (k : Core) (ad : AccN) (x : Int) : (s.putAcc k ad x).reg (SEQ_PC k.val) = s.reg (SEQ_PC k.val) + 4 := by
  rw [State.putAcc, State.reg_advance_pc, State.reg_setAcc]

theorem State.reg_putAcc_ne (s : State) (k : Core) (ad : AccN) (x : Int) {a : Nat} (h : a ≠ SEQ_PC k.val) :
    (s.putAcc k ad x).reg a = s.reg a := by
  rw [State.putAcc, State.advance, State.reg_setReg_ne _ _ h, State.reg_setAcc]

theorem State.sr_putAcc (s : State) (k : Core) (ad : AccN) (x : Int) (j : Sreg) : (s.putAcc k ad x).sr k.val j = s.sr k.val j := by
  rw [State.putAcc, State.sr_advance, State.sr_setAcc]

theorem State.acc_putAcc_ne (s : State) (k : Core) {ad a : AccN} (x : Int) (h : a ≠ ad) : (s.putAcc k ad x).acc k.val a = s.acc k.val a := by
  rw [State.putAcc, State.acc_advance, State.acc_setAcc_ne _ _ _ h]

theorem State.acc_putAcc_self (s : State) (k : Core) (ad : AccN) {x : Int} (h : -2 ^ 47 ≤ x ∧ x < 2 ^ 47) :
    (s.putAcc k ad x).acc k.val ad = x := by
  rw [State.putAcc, State.acc_advance, State.acc_setAcc_self _ _ _ h.1 h.2]

@[simp] theorem State.irq_putAcc (s : State) (k : Core) (ad : AccN) (x : Int) (j : Nat) :
    ((s.putAcc k ad x).core j).irq = (s.core j).irq := by
  rw [State.putAcc, State.core_advance, State.irq_setAcc]

/-- An exact result goes to its accumulator and nowhere else. -/
theorem exec_of_putAcc {i : Instr} {k : Core} {w : Nat} {e : Ecc} {g : State → State} {s u : State} {ad : AccN} {x : Int}
    (hx : ∀ s, exec i s = .next (s.instr k w e g)) (hw : seqWord i = some (k, w)) (h : Fetched i k s u)
    (hg : g u = u.putAcc k ad x) (hr : -2 ^ 47 ≤ x ∧ x < 2 ^ 47) :
    ∃ t, exec i s = .next t ∧ t.acc k.val ad = x ∧ (∀ a : AccN, a ≠ ad → t.acc k.val a = u.acc k.val a) ∧
      (∀ j : Sreg, t.sr k.val j = u.sr k.val j) ∧
      t.reg (SEQ_PC k.val) = u.reg (SEQ_PC k.val) + 4 ∧ CoreBut k.val [SEQ_PC k.val] u t :=
  ⟨u.putAcc k ad x, hg ▸ exec_of_fetched_quiet hx hw h (by rw [hg, State.irq_putAcc]), State.acc_putAcc_self _ _ _ hr,
    fun _ ha => State.acc_putAcc_ne _ _ _ ha, State.sr_putAcc _ _ _ _, State.pc_putAcc .., CoreBut.putAcc _ _ _ _ (by simp)⟩

/-- A limited result goes to its accumulator, and the limit to SEQ_STAT.ACC_SAT. -/
theorem exec_of_satAcc {i : Instr} {k : Core} {w : Nat} {e : Ecc} {g : State → State} {s u : State} {ad : AccN} {x : Int}
    (hx : ∀ s, exec i s = .next (s.instr k w e g)) (hw : seqWord i = some (k, w)) (h : Fetched i k s u)
    (hg : g u = u.satAcc k ad x) :
    ∃ t, exec i s = .next t ∧ t.acc k.val ad = sat 48 x ∧ (∀ a : AccN, a ≠ ad → t.acc k.val a = u.acc k.val a) ∧
      t.reg (SEQ_STAT k.val) = (if x < -satMax 48 ∨ satMax 48 < x then (u.putFlag (SEQ_STAT.ACC_SAT k.val) true).reg (SEQ_STAT k.val)
        else u.reg (SEQ_STAT k.val)) ∧
      (∀ j : Sreg, t.sr k.val j = u.sr k.val j) ∧
      t.reg (SEQ_PC k.val) = u.reg (SEQ_PC k.val) + 4 ∧ CoreBut k.val [SEQ_PC k.val, SEQ_STAT k.val] u t := by
  have hs : u.satAcc k ad x = (u.markSat k.val 48 x).putAcc k ad (sat 48 x) := rfl
  have hm : (0 : Int) ≤ satMax 48 := by decide
  have hb : satMax 48 < 2 ^ 47 := by decide
  obtain ⟨h1, h2⟩ := sat_range x hm
  refine ⟨u.satAcc k ad x, hg ▸ exec_of_fetched_quiet hx hw h (by rw [hg, hs, State.irq_putAcc, State.core_markSat]), ?_⟩
  rw [hs]
  refine ⟨State.acc_putAcc_self _ _ _ ⟨by omega, by omega⟩, fun a ha => ?_, ?_, fun j => ?_, ?_,
    (CoreBut.markSat _ _ _ _ (by simp)).trans (CoreBut.putAcc _ _ _ _ (by simp))⟩
  · rw [State.acc_putAcc_ne _ _ _ ha, State.acc_markSat]
  · simp only [State.reg_putAcc_ne _ _ _ _ (SEQ_STAT_ne_pc k.val), State.reg_markSat, ne_eq, sat_eq_self, not_not]
  · rw [State.sr_putAcc, State.sr_markSat]
  · rw [State.pc_putAcc, State.reg_markSat_ne _ _ _ _ (SEQ_STAT_ne_pc k.val).symm]

/-- Two halves limited apart go to their accumulator, and a limit of either to SEQ_STAT.ACC_SAT. -/
theorem exec_of_satPair {i : Instr} {k : Core} {w : Nat} {e : Ecc} {g : State → State} {s u : State} {ad : AccN} {hi lo : Int}
    (hx : ∀ s, exec i s = .next (s.instr k w e g)) (hw : seqWord i = some (k, w)) (h : Fetched i k s u)
    (hg : g u = u.satPair k ad hi lo) :
    ∃ t, exec i s = .next t ∧ accHi (t.acc k.val ad) = sat 24 hi ∧ accLo (t.acc k.val ad) = sat 24 lo ∧
      (∀ a : AccN, a ≠ ad → t.acc k.val a = u.acc k.val a) ∧
      t.reg (SEQ_STAT k.val) = (if sat 24 hi ≠ hi ∨ sat 24 lo ≠ lo then
        (u.putFlag (SEQ_STAT.ACC_SAT k.val) true).reg (SEQ_STAT k.val) else u.reg (SEQ_STAT k.val)) ∧
      (∀ j : Sreg, t.sr k.val j = u.sr k.val j) ∧
      t.reg (SEQ_PC k.val) = u.reg (SEQ_PC k.val) + 4 ∧ CoreBut k.val [SEQ_PC k.val, SEQ_STAT k.val] u t := by
  have hs : u.satPair k ad hi lo = ((u.markSat k.val 24 hi).markSat k.val 24 lo).putAcc k ad (accPair (sat 24 hi) (sat 24 lo)) := rfl
  have hm : (0 : Int) ≤ satMax 24 := by decide
  have hb : satMax 24 < 2 ^ 23 := by decide
  obtain ⟨h1, h2⟩ := sat_range hi hm
  obtain ⟨h3, h4⟩ := sat_range lo hm
  refine ⟨u.satPair k ad hi lo, hg ▸ exec_of_fetched_quiet hx hw h (by rw [hg, hs, State.irq_putAcc, State.core_markSat, State.core_markSat]), ?_⟩
  rw [hs, State.acc_putAcc_self _ _ _ (accPair_range _ _)]
  refine ⟨accHi_accPair _ (by omega) (by omega), accLo_accPair _ (by omega) (by omega), fun a ha => ?_, ?_, fun j => ?_, ?_,
    ((CoreBut.markSat _ _ _ _ (by simp)).trans (CoreBut.markSat _ _ _ _ (by simp))).trans (CoreBut.putAcc _ _ _ _ (by simp))⟩
  · rw [State.acc_putAcc_ne _ _ _ ha, State.acc_markSat, State.acc_markSat]
  · rw [State.reg_putAcc_ne _ _ _ _ (SEQ_STAT_ne_pc k.val)]
    by_cases hh : sat 24 hi = hi
    · rw [State.markSat_of_sat hh, State.reg_markSat]; simp [hh]
    · rw [State.markSat_of_limited hh, State.reg_markSat, if_pos (Or.inl hh)]
      split
      · exact State.reg_put_put _ _ _ _ (Nat.le_succ _) (by simp [SEQ_STAT.ACC_SAT]) _
      · rfl
  · rw [State.sr_putAcc, State.sr_markSat, State.sr_markSat]
  · rw [State.pc_putAcc, State.reg_markSat_ne _ _ _ _ (SEQ_STAT_ne_pc k.val).symm,
      State.reg_markSat_ne _ _ _ _ (SEQ_STAT_ne_pc k.val).symm]

theorem State.reg_retire_ne (s : State) (k : Nat) (rd : Sreg) (v : Word) {a : Nat} (h : a ≠ SEQ_PC k) : (s.retire k rd v).reg a = s.reg a := by
  rw [State.retire, State.advance, State.reg_setReg_ne _ _ h, State.reg_setSr]

/-- A result in R1 after a mark that leaves the core's registers alone. -/
theorem exec_of_marked_retire {i : Instr} {k : Core} {w : Nat} {e : Ecc} {g : State → State} {s u : State} {r1 : Sreg} {v : Word} {n : Nat}
    {x : Int} {b : Bool} (hx : ∀ s, exec i s = .next (s.instr k w e g)) (hw : seqWord i = some (k, w)) (h : Fetched i k s u)
    (hg : g u = (u.markSat k.val n x).retire k.val r1 v) (hb : sat n x ≠ x ↔ b = true) :
    ∃ t, exec i s = .next t ∧ t.sr k.val r1 = (if r1.val = 0 then 0 else v) ∧
      t.reg (SEQ_STAT k.val) = (if b = true then (u.putFlag (SEQ_STAT.ACC_SAT k.val) true).reg (SEQ_STAT k.val) else u.reg (SEQ_STAT k.val)) ∧
      (∀ j : Sreg, j ≠ r1 → t.sr k.val j = u.sr k.val j) ∧ (∀ a : AccN, t.acc k.val a = u.acc k.val a) ∧
      t.reg (SEQ_PC k.val) = u.reg (SEQ_PC k.val) + 4 ∧ CoreBut k.val [SEQ_PC k.val, SEQ_STAT k.val] u t := by
  refine ⟨_, hg ▸ exec_of_fetched_quiet hx hw h (by rw [hg, State.irq_retire, State.core_markSat]), State.sr_retire_self .., ?_,
    fun j hj => ?_, fun a => ?_, ?_, (CoreBut.markSat _ _ _ _ (by simp)).trans (CoreBut.retire _ _ _ _ (by simp))⟩
  · simp only [State.reg_retire_ne _ _ _ _ (SEQ_STAT_ne_pc k.val), State.reg_markSat, hb]
  · rw [State.sr_retire_ne _ _ _ hj, State.sr_markSat]
  · rw [State.acc_retire, State.acc_markSat]
  · rw [State.pc_retire, State.reg_markSat_ne _ _ _ _ (SEQ_STAT_ne_pc k.val).symm]

/-- Settles O28: each instruction is one of `putAcc`, `satAcc`, `satPair` and a retired R1. -/
theorem accumulatorInstructionsComputeAndSaturate : Obligations.AccumulatorInstructionsComputeAndSaturate := by
  unfold Obligations.AccumulatorInstructionsComputeAndSaturate
  have h0 : sat 48 0 = 0 := by decide
  refine ⟨?_, ?_, ?_, ?_⟩
  · intro k r1 r2 ad src s u i x h hi
    simp only [List.mem_cons, Prod.mk.injEq, List.not_mem_nil, or_false] at hi
    rcases hi with ⟨rfl, rfl⟩ | ⟨rfl, rfl⟩ | ⟨rfl, rfl⟩ | ⟨rfl, rfl⟩ | ⟨rfl, rfl⟩
    · exact exec_of_putAcc (fun _ => rfl) rfl h rfl (State.product_range ..)
    · have h1 := BitVec.le_toInt (u.sr k.val r1)
      have h2 := BitVec.toInt_lt (x := u.sr k.val r1)
      exact exec_of_putAcc (fun _ => rfl) rfl h rfl ⟨by omega, by omega⟩
    · exact exec_of_putAcc (fun _ => rfl) rfl h rfl (by decide)
    · exact exec_of_putAcc (fun _ => rfl) rfl h rfl (State.acc_range ..)
    · exact exec_of_putAcc (fun _ => rfl) rfl h rfl (accPair_range ..)
  · intro k r1 r2 ad s u i x h hi
    simp only [List.mem_cons, Prod.mk.injEq, List.not_mem_nil, or_false] at hi
    rcases hi with ⟨rfl, rfl⟩ | ⟨rfl, rfl⟩
    · exact exec_of_satAcc (fun _ => rfl) rfl h rfl
    · exact exec_of_satAcc (fun _ => rfl) rfl h rfl
  · intro k r1 ad src s u i hi lo h hl
    simp only [List.mem_cons, Prod.mk.injEq, List.not_mem_nil, or_false] at hl
    rcases hl with ⟨rfl, rfl, rfl⟩ | ⟨rfl, rfl, rfl⟩ | ⟨rfl, rfl, rfl⟩
    · exact exec_of_satPair (fun _ => rfl) rfl h rfl
    · exact exec_of_satPair (fun _ => rfl) rfl h rfl
    · exact exec_of_satPair (fun _ => rfl) rfl h rfl
  · rintro k r1 src sh s u v x i b h rfl hi
    have hq : sat 48 0 ≠ 0 ↔ false = true := by simp [h0]
    simp only [List.mem_cons, Prod.mk.injEq, List.not_mem_nil, or_false] at hi
    rcases hi with ⟨rfl, rfl, rfl⟩ | ⟨rfl, rfl, rfl⟩ | ⟨rfl, rfl, rfl⟩ | ⟨rfl, rfl, rfl⟩ | ⟨rfl, rfl, rfl⟩
    · refine exec_of_marked_retire (n := 32) (fun _ => rfl) rfl h rfl ?_
      rw [ne_eq, sat_eq_self, not_not, decide_eq_true_iff]; rfl
    · exact exec_of_marked_retire (fun _ => rfl) rfl h (by rw [State.markSat_of_sat h0]; rfl) hq
    · exact exec_of_marked_retire (fun _ => rfl) rfl h (by rw [State.markSat_of_sat h0]; rfl) hq
    · exact exec_of_marked_retire (fun _ => rfl) rfl h (by rw [State.markSat_of_sat h0]; rfl) hq
    · exact exec_of_marked_retire (fun _ => rfl) rfl h (by rw [State.markSat_of_sat h0]; rfl) hq

end Sys2Proof.Machine

/-! PROOFS. Bytes of the SRAM, event bits, fetching and the counters (O9, O25, O52). -/

namespace Sys2Proof.Machine

/-! ### Bytes of the SRAM -/

/-- What is written reads back. -/
theorem State.bytes_setBytes_self (s : State) (a : Nat) (l : List Byte) : (s.setBytes a l).bytes a l.length = l := by
  apply List.ext_getElem
  · simp [State.bytes]
  · intro i _ h
    simp only [State.bytes, List.getElem_map, List.getElem_range]
    exact memWrite_in _ _ _ _ h

theorem State.bytes_of_sram {s t : State} (h : t.sram = s.sram) (a n : Nat) : t.bytes a n = s.bytes a n := by
  simp only [State.bytes, State.byte, h]

theorem State.reg_of_regs {s t : State} (h : t.regs = s.regs) (a : Nat) : t.reg a = s.reg a := by rw [State.reg, State.reg, h]

theorem State.get_of_reg {s t : State} {f : Fld} (h : t.reg f.addr = s.reg f.addr) : t.get f = s.get f := by rw [State.get, State.get, h]

theorem State.flag_of_reg {s t : State} {f : Fld} (h : t.reg f.addr = s.reg f.addr) : t.flag f = s.flag f := by
  rw [State.flag, State.flag, State.get_of_reg h]

@[simp] theorem State.reg_setWord (s : State) (a : Nat) (l : List Byte) (b : Nat) : (s.setWord a l).reg b = s.reg b :=
  State.reg_of_regs (State.setWord_regs s a l) b

theorem padTo_length (n : Nat) (l : List Byte) : (padTo n l).length = n := by simp [padTo]

theorem Frame.setWord (s : State) (a : Nat) (l : List Byte) : Frame [.sram, .poison] s (s.setWord a l) := by
  intro c hc
  cases c <;> simp at hc <;> rfl

/-! ### The event ring and the event bits (R210, R211) -/

/-- Only HP_EV_IDX and HP_EV_LOST change when an event is placed or lost. -/
theorem State.reg_ringEvent_ne (s : State) (rec : List Byte) {a : Nat} (h : a ≠ HP_EV_IDX) (h' : a ≠ HP_EV_LOST) :
    (s.ringEvent rec).reg a = s.reg a := by
  unfold State.ringEvent
  split
  · exact State.reg_put_ne _ _ _ h'
  · split
    · exact (State.reg_put_ne _ _ _ h).trans (State.reg_setWord ..)
    · exact (State.reg_put_ne s HP_EV_LOST.COUNT _ h' :)

theorem State.ringEvent_of_no_rings {s : State} (rec : List Byte) (h : s.rings = false) : s.ringEvent rec = s.count HP_EV_LOST.COUNT 1 := by
  simp [State.ringEvent, h]

theorem State.ringEvent_of_room {s : State} (rec : List Byte) (h : s.rings = true) (hr : s.evCount + 1 < s.evSize) :
    s.ringEvent rec = s.pushEvent rec := by simp [State.ringEvent, h, hr]

theorem State.ringEvent_of_full {s : State} (rec : List Byte) (h : s.rings = true) (hr : ¬ s.evCount + 1 < s.evSize) :
    s.ringEvent rec = { (s.count HP_EV_LOST.COUNT 1) with hp := { s.hp with lostSince := s.hp.lostSince + 1 } } := by
  simp [State.ringEvent, h, hr]

theorem Frame.setHp (l : List Comp) (s t : State) (h : Frame l s t) (hl : .hp ∈ l) (x : HostSt) : Frame l s { t with hp := x } := by
  intro c hc
  have := h c hc
  cases c
  case hp => exact absurd hl hc
  all_goals exact this

theorem State.pushEvent_tail (s : State) (rec : List Byte) :
    (s.pushEvent rec).get HP_EV_IDX.TAIL = (s.get HP_EV_IDX.TAIL + 1) % 65536 := by
  rw [State.pushEvent, State.get_put_same _ _ _ (by decide) (by decide)]
  exact Nat.mod_mod _ _

theorem State.pushEvent_bytes (s : State) (rec : List Byte) :
    (s.pushEvent rec).bytes (wordAddr (ringAddr (s.get HP_EV_BASE.ADDR * 4096) (s.get HP_EV_BASE.LOG2N) 32 (s.get HP_EV_IDX.TAIL))) 32 =
      padTo 32 rec := by
  have h := State.bytes_setBytes_self s
    (wordAddr (ringAddr (s.get HP_EV_BASE.ADDR * 4096) (s.get HP_EV_BASE.LOG2N) 32 (s.get HP_EV_IDX.TAIL))) ((padTo 32 rec).take 32)
  rw [List.take_of_length_le (padTo_length 32 rec).le, padTo_length] at h
  refine Eq.trans (State.bytes_of_sram ?_ _ _) h
  rw [State.pushEvent, State.put_sram, State.setWord, State.freshCode_sram, List.take_of_length_le (padTo_length 32 rec).le]

/-- Settles O9, by the cases of `State.setEvt` and of `State.ringEvent`. -/
theorem eventBitsRiseAndReportOnce : Obligations.EventBitsRiseAndReportOnce := by
  unfold Obligations.EventBitsRiseAndReportOnce
  refine ⟨fun s f h => ?_, fun s f h he => ?_, fun s f h he hf hi => ?_, fun s rec h => State.ringEvent_of_no_rings rec h,
    fun s rec h hr => ?_, fun s rec h hr => ?_⟩
  · simp [State.setEvt, State.tell, State.tellFuel, State.note, h]
  · simp [State.setEvt, State.tell, State.tellFuel, State.note, h, he]
  · simp [State.setEvt, State.tell, State.tellFuel, State.note, h, he, hf, hi]
  · rw [State.ringEvent_of_room rec h hr]
    exact ⟨((Frame.setWord _ _ _).mono (by simp)).trans ((Frame.put _ _ _).mono (by simp)),
      fun a ha => (State.reg_put_ne _ _ _ (fun he => ha (List.mem_singleton.mpr he))).trans (State.reg_setWord ..), State.pushEvent_tail s rec,
      State.pushEvent_bytes s rec⟩
  · rw [State.ringEvent_of_full rec h hr]
    exact ⟨Frame.setHp [.regs, .hp] s _ ((Frame.put s _ _).mono (by simp)) (by simp) _,
      fun a ha => State.reg_put_ne s HP_EV_LOST.COUNT _ (fun he => ha (List.mem_singleton.mpr he)), rfl⟩

/-! ### Fetching (R179, R180, R190) -/

theorem State.tellPool_nil (s : State) : s.tellPool [] = s := rfl

theorem State.eccRead_of_clean {s : State} {a : Nat} (h : s.upset a = .clean) : s.eccRead a .clean = (s, []) := by
  simp [State.eccRead, h]

/-- A span within one SRAM word whose code shows no error is read without effect. -/
theorem State.readSpan_of_clean {s : State} {a n : Nat} (hn : 0 < n) (h : a % 32 + n ≤ 32) (hc : s.upset a = .clean) :
    s.readSpan a n = s := by
  have hw : wordsOf a n = [wordAddr a] := by
    have : (a % 32 + n + 31) / 32 = 1 := by omega
    simp [wordsOf, this, Nat.pos_iff_ne_zero.mp hn]
  have ha : s.upset (wordAddr a) = .clean := by
    have : wordIndex (wordAddr a) = wordIndex a := by simp only [wordIndex, wordAddr, sramBase]; omega
    rw [← hc, State.upset, State.upset, this]
  simp only [State.readSpan, hw, State.eccWords, State.eccRead_of_clean ha, List.append_nil, State.tellPool_nil]

theorem nth_map_range {α : Type} (d : α) (f : Nat → α) {n i : Nat} (h : i < n) : nth d ((List.range n).map f) i = f i := by
  simp [nth, h]

theorem wordIndex_lineOf (a : Nat) : wordIndex (lineOf a) = wordIndex a := by
  simp only [wordIndex, lineOf, sramBase]; omega

section
variable {s : State} {k : Core}

theorem State.fetch_of_no_right (h : s.mayFetch k.val (s.pc k.val) = false) : s.fetch k = (none, s.raise k.val 4 (s.pc k.val)) := by
  simp [State.fetch, h]

theorem State.fetch_of_cached {l : CacheLine} (h : s.mayFetch k.val (s.pc k.val) = true) (hl : s.cached k.val (s.pc k.val) = some l) :
    s.fetch k = (some (nth 0 l.words (s.pc k.val % 32 / 4)), s.useLine k.val l) := by
  simp [State.fetch, h, hl]

theorem State.fetch_of_poisoned (h : s.mayFetch k.val (s.pc k.val) = true) (hl : s.cached k.val (s.pc k.val) = none)
    (hp : (s.readSpan (lineOf (s.pc k.val)) 32).poisoned (s.pc k.val) = true) :
    s.fetch k = (none, (s.readSpan (lineOf (s.pc k.val)) 32).raise k.val 5 (s.pc k.val)) := by
  simp [State.fetch, h, hl, hp]

theorem State.fetch_of_read (h : s.mayFetch k.val (s.pc k.val) = true) (hl : s.cached k.val (s.pc k.val) = none)
    (hp : (s.readSpan (lineOf (s.pc k.val)) 32).poisoned (s.pc k.val) = false) :
    s.fetch k = (some (nth 0 ((s.readSpan (lineOf (s.pc k.val)) 32).loadLine (s.pc k.val)).words (s.pc k.val % 32 / 4)),
      (s.readSpan (lineOf (s.pc k.val)) 32).useLine k.val ((s.readSpan (lineOf (s.pc k.val)) 32).loadLine (s.pc k.val))) := by
  simp [State.fetch, h, hl, hp]

end

/-- The word at `a` in the line of `a`. -/
theorem State.word_of_loadLine (s : State) {a : Nat} (h : a % 4 = 0) : nth 0 (s.loadLine a).words (a % 32 / 4) = s.word a := by
  rw [State.loadLine, nth_map_range _ _ (by omega), show lineOf a + 4 * (a % 32 / 4) = a by rw [lineOf]; omega]

/-- A line just used is found in the cache. -/
theorem State.cached_useLine_loadLine (s u : State) (k a : Nat) : (s.useLine k (u.loadLine a)).cached k a = some (u.loadLine a) := by
  have hset : setOf (lineOf a) = setOf a := by simp only [setOf, lineOf]; omega
  simp [State.cached, State.useLine, State.core_modCore, State.loadLine, mmod, hset]

/-- The use of a cached line changes nothing but the core's cache. -/
theorem State.useLine_frame (s : State) (k : Nat) (l : CacheLine) :
    Frame [.cores] s (s.useLine k l) ∧ (∃ x, (s.useLine k l).core k = { s.core k with cache := x }) ∧
      (∀ j : Nat, j ≠ k → (s.useLine k l).core j = s.core j) :=
  ⟨Frame.modCore _ _ _, ⟨_, by rw [State.useLine, State.core_modCore, if_pos rfl]⟩,
    fun j hj => by rw [State.useLine, State.core_modCore, if_neg hj]⟩

theorem State.get_haltExc_state (s : State) (k : Nat) : (s.haltExc k).coreState k = 5 := by
  have hreg : (s.haltExc k).reg (SEQ_STAT k) = (s.put (SEQ_STAT.STATE k) 5).reg (SEQ_STAT k) := by
    rw [State.haltExc_eq, State.event_own _ _ _ _ _ (by decide) (by decide),
      State.reg_ringEvent_ne _ _ (by simp only [SEQ_STAT, HP_EV_IDX]; omega) (by simp only [SEQ_STAT, HP_EV_LOST]; omega),
      State.reg_coreEvent_ne _ _ _ (by simp only [SEQ_STAT, SEQ_EV]; omega), State.haltedExc, State.reg_modCore]
  rw [State.coreState, State.get_of_reg (s := s.put (SEQ_STAT.STATE k) 5) hreg]
  exact State.get_put_same _ _ _ (by simp [SEQ_STAT.STATE]) (by simp [SEQ_STAT.STATE])

/-- What a due interrupt needs (R194). -/
theorem State.irqDue_iff {s : State} {k : Nat} : s.irqDue k = true ↔ (s.core k).irq = true ∧ s.seqMode = true ∧ s.lCore k = false ∧
    s.flag (SEQ_CFG.INT_PM k) = true ∧ s.flag (SEQ_STAT.INEXC k) = false ∧ s.coreState k ≤ 3 := by
  simp [State.irqDue, and_assoc]

/-- A core that has entered the interrupt's handler and runs is in a mode where cores run. -/
theorem State.seqMode_of_takeIrq {s : State} {k : Nat} (h : s.irqDue k = true) (hr : (s.takeIrq k).coreState k = 0) :
    (s.takeIrq k).seqMode = true := by
  obtain ⟨-, hm, hl, -, hi, -⟩ := State.irqDue_iff.mp h
  rw [State.takeIrq_of_due h, State.raise_of_free 10 0 (by simpa [State.lCore, State.flag] using hl) (by simpa [State.flag] using hi)] at *
  split at hr
  · simp [State.get_haltExc_state] at hr
  next hv =>
    have hreg := State.inHandler_regsBut (s.modCore k (fun c => { c with irq := false })) k 10 0 SYS_MODE
      (by simp [SYS_MODE, SEQ_EPC, SEQ_EVAL, SEQ_STAT, SEQ_PC]; omega)
    rw [if_neg hv, ← hm, State.seqMode, State.seqMode, State.mode, State.mode, State.get_of_reg (f := SYS_MODE.MODE) hreg, State.get_modCore]

theorem State.irqDue_takeIrq {s : State} {k : Nat} (h : s.irqDue k = true) : (s.takeIrq k).irqDue k = false := by
  apply State.irqDue_of_irq
  rw [State.takeIrq_of_due h, State.irq_raise, State.core_modCore, if_pos rfl]

/-- After six instructions the interrupt is entered before the next one. -/
theorem State.instr_of_due {s : State} {k : Core} (w : Nat) (e : Ecc) (g : State → State) (hr : s.coreRuns k.val = true)
    (hd : s.irqDue k.val = true) (h6 : 6 ≤ (s.core k.val).since) : s.instr k w e g = (s.takeIrq k.val).instr k w e g := by
  have hf : s.irqFirst k.val = s.takeIrq k.val := if_pos h6
  have hf' : (s.takeIrq k.val).irqFirst k.val = s.takeIrq k.val := State.irqFirst_of_not_due (State.irqDue_takeIrq hd)
  by_cases h0 : (s.takeIrq k.val).coreState k.val = 0
  · have hr' : (s.takeIrq k.val).coreRuns k.val = true := State.coreRuns_iff.mpr ⟨State.seqMode_of_takeIrq hd h0, h0⟩
    rw [State.instr, State.instr, if_neg (by simp [hr]), if_neg (by simp [hr']), State.fetchRun, State.fetchRun, hf, hf']
  · have hr' : ¬ (s.takeIrq k.val).coreRuns k.val = true := fun h => h0 (State.coreRuns_iff.mp h).2
    rw [State.instr, State.instr, if_neg (by simp [hr]), if_pos hr', State.fetchRun, hf]
    exact if_pos h0

/-- Settles O25, by the cases of `State.fetch`; the interrupt by `State.instr_of_due`. -/
theorem fetchTakesTheWordAtThePc : Obligations.FetchTakesTheWordAtThePc := by
  unfold Obligations.FetchTakesTheWordAtThePc
  refine ⟨?_, fun k a s h => ?_, fun k a s h => ?_, fun k s u w hc hf => ?_, fun i k w s hw hr hd h6 => ?_⟩
  · rintro k s u rfl
    refine ⟨State.fetch_of_no_right, fun l h hl => by rw [State.fetch_of_cached h hl], State.fetch_of_poisoned, fun h hl hp ha => ?_⟩
    rw [State.fetch_of_read h hl hp]
    exact ⟨congrArg some (State.word_of_loadLine _ ha), State.cached_useLine_loadLine ..⟩
  · simp [State.mayFetch, h]
  · simp only [State.mayFetch, h, if_true, State.inLwin, Bool.and_eq_true, decide_eq_true_eq]; tauto
  · cases hm : s.mayFetch k.val (s.pc k.val) with
    | false => simp [State.fetch_of_no_right hm] at hf
    | true =>
      cases hl : s.cached k.val (s.pc k.val) with
      | some l =>
        obtain ⟨-, rfl⟩ := Prod.mk.inj ((State.fetch_of_cached hm hl).symm.trans hf)
        exact State.useLine_frame ..
      | none =>
        have hup : s.upset (lineOf (s.pc k.val)) = .clean := by
          rw [← hc.resolve_left (fun h => h hl), State.upset, State.upset, wordIndex_lineOf]
        have hs : s.readSpan (lineOf (s.pc k.val)) 32 = s := State.readSpan_of_clean (by decide) (by rw [lineOf]; omega) hup
        cases hp : s.poisoned (s.pc k.val) with
        | true => rw [State.fetch_of_poisoned hm hl (by rw [hs]; exact hp)] at hf; cases hf
        | false =>
          obtain ⟨-, rfl⟩ := Prod.mk.inj ((State.fetch_of_read hm hl (by rw [hs]; exact hp)).symm.trans hf)
          rw [hs]
          exact State.useLine_frame ..
  · obtain ⟨f, -, hx⟩ := seqWord_spells hw
    rw [hx, hx, State.instr_of_due _ _ _ hr hd h6, State.takeIrq_of_due hd]

/-! ### Counters (R336 to R342) -/

/-- An Island follower whose buffer queue's descriptor shows a single error, with one counter, of corrected SRAM errors, at its last
count. The record of the counter's overflow goes to the buffer queue, whose descriptor is read for it: the corrected error counts
once more. -/
def overflowInIsland : State :=
  State.setUpset (State.modQueue { State.reset with
    regs := [(SYS_MODE, 8#32), (AL_STAT, 0x20000000#32), (PM_SEL 0, 0x4000FF08#32)]
    pm := { count := [(0, 2 ^ 48 - 1)] }, fab := { bufq := some 0 } } 0 (fun q => { q with en := true }))
    (State.reset.descAddr 0) .single

/-- Refutes O52: the overflow's record may bring the count further in the same step. -/
theorem not_countersCountAndAreCopied : ¬ Obligations.CountersCountAndAreCopied := by
  unfold Obligations.CountersCountAndAreCopied
  rintro ⟨-, hcount, -⟩
  obtain ⟨t, hx, hk, -⟩ := hcount 0 1 1 overflowInIsland (by decide) (by decide) (by decide)
  have hr : exec (.counterOverflow 0 1) overflowInIsland = .next (overflowInIsland.tell [.counts 0 1]) := rfl
  have h1 : (overflowInIsland.tell [.counts 0 1]).pmCount 0 = 1 := by decide
  have h0 : (overflowInIsland.pmCount 0 + 1) % 2 ^ 48 = 0 := by decide
  obtain rfl := Host.Outcome.next.inj (hr.symm.trans hx)
  exact absurd (h1.symm.trans (hk.trans h0)) (by decide)

end Sys2Proof.Machine

/-! PROOFS. Loads and stores of a core (O29). -/

namespace Sys2Proof.Machine

/-! ### Partial writes of an SRAM word (R132, R134) -/

/-- A span within one SRAM word is one partial write. -/
theorem State.setSpan_within (s : State) {a : Nat} {l : List Byte} (h0 : l ≠ []) (h : a % 32 + l.length ≤ 32) (hl : l.length < 32) :
    s.setSpan a l = s.setPart a l := by
  have ht : l.take (32 - a % 32) = l := List.take_of_length_le (by omega)
  have hd : l.drop (32 - a % 32) = [] := List.drop_of_length_le (by omega)
  obtain ⟨n, hn⟩ : ∃ n, l.length = n + 1 := ⟨l.length - 1, by have := List.length_pos_of_ne_nil h0; omega⟩
  rw [State.setSpan, hn, State.setSpanFuel, if_neg (by simpa using h0)]
  simp only [hn, ht, hd]
  rw [if_neg (by omega), State.setSpanFuel]
  exact if_pos rfl

theorem State.bytes_setPart_self (s : State) (a : Nat) (l : List Byte) : (s.setPart a l).bytes a l.length = l := by
  rw [State.setPart, State.bytes_of_sram (State.freshCode_sram _ _)]
  split <;> exact State.bytes_setBytes_self ..

theorem State.byte_setPart_out {s : State} {a : Nat} {l : List Byte} (hp : s.poisoned a = false) : BytesBut a l.length s (s.setPart a l) := by
  intro x hx
  have hs : (s.setPart a l).sram = (s.setBytes a l).sram := by rw [State.setPart, if_neg (by simp [hp]), State.freshCode_sram]
  rw [State.byte, hs]
  exact State.byte_setBytes_out s a l x hx

theorem State.poisoned_freshCode (s : State) (a : Nat) : (s.freshCode a).poisoned a = false := by
  simp [State.poisoned, State.freshCode, setErase]

theorem State.poisoned_setPart (s : State) (a : Nat) (l : List Byte) : (s.setPart a l).poisoned a = false := State.poisoned_freshCode ..

theorem Frame.setBytes (s : State) (a : Nat) (l : List Byte) : Frame [.sram] s (s.setBytes a l) := by
  intro c hc
  cases c
  case sram => exact absurd hc (by decide)
  case poison => exact ⟨rfl, rfl⟩
  all_goals rfl

theorem Frame.freshCode (s : State) (a : Nat) : Frame [.poison] s (s.freshCode a) := by
  intro c hc
  cases c
  case poison => exact absurd hc (by decide)
  all_goals rfl

theorem Frame.setPart (s : State) (a : Nat) (l : List Byte) : Frame [.sram, .poison] s (s.setPart a l) := by
  have hbytes (t : State) (b : Nat) (m : List Byte) := (Frame.setBytes t b m).mono (m := [.sram, .poison]) (by simp)
  refine Frame.trans ?_ ((Frame.freshCode _ _).mono (by simp))
  split
  · exact (hbytes _ _ _).trans (hbytes _ _ _)
  · exact hbytes _ _ _

/-! ### Loads and stores (R184) -/

theorem leBytes_length (n x : Nat) : (leBytes n x).length = n := by
  induction n generalizing x with
  | zero => rfl
  | succ n ih => rw [leBytes, List.length_cons, ih]

/-- The bytes of a load, little-endian and zero-extended. -/
theorem State.loadBytes_eq (s : State) (a n : Nat) :
    s.loadBytes a n = ((s.sramPart (a - a % 4) >>> (8 * (a % 4))).setWidth (8 * n)).setWidth 32 := by
  apply BitVec.eq_of_toNat_eq
  simp [State.loadBytes, Nat.shiftRight_eq_div_pow]

section
variable {s : State} {k : Core} {rd ra : Sreg} {imm : Half} {n : Nat}

theorem State.load_of_misaligned {e : Ecc} (h : s.memAddr k ra imm % n ≠ 0) : s.load k rd ra imm n e = s.raise k.val 3 (s.memAddr k ra imm) :=
  if_pos h

theorem State.load_of_no_right {e : Ecc} (h : s.memAddr k ra imm % n = 0) (hs : inSram (s.memAddr k ra imm) = true)
    (hm : s.mayLoad k.val (s.memAddr k ra imm) = false) : s.load k rd ra imm n e = s.raise k.val 4 (s.memAddr k ra imm) := by
  simp [State.load, h, hs, hm]

theorem State.load_of_no_reg {e : Ecc} (h : s.memAddr k ra imm % n = 0) (hs : inSram (s.memAddr k ra imm) = false)
    (hm : n ≠ 4 ∨ s.mayReadReg k (s.memAddr k ra imm) = false) :
    s.load k rd ra imm n e = s.raise k.val 4 (s.memAddr k ra imm) := by
  rcases hm with hm | hm <;> simp [State.load, h, hs, hm]

theorem State.load_of_sram {e : Ecc} (h : s.memAddr k ra imm % n = 0) (hs : inSram (s.memAddr k ra imm) = true)
    (hm : s.mayLoad k.val (s.memAddr k ra imm) = true) : s.load k rd ra imm n e = s.loadSram k rd (s.memAddr k ra imm) n e := by
  simp [State.load, h, hs, hm]

theorem State.load_of_reg {e : Ecc} (h : s.memAddr k ra imm % n = 0) (hs : inSram (s.memAddr k ra imm) = false)
    (hn : n = 4) (hm : s.mayReadReg k (s.memAddr k ra imm) = true) :
    s.load k rd ra imm n e = (s.readReg (.core k) (s.memAddr k ra imm) e).2.retire k.val rd
      ((s.readReg (.core k) (s.memAddr k ra imm) e).1.getD 0) := by
  subst hn; simp [State.load, h, hs, hm]

theorem State.store_of_misaligned (h : s.memAddr k ra imm % n ≠ 0) : s.store k rd ra imm n = s.raise k.val 3 (s.memAddr k ra imm) :=
  if_pos h

theorem State.store_of_no_right (h : s.memAddr k ra imm % n = 0) (hs : inSram (s.memAddr k ra imm) = true)
    (hm : s.mayStore k.val (s.memAddr k ra imm) = false) : s.store k rd ra imm n = s.raise k.val 4 (s.memAddr k ra imm) := by
  simp [State.store, h, hs, hm]

theorem State.store_of_no_reg (h : s.memAddr k ra imm % n = 0) (hs : inSram (s.memAddr k ra imm) = false)
    (hm : n ≠ 4 ∨ s.mayWriteReg k (s.memAddr k ra imm) = false) : s.store k rd ra imm n = s.raise k.val 4 (s.memAddr k ra imm) := by
  rcases hm with hm | hm <;> simp [State.store, h, hs, hm]

theorem State.store_of_sram (h : s.memAddr k ra imm % n = 0) (hs : inSram (s.memAddr k ra imm) = true)
    (hm : s.mayStore k.val (s.memAddr k ra imm) = true) :
    s.store k rd ra imm n = (s.storeSram (s.memAddr k ra imm) (leBytes n (s.sr k.val rd).toNat)).advance k.val := by
  simp [State.store, h, hs, hm]

theorem State.store_of_reg (h : s.memAddr k ra imm % n = 0) (hs : inSram (s.memAddr k ra imm) = false) (hn : n = 4)
    (hm : s.mayWriteReg k (s.memAddr k ra imm) = true) :
    s.store k rd ra imm n = (s.advance k.val).act (.core k) (s.memAddr k ra imm) (s.sr k.val rd) := by
  subst hn; simp [State.store, h, hs, hm]

end

theorem State.storeSram_of_registry {s : State} {a : Nat} (l : List Byte) (h : s.partOf a = some .registry) :
    s.storeSram a l = s.putEntry ((a - s.regBase) / 64) ((a - s.regBase) % 64) l := if_pos h

theorem State.storeSram_of_part {s : State} {a : Nat} {l : List Byte} (h : s.partOf a ≠ some .registry) (hl : l.length ≠ 32) :
    s.storeSram a l = (s.readSpan a l.length).setSpan a l := by rw [State.storeSram, if_neg h, if_neg hl]

/-- A load of a clean word that is not poisoned reads it and does nothing else. -/
theorem State.loadSram_of_clean {s : State} {k : Core} {rd : Sreg} {a n : Nat} (hp : s.poisoned a = false) (hc : s.upset a = .clean) :
    s.loadSram k rd a n .clean = s.retire k.val rd (s.loadBytes a n) := by
  simp [State.loadSram, State.eccRead_of_clean hc, State.tellPool_nil, hp]

/-- A store of up to four aligned bytes into a clean word. -/
theorem State.storeSram_of_clean {s : State} {a : Nat} {l : List Byte} (h : s.partOf a ≠ some .registry) (hc : s.upset a = .clean)
    (h0 : 0 < l.length) (hl : l.length < 32) (ha : a % 32 + l.length ≤ 32) : s.storeSram a l = s.setPart a l := by
  rw [State.storeSram_of_part h (by omega), State.readSpan_of_clean h0 ha hc, State.setSpan_within s (List.ne_nil_of_length_pos h0) ha hl]

/-- The loads and the stores spell words of their core that load or store so many bytes. -/
theorem exec_load_store {k : Core} {rd ra : Sreg} {imm : Half} {e : Ecc} {n : Nat} {ld st : Instr}
    (h : (n, ld, st) ∈ [(4, .ldw k rd ra imm e, .stw k rd ra imm), (2, .ldh k rd ra imm e, .sth k rd ra imm),
      (1, .ldb k rd ra imm e, .stb k rd ra imm)]) :
    (n = 4 ∨ n = 2 ∨ n = 1) ∧
      (∃ w, seqWord ld = some (k, w) ∧ ∀ s, exec ld s = .next (s.instr k w e (fun t => t.load k rd ra imm n e))) ∧
      (∃ w, seqWord st = some (k, w) ∧ ∀ s, exec st s = .next (s.instr k w .clean (fun t => t.store k rd ra imm n))) := by
  simp only [List.mem_cons, Prod.mk.injEq, List.not_mem_nil, or_false] at h
  rcases h with ⟨rfl, rfl, rfl⟩ | ⟨rfl, rfl, rfl⟩ | ⟨rfl, rfl, rfl⟩
  · exact ⟨.inl rfl, ⟨_, rfl, fun _ => rfl⟩, ⟨_, rfl, fun _ => rfl⟩⟩
  · exact ⟨.inr (.inl rfl), ⟨_, rfl, fun _ => rfl⟩, ⟨_, rfl, fun _ => rfl⟩⟩
  · exact ⟨.inr (.inr rfl), ⟨_, rfl, fun _ => rfl⟩, ⟨_, rfl, fun _ => rfl⟩⟩

/-- Settles O29, by the cases of `State.load` and `State.store`. -/
theorem loadsAndStoresReachTheirBytes : Obligations.LoadsAndStoresReachTheirBytes := by
  unfold Obligations.LoadsAndStoresReachTheirBytes
  intro k rd ra imm e s u a n ld st hi ha
  obtain ⟨hn, ⟨w, hw, hx⟩, ⟨w', hw', hx'⟩⟩ := exec_load_store hi
  replace ha : a = u.memAddr k ra imm := ha
  subst ha
  have hraise (c x j : Nat) : ((u.raise k.val c x).core j).irq = (u.core j).irq := State.irq_raise ..
  refine ⟨fun h => ⟨fun h0 => ?_, fun h0 h1 h2 => ?_, fun h0 h1 h2 => ?_, ?_, fun h0 h1 h2 hp he hc => ?_, ?_⟩,
    fun h => ⟨fun h0 => ?_, fun h0 h1 h2 => ?_, fun h0 h1 h2 => ?_, fun h0 h1 h2 h3 => ?_, fun h0 h1 h2 h3 => ?_,
      fun h0 h1 h2 h3 hc => ?_, fun h0 h1 h2 h3 => ?_⟩⟩
  · have hg := State.load_of_misaligned (rd := rd) (e := e) h0
    rw [exec_of_fetched_quiet hx hw h (by rw [hg, hraise]), hg]
  · have hg := State.load_of_no_right (rd := rd) (e := e) h0 h1 h2
    rw [exec_of_fetched_quiet hx hw h (by rw [hg, hraise]), hg]
  · have hg := State.load_of_no_reg (rd := rd) (e := e) h0 h1 h2
    rw [exec_of_fetched_quiet hx hw h (by rw [hg, hraise]), hg]
  · rintro r v h0 h1 h2 rfl rfl
    rw [exec_of_fetched hx hw h, State.load_of_sram h0 h1 h2, State.loadSram]
  · subst he
    rw [← State.loadBytes_eq]
    exact exec_of_retire hx hw h ((State.load_of_sram h0 h1 h2).trans (State.loadSram_of_clean hp hc))
  · rintro r h0 h1 h2 h3 rfl
    rw [exec_of_fetched hx hw h, State.load_of_reg h0 h1 h2 h3]
  · have hg := State.store_of_misaligned (rd := rd) h0
    rw [exec_of_fetched_quiet hx' hw' h (by rw [hg, hraise]), hg]
  · have hg := State.store_of_no_right (rd := rd) h0 h1 h2
    rw [exec_of_fetched_quiet hx' hw' h (by rw [hg, hraise]), hg]
  · have hg := State.store_of_no_reg (rd := rd) h0 h1 h2
    rw [exec_of_fetched_quiet hx' hw' h (by rw [hg, hraise]), hg]
  · rw [exec_of_fetched hx' hw' h, State.store_of_sram h0 h1 h2, State.storeSram_of_registry _ h3]
  · rw [exec_of_fetched hx' hw' h, State.store_of_sram h0 h1 h2, State.storeSram_of_part h3 (by rw [leBytes_length]; omega), leBytes_length]
  · have hl := leBytes_length n (u.sr k.val rd).toNat
    have hg : u.store k rd ra imm n = (u.setPart (u.memAddr k ra imm) (leBytes n (u.sr k.val rd).toNat)).advance k.val := by
      rw [State.store_of_sram h0 h1 h2, State.storeSram_of_clean h3 hc (by omega) (by omega) (by rcases hn with rfl | rfl | rfl <;> omega)]
    refine ⟨_, exec_of_fetched_quiet hx' hw' h ?_, ?_⟩
    · rw [hg, State.core_advance, State.core, State.setPart_cores, State.core]
    rw [hg]
    have hb := State.bytes_setPart_self u (u.memAddr k ra imm) (leBytes n (u.sr k.val rd).toNat)
    have ho (hp : u.poisoned (u.memAddr k ra imm) = false) := State.byte_setPart_out (l := leBytes n (u.sr k.val rd).toNat) hp
    rw [hl] at hb ho
    refine ⟨hb, ho, State.poisoned_setPart .., fun j => ?_, ?_, fun b hb => ?_,
      ((Frame.setPart _ _ _).mono (by simp)).trans ((Frame.setReg _ _ _).mono (by simp))⟩
    · rw [State.core_advance, State.core, State.setPart_cores, State.core]
    · rw [State.reg_advance_pc, State.reg_of_regs (State.setPart_regs u _ _)]
    · rw [State.advance, State.reg_setReg_ne _ _ (by simpa using hb), State.reg_of_regs (State.setPart_regs u _ _)]
  · rw [exec_of_fetched hx' hw' h, State.store_of_reg h0 h1 h2 h3]

end Sys2Proof.Machine

/-! PROOFS. Steps and commands in general, operand lists, and register accesses under the access codes (O1 to O8). -/

namespace Sys2Proof.Machine

/-! ### What every command and step has in common -/

/-- Settles O1: this is how `step` is defined. -/
theorem stepRunsTheFrontCommand : Obligations.StepRunsTheFrontCommand := fun _ _ _ => rfl

/-- Settles O3: no row of `exec` refuses or faults. -/
theorem everyCommandCompletes : Obligations.EveryCommandCompletes := fun c s => by
  cases c <;> exact ⟨_, rfl⟩

/-- Settles O2, by evaluation of the reset state and of one idle step of it. -/
theorem resetLeavesDormantHeldAndEmpty : Obligations.ResetLeavesDormantHeldAndEmpty := by
  unfold Obligations.ResetLeavesDormantHeldAndEmpty
  have hstate : ∀ k : Fin 32, State.reset.coreState k.val = 1 := by decide
  exact ⟨by decide, rfl, rfl, rfl, rfl, rfl, ⟨rfl, rfl⟩, hstate, _, rfl, by decide⟩

/-! ### Operand lists (log 5) -/

section
variable {α : Type} (s : State) (m : Nat) (f : Nat → α)

theorem State.length_padOpen (n : Nat) (l : List α) : (s.padOpen n m f l).1.length = n := by
  induction n generalizing s l with
  | zero => rfl
  | succ n ih => cases l <;> simp [State.padOpen, ih]

theorem State.getElem?_padOpen (n : Nat) (l : List α) {i : Nat} (hn : i < n) (hl : i < l.length) :
    (s.padOpen n m f l).1[i]? = l[i]? := by
  induction n generalizing s l i with
  | zero => omega
  | succ n ih =>
    cases l with
    | nil => simp at hl
    | cons x t =>
      cases i with
      | zero => rfl
      | succ i => simpa [State.padOpen] using ih s t (Nat.lt_of_succ_lt_succ hn) (Nat.lt_of_succ_lt_succ hl)

/-- Each missing entry draws one free value, and nothing else changes. -/
theorem State.state_padOpen (n : Nat) (l : List α) : (s.padOpen n m f l).2 = { s with freeCtr := s.freeCtr + (n - l.length) } := by
  induction n generalizing s l with
  | zero => simp [State.padOpen]
  | succ n ih =>
    cases l with
    | nil =>
      simp only [State.padOpen, ih, State.free, List.length_nil, Nat.sub_zero]
      rw [Nat.add_assoc, Nat.add_comm 1 n]
    | cons x t => simp [State.padOpen, ih, Nat.add_sub_add_right]

/-- What lies beyond the entries that are taken is not read. -/
theorem State.padOpen_append (n : Nat) (l x : List α) (h : l.length = n) : s.padOpen n m f (l ++ x) = s.padOpen n m f l := by
  induction n generalizing s l with
  | zero => cases l <;> rfl
  | succ n ih =>
    cases l with
    | nil => simp at h
    | cons y t =>
      have ht : t.length = n := by simpa using h
      simp only [List.cons_append, State.padOpen, ih s t ht]

end

/-- Of 2-GFSK decision values only as many are read as soft values are taken. -/
theorem State.demod_append (s : State) (amp : Nat) (l x : List Int) : s.demod false amp l.length (l ++ x) = s.demod false amp l.length l := by
  have hlen : (l.flatMap (softs2 amp)).length = l.length := by simp [softs2]
  simp only [State.demod, Bool.false_eq_true, if_false, List.flatMap_append]
  rw [← hlen, List.take_left, List.take_length]

/-- Settles O4: lists are taken by `State.padOpen`, after `State.demod` where they are decision values. -/
theorem operandListsOfAnyLengthRun : Obligations.OperandListsOfAnyLengthRun := by
  unfold Obligations.OperandListsOfAnyLengthRun
  refine ⟨fun s n m l f => ⟨State.length_padOpen .., fun i hn hl => State.getElem?_padOpen _ _ _ _ _ hn hl, State.state_padOpen ..⟩,
    fun n l x s hl => ?_, fun u l x early near s hl => ?_⟩
  · have hd (amp : Nat) := State.demod_append s amp l x
    rw [hl] at hd
    show Host.Outcome.next _ = Host.Outcome.next _
    simp only [hd]
  · have hp := State.padOpen_append s 32 openSample _ l x hl
    show Host.Outcome.next _ = Host.Outcome.next _
    simp only [hp]

/-! ### The registers of a lane in the table (R345, R346) -/

/-- The row at `b` of the lane registers is the one that the address with offset `c` of lane n names. -/
theorem dimIndex_lane {b c n : Nat} (hb : b / 64 = 0x4000) (hc : c / 64 = 0x4000) (hn : n < 256) :
    dimIndex [(256, 0x40)] b (c + n * 0x40) = if c = b then some [n] else none := by
  by_cases h : c = b
  · subst h
    simp [dimIndex, hn]
  · have hne : c + n * 64 ≠ b + (c + n * 64 - b) / 64 * 64 := by omega
    simp [dimIndex, h, hne]

theorem regBlock_lane {c n : Nat} (hc : c / 64 = 0x4000) (hn : n < 256) : regBlock (c + n * 0x40) = regsLn := by
  have : (c + n * 64) / 0x10000 = 16 := by omega
  simp only [regBlock, this]

theorem regFind_LN_TXQ {n : Nat} (hn : n < 256) :
    (regFind (LN_TXQ n)).map (·.1.fields) = some [⟨9, 0, .rwf⟩] := by
  rw [LN_TXQ, regFind, regBlock_lane (by decide) hn]
  simp [regsLn, regFindIn, dimIndex_lane, hn]

theorem regFind_LN_CNT_OK {n : Nat} (hn : n < 256) :
    (regFind (LN_CNT_OK n)).map (·.1.fields) = some [⟨31, 0, .rc⟩] := by
  rw [LN_CNT_OK, regFind, regBlock_lane (by decide) hn]
  simp [regsLn, regFindIn, dimIndex_lane, hn]

theorem regFind_LN_CNT_ERR {n : Nat} (hn : n < 256) :
    (regFind (LN_CNT_ERR n)).map (·.1.fields) =
      some [⟨31, 24, .rc⟩, ⟨23, 18, .rc⟩, ⟨17, 12, .rc⟩, ⟨11, 7, .rc⟩, ⟨6, 2, .rc⟩, ⟨1, 0, .rc⟩] := by
  rw [LN_CNT_ERR, regFind, regBlock_lane (by decide) hn]
  simp [regsLn, regFindIn, dimIndex_lane, hn]

/-! ### Register writes under the access codes (R5 to R7) -/

/-- A write of the lane block's registers without a rule of their own goes through the gate of R7. -/
theorem State.act_lane_plain (s : State) (who : Accessor) {a : Nat} (v : Word) (hb : a / 65536 = 16)
    (h1 : a ≠ LN_CFG ((a - 0x100000) / 64)) (h2 : a ≠ LN_AGC ((a - 0x100000) / 64)) (h3 : a ≠ LN_MASK_LO ((a - 0x100000) / 64)) :
    s.act who a v = s.writeGated who a v := by
  rw [State.act, hb]
  simp only [State.actLane, if_neg h1, if_neg h2, if_neg h3]

theorem ofNat_toNat_word (v : Word) : BitVec.ofNat 32 v.toNat = v := by simp

/-- Where no field is refused, the value written is the one that takes effect. -/
theorem State.gate_of_open {s : State} {who : Accessor} {a : Nat} (v : Word) (h : s.refusedFields who a = []) : s.gate who a v = (v, s) := by
  simp [State.gate, h]

theorem State.writePlain_of_found {s : State} {a : Nat} {d : RegDesc} {ix : List Nat} (v : Word) (h : regFind a = some (d, ix)) :
    s.writePlain a v = s.setReg a (writtenWord d (s.reg a) v) := by simp only [State.writePlain, h]

theorem isReg_of_found {who : Accessor} {a : Nat} {d : RegDesc × List Nat} (h : regFind a = some d) (hb : a / 65536 ≠ 7) :
    isReg who a = true := by simp [isReg, h, hb]

/-- Settles O5: such a write is `State.writePlain`. -/
theorem laneRegisterWriteFollowsAccessCodes : Obligations.LaneRegisterWriteFollowsAccessCodes := by
  unfold Obligations.LaneRegisterWriteFollowsAccessCodes
  intro who a v s d ix hb hf h1 h2 h3 hw hr
  have hal : a.toNat ≠ AL_CTL := by rw [AL_CTL]; omega
  refine ⟨s.setReg a.toNat (writtenWord d (s.reg a.toNat) v), ?_, State.reg_setReg_self .., RegsBut.setReg _ _ (by simp), Frame.setReg _ _ _⟩
  rw [exec_registerWrite v (isReg_of_found hf (by omega)) hal hw, State.act_lane_plain s who v hb h1 h2 h3, State.writeGated,
    State.gate_of_open v hr, State.writePlain_of_found v hf]

/-- Putting a field's own bits back changes nothing. -/
theorem putBits_bits (x hi lo : Nat) : putBits x hi lo (bits x hi lo) = x := by
  have hm : x / 2 ^ lo % 2 ^ (hi + 1 - lo) * 2 ^ lo ≤ x :=
    le_trans (Nat.mul_le_mul_right _ (Nat.mod_le _ _)) (Nat.div_mul_le_self _ _)
  rw [putBits, bits_eq, Nat.mod_mod]
  omega

/-- Outside Forge LN_TXQ's one field is refused to everyone. -/
theorem State.refusedFields_LN_TXQ {s : State} (who : Accessor) {n : Nat} (hn : n < 256) (hm : s.mode ≠ 3) :
    s.refusedFields who (LN_TXQ n) = [⟨9, 0, .rwf⟩] := by
  obtain ⟨d, hd, hf⟩ := Option.map_eq_some_iff.mp (regFind_LN_TXQ hn)
  simp [State.refusedFields, hd, hf, hm]

/-- A register other than the event ring's keeps its value when an access is refused. -/
theorem State.reg_refuse_ne (s : State) (who : Accessor) (b st : Nat) {a : Nat} (h : a ≠ HP_EV_IDX) (h' : a ≠ HP_EV_LOST) :
    (s.refuse who b st).reg a = s.reg a := by
  rw [State.refuse, State.event_own _ _ _ _ _ (by decide) (by decide), State.reg_ringEvent_ne _ _ h h']

/-- The closed field of LN_TXQ is written with what it holds. -/
theorem State.writePlain_LN_TXQ_kept {s : State} {n : Nat} {v : Word} (hn : n < 256)
    (hv : bits v.toNat 9 0 = bits (s.reg (LN_TXQ n)).toNat 9 0) :
    s.writePlain (LN_TXQ n) v = s.setReg (LN_TXQ n) (s.reg (LN_TXQ n)) := by
  obtain ⟨⟨d, ix⟩, hd, hf⟩ := Option.map_eq_some_iff.mp (regFind_LN_TXQ hn)
  rw [State.writePlain_of_found v hd, writtenWord, hf]
  simp only [List.foldl_cons, List.foldl_nil, putField, hv, putBits_bits, ofNat_toNat_word]

/-- Settles O6: the gate of R7 puts the field's own bits in the place of the value's. -/
theorem closedFieldsKeepTheirValue : Obligations.ClosedFieldsKeepTheirValue := by
  unfold Obligations.ClosedFieldsKeepTheirValue
  intro who n v s hw hm
  have ha : (BitVec.ofNat 32 (LN_TXQ n.val)).toNat = LN_TXQ n.val := by rw [BitVec.toNat_ofNat, LN_TXQ]; omega
  obtain ⟨d, hd, -⟩ := Option.map_eq_some_iff.mp (regFind_LN_TXQ n.isLt)
  have hb : LN_TXQ n.val / 65536 = 16 := by rw [LN_TXQ]; omega
  generalize hu : (if bits (s.reg (LN_TXQ n.val)).toNat 9 0 = bits v.toNat 9 0 then s else s.refuse who (LN_TXQ n.val) stNotPermitted) = u
  have hreg : u.reg (LN_TXQ n.val) = s.reg (LN_TXQ n.val) := by
    subst hu; split
    · rfl
    · exact State.reg_refuse_ne _ _ _ _ (by rw [LN_TXQ, HP_EV_IDX]; omega) (by rw [LN_TXQ, HP_EV_LOST]; omega)
  have hgate : s.gate who (LN_TXQ n.val) v =
      (BitVec.ofNat 32 (putBits v.toNat 9 0 (bits (s.reg (LN_TXQ n.val)).toNat 9 0)), u) := by
    rw [State.gate, State.refusedFields_LN_TXQ who n.isLt hm, ← hu]
    by_cases he : bits (s.reg (LN_TXQ n.val)).toNat 9 0 = bits v.toNat 9 0 <;> simp [he]
  have hx : exec (.registerWrite who (BitVec.ofNat 32 (LN_TXQ n.val)) v) s =
      .next (u.setReg (LN_TXQ n.val) (u.reg (LN_TXQ n.val))) := by
    rw [exec_registerWrite v (by rw [ha]; exact isReg_of_found hd (by omega)) (by rw [ha, LN_TXQ, AL_CTL]; omega) (by rw [ha]; exact hw), ha,
      State.act_lane_plain s who v hb (by simp only [LN_TXQ, LN_CFG]; omega) (by simp only [LN_TXQ, LN_AGC]; omega)
        (by simp only [LN_TXQ, LN_MASK_LO]; omega), State.writeGated, hgate]
    refine congrArg Host.Outcome.next (State.writePlain_LN_TXQ_kept n.isLt ?_)
    rw [BitVec.toNat_ofNat, Nat.mod_eq_of_lt (putBits_lt _ _ _ _ _ (by decide) v.isLt (by decide)), bits_putBits_same _ _ _ _ (by decide),
      hreg, bits_eq, Nat.mod_mod]
  refine ⟨_, hx, fun a => ?_, Frame.setReg _ _ _⟩
  rw [State.reg_setReg]; split <;> simp [*]

/-! ### Reads that clear or latch (R5, R347) -/

/-- Clearing fields from the top down leaves what is below the last one. -/
def clearsDown (l : List FieldDesc) (top bottom : Nat) : Bool :=
  match l with
  | [] => decide (top = bottom)
  | f :: t => decide (f.acc = .rc) && decide (f.hi + 1 = top) && decide (f.lo ≤ f.hi) && clearsDown t f.lo bottom

theorem clearsDown_le {l : List FieldDesc} {top bottom : Nat} (h : clearsDown l top bottom = true) : bottom ≤ top := by
  induction l generalizing top with
  | nil => exact (of_decide_eq_true h).ge
  | cons f t ih =>
    simp only [clearsDown, Bool.and_eq_true, decide_eq_true_eq] at h
    obtain ⟨⟨⟨-, rfl⟩, hlo⟩, ht⟩ := h
    exact (ih ht).trans (Nat.le_succ_of_le hlo)

theorem putBits_top {x hi lo : Nat} (h : lo ≤ hi) (hx : x < 2 ^ (hi + 1)) : putBits x hi lo 0 = x % 2 ^ lo := by
  rw [putBits_eq _ _ _ _ (Nat.le_succ_of_le h), Nat.zero_mod, Nat.div_eq_of_lt hx]; omega

theorem clearsDown_foldl {l : List FieldDesc} {top bottom x : Nat} (h : clearsDown l top bottom = true) (hx : x < 2 ^ top) :
    (l.filter (fun f => decide (f.acc = .rc))).foldl (fun x f => putBits x f.hi f.lo 0) x = x % 2 ^ bottom := by
  induction l generalizing top x with
  | nil =>
    obtain rfl := of_decide_eq_true h
    exact (Nat.mod_eq_of_lt hx).symm
  | cons f t ih =>
    simp only [clearsDown, Bool.and_eq_true, decide_eq_true_eq] at h
    obtain ⟨⟨⟨hrc, rfl⟩, hlo⟩, ht⟩ := h
    have hle := clearsDown_le ht
    rw [List.filter_cons_of_pos (by simpa using hrc), List.foldl_cons, putBits_top hlo hx, ih ht (Nat.mod_lt _ (Nat.two_pow_pos _)),
      Nat.mod_mod_of_dvd _ (Nat.pow_dvd_pow 2 hle)]

/-- The register at `a` has counters cleared by a read, and below them `bottom` bits. -/
def clearsFrom (a bottom : Nat) : Bool := (regFind a).any (fun d => clearsDown d.1.fields 32 bottom)

theorem found_of_clearsFrom {a bottom : Nat} (h : clearsFrom a bottom = true) :
    ∃ d, regFind a = some d ∧ clearsDown d.1.fields 32 bottom = true := by
  cases hd : regFind a with
  | none => simp [clearsFrom, hd] at h
  | some d => exact ⟨d, rfl, by simpa [clearsFrom, hd] using h⟩

theorem State.clearRc_of_clearsFrom {s : State} {a bottom : Nat} (h : clearsFrom a bottom = true) :
    s.clearRc a = s.setReg a (BitVec.ofNat 32 ((s.reg a).toNat % 2 ^ bottom)) := by
  obtain ⟨d, hd, hc⟩ := found_of_clearsFrom h
  rw [State.clearRc, hd]
  exact congrArg (fun x => s.setReg a (BitVec.ofNat 32 x)) (clearsDown_foldl hc (s.reg a).isLt)

theorem hasRc_of_clearsFrom {a bottom : Nat} (h : clearsFrom a bottom = true) (hb : bottom < 32) : hasRc a = true := by
  obtain ⟨d, hd, hc⟩ := found_of_clearsFrom h
  rw [hasRc, hd, Option.any_some]
  cases hf : d.1.fields with
  | nil => rw [hf] at hc; exact absurd (of_decide_eq_true hc) (by omega)
  | cons f t =>
    simp only [hf, clearsDown, Bool.and_eq_true, decide_eq_true_eq] at hc
    obtain ⟨⟨⟨hrc, -⟩, -⟩, -⟩ := hc
    simp [hrc]

theorem State.answer_hp_core {s : State} {who : Accessor} (v : Word) (h : who ≠ .host) : s.answer who v = s := by
  cases who with
  | host => exact absurd rfl h
  | core k => rfl

theorem Frame.answer (s : State) (who : Accessor) (v : Word) : Frame [.hp] s (s.answer who v) := by
  cases who with
  | host => exact Frame.setHp _ _ _ (Frame.refl _ _) (by simp) _
  | core k => exact Frame.refl _ _

/-- The value that a read drives to the host; a core's read leaves the host's part alone. -/
theorem State.answer_spec (s : State) (who : Accessor) (v : Word) :
    (who = .host → (s.answer who v).hp = { s.hp with out := [v] }) ∧ (who ≠ .host → (s.answer who v).hp = s.hp) ∧
      (∀ a, (s.answer who v).reg a = s.reg a) := by
  refine ⟨fun h => ?_, fun h => ?_, fun a => State.answer_reg ..⟩
  · subst h; rfl
  · rw [State.answer_hp_core v h]

/-- A read of a register that a read of its counters clears. -/
theorem exec_rcCounterRead_of_plain {who : Accessor} {s : State} {a bottom : Nat} (hr : s.reads who = true) (ha : a < 2 ^ 32)
    (hb : a / 65536 ≠ 7) (hc : clearsFrom a bottom = true) (hbot : bottom < 32)
    (hp : s.readReg who a .clean = (some (s.reg a), s.clearRc a)) :
    exec (.rcCounterRead who (BitVec.ofNat 32 a)) s =
      .next ((s.setReg a (BitVec.ofNat 32 ((s.reg a).toNat % 2 ^ bottom))).answer who (s.reg a)) := by
  have hn : (BitVec.ofNat 32 a).toNat = a := by rw [BitVec.toNat_ofNat, Nat.mod_eq_of_lt ha]
  obtain ⟨d, hd, -⟩ := found_of_clearsFrom hc
  show Host.Outcome.next _ = _
  rw [hn, if_pos ⟨hr, isReg_of_found hd hb, hasRc_of_clearsFrom hc hbot⟩, hp, State.clearRc_of_clearsFrom hc]
  rfl

/-- What such a read leaves. -/
theorem rcCounterRead_spec {who : Accessor} {s : State} {a bottom : Nat} (hr : s.reads who = true) (ha : a < 2 ^ 32)
    (hb : a / 65536 ≠ 7) (hc : clearsFrom a bottom = true) (hbot : bottom < 32)
    (hp : s.readReg who a .clean = (some (s.reg a), s.clearRc a)) :
    ∃ t, exec (.rcCounterRead who (BitVec.ofNat 32 a)) s = .next t ∧
      (who = .host → t.hp = { s.hp with out := [s.reg a] }) ∧ (who ≠ .host → t.hp = s.hp) ∧
      t.reg a = BitVec.ofNat 32 ((s.reg a).toNat % 2 ^ bottom) ∧ RegsBut [a] s t ∧ Frame [.regs, .hp] s t := by
  obtain ⟨h1, h2, h3⟩ := State.answer_spec (s.setReg a (BitVec.ofNat 32 ((s.reg a).toNat % 2 ^ bottom))) who (s.reg a)
  refine ⟨_, exec_rcCounterRead_of_plain hr ha hb hc hbot hp, h1, h2, by rw [h3, State.reg_setReg_self],
    fun b hb => (h3 b).trans (RegsBut.setReg s _ (by simp) b hb),
    ((Frame.setReg _ _ _).mono (by simp)).trans ((Frame.answer _ _ _).mono (by simp))⟩

theorem State.readReg_LN_CNT (s : State) (who : Accessor) {n a : Nat} (hn : n < 256) (ha : a = LN_CNT_OK n ∨ a = LN_CNT_ERR n) :
    s.readReg who a .clean = (some (s.reg a), s.clearRc a) := by
  have hb : a / 65536 = 16 := by simp only [LN_CNT_OK, LN_CNT_ERR] at ha; omega
  have hg : a ≠ LN_GAIN ((a - 0x100000) / 64) := by simp only [LN_CNT_OK, LN_CNT_ERR] at ha; simp only [LN_GAIN]; omega
  simp [State.readReg, hb, State.readLane, hg, State.readPlain]

theorem State.readReg_UA_CNT (s : State) (who : Accessor) (i : Fin 6) :
    s.readReg who (UA_CNT i.val) .clean = (some (s.reg (UA_CNT i.val)), s.clearRc (UA_CNT i.val)) := by
  fin_cases i <;> rfl

theorem State.readReg_QP_ECC (s : State) (who : Accessor) (j : Fin 16) :
    s.readReg who (QP_ECC j.val) .clean = (some (s.reg (QP_ECC j.val)), s.clearRc (QP_ECC j.val)) := by
  fin_cases j <;> rfl

/-- The counter registers outside the lanes. -/
theorem State.readReg_counters (s : State) (who : Accessor) {i : Fin 6} {j : Fin 16} {a : Nat}
    (h : a ∈ [LK_CNT, MT_BAL_CNT, HP_EV_LOST, RF_CNT, AL_CNT, UA_CNT i.val, QP_ECC j.val]) :
    s.readReg who a .clean = (some (s.reg a), s.clearRc a) := by
  simp only [List.mem_cons, List.not_mem_nil, or_false] at h
  rcases h with rfl | rfl | rfl | rfl | rfl | rfl | rfl
  iterate 5 rfl
  · exact State.readReg_UA_CNT s who i
  · exact State.readReg_QP_ECC s who j

theorem clearsFrom_counters {i : Fin 6} {j : Fin 16} {a : Nat}
    (h : a ∈ [LK_CNT, MT_BAL_CNT, HP_EV_LOST, RF_CNT, AL_CNT, UA_CNT i.val, QP_ECC j.val]) :
    clearsFrom a (if a = QP_ECC j.val then 8 else 0) = true ∧ a < 2 ^ 32 ∧ a / 65536 ≠ 7 := by
  have hua : ∀ i : Fin 6, clearsFrom (UA_CNT i.val) 0 = true := by decide
  have hqp : ∀ j : Fin 16, clearsFrom (QP_ECC j.val) 8 = true := by decide
  simp only [List.mem_cons, List.not_mem_nil, or_false] at h
  by_cases he : a = QP_ECC j.val
  · subst he; rw [if_pos rfl]; exact ⟨hqp j, by rw [QP_ECC]; omega, by rw [QP_ECC]; omega⟩
  · rw [if_neg he]
    rcases h with rfl | rfl | rfl | rfl | rfl | rfl | rfl
    iterate 5 decide
    · exact ⟨hua i, by rw [UA_CNT]; omega, by rw [UA_CNT]; omega⟩
    · exact absurd rfl he

/-- A read with a view that it writes (R347). -/
theorem answer_setReg_spec (s : State) (who : Accessor) (a : Nat) (v w : Word) :
    (who = .host → ((s.setReg a v).answer who w).hp.out = [w]) ∧ (who ≠ .host → ((s.setReg a v).answer who w).hp = s.hp) ∧
      ((s.setReg a v).answer who w).reg a = v ∧ RegsBut [a] s ((s.setReg a v).answer who w) ∧
      Frame [.regs, .hp] s ((s.setReg a v).answer who w) := by
  obtain ⟨h1, h2, h3⟩ := State.answer_spec (s.setReg a v) who w
  exact ⟨fun h => by rw [h1 h], h2, by rw [h3, State.reg_setReg_self], fun b hb => (h3 b).trans (RegsBut.setReg s _ (by simp) b hb),
    ((Frame.setReg _ _ _).mono (by simp)).trans ((Frame.answer _ _ _).mono (by simp))⟩

/-- A field that is a whole register. -/
theorem State.put_whole (s : State) (a : Nat) : s.put ⟨a, 31, 0⟩ 0 = s.setReg a 0 := by
  have hx := (s.reg a).isLt
  rw [State.put, putBits_top (Nat.zero_le _) hx, pow_zero, Nat.mod_one]
  rfl

/-- Settles O7: the counters by `rcCounterRead_spec`, the views by `answer_setReg_spec`. -/
theorem readsThatClearOrLatch : Obligations.ReadsThatClearOrLatch := by
  unfold Obligations.ReadsThatClearOrLatch
  refine ⟨fun who n s a ha hr => ?_, fun who i j s a ha hr => ?_, fun who k s hr => ?_, fun who s hr => ?_, fun who k s hr => ?_⟩
  · have hc : clearsFrom a 0 = true := by
      rcases ha with rfl | rfl
      · obtain ⟨d, hd, hf⟩ := Option.map_eq_some_iff.mp (regFind_LN_CNT_OK n.isLt)
        rw [clearsFrom, hd, Option.any_some, hf]; decide
      · obtain ⟨d, hd, hf⟩ := Option.map_eq_some_iff.mp (regFind_LN_CNT_ERR n.isLt)
        rw [clearsFrom, hd, Option.any_some, hf]; decide
    have hb : a < 2 ^ 32 ∧ a / 65536 ≠ 7 := by simp only [LN_CNT_OK, LN_CNT_ERR] at ha; omega
    obtain ⟨t, hx, h1, h2, h3, h4⟩ := rcCounterRead_spec hr hb.1 hb.2 hc (by decide) (State.readReg_LN_CNT s who n.isLt ha)
    exact ⟨t, hx, h1, h2, by rw [h3, pow_zero, Nat.mod_one]; rfl, h4⟩
  · obtain ⟨hc, ha32, hb⟩ := clearsFrom_counters ha
    obtain ⟨t, hx, h1, h2, h3, h4⟩ := rcCounterRead_spec hr ha32 hb hc (by split <;> decide) (State.readReg_counters s who ha)
    refine ⟨t, hx, h1, h2, fun hne => by rw [h3, if_neg hne, pow_zero, Nat.mod_one]; rfl, ?_, h4⟩
    rw [h3, bits_eq, BitVec.toNat_ofNat]
    split <;> omega
  · have hx : exec (.seqLpendRead who k) s = .next ((s.setReg (SEQ_LPEND k.val) 0).answer who
        (BitVec.ofNat 32 (s.get (SEQ_LPEND.LANES k.val) % 2 ^ (s.attached k.val).2))) := by
      show Host.Outcome.next _ = _
      rw [if_pos hr, State.readLpend, SEQ_LPEND.LANES, State.put_whole]
    exact ⟨_, hx, answer_setReg_spec ..⟩
  · have hx : exec (.rtcRead who) s = .next ((s.setReg PWR_RTC_HI (BitVec.ofNat 32 (s.iron.rtc / 2 ^ 32))).answer who
        (BitVec.ofNat 32 s.iron.rtc)) := by
      show Host.Outcome.next _ = _
      rw [if_pos hr]; rfl
    exact ⟨_, hx, answer_setReg_spec ..⟩
  · have hx : exec (.pmCtrLoRead who k) s = .next ((s.setReg (PM_CTR_HI k.val) (BitVec.ofNat 32 (s.pmCount k.val / 2 ^ 32))).answer who
        (BitVec.ofNat 32 (s.pmCount k.val))) := by
      show Host.Outcome.next _ = _
      rw [if_pos hr]; rfl
    exact ⟨_, hx, answer_setReg_spec ..⟩

/-! ### Holes (R346) -/

/-- Settles O8, by the cases of the command. -/
theorem holesReadZeroAndAreReported : Obligations.HolesReadZeroAndAreReported := by
  unfold Obligations.HolesReadZeroAndAreReported
  refine ⟨fun a s hh hr => ?_, fun a s hh hr => ?_, fun k a w s hh hm hc => ?_⟩
  · show Host.Outcome.next _ = _
    simp [hh, hr, State.hostHole]
  · show Host.Outcome.next _ = _
    simp [hh, hr, State.hostHole]
  · show Host.Outcome.next _ = _
    simp [hh, hm, hc]

end Sys2Proof.Machine

/-! PROOFS. The parts of the state that queues, rings, counters and the notes between them leave alone. -/

namespace Sys2Proof.Machine

/-! ### What the rings, the pool and the counters leave alone -/

/-- What placing words in queues, events in rings and counts in counters may change. -/
def toldParts : List Comp := [.regs, .sram, .poison, .free, .hp, .pool, .cores, .al, .pm]

/-- From `r` to `s` no other part has changed. -/
def Told (r s : State) : Prop := Frame toldParts r s

theorem Told.refl (s : State) : Told s s := Frame.refl _ s

theorem Told.trans {r s t : State} (h : Told r s) (h' : Told s t) : Told r t := Frame.trans h h'

theorem Told.same {r s : State} (h : Told r s) {c : Comp} (hc : c ∉ toldParts) : Same c r s := h c hc

theorem Told.update {r s : State} {rg : SMap Word} {sr : Memory} {ps : List Nat} {us : SMap Ecc} {n : Nat} {hp : HostSt} {po : PoolSt}
    {co : SMap CoreSt} {al : AlloySt} {pm : PmSt} (h : Told r s) :
    Told r ⟨s.pending, rg, sr, ps, us, n, hp, po, s.ports, s.lanes, s.dec, s.link, s.meter, s.fab, co, s.radio, s.uarts, s.ctl, s.wd,
      s.iron, al, pm⟩ := by
  intro c hc
  have hs := h c hc
  cases c
  case pending | ports | lanes | dec | link | meter | fab | radio | uarts | ctl | wd | iron => exact hs
  all_goals exact absurd (by decide) hc

theorem Told.ite {c : Prop} [Decidable c] {r s t : State} (hs : Told r s) (ht : Told r t) : Told r (if c then s else t) := by
  split <;> assumption
theorem Told.ite_fst {α : Type} {c : Prop} [Decidable c] {r : State} {x y : State × α} (hx : Told r x.1) (hy : Told r y.1) :
    Told r (if c then x else y).1 := by split <;> assumption
theorem Told.ite_snd {α : Type} {c : Prop} [Decidable c] {r : State} {x y : α × State} (hx : Told r x.2) (hy : Told r y.2) :
    Told r (if c then x else y).2 := by split <;> assumption
theorem Told.ite_snd_fst {α β : Type} {c : Prop} [Decidable c] {r : State} {x y : α × State × β} (hx : Told r x.2.1)
    (hy : Told r y.2.1) : Told r (if c then x else y).2.1 := by split <;> assumption
theorem Told.foldState {β : Type} {l : List β} {f : β → State → State} {r s : State} (h : Told r s)
    (hf : ∀ a t, Told r t → Told r (f a t)) : Told r (Machine.foldState l f s) :=
  foldState_keeps (Told r) l f hf s h
theorem Told.setReg {r s : State} {a : Nat} {v : Word} (h : Told r s) : Told r (s.setReg a v) := h.update
theorem Told.setBytes {r s : State} {a : Nat} {l : List Byte} (h : Told r s) : Told r (s.setBytes a l) := h.update

theorem Told.put {r s : State} {f : Fld} {v : Nat} (h : Told r s) : Told r (s.put f v) := h.setReg

theorem Told.putFlag {r s : State} {f : Fld} {b : Bool} (h : Told r s) : Told r (s.putFlag f b) := h.put

theorem Told.count {r s : State} {f : Fld} {n : Nat} (h : Told r s) : Told r (s.count f n) := h.put

theorem Told.putBit {r s : State} {f : Fld} {i : Nat} {b : Bool} (h : Told r s) : Told r (s.putBit f i b) := h.put

theorem Told.free {r s : State} {n : Nat} (h : Told r s) : Told r (s.free n).2 := h.update

theorem Told.freeBytes {r s : State} {n : Nat} (h : Told r s) : Told r (s.freeBytes n).2 := h.update

theorem Told.setUpset {r s : State} {a : Nat} {e : Ecc} (h : Told r s) : Told r (s.setUpset a e) := h.update

theorem Told.freshCode {r s : State} {a : Nat} (h : Told r s) : Told r (s.freshCode a) := h.update

theorem Told.setWord {r s : State} {a : Nat} {l : List Byte} (h : Told r s) : Told r (s.setWord a l) := h.setBytes.freshCode

theorem Told.setPart {r s : State} {a : Nat} {l : List Byte} (h : Told r s) : Told r (s.setPart a l) :=
  (Told.ite h.setBytes.setBytes h.setBytes).freshCode

theorem Told.setSpanFuel {fuel : Nat} {r s : State} {a : Nat} {l : List Byte} (h : Told r s) :
    Told r (State.setSpanFuel fuel s a l) := by
  induction fuel generalizing s a l with
  | zero => exact h
  | succ n ih => exact .ite h (ih (.ite h.setWord h.setPart))

theorem Told.setSpan {r s : State} {a : Nat} {l : List Byte} (h : Told r s) : Told r (s.setSpan a l) := h.setSpanFuel

theorem Told.modCore {r s : State} {k : Nat} {f : CoreSt → CoreSt} (h : Told r s) : Told r (s.modCore k f) := h.update

theorem Told.modQueue {r s : State} {q : Nat} {f : QueueSt → QueueSt} (h : Told r s) : Told r (s.modQueue q f) := h.update

theorem Told.setWin {r s : State} {w : Nat} {x : WinSt} (h : Told r s) : Told r (s.setWin w x) := h.update

theorem Told.eccRead {r s : State} {a : Nat} {e : Ecc} (h : Told r s) : Told r (s.eccRead a e).1 := by
  unfold State.eccRead
  split
  · exact h
  · exact .ite_fst h h.setUpset.count
  · exact .ite_fst h h.setUpset.update.count.put
  · exact h.setUpset.freeBytes.setBytes

theorem Told.eccWords {r s : State} {l : List Nat} (h : Told r s) : Told r (s.eccWords l).1 := by
  induction l generalizing s with
  | nil => exact h
  | cons a t ih => exact ih h.eccRead

theorem Told.takeCellFuel {fuel : Nat} {r s : State} (h : Told r s) : Told r (State.takeCellFuel fuel s).2.1 := by
  induction fuel generalizing s with
  | zero => exact h
  | succ n ih => exact .ite_snd_fst h (.ite_snd_fst (ih h.free.update.eccRead) h.free.update.eccRead)

theorem Told.takeCell {r s : State} (h : Told r s) : Told r (s.takeCell).2.1 := h.takeCellFuel

theorem Told.freeThese {r s : State} {cells : List Nat} (h : Told r s) : Told r (s.freeThese cells) := h.update

theorem Told.marks {r s : State} {q before : Nat} (h : Told r s) : Told r (s.marks q before).1 := .ite_fst h.modQueue h

theorem Told.touch {r s : State} {q : Nat} (h : Told r s) : Told r (s.touch q).1 :=
  .ite_fst h (.ite_fst h.eccWords.modQueue h.eccWords)

theorem Told.setOpen {r s : State} {o : OpenPkt} (h : Told r s) : Told r (s.setOpen o) := h.update

theorem Told.dropOpen {r s : State} {prod : Producer} {q : Nat} (h : Told r s) : Told r (s.dropOpen prod q) := h.update

theorem Told.endOpen {r s : State} {o : OpenPkt} (h : Told r s) : Told r (s.endOpen o) :=
  .ite h.dropOpen.modQueue h.dropOpen.freeThese

theorem Told.placeOpen {r s : State} {o : OpenPkt} {w : Line} (h : Told r s) : Told r (s.placeOpen o w).2.1 := by
  unfold State.placeOpen
  have h1 := h.takeCell
  refine .ite_snd_fst h (.ite_snd_fst (.ite_snd_fst h.modQueue ?_) h.setWord)
  split
  next heq => rw [heq] at h1; exact h1.modQueue
  next heq => rw [heq] at h1; exact h1.setWord

theorem Told.placeAll {r s : State} {o : OpenPkt} {ws : List Line} (h : Told r s) : Told r (s.placeAll o ws).2.1 := by
  induction ws generalizing s o with
  | nil => exact h
  | cons w t ih => exact ih h.placeOpen.setOpen

theorem Told.commit {r s : State} {o : OpenPkt} (h : Told r s) : Told r (s.commit o).1 := h.update.dropOpen.modQueue

theorem Told.placeStream {r s : State} {q : Nat} {w : Line} (h : Told r s) : Told r (s.placeStream q w).2.1 := by
  unfold State.placeStream
  have h1 := h.takeCell
  refine .ite_snd_fst h.update.setWord.modQueue (.ite_snd_fst h.modQueue ?_)
  split
  next heq => rw [heq] at h1; exact h1.modQueue
  next heq => rw [heq] at h1; exact h1.update.setWord.modQueue

theorem Told.placeStreams {r s : State} {q : Nat} {ws : List Line} (h : Told r s) : Told r (s.placeStreams q ws).2.1 := by
  induction ws generalizing s with
  | nil => exact h
  | cons w t ih => exact ih h.placeStream

theorem Told.refuseWord {r s : State} {prod : Producer} {q : Nat} {d : Doom} {eop : Bool} (h : Told r s) :
    Told r (s.refuseWord prod q d eop).2 :=
  .ite_snd h.endOpen h.setOpen

theorem Told.putWord {r s : State} {prod : Producer} {q : Nat} {w : Line} (h : Told r s) : Told r (s.putWord prod q w).2.1 :=
  .ite_snd_fst h.touch.refuseWord
    (.ite_snd_fst (.ite_snd_fst h.touch.modQueue h.touch.modQueue.refuseWord)
       (.ite_snd_fst (.ite_snd_fst h.touch.modQueue h.touch.modQueue.refuseWord.marks)
          (.ite_snd_fst (.ite_snd_fst h.touch.setOpen.placeStreams.marks h.touch.placeStream.marks)
             (.ite_snd_fst
                (.ite_snd_fst
                   ((Told.ite_snd_fst h.touch (.ite_snd_fst h.touch.setOpen.placeAll h.touch.setOpen.placeAll)).setOpen.endOpen.marks)
                   ((Told.ite_snd_fst h.touch (.ite_snd_fst h.touch.setOpen.placeAll h.touch.setOpen.placeAll)).setOpen.commit.marks))
                ((Told.ite_snd_fst h.touch (.ite_snd_fst h.touch.setOpen.placeAll h.touch.setOpen.placeAll)).setOpen.marks)))))

theorem Told.putWords {r s : State} {prod : Producer} {q : Nat} {ws : List Line} (h : Told r s) :
    Told r (s.putWords prod q ws).2.1 := by
  induction ws generalizing s with
  | nil => exact h
  | cons w t ih =>
    cases t with
    | nil => exact h.putWord
    | cons v t => exact ih h.putWord

theorem Told.putPacket {r s : State} {prod : Producer} {q : Nat} {l : List Byte} (h : Told r s) :
    Told r (s.putPacket prod q l).2.1 :=
  h.putWords

theorem Told.rewind {r s : State} {prod : Producer} {q : Nat} (h : Told r s) : Told r (s.rewind prod q).1 := by
  unfold State.rewind
  split
  · exact h
  · exact .ite_fst h h.touch.endOpen.marks

theorem Told.peekWord {r s : State} {q : Nat} {e : Ecc} (h : Told r s) : Told r (s.peekWord q e).2.1 := by
  unfold State.peekWord
  refine .ite_snd_fst h.touch ?_
  split
  · exact h.touch
  · exact .ite_snd_fst h.touch.eccRead.modQueue (.ite_snd_fst h.touch.eccRead h.touch.eccRead)

theorem Told.popWords {r s : State} {q n : Nat} (h : Told r s) : Told r (s.popWords q n).1 := h.modQueue.freeThese.marks

theorem Told.takeWord {r s : State} {q : Nat} {e : Ecc} (h : Told r s) : Told r (s.takeWord q e).2.1 := by
  unfold State.takeWord
  have h1 := h.peekWord (q := q) (e := e)
  split
  next heq => rw [heq] at h1; exact h1
  next heq => rw [heq] at h1; exact h1.popWords

theorem Told.dropRest {r s : State} {q : Nat} (h : Told r s) : Told r (s.dropRest q).1 := .ite_fst h.touch h.touch.popWords

theorem Told.flush {r s : State} {q : Nat} (h : Told r s) : Told r (s.flush q).1 :=
  .ite_fst h.touch h.touch.modQueue.freeThese.update

theorem Told.removePacket {r s : State} {q seq : Nat} (h : Told r s) : Told r (s.removePacket q seq).1 :=
  .ite_fst h.touch h.touch.modQueue.freeThese.marks

theorem Told.pushEvent {r s : State} {rec : List Byte} (h : Told r s) : Told r (s.pushEvent rec) := h.setWord.put

theorem Told.ringEvent {r s : State} {rec : List Byte} (h : Told r s) : Told r (s.ringEvent rec) :=
  .ite h.count (.ite h.pushEvent h.count.update)

theorem Told.coreEvent {r s : State} {k b : Nat} (h : Told r s) : Told r (s.coreEvent k b) := h.putBit

theorem Told.coresEvent {r s : State} {b : Nat} (h : Told r s) : Told r (s.coresEvent b) :=
  h.foldState (fun _ _ h1 => h1.coreEvent)

theorem Told.keepRecord {r s : State} {rkind number : Nat} {rec body : List Byte} (h : Told r s) :
    Told r (s.keepRecord rkind number rec body).1 := by
  unfold State.keepRecord
  split
  · exact h.count
  · exact .ite h.putPacket h.putPacket.count

theorem Told.signalCores {r s : State} (h : Told r s) : Told r (s.signalCores) := h.foldState (fun _ _ h1 => h1.modCore)

theorem Told.note {r s : State} {n : Note} (h : Told r s) : Told r (s.note n).1 := by
  unfold State.note
  split
  · exact .ite_fst h (.ite_fst h.coreEvent h)
  · exact .ite_fst h (.ite_fst h.coreEvent h)
  · exact h
  · exact h
  · exact .ite_fst h h.putFlag
  · exact .ite_fst h.update (.ite_fst h.keepRecord h.ringEvent)
  · exact .ite_fst h.keepRecord h.update
  · exact .ite_fst h h
  · exact .ite_fst h.update (.ite_fst (.ite h.update.signalCores h.update) ((Told.ite h.update.signalCores h.update).putFlag))

theorem Told.tellFuel {fuel : Nat} {r s : State} {l : List Note} (h : Told r s) : Told r (State.tellFuel fuel s l) := by
  induction fuel generalizing s l with
  | zero => exact h
  | succ n ih =>
    cases l with
    | nil => exact h
    | cons x t => exact ih h.note

theorem Told.tell {r s : State} {l : List Note} (h : Told r s) : Told r (s.tell l) := h.tellFuel

theorem Told.tellPool {r s : State} {l : List PoolNote} (h : Told r s) : Told r (s.tellPool l) := h.tell

theorem Told.readSpan {r s : State} {a n : Nat} (h : Told r s) : Told r (s.readSpan a n) := h.eccWords.tellPool

theorem Told.readPacket {r s : State} {q seq : Nat} (h : Told r s) : Told r (s.readPacket q seq) := h.eccWords.tellPool

theorem Told.setEvt {r s : State} {f : Fld} (h : Told r s) : Told r (s.setEvt f) := h.tell

theorem Told.setEvtWith {r s : State} {f : Fld} {more : List Byte} (h : Told r s) : Told r (s.setEvtWith f more) := h.tell

theorem Told.event {r s : State} {kind status source info : Nat} {detail : List Byte} (h : Told r s) :
    Told r (s.event kind status source info detail) :=
  h.tell

theorem Told.occurs {r s : State} {event qual n : Nat} (h : Told r s) : Told r (s.occurs event qual n) := h.tell

theorem Told.refuse {r s : State} {who : Accessor} {addr status : Nat} (h : Told r s) : Told r (s.refuse who addr status) :=
  h.event

theorem Told.pushCpl {r s : State} {rec : List Byte} (h : Told r s) : Told r (s.pushCpl rec) := h.setWord.put

theorem Told.complete {r s : State} {tag status info : Nat} {result : List Byte} (h : Told r s) :
    Told r (s.complete tag status info result) := by
  unfold State.complete
  split
  · exact h
  · exact h.update.pushCpl

end Sys2Proof.Machine

/-! PROOFS. The end of a metering cycle (O19). -/

namespace Sys2Proof.Machine

/-! ### Feeders at the end of a cycle (R116 to R119) -/

theorem Told.divFree {r s : State} {a : Int} {b : Nat} (h : Told r s) : Told r (s.divFree a b).2 := .ite_snd h h.update

theorem Told.near {r s : State} {num den : Nat} (h : Told r s) : Told r (s.near num den).2 := .ite_snd h.free h.divFree

theorem Told.rootFree {r s : State} {num den : Nat} (h : Told r s) : Told r (s.rootFree num den).2 :=
  .ite_snd h.free (.ite_snd h h.update)

theorem Told.powerFactor {r s : State} {p : Int} {vv ii : Nat} (h : Told r s) : Told r (s.powerFactor p vv ii).2 :=
  .ite_snd h.free (.ite_snd h.rootFree h.rootFree.free)

theorem Told.harmonic {r s : State} {xs : List Int} {sq n k : Nat} (h : Told r s) : Told r (s.harmonic xs sq n k).2 :=
  .ite_snd h.free h.update

theorem Told.harmonicsFrom {r s : State} {xs : List Int} {sq n fuel k : Nat} (h : Told r s) :
    Told r (s.harmonicsFrom xs sq n fuel k).2 := by
  induction fuel generalizing s k with
  | zero => exact h
  | succ m ih => exact ih h.harmonic

theorem Told.harmonics {r s : State} {xs : List Int} {sq n top : Nat} (h : Told r s) : Told r (s.harmonics xs sq n top).2 := h.harmonicsFrom

theorem Told.feeder {s t : State} (h : Told s t) (g : Nat) : t.feeder g = s.feeder g := by
  have hm : t.meter = s.meter := h.same (c := .meter) (by decide)
  rw [State.feeder, State.feeder, hm]

/-- Feeder f holds this cycle in its latch, and the other feeders are as in `s`. -/
def Latched (s : State) (f : Nat) (c : CycleLatch) (t : State) : Prop := (t.feeder f).live = c ∧ ∀ g, g ≠ f → t.feeder g = s.feeder g

section
variable {s t u : State} {f : Nat} {c : CycleLatch}

theorem Latched.told (h : Latched s f c t) (h' : Told t u) : Latched s f c u :=
  ⟨by rw [h'.feeder, h.1], fun g hg => by rw [h'.feeder, h.2 g hg]⟩

theorem Latched.modFeeder {y : FeederSt → FeederSt} (h : Latched s f c t) (hy : (y (t.feeder f)).live = (t.feeder f).live) :
    Latched s f c (t.modFeeder f y) :=
  ⟨by rw [State.feeder_modFeeder, if_pos rfl, hy, h.1], fun g hg => by rw [State.feeder_modFeeder, if_neg hg, h.2 g hg]⟩

theorem Latched.ite {b : Prop} [Decidable b] (ht : Latched s f c t) (hu : Latched s f c u) : Latched s f c (if b then t else u) := by
  split <;> assumption

theorem Latched.endWindow (h : Latched s f c t) : Latched s f c (t.endWindow f) := by
  exact .ite h (.ite (h.modFeeder rfl) (.modFeeder (h.told (.harmonics (.harmonics (.refl t)))) rfl))

/-- The metering program's record is written beside the latch. -/
theorem Latched.writeRecord {d : CycleLatch} {l : List FeedSample} {span : Option (Nat × Nat)} (h : Latched s f c t) :
    Latched s f c (t.writeRecord f d l span) := by
  unfold State.writeRecord
  refine Latched.endWindow (Latched.modFeeder (h.told (Told.powerFactor ?_)) rfl)
  split
  · exact (Told.refl t).rootFree.rootFree
  · exact .ite_snd (Told.refl t).rootFree.rootFree (Told.refl t).rootFree.rootFree.near

end

/-- What the latch holds of the cycle that ends. -/
def cycleLatch (x : FeederSt) (l : List FeedSample) (k : Nat) (b : Bool) : CycleLatch :=
  { pc := sgn 64 (unsgn 64 (sumP l)), qc := sgn 64 (unsgn 64 (sumQ l)), cyc := k, samples := l.length % 65536, noZc := b || x.forced,
    settling := x.wasReset || l.any (·.settling), clip := l.any (·.clip),
    acc := (x.live.acc.zip (accAdds (sumP l) (sumQ l))).map (fun e => e.1 + BitVec.ofNat 64 e.2) }

theorem State.latched_endCycle (s : State) (f : Nat) (l : List FeedSample) (k : Nat) (b : Bool) (span : Option (Nat × Nat)) :
    Latched s f (cycleLatch (s.feeder f) l k b) (s.endCycle f l k b span) := by
  have h1 : Latched s f (cycleLatch (s.feeder f) l k b)
      (s.modFeeder f (fun y => { y with live := cycleLatch (s.feeder f) l k b, wasReset := false })) :=
    ⟨by rw [State.feeder_modFeeder, if_pos rfl], fun g hg => by rw [State.feeder_modFeeder, if_neg hg]⟩
  have h2 := h1.told ((Told.refl _).setEvt (f := MT_EVT.ACC_WRAP))
  have henergy {t : State} {e : List WinEnergy} (h : Latched s f (cycleLatch (s.feeder f) l k b) t) :
      Latched s f (cycleLatch (s.feeder f) l k b) { t with meter := { t.meter with energy := e } } := h
  exact .ite (.told (.ite (.writeRecord (.ite (henergy (.ite h2 h1)) (.ite h2 h1))) (.ite (henergy (.ite h2 h1)) (.ite h2 h1)))
      (.coresEvent (.refl _)))
    (.ite (.writeRecord (.ite (henergy (.ite h2 h1)) (.ite h2 h1))) (.ite (henergy (.ite h2 h1)) (.ite h2 h1)))

theorem sumP_eq (l : List FeedSample) : sumP l = (l.map (fun x => x.v * x.i)).sum := List.sum_eq_foldl.symm
theorem sumQ_eq (l : List FeedSample) : sumQ l = (l.map (fun x => x.v90 * x.iq)).sum := List.sum_eq_foldl.symm

/-- The event of bit b is latched (R187). -/
theorem State.bitOf_coreEvent_self (s : State) (j b : Nat) (hb : b ≤ 7) : (s.coreEvent j b).bitOf (SEQ_EV.PEND j) b = true := by
  have h := bits_putBits_same (s.get (SEQ_EV.PEND j)) b b (b2n true) (by omega)
  have hx : s.get (SEQ_EV.PEND j) < 2 ^ 8 := by rw [State.get, bits_eq]; exact Nat.mod_lt _ (Nat.two_pow_pos _)
  have hlt := putBits_lt _ b b (b2n true) 8 (by omega) hx (by omega)
  rw [bits_eq, show b + 1 - b = 1 by omega] at h
  rw [State.bitOf, State.coreEvent, State.putBit, State.get_put_same _ _ _ (by simp [SEQ_EV.PEND]) (by simp [SEQ_EV.PEND])]
  rw [show 2 ^ ((SEQ_EV.PEND j).hi + 1 - (SEQ_EV.PEND j).lo) = 2 ^ 8 from rfl, Nat.mod_eq_of_lt hlt, bit, Nat.shiftRight_eq_div_pow]
  simpa [b2n] using h

theorem foldState_mem {σ β : Type} (P : σ → Prop) {l : List β} {f : β → σ → σ} {b : β} (hb : b ∈ l) (hset : ∀ x, P (f b x))
    (hkeep : ∀ a x, P x → P (f a x)) (x : σ) : P (Machine.foldState l f x) := by
  induction l generalizing x with
  | nil => simp at hb
  | cons a t ih =>
    rcases List.mem_cons.mp hb with rfl | hb
    · exact foldState_keeps P t f hkeep _ (hset x)
    · exact ih hb _

/-- Every core is told. -/
theorem State.bitOf_coresEvent (s : State) (b : Nat) (hb : b ≤ 7) (j : Core) : (s.coresEvent b).bitOf (SEQ_EV.PEND j.val) b = true := by
  rw [State.coresEvent]
  refine foldState_mem (fun t : State => t.bitOf (SEQ_EV.PEND j.val) b = true) (l := List.range 32) (f := fun k t => t.coreEvent k b)
    (List.mem_range.mpr j.isLt) (fun t => State.bitOf_coreEvent_self t j.val b hb) (fun k t ht => ?_) s
  by_cases hk : k = j.val
  · subst hk; exact State.bitOf_coreEvent_self t j.val b hb
  · have hreg : (t.coreEvent k b).reg (SEQ_EV j.val) = t.reg (SEQ_EV j.val) :=
      State.reg_coreEvent_ne _ _ _ (by simp only [SEQ_EV]; omega)
    rw [State.bitOf, State.get_of_reg (f := SEQ_EV.PEND j.val) hreg]
    exact ht

theorem State.bitOf_of_told {t : State} (h : State.seqMode (if t.seqMode then t.coresEvent 3 else t) = true) (j : Core) :
    State.bitOf (if t.seqMode then t.coresEvent 3 else t) (SEQ_EV.PEND j.val) 3 = true := by
  cases hm : t.seqMode with
  | true => exact State.bitOf_coresEvent t 3 (by decide) j
  | false => simp [hm] at h

theorem accAdds_pos_pos {p q : Int} (hp : 0 ≤ p) (hq : 0 ≤ q) : accAdds p q = [p.toNat, 0, q.toNat, 0, 0, 0] := by
  simp [accAdds, hp, hq, not_lt.mpr hp, not_lt.mpr hq]

theorem accAdds_neg_pos {p q : Int} (hp : p < 0) (hq : 0 ≤ q) : accAdds p q = [0, (-p).toNat, 0, q.toNat, 0, 0] := by
  simp [accAdds, hp, hq, not_le.mpr hp, not_lt.mpr hq]

theorem accAdds_neg_neg {p q : Int} (hp : p < 0) (hq : q < 0) : accAdds p q = [0, (-p).toNat, 0, 0, (-q).toNat, 0] := by
  simp [accAdds, hp, hq, not_le.mpr hp, not_le.mpr hq]

theorem accAdds_pos_neg {p q : Int} (hp : 0 ≤ p) (hq : q < 0) : accAdds p q = [p.toNat, 0, 0, 0, 0, (-q).toNat] := by
  simp [accAdds, hp, hq, not_lt.mpr hp, not_le.mpr hq]

/-- Away from a synchronising reset a crossing is where it was found. -/
theorem State.crossTime_of_far {s : State} {v t : Nat} (h : s.nearReset t = false) : s.crossTime v t = t := by
  rw [State.crossTime]
  split <;> simp [h]

/-- Settles O19: the crossing by the cases of its command, the cycle's end by `State.latched_endCycle`. -/
theorem meteringCycleAccumulatesEnergy : Obligations.MeteringCycleAccumulatesEnergy := by
  unfold Obligations.MeteringCycleAccumulatesEnergy
  refine ⟨?_, ?_, ?_, fun _ _ => accAdds_pos_pos, fun _ _ => accAdds_neg_pos, fun _ _ => accAdds_neg_neg, fun _ _ => accAdds_pos_neg, ?_, ?_⟩
  · rintro v t a s u hm hp hs hn hl hlt hr rfl
    show Host.Outcome.next _ = _
    simp only [State.crossTime_of_far hn, hm, hp, hs, hl, Option.all_some, hlt, decide_true, and_self, if_true, State.voltCrossing,
      Option.any_some, hr, Option.map_some]
  · intro f t a p k r s hf hrun hper hnum n hn
    simp [State.feederCrossing, hf, hrun, hper, hnum, hn, State.endNumber]
  · rintro f k l b span s u rfl
    obtain ⟨hlive, hrest⟩ := State.latched_endCycle s f l k b span
    refine ⟨?_, hrest, State.bitOf_of_told⟩
    rw [hlive, cycleLatch, sumP_eq, sumQ_eq]
  · intro f k s hm hf hfor hnum
    show Host.Outcome.next _ = _
    simp [hm, hf, State.forceBoundary, hfor, hnum, State.endNumber]
  · intro f k s hm hf hfor hnum
    show Host.Outcome.next _ = _
    simp [hm, hf, State.forceBoundary, hfor, hnum, State.endNumber]

end Sys2Proof.Machine

/-! PROOFS. CCM and protected frames (O59). -/

namespace Sys2Proof.Machine

/-! ### Blocks of AES -/

theorem piecesFuel_of_length {α : Type} {n m f : Nat} {l : List α} (hn : 0 < n) (hl : l.length = n * m) (hf : m ≤ f) :
    (piecesFuel f n l).length = m ∧ ∀ p ∈ piecesFuel f n l, p.length = n := by
  induction m generalizing l f with
  | zero =>
    have h0 : l = [] := List.eq_nil_of_length_eq_zero hl
    subst h0
    cases f <;> simp [piecesFuel]
  | succ m ih =>
    obtain ⟨f, rfl⟩ : ∃ g, f = g + 1 := ⟨f - 1, by omega⟩
    have hm : n * (m + 1) = n * m + n := Nat.mul_succ n m
    have hne : l.isEmpty = false := by cases l with
      | nil => simp at hl; omega
      | cons => rfl
    obtain ⟨h1, h2⟩ := ih (l := l.drop n) (f := f) (by rw [List.length_drop]; omega) (by omega)
    simp only [piecesFuel, hne, Bool.false_eq_true, if_false, List.length_cons, h1, List.mem_cons, true_and]
    rintro p (rfl | hp)
    · rw [List.length_take]; omega
    · exact h2 p hp

/-- A list of `n * m` items is cut into `m` pieces of `n`. -/
theorem pieces_of_length {α : Type} {n m : Nat} {l : List α} (hn : 0 < n) (hl : l.length = n * m) :
    (pieces n l).length = m ∧ ∀ p ∈ pieces n l, p.length = n :=
  piecesFuel_of_length hn hl (by rw [hl]; exact Nat.le_mul_of_pos_left m hn)

theorem xorList_length (a b : List Nat) : (xorList a b).length = min a.length b.length := List.length_zipWith

theorem xorBytes_length (a b : List Byte) : (xorBytes a b).length = min a.length b.length := List.length_zipWith

theorem nth_mem {α : Type} (d : α) {l : List α} {i : Nat} (h : i < l.length) : nth d l i ∈ l := by
  rw [nth, List.getElem?_eq_getElem h, Option.getD_some]
  exact List.getElem_mem h

/-- Every word of the key schedule has four bytes. -/
theorem nextWord_length {nk i rcon : Nat} {ws : List (List Nat)} (hk : 0 < nk) (hw : nk ≤ ws.length) (h4 : ∀ w ∈ ws, w.length = 4) :
    (nextWord nk i ws rcon).length = 4 := by
  have hprev := h4 _ (nth_mem [] (show 0 < ws.length by omega))
  have hlast := h4 _ (nth_mem [] (show nk - 1 < ws.length by omega))
  rw [nextWord, xorList_length, hlast]
  split
  · simp [xorList_length, hprev]
  · split <;> simp [hprev]

theorem schedule_length {fuel nk i rcon : Nat} {ws : List (List Nat)} (hk : 0 < nk) (hw : nk ≤ ws.length) (h4 : ∀ w ∈ ws, w.length = 4) :
    (schedule fuel nk i ws rcon).length = fuel + ws.length ∧ ∀ w ∈ schedule fuel nk i ws rcon, w.length = 4 := by
  induction fuel generalizing i ws rcon with
  | zero => exact ⟨(Nat.zero_add _).symm, h4⟩
  | succ fuel ih =>
    obtain ⟨h1, h2⟩ := ih (i := i + 1) (ws := nextWord nk i ws rcon :: ws) (rcon := if i % nk = 0 then xtime rcon else rcon)
      (by rw [List.length_cons]; omega) (List.forall_mem_cons.mpr ⟨nextWord_length hk hw h4, h4⟩)
    exact ⟨by rw [schedule, h1, List.length_cons]; omega, h2⟩

theorem flatten_length {α : Type} {n : Nat} {l : List (List α)} (h : ∀ w ∈ l, w.length = n) : l.flatten.length = n * l.length := by
  rw [List.length_flatten, List.map_congr_left h, List.map_const', List.sum_replicate, smul_eq_mul, Nat.mul_comm]

/-- A key of four-byte words has 7 round keys more than words, of 16 bytes each. -/
theorem roundKeys_length {key : List Nat} {nk : Nat} (hk : 0 < nk) (h : key.length = 4 * nk) :
    (roundKeys key).length = nk + 7 ∧ ∀ k ∈ roundKeys key, k.length = 16 := by
  obtain ⟨hp, hp4⟩ := pieces_of_length (by decide : 0 < 4) h
  have hnk : key.length / 4 = nk := by omega
  obtain ⟨h1, h2⟩ := schedule_length (fuel := 4 * (nk + 7) - nk) (i := nk) (rcon := 1) (ws := (pieces 4 key).reverse) hk
    (by rw [List.length_reverse, hp]) (fun w hw => hp4 w (List.mem_reverse.mp hw))
  rw [roundKeys, hnk]
  refine pieces_of_length (by decide) ?_
  rw [flatten_length (n := 4) (fun w hw => h2 w (List.mem_reverse.mp hw)), List.length_reverse, h1, List.length_reverse, hp]
  omega

theorem aesRounds_length {ks : List (List Nat)} {s : List Nat} (hks : ks ≠ []) (h16 : ∀ k ∈ ks, k.length = 16) :
    (aesRounds ks s).length = 16 := by
  induction ks generalizing s with
  | nil => exact absurd rfl hks
  | cons k t ih =>
    cases t with
    | nil => simp [aesRounds, xorList_length, shiftRows, pick, h16 k]
    | cons k' t =>
      rw [aesRounds]
      · exact ih (by simp) (fun x hx => h16 x (List.mem_cons_of_mem _ hx))
      · simp

/-- A block is 16 bytes, under a key of 16 or 32. -/
theorem aesEnc_length {key : List Byte} (blk : List Byte) (hk : key.length = 16 ∨ key.length = 32) : (aesEnc key blk).length = 16 := by
  obtain ⟨nk, hpos, hnk⟩ : ∃ nk, 0 < nk ∧ (key.map (·.toNat)).length = 4 * nk := by
    rcases hk with hk | hk
    · exact ⟨4, by decide, by rw [List.length_map, hk]⟩
    · exact ⟨8, by decide, by rw [List.length_map, hk]⟩
  obtain ⟨h1, h2⟩ := roundKeys_length hpos hnk
  rw [aesEnc, List.length_map]
  refine aesRounds_length (fun h0 => ?_) (fun k hk => h2 k (List.mem_of_mem_drop hk))
  have := congrArg List.length h0
  rw [List.length_drop, h1] at this
  simp at this

/-! ### CCM -/

theorem cbcMac_length {key : List Byte} (hk : key.length = 16 ∨ key.length = 32) (blks : List (List Byte)) {x : List Byte}
    (hx : x.length = 16) : (cbcMac key blks x).length = 16 := by
  induction blks generalizing x with
  | nil => exact hx
  | cons b t ih => exact ih (aesEnc_length _ hk)

theorem ccmStream_length {key : List Byte} (hk : key.length = 16 ∨ key.length = 32) (nonce : List Byte) (n i : Nat) :
    (ccmStream key nonce n i).length = 16 * n := by
  induction n generalizing i with
  | zero => rfl
  | succ n ih => rw [ccmStream, List.length_append, aesEnc_length _ hk, ih]; omega

theorem ccmTag_length {key : List Byte} (hk : key.length = 16 ∨ key.length = 32) (nonce aad msg : List Byte) {t : Nat} (ht : t ≤ 16) :
    (ccmTag key nonce aad msg t).length = t := by
  rw [ccmTag, List.length_take, xorBytes_length, cbcMac_length hk _ (by simp), ccmStream_length hk]
  omega

theorem ccmCrypt_length {key : List Byte} (hk : key.length = 16 ∨ key.length = 32) (nonce msg : List Byte) :
    (ccmCrypt key nonce msg).length = msg.length := by
  rw [ccmCrypt, xorBytes_length, ccmStream_length hk]; omega

theorem xorBytes_xorBytes {a b : List Byte} (h : a.length ≤ b.length) : xorBytes (xorBytes a b) b = a := by
  apply List.ext_getElem
  · rw [xorBytes_length, xorBytes_length]; omega
  · intro i h1 h2
    simp [xorBytes]

/-- The key stream taken off again leaves the message. -/
theorem ccmCrypt_ccmCrypt {key : List Byte} (hk : key.length = 16 ∨ key.length = 32) (nonce msg : List Byte) :
    ccmCrypt key nonce (ccmCrypt key nonce msg) = msg := by
  have h := ccmCrypt_length hk nonce msg
  rw [ccmCrypt, h, ccmCrypt]
  exact xorBytes_xorBytes (by rw [ccmStream_length hk]; omega)

theorem ccmDec_crypt {key : List Byte} (hk : key.length = 16 ∨ key.length = 32) (nonce aad msg tag : List Byte) :
    ccmDec key nonce aad (ccmCrypt key nonce msg ++ tag) tag.length =
      if ccmTag key nonce aad msg tag.length = tag then some msg else none := by
  simp only [ccmDec, Nat.add_sub_cancel, List.take_left, List.drop_left, ccmCrypt_ccmCrypt hk, List.length_append, Nat.le_add_left, true_and]

/-! ### Frames (R90) -/

/-- The two levels: the whole body is encrypted, or only a tag is added. -/
theorem unprotect_append {key : List Byte} (hk : key.length = 16 ∨ key.length = 32) (nonce aad body : List Byte) (slv : Nat) :
    ∃ c t, c.length = body.length ∧ t.length = 8 ∧ protect key nonce slv aad body = c ++ t ∧
      ∀ tag : List Byte, tag.length = 8 → unprotect key nonce slv aad (c ++ tag) = if t = tag then some body else none := by
  by_cases h6 : slv % 8 = 6
  · refine ⟨ccmCrypt key nonce body, ccmTag key nonce aad body 8, ccmCrypt_length hk _ _, ccmTag_length hk _ _ _ (by decide), ?_, ?_⟩
    · rw [protect, if_pos h6, ccmEnc]
    · intro tag ht
      have h := ccmDec_crypt hk nonce aad body tag
      rw [ht] at h
      rw [unprotect, if_pos h6, h]
  · have hnil : ccmCrypt key nonce [] = [] := rfl
    refine ⟨body, ccmTag key nonce (aad ++ body) [] 8, rfl, ccmTag_length hk _ _ _ (by decide), ?_, ?_⟩
    · rw [protect, if_neg h6, ccmEnc, hnil, List.nil_append]
    · intro tag ht
      have h := ccmDec_crypt hk nonce (aad ++ body) [] tag
      rw [ht, hnil, List.nil_append] at h
      rw [unprotect, if_neg h6]
      simp only [Nat.add_sub_cancel, List.take_left, List.drop_left, h, List.length_append, ht, Nat.le_add_left, true_and]
      split <;> simp [*]

theorem extractLsb'_byte (x : BitVec 32) (n : Nat) : x.extractLsb' n 8 = BitVec.ofNat 8 (x.toNat / 2 ^ n) := by
  apply BitVec.eq_of_toNat_eq
  simp [Nat.shiftRight_eq_div_pow]

theorem frameNonce_eq (eui : List Byte) (fc : BitVec 32) (slv : Byte) : frameNonce eui fc.toNat slv.toNat =
    eui ++ [fc.extractLsb' 24 8, fc.extractLsb' 16 8, fc.extractLsb' 8 8, fc.extractLsb' 0 8, slv] := by
  simp [frameNonce, beBytes, leBytes, extractLsb'_byte, Nat.div_div_eq_div_mul]

/-- Settles O59, by `unprotect_append`. -/
theorem protectedFramesOpenToWhatWasProtected : Obligations.ProtectedFramesOpenToWhatWasProtected := by
  unfold Obligations.ProtectedFramesOpenToWhatWasProtected
  refine ⟨fun key nonce aad body slv hk _ => ?_, fun eui fc slv _ => frameNonce_eq eui fc slv⟩
  obtain ⟨c, t, hc, ht, hp, hu⟩ := unprotect_append hk nonce aad body slv
  rw [hp, ← hc]
  refine ⟨by rw [List.length_append, ht], (hu t ht).trans (if_pos rfl), fun tag htag hne => ?_⟩
  rw [List.drop_left] at hne
  rw [List.take_left]
  exact (hu tag htag).trans (if_neg (Ne.symm hne))

end Sys2Proof.Machine

/-! PROOFS. Control outputs and their interlocks (O40). -/

namespace Sys2Proof.Machine

/-! ### Bit maps -/

theorem bit_eq_testBit (x i : Nat) : bit x i = x.testBit i := by
  rw [bit, Nat.testBit_eq_decide_div_mod_eq, Nat.shiftRight_eq_div_pow]

theorem bit_eq_bits (x i : Nat) : bit x i = decide (bits x i i = 1) := by
  rw [bit, bits_eq, Nat.shiftRight_eq_div_pow, show i + 1 - i = 1 by omega, pow_one]

/-- One bit put reads back, and the others are kept. -/
theorem bit_putBits (x i j : Nat) (b : Bool) : bit (putBits x i i (b2n b)) j = if j = i then b else bit x j := by
  rw [bit_eq_bits, bit_eq_bits]
  split
  next h =>
    subst h
    rw [bits_putBits_same _ _ _ _ (Nat.le_succ _), show j + 1 - j = 1 by omega]
    cases b <;> rfl
  next h =>
    rcases Nat.lt_or_gt_of_ne h with h | h
    · rw [bits_putBits_below _ _ _ _ _ _ (Nat.le_succ _) h (Nat.le_refl _)]
    · rw [bits_putBits_above _ _ _ _ _ _ (Nat.le_succ _) h]

theorem bitmap_spec (f : Nat → Bool) (n : Nat) : ((List.range n).map (fun o => b2n (f o) * 2 ^ o)).sum < 2 ^ n ∧
    ∀ i < n, bit ((List.range n).map (fun o => b2n (f o) * 2 ^ o)).sum i = f i := by
  induction n with
  | zero => simp
  | succ n ih =>
    obtain ⟨hlt, hbit⟩ := ih
    have hsum : ((List.range (n + 1)).map (fun o => b2n (f o) * 2 ^ o)).sum =
        2 ^ n * b2n (f n) + ((List.range n).map (fun o => b2n (f o) * 2 ^ o)).sum := by
      rw [List.range_succ, List.map_append, List.sum_append, List.map_singleton, List.sum_singleton, Nat.add_comm, Nat.mul_comm]
    have hb : b2n (f n) ≤ 1 := by cases f n <;> decide
    rw [hsum]
    refine ⟨by have := Nat.mul_le_mul_left (2 ^ n) hb; rw [pow_succ]; omega, fun i hi => ?_⟩
    rw [bit_eq_testBit, Nat.testBit_two_pow_mul_add _ hlt]
    split
    next h => rw [← bit_eq_testBit, hbit i h]
    next h =>
      obtain rfl : i = n := by omega
      rw [Nat.sub_self]; cases f i <;> rfl

/-! ### What outputs are wanted at (R260) -/

/-- From `s` to `t` the settings, the trips and the commands of the outputs are the same. -/
def SameControl (s t : State) : Prop :=
  (∀ a, a ≠ CT_OUT → a ≠ HP_CPL_IDX → t.reg a = s.reg a) ∧ t.ctl.held = s.ctl.held ∧ t.ctl.cmd = s.ctl.cmd

theorem SameControl.trans {s t u : State} (h : SameControl s t) (h' : SameControl t u) : SameControl s u :=
  ⟨fun a h1 h2 => (h'.1 a h1 h2).trans (h.1 a h1 h2), h'.2.1.trans h.2.1, h'.2.2.trans h.2.2⟩

section
variable {s t : State}

theorem State.ctHeld_of_same (hr : t.reg CT_TRIP = s.reg CT_TRIP) (hh : t.ctl.held = s.ctl.held) (o : Nat) : t.ctHeld o = s.ctHeld o := by
  have hb (g : Nat) : t.bitOf CT_TRIP.GUARD g = s.bitOf CT_TRIP.GUARD g := by
    rw [State.bitOf, State.bitOf, State.get_of_reg (f := CT_TRIP.GUARD) hr]
  simp only [State.ctHeld, hb, hh]

theorem SameControl.ctHeld (h : SameControl s t) (o : Nat) : t.ctHeld o = s.ctHeld o :=
  State.ctHeld_of_same (h.1 _ (by decide) (by decide)) h.2.1 o

theorem SameControl.heldMap (h : SameControl s t) : t.heldMap = s.heldMap := by simp only [State.heldMap, h.ctHeld]

theorem SameControl.safe (h : SameControl s t) {o : Nat} : t.flag (CT_OCFG.SAFE o) = s.flag (CT_OCFG.SAFE o) :=
  State.flag_of_reg (f := CT_OCFG.SAFE o) (h.1 _ (by simp only [CT_OCFG.SAFE, CT_OCFG, CT_OUT]; omega)
    (by simp only [CT_OCFG.SAFE, CT_OCFG, HP_CPL_IDX]; omega))

theorem SameControl.ctWant (h : SameControl s t) (o : Nat) : t.ctWant o = s.ctWant o := by
  rw [State.ctWant, State.ctWant, h.ctHeld, h.safe, State.ctCmd, State.ctCmd, h.2.2]

theorem SameControl.paired2 (h : SameControl s t) (i : Nat) : t.paired2 i = s.paired2 i := by
  rw [State.paired2, State.paired2, State.bitOf, State.bitOf, State.get_of_reg (f := CT_PAIR.PAIRS) (h.1 _ (by decide) (by decide))]

theorem SameControl.bothSafe (h : SameControl s t) : t.bothSafe = s.bothSafe := by
  simp only [State.bothSafe, h.paired2, h.safe]

end

/-! ### Settling the pairs (R261) -/

theorem State.ctCmd_command (s : State) (o j : Nat) (on : Bool) :
    (s.command o on).ctCmd j = (decide (j < 16) && if j = o then on else s.ctCmd j) := by
  simp only [State.ctCmd, State.command, BitVec.getLsbD_ofNat, ← bit_eq_testBit, bit_putBits]
  split
  · rfl
  · rw [bit_eq_testBit]; rfl

/-- From `s` to `t` nothing but commands have changed, and no output is commanded on anew. -/
def OnlyOff (s t : State) : Prop := t.regs = s.regs ∧ t.ctl.held = s.ctl.held ∧ ∀ j, t.ctCmd j = true → s.ctCmd j = true

section
variable {s t u : State}

theorem OnlyOff.refl (s : State) : OnlyOff s s := ⟨rfl, rfl, fun _ h => h⟩

theorem OnlyOff.trans (h : OnlyOff s t) (h' : OnlyOff t u) : OnlyOff s u :=
  ⟨h'.1.trans h.1, h'.2.1.trans h.2.1, fun j hj => h.2.2 j (h'.2.2 j hj)⟩

theorem OnlyOff.command (s : State) (o : Nat) : OnlyOff s (s.command o false) := by
  refine ⟨rfl, rfl, fun j hj => ?_⟩
  rw [State.ctCmd_command] at hj
  by_cases h : j = o <;> simp [h] at hj
  exact hj.2

theorem OnlyOff.settlePair (s : State) (i : Nat) : OnlyOff s (s.settlePair i) := by
  unfold State.settlePair
  dsimp only
  split
  · split
    · exact OnlyOff.command _ _
    · split
      · exact OnlyOff.command _ _
      · exact OnlyOff.trans ⟨rfl, rfl, fun _ h => h⟩ (OnlyOff.command _ _)
  · exact OnlyOff.refl s

theorem OnlyOff.reg (h : OnlyOff s t) (a : Nat) : t.reg a = s.reg a := State.reg_of_regs h.1 a

theorem OnlyOff.flag (h : OnlyOff s t) (f : Fld) : t.flag f = s.flag f := State.flag_of_reg (h.reg _)

theorem OnlyOff.ctHeld (h : OnlyOff s t) (o : Nat) : t.ctHeld o = s.ctHeld o := State.ctHeld_of_same (h.reg _) h.2.1 o

theorem OnlyOff.paired2 (h : OnlyOff s t) (i : Nat) : t.paired2 i = s.paired2 i := by
  rw [State.paired2, State.paired2, State.bitOf, State.bitOf, State.get_of_reg (f := CT_PAIR.PAIRS) (h.reg _)]

theorem OnlyOff.bothSafe (h : OnlyOff s t) : t.bothSafe = s.bothSafe := by simp only [State.bothSafe, h.paired2, h.flag]

theorem OnlyOff.ctWant (h : OnlyOff s t) {o : Nat} (ho : t.ctWant o = true) : s.ctWant o = true := by
  rw [State.ctWant, h.ctHeld, h.flag] at ho
  rw [State.ctWant]
  split at ho
  next hh => rw [if_pos hh]; exact ho
  next hh => rw [if_neg hh]; exact h.2.2 o ho

end

/-- Pair i, if it is interlocked, is not wanted on whole. -/
def State.Settled (s : State) (i : Nat) : Prop := s.paired2 i = true → s.ctWant (2 * i) = true → s.ctWant (2 * i + 1) = false

theorem State.Settled.mono {s t : State} {i : Nat} (hs : s.Settled i) (h : OnlyOff s t) : t.Settled i := by
  intro hp ha
  by_contra hb
  have := hs (h.paired2 i ▸ hp) (h.ctWant ha)
  rw [h.ctWant (Bool.eq_true_of_not_eq_false hb)] at this
  exact absurd this (by decide)

/-- A member commanded off that no trip holds is not wanted on. -/
theorem State.ctWant_command_off {s : State} {o : Nat} (h : s.ctHeld o = false) : (s.command o false).ctWant o = false := by
  rw [State.ctWant, (OnlyOff.command s o).ctHeld, h, if_neg (by decide), State.ctCmd_command, if_pos rfl, Bool.and_false]

theorem State.safe_of_bothSafe {s : State} {i : Nat} (hs : s.bothSafe = false) (hi : i < 8) (hp : s.paired2 i = true)
    (ha : s.flag (CT_OCFG.SAFE (2 * i)) = true) : s.flag (CT_OCFG.SAFE (2 * i + 1)) = false := by
  by_contra hb
  have hany : s.bothSafe = true := List.any_eq_true.mpr ⟨i, List.mem_range.mpr hi, by simp [hp, ha, hb]⟩
  rw [hs] at hany
  exact absurd hany (by decide)

theorem State.settled_settlePair {s : State} {i : Nat} (hs : s.bothSafe = false) (hi : i < 8) : (s.settlePair i).Settled i := by
  unfold State.settlePair
  dsimp only
  split
  next h =>
    simp only [Bool.and_eq_true] at h
    obtain ⟨⟨hp, ha⟩, hb⟩ := h
    split
    next hha =>
      refine fun _ _ => State.ctWant_command_off ?_
      by_contra hhb
      rw [State.ctWant, if_pos hha] at ha
      rw [State.ctWant, if_pos (Bool.eq_true_of_not_eq_false hhb), State.safe_of_bothSafe hs hi hp ha] at hb
      exact absurd hb (by decide)
    next hha =>
      have hoff (t : State) (hreg : t.regs = s.regs) (hheld : t.ctl.held = s.ctl.held) : (t.command (2 * i) false).Settled i := by
        intro _ hw
        have hh : t.ctHeld (2 * i) = false := (State.ctHeld_of_same (State.reg_of_regs hreg _) hheld _).trans (by simpa using hha)
        rw [State.ctWant_command_off hh] at hw
        exact absurd hw (by decide)
      split
      · exact hoff s rfl rfl
      next hhb =>
        have h2 : (s.free 2).1 = 0 ∨ (s.free 2).1 = 1 := by
          have : (s.free 2).1 < 2 := Nat.mod_lt _ (by decide)
          omega
        rcases h2 with h2 | h2
        · rw [h2]; exact hoff _ rfl rfl
        · rw [h2]
          refine fun _ _ => State.ctWant_command_off ?_
          exact (State.ctHeld_of_same (s := s) (t := (s.free 2).2) rfl rfl _).trans (by simpa using hhb)
  next h =>
    intro hp ha
    by_contra hb
    exact h (by simp [hp, ha, Bool.eq_true_of_not_eq_false hb])

/-- The pairs one after another. -/
def State.settled (s : State) : State := foldState (List.range 8) (fun i t => t.settlePair i) s

theorem State.onlyOff_settled (s : State) : OnlyOff s s.settled :=
  foldState_keeps (OnlyOff s) _ _ (fun i _ h => h.trans (OnlyOff.settlePair _ i)) s (OnlyOff.refl s)

theorem State.settled_spec {s : State} (hs : s.bothSafe = false) {i : Nat} (hi : i < 8) : s.settled.Settled i := by
  have hkeep : ∀ (l : List Nat) (t : State), OnlyOff s t → (i ∈ l ∨ t.Settled i) →
      (foldState l (fun i t => t.settlePair i) t).Settled i := by
    intro l
    induction l with
    | nil => intro t _ h; exact h.resolve_left (by simp)
    | cons j l ih =>
      intro t ht h
      have htj := ht.trans (OnlyOff.settlePair t j)
      refine ih _ htj ?_
      rcases h with h | h
      · rcases List.mem_cons.mp h with rfl | h
        · exact .inr (State.settled_settlePair (ht.bothSafe.trans hs) hi)
        · exact .inl h
      · exact .inr (h.mono (OnlyOff.settlePair t j))
  exact hkeep _ s (OnlyOff.refl s) (.inl (List.mem_range.mpr hi))

/-! ### Bringing the outputs to their levels (R261) -/

theorem State.reg_complete_ne (s : State) (tag st info : Nat) (l : List Byte) {a : Nat} (h : a ≠ HP_CPL_IDX) :
    (s.complete tag st info l).reg a = s.reg a := by
  unfold State.complete
  split
  · rfl
  · exact (State.reg_put_ne _ _ _ h).trans (State.reg_setWord ..)

theorem State.ctl_complete (s : State) (tag st info : Nat) (l : List Byte) : (s.complete tag st info l).ctl = s.ctl :=
  (Told.refl s).complete.same (c := .ctl) (by decide)

theorem State.complete_same (s : State) (tag st info : Nat) (l : List Byte) : SameControl s (s.complete tag st info l) := by
  rw [SameControl, State.ctl_complete]
  exact ⟨fun a _ h => State.reg_complete_ne _ _ _ _ _ h, rfl, rfl⟩

theorem State.finishActs_spec (s : State) : SameControl s s.finishActs ∧ s.finishActs.reg CT_OUT = s.reg CT_OUT := by
  have h0 : SameControl s { s with ctl := { s.ctl with acts := s.ctl.acts.filter (fun x => !s.actDone x) } } :=
    ⟨fun _ _ _ => rfl, rfl, rfl⟩
  rw [State.finishActs]
  refine foldState_keeps (fun t : State => SameControl s t ∧ t.reg CT_OUT = s.reg CT_OUT) _ _ (fun x t h => ⟨?_, ?_⟩) _ ⟨h0, rfl⟩
  · exact h.1.trans (State.complete_same ..)
  · exact (State.reg_complete_ne _ _ _ _ _ (by decide)).trans h.2

theorem State.regs_setCtl (s : State) (c : CtlSt) : State.regs { s with ctl := c } = s.regs := rfl

theorem State.fbPass_same (s : State) : SameControl s s.fbPass ∧ s.fbPass.regs = s.regs := ⟨⟨fun _ _ _ => rfl, rfl, rfl⟩, rfl⟩

/-- Only CT_OUT and the checks that run change when outputs go to new levels. -/
theorem State.putLevels_eq (s : State) (n : Nat) : ∃ l, s.putLevels n =
    State.fbPass { (s.put CT_OUT.LEVEL n).put CT_OUT.HELD s.heldMap with
      ctl := { ((s.put CT_OUT.LEVEL n).put CT_OUT.HELD s.heldMap).ctl with check := l } } := ⟨_, by rw [State.putLevels]⟩

theorem State.get_held_put (s : State) (m : Nat) : (s.put CT_OUT.HELD m).get CT_OUT.HELD = m % 2 ^ 16 :=
  State.get_put_same s CT_OUT.HELD m (by decide) (by decide)

theorem State.putLevels_spec (s : State) (n : Nat) : SameControl s (s.putLevels n) ∧
    (s.putLevels n).get CT_OUT.LEVEL = n % 2 ^ 16 ∧ (s.putLevels n).get CT_OUT.HELD = s.heldMap % 2 ^ 16 := by
  have hapart := State.get_put_apart (s.put CT_OUT.LEVEL n) CT_OUT.HELD CT_OUT.LEVEL s.heldMap rfl (by decide) (by decide) (by decide)
    (by decide)
  have hlevel := State.get_put_same s CT_OUT.LEVEL n (by decide) (by decide)
  have hheld := State.get_held_put (s.put CT_OUT.LEVEL n) s.heldMap
  obtain ⟨l, hl⟩ := s.putLevels_eq n
  have hne (a : Nat) (h : a ≠ CT_OUT) : ((s.put CT_OUT.LEVEL n).put CT_OUT.HELD s.heldMap).reg a = s.reg a :=
    (State.reg_put_ne (s.put CT_OUT.LEVEL n) CT_OUT.HELD _ h).trans (State.reg_put_ne s CT_OUT.LEVEL n h)
  have hctl : ((s.put CT_OUT.LEVEL n).put CT_OUT.HELD s.heldMap).ctl = s.ctl := by rw [State.put_ctl, State.put_ctl]
  generalize (s.put CT_OUT.LEVEL n).put CT_OUT.HELD s.heldMap = u at *
  obtain ⟨⟨-, hcheld, hccmd⟩, hregs⟩ := State.fbPass_same { u with ctl := { u.ctl with check := l } }
  have hreg (a : Nat) : (s.putLevels n).reg a = u.reg a := State.reg_of_regs (by rw [hl, hregs]) a
  refine ⟨⟨fun a h _ => (hreg a).trans (hne a h), ?_, ?_⟩, ?_, ?_⟩
  · rw [hl, hcheld, ← hctl]
  · rw [hl, hccmd, ← hctl]
  · rw [State.get_of_reg (hreg _), hapart, hlevel]; rfl
  · rw [State.get_of_reg (hreg _), hheld]

/-- The pairs whose dead time begins, with the levels before the change (R261). -/
def State.deadBegin (s : State) (before : Nat) : List Nat :=
  (List.range 8).filter (fun i => s.paired2 i &&
    ((s.ctWant (2 * i) && bit before (2 * i + 1)) || (s.ctWant (2 * i + 1) && bit before (2 * i))) &&
    !(s.ctWant (2 * i) && bit before (2 * i)) && !(s.ctWant (2 * i + 1) && bit before (2 * i + 1)))

/-- The dead times begin and end. -/
def State.deadTimes (s : State) (before : Nat) : State :=
  { s with ctl := { s.ctl with
    dead := Machine.foldState (s.deadBegin before) (fun i l => setInsert i l) (s.ctl.dead.filter (fun i => s.paired2 i)) } }

/-- The levels after a change, as a bit map. -/
def State.levelMap (s : State) (before : Nat) : Nat := ((List.range 16).map (fun o => b2n (s.nextLevel before o) * 2 ^ o)).sum

theorem State.relevel_eq (s : State) : s.relevel =
    ((s.settled.deadTimes (s.settled.get CT_OUT.LEVEL)).putLevels (s.settled.levelMap (s.settled.get CT_OUT.LEVEL))).finishActs := rfl

theorem State.deadTimes_same (s : State) (before : Nat) : SameControl s (s.deadTimes before) := ⟨fun _ _ _ => rfl, rfl, rfl⟩

/-- The level that each output goes to. -/
theorem State.relevel_spec (s : State) : SameControl s.settled s.relevel ∧
    (∀ o < 16, bit (s.relevel.get CT_OUT.LEVEL) o = s.settled.nextLevel (s.settled.get CT_OUT.LEVEL) o) ∧
    s.relevel.get CT_OUT.HELD = s.settled.heldMap := by
  obtain ⟨hlt, hbit⟩ := bitmap_spec (fun o => s.settled.nextLevel (s.settled.get CT_OUT.LEVEL) o) 16
  have hu := s.settled.deadTimes_same (s.settled.get CT_OUT.LEVEL)
  obtain ⟨hp, hlevel, hheld⟩ := State.putLevels_spec (s.settled.deadTimes (s.settled.get CT_OUT.LEVEL))
    (s.settled.levelMap (s.settled.get CT_OUT.LEVEL))
  obtain ⟨hf, hout⟩ := State.finishActs_spec
    ((s.settled.deadTimes (s.settled.get CT_OUT.LEVEL)).putLevels (s.settled.levelMap (s.settled.get CT_OUT.LEVEL)))
  rw [State.relevel_eq]
  refine ⟨(hu.trans hp).trans hf, fun o ho => ?_, ?_⟩
  · rw [State.get_of_reg (f := CT_OUT.LEVEL) hout, hlevel, State.levelMap, Nat.mod_eq_of_lt hlt, hbit o ho]
  · rw [State.get_of_reg (f := CT_OUT.HELD) hout, hheld, hu.heldMap, Nat.mod_eq_of_lt]
    exact (bitmap_spec (fun o => s.settled.ctHeld o) 16).1

theorem State.nextLevel_of_unwanted {s : State} {before o : Nat} (h : s.ctWant o = false) : s.nextLevel before o = false := by
  simp [State.nextLevel, h]

theorem State.nextLevel_of_unpaired {s : State} {before o : Nat} (h : s.paired2 (o / 2) = false) : s.nextLevel before o = s.ctWant o := by
  cases hw : s.ctWant o <;> simp [State.nextLevel, h, hw]

theorem State.bothSafe_refuse {s : State} (who : Accessor) (a st : Nat) : (s.refuse who a st).bothSafe = s.bothSafe := by
  have hreg (b : Nat) (h : 0xC0000 ≤ b) : (s.refuse who a st).reg b = s.reg b :=
    State.reg_refuse_ne _ _ _ _ (by rw [HP_EV_IDX]; omega) (by rw [HP_EV_LOST]; omega)
  have hp (i : Nat) : (s.refuse who a st).paired2 i = s.paired2 i := by
    rw [State.paired2, State.paired2, State.bitOf, State.bitOf, State.get_of_reg (f := CT_PAIR.PAIRS) (hreg _ (by decide))]
  have hsafe (o : Nat) : (s.refuse who a st).flag (CT_OCFG.SAFE o) = s.flag (CT_OCFG.SAFE o) :=
    State.flag_of_reg (f := CT_OCFG.SAFE o) (hreg _ (by simp only [CT_OCFG.SAFE, CT_OCFG]; omega))
  simp only [State.bothSafe, hp, hsafe]

theorem State.bothSafe_relevel (s : State) : s.relevel.bothSafe = s.bothSafe :=
  s.relevel_spec.1.bothSafe.trans s.onlyOff_settled.bothSafe

/-- A write of the pairs or of an output's settings that would leave SAFE = 1 twice is refused. -/
theorem State.bothSafe_writeCtCfg {s : State} {who : Accessor} {a : Nat} {v : Word} (h : s.bothSafe = false) :
    (s.enter who a (fun t => t.writeCtCfg who a v)).bothSafe = false := by
  unfold State.enter
  split
  · exact h
  · split
    · exact (State.bothSafe_refuse ..).trans h
    · unfold State.writeCtCfg
      dsimp only
      cases hb : (s.writePlain a v).bothSafe with
      | true => rw [if_pos rfl]; exact (State.bothSafe_refuse ..).trans h
      | false => rw [if_neg (by decide), State.bothSafe_relevel, hb]

/-- Settles O40: the pairs are settled before levels are chosen (`State.settled_spec`), and only wanted outputs are on. -/
theorem interlockedPairsAreNeverBothOn : Obligations.InterlockedPairsAreNeverBothOn := by
  unfold Obligations.InterlockedPairsAreNeverBothOn
  refine ⟨fun s => ?_, by decide, fun who o v s t h hx => ?_⟩
  · obtain ⟨hsame, hlevel, hheld⟩ := s.relevel_spec
    refine ⟨fun hs i hp ha => ?_, fun o hw => ?_, fun o hp => ?_, hheld.trans hsame.heldMap.symm⟩
    · have hi := i.isLt
      rw [hlevel _ (by omega)] at ha ⊢
      have hwant : s.settled.ctWant (2 * i.val) = true := by
        by_contra hw
        rw [State.nextLevel_of_unwanted (by simpa using hw)] at ha
        exact absurd ha (by decide)
      exact State.nextLevel_of_unwanted (State.settled_spec hs hi (hsame.paired2 _ ▸ hp) hwant)
    · rw [hlevel _ o.isLt, State.nextLevel_of_unwanted (hsame.ctWant _ ▸ hw)]
    · rw [hlevel _ o.isLt, State.nextLevel_of_unpaired (hsame.paired2 _ ▸ hp), hsame.ctWant]
  · rcases hx with hx | hx
    · exact Host.Outcome.next.inj hx ▸ State.bothSafe_writeCtCfg h
    · exact Host.Outcome.next.inj hx ▸ State.bothSafe_writeCtCfg h

end Sys2Proof.Machine

/-! PROOFS. Key slots (O43). -/

namespace Sys2Proof.Machine

/-! ### Key slots (R276 to R280) -/

theorem State.slot_setSlot (s : State) (i j : Nat) (x : KeySlot) : (s.setSlot i x).slot j = if j = i then x else s.slot j := by
  simp only [State.slot, State.setSlot, mget_mset]

theorem State.slot_setSlot_self (s : State) (i : Nat) (x : KeySlot) : (s.setSlot i x).slot i = x := by simp [State.slot_setSlot]

theorem State.slot_setSlot_ne (s : State) {i j : Nat} (x : KeySlot) (h : j ≠ i) : (s.setSlot i x).slot j = s.slot j := by
  simp [State.slot_setSlot, h]

theorem Frame.setWd (s : State) (x : WardenSt) : Frame [.wd] s { s with wd := x } := by
  intro c hc
  cases c
  case wd => exact absurd hc (by decide)
  case poison => exact ⟨rfl, rfl⟩
  all_goals rfl

theorem beNat_lt (l : List Byte) : beNat l < 256 ^ l.length := by
  have hfold : ∀ (l : List Byte) (a : Nat), l.foldl (fun a b => a * 256 + b.toNat) a < (a + 1) * 256 ^ l.length := by
    intro l
    induction l with
    | nil => intro a; simp
    | cons b t ih =>
      intro a
      have hb := b.isLt
      refine lt_of_lt_of_le (ih (a * 256 + b.toNat)) ?_
      rw [List.length_cons, pow_succ, Nat.mul_comm (256 ^ t.length), ← Nat.mul_assoc]
      exact Nat.mul_le_mul_right _ (by omega)
  simpa [beNat] using hfold l 0

/-- Key material of 32 bytes keeps its value in a slot. -/
theorem toNat_keyBits (l : List Byte) : (BitVec.ofNat 256 (beNat (padTo 32 l))).toNat = beNat (padTo 32 l) := by
  have h := beNat_lt (padTo 32 l)
  rw [padTo_length] at h
  rw [BitVec.toNat_ofNat, Nat.mod_eq_of_lt (lt_of_lt_of_le h (by norm_num))]

theorem State.eraseSlot_of_empty {s : State} {i : Nat} (h : (s.slot i).type = 0) : s.eraseSlot i = s := if_pos h

theorem State.eraseSlot_of_key {s : State} {i : Nat} (h : (s.slot i).type ≠ 0) :
    s.eraseSlot i = (s.setSlot i { version := (s.slot i).version + 1 }).eraseJobs i := if_neg h

theorem State.slot_eraseJobs (s : State) (i j : Nat) : (s.eraseJobs i).slot j = s.slot j := rfl

/-- A job in an engine under the slot is condemned. -/
theorem State.mem_jobs_eraseJobs {s : State} {i : Nat} {j : CipherJob} (hj : j ∈ s.wd.jobs) (he : j.entered = true) (hv : j.verdict = none)
    (ho : j.op ∉ [7, 9, 12]) (hs : j.slot = i) : { j with verdict := some (3#8, 0#8) } ∈ (s.eraseJobs i).wd.jobs := by
  simp only [List.mem_cons, List.not_mem_nil, or_false, not_or] at ho
  obtain ⟨h7, h9, h12⟩ := ho
  exact List.mem_map.mpr ⟨j, hj, if_pos ⟨he, hv, h7, h9, h12, hs⟩⟩

theorem State.slot_setEvtWith (s : State) (f : Fld) (l : List Byte) (j : Nat) : (s.setEvtWith f l).slot j = s.slot j := by
  have hw : (s.setEvtWith f l).wd = s.wd := (Told.refl s).setEvtWith.same (c := .wd) (by decide)
  rw [State.slot, State.slot, hw]

/-- The slot after one of its counter values was taken. -/
def KeySlot.counted (k : KeySlot) (thresh : Nat) : KeySlot :=
  { k with counter := k.counter + 1, exhausted := k.exhausted || decide (k.counter.toNat = 0xFFFFFFFE),
           warned := k.warned || (!k.warned && decide (thresh ≤ k.counter.toNat)) }

theorem State.takeCounter_of_end {s : State} {i : Nat} (h : (s.slot i).counter.toNat = 0xFFFFFFFF) : s.takeCounter i = (none, s) := by
  simp [State.takeCounter, h]

theorem State.takeCounter_spec {s : State} {i : Nat} (h : (s.slot i).counter.toNat ≠ 0xFFFFFFFF) :
    (s.takeCounter i).1 = some (s.slot i).counter.toNat ∧
      ∀ j, (s.takeCounter i).2.slot j = (s.setSlot i ((s.slot i).counted (s.get WD_CTRWARN.THRESH))).slot j := by
  have he (c : Prop) [Decidable c] (t : State) (f : Fld) (l : List Byte) (j : Nat) :
      State.slot (if c then t.setEvtWith f l else t) j = t.slot j := by
    split
    · exact State.slot_setEvtWith ..
    · rfl
  simp only [State.takeCounter, if_neg h, he, KeySlot.counted, implies_true, and_self]

theorem State.takeCounter_none_iff {s : State} {i : Nat} : (s.takeCounter i).1 = none ↔ (s.slot i).counter.toNat = 0xFFFFFFFF := by
  refine ⟨fun h => ?_, fun h => by rw [State.takeCounter_of_end h]⟩
  by_contra hc
  rw [(State.takeCounter_spec hc).1] at h
  cases h

/-- Settles O43, by the equations of the slot operations. -/
theorem slotsAgeWithEveryChange : Obligations.SlotsAgeWithEveryChange := by
  unfold Obligations.SlotsAgeWithEveryChange
  refine ⟨?_, ?_, fun s i h => State.eraseSlot_of_empty h, fun s i h => if_pos h, fun s i h => if_neg h, fun s i p key m x y d u hk hy => ?_,
    fun s i p key x h => ?_, fun s => rfl, fun s i v t h => ?_, fun s i => State.takeCounter_none_iff⟩
  · rintro s i type usage counter key t rfl ht
    have hslot : (s.loadSlot i type usage counter key).slot i = _ := State.slot_setSlot_self ..
    rw [hslot]
    exact ⟨by simp [KeySlot.state, ht], rfl, rfl, rfl, rfl, toNat_keyBits key, fun j hj => State.slot_setSlot_ne s _ hj, Frame.setWd _ _⟩
  · rintro s i t rfl ht
    rw [State.eraseSlot_of_key ht]
    have hslot : ((s.setSlot i { version := (s.slot i).version + 1 }).eraseJobs i).slot i = { version := (s.slot i).version + 1 } :=
      State.slot_setSlot_self ..
    rw [hslot]
    exact ⟨rfl, rfl, rfl, rfl, fun j hj => State.slot_setSlot_ne s _ hj, Frame.setWd _ _, fun j hj he hv ho hs =>
      State.mem_jobs_eraseJobs hj he hv ho hs⟩
  · refine ⟨fun hm => ?_, fun hm hf => ?_⟩
    · rw [hk] at hy
      simp [State.eraseFrame, hk, hy, hm]
    · rw [hk] at hy
      simp [State.eraseFrame, hk, hy, hm, hf]
  · rw [State.eraseFrame]
    split
    next h1 => rw [h] at h1; cases h1
    next => rfl
  · by_cases hc : (s.slot i).counter.toNat = 0xFFFFFFFF
    · rw [State.takeCounter_of_end hc] at h; cases h
    · obtain ⟨h1, h2⟩ := State.takeCounter_spec hc
      rw [h] at h1 h2
      obtain rfl := Option.some.inj h1
      refine ⟨rfl, hc, ?_, ?_, ?_, fun j hj => by rw [h2, State.slot_setSlot_ne _ _ hj]⟩
      all_goals rw [h2, State.slot_setSlot_self]; rfl

end Sys2Proof.Machine

/-! PROOFS. Written fields, and the registers of the host rings (O35). -/

namespace Sys2Proof.Machine

/-! ### What a written field holds (R5) -/

/-- Field [hi:lo] of a register takes what is written. -/
def Access.takes : Access → Bool
  | .rw | .rwp | .rwf => true
  | _ => false

/-- Of the fields of a list, [hi:lo] takes what is written and no other reaches into it. -/
def takesField (l : List FieldDesc) (hi lo : Nat) : Bool :=
  l.any (fun f => decide (f.hi = hi ∧ f.lo = lo)) &&
    l.all (fun f => decide (f.lo ≤ f.hi ∧ f.hi < 32) && ((decide (f.hi = hi ∧ f.lo = lo) && f.acc.takes) || decide (f.hi < lo ∨ hi < f.lo)))

/-- Whatever its access code, a field is written by putting bits at its place. -/
theorem putField_eq_putBits (x v : Nat) (f : FieldDesc) : ∃ w, putField x v f = putBits x f.hi f.lo w := by
  unfold putField
  cases f.acc
  case ro => exact ⟨_, (putBits_bits _ _ _).symm⟩
  case wo => exact ⟨_, (putBits_bits _ _ _).symm⟩
  case rc => exact ⟨_, (putBits_bits _ _ _).symm⟩
  all_goals exact ⟨_, rfl⟩

theorem putField_of_takes (x v : Nat) {f : FieldDesc} (h : f.acc.takes = true) : putField x v f = putBits x f.hi f.lo (bits v f.hi f.lo) := by
  unfold putField
  revert h
  cases f.acc <;> simp [Access.takes]

/-- Where each field is the one at [hi:lo] or apart from it, the writing of all of them leaves its bits there. -/
theorem bits_foldl_putField {l : List FieldDesc} {hi lo v x : Nat} (hle : lo ≤ hi)
    (h : l.all (fun f => decide (f.lo ≤ f.hi ∧ f.hi < 32) &&
      ((decide (f.hi = hi ∧ f.lo = lo) && f.acc.takes) || decide (f.hi < lo ∨ hi < f.lo))) = true) :
    bits (l.foldl (fun x f => putField x v f) x) hi lo =
      if l.any (fun f => decide (f.hi = hi ∧ f.lo = lo)) then bits v hi lo else bits x hi lo := by
  induction l generalizing x with
  | nil => rfl
  | cons f t ih =>
    simp only [List.all_cons, Bool.and_eq_true, decide_eq_true_eq, Bool.or_eq_true] at h
    obtain ⟨⟨⟨hf, -⟩, hd⟩, ht⟩ := h
    rw [List.foldl_cons, ih ht, List.any_cons]
    rcases hd with ⟨⟨rfl, rfl⟩, ha⟩ | hd
    · rw [putField_of_takes x v ha, bits_putBits_same _ _ _ _ (by omega)]
      simp [bits_eq]
    · obtain ⟨w, hw⟩ := putField_eq_putBits x v f
      have hne : ¬ (f.hi = hi ∧ f.lo = lo) := by omega
      have hb : bits (putBits x f.hi f.lo w) hi lo = bits x hi lo := by
        rcases hd with hd | hd
        · exact bits_putBits_above _ _ _ _ _ _ (by omega) hd
        · exact bits_putBits_below _ _ _ _ _ _ (by omega) hd hle
      rw [hw, hb, decide_eq_false hne, Bool.false_or]

theorem foldl_putField_lt {l : List FieldDesc} {v x : Nat} (h : l.all (fun f => decide (f.lo ≤ f.hi ∧ f.hi < 32)) = true) (hx : x < 2 ^ 32) :
    l.foldl (fun x f => putField x v f) x < 2 ^ 32 := by
  induction l generalizing x with
  | nil => exact hx
  | cons f t ih =>
    simp only [List.all_cons, Bool.and_eq_true, decide_eq_true_eq] at h
    obtain ⟨⟨hf, hf'⟩, ht⟩ := h
    obtain ⟨w, hw⟩ := putField_eq_putBits x v f
    rw [List.foldl_cons, hw]
    exact ih ht (putBits_lt _ _ _ _ _ (by omega) hx hf')

/-- The register named holds field [hi:lo], which takes what is written. -/
def fieldTaken (f : Fld) : Bool := decide (f.lo ≤ f.hi) && (regFind f.addr).any (fun d => takesField d.1.fields f.hi f.lo)

/-- A field that takes what is written reads as the value's bits. -/
theorem State.get_writePlain {f : Fld} (s : State) (v : Word) (h : fieldTaken f = true) : (s.writePlain f.addr v).get f = bits v.toNat f.hi f.lo := by
  simp only [fieldTaken, Bool.and_eq_true, decide_eq_true_eq] at h
  obtain ⟨hle, h⟩ := h
  cases hd : regFind f.addr with
  | none => simp [hd] at h
  | some d =>
    simp only [hd, Option.any_some, takesField, Bool.and_eq_true] at h
    obtain ⟨hany, hall⟩ := h
    have hlt := foldl_putField_lt (v := v.toNat) (l := d.1.fields) (x := (s.reg f.addr).toNat)
      (List.all_eq_true.mpr fun g hg => (Bool.and_eq_true _ _ ▸ List.all_eq_true.mp hall g hg).1) (BitVec.isLt _)
    rw [State.writePlain_of_found v hd, State.get, State.reg_setReg_self, writtenWord, BitVec.toNat_ofNat, Nat.mod_eq_of_lt hlt,
      bits_foldl_putField hle hall, if_pos hany]

theorem State.flag_writePlain {f : Fld} (s : State) (v : Word) (h : fieldTaken f = true) (hf : f.hi = f.lo) :
    (s.writePlain f.addr v).flag f = bit v.toNat f.lo := by
  rw [State.flag, State.get_writePlain s v h, hf, bit, bits_eq]
  have h2 : v.toNat / 2 ^ f.lo % 2 < 2 := Nat.mod_lt _ (by decide)
  rw [Nat.shiftRight_eq_div_pow, Nat.add_sub_cancel_left, pow_one]
  interval_cases v.toNat / 2 ^ f.lo % 2 <;> rfl

/-- A plain write changes its own register alone. -/
theorem State.writePlain_eq (s : State) (a : Nat) (v : Word) : s.writePlain a v = s ∨ ∃ w, s.writePlain a v = s.setReg a w := by
  unfold State.writePlain
  split
  · exact .inl rfl
  · exact .inr ⟨_, rfl⟩

theorem State.reg_writePlain_ne (s : State) {a b : Nat} (v : Word) (h : b ≠ a) : (s.writePlain a v).reg b = s.reg b := by
  rcases s.writePlain_eq a v with e | ⟨w, e⟩ <;> rw [e]
  exact State.reg_setReg_ne s w h

theorem RegsBut.writePlain (s : State) {l : List Nat} {a : Nat} (v : Word) (h : a ∈ l) : RegsBut l s (s.writePlain a v) :=
  fun _ hb => State.reg_writePlain_ne s v (fun e => hb (e ▸ h))

theorem Frame.writePlain (s : State) (a : Nat) (v : Word) : Frame [.regs] s (s.writePlain a v) := by
  rcases s.writePlain_eq a v with e | ⟨w, e⟩ <;> rw [e]
  · exact Frame.refl _ _
  · exact Frame.setReg _ _ _


/-! ### The rings' registers (R207 to R212) -/

theorem State.ringsOk_spec {s : State} (h : s.ringsOk = true) :
    (∀ l ∈ [s.get HP_CR_BASE.LOG2N, s.get HP_CPL_BASE.LOG2N, s.get HP_EV_BASE.LOG2N], 4 ≤ l ∧ l ≤ 12) ∧
      ∀ r ∈ s.ringSpans, s.captBase ≤ r.1 ∧ r.1 + r.2 ≤ s.captEnd := by
  simp only [State.ringsOk, Bool.and_eq_true, List.all_eq_true, decide_eq_true_eq] at h
  obtain ⟨⟨hl, hr⟩, -⟩ := h
  refine ⟨hl, fun r hr' => ?_⟩
  have hc := hr r hr'
  simp only [State.inCapture, Bool.and_eq_true, decide_eq_true_eq] at hc
  exact hc.2

@[simp] theorem State.get_setHp (s : State) (x : HostSt) (f : Fld) : State.get { s with hp := x } f = s.get f := State.get_of_reg rfl

theorem RegsBut.of_regs {l : List Nat} {s t u : State} (h : RegsBut l s t) (hu : u.regs = t.regs) : RegsBut l s u :=
  fun a ha => (State.reg_of_regs hu a).trans (h a ha)

theorem RegsBut.setHp {l : List Nat} {s t : State} (h : RegsBut l s t) (x : HostSt) : RegsBut l s { t with hp := x } := h.of_regs rfl

theorem State.rings_of_regs {s t : State} (h : t.regs = s.regs) : t.rings = s.rings := State.flag_of_reg (State.reg_of_regs h _)

theorem State.rings_writePlain (s : State) (v : Word) : (s.writePlain HP_CFG v).rings = bit v.toNat 31 :=
  State.flag_writePlain (f := HP_CFG.ENABLE) s v (by decide) rfl

theorem State.rings_ringsTurned (s : State) (b : Bool) : (s.ringsTurned b).rings = s.rings := State.rings_of_regs rfl

/-- Where it is not refused, HP_CFG is written; the rings' bookkeeping starts anew when ENABLE changes. -/
theorem State.writeHpCfg_of_taken {s : State} {v : Word} (h : bit v.toNat 31 = true → s.ringsOk = true ∧ s.follower = false ∧ s.island = false)
    (h' : bit v.toNat 31 = false → s.hp.outst = []) :
    s.writeHpCfg v = if bit v.toNat 31 = s.rings then s.writePlain HP_CFG v else (s.writePlain HP_CFG v).ringsTurned (bit v.toNat 31) := by
  have hc : ((bit v.toNat 31 && (!s.ringsOk || s.follower || s.island)) || (!bit v.toNat 31 && !s.hp.outst.isEmpty)) = false := by
    cases hb : bit v.toNat 31
    · simp [h' hb]
    · obtain ⟨h1, h2, h3⟩ := h hb
      simp [h1, h2, h3]
  simp only [State.writeHpCfg, hc, Bool.false_eq_true, if_false]

theorem State.writeHpCfg_spec {s : State} {v : Word} {b : Bool} (hb : bit v.toNat 31 = b)
    (h : b = true → s.ringsOk = true ∧ s.follower = false ∧ s.island = false) (h' : b = false → s.hp.outst = []) :
    (s.writeHpCfg v).rings = b ∧ RegsBut [HP_CFG] s (s.writeHpCfg v) ∧ Frame [.regs, .hp] s (s.writeHpCfg v) ∧
      (s.rings ≠ b → s.writeHpCfg v = (s.writePlain HP_CFG v).ringsTurned b) := by
  subst hb
  have hregs := RegsBut.writePlain s v (a := HP_CFG) (l := [HP_CFG]) (by simp)
  have hframe : Frame [.regs, .hp] s (s.writePlain HP_CFG v) := (Frame.writePlain s HP_CFG v).mono (by simp)
  have hrings := s.rings_writePlain v
  rw [State.writeHpCfg_of_taken h h']
  generalize s.writePlain HP_CFG v = u at hregs hframe hrings ⊢
  split
  next he => exact ⟨hrings, hregs, hframe, fun hn => absurd he.symm hn⟩
  next => exact ⟨(u.rings_ringsTurned _).trans hrings, hregs.setHp _, Frame.setHp _ _ _ hframe (by simp) _, fun _ => rfl⟩

/-- A command that is one write of a register, where it reaches the device. -/
theorem next_enter {who : Accessor} {a : Nat} {f : State → State} {s : State} (h : Writable s who a) :
    (Host.Outcome.next (s.enter who a f) : Result) = .next (f s) := by rw [State.enter_of_writable _ _ _ _ h]

/-- A head beyond the tail is refused; an unchanged one changes nothing; any other moves HEAD and ages what is left. -/
theorem State.writeCplHead_of_beyond {s : State} {v : Word} (h : s.cplCount < ringCount (s.get HP_CPL_IDX.TAIL) (bits v.toNat 15 0)) :
    s.writeCplHead v = s.ringErr := if_pos h

theorem State.writeEvHead_of_beyond {s : State} {v : Word} (h : s.evCount < ringCount (s.get HP_EV_IDX.TAIL) (bits v.toNat 15 0)) :
    s.writeEvHead v = s.ringErr := if_pos h

theorem State.writeCplHead_of_same {s : State} {v : Word} (h : bits v.toNat 15 0 = s.get HP_CPL_IDX.HEAD) : s.writeCplHead v = s := by
  have hc : ¬ s.cplCount < ringCount (s.get HP_CPL_IDX.TAIL) (bits v.toNat 15 0) := by rw [h, State.cplCount]; omega
  rw [State.writeCplHead, if_neg hc, if_pos h]

theorem State.writeEvHead_of_same {s : State} {v : Word} (h : bits v.toNat 15 0 = s.get HP_EV_IDX.HEAD) : s.writeEvHead v = s := by
  have hc : ¬ s.evCount < ringCount (s.get HP_EV_IDX.TAIL) (bits v.toNat 15 0) := by rw [h, State.evCount]; omega
  rw [State.writeEvHead, if_neg hc, if_pos h]

/-- A field put from the same bits of a value reads as those bits. -/
theorem State.get_put_bits (s : State) (f : Fld) (v : Word) (h : f.lo ≤ f.hi + 1) (h' : f.hi < 32) :
    (s.put f (bits v.toNat f.hi f.lo)).get f = bits v.toNat f.hi f.lo := by
  rw [State.get_put_same s f _ h h', bits_eq, Nat.mod_mod]

theorem State.cplCount_put_head (s : State) (v : Word) :
    (s.put HP_CPL_IDX.HEAD (bits v.toNat 15 0)).cplCount = ringCount (s.get HP_CPL_IDX.TAIL) (bits v.toNat 15 0) := by
  have hh : (s.put HP_CPL_IDX.HEAD (bits v.toNat 15 0)).get HP_CPL_IDX.HEAD = bits v.toNat 15 0 :=
    State.get_put_bits s HP_CPL_IDX.HEAD v (by decide) (by decide)
  rw [State.cplCount, hh,
    State.get_put_apart _ HP_CPL_IDX.HEAD HP_CPL_IDX.TAIL _ rfl (by decide) (by decide) (by decide) (by decide)]

theorem State.evCount_put_head (s : State) (v : Word) :
    (s.put HP_EV_IDX.HEAD (bits v.toNat 15 0)).evCount = ringCount (s.get HP_EV_IDX.TAIL) (bits v.toNat 15 0) := by
  have hh : (s.put HP_EV_IDX.HEAD (bits v.toNat 15 0)).get HP_EV_IDX.HEAD = bits v.toNat 15 0 :=
    State.get_put_bits s HP_EV_IDX.HEAD v (by decide) (by decide)
  rw [State.evCount, hh,
    State.get_put_apart _ HP_EV_IDX.HEAD HP_EV_IDX.TAIL _ rfl (by decide) (by decide) (by decide) (by decide)]

theorem State.writeCplHead_of_moved {s : State} {v : Word} (h : ringCount (s.get HP_CPL_IDX.TAIL) (bits v.toNat 15 0) ≤ s.cplCount)
    (hn : bits v.toNat 15 0 ≠ s.get HP_CPL_IDX.HEAD) {r : Bool × State}
    (hr : r = (s.put HP_CPL_IDX.HEAD (bits v.toNat 15 0)).agedNext s.hp.cplAged (ringCount (s.get HP_CPL_IDX.TAIL) (bits v.toNat 15 0))) :
    s.writeCplHead v = { r.2 with hp := { r.2.hp with cplAged := r.1 } } := by
  simp only [State.writeCplHead, if_neg (not_lt.mpr h), if_neg hn, State.cplCount_put_head, State.put_hp, ← hr]

theorem State.writeEvHead_of_moved {s : State} {v : Word} (h : ringCount (s.get HP_EV_IDX.TAIL) (bits v.toNat 15 0) ≤ s.evCount)
    (hn : bits v.toNat 15 0 ≠ s.get HP_EV_IDX.HEAD) {r : Bool × State}
    (hr : r = (s.put HP_EV_IDX.HEAD (bits v.toNat 15 0)).agedNext s.hp.evAged (ringCount (s.get HP_EV_IDX.TAIL) (bits v.toNat 15 0))) :
    s.writeEvHead v = State.overflowRecord { r.2 with hp := { r.2.hp with evAged := r.1 } } := by
  simp only [State.writeEvHead, if_neg (not_lt.mpr h), if_neg hn, State.evCount_put_head, State.put_hp, ← hr]

theorem State.agedNext_of_none (s : State) {b : Bool} {n : Nat} (h : n = 0 ∨ b = false) : s.agedNext b n = (false, s) :=
  if_pos (h.imp_right (by simp))

/-- What writing an event record changes. -/
theorem State.pushEvent_spec (s : State) (rec : List Byte) :
    RegsBut [HP_EV_IDX] s (s.pushEvent rec) ∧ Frame [.regs, .sram, .poison] s (s.pushEvent rec) := by
  refine ⟨fun a ha => ?_, ((Frame.setWord _ _ _).mono (by simp)).trans ((Frame.put _ _ _).mono (by simp))⟩
  exact (State.reg_put_ne _ HP_EV_IDX.TAIL _ (fun e => ha (List.mem_singleton.mpr e))).trans (State.reg_setWord ..)

theorem State.overflowRecord_of_nothing {s : State} (h : s.rings = false ∨ s.hp.lostSince = 0 ∨ s.evSize ≤ s.evCount) : s.overflowRecord = s :=
  if_neg fun ⟨h1, h2, h3⟩ => by
    rcases h with h | h | h
    · rw [h] at h1; cases h1
    · omega
    · omega

theorem State.overflowRecord_spec {s : State} (hr : s.rings = true) (hl : 0 < s.hp.lostSince) (hc : s.evCount < s.evSize) :
    s.overflowRecord.hp.lostSince = 0 ∧ s.overflowRecord.get HP_EV_IDX.TAIL = (s.get HP_EV_IDX.TAIL + 1) % 65536 ∧
      RegsBut [HP_EV_IDX] s s.overflowRecord ∧ Frame [.regs, .hp, .sram, .poison] s s.overflowRecord := by
  obtain ⟨h1, h2⟩ := s.pushEvent_spec (eventRec 8 0 0 s.hp.lostSince [])
  have h3 := State.pushEvent_tail s (eventRec 8 0 0 s.hp.lostSince [])
  rw [State.overflowRecord, if_pos ⟨hr, hl, hc⟩]
  generalize s.pushEvent (eventRec 8 0 0 s.hp.lostSince []) = u at h1 h2 h3 ⊢
  exact ⟨rfl, (State.get_setHp u _ _).trans h3, h1.setHp _, Frame.setHp _ _ _ (h2.mono (by simp)) (by simp) _⟩

/-- A doorbell with the rings enabled and at most one ring of descriptors waiting. -/
theorem State.writeDb_of_taken {s : State} {v : Word} (hr : s.rings = true)
    (hc : ringCount (bits v.toNat 15 0) (s.get HP_CR_IDX.HEAD) ≤ 2 ^ s.get HP_CR_BASE.LOG2N) :
    s.writeDb v = { s.put HP_CR_IDX.TAIL (bits v.toNat 15 0) with hp := { s.hp with rung := true } } :=
  if_neg (by simp [hr, hc])

theorem State.writeDb_spec {s : State} {v : Word} (hr : s.rings = true)
    (hc : ringCount (bits v.toNat 15 0) (s.get HP_CR_IDX.HEAD) ≤ 2 ^ s.get HP_CR_BASE.LOG2N) :
    (s.writeDb v).get HP_CR_IDX.TAIL = bits v.toNat 15 0 ∧ (s.writeDb v).get HP_CR_IDX.HEAD = s.get HP_CR_IDX.HEAD ∧
      (s.writeDb v).hp = { s.hp with rung := true } ∧ RegsBut [HP_CR_IDX] s (s.writeDb v) ∧ Frame [.regs, .hp] s (s.writeDb v) := by
  have ht : (s.put HP_CR_IDX.TAIL (bits v.toNat 15 0)).get HP_CR_IDX.TAIL = bits v.toNat 15 0 :=
    State.get_put_bits s HP_CR_IDX.TAIL v (by decide) (by decide)
  have hh : (s.put HP_CR_IDX.TAIL (bits v.toNat 15 0)).get HP_CR_IDX.HEAD = s.get HP_CR_IDX.HEAD :=
    State.get_put_apart s HP_CR_IDX.TAIL HP_CR_IDX.HEAD _ rfl (by decide) (by decide) (by decide) (by decide)
  have hregs : RegsBut [HP_CR_IDX] s (s.put HP_CR_IDX.TAIL (bits v.toNat 15 0)) :=
    fun a ha => State.reg_put_ne s HP_CR_IDX.TAIL _ (fun e => ha (List.mem_singleton.mpr e))
  have hframe : Frame [.regs, .hp] s (s.put HP_CR_IDX.TAIL (bits v.toNat 15 0)) := (Frame.put _ _ _).mono (by simp)
  rw [State.writeDb_of_taken hr hc]
  generalize s.put HP_CR_IDX.TAIL (bits v.toNat 15 0) = u at ht hh hregs hframe ⊢
  exact ⟨(State.get_setHp _ _ _).trans ht, (State.get_setHp _ _ _).trans hh, rfl, hregs.setHp _, Frame.setHp _ _ _ hframe (by simp) _⟩

theorem State.writeDb_of_refused {s : State} {v : Word}
    (h : s.rings = false ∨ 2 ^ s.get HP_CR_BASE.LOG2N < ringCount (bits v.toNat 15 0) (s.get HP_CR_IDX.HEAD)) : s.writeDb v = s.ringErr :=
  if_pos (h.imp_left (by simp))

/-- Settles O35, each clause by the rule for its register. -/
theorem ringsAreEnabledAndTheirIndexesMove : Obligations.RingsAreEnabledAndTheirIndexesMove := by
  unfold Obligations.RingsAreEnabledAndTheirIndexesMove
  refine ⟨fun who v s hw hb h => ?_, fun who v s hw hb h => ?_, fun who v s hw hb hok hf hi => ?_, fun who v s hw hb ho => ?_,
    fun s => State.ringsOk_spec, fun who v s hw hr hc => ?_, fun who v s hw h => ?_, ?_, fun who v s hw h => ?_, fun who v s hw h => ?_,
    fun b n s => s.agedNext_of_none, ?_, fun who v s hw h => ?_, fun s hr hl hc => ⟨_, rfl, State.overflowRecord_spec hr hl hc⟩,
    fun s => State.overflowRecord_of_nothing, fun who v s hw h => ?_, fun s h => ?_, fun s h => ?_⟩
  · refine (next_enter hw).trans (congrArg _ ?_)
    rw [State.writeHpCfg, hb, if_pos (by rcases h with h | h | h <;> simp [h])]
    rfl
  · refine (next_enter hw).trans (congrArg _ ?_)
    rw [State.writeHpCfg, hb, if_pos (by simpa using h)]
    rfl
  · obtain ⟨h1, h2, h3, h4⟩ := State.writeHpCfg_spec hb (fun _ => ⟨hok, hf, hi⟩) (by simp)
    refine ⟨s.writeHpCfg v, next_enter hw, h1, h2, h3, fun hr => ?_⟩
    rw [h4 (by simp [hr])]
    exact ⟨rfl, rfl, rfl⟩
  · obtain ⟨h1, h2, h3, -⟩ := State.writeHpCfg_spec hb (by simp) (fun _ => ho)
    exact ⟨s.writeHpCfg v, next_enter hw, h1, h2, h3⟩
  · exact ⟨s.writeDb v, next_enter hw, State.writeDb_spec hr hc⟩
  · exact (next_enter hw).trans (congrArg _ (State.writeDb_of_refused h))
  · rintro who v s h r hw rfl hc hn hr
    exact (next_enter hw).trans (congrArg _ (State.writeCplHead_of_moved hc hn hr))
  · exact (next_enter hw).trans (congrArg _ (State.writeCplHead_of_same h))
  · exact (next_enter hw).trans (congrArg _ (State.writeCplHead_of_beyond h))
  · rintro who v s h r hw rfl hc hn hr
    exact (next_enter hw).trans (congrArg _ (State.writeEvHead_of_moved hc hn hr))
  · exact (next_enter hw).trans (congrArg _ (State.writeEvHead_of_same h))
  · exact (next_enter hw).trans (congrArg _ (State.writeEvHead_of_beyond h))
  · show Host.Outcome.next _ = _
    rw [if_pos rfl, if_pos h]
  · show Host.Outcome.next _ = _
    rw [if_neg (by decide), if_pos h]

end Sys2Proof.Machine

/-! PROOFS. The SRAM window, the scrubber and the words of producers (O23, O21). -/

namespace Sys2Proof.Machine

/-! ### The SRAM window and the scrubber (R131 to R136, R158) -/

theorem wordIndex_wordAddr (a : Nat) : wordIndex (wordAddr a) = wordIndex a := by simp only [wordIndex, wordAddr, sramBase]; omega

theorem State.upset_wordAddr (s : State) (a : Nat) : s.upset (wordAddr a) = s.upset a := by rw [State.upset, State.upset, wordIndex_wordAddr]

theorem mem_setInsert (k : Nat) (l : List Nat) : k ∈ setInsert k l := by
  induction l with
  | nil => simp [setInsert]
  | cons j t ih =>
    simp only [setInsert]
    split
    · exact List.mem_cons_of_mem _ ih
    · split
      next h => simp [h]
      next => simp

theorem aligned_sub {a : Nat} (h : a % 4 = 0) : a - a % 4 = a := by omega

theorem State.readSram_of_clean {s : State} {a : Nat} (hp : s.partOf a ≠ none) (hc : s.upset a = .clean) :
    s.readSram a .clean = ((s.tellPool []).sramPart a, s.tellPool []) := by
  rw [State.readSram, if_neg hp, State.eccRead_of_clean hc]

theorem State.writeSram_of_capture {s : State} {a : Nat} {v : Word} (h : a % 4 = 0) (hp : s.partOf a = some .capture)
    (hc : s.upset (wordAddr a) = .clean) : s.writeSram a v = s.setPart a (leBytes 4 v.toNat) := by
  rw [State.writeSram, hp]
  exact congrArg (fun u => State.setPart u a _)
    (State.readSpan_of_clean (by decide) (by omega) (by rw [← State.upset_wordAddr]; exact hc))

theorem State.writeSram_of_refused {s : State} {a : Nat} {v : Word}
    (h : s.partOf a = none ∨ s.partOf a = some .pool ∨ (s.partOf a = some .code ∧ s.mode ≠ 3)) :
    s.writeSram a v = s.refuse .host a stNotPermitted := by
  rcases h with h | h | ⟨h, hm⟩
  · rw [State.writeSram, h]
  · rw [State.writeSram, h]
  · rw [State.writeSram, h]
    exact if_neg hm

/-- A clean word only moves the scrubber on. -/
theorem exec_scrubRead_of_clean {s : State} (ha : s.awake = true) (he : s.flag QP_SCRUB.EN = true)
    (hu : s.upset (sramBase + 32 * s.pool.scrub) = .clean) (hp : s.poisoned (sramBase + 32 * s.pool.scrub) = false) :
    exec (.scrubRead .clean) s = .next s.scrubNext := by
  show Host.Outcome.next _ = _
  simp only [if_pos (And.intro ha he), State.eccRead_of_clean hu, hp, Bool.false_eq_true, if_false, State.tellPool_nil]

/-- Settles O23, by the rules of the window's reads and writes and of the scrubber. -/
theorem sramWindowAndScrubber : Obligations.SramWindowAndScrubber := by
  unfold Obligations.SramWindowAndScrubber
  refine ⟨fun a s hr hs h4 hp hc => ?_, fun a e s hr hs h4 hp => ?_, fun a v s hr hs h4 hp hpo hc => ?_, fun a v s hr hs h4 hp => ?_,
    fun s ha he hn hu hp => ?_, fun s ha he hn hu hp => ?_, fun a s hp => ⟨?_, ?_⟩⟩
  · show Host.Outcome.next _ = _
    rw [aligned_sub h4, if_pos ⟨hr, hs⟩, State.readSram_of_clean hp hc]
  · show Host.Outcome.next _ = _
    rw [aligned_sub h4, if_pos ⟨hr, hs⟩, State.readSram, if_pos hp]
  · have hx : exec (.sramWindowWrite a v) s = .next (s.setPart a.toNat (leBytes 4 v.toNat)) := by
      show Host.Outcome.next _ = _
      rw [aligned_sub h4, if_pos ⟨hr, hs⟩, State.writeSram_of_capture h4 hp hc]
    have hb := s.bytes_setPart_self a.toNat (leBytes 4 v.toNat)
    have ho := State.byte_setPart_out (l := leBytes 4 v.toNat) hpo
    rw [leBytes_length] at hb ho
    exact ⟨_, hx, hb, ho, Frame.setPart _ _ _⟩
  · show Host.Outcome.next _ = _
    rw [aligned_sub h4, if_pos ⟨hr, hs⟩, State.writeSram_of_refused hp]
  · rw [exec_scrubRead_of_clean ha he hu hp, State.scrubNext, if_pos hn]
  · rw [exec_scrubRead_of_clean ha he hu hp, State.scrubNext, if_neg (by omega)]
    rfl
  · simp [State.eccRead, hp]
  · have hd : s.eccRead a .double = ((State.count { s.setUpset a .clean with poison := setInsert (wordIndex a) s.poison }
        (QP_ECC.UNCORR (bits (a - sramBase) 23 20)) 1).put QP_ECC_LAST.ADDR (wordAddr a), [.evt QP_EVT.POISON]) := by
      simp [State.eccRead, hp]
    rw [hd, State.poisoned, List.contains_iff_mem]
    exact mem_setInsert _ _

/-! ### Words of producers (R144 to R152) -/

theorem State.queue_of_pool {s t : State} (h : t.pool.queues = s.pool.queues) (q : Nat) : t.queue q = s.queue q := by
  rw [State.queue, State.queue, h]

theorem State.usedCells_of_same {s t : State} {q : Nat} (h : (t.queue q).cells = (s.queue q).cells) (ho : t.pool.opens = s.pool.opens) :
    t.usedCells q = s.usedCells q := by
  simp only [State.usedCells, State.openCells, h, ho]

/-- Where the cells in use are as many as before, no watermark is passed. -/
theorem State.marks_of_same (s : State) (q : Nat) : s.marks q (s.usedCells q) = (s, []) := by
  have h1 : ¬ ((s.queue q).wmHi ≠ 0 ∧ s.usedCells q < (s.queue q).wmHi ∧ (s.queue q).wmHi ≤ s.usedCells q) := by omega
  have h2 : ¬ ((s.queue q).wmLo ≠ 0xFFFF ∧ (s.queue q).wmLo < s.usedCells q ∧ s.usedCells q ≤ (s.queue q).wmLo) := by omega
  simp only [State.marks, h1, h2, decide_false, Bool.false_eq_true, or_self, if_false]

/-- A word at the end of a chain whose tail cell has room. -/
def State.appended (s : State) (q : Nat) (w : Line) : State :=
  State.modQueue (State.setWord { s with pool := { s.pool with commits := s.pool.commits + 1 } }
      (cellAddr (s.queue q).tailCell (s.queue q).tailFill) (leBytes 32 w.toNat)) q
    (fun (y : QueueSt) => { y with chain := y.chain ++ [⟨(s.queue q).tailCell, (s.queue q).tailFill, false, s.pool.commits + 1⟩],
                                   tailCell := (s.queue q).tailCell, tailFill := (s.queue q).tailFill + 1, cells := y.cells })

theorem State.placeStream_of_room {s : State} {q : Nat} (w : Line) (hc : (s.queue q).cells ≠ []) (hf : (s.queue q).tailFill < 8) :
    s.placeStream q w = (true, s.appended q w, []) := by
  rw [State.placeStream, if_pos ⟨hc, hf⟩]
  rfl

theorem State.queue_appended (s : State) (q k : Nat) (w : Line) :
    (s.appended q w).queue k = if k = q then
      { s.queue q with chain := (s.queue q).chain ++ [⟨(s.queue q).tailCell, (s.queue q).tailFill, false, s.pool.commits + 1⟩],
                       tailFill := (s.queue q).tailFill + 1 } else s.queue k := by
  rw [State.appended, State.queue_modQueue]
  rfl

theorem State.usedCells_appended (s : State) (q : Nat) (w : Line) : (s.appended q w).usedCells q = s.usedCells q :=
  State.usedCells_of_same (by rw [State.queue_appended, if_pos rfl]) rfl

theorem State.putWord_of_stream {prod : Producer} {q : Nat} {w : Line} {s : State} (hen : (s.queue q).en = true)
    (hb : (s.queue q).broken = false) (hs : (s.queue q).stream = true) (hf : (s.queue q).fmt ≠ 3) (hl : lineOk (s.queue q).fmt w = true)
    (ht : s.touch q = (s, [])) (hc : (s.queue q).cells ≠ []) (hr : (s.queue q).tailFill < 8) :
    s.putWord prod q w = (1, s.appended q w, []) := by
  have hm : (s.appended q w).marks q (s.usedCells q) = (s.appended q w, []) := by
    rw [← s.usedCells_appended q w]; exact State.marks_of_same _ _
  simp [State.putWord, ht, hen, hb, hs, hf, hl, State.placeStream_of_room w hc hr, hm]

theorem Frame.modQueue (s : State) (q : Nat) (f : QueueSt → QueueSt) : Frame [.pool] s (s.modQueue q f) := by
  intro c hc
  cases c
  case pool => exact absurd hc (by decide)
  case poison => exact ⟨rfl, rfl⟩
  all_goals rfl

theorem Frame.setPool (s : State) (x : PoolSt) : Frame [.pool] s { s with pool := x } := by
  intro c hc
  cases c
  case pool => exact absurd hc (by decide)
  case poison => exact ⟨rfl, rfl⟩
  all_goals rfl

/-- A stored word of 32 bytes reads back, and every other byte reads as before. -/
theorem State.bytes_setWord_self (s : State) (a : Nat) {l : List Byte} (h : l.length = 32) : (s.setWord a l).bytes (wordAddr a) 32 = l := by
  have hb := s.bytes_setBytes_self (wordAddr a) l
  rw [h] at hb
  refine Eq.trans (State.bytes_of_sram ?_ _ _) hb
  rw [State.setWord, State.freshCode_sram, List.take_of_length_le h.le]

theorem State.byte_setWord_out (s : State) (a : Nat) {l : List Byte} (h : l.length = 32) : BytesBut (wordAddr a) 32 s (s.setWord a l) :=
  fun x hx => by
    rw [State.setWord, List.take_of_length_le h.le]
    exact State.byte_setBytes_out s _ l x (by rw [h]; exact hx)

/-- What a word appended to a stream's chain changes. -/
theorem State.appended_spec (s : State) (q : Nat) (w : Line) :
    (s.appended q w).pool.commits = s.pool.commits + 1 ∧
      (s.appended q w).bytes (wordAddr (cellAddr (s.queue q).tailCell (s.queue q).tailFill)) 32 = leBytes 32 w.toNat ∧
      BytesBut (wordAddr (cellAddr (s.queue q).tailCell (s.queue q).tailFill)) 32 s (s.appended q w) ∧
      Frame [.sram, .poison, .pool] s (s.appended q w) := by
  refine ⟨rfl, ?_, ?_, ?_⟩
  · exact State.bytes_setWord_self { s with pool := { s.pool with commits := s.pool.commits + 1 } } _ (leBytes_length _ _)
  · exact State.byte_setWord_out { s with pool := { s.pool with commits := s.pool.commits + 1 } } _ (leBytes_length _ _)
  · exact ((Frame.setPool s _).mono (by simp)).trans (((Frame.setWord _ _ _).mono (by simp)).trans ((Frame.modQueue _ _ _).mono (by simp)))

theorem touch_of_uncast {s : State} {q : Nat} (h : (s.queue q).en = false) : s.touch q = (s, []) := if_pos (by simp [h])

/-- A word that does not come from a window changes only what its queue does. -/
theorem State.produce_of_putWord {prod : Producer} {q c : Nat} {w : Line} {s u : State} {l : List PoolNote}
    (h : s.putWord prod q w = (c, u, l)) (hp : (∀ x, prod ≠ .win x) ∨ (s.queue q).stream = true) : s.produce prod q w = u.tellPool l := by
  cases prod
  case win x =>
    rcases hp with hp | hp
    · exact absurd rfl (hp x)
    · simp only [State.produce, h, hp, not_true_eq_false, and_false, if_false]
  all_goals simp only [State.produce, h]

theorem exec_queueWordWrite {prod : Producer} {q : QId} {w : Line} {s : State} (h : s.awake = true) :
    exec (.queueWordWrite prod q w) s = .next (s.produce prod q w) := by
  show Host.Outcome.next _ = _
  rw [if_pos h]

theorem State.putWord_of_uncast {prod : Producer} {q : Nat} {w : Line} {s : State} (h : (s.queue q).en = false) :
    s.putWord prod q w = ((s.refuseWord prod q .full (lineEop w)).1, (s.refuseWord prod q .full (lineEop w)).2, [.evt QP_EVT.UNCAST_WRITE]) := by
  simp [State.putWord, touch_of_uncast h, h]

/-- The last word of an open, sound packet commits it. -/
theorem State.putWord_of_eop {prod : Producer} {q : Nat} {w : Line} {s : State} {o : OpenPkt} (hen : (s.queue q).en = true)
    (hb : (s.queue q).broken = false) (hs : (s.queue q).stream = false) (hf : (s.queue q).fmt = 1) (hl : lineOk 1 w = true)
    (he : lineEop w = true) (ht : s.touch q = (s, [])) (ho : s.openOf prod q = some o) (hd : o.doom = none)
    {r : OpenPkt × State × List PoolNote} (hr : r = (s.setOpen o).placeAll o [w]) (hd' : r.1.doom = none)
    {u m : State × List PoolNote} (hu : u = (r.2.1.setOpen r.1).commit r.1) (hm : m = u.1.marks q (s.usedCells q)) :
    s.putWord prod q w = (1, m.1, r.2.2 ++ u.2 ++ m.2) := by
  subst hr hu hm
  simp [State.putWord, ht, hen, hb, hs, hf, hl, he, ho, hd, hd']

theorem State.commit_spec (o : OpenPkt) (s : State) :
    ((s.commit o).1.queue o.q).chain = (s.queue o.q).chain ++ o.slots.zipIdx.map (fun (x, i) =>
        { x with eop := decide (i + 1 = o.slots.length), seq := s.pool.commits + 1 }) ∧
      (s.commit o).1.pool.commits = s.pool.commits + 1 ∧ (s.commit o).1.openOf o.prod o.q = none := by
  refine ⟨?_, rfl, ?_⟩
  · rw [State.commit, State.queue_modQueue, if_pos rfl]
    rfl
  · exact List.find?_eq_none.mpr fun p hp => by simpa [imp_iff_not_or] using (List.mem_filter.mp hp).2

theorem State.queue_freeThese (s : State) (l : List Nat) (q : Nat) : (s.freeThese l).queue q = s.queue q := rfl

theorem State.queue_setOpens (s : State) (l : List OpenPkt) (q : Nat) :
    State.queue { s with pool := { s.pool with opens := l } } q = s.queue q := rfl

/-- A flush empties the chain of a queue that is not BROKEN and poisons the packets open on it. -/
theorem State.flush_spec {q : Nat} {s : State} (hb : (s.queue q).broken = false) (ht : s.touch q = (s, [])) :
    ((s.flush q).1.queue q).chain = [] ∧ ((s.flush q).1.queue q).cells = [] ∧
      ((s.queue q).stream = false → ∀ o ∈ (s.flush q).1.pool.opens, o.q = q → o.doom ≠ none) := by
  have hq : ((s.flush q).1.queue q) = { s.queue q with chain := [], cells := [], tailFill := 8, badRun := false } := by
    simp only [State.flush, ht, hb, Bool.false_eq_true, if_false]
    rw [State.queue_setOpens, State.queue_freeThese, State.queue_modQueue, if_pos rfl]
    simp only [hb]
  have hopens : (s.flush q).1.pool.opens = s.pool.opens.map (fun o => o.flushed q (s.queue q).stream) := by
    simp only [State.flush, ht, hb, Bool.false_eq_true, if_false]
    rfl
  refine ⟨by rw [hq], by rw [hq], fun hs o ho hoq => ?_⟩
  rw [hopens, hs] at ho
  obtain ⟨p, -, rfl⟩ := List.mem_map.mp ho
  by_cases hp : p.q = q
  · simp [OpenPkt.flushed, hp]
  · simp [OpenPkt.flushed, hp] at hoq

theorem State.chain_marks (s : State) (q b : Nat) (k : Nat) : ((s.marks q b).1.queue k).chain = (s.queue k).chain := by
  simp only [State.marks]
  split
  · rw [State.queue_modQueue]
    split
    next h => rw [h]
    next => rfl
  · rfl

theorem State.chain_popWords (s : State) (q n : Nat) : ((s.popWords q n).1.queue q).chain = (s.queue q).chain.drop n := by
  rw [State.popWords, State.chain_marks, State.queue_freeThese, State.queue_modQueue, if_pos rfl]

theorem State.chain_dropRest {s : State} {q : Nat} (hs : (s.queue q).stream = false) (hr : s.ready q = true) (ht : s.touch q = (s, [])) :
    ((s.dropRest q).1.queue q).chain = (s.queue q).chain.drop (headLen (s.queue q).chain) := by
  rw [State.dropRest, ht]
  simp only [hs, hr, Bool.false_eq_true, not_true_eq_false, or_self, if_false, State.chain_popWords]

/-- Settles O21, by the cases of `State.putWord` and the rules of the queue operations. -/
theorem queueWordsCommitInOrder : Obligations.QueueWordsCommitInOrder := by
  unfold Obligations.QueueWordsCommitInOrder
  refine ⟨?_, ?_, fun o s => State.commit_spec o s, ?_, fun who q s hw => ?_, fun q s => State.flush_spec, ?_, fun q s => State.chain_dropRest⟩
  · rintro prod q w s x ha rfl hen hb hs hf hl ht hc hr
    obtain ⟨hcom, hbytes, hbut, hframe⟩ := s.appended_spec q.val w
    have hq := s.queue_appended q.val (w := w)
    refine ⟨s.appended q.val w, ⟨(s.queue q.val).tailCell, (s.queue q.val).tailFill, false, s.pool.commits + 1⟩, ?_, rfl, rfl, rfl, rfl,
      ?_, ?_, hcom, hbytes, hbut, fun k hk => by rw [hq, if_neg hk], hframe⟩
    · rw [exec_queueWordWrite ha, State.produce_of_putWord (State.putWord_of_stream hen hb hs hf hl ht hc hr) (.inr hs), State.tellPool_nil]
    · rw [hq, if_pos rfl]
    · rw [hq, if_pos rfl]
  · rintro prod q w s x o r u m - rfl hen hb hs hf hl he ht ho hd hr hd' hu hm
    exact State.putWord_of_eop hen hb hs hf hl he ht ho hd hr hd' hu hm
  · rintro prod q w s r ha hen hp rfl
    rw [exec_queueWordWrite ha, State.produce_of_putWord (State.putWord_of_uncast hen) (.inl hp)]
  · exact next_enter hw
  · rintro who q s u hw rfl
    exact next_enter hw

end Sys2Proof.Machine

/-! PROOFS. Merged values, coefficient banks and the line ports' controls (O10, O12). -/

namespace Sys2Proof.Machine

/-! ### Merging a value's bits under a mask -/

theorem testBit_bits (x hi lo i : Nat) : (bits x hi lo).testBit i = (decide (i < hi + 1 - lo) && x.testBit (lo + i)) := by
  rw [bits, Nat.testBit_mod_two_pow, Nat.testBit_shiftRight]

theorem testBit_merged (x v : Word) (m i : Nat) :
    ((x &&& ~~~ BitVec.ofNat 32 m) ||| (v &&& BitVec.ofNat 32 m)).toNat.testBit i =
      if m.testBit i then v.toNat.testBit i else x.toNat.testBit i := by
  by_cases hi : i < 32
  · simp only [BitVec.testBit_toNat, BitVec.getLsbD_or, BitVec.getLsbD_and, BitVec.getLsbD_not, BitVec.getLsbD_ofNat, hi, decide_true,
      Bool.true_and]
    cases m.testBit i <;> simp
  · have hx (y : Word) : y.toNat.testBit i = false :=
      Nat.testBit_lt_two_pow (lt_of_lt_of_le y.isLt (Nat.pow_le_pow_right (by decide) (by omega)))
    simp [hx]

/-- A field inside the mask takes the value's bits. -/
theorem State.get_merge_in {s : State} {f : Fld} (m : Nat) (v : Word) (h : bits m f.hi f.lo = 2 ^ (f.hi + 1 - f.lo) - 1) :
    (s.merge f.addr m v).get f = bits v.toNat f.hi f.lo := by
  rw [State.get, State.merge, State.reg_setReg_self]
  refine Nat.eq_of_testBit_eq fun i => ?_
  rw [testBit_bits, testBit_bits, testBit_merged]
  by_cases hi : i < f.hi + 1 - f.lo
  · have hm : m.testBit (f.lo + i) = true := by
      have := congrArg (fun x => x.testBit i) h
      simpa only [testBit_bits, Nat.testBit_two_pow_sub_one, hi, decide_true, Bool.true_and] using this
    rw [if_pos hm]
  · simp [hi]

/-- A field outside the mask keeps its value. -/
theorem State.get_merge_out {s : State} {f : Fld} (m : Nat) (v : Word) (h : bits m f.hi f.lo = 0) :
    (s.merge f.addr m v).get f = s.get f := by
  rw [State.get, State.merge, State.reg_setReg_self, State.get]
  refine Nat.eq_of_testBit_eq fun i => ?_
  rw [testBit_bits, testBit_bits, testBit_merged]
  by_cases hi : i < f.hi + 1 - f.lo
  · have hm : m.testBit (f.lo + i) = false := by
      have := congrArg (fun x => x.testBit i) h
      simpa only [testBit_bits, Nat.zero_testBit, hi, decide_true, Bool.true_and] using this
    rw [if_neg (by simp [hm])]
  · simp [hi]

/-- A flag reads as its bit. -/
theorem ne_zero_bits_eq_bit (x i : Nat) : (bits x i i != 0) = bit x i := by
  have h2 : x / 2 ^ i % 2 < 2 := Nat.mod_lt _ (by decide)
  rw [bits_eq, bit, Nat.shiftRight_eq_div_pow, Nat.add_sub_cancel_left, pow_one]
  interval_cases x / 2 ^ i % 2 <;> rfl

theorem State.flag_merge_in {s : State} {f : Fld} (m : Nat) (v : Word) (h : bits m f.hi f.lo = 2 ^ (f.hi + 1 - f.lo) - 1) (hf : f.hi = f.lo) :
    (s.merge f.addr m v).flag f = bit v.toNat f.lo := by
  rw [State.flag, State.get_merge_in m v h, hf, ne_zero_bits_eq_bit]

theorem State.flag_merge_out {s : State} {f : Fld} (m : Nat) (v : Word) (h : bits m f.hi f.lo = 0) :
    (s.merge f.addr m v).flag f = s.flag f := by
  rw [State.flag, State.get_merge_out m v h, State.flag]

theorem State.port_of_ports {s t : State} (h : t.ports = s.ports) (p : Nat) : t.port p = s.port p := by rw [State.port, State.port, h]

/-- Two changes of a port that agree on what it holds are one. -/
theorem State.modPort_congr {s : State} {p : Nat} {f g : PortSt → PortSt} (h : f (s.port p) = g (s.port p)) : s.modPort p f = s.modPort p g := by
  rw [State.port] at h
  rw [State.modPort, State.modPort, mmod, mmod, h]

/-! ### Coefficient banks (R20 to R27) -/

theorem State.writeLpBank_of_swap {s : State} {p : Nat} {v : Word} (h : bit v.toNat 31 = true) :
    s.writeLpBank p v = (s.merge (LP_BANK p) 0x1FFF v).swap p (fadeLen (bits v.toNat 12 0)) := by
  have hl : (s.merge (LP_BANK p) 0x1FFF v).get (LP_BANK.FADE_LEN p) = bits v.toNat 12 0 :=
    State.get_merge_in (f := LP_BANK.FADE_LEN p) 0x1FFF v (by simp [LP_BANK.FADE_LEN, bits])
  simp only [State.writeLpBank, h, if_true, hl]

theorem State.fading_merge (s : State) (p : Nat) (v : Word) :
    (s.merge (LP_BANK p) 0x1FFF v).flag (LP_BANK.FADING p) = s.flag (LP_BANK.FADING p) :=
  State.flag_merge_out (f := LP_BANK.FADING p) 0x1FFF v (by simp [LP_BANK.FADING, bits])

theorem State.queued_merge (s : State) (p : Nat) (v : Word) :
    (s.merge (LP_BANK p) 0x1FFF v).flag (LP_BANK.QUEUED p) = s.flag (LP_BANK.QUEUED p) :=
  State.flag_merge_out (f := LP_BANK.QUEUED p) 0x1FFF v (by simp [LP_BANK.QUEUED, bits])

theorem State.fadeBack_of_queued {s : State} {p n : Nat} (h : (s.port p).queued = some n) :
    s.fadeBack p = ((s.putFlag (LP_BANK.QUEUED p) false).putFlag (LP_BANK.FADING p) true).modPort p
      (fun x => { x with fade := n, queued := none }) := by
  have hq : (State.port ((s.putFlag (LP_BANK.QUEUED p) false).putFlag (LP_BANK.FADING p) true) p).queued = some n := by
    rw [State.port_of_ports (s := s) (by rw [State.putFlag_ports, State.putFlag_ports]), h]
  rw [State.fadeBack]
  generalize (s.putFlag (LP_BANK.QUEUED p) false).putFlag (LP_BANK.FADING p) true = u at hq ⊢
  exact State.modPort_congr (by rw [hq, Option.getD_some])

/-- Settles O10, each clause by the rule for its command. -/
theorem coefficientBanksSwapAndTakeTaps : Obligations.CoefficientBanksSwapAndTakeTaps := by
  unfold Obligations.CoefficientBanksSwapAndTakeTaps
  refine ⟨fun who p v s hw hb hf hq => ?_, fun who p v s hw hb hf hq => ?_, fun who p v s hw hb hq => ?_, fun p s hon hf => ?_,
    fun p n s hon hf hq hn => ?_, fun who p v s hw hf hq hbk hi => ?_, fun who p v s hw h => ?_, fun who p s hr hi => ?_, fun p s => rfl⟩
  · refine (next_enter hw).trans ?_
    rw [State.writeLpBank_of_swap hb, State.swap, State.fading_merge, State.queued_merge, hf, hq, if_neg (by simp)]
  · refine (next_enter hw).trans ?_
    rw [State.writeLpBank_of_swap hb, State.swap, State.fading_merge, State.queued_merge, hf, hq, if_pos (by simp)]
    simp
  · refine (next_enter hw).trans ?_
    rw [State.writeLpBank_of_swap hb, State.swap, State.queued_merge, hq, if_pos (by simp)]
    simp
  · show Host.Outcome.next _ = _
    rw [hon, hf, if_neg (by simp), if_pos rfl, State.fadeEnd]
  · show Host.Outcome.next _ = _
    rw [hon, hf, hq, if_neg (by simp), if_neg (by simp), if_pos rfl, State.fadeBack_of_queued hn]
  · refine (next_enter hw).trans ?_
    simp only [State.writeCoef, hf, hq, hbk, hi, State.coefKey, ne_eq, not_false_eq_true, and_self, decide_true, Bool.not_false, Bool.and_self,
      if_true]
  · refine (next_enter hw).trans ?_
    have hno : (!s.flag (LP_BANK.FADING p) && !s.flag (LP_BANK.QUEUED p) &&
        decide (s.get (LP_COEF_IDX.BANK p) ≠ s.get (LP_BANK.ACTIVE p) ∧ s.get (LP_COEF_IDX.INDEX p) ≤ 383)) = false := by
      rcases h with h | h | h | h
      · simp [h]
      · simp [h]
      · simp [h]
      · simp [Nat.not_le.mpr h]
    simp only [State.writeCoef, hno, Bool.false_eq_true, if_false]
  · show Host.Outcome.next _ = _
    rw [if_pos hr]
    simp only [State.readCoef, if_pos hi, State.coefKey]

/-! ### Line port controls and the impedance probe (R28 to R36) -/

theorem clampInt_of_within {lo hi x : Int} (h : lo ≤ x) (h' : x ≤ hi) : clampInt lo hi x = x := by
  rw [clampInt, if_neg (not_lt.mpr h), if_neg (not_lt.mpr h')]

/-- A magnitude that the calibration gives exactly. -/
theorem State.probeMag_of_exact {s : State} {p v i m : Nat} (hd : 0 < s.get (LP_ZCAL.KI p) * i)
    (h : 16 * s.get (LP_ZCAL.KV p) * v = m * (s.get (LP_ZCAL.KI p) * i)) (hm : m ≤ 65535) : s.probeMag p v i = (m, s) := by
  have h1 : ¬ (s.get (LP_ZCAL.KI p) * i = 0 ∨ 65535 * (s.get (LP_ZCAL.KI p) * i) < m * (s.get (LP_ZCAL.KI p) * i)) := by
    have := Nat.mul_le_mul_right (s.get (LP_ZCAL.KI p) * i) hm
    omega
  simp only [State.probeMag, h, if_neg h1, Nat.mul_mod_left, if_true, Nat.mul_div_cancel _ hd]

theorem sum_range_four (f : Nat → Nat) : ((List.range 4).map f).sum = f 0 + f 1 + f 2 + f 3 := by
  simp [List.range_succ, Nat.add_assoc]

/-- Settles O12, each clause by the definition of what its command does. -/
theorem linePortControlsAndProbe : Obligations.LinePortControlsAndProbe := by
  unfold Obligations.LinePortControlsAndProbe
  refine ⟨fun who p v s hw h28 h29 => ?_, fun p s h1 h2 h3 => ?_, fun p s h1 h2 => ?_, fun who p v s u hw hb hbusy hu => ?_,
    fun who p v s hw hbusy => ?_, fun p v i m phase s hp hd hm hle h1 h2 => ?_, fun who p v s hw hb => ?_, fun who p s k w hr hk hwd => ?_⟩
  · refine (next_enter hw).trans ?_
    have he : (s.merge (LP_CANC p) 0x20000000 v).flag (LP_CANC.ENABLE p) = true :=
      (State.flag_merge_in (f := LP_CANC.ENABLE p) 0x20000000 v (by simp [LP_CANC.ENABLE, bits]) rfl).trans h29
    simp only [State.writeCanc, he, h28, not_true_eq_false, if_false, or_true, if_true]
  · show Host.Outcome.next _ = _
    rw [if_pos ⟨h1, h2, h3⟩]
  · show Host.Outcome.next _ = _
    rw [if_neg (by simp [h1, h2])]
  · refine (next_enter hw).trans ?_
    subst hu
    rw [State.writeZprobe, if_neg (by simp [hb, hbusy])]
    generalize s.merge (LP_ZPROBE p) 0x0100003F v = u
    cases ht : u.flag (LP_ZPROBE.MODE p)
    · simp
    · simp only [State.refuseTone, State.probeEnd, not_true_eq_false, if_false, Bool.true_eq_false]
  · refine (next_enter hw).trans ?_
    rw [State.writeZprobe, if_pos (.inr hbusy)]
  · show Host.Outcome.next _ = _
    rw [if_neg (by simp [hp])]
    simp only [State.probeMag_of_exact hd hm hle, clampInt_of_within h1 h2, State.probeEnd]
  · refine (next_enter hw).trans ?_
    rw [State.writeNmapCfg, if_pos hb]
  · show Host.Outcome.next _ = _
    subst hk hwd
    rw [if_pos hr]
    simp only [State.readNmap, sum_range_four, Bool.not_eq_true, Nat.mul_zero, Nat.add_zero, pow_zero, Nat.mul_one, Nat.reduceMul]

end Sys2Proof.Machine

/-! PROOFS. Slot boundaries, the headroom loop and the mains lock (O11, O13). -/

namespace Sys2Proof.Machine

/-! ### Slot boundaries and the headroom loop (R29 to R33, R57) -/

theorem clampNat_eq_min (hi x : Nat) : clampNat hi x = min hi x := by rw [clampNat]; split <;> omega

/-- Settles O11, by the branches of the slot boundary, the headroom loop and the echo state. -/
theorem headroomLoopStepsThePga : Obligations.HeadroomLoopStepsThePga := by
  unfold Obligations.HeadroomLoopStepsThePga
  refine ⟨fun p m s u k hon hst he hk hu => ?_, fun p k m s u hon hst ho hu => ?_, fun p m s h => ?_, fun p m s hl hm hp ho => ?_,
    fun p m s hl hm hp ho ha => ?_, fun p m s hl hm hp ho ha => ?_, fun p c s => rfl, fun p r m s hr he => ?_⟩
  · show Host.Outcome.next _ = _
    subst hk hu
    rw [if_neg (by simp [hon, hst]), if_neg (by decide), if_neg (by simp [he])]
    rfl
  · show Host.Outcome.next _ = _
    subst hu
    rw [if_neg (by simp [hon, hst]), if_pos rfl, if_pos (by simp [ho]), State.endOld]
  · rw [State.headroom, if_pos (by simpa using h), State.takeMode]
    cases hm : s.flag (LP_PGA.MODE p)
    · simp
    · simp [State.manualCode, clampNat_eq_min]
  · rw [State.headroom, if_neg (by simp [hl, hm, hp])]
    simp only [State.loopStep, ho, not_true_eq_false, and_false, if_false, if_true]
  · rw [State.headroom, if_neg (by simp [hl, hm, hp])]
    simp only [State.loopStep, ho, Bool.false_eq_true, not_false_eq_true, and_true, if_false, if_pos ha]
  · rw [State.headroom, if_neg (by simp [hl, hm, hp])]
    simp only [State.loopStep, ho, Bool.false_eq_true, not_false_eq_true, and_true, if_false, if_neg (not_le.mpr ha), clampNat_eq_min]
    by_cases hlo : 50 * s.get (LP_PGA.LO_THR p) < m.atten
    · simp only [hlo, if_true, true_and]
    · have h0 : ¬ max 1 (s.get (LP_PGA.HOLD p)) ≤ 0 := by omega
      simp only [hlo, if_false, false_and, h0]
  · simp only [State.echoSlot, hr, he, not_true_eq_false, if_false]
    split <;> simp_all

/-! ### The mains lock (R50 to R56) -/

/-- The trim in force moves nothing. -/
theorem State.moveTrim_self {s : State} {p : Nat} {z : Int} (h : (s.port p).trim = z) : s.moveTrim p z = s := by
  simp only [State.moveTrim, h, Int.sub_self, if_true]

theorem State.blind_of_settled {s : State} {p : Nat} (h : s.meter.fastLeft = 0) : s.blind p = false := by simp [State.blind, h]

/-- A crossing that is taken where it was seen. -/
theorem exec_mainsZeroCrossing {p : Port} {t x : Nat} {z : Int} {s : State} (hst : s.get (LP_MSTAT.STATE p) ≠ 0) (hm : s.metering = true)
    (hp : s.powered (s.get (LP_MAINS.VCH p)) = true) (hf : s.meter.fastLeft = 0) (hz : z = usTime (s.getInt (LP_MAINS.ZC_TRIM p)))
    (ht : (s.port p).trim = z) (hx : x = ((t : Int) + z).toNat) : exec (.mainsZeroCrossing p t) s = .next (s.crossing p x) := by
  subst hx hz
  show Host.Outcome.next _ = _
  rw [if_neg (by simp [hst, hm, hp])]
  simp only [State.moveTrim_self ht, State.blind_of_settled hf, Bool.false_eq_true, if_false]

/-- A run that starts anew with this crossing. -/
theorem State.runCrossing_of_first {s : State} {p x : Nat} (h : (s.port p).lastX = none ∨ ∃ l, (s.port p).lastX = some l ∧ inRange (x - l) = false) :
    s.runCrossing p x = s.modPort p (fun z => { z with run := 1, lastX := some x, lastPer := none }) := by
  rcases h with h | ⟨l, h, hr⟩
  · simp only [State.runCrossing, h, Option.map_none, Bool.false_eq_true, if_false]
  · cases hl : (s.port p).lastPer with
    | none =>
      simp only [State.runCrossing, h, hl, hr, Option.map_some, Bool.false_eq_true, if_false]
      split
      · rw [if_neg (by decide)]
      · rfl
    | some q =>
      simp only [State.runCrossing, h, hl, hr, Option.map_some, Bool.false_and, Bool.false_eq_true, if_false]
      split
      · rw [if_neg (by decide)]
      · rfl

/-- A crossing that extends the run. -/
theorem State.runCrossing_of_next {s : State} {p x l q : Nat} (hx : (s.port p).lastX = some l) (hq : (s.port p).lastPer = some q)
    (hr : inRange (x - l) = true) (h1 : 200 * (x - l - q) ≤ q) (h2 : 200 * (q - (x - l)) ≤ q) {u : State}
    (hu : u = s.modPort p (fun z => { z with run := (s.port p).run + 1, lastX := some x, lastPer := some (x - l) })) :
    s.runCrossing p x = match u.lastSense x with
      | some m => if 8 ≤ (s.port p).run + 1 then u.lock p x m (x - l) else u
      | none => u := by
  subst hu
  simp only [State.runCrossing, hx, hq, hr, h1, h2, Option.map_some, and_self, decide_true, Bool.and_self, if_true]
  split
  next q' m hm hs =>
    obtain rfl := Option.some.inj hm
    simp only [hs]
  next hno =>
    split
    next m hm => exact absurd hm (hno _ m rfl)
    next => rfl

theorem State.lastSense_modPort (s : State) (p x : Nat) (f : PortSt → PortSt) : (s.modPort p f).lastSense x = s.lastSense x := rfl

/-- Outside ACQUIRE a crossing goes to the lock in force. -/
theorem State.crossing_of_locked {s : State} {p x : Nat} (h : s.get (LP_MSTAT.STATE p) = 2 ∨ s.get (LP_MSTAT.STATE p) = 3) :
    s.crossing p x = ((s.lockedCrossing p x).modPort p (fun y => { y with lastX := some x })).phref (s.get (LP_MAINS.VCH p))
      ((x : Int) - (s.port p).trim).toNat ((s.port p).lastX.any (fun l => inRange (x - l))) := by
  have h1 : s.get (LP_MSTAT.STATE p) ≠ 1 := by omega
  simp only [State.crossing, if_neg h1]

theorem State.divFree_of_exact (s : State) {a : Int} {b : Nat} (h : a % b = 0) : s.divFree a b = (a / b, s) := if_pos h

/-- The lock follows a crossing whose error is divided without rounding. -/
theorem State.follow_of_exact {s : State} {p q : Nat} {e : Int} (hp : (s.port p).pred = some q) (he : e % 64 = 0) {per : Nat}
    (hper : per = ((s.period p : Int) + e / 16).toNat) :
    s.follow p e = State.roll (State.modPort (((s.put (LP_MPER.PERIOD p) per).put (LP_MSTAT.STATE p) 2).put (LP_MSTAT.HOLD_CNT p) 0)
      p (fun y => { y with taken := true, next := ((q : Int) + per + e / 4).toNat })) p := by
  subst hper
  have h16 : e % (16 : Nat) = 0 := by omega
  have h4 : e % (4 : Nat) = 0 := by omega
  simp only [State.follow, State.divFree_of_exact s h16, State.divFree_of_exact s h4]
  refine congrArg (fun u => State.roll u p) (State.modPort_congr ?_)
  rw [State.port_of_ports (s := s) (by rw [State.put_ports, State.put_ports, State.put_ports]), hp]
  rfl

theorem State.lockedCrossing_of_valid {s : State} {p x q : Nat} (hp : (s.port p).pred = some q) (ht : (s.port p).taken = false)
    (h1 : 360 * ((x : Int) - q) ≤ s.period p) (h2 : 360 * (-((x : Int) - q)) ≤ s.period p) :
    s.lockedCrossing p x = s.follow p ((x : Int) - q) := by
  simp only [State.lockedCrossing, hp, ht, h1, h2, and_self, not_true_eq_false, Bool.false_eq_true, or_self, if_false]

theorem State.lockedCrossing_of_other {s : State} {p x q : Nat} (hp : (s.port p).pred = some q)
    (h : (s.port p).taken = true ∨ (s.period p : Int) < 360 * ((x : Int) - q) ∨ (s.period p : Int) < 360 * ((q : Int) - x)) :
    s.lockedCrossing p x = s := by
  have hc : (s.port p).taken = true ∨ ¬ (360 * ((x : Int) - q) ≤ s.period p ∧ 360 * (-((x : Int) - q)) ≤ s.period p) := by
    rcases h with h | h | h
    · exact .inl h
    · exact .inr (by omega)
    · exact .inr (by omega)
  simp only [State.lockedCrossing, hp, if_pos hc]

/-- A time moved as an integer is the time moved. -/
theorem map_intCast_option (o : Option Nat) (d : Int) :
    Option.map (fun t : Int => (t + d).toNat) (o : Option Int) = o.map (fun t : Nat => ((t : Int) + d).toNat) := by
  cases o <;> rfl

/-- Settles O13, by the cases of a crossing and of a missed one. -/
theorem mainsLockFollowsCrossings : Obligations.MainsLockFollowsCrossings := by
  unfold Obligations.MainsLockFollowsCrossings
  refine ⟨?_, fun p x s => State.runCrossing_of_first, ?_, ?_, ?_, ?_, ?_, fun p s hst ht hh => ?_, fun p s hst ht hh => ?_, fun p s hst ht hh => ?_,
    fun p s hst ht hh => ?_, fun who n v s hw => next_enter hw⟩
  · intro p t x z s hst hm hp hf hz ht hx
    rw [exec_mainsZeroCrossing (by omega) hm hp hf hz ht hx, State.crossing, if_pos hst, ht]
  · intro p x l q s hx hq hr h1 h2 hlt
    rw [State.runCrossing_of_next hx hq hr h1 h2 rfl]
    split
    · rw [if_neg (by omega)]
    · rfl
  · intro p x l q m s u off hx hq hr h1 h2 hle hs hu hoff
    have hsu : u.lastSense x = some m := by rw [hu, State.lastSense_modPort, hs]
    subst hoff
    simp only [State.runCrossing_of_next hx hq hr h1 h2 hu, hsu, if_pos (show 8 ≤ (s.port p).run + 1 by omega), State.lock]
  · intro p t x q per z e s hst hm hp hf hz ht hx hq he htk h1 h2 h64 hper
    subst he
    rw [exec_mainsZeroCrossing (by omega) hm hp hf hz ht hx, State.crossing_of_locked hst, ht,
      State.lockedCrossing_of_valid hq htk h1 h2, State.follow_of_exact hq h64 hper]
  · intro p t x q z s hst hm hp hf hz ht hx hq h
    rw [exec_mainsZeroCrossing (by omega) hm hp hf hz ht hx, State.crossing_of_locked hst, ht, State.lockedCrossing_of_other hq h]
  · intro p z d off s u hd hne hoff hu
    subst hd hoff hu
    simp only [State.moveTrim, if_neg hne, map_intCast_option]
  · show Host.Outcome.next _ = _
    simp only [hst, ht, ne_eq, not_true_eq_false, false_and, Bool.false_eq_true, or_self, if_false, if_true, if_neg (Nat.not_le.mpr hh)]
    rfl
  · show Host.Outcome.next _ = _
    simp only [hst, ht, hh, ne_eq, not_true_eq_false, false_and, Bool.false_eq_true, or_self, if_false, if_true, le_refl]
    rfl
  · show Host.Outcome.next _ = _
    simp only [hst, ht, hh, ne_eq, not_true_eq_false, and_false, Bool.false_eq_true, or_self, if_false, if_true,
      Nat.reduceEqDiff]
  · show Host.Outcome.next _ = _
    simp only [hst, ht, ne_eq, not_true_eq_false, and_false, Bool.false_eq_true, or_self, if_false, if_neg (Nat.not_le.mpr hh),
      Nat.reduceEqDiff]

end Sys2Proof.Machine

/-! PROOFS. The lane receiver, from the preamble to the payload (O14, O15). -/

namespace Sys2Proof.Machine

/-! ### From the preamble to the sync word (R39 to R48) -/

theorem State.syncPick_of_both {s : State} {n : Nat} {y z : SyncSeen} (h1 : (s.lane n).symMain ≤ s.syncWin n)
    (h2 : (s.lane n).symFull ≤ s.syncWin n) (hy : s.syncOk n false y = true) (hz : s.syncOk n true z = true) :
    s.syncPick n (some y) (some z) = some (if s.syncMetric n false y < s.syncMetric n true z then (true, z) else (false, y)) := by
  simp only [State.syncPick, Option.filter_some, h1, h2, hy, hz, decide_true, Bool.and_self, if_true]
  split <;> rfl

/-- The settled parts of a reception's end. -/
theorem Reception.last_of_hdr {c : Reception} {h : Nat × Nat} (hc : c.hdr = some h) : c.last = 60 + paySymbols h.1 h.2 := by
  simp only [Reception.last, hc, Option.map_some, Option.getD_some]

/-- Settles O14, each clause by the branch of its command. -/
theorem laneFindsAFrame : Obligations.LaneFindsAFrame := by
  unfold Obligations.LaneFindsAFrame
  refine ⟨fun n x l s u hst hu hm => ?_, fun n x l s u hst hu hm => ?_, fun n f d s hst h8 hd => ?_, fun n s hst h1 h2 => ?_, fun n s => rfl,
    fun n a b full y c r d s hst hc hp hd hr => ?_, fun n y z s => State.syncPick_of_both, fun n y s h1 hy => ?_, fun n z s h1 hz => ?_,
    fun n y g c r s hc hok hr hsym => ?_, fun n y g c r h s hc hok hr hh hsym he => ?_, fun n y g c r h s hc hok hr hh hsym he => ?_,
    fun n c s hst hf => ?_, fun n c s hst => ?_, fun n c s hst => ?_⟩
  · show Host.Outcome.next _ = _
    subst hu
    simp only [hst, hm, ne_eq, not_true_eq_false, if_false]
  · show Host.Outcome.next _ = _
    subst hu
    simp only [hst, hm, ne_eq, not_true_eq_false, if_false, Bool.false_eq_true, not_false_eq_true, if_true]
  · show Host.Outcome.next _ = _
    subst hd
    rw [if_neg (by omega)]
  · show Host.Outcome.next _ = _
    rw [if_pos ⟨hst, h1, h2⟩]
  · show Host.Outcome.next _ = _
    subst hd hr
    simp only [hst, hc, hp, State.startRx]
  · simp only [State.syncPick, Option.filter_some, Option.filter_none, h1, hy, decide_true, Bool.and_self, if_true]
  · simp only [State.syncPick, Option.filter_some, Option.filter_none, h1, hz, decide_true, Bool.and_self, if_true]
  · show Host.Outcome.next _ = _
    subst hr
    simp only [hc, hok, not_true_eq_false, if_false, if_pos hsym, decide_eq_true_eq]
  · show Host.Outcome.next _ = _
    subst hr
    simp only [hc, hok, not_true_eq_false, if_false, if_neg (Nat.not_le.mpr hsym), Reception.last_of_hdr hh, if_pos he]
  · show Host.Outcome.next _ = _
    subst hr
    simp only [hc, hok, not_true_eq_false, if_false, if_neg (Nat.not_le.mpr hsym), Reception.last_of_hdr hh, if_neg he, decide_eq_true_eq]
  · show Host.Outcome.next _ = _
    simp only [hst, hf, if_true, and_self]
  · show Host.Outcome.next _ = _
    simp only [hst, if_true, Bool.false_eq_true, false_and, if_false]
  · show Host.Outcome.next _ = _
    simp only [hst, Bool.false_eq_true, if_false]

/-! ### Decoding, enabling and the end of a block (R49, R58 to R66) -/

theorem finOfNat_val (n : LaneN) : Fin.ofNat 256 n.val = n := Fin.ofNat_val_eq_self n

theorem State.bound_merge (s : State) (a m : Nat) (v : Word) (n : Nat) : ((s.merge a m v).lane n).bound = (s.lane n).bound := by
  rw [State.lane, State.lane, State.merge_lanes]

/-- No header of lane n waits or is decoded. -/
theorem State.noHeaderOf {s : State} {n : Nat} (h : ∀ j ∈ s.dec.hdrs, j.n ≠ n) (h' : ∀ e ∈ s.dec.tiles, ∀ j, e.2 = some j → j.n ≠ n ∨ j.hdr = false) :
    s.dec.hdrs.any (fun j => j.n = n) = false ∧
      s.dec.tiles.any (fun e => e.2.any (fun (j : DecJob) => decide (j.n = n) && j.hdr)) = false := by
  refine ⟨List.any_eq_false.mpr fun j hj => by simpa using h j hj, List.any_eq_false.mpr fun e he => ?_⟩
  cases hj : e.2 with
  | none => simp
  | some j =>
    rcases h' e he j hj with hn | hn <;> simp [hn]

/-- Settles O15, each clause by the branch of its command. -/
theorem laneDecodesAFrame : Obligations.LaneDecodesAFrame := by
  unfold Obligations.LaneDecodesAFrame
  refine ⟨fun n l soft r s u hlen hst hr hsym hh ht hd => ?_, fun n l soft snr r len cp s u hst hr hh hsym hd => ?_, fun tile j t s hn hh => ?_,
    fun tile j t s hn hh hp => ?_, fun tile j n r o k s u v hj hh hn hu hr hd => ?_, fun tile j n len cp fixed l ok s v rx hj hh hn hc hd hrx => ?_,
    fun who n v s hw hb hbd he => ?_, fun who n v s hw hb hbd he => ?_, fun who n v s hw h => ?_, fun p k s hb => ?_⟩
  · show Host.Outcome.next _ = _
    obtain ⟨h1, h2⟩ := State.noHeaderOf hh ht
    simp only [hst, hr, h1, h2, Nat.not_lt.mpr hsym, Bool.false_eq_true, or_self, if_false, hd]
  · show Host.Outcome.next _ = _
    simp only [hst, hr, hh, Option.getD_some, Reception.last_of_hdr hh, Nat.not_lt.mpr hsym, if_false, hd]
  · show Host.Outcome.next _ = _
    simp only [hn, hh, Option.isSome_none, Bool.false_eq_true, if_false]
  · show Host.Outcome.next _ = _
    simp only [hn, hh, hp, Option.isSome_none, Bool.false_eq_true, if_false]
  · show Host.Outcome.next _ = _
    subst hu
    rcases o with _ | ⟨len, h1⟩
    · simp only [hj, hh, hn, finOfNat_val, not_true_eq_false, if_false, hr, hd]
    · simp only [hj, hh, hn, finOfNat_val, not_true_eq_false, if_false, hr, hd]
  · show Host.Outcome.next _ = _
    subst hrx
    simp only [hj, hh, hn, finOfNat_val, Bool.false_eq_true, if_false, hc, Option.getD_some, hd]
  · refine (next_enter hw).trans ?_
    simp only [State.writeLnCfg, State.bound_merge, hb, hbd, he, Bool.and_self, Bool.false_eq_true, if_false, if_true]
  · refine (next_enter hw).trans ?_
    simp only [State.writeLnCfg, State.bound_merge, hb, hbd, he, Bool.and_self, if_true]
  · refine (next_enter hw).trans ?_
    have hon : (bit v.toNat 31 && (s.lane n).bound) = false := by rcases h with h | h <;> simp [h]
    cases hf : s.flag (LN_CFG.ENABLE n)
    · simp only [State.writeLnCfg, State.bound_merge, hon, hf, Bool.false_eq_true, if_false, if_true]
    · simp only [State.writeLnCfg, State.bound_merge, hon, hf, Bool.true_eq_false, Bool.false_eq_true, if_false, if_true]
  · show Host.Outcome.next _ = _
    simp only [hb, ne_eq, not_true_eq_false, if_false]

end Sys2Proof.Machine

/-! PROOFS. Transmission cycles, and the frames the link layer accepts (O16, O17). -/

namespace Sys2Proof.Machine

/-! ### A cycle's transmissions (R67 to R80) -/

/-- The end of a frame that has started and is no tone. -/
theorem State.endFrame_of_started {s : State} {p c : Nat} {x : TxCtx} (hc : s.ctx p c = some x) (hs : x.started = true) (hk : x.kind ≠ .tone)
    (r : Report75) : s.endFrame p c r = (((((s.cutSpan p).setCtx p c none).showCtx p x.k).lineOff p x.k).probeCut p x.k).report p x r := by
  simp only [State.endFrame, hc, hs, if_true, State.probeOff, hk, false_and, if_false]

/-- Settles O16, each clause by the branch of its command. -/
theorem transmissionFollowsItsCycle : Obligations.TransmissionFollowsItsCycle := by
  unfold Obligations.TransmissionFollowsItsCycle
  refine ⟨fun p c s u v hon hl hc hu hv => ?_, fun p s hon hl => ?_, fun a b => by simp [candBefore], fun p c k s hh => ⟨if_pos hh, ?_⟩,
    fun p s u hon hst hb he hu => ?_, fun p s u v hl hu hv => ?_, fun p s u hl hu => ?_, fun p c x s m u hc hs hon hl he hm hsl hu => ?_,
    fun p c x s u hc hs hle hk hu => ?_, fun n q i s hon hi => ?_, fun p mag samples s hon hlim => ?_⟩
  · show Host.Outcome.next _ = _
    subst hc hu hv
    simp only [hon, hl, not_true_eq_false, if_false]
  · show Host.Outcome.next _ = _
    simp only [hon, hl, not_true_eq_false, if_false, Bool.false_eq_true, not_false_eq_true, if_true]
  · simp [State.mayAir, hh]
  · show Host.Outcome.next _ = _
    subst hu
    rw [if_neg (by simp [hon, hst, hb])]
    simp only [State.cycleSlot, he, if_true]
  · subst hu hv
    simp only [State.beginCycle, hl, if_true]
  · subst hu
    simp only [State.beginCycle, hl, Bool.false_eq_true, if_false]
  · show Host.Outcome.next _ = _
    subst hm hu
    have hmay : s.mayStart p x = true := by simp [State.mayStart, hon, hl, he, hs, hsl]
    simp only [hc, hmay, if_true, State.startFrame]
  · show Host.Outcome.next _ = _
    subst hu
    simp only [hc, hs, hle, and_self, if_true, State.endFrame_of_started hc hs hk, State.lineOff]
  · show Host.Outcome.next _ = _
    simp only [hon, if_true, State.headCheck, hi, Bool.not_eq_true]
  · show Host.Outcome.next _ = _
    have hiff : (mag < s.get (LP_ISNS.OC_LIMIT p) ∨ samples < max 1 (s.get (LP_ISNS.OC_TIME p))) ↔
        ¬ (s.get (LP_ISNS.OC_LIMIT p) ≤ mag ∧ 1 ≤ samples ∧ s.get (LP_ISNS.OC_TIME p) ≤ samples) := by omega
    simp only [hon, hlim, not_true_eq_false, false_or, hiff, ite_not]

/-! ### DATA frames to the concentrator (R92, R93) -/

theorem State.flag_count_ne (s : State) (f g : Fld) (n : Nat) (h : g.addr ≠ f.addr) : (s.count f n).flag g = s.flag g :=
  State.flag_of_reg (State.reg_put_ne s f _ h)

theorem State.reportDup_of_quiet {s : State} {f : LinkRx} {n : Nat} (h : s.flag (LN_CFG.ERR_REC n) = false) : s.reportDup f n = s := by
  simp [State.reportDup, h]

/-- A duplicate on an own lane without error records. -/
theorem State.duplicate_of_quiet {s : State} {f : LinkRx} (m : Mac) (i : Nat) (h : s.flag (LN_CFG.ERR_REC (f.lane % 256)) = false)
    (ho : s.ownLane f.lane = some (f.lane % 256)) {u : State} (hu : u = s.count LK_CNT.DUP_RX 1) :
    s.duplicate f m i = if m.ackreq = true ∧ u.answering (leNat m.src) m.seq = false then u.reply f m (some i) none else u := by
  subst hu
  have hq : (s.count LK_CNT.DUP_RX 1).flag (LN_CFG.ERR_REC (f.lane % 256)) = false := by
    rw [State.flag_count_ne _ _ _ _ (by simp only [LN_CFG.ERR_REC, LN_CFG, LK_CNT.DUP_RX, LK_CNT]; omega), h]
  simp only [State.duplicate, ho, Option.map_some, Option.getD_some, State.reportDup_of_quiet hq]
  simp

/-- A frame delivered to a queue that takes it, on a unit that keeps its own registry. -/
theorem State.deliver_of_home {s : State} {f : LinkRx} (m : Mac) (i r d fc : Nat) (b : List Byte) (hf : s.follower = false) (hi : s.island = false)
    {code : Nat} {u : State} {l : List PoolNote}
    (hp : s.putPacket (.engine 0) (s.get (LP_LINK.DLVQ (f.lane % 256 / 64))) b = (code, u, l)) (hc : code ≠ 1) :
    s.deliver f m i r d fc b = (u.tellPool l).reply f m (some i) (some 1) := by
  simp only [State.deliver, hf, hi, Bool.or_self, Bool.false_eq_true, if_false, hp, hc, ne_eq, not_false_eq_true, if_true]

/-- Settles O17, by the steps of R92 as `State.rxData` takes them. -/
theorem linkLayerAcceptsDataOnce : Obligations.LinkLayerAcceptsDataOnce := by
  unfold Obligations.LinkLayerAcceptsDataOnce
  refine ⟨fun f m s u ht hp hk hm => ?_, fun f t s hr hk => ?_, fun f m s hs hi => ?_, fun f m i s hs hp ho => ?_, fun f m i b s hs hp ho he => ?_,
    fun f m i b s hs hp ho he hd => ?_, fun f m i r d b s hs hp ho he hd => ?_, fun f m i s u h ho hu => ?_,
    fun f m i r d fc q code b l s u hf hi hq hp hc => ?_, fun f m i r d fc q b l s u v w x hf hi hq hp hv hw hx => ?_, fun x map q _ _ => rfl⟩
  · show Host.Outcome.next _ = _
    simp only [ht, hp, hk, hm, and_self, if_true]
  · simp only [State.takeRx, hr, hk, if_true]
  · simp only [State.rxData, hs, hi, Bool.false_eq_true, if_false]
  · simp only [State.rxData, hs, hp, ho, State.micFail]
  · simp only [State.rxData, hs, hp, ho, he, ne_eq, not_false_eq_true, if_true]
  · simp only [State.rxData, hs, hp, ho, he, hd, ne_eq, not_true_eq_false, if_false]
  · simp only [State.rxData, hs, hp, ho, he, hd, ne_eq, not_true_eq_false, if_false]
  · exact State.duplicate_of_quiet m i h ho hu
  · subst hq
    exact State.deliver_of_home m i r d fc b hf hi hp hc
  · subst hq hv hw hx
    simp only [State.deliver, hf, hi, Bool.or_self, Bool.false_eq_true, if_false, hp, ne_eq, not_true_eq_false]

end Sys2Proof.Machine

/-! PROOFS. Answers, joins and echoes of the link layer (O18). -/

namespace Sys2Proof.Machine

/-! ### Answers, joins and echoes (R94 to R108) -/

/-- A join that this unit hears on its own lane, of a unit that is no Island follower and unpaired. -/
theorem State.rxJoin_of_home {s : State} {f : LinkRx} {m : Mac} {n : Nat} (hi : s.island = false) (hp : s.paired = false)
    (ho : s.ownLane f.lane = some n) :
    s.rxJoin f m = if s.joinTag m = false then s.micFail
      else if ¬ s.joinOk (n / 64) ∨ m.rest.length ≠ 17 ∨ 2 ≤ u8 m.rest 7 then s
      else (s.joinSeen f m).elim (s.firstJoin f n m) (fun j => s.laterJoin f m j) := by
  cases hj : s.joinSeen f m
  all_goals simp only [State.rxJoin, hi, hp, ho, hj, Bool.false_eq_true, false_and, Bool.false_and, if_false, Bool.not_eq_true, Option.elim]

/-- The word that a registry address names is the entry's. -/
theorem registry_word {base a i : Nat} (h1 : base + 64 * i ≤ a) (h2 : a < base + 64 * i + 32) (h4 : a % 4 = 0) (hb : base % 4 = 0) :
    (a - base) / 64 = i ∧ (a - base) % 64 < 32 ∧ 4 * ((a - base) % 64 / 4) = a - (base + 64 * i) := by omega

theorem State.writeWord0_of_empty {s : State} {a i : Nat} {v : Word} (hp : s.paired = false) (he : s.entState i = 0) (hi : (a - s.regBase) / 64 = i) :
    s.writeWord0 a v = s.putEntry i (4 * ((a - s.regBase) % 64 / 4)) (leBytes 4 v.toNat) := by
  subst hi
  simp only [State.writeWord0, hp, he, Bool.false_and, Bool.false_eq_true, if_false, if_true]

/-- Settles O18, each clause by the branch of its command. -/
theorem linkLayerAnswersJoinsAndEchoes : Obligations.LinkLayerAnswersJoinsAndEchoes := by
  unfold Obligations.LinkLayerAnswersJoinsAndEchoes
  refine ⟨fun f m i n b x s u ht hp hs hpass ho ha => ?_, fun f m s u ht hp => ?_, fun f m n s hi hp ho ht => ?_, fun f m n s hi hp ho ht hj => ?_,
    fun f m n s hi hp ho hj ht hlen h7 hseen => ?_, fun f m n b s u l ht hp ho he hl hno => ?_, fun f m n b s u l ht hp ho he hl hex => ?_,
    fun a b n ha hb => ?_, fun p j t s hf hlk hlate => ?_, fun tag x c d s hc hph hlk hlate => ?_, fun tag p x c s hc => ?_,
    fun p t c s hc hlk => ?_, fun who p v s hw => next_enter hw, fun a v i s hr hp h4 hi h1 h2 he hpair hb => ?_⟩
  · show Host.Outcome.next _ = _
    simp only [ht, hp, State.rxAck, hs, hpass, ho, ha]
  · show Host.Outcome.next _ = _
    simp only [ht, hp]
  · rw [State.rxJoin_of_home hi hp ho, if_pos ht, State.micFail]
  · rw [State.rxJoin_of_home hi hp ho, if_neg (by simp [ht]), if_pos (by simp [hj])]
  · rw [State.rxJoin_of_home hi hp ho, if_neg (by simp [ht]), if_neg (by simp [hj, hlen, h7]), hseen, Option.elim]
    cases hf : s.findEui m.src with
    | some i => simp only [State.firstJoin, hf]
    | none =>
      cases hem : s.findEmpty with
      | none => simp only [State.firstJoin, hf, hem]
      | some i => simp only [State.firstJoin, hf, hem]
  · show Host.Outcome.next _ = _
    have hany : l.any (fun e => decide ((e.1, e.2.1, e.2.2.1) = (leNat m.src, m.seq, (m.route.map (fun r => r.2.1)).getD 0))) = false :=
      List.any_eq_false.mpr fun e he' => by simpa using hno e he'
    subst hl
    simp only [ht, hp, ho, he, hany, Bool.false_eq_true, if_false]
  · show Host.Outcome.next _ = _
    have hany : l.any (fun e => decide ((e.1, e.2.1, e.2.2.1) = (leNat m.src, m.seq, (m.route.map (fun r => r.2.1)).getD 0))) = true := by
      obtain ⟨e, he', hk⟩ := hex
      exact List.any_eq_true.mpr ⟨e, he', decide_eq_true hk⟩
    subst hl
    simp only [ht, hp, ho, he, hany, if_true]
  · rw [nearCycles, decide_eq_true_eq, Nat.mod_eq_of_lt ha, Nat.mod_eq_of_lt hb]
  · show Host.Outcome.next _ = _
    simp only [hf, hlk, hlate, not_true_eq_false, and_false, if_false, State.dropJoin]
  · show Host.Outcome.next _ = _
    split
    next h0 => exact absurd (h0.symm.trans hc) (by simp)
    next x' c' h0 =>
      obtain ⟨rfl, rfl⟩ := Prod.mk.inj (Option.some.inj (h0.symm.trans hc))
      simp only [hph, hlk, hlate, not_true_eq_false, and_false, if_false]
  · show Host.Outcome.next _ = _
    simp only [hc]
  · simp only [State.backedOff, hc, hlk, Bool.not_true, Bool.false_or]
  · obtain ⟨hix, hlt, hj⟩ := registry_word h1 h2 h4 hb
    show Host.Outcome.next _ = _
    have hin : a.toNat < s.regBase + 64 * s.entries := by omega
    rw [aligned_sub h4, if_pos ⟨hr, hp, hin, hlt⟩, State.writeWord0_of_empty hpair he hix, hj]

end Sys2Proof.Machine

/-! PROOFS. Synchronising resets, snapshots and the balance (O20). -/

namespace Sys2Proof.Machine

/-! ### Synchronising resets, snapshots and the balance (R111 to R129) -/

theorem filter_lt_head {e : Nat} {l : List Nat} (h : ∀ x ∈ l, e < x) : (e :: l).filter (fun t => decide (t < e + 1)) = [e] := by
  rw [List.filter_cons_of_pos (by simp), List.filter_eq_nil_iff.mpr fun x hx => by have := h x hx; simp; omega]

theorem b2n_mod_two (b : Bool) : b2n b % 2 = b2n b := by cases b <;> rfl

/-- A flag reads as what was put into it. -/
theorem State.flag_putFlag_self (s : State) (f : Fld) (b : Bool) (h : f.hi = f.lo) (h' : f.hi < 32) : (s.putFlag f b).flag f = b := by
  rw [State.flag, State.putFlag, State.get_put_same _ _ _ (by omega) h', h, Nat.add_sub_cancel_left, pow_one, b2n_mod_two]
  cases b <;> rfl

/-- The registers and the chain's counters after a synchronising reset. -/
theorem State.resetChain_spec (s : State) :
    s.resetChain.get MT_SYNC.SETTLE = s.settleCount ∧ s.resetChain.flag MT_STAT.SETTLING = true ∧
      s.resetChain.get MT_SYNC.COUNT = (s.get MT_SYNC.COUNT + 1) % 256 ∧ s.resetChain.meter.fastLeft = 3 ∧
      s.resetChain.meter.fineN = 0 ∧ s.resetChain.meter.phase = 0 := by
  have hle : s.settleCount < 256 := by simp only [State.settleCount, State.stages]; omega
  obtain ⟨m, u, hm, hu⟩ : ∃ (m : MeterSt) (u : State), (m.fastLeft = 3 ∧ m.fineN = 0 ∧ m.phase = 0) ∧ s.resetChain =
      ((State.put { u with meter := m } MT_SYNC.COUNT (s.get MT_SYNC.COUNT + 1)).put MT_SYNC.SETTLE s.settleCount).putFlag
        MT_STAT.SETTLING true := ⟨_, _, ⟨rfl, rfl, rfl⟩, by rw [State.resetChain]⟩
  have hsettling : s.resetChain.flag MT_STAT.SETTLING = true := by
    rw [hu]; exact State.flag_putFlag_self _ MT_STAT.SETTLING true rfl (by decide)
  have hsettle : s.resetChain.get MT_SYNC.SETTLE = s.settleCount := by
    rw [hu, State.putFlag, State.get_put_ne _ _ MT_SYNC.SETTLE _ (by decide), State.get_put_same _ _ _ (by decide) (by decide)]
    exact Nat.mod_eq_of_lt hle
  have hcount : s.resetChain.get MT_SYNC.COUNT = (s.get MT_SYNC.COUNT + 1) % 256 := by
    rw [hu, State.putFlag, State.get_put_ne _ _ MT_SYNC.COUNT _ (by decide),
      State.get_put_apart _ MT_SYNC.SETTLE MT_SYNC.COUNT _ rfl (by decide) (by decide) (by decide) (by decide),
      State.get_put_same _ _ _ (by decide) (by decide)]
    rfl
  have hmeter : s.resetChain.meter = m := by rw [hu, State.putFlag_meter, State.put_meter, State.put_meter]
  rw [hmeter]
  exact ⟨hsettle, hsettling, hcount, hm⟩

/-- A cycle block's register that is no accumulator, cycle number or status keeps what the first four puts left. -/
theorem State.reg_snapshot (s : State) (f : Nat) {a : Nat} (h : a < 0x90110 + f * 0x80) :
    (s.snapshot f).reg a = ((((s.put (MT_PC_LO.VALUE f) (unsgn 64 (s.feeder f).live.pc)).put (MT_PC_HI.VALUE f)
      (unsgn 64 (s.feeder f).live.pc / 2 ^ 32)).put (MT_QC_LO.VALUE f) (unsgn 64 (s.feeder f).live.qc)).put (MT_QC_HI.VALUE f)
        (unsgn 64 (s.feeder f).live.qc / 2 ^ 32)).reg a := by
  have hne (g : Fld) (hg : 0x90110 + f * 0x80 ≤ g.addr) : a ≠ g.addr := by omega
  rw [State.snapshot]
  refine foldState_keeps (fun t => State.reg t a = _) _ _ (fun e t ht => ?_) _ ?_
  · rw [State.reg_put_ne _ _ _ (hne _ (by simp only [MT_ACC_HI.VALUE, MT_ACC_HI]; omega)),
      State.reg_put_ne _ _ _ (hne _ (by simp only [MT_ACC_LO.VALUE, MT_ACC_LO]; omega)), ht]
  · rw [State.reg_put_ne _ _ _ (hne _ (by simp only [MT_CYCS.SAMPLES, MT_CYCS]; omega)), State.putFlag,
      State.reg_put_ne _ _ _ (hne _ (by simp only [MT_CYCS.CLIP, MT_CYCS]; omega)), State.putFlag,
      State.reg_put_ne _ _ _ (hne _ (by simp only [MT_CYCS.SETTLING, MT_CYCS]; omega)), State.putFlag,
      State.reg_put_ne _ _ _ (hne _ (by simp only [MT_CYCS.NO_ZC, MT_CYCS]; omega)),
      State.reg_put_ne _ _ _ (hne _ (by simp only [MT_CYCN.CYCLE, MT_CYCN]; omega))]

theorem Frame.putFlag (s : State) (f : Fld) (b : Bool) : Frame [.regs] s (s.putFlag f b) := Frame.put _ _ _

theorem State.snapshot_frame (s : State) (f : Nat) : Frame [.regs] s (s.snapshot f) := by
  rw [State.snapshot]
  refine foldState_keeps (fun t => Frame [.regs] s t) _ _ (fun e t ht => (ht.trans (Frame.put _ _ _)).trans (Frame.put _ _ _)) _ ?_
  exact (((((((((Frame.put _ _ _).trans (Frame.put _ _ _)).trans (Frame.put _ _ _)).trans (Frame.put _ _ _)).trans (Frame.put _ _ _)).trans
    (Frame.putFlag _ _ _)).trans (Frame.putFlag _ _ _)).trans (Frame.putFlag _ _ _)).trans (Frame.put _ _ _))

/-- The cycle block shows the last cycle's Pc and Qc. -/
theorem State.snapshot_values (s : State) (f : Nat) :
    (s.snapshot f).get (MT_PC_LO.VALUE f) = unsgn 64 (s.feeder f).live.pc % 2 ^ 32 ∧
      (s.snapshot f).get (MT_PC_HI.VALUE f) = unsgn 64 (s.feeder f).live.pc / 2 ^ 32 ∧
      (s.snapshot f).get (MT_QC_LO.VALUE f) = unsgn 64 (s.feeder f).live.qc % 2 ^ 32 ∧
      (s.snapshot f).get (MT_QC_HI.VALUE f) = unsgn 64 (s.feeder f).live.qc / 2 ^ 32 := by
  have hp := unsgn_lt 64 (s.feeder f).live.pc
  have hq := unsgn_lt 64 (s.feeder f).live.qc
  refine ⟨?_, ?_, ?_, ?_⟩
  · rw [State.get_of_reg (s.reg_snapshot f (by simp only [MT_PC_LO.VALUE, MT_PC_LO]; omega)),
      State.get_put_ne _ _ _ _ (by simp only [MT_PC_LO.VALUE, MT_PC_LO, MT_QC_HI.VALUE, MT_QC_HI]; omega),
      State.get_put_ne _ _ _ _ (by simp only [MT_PC_LO.VALUE, MT_PC_LO, MT_QC_LO.VALUE, MT_QC_LO]; omega),
      State.get_put_ne _ _ _ _ (by simp only [MT_PC_LO.VALUE, MT_PC_LO, MT_PC_HI.VALUE, MT_PC_HI]; omega),
      State.get_put_same _ _ _ (by simp [MT_PC_LO.VALUE]) (by simp [MT_PC_LO.VALUE])]
    rfl
  · rw [State.get_of_reg (s.reg_snapshot f (by simp only [MT_PC_HI.VALUE, MT_PC_HI]; omega)),
      State.get_put_ne _ _ _ _ (by simp only [MT_PC_HI.VALUE, MT_PC_HI, MT_QC_HI.VALUE, MT_QC_HI]; omega),
      State.get_put_ne _ _ _ _ (by simp only [MT_PC_HI.VALUE, MT_PC_HI, MT_QC_LO.VALUE, MT_QC_LO]; omega),
      State.get_put_same _ _ _ (by simp [MT_PC_HI.VALUE]) (by simp [MT_PC_HI.VALUE])]
    exact Nat.mod_eq_of_lt (by simp only [MT_PC_HI.VALUE]; omega)
  · rw [State.get_of_reg (s.reg_snapshot f (by simp only [MT_QC_LO.VALUE, MT_QC_LO]; omega)),
      State.get_put_ne _ _ _ _ (by simp only [MT_QC_LO.VALUE, MT_QC_LO, MT_QC_HI.VALUE, MT_QC_HI]; omega),
      State.get_put_same _ _ _ (by simp [MT_QC_LO.VALUE]) (by simp [MT_QC_LO.VALUE])]
    rfl
  · rw [State.get_of_reg (s.reg_snapshot f (by simp only [MT_QC_HI.VALUE, MT_QC_HI]; omega)),
      State.get_put_same _ _ _ (by simp [MT_QC_HI.VALUE]) (by simp [MT_QC_HI.VALUE])]
    exact Nat.mod_eq_of_lt (by simp only [MT_QC_HI.VALUE]; omega)

theorem exec_mtSnapshotRead {who : Accessor} {f : Feeder} {s : State} (hr : s.reads who = true) :
    exec (.mtSnapshotRead who f) s = .next ((s.snapshot f).answer who ((s.snapshot f).reg (MT_PC_LO f))) := by
  show Host.Outcome.next _ = _
  rw [if_pos hr]

/-- Settles O20, each clause by the branch of its command. -/
theorem meteringResetsSamplesAndBalance : Obligations.MeteringResetsSamplesAndBalance := by
  unfold Obligations.MeteringResetsSamplesAndBalance
  refine ⟨fun who v s hw hb hm => ?_, fun b s hm hsy hb => ?_, fun e l s hm hr hl => ?_, fun s u hu => hu ▸ s.resetChain_spec, fun s hset hle => ?_,
    fun c l s r hm hl hlen hr => ?_, ?_, fun q s u v hq hen hseq hrdy hst hf hu hv => ?_, fun d s h2 h3 h1 hle he => ?_,
    fun w l b t s r u hres hr hu => ?_⟩
  · refine (next_enter hw).trans ?_
    rw [State.writeMtSync, if_pos ⟨hb, hm⟩, State.schedule]
  · show Host.Outcome.next _ = _
    subst hb
    rw [if_pos ⟨hm, hsy, by simp⟩, State.schedule, hsy, if_neg (by decide)]
  · show Host.Outcome.next _ = _
    simp only [hr, hm, if_true, State.resetsTo, filter_lt_head hl, foldState]
  · show Host.Outcome.next _ = _
    rw [if_pos ⟨hset, hle⟩, State.settleDone]
  · show Host.Outcome.next _ = _
    subst hl hr
    rw [if_pos hm]
    simp only [State.flushWord, if_neg (Nat.not_lt.mpr hlen), sampleLine]
  · intro who f s hr
    obtain ⟨h1, h2, h3⟩ := (s.snapshot f).answer_spec who ((s.snapshot f).reg (MT_PC_LO f))
    obtain ⟨hpl, hph, hql, hqh⟩ := s.snapshot_values f
    have hhp : (s.snapshot f).hp = s.hp := s.snapshot_frame f .hp (by decide)
    refine ⟨_, exec_mtSnapshotRead hr, fun hw => ?_, fun hw => (h2 hw).trans hhp, ?_, ?_, ?_, ?_,
      ((s.snapshot_frame f).mono (by simp)).trans ((Frame.answer _ _ _).mono (by simp))⟩
    · rw [h1 hw, h3]
    · rw [State.get_of_reg (h3 _), hpl]
    · rw [State.get_of_reg (h3 _), hph]
    · rw [State.get_of_reg (h3 _), hql]
    · rw [State.get_of_reg (h3 _), hqh]
  · show Host.Outcome.next _ = _
    subst hq hu hv
    rw [if_neg (by simp [hen, hseq, hrdy, hst, hf])]
  · have hbad : ¬ (2 ≤ u8 d 2 ∨ u8 d 3 ≠ 0) := by omega
    have hunk : ¬ (u16 d 0 = 0 ∨ s.entries < u16 d 0 ∨ s.entState (u16 d 0 - 1) = 0) := by omega
    simp only [State.takeRecord, if_neg hbad, if_neg hunk, Bool.not_eq_true]
  · show Host.Outcome.next _ = _
    subst hr hu
    simp only [hres]

end Sys2Proof.Machine

/-! PROOFS. The host queue windows (O22). -/

namespace Sys2Proof.Machine

/-! ### The host queue windows (R154 to R157) -/

/-- A held word's parts come one after the other, the last one consumes it. -/
theorem State.readWinData_of_held {s : State} {w : Win} (e : Ecc) (hc : s.winConsumes w = true) (hh : (s.win w).held ≠ []) :
    s.readWinData w e = (some (s.nextPart w (s.get (QP_WIN_CFG.QUEUE w))).1, (s.nextPart w (s.get (QP_WIN_CFG.QUEUE w))).2) := by
  simp only [State.readWinData, hc, not_true_eq_false, if_false, if_pos hh]

theorem State.peekWord_of_uncast {s : State} {q : Nat} (e : Ecc) (h : (s.queue q).en = false) : s.peekWord q e = (none, s, []) := by
  simp [State.peekWord, touch_of_uncast h, State.ready, h]

theorem State.readWinData_of_uncast {s : State} {w : Win} (e : Ecc) (hc : s.winConsumes w = true) (hh : (s.win w).held = [])
    (hq : (s.queue (s.get (QP_WIN_CFG.QUEUE w))).en = false) : s.readWinData w e = (none, s.tellPool []) := by
  simp only [State.readWinData, hc, not_true_eq_false, if_false, hh, ne_eq, State.peekWord_of_uncast e hq]

/-- The head word of a sound queue, read without an error. -/
theorem State.peekWord_of_sound {s : State} {q : Nat} {x : QSlot} {l : List QSlot} (ht : s.touch q = (s, [])) (hr : s.ready q = true)
    (hx : (s.queue q).chain = x :: l) (hb : (s.queue q).badRun = false) (hp : s.poisoned (cellAddr x.cell x.word) = false)
    (hu : s.upset (cellAddr x.cell x.word) = .clean) :
    s.peekWord q .clean = (some (BitVec.ofNat 256 (leNat (s.bytes (cellAddr x.cell x.word) 32)), x), s, []) := by
  simp only [State.peekWord, ht, hr, hx, not_true_eq_false, if_false, State.eccRead_of_clean hu, hp, hb, Bool.false_eq_true, List.append_nil]

theorem State.win_setWin_self (s : State) (w : Nat) (x : WinSt) : (s.setWin w x).win w = x := by
  simp only [State.win, State.setWin, mget_mset_self]

theorem State.get_setWin (s : State) (w : Nat) (x : WinSt) (f : Fld) : (s.setWin w x).get f = s.get f := State.get_of_reg rfl

/-- A head word taken up drives its part 0. -/
theorem State.readWinData_of_head {s : State} {w : Win} {e : Ecc} {line : Line} {x : QSlot} (hc : s.winConsumes w = true)
    (hh : (s.win w).held = []) (hp : s.peekWord (s.get (QP_WIN_CFG.QUEUE w)) e = (some (line, x), s, []))
    (h0 : s.get (QP_WIN_STAT.PART w) = 0) :
    s.readWinData w e =
      (some (nth 0 ((List.range 8).map (fun i => BitVec.ofNat 32 (bits line.toNat (32 * i + 31) (32 * i)))) 0),
        State.put (s.setWin w
          { held := (List.range 8).map (fun i => BitVec.ofNat 32 (bits line.toNat (32 * i + 31) (32 * i))), at_ := some x })
          (QP_WIN_STAT.PART w) 1) := by
  simp only [State.readWinData, hc, not_true_eq_false, if_false, hh, ne_eq, hp, State.tellPool_nil, State.nextPart, State.win_setWin_self, State.get_setWin, h0,
    Nat.zero_add, OfNat.zero_ne_ofNat]

/-- Settles O22, each clause by the branch of its command. -/
theorem hostWindowsMoveWordsInParts : Obligations.HostWindowsMoveWordsInParts := by
  unfold Obligations.HostWindowsMoveWordsInParts
  refine ⟨fun who w v s hw => next_enter hw, fun w v s hr hp hlt => ?_, fun w v s hr hp hlt => ?_, fun w e s hr hc hh hp => ?_,
    fun w e s hr hc hh hp => ?_, fun w e s hr hc hh hq => ?_, fun w q d x l ps s hr hc hh hq ht hrdy hx hb hpo hu hpart hd hps => ?_,
    fun w s hr hwt hc hh hq => ?_, fun w s r hr ho hr' => ?_, fun w s hr hst ha => ?_, fun w x q s u hr hq hst ha hu => ?_, fun w s hr => ?_,
    fun who v s hw he => ?_⟩
  · show Host.Outcome.next _ = _
    have hlen : (s.win w).held.length + 1 < 8 := by omega
    simp only [if_pos hr, State.writeWinData, hp, not_true_eq_false, if_false, List.length_append, List.length_singleton, if_pos hlen]
  · show Host.Outcome.next _ = _
    have hlen : ¬ ((s.win w).held ++ [v]).length < 8 := by simp; omega
    simp only [if_pos hr, State.writeWinData, hp, not_true_eq_false, if_false, if_neg hlen, State.clearWin]
  · show Host.Outcome.next _ = _
    simp only [hr, not_true_eq_false, if_false, State.readWinData_of_held e hc hh, State.nextPart, if_neg (Nat.ne_of_lt hp)]
  · show Host.Outcome.next _ = _
    simp only [hr, not_true_eq_false, if_false, State.readWinData_of_held e hc hh, State.nextPart, hp, if_true, State.clearWin]
  · show Host.Outcome.next _ = _
    simp only [hr, not_true_eq_false, if_false, State.readWinData_of_uncast e hc hh hq]
  · show Host.Outcome.next _ = _
    simp only [hr, not_true_eq_false, if_false, State.readWinData_of_head hc hh (hq ▸ State.peekWord_of_sound ht hrdy hx hb hpo hu) hpart,
      ← hd, ← hps]
  · show Host.Outcome.next _ = _
    rw [if_neg (by simp [hr, hwt])]
    simp only [State.readWinData_of_uncast .clean hc hh hq, State.timeoutRead]
  · show Host.Outcome.next _ = _
    subst hr'
    simp only [if_pos hr, State.rewindWin, if_pos ho]
  · show Host.Outcome.next _ = _
    simp only [if_pos hr, State.winDropRest, hst, ha, Bool.false_eq_true, if_false]
  · show Host.Outcome.next _ = _
    subst hq
    simp only [if_pos hr, State.winDropRest, hst, ha, Bool.false_eq_true, if_false, State.clearWin, ← hu]
  · show Host.Outcome.next _ = _
    simp only [if_pos hr, State.winRestart, State.clearWin]
  · refine (next_enter hw).trans ?_
    simp only [State.writeQwm, he, not_true_eq_false, if_false]

end Sys2Proof.Machine

/-! PROOFS. Loads and casts of ingots (O24). -/

namespace Sys2Proof.Machine

/-! ### Loads and casts (R163 to R177) -/

theorem State.outWins_of_calm {s : State} (h : s.fab.partialLoad = false ∨ s.fab.outNow = false) : s.outWins = (false, s) :=
  if_neg (by rcases h with h | h <;> simp [h])

/-- The checks of a load that Outage does not abort. -/
theorem exec_ingotVerifyDone_of_calm {o : Option (List Byte)} {us : Nat} {s : State} (hr : s.verifyReady = true)
    (h : s.fab.partialLoad = false ∨ s.fab.outNow = false) : exec (.ingotVerifyDone o us) s = .next (s.endChecks o us) := by
  show Host.Outcome.next _ = _
  simp only [hr, not_true_eq_false, if_false, State.outWins_of_calm h, Bool.false_eq_true]

theorem State.endChecks_of_fetched {s : State} {o : Option (List Byte)} {g : List Byte} (us : Nat) (h : s.fetched o = some g) :
    s.endChecks o us = s.verify g us := by simp only [State.endChecks, h]

theorem State.stageBytes_of_full {s : State} (i : Nat) (l : List Byte) (h : s.fab.partialLoad = false) :
    s.stageBytes i l = s.setSpan (stageBase + i) l := if_neg (by simp [h])

/-- Four bytes of a push load below the header's 64. -/
theorem State.pushWord_of_header {s u : State} {v : Word} (hlen : s.fab.push.length < 60)
    (hu : u = { s with fab := { s.fab with push := s.fab.push ++ leBytes 4 v.toNat } }) :
    s.pushWord v = if s.fab.partialLoad = true then u else u.setSpan (stageBase + s.fab.push.length) (leBytes 4 v.toNat) := by
  have hg : (s.fab.push ++ leBytes 4 v.toNat).length < 64 := by rw [List.length_append, leBytes_length]; omega
  have h1 : ¬ 64 ≤ (s.fab.push ++ leBytes 4 v.toNat).length := by omega
  have h2 : ¬ 64 < (s.fab.push ++ leBytes 4 v.toNat).length := by omega
  have h3 : ¬ (s.fab.push ++ leBytes 4 v.toNat).length = 64 := by omega
  have hpart : u.fab.partialLoad = s.fab.partialLoad := by rw [hu]
  simp only [State.pushWord, State.showScope, ← hu, State.earlyCheck, h1, if_pos hg, if_false, hpart, h2, h3, or_false, false_and]
  cases hp : s.fab.partialLoad
  · simp [State.stageBytes_of_full _ _ (hpart.trans hp)]
  · simp

/-- The word that makes a full ingot complete. -/
theorem State.pushWord_of_last {s u : State} {v : Word} {g : List Byte} (hp : s.fab.partialLoad = false)
    (hg : g = s.fab.push ++ leBytes 4 v.toNat) (h64 : 64 ≤ g.length) (hlen : g.length = ingLen g)
    (hu : u = State.put { s with fab := { s.fab with push := g } } FAB_STAT.SCOPE (ingScope g)) (hc : u.earlyCheck g = none) :
    s.pushWord v = (u.setSpan (stageBase + s.fab.push.length) (leBytes 4 v.toNat)).put FAB_STAT.STATE 2 := by
  have hpart : u.fab.partialLoad = false := by rw [hu, State.put_fab]; exact hp
  simp only [State.pushWord, State.showScope, ← hg, if_pos h64, ← hu, hc, hpart, Bool.false_eq_true, not_false_eq_true, true_or, if_true,
    State.stageBytes_of_full _ _ hpart, if_pos (And.intro h64 hlen)]

/-- Settles O24, each clause by the branch of its command. -/
theorem ingotsAreFetchedCheckedAndCast : Obligations.IngotsAreFetchedCheckedAndCast := by
  unfold Obligations.IngotsAreFetchedCheckedAndCast
  refine ⟨fun who v s u hw hb hu => ?_, fun src part c s u hu => ?_, fun v s u hw hst hsrc hlen hu => ?_,
    fun v g s u hw hst hsrc hp hg h64 hlen hu hc => ?_, fun v s hw h => ?_, fun s hst hsrc hp => ?_,
    fun o us g s u r hr hcalm hf hfc hu hsc hvc hres hrr hr1 hlc => ?_, fun g s u hu => ?_, fun o us s hr hcalm hf => ?_,
    fun o us g e s hr hcalm hf hfc => ?_, fun o us g e s u hr hcalm hf hfc hu hse => ?_, fun o us s r hr hp hout hrr => ?_,
    fun n c s u hch hu => ?_, fun p s hst hsc htx => ?_, fun s hst hsc => ?_, fun o us g s u hm hst hg hres hu => ?_,
    fun l us s u hm hst hres hd hu => ?_, fun us g s u hst hp hg hu => ?_⟩
  · refine (next_enter hw).trans ?_
    simp only [State.writeFabLoad, hb, not_true_eq_false, if_false, ← hu]
  · subst hu
    rfl
  · refine (next_enter hw).trans ?_
    rw [State.writeFabPush, if_pos ⟨hst, hsrc⟩, State.pushWord_of_header hlen hu]
  · refine (next_enter hw).trans ?_
    rw [State.writeFabPush, if_pos ⟨hst, hsrc⟩, State.pushWord_of_last hp hg h64 hlen hu hc]
  · refine (next_enter hw).trans ?_
    rw [State.writeFabPush, if_neg (by omega)]
  · show Host.Outcome.next _ = _
    rw [if_pos ⟨hst, hsrc, hp⟩, State.loadFailNow]
  · rw [exec_ingotVerifyDone_of_calm hr hcalm, State.endChecks_of_fetched us hf]
    simp only [State.verify, hfc, ← hu, hsc, hvc, hres, Bool.false_eq_true, false_and, if_false, State.acceptIngot, ← hrr, hr1, hlc]
  · subst hu
    rfl
  · rw [exec_ingotVerifyDone_of_calm hr hcalm, State.endChecks, hf]
  · rw [exec_ingotVerifyDone_of_calm hr hcalm, State.endChecks_of_fetched us hf]
    simp only [State.verify, hfc]
  · rw [exec_ingotVerifyDone_of_calm hr hcalm, State.endChecks_of_fetched us hf]
    rcases hse with hse | ⟨hsn, hve⟩
    · simp only [State.verify, hfc, ← hu, hse]
    · simp only [State.verify, hfc, ← hu, hsn, hve]
  · show Host.Outcome.next _ = _
    simp only [hr, not_true_eq_false, if_false, ← hrr]
  · simp only [State.loadFail, hch, ← hu, OfNat.zero_ne_ofNat, Nat.zero_ne_one, if_false, ite_self]
  · show Host.Outcome.next _ = _
    have h14 : 1 ≤ p.val + 1 ∧ p.val + 1 ≤ 4 := by omega
    simp only [hst, hsc, ne_eq, not_true_eq_false, if_false, if_pos h14, Nat.add_sub_cancel, htx]
  · show Host.Outcome.next _ = _
    have h14 : ¬ (1 ≤ ingScope s.fab.ingot ∧ ingScope s.fab.ingot ≤ 4) := by omega
    simp only [hst, ne_eq, not_true_eq_false, if_false, if_neg h14]
  · show Host.Outcome.next _ = _
    have hsame : ¬ (s.fab.restore = true ∧ o.map (fun l => ingDigest (l.take (ingLen l))) ≠ some (ingDigest s.fab.ingot)) := by
      rintro ⟨h1, h2⟩
      rcases hres with h | ⟨l, rfl, hl⟩
      · rw [h] at h1; cases h1
      · exact h2 (by rw [Option.map_some, hl, hg])
    rw [if_neg (by simp [hm, hst]), if_neg hsame, ← hg, State.castDone, ← hu]
  · show Host.Outcome.next _ = _
    rw [if_neg (by simp [hm, hst]), if_pos ⟨hres, by simpa using hd⟩, State.castAgain, ← hu]
  · refine ⟨_, _, rfl, rfl, ?_⟩
    show Host.Outcome.next _ = _
    rw [if_pos ⟨hst, hp⟩, ← hg]
    simp only [State.partDone, ← hu]

end Sys2Proof.Machine

/-! PROOFS. Queue and stream instructions of the cores (O30). -/

namespace Sys2Proof.Machine

/-! ### QGET, QGETE, QTRY, QPUT, QREW and QLVL (R184, R185) -/

theorem State.takeTo_of_fault {s : State} {k : Core} {q a : Nat} {x : Nat × Nat} (rd : Sreg) (e : Ecc) (f : State → State)
    (h : s.queueFault k q a (s.mayStore k.val a) = some x) : s.takeTo k rd q a e f = s.raise k.val x.1 x.2 := by
  simp only [State.takeTo, h]

theorem State.takeTo_of_word {s v : State} {k : Core} {q a : Nat} {e : Ecc} {w : Line} {l : List PoolNote} (rd : Sreg) (f : State → State)
    (h : s.queueFault k q a (s.mayStore k.val a) = none) (hw : s.takeWord q e = (some w, v, l)) :
    s.takeTo k rd q a e f = (((v.tellPool l).storeSram a (leBytes 32 w.toNat)).retire k.val rd (BitVec.ofNat 32 (bits w.toNat 255 240))).uaFlows := by
  simp only [State.takeTo, h, hw, State.takenWord]

theorem State.takeTo_of_empty {s v : State} {k : Core} {q a : Nat} {e : Ecc} {l : List PoolNote} (rd : Sreg) (f : State → State)
    (h : s.queueFault k q a (s.mayStore k.val a) = none) (hw : s.takeWord q e = (none, v, l)) : s.takeTo k rd q a e f = f (v.tellPool l) := by
  simp only [State.takeTo, h, hw]

/-- The three instructions that take a head word differ only in what they do without one. -/
theorem exec_take {i : Instr} {k : Core} {rd ra rb : Sreg} {e : Ecc} (h : i ∈ [Instr.qget k rd ra rb e, .qgete k rd ra rb e, .qtry k rd ra rb e]) :
    ∃ w, seqWord i = some (k, w) ∧
      ∃ f : State → State → State, ∀ s, exec i s = .next (s.instr k w e (fun t => t.takeTo k rd (t.qreg k ra) (t.qaddr k rb) e (f t))) := by
  simp only [List.mem_cons, List.not_mem_nil, or_false] at h
  rcases h with rfl | rfl | rfl
  · exact ⟨_, rfl, _, fun _ => rfl⟩
  · exact ⟨_, rfl, _, fun _ => rfl⟩
  · exact ⟨_, rfl, fun _ t => t.retire k.val rd 0, fun _ => rfl⟩

theorem exec_qput {k : Core} {rd ra rb : Sreg} {e : Ecc} {s u : State} (h : Fetched (.qput k rd ra rb e) k s u) :
    exec (.qput k rd ra rb e) s = .next ((u.qput k rd (u.qreg k ra) (u.qaddr k rb) e).irqCount k.val) :=
  exec_of_fetched (g := fun t => t.qput k rd (t.qreg k ra) (t.qaddr k rb) e) (fun _ => rfl) rfl h

/-- The rights of QREW and QLVL, which touch no memory. -/
theorem State.queueFault0_of_other {s : State} {k : Core} {q : Nat} (h : s.mayQueue k.val q = false) : s.queueFault0 k q = some (4, 0) := by
  simp [State.queueFault0, h]
theorem State.queueFault0_of_uncast {s : State} {k : Core} {q : Nat} (h : s.mayQueue k.val q = true) (h' : (s.queue q).en = false) :
    s.queueFault0 k q = some (6, q) := by simp [State.queueFault0, h, h']
theorem State.queueFault0_of_own {s : State} {k : Core} {q : Nat} (h : s.mayQueue k.val q = true) (h' : (s.queue q).en = true) :
    s.queueFault0 k q = none := by simp [State.queueFault0, h, h']

theorem exec_queueRaise {i : Instr} {k : Core} {rd ra : Sreg} {s u : State} {x : Nat × Nat} (hi : i ∈ [Instr.qrew k rd ra, .qlvl k rd ra])
    (h : Fetched i k s u) (hx : u.queueFault0 k (u.qreg k ra) = some x) : exec i s = .next (u.raise k.val x.1 x.2) := by
  simp only [List.mem_cons, List.not_mem_nil, or_false] at hi
  rcases hi with rfl | rfl
  · have hc : u.qrew k rd ra = u.raise k.val x.1 x.2 := by simp only [State.qrew, hx]
    rw [← hc]; exact exec_of_fetched_quiet (fun _ => rfl) rfl h (by rw [hc, State.irq_raise])
  · have hc : u.qlvl k rd ra = u.raise k.val x.1 x.2 := by simp only [State.qlvl, hx]
    rw [← hc]; exact exec_of_fetched_quiet (fun _ => rfl) rfl h (by rw [hc, State.irq_raise])

/-! ### SIN and SOUT (R186) -/

theorem State.sinComplex_of_none {s : State} {k : Core} {p : StreamP} (h : s.sinSource k p = none) : s.sinComplex k p = false := by
  rw [State.sinComplex, h]; rfl

theorem State.sin_of_unrouted {s : State} {k : Core} {p : StreamP} (r : Sreg) (h : s.sinSource k p = none) : s.sin k r p = s.raise k.val 7 p.val := by
  simp [State.sin, h, State.sinComplex_of_none h]

theorem State.sin_of_odd {s : State} {k : Core} {p : StreamP} {r : Sreg} (h : s.sinComplex k p = true) (h' : r.val % 2 = 1) :
    s.sin k r p = s.raise k.val 1 0 := if_pos ⟨h, h'⟩

/-- A sample that SIN takes: off its FIFO, into one register or two. -/
def State.sinTaken (s : State) (k : Core) (r : Sreg) (p : StreamP) (x : Int × Int) (t : List (Int × Int)) : State :=
  let s1 := (s.modCore k.val (fun c => { c with fin := mset fifoDef c.fin p.val t })).setSr k.val r (BitVec.ofInt 32 x.1)
  if s.sinComplex k p then s1.setSr k.val (pairReg r) (BitVec.ofInt 32 x.2) else s1

theorem State.sin_of_routed {s : State} {k : Core} {p : StreamP} {r : Sreg} (h : s.sinSource k p ≠ none)
    (h' : s.sinComplex k p = true → r.val % 2 = 0) :
    (mget fifoDef (s.core k.val).fin p.val = [] → s.sin k r p = s.stallCore k.val 3 (.sin r.val p.val)) ∧
    (∀ x t, mget fifoDef (s.core k.val).fin p.val = x :: t → s.sin k r p = (s.sinTaken k r p x t).advance k.val) := by
  have h1 : ¬ (s.sinComplex k p = true ∧ r.val % 2 = 1) := fun hc => by have := h' hc.1; omega
  have h2 : ¬ (s.sinSource k p).isNone = true := by rwa [Option.isNone_iff_eq_none]
  constructor
  · intro he
    simp only [State.sin, if_neg h1, if_neg h2, he]
  · intro x t he
    simp only [State.sin, if_neg h1, if_neg h2, he, State.sinTaken]

theorem CoreBut.sinTaken (s : State) (k : Core) (r : Sreg) (p : StreamP) (x : Int × Int) (t : List (Int × Int)) :
    CoreBut k.val [SEQ_PC k.val] (s.modCore k.val (fun c => { c with fin := mset fifoDef c.fin p.val t })) ((s.sinTaken k r p x t).advance k.val) := by
  refine CoreBut.trans (t := s.sinTaken k r p x t) ?_ (CoreBut.advance _ _ (by simp))
  unfold State.sinTaken
  split
  · exact (CoreBut.setSr _ _ _ _ _).trans (CoreBut.setSr _ _ _ _ _)
  · exact CoreBut.setSr _ _ _ _ _

theorem CoreBut.fin {k : Nat} {l : List Nat} {s t : State} (h : CoreBut k l s t) : (t.core k).fin = (s.core k).fin := by
  obtain ⟨-, ⟨x, y, hk⟩, -⟩ := h
  rw [hk]

theorem pairReg_val {r : Sreg} (h : r.val % 2 = 0) : (pairReg r).val = r.val + 1 := by
  show (r.val + 1) % 32 = _
  have := r.isLt
  omega

theorem State.sr_of_fin (s : State) (k : Core) (p : StreamP) (t : List (Int × Int)) (j : Sreg) :
    (s.modCore k.val (fun c => { c with fin := mset fifoDef c.fin p.val t })).sr k.val j = s.sr k.val j := by
  rw [State.sr, State.sr, State.core_modCore, if_pos rfl]

theorem State.acc_of_fin (s : State) (k : Core) (p : StreamP) (t : List (Int × Int)) (b : AccN) :
    (s.modCore k.val (fun c => { c with fin := mset fifoDef c.fin p.val t })).acc k.val b = s.acc k.val b := by
  rw [State.acc, State.acc, State.core_modCore, if_pos rfl]

/-- What SIN puts into its registers. -/
theorem State.sr_sinTaken (s : State) (k : Core) {r : Sreg} (p : StreamP) (x : Int × Int) (t : List (Int × Int))
    (h : s.sinComplex k p = true → r.val % 2 = 0) :
    (r.val ≠ 0 → (s.sinTaken k r p x t).sr k.val r = BitVec.ofInt 32 x.1) ∧
    (s.sinComplex k p = true → (s.sinTaken k r p x t).sr k.val (pairReg r) = BitVec.ofInt 32 x.2) ∧
    (∀ j : Sreg, j ≠ r → (s.sinComplex k p = false ∨ j ≠ pairReg r) → (s.sinTaken k r p x t).sr k.val j = s.sr k.val j) := by
  unfold State.sinTaken
  cases hc : s.sinComplex k p with
  | false =>
    simp only [Bool.false_eq_true, if_false]
    exact ⟨fun hr => by rw [State.sr_setSr_self, if_neg hr], fun hn => hn.elim,
      fun j hj _ => by rw [State.sr_setSr_ne _ _ _ hj, State.sr_of_fin]⟩
  | true =>
    have hp := pairReg_val (h hc)
    have hne : r ≠ pairReg r := fun he => by rw [← he] at hp; omega
    simp only [if_true]
    refine ⟨fun hr => ?_, fun _ => ?_, fun j hj hj' => ?_⟩
    · rw [State.sr_setSr_ne _ _ _ hne, State.sr_setSr_self, if_neg hr]
    · rw [State.sr_setSr_self, if_neg (by omega)]
    · rw [State.sr_setSr_ne _ _ _ (hj'.resolve_left (by simp)), State.sr_setSr_ne _ _ _ hj, State.sr_of_fin]

theorem State.acc_sinTaken (s : State) (k : Core) (r : Sreg) (p : StreamP) (x : Int × Int) (t : List (Int × Int)) (b : AccN) :
    (s.sinTaken k r p x t).acc k.val b = s.acc k.val b := by
  unfold State.sinTaken
  split
  · rw [State.acc_setSr, State.acc_setSr, State.acc_of_fin]
  · rw [State.acc_setSr, State.acc_of_fin]

theorem State.pc_sinTaken (s : State) (k : Core) (r : Sreg) (p : StreamP) (x : Int × Int) (t : List (Int × Int)) (a : Nat) :
    (s.sinTaken k r p x t).reg a = s.reg a := by
  unfold State.sinTaken
  split
  · rw [State.reg_setSr, State.reg_setSr, State.reg_modCore]
  · rw [State.reg_setSr, State.reg_modCore]

theorem State.soutComplex_of_unrouted {s : State} {k : Core} {p : StreamP} (h : s.soutRouted k p = false) : s.soutComplex k p = false := by
  rw [State.soutComplex, h, Bool.false_and]

theorem State.sout_of_unrouted {s : State} {k : Core} {p : StreamP} (r : Sreg) (h : s.soutRouted k p = false) : s.sout k r p = s.raise k.val 7 p.val := by
  simp [State.sout, h, State.soutComplex_of_unrouted h]

/-- The sample that SOUT appends to its FIFO. -/
def State.soutSample (s : State) (k : Core) (r : Sreg) (p : StreamP) : Int × Int :=
  (op24 (s.sr k.val r), if s.soutComplex k p = true then op24 (s.sr k.val (pairReg r)) else 0)

theorem State.sout_of_routed {s : State} {k : Core} {p : StreamP} {r : Sreg} (h : s.soutRouted k p = true)
    (h' : s.soutComplex k p = true → r.val % 2 = 0) :
    (16 ≤ (mget fifoDef (s.core k.val).fout p.val).length → s.sout k r p = s.stallCore k.val 3 (.sout r.val p.val)) ∧
    ((mget fifoDef (s.core k.val).fout p.val).length < 16 → s.sout k r p =
      (s.modCore k.val (fun c => { c with fout := mset fifoDef c.fout p.val (mget fifoDef (s.core k.val).fout p.val ++
        [s.soutSample k r p]) })).advance k.val) := by
  have h1 : ¬ (s.soutComplex k p = true ∧ r.val % 2 = 1) := fun hc => by have := h' hc.1; omega
  constructor
  · intro hl
    simp only [State.sout, if_neg h1, h, not_true_eq_false, if_false, if_pos hl]
  · intro hl
    simp only [State.sout, if_neg h1, h, not_true_eq_false, if_false, if_neg (Nat.not_le.mpr hl), State.soutSample]

theorem State.irq_sout (s : State) (k : Core) (r : Sreg) (p : StreamP) (j : Nat) : ((s.sout k r p).core j).irq = (s.core j).irq := by
  unfold State.sout
  dsimp only
  split
  · exact State.irq_raise ..
  · split
    · exact State.irq_raise ..
    · split
      · exact State.irq_stallCore ..
      · rw [State.core_advance, State.irq_modCore]
        exact fun _ => rfl

theorem exec_sin {k : Core} {r : Sreg} {p : StreamP} {s u : State} (h : Fetched (.sin k r p) k s u) : exec (.sin k r p) s = .next (u.sin k r p) :=
  exec_of_fetched_quiet (fun _ => rfl) rfl h (State.irq_sin ..)
theorem exec_sout {k : Core} {r : Sreg} {p : StreamP} {s u : State} (h : Fetched (.sout k r p) k s u) : exec (.sout k r p) s = .next (u.sout k r p) :=
  exec_of_fetched_quiet (fun _ => rfl) rfl h (State.irq_sout ..)

/-! ### Samples on the crossbar (R180) -/

/-- A sample whose only sink is a core's input port. -/
theorem State.emit_to_core {s : State} {k : Core} {p : StreamP} {src n : Nat} {x : Sample} (hm : s.seqMode = true)
    (h : sinksOf s.fab.routes src = [0x5000 + k.val * 4 + p.val]) : State.emit (n + 1) s src x = s.sampleIn k.val p.val (x.re, x.im) := by
  have hk := k.isLt
  have hp := p.isLt
  have hc : epClass (0x5000 + k.val * 4 + p.val) = 5 := by rw [epClass]; omega
  have hi : epIndex (0x5000 + k.val * 4 + p.val) = k.val * 4 + p.val := by rw [epIndex]; omega
  rw [State.emit, h]
  simp only [foldState, hc, hi, hm, if_true]
  rw [show (k.val * 4 + p.val) / 4 = k.val by omega, show (k.val * 4 + p.val) % 4 = p.val by omega]

/-- A sample whose only sink is a queue. -/
theorem State.emit_to_queue {s : State} {q : QId} {src n : Nat} {x : Sample} (h : sinksOf s.fab.routes src = [0x7000 + q.val]) :
    State.emit (n + 1) s src x = s.packSample q.val x := by
  have hq := q.isLt
  have hc : epClass (0x7000 + q.val) = 7 := by rw [epClass]; omega
  have hi : epIndex (0x7000 + q.val) = q.val := by rw [epIndex]; omega
  rw [State.emit, h]
  simp only [foldState, hc, hi]

theorem exec_streamSampleArrival {src : TapSrc} {re im : BitVec 24} {s : State} (h : s.seqMode = true) :
    exec (.streamSampleArrival src re im) s = .next (State.emit 50 s (tapEnd src) (tapSample src re im)) :=
  congrArg Host.Outcome.next (if_pos h)

/-- Settles O30: the order of the faults, and each instruction by its cases on a core that has fetched it. -/
theorem queueAndStreamInstructions : Obligations.QueueAndStreamInstructions := by
  unfold Obligations.QueueAndStreamInstructions
  refine ⟨fun k q a may s => ⟨fun h => if_pos h, fun h hn => ?_, fun h hi hm hq => ?_⟩, fun k rd ra rb e x s u i hi h hx => ?_,
    fun k rd ra rb e s u v w l i hi h hf hw => ?_, fun k rd ra rb e s u v w l hf ht hw => ⟨fun h => ?_, fun h => ?_, fun h he => ?_, fun h he => ?_⟩,
    fun k rd ra rb e x s u h hx => ?_, fun k rd ra rb e s u v r h hf hr hv => ⟨fun hp => ?_, fun p hp hw => ?_⟩,
    fun k rd ra s u q hq hm he => ⟨fun r h hr => ?_, fun r h hr => ?_⟩, fun k rd ra s u q hq i hi h => ⟨fun hm => ?_, fun hm he => ?_⟩,
    fun k r p s u h => ⟨fun hn => ?_, fun hc ho => ?_⟩, fun k r p s u h => ⟨fun hn => ?_, fun hr ho hl => ?_⟩,
    fun k r p s u h hs hc => ⟨fun hl => ?_, fun x y t hl => ?_⟩, fun k r p s u h hr hc => ⟨fun hl => ?_, fun hl => ?_⟩,
    fun src re im s h => exec_streamSampleArrival h, fun k p src re im s l x hm hs hl hx => ?_, fun q src re im s hm hs => ?_⟩
  · rw [State.queueFault, if_neg (not_not.mpr h), if_pos]
    rcases hn with hn | hn | hn <;> simp [hn]
  · rw [State.queueFault, if_neg (not_not.mpr h), if_neg (by simp [hi, hm, hq]), ite_not]
  · obtain ⟨w, hw, f, hx'⟩ := exec_take hi
    have hc := State.takeTo_of_fault rd e (f u) hx
    rw [exec_of_fetched_quiet hx' hw h (by rw [hc, State.irq_raise]), hc]
  · obtain ⟨w', hw', f, hx'⟩ := exec_take hi
    rw [exec_of_fetched hx' hw' h, State.takeTo_of_word rd (f u) hf hw]
  · rw [exec_of_fetched (g := fun t => t.qtry k rd (t.qreg k ra) (t.qaddr k rb) e) (fun _ => rfl) rfl h]
    rw [State.qtry, State.takeTo_of_empty _ _ hf ht, hw]
  · rw [exec_of_fetched (g := fun t => t.qget k rd (t.qreg k ra) (t.qaddr k rb) false e) (fun _ => rfl) rfl h]
    rw [State.qget, State.takeTo_of_empty _ _ hf ht, ← hw, Bool.false_and, if_neg Bool.false_ne_true]
  · rw [exec_of_fetched (g := fun t => t.qget k rd (t.qreg k ra) (t.qaddr k rb) true e) (fun _ => rfl) rfl h]
    rw [State.qget, State.takeTo_of_empty _ _ hf ht, ← hw, if_pos (by simpa using he)]
  · rw [exec_of_fetched (g := fun t => t.qget k rd (t.qreg k ra) (t.qaddr k rb) true e) (fun _ => rfl) rfl h]
    rw [State.qget, State.takeTo_of_empty _ _ hf ht, ← hw, if_neg (by simp [he])]
  · have hc : u.qput k rd (u.qreg k ra) (u.qaddr k rb) e = u.raise k.val x.1 x.2 := by simp only [State.qput, hx]
    rw [exec_qput h, hc, State.irqCount_of_irq (by rw [State.irq_raise, h.irq])]
  · rw [exec_qput h]
    simp only [State.qput, hf, ← hr, ← hv, hp, if_true]
  · rw [exec_qput h]
    simp only [State.qput, hf, ← hr, ← hv, hp, Bool.false_eq_true, if_false, ← hw]
  · rw [exec_of_fetched (g := fun t => t.qrew k rd ra) (fun _ => rfl) rfl h]
    simp only [State.qrew, ← hq, State.queueFault0_of_own hm he, ← hr]
  · rw [exec_of_fetched (g := fun t => t.qlvl k rd ra) (fun _ => rfl) rfl h]
    simp only [State.qlvl, ← hq, State.queueFault0_of_own hm he, ← hr]
  · subst hq
    exact exec_queueRaise (x := (4, 0)) hi h (State.queueFault0_of_other hm)
  · subst hq
    exact exec_queueRaise (x := (6, u.qreg k ra)) hi h (State.queueFault0_of_uncast hm he)
  · rw [exec_sin h, State.sin_of_unrouted r hn]
  · rw [exec_sin h, State.sin_of_odd hc ho]
  · rw [exec_sout h, State.sout_of_unrouted r hn]
  · rw [exec_sout h]
    cases hc : u.soutComplex k p with
    | true => rw [State.sout, if_pos ⟨hc, ho⟩, if_pos rfl]
    | false =>
      rw [(State.sout_of_routed hr (by simp [hc])).2 hl, State.soutSample, hc]
      simp only [Bool.false_eq_true, if_false]
  · rw [exec_sin h, (State.sin_of_routed hs hc).1 hl]
  · have hb := CoreBut.sinTaken u k r p (x, y) t
    have hfin := hb.fin
    rw [State.core_modCore, if_pos rfl] at hfin
    obtain ⟨hj, -, hreg, hfr⟩ := hb
    obtain ⟨h1, h2, h3⟩ := State.sr_sinTaken u k p (x, y) t hc
    refine ⟨_, (exec_sin h).trans (congrArg _ ((State.sin_of_routed hs hc).2 _ _ hl)), ?_, fun j hjp => ?_, fun hr => ?_, fun hp => ?_,
      fun j hj1 hj2 => ?_, fun j hjk => ?_, fun b => ?_, ?_, fun a ha => ?_, (Frame.modCore u k.val _).mono (by decide) |>.trans hfr⟩
    · rw [hfin, mget_mset_self]
    · rw [hfin, mget_mset_ne _ _ _ (fun he => hjp (Fin.ext he))]
    · rw [State.sr_advance, h1 hr]
    · rw [State.sr_advance, h2 hp]
    · rw [State.sr_advance, h3 j hj1 hj2]
    · rw [hj j hjk, State.core_modCore, if_neg hjk]
    · rw [State.acc_advance, State.acc_sinTaken]
    · rw [State.reg_advance_pc, State.pc_sinTaken]
    · rw [hreg a ha, State.reg_modCore]
  · rw [exec_sout h, (State.sout_of_routed hr hc).1 hl]
  · rw [exec_sout h, (State.sout_of_routed hr hc).2 hl]; rfl
  · rw [exec_streamSampleArrival hm, State.emit_to_core hm hs, ← hx, State.sampleIn, ← hl]
    refine ⟨fun h => ?_, fun h => ?_, fun h h' => ?_⟩
    · simp only [if_pos h]
    · simp [h]
    · rw [if_neg (by omega), if_neg (by simp; intro hn; simp [hn] at h)]
  · rw [exec_streamSampleArrival hm, State.emit_to_queue hs]

end Sys2Proof.Machine

/-! PROOFS. Control of the cores through SEQ_CTL (O33). -/

namespace Sys2Proof.Machine

/-! ### Control of a core through SEQ_CTL (R195, R196) -/

theorem RegsBut.put (s : State) {l : List Nat} (f : Fld) (v : Nat) (h : f.addr ∈ l) : RegsBut l s (s.put f v) := RegsBut.setReg s _ h

theorem RegsBut.modCore (s : State) (l : List Nat) (k : Nat) (f : CoreSt → CoreSt) : RegsBut l s (s.modCore k f) := fun _ _ => State.reg_modCore ..

/-- A write of SEQ_CTL that sets one bit does what that bit says. -/
theorem exec_halt {who : Accessor} {k : Core} {s : State} (hw : Writable s who (SEQ_CTL k.val)) : exec (.halt who k) s = .next (s.halt k.val) :=
  next_enter hw
theorem exec_resume {who : Accessor} {k : Core} {s : State} (hw : Writable s who (SEQ_CTL k.val)) :
    exec (.resume who k) s = .next (s.resume k.val) := next_enter hw
theorem exec_restart {who : Accessor} {k : Core} {s : State} (hw : Writable s who (SEQ_CTL k.val)) :
    exec (.restart who k) s = .next (s.restart k.val) := next_enter hw
theorem exec_kick {who : Accessor} {k : Core} {s : State} (hw : Writable s who (SEQ_CTL k.val)) :
    exec (.kick who k) s = .next (s.coreEvent k.val 5) := next_enter hw
theorem exec_step {who : Accessor} {k : Core} {e : Ecc} {s : State} (hw : Writable s who (SEQ_CTL k.val)) :
    exec (.step who k e) s = .next (s.stepCore k e) := next_enter hw
theorem exec_seqLaneWrite {who : Accessor} {k : Core} {v : Word} {s : State} (hw : Writable s who (SEQ_LANE k.val)) :
    exec (.seqLaneWrite who k v) s = .next (s.writeSeqLane who k.val v) := next_enter hw

theorem State.halt_of_runs {s : State} {k : Nat} (h : s.coreState k ≤ 4) :
    s.halt k = (s.put (SEQ_STAT.STATE k) 6).modCore k (fun c => { c with stall := .none }) := if_pos h
theorem State.halt_of_halted {s : State} {k : Nat} (h : 4 < s.coreState k) : s.halt k = s := if_neg (Nat.not_le.mpr h)

theorem State.coreState_put (s : State) (k v : Nat) : (s.put (SEQ_STAT.STATE k) v).coreState k = v % 8 :=
  State.get_put_same s (SEQ_STAT.STATE k) v (by simp [SEQ_STAT.STATE]) (by simp [SEQ_STAT.STATE])

theorem State.coreHalted_of_call {s : State} {k : Nat} (h : s.coreState k = 4) : s.coreHalted k = false := by simp [State.coreHalted, h]

theorem State.resume_of_halted {s : State} {k : Nat} (h : s.coreHalted k = true) : s.resume k = s.put (SEQ_STAT.STATE k) 0 := if_pos h

theorem State.resume_of_other {s : State} {k : Nat} (h : s.coreHalted k = false) (h' : s.coreState k ≠ 4) : s.resume k = s := by
  rw [State.resume, if_neg (by simp [h]), if_neg h']

/-- A core in CALL takes what its supervisor left in SEQ_RET. -/
def State.takenRet (s : State) (k : Nat) : State := (s.setSr k 1 (s.reg (SEQ_RET k 0))).setSr k 2 (s.reg (SEQ_RET k 1))

theorem State.reg_takenRet (s : State) (k a : Nat) : (s.takenRet k).reg a = s.reg a := by
  rw [State.takenRet, State.reg_setSr, State.reg_setSr]

theorem State.resume_of_call {s : State} {k : Nat} (h : s.coreState k = 4) (hp : s.pc k % 4 = 0) :
    s.resume k = ((s.takenRet k).setReg (SEQ_PC k) (s.reg (SEQ_PC k) + 4)).put (SEQ_STAT.STATE k) 0 := by
  have hpc : (s.takenRet k).pc k = s.pc k := by rw [State.pc, State.pc, State.reg_takenRet]
  have hv : BitVec.ofNat 32 (s.pc k + 4 - (s.pc k + 4) % 4) = s.reg (SEQ_PC k) + 4 := by
    rw [show s.pc k + 4 - (s.pc k + 4) % 4 = s.pc k + 4 by omega]
    apply BitVec.eq_of_toNat_eq
    rw [BitVec.toNat_ofNat, BitVec.toNat_add, State.pc]
    rfl
  rw [State.resume, if_neg (by simp [State.coreHalted_of_call h]), if_pos h]
  show (State.setReg (s.takenRet k) (SEQ_PC k) (BitVec.ofNat 32 ((s.takenRet k).pc k + 4 - ((s.takenRet k).pc k + 4) % 4))).put (SEQ_STAT.STATE k) 0 = _
  rw [hpc, hv]

theorem State.restart_of_halted {s : State} {k : Nat} (h : s.coreHalted k = true) : s.restart k = s.restartCore k := if_pos h
theorem State.restart_of_other {s : State} {k : Nat} (h : s.coreHalted k = false) : s.restart k = s := if_neg (by simp [h])

theorem State.stepCore_of_other {s : State} {k : Core} (e : Ecc) (h : s.coreHalted k.val = false) :
    s.stepCore k e = s.modCore k.val (fun c => { c with step := false }) := by
  have h' : (s.modCore k.val (fun c => { c with step := false })).coreHalted k.val = false := h
  simp only [State.stepCore, h', Bool.false_and, Bool.false_eq_true, if_false]

/-- What RESTART clears of a core's own parts, and of its registers. -/
def CoreSt.cleared (c : CoreSt) : CoreSt := { c with s := [], a := [], cache := [], stall := .none, step := false }

theorem State.restartCore_spec (s : State) (k : Nat) :
    (s.restartCore k).get (SEQ_EV.PEND k) = 0 ∧ (s.restartCore k).flag (SEQ_STAT.INEXC k) = false ∧
    (s.restartCore k).get (SEQ_STAT.CAUSE k) = 0 ∧ (s.restartCore k).coreState k = 0 ∧
    (s.restartCore k).core k = (s.core k).cleared ∧
    RegsBut [SEQ_STAT k, SEQ_EV k] s (s.restartCore k) ∧ Frame [.regs, .cores] s (s.restartCore k) := by
  have hne : SEQ_EV k ≠ SEQ_STAT k := by simp [SEQ_EV, SEQ_STAT]
  refine ⟨?_, ?_, ?_, ?_, ?_, ?_, ?_⟩
  · simp only [State.restartCore, State.putFlag]
    rw [State.get_put_ne _ _ _ _ hne, State.get_put_ne _ _ _ _ hne, State.get_put_ne _ _ _ _ hne,
      State.get_put_same _ _ _ (by simp [SEQ_EV.PEND]) (by simp [SEQ_EV.PEND]), Nat.zero_mod]
  · simp only [State.restartCore, State.putFlag, State.flag, SEQ_STAT.INEXC, SEQ_STAT.CAUSE, SEQ_STAT.STATE]
    rw [State.get_put_other _ _ (by decide) (by decide) (by decide) (by decide),
      State.get_put_other _ _ (by decide) (by decide) (by decide) (by decide), State.get_put_same _ _ _ (by simp) (by simp)]
    simp [b2n]
  · simp only [State.restartCore, SEQ_STAT.CAUSE, SEQ_STAT.STATE]
    rw [State.get_put_other _ _ (by decide) (by decide) (by decide) (by decide), State.get_put_same _ _ _ (by simp) (by simp), Nat.zero_mod]
  · exact State.coreState_put _ k 0
  · simp only [State.restartCore, State.core_put, State.core_putFlag, State.core_modCore, if_true, CoreSt.cleared]
  · refine (RegsBut.modCore s _ k CoreSt.cleared).trans ?_
    refine (RegsBut.put _ (SEQ_EV.PEND k) 0 (by simp [SEQ_EV.PEND])).trans ?_
    refine (RegsBut.put _ (SEQ_STAT.INEXC k) 0 (by simp [SEQ_STAT.INEXC])).trans ?_
    exact (RegsBut.put _ (SEQ_STAT.CAUSE k) 0 (by simp [SEQ_STAT.CAUSE])).trans (RegsBut.put _ (SEQ_STAT.STATE k) 0 (by simp [SEQ_STAT.STATE]))
  · refine ((Frame.modCore s k CoreSt.cleared).mono (by decide)).trans ?_
    have hput (t : State) (f : Fld) (v : Nat) : Frame [.regs, .cores] t (t.put f v) := (Frame.put t f v).mono (by decide)
    exact (hput _ _ _).trans ((hput _ _ _).trans ((hput _ _ _).trans (hput _ _ _)))

/-- Another core's lanes that the range written would share. -/
def State.laneClash (s : State) (k first n : Nat) : Prop :=
  ∃ j : Fin 32, j.val ≠ k ∧ 0 < n ∧ 0 < (s.attached j.val).2 ∧ first < (s.attached j.val).1 + (s.attached j.val).2 ∧ (s.attached j.val).1 < first + n

theorem State.writeSeqLane_of_clash {s : State} (who : Accessor) {k first n : Nat} {v : Word} (hf : first = bits v.toNat 7 0)
    (hn : n = min 32 (bits v.toNat 21 16)) (h : 256 < first + n ∨ s.laneClash k first n) :
    s.writeSeqLane who k v = s.refuse who (SEQ_LANE k) stNotPermitted := by
  simp only [State.writeSeqLane, clampNat_eq_min, ← hf, ← hn]
  rw [if_pos]
  rcases h with h | ⟨j, h⟩
  · exact .inl h
  · exact .inr (List.any_eq_true.mpr ⟨j.val, List.mem_range.mpr j.isLt, by simpa using h⟩)

theorem State.writeSeqLane_of_free {s : State} (who : Accessor) {k first n : Nat} {v : Word} (hf : first = bits v.toNat 7 0)
    (hn : n = min 32 (bits v.toNat 21 16)) (h : first + n ≤ 256) (h' : ¬ s.laneClash k first n) :
    s.writeSeqLane who k v = (s.merge (SEQ_LANE k) 0x3F00FF v).put (SEQ_LPEND.LANES k) 0 := by
  simp only [State.writeSeqLane, clampNat_eq_min, ← hf, ← hn]
  rw [if_neg]
  rintro (hc | hc)
  · omega
  · obtain ⟨j, hj, hc⟩ := List.any_eq_true.mp hc
    exact h' ⟨⟨j, List.mem_range.mp hj⟩, by simpa using hc⟩

/-- Settles O33, by what each bit of SEQ_CTL, SEQ_LANE and the timer do. -/
theorem coreControlThroughSeqCtl : Obligations.CoreControlThroughSeqCtl := by
  unfold Obligations.CoreControlThroughSeqCtl
  refine ⟨fun who k s hw h => ?_, fun who k s hw h => by rw [exec_halt hw, State.halt_of_halted h],
    fun who k s hw h => ⟨by rw [exec_resume hw, State.resume_of_halted h], by rw [exec_restart hw, State.restart_of_halted h]⟩,
    fun who k s hw h hp => ?_, fun who k e s hw h => ⟨by rw [exec_restart hw, State.restart_of_other h],
      fun h' => by rw [exec_resume hw, State.resume_of_other h h'], by rw [exec_step hw, State.stepCore_of_other e h]⟩,
    fun k s t ht => ?_, fun who k s hw => exec_kick hw, fun who k e s u t w hw hh hm hq hu hf => ⟨fun f hd => ?_, fun hd => ?_⟩,
    fun who k v s first n hw hf hn => ⟨fun ⟨h, hc⟩ => ?_, fun h => ?_, fun j hj h1 h2 h3 h4 => ?_⟩, fun k s hm hc => ?_⟩
  · rw [exec_halt hw, State.halt_of_runs h]
    refine ⟨_, rfl, ?_, ?_, ?_, (RegsBut.put s (SEQ_STAT.STATE k.val) 6 (by simp [SEQ_STAT.STATE])).trans (RegsBut.modCore _ _ _ _),
      ((Frame.put s _ _).mono (by decide)).trans ((Frame.modCore _ _ _).mono (by decide))⟩
    · rw [State.coreState, State.get_modCore]
      exact State.coreState_put s k.val 6
    · rw [State.core_modCore, if_pos rfl]
    · rw [State.reg_modCore, State.reg_put_ne _ _ _ (by simp [SEQ_PC, SEQ_STAT.STATE, SEQ_STAT])]
  · rw [exec_resume hw, State.resume_of_call h hp]
    have hsr (j : Sreg) : (((s.takenRet k.val).setReg (SEQ_PC k.val) (s.reg (SEQ_PC k.val) + 4)).put (SEQ_STAT.STATE k.val) 0).sr k.val j =
        (s.takenRet k.val).sr k.val j := by rw [State.put, State.sr_setReg, State.sr_setReg]
    refine ⟨_, rfl, State.coreState_put _ k.val 0, ?_, ?_, ?_, fun j h1 h2 => ?_, ?_, ?_⟩
    · rw [hsr, State.takenRet, State.sr_setSr_ne _ _ _ (by decide), State.sr_setSr_self]; rfl
    · rw [hsr, State.takenRet, State.sr_setSr_self]; rfl
    · rw [State.reg_put_ne _ _ _ (by simp [SEQ_PC, SEQ_STAT.STATE, SEQ_STAT]), State.reg_setReg_self]
    · rw [hsr, State.takenRet, State.sr_setSr_ne _ _ _ h2, State.sr_setSr_ne _ _ _ h1]
    · exact RegsBut.trans (fun a _ => State.reg_takenRet s k.val a)
        ((RegsBut.setReg _ _ (by simp)).trans (RegsBut.put _ _ _ (by simp [SEQ_STAT.STATE])))
    · obtain ⟨-, -, -, hfr⟩ := (CoreBut.setSr s k.val [] 1 (s.reg (SEQ_RET k.val 0))).trans (CoreBut.setSr _ k.val [] 2 (s.reg (SEQ_RET k.val 1)))
      exact (hfr.mono (by decide)).trans (((Frame.setReg _ _ _).mono (by decide)).trans ((Frame.put _ _ _).mono (by decide)))
  · subst ht
    obtain ⟨h1, h2, h3, h4, h5, h6, h7⟩ := s.restartCore_spec k.val
    refine ⟨fun j => ?_, fun a => ?_, h1, h2, h3, h4, fun a => ?_, h6 _ ?_, h6, h7⟩
    · rw [State.sr, h5]; split <;> rfl
    · rw [State.acc, h5]; rfl
    · rw [State.cached, h5]; rfl
    · simp [SEQ_PC, SEQ_STAT, SEQ_EV]
  · rw [exec_step_of_fetch hw hh hm hq hu hf, State.perform_of_decode hd]
  · rw [exec_step_of_fetch hw hh hm hq hu hf, State.perform, hd]
  · have hfree : ¬ s.laneClash k.val first n := by
      rintro ⟨j, hj, h1, h2, h3, h4⟩
      have := hc j hj
      omega
    rw [exec_seqLaneWrite hw, State.writeSeqLane_of_free who hf hn h hfree]
    have hne : SEQ_LANE k.val ≠ SEQ_LPEND k.val := by simp [SEQ_LANE, SEQ_LPEND]
    refine ⟨_, rfl, ?_, ?_, ?_, (RegsBut.setReg _ _ (by simp)).trans (RegsBut.put _ _ _ (by simp [SEQ_LPEND.LANES])),
      (Frame.setReg _ _ _).trans (Frame.put _ _ _)⟩
    · rw [State.get_put_ne _ _ _ _ hne, hf]
      exact State.get_merge_in (f := SEQ_LANE.FIRST k.val) _ v (by simp [SEQ_LANE.FIRST, bits])
    · rw [State.get_put_ne _ _ _ _ hne]
      exact State.get_merge_in (f := SEQ_LANE.COUNT k.val) _ v (by simp [SEQ_LANE.COUNT, bits])
    · rw [State.get_put_same _ _ _ (by simp [SEQ_LPEND.LANES]) (by simp [SEQ_LPEND.LANES]), Nat.zero_mod]
  · rw [exec_seqLaneWrite hw, State.writeSeqLane_of_clash who hf hn (.inl h)]
  · rw [exec_seqLaneWrite hw, State.writeSeqLane_of_clash who hf hn (.inr ⟨j, hj, h1, h2, h3, h4⟩)]
  · have hx : exec (.seqTimerExpiry k) s = .next (s.timerEnd k.val) := congrArg Host.Outcome.next (if_pos ⟨hm, hc⟩)
    have hfl : (s.coreEvent k.val 4).flag (SEQ_TIMER.PERIODIC k.val) = s.flag (SEQ_TIMER.PERIODIC k.val) := by
      rw [State.flag, State.flag, State.coreEvent, State.putBit, State.get_put_ne]
      simp [SEQ_TIMER.PERIODIC, SEQ_EV.PEND, SEQ_TIMER, SEQ_EV]
    refine ⟨fun h => ?_, fun h => ?_⟩
    · simp only [hx, State.timerEnd, hfl, h, Bool.false_eq_true, if_false]
    · simp only [hx, State.timerEnd, hfl, h, if_true, State.core_coreEvent]

end Sys2Proof.Machine

/-! PROOFS. Transfers of the host port (O34). -/

namespace Sys2Proof.Machine

/-! ### Transfers of the host port (R201 to R205) -/

theorem State.readHost_of_mirror {s : State} {a : Nat} (e : Ecc) (m : Word) (h : inMirror a = true) :
    s.readHost a e m = if s.mirrorUp then (some m, s.post (.mirror (BitVec.ofNat 32 a) none)) else (some 0, s.refuse .host a stNotPermitted) :=
  if_pos h
theorem State.readHost_of_sram {s : State} {a : Nat} (e : Ecc) (m : Word) (h : inMirror a = false) (h' : inSram a = true) :
    s.readHost a e m = (some (s.readSram a e).1, (s.readSram a e).2) := by
  simp only [State.readHost, h, h', Bool.false_eq_true, if_false, if_true]
theorem State.readHost_of_reg {s : State} {a : Nat} (e : Ecc) (m : Word) (h : inMirror a = false) (h' : inSram a = false)
    (hr : isReg .host a = true) : s.readHost a e m = s.readReg .host a e := by
  simp only [State.readHost, h, h', hr, Bool.false_eq_true, if_false, if_true]
theorem State.readHost_of_hole {s : State} {a : Nat} (e : Ecc) (m : Word) (h : inMirror a = false) (h' : inSram a = false)
    (hr : isReg .host a = false) : s.readHost a e m = (some 0, s.refuse .host a stNotPermitted) := by
  simp only [State.readHost, h, h', hr, Bool.false_eq_true, if_false]

theorem State.writeHost_of_sram {s : State} {a : Nat} (v : Word) (h : inMirror a = false) (h' : inSram a = true) (hr : s.reach .host = true) :
    s.writeHost a v = s.writeSram a v := by
  simp only [State.writeHost, h, h', hr, Bool.false_eq_true, if_false, if_true]
theorem State.writeHost_of_reg {s : State} {a : Nat} (v : Word) (h : inMirror a = false) (h' : inSram a = false) (hr : isReg .host a = true) :
    s.writeHost a v = (s.regWrite .host a v).pendingSteps := by
  simp only [State.writeHost, h, h', hr, Bool.false_eq_true, if_false, if_true]
theorem State.writeHost_of_mirror {s : State} {a : Nat} (v : Word) (h : inMirror a = true) (hu : s.mirrorUp = true) :
    s.writeHost a v = s.post (.mirror (BitVec.ofNat 32 a) (some v)) := by
  simp only [State.writeHost, h, hu, if_true]

/-- A burst reads on where the word was driven, and waits where it was not. -/
theorem State.readWords_of_driven {s t : State} {a i : Nat} {es : List Ecc} {ms : List Word} {v : Word} (n : Nat) (out : List Word)
    (h : s.readHost (burstAddr a i) (nth .clean es i) (nth 0 ms i) = (some v, t)) :
    s.readWords a (n + 1) i es ms out = t.readWords a n (i + 1) es ms (out ++ [v]) := by
  simp only [State.readWords, h]
theorem State.readWords_of_waiting {s t : State} {a i : Nat} {es : List Ecc} {ms : List Word} (n : Nat) (out : List Word)
    (h : s.readHost (burstAddr a i) (nth .clean es i) (nth 0 ms i) = (none, t)) :
    s.readWords a (n + 1) i es ms out = (out, t.setWait ((List.range 64).find? (fun w => burstAddr a i = QP_WIN_DATA w))) := by
  simp only [State.readWords, h]

theorem State.flag_drive (s : State) (l : List Word) (f : Fld) : (s.drive l).flag f = s.flag f := State.flag_of_reg rfl

theorem State.flag_protoErr (s : State) : s.protoErr.flag HP_STAT.PROTO_ERR = true := State.flag_putFlag_self s _ true (by decide) (by decide)

theorem exec_read_of_unaligned {a : Word} {n : Nat} {es : List Ecc} {ms : List Word} {cut : Bool} {s : State} (h : s.reads .host = true)
    (ha : a.toNat % 4 ≠ 0) : exec (.read a n es ms cut) s = .next (s.protoErr.drive (List.replicate n 0)) := by
  show Host.Outcome.next _ = _
  simp only [h, not_true_eq_false, if_false, if_pos ha]

theorem exec_read_of_asleep {a : Word} {n : Nat} {es : List Ecc} {ms : List Word} {cut : Bool} {s : State} (h : s.reads .host = false) :
    exec (.read a n es ms cut) s = .next s := congrArg Host.Outcome.next (if_pos (by simp [h]))

theorem exec_read_of_aligned {a : Word} {n : Nat} {es : List Ecc} {ms : List Word} {cut : Bool} {s : State} {r : List Word × State}
    (h : s.reads .host = true) (ha : a.toNat % 4 = 0) (hr : r = s.readWords a.toNat n 0 es ms []) :
    exec (.read a n es ms cut) s = .next (State.drive (if cut = true ∧ r.2.hp.wait = none then r.2.readCut a.toNat n es else r.2) r.1) := by
  show Host.Outcome.next _ = _
  simp only [h, ha, not_true_eq_false, if_false, ne_eq, ← hr, Bool.and_eq_true, Option.isNone_iff_eq_none]

theorem exec_write_of_asleep {a : Word} {l : List Word} {s : State} (h : s.awake = false) : exec (.write a l) s = .next s :=
  congrArg Host.Outcome.next (if_pos (by simp [h]))
theorem exec_write_of_unaligned {a : Word} {l : List Word} {s : State} (h : s.awake = true) (ha : a.toNat % 4 ≠ 0) :
    exec (.write a l) s = .next s.protoErr := by
  show Host.Outcome.next _ = _
  simp only [h, not_true_eq_false, if_false, if_pos ha]
theorem exec_write_of_lead {a : Word} {l : List Word} {s : State} (h : s.awake = true) (ha : a.toNat % 4 = 0) (hf : s.follower = false) :
    exec (.write a l) s = .next (s.writeWords a.toNat 0 l) := by
  show Host.Outcome.next _ = _
  simp only [h, ha, hf, not_true_eq_false, if_false, ne_eq, Bool.false_eq_true, false_and]
theorem exec_write_of_follower {a : Word} {l : List Word} {s : State} (ha : a.toNat % 4 = 0) (hf : s.follower = true)
    (hn : s.al.healedNow = false) : exec (.write a l) s = .next s := by
  show Host.Outcome.next _ = _
  simp only [ha, hf, hn, not_true_eq_false, if_false, ne_eq, Bool.false_eq_true, false_and, not_false_eq_true, and_self, if_true, ite_self]

theorem exec_status_of_ignored {c : Byte} {a : Word} {n : Nat} {s : State} (h : s.awake = false ∨ c = 0x0B#8 ∨ c = 0x02#8) :
    exec (.status c a n) s = .next s := congrArg Host.Outcome.next (if_pos (by simpa using h))
theorem exec_status_of_status {a : Word} {n : Nat} {s : State} (h : s.awake = true) (ha : a.toNat % 4 = 0) :
    exec (.status 0x05#8 a n) s = .next (s.drive (List.replicate n s.hpStat)) := by
  show Host.Outcome.next _ = _
  rw [if_neg (by simp [h]), if_pos ⟨rfl, ha⟩]
theorem exec_status_of_other {c : Byte} {a : Word} {n : Nat} {s : State} (h : s.awake = true) (h1 : c ≠ 0x0B#8) (h2 : c ≠ 0x02#8)
    (h3 : c ≠ 0x05#8 ∨ a.toNat % 4 ≠ 0) : exec (.status c a n) s = .next (s.protoErr.drive (List.replicate n 0)) := by
  show Host.Outcome.next _ = _
  rw [if_neg (by simp [h, h1, h2]), if_neg]
  rintro ⟨hc, ha⟩
  exact h3.elim (· hc) (· ha)

/-- Settles O34, by the kinds of transfer and the kinds of address. -/
theorem hostBurstsReachRegistersAndSram : Obligations.HostBurstsReachRegistersAndSram := by
  unfold Obligations.HostBurstsReachRegistersAndSram
  refine ⟨fun a n es ms cut s h ha => ?_, fun a n es ms cut s h => exec_read_of_asleep h, fun a n es ms cut s r h ha hr => exec_read_of_aligned h ha hr,
    fun a n i es ms out v s t h => State.readWords_of_driven n out h, fun a n i es ms out s t h => State.readWords_of_waiting n out h,
    fun a i => ?_, fun a e m s h h' => State.readHost_of_sram e m h h', fun a e m s h h' hr => State.readHost_of_reg e m h' h hr,
    fun a e m s h hu => ?_, fun a e m s h => ?_, fun a l s h ha => exec_write_of_unaligned h ha, fun a l s h ha hf => exec_write_of_lead h ha hf,
    fun a l s h => ?_, fun a i v t s h => ?_, fun a v s h h' hr => State.writeHost_of_sram v h h' hr,
    fun a v s h h' hr => State.writeHost_of_reg v h' h hr, fun a v s h hu => State.writeHost_of_mirror v h hu,
    fun a n s h ha => exec_status_of_status h ha, fun l s => rfl, fun c a n s u h h1 h2 h3 hu => ?_, fun c a n s h => exec_status_of_ignored h⟩
  · refine ⟨_, exec_read_of_unaligned h ha, rfl, (State.flag_drive ..).trans s.flag_protoErr, ?_, ?_⟩
    · exact (RegsBut.put s HP_STAT.PROTO_ERR _ (by simp [HP_STAT.PROTO_ERR])).setHp _
    · exact Frame.setHp _ _ _ ((Frame.putFlag s HP_STAT.PROTO_ERR true).mono (by decide)) (by decide) _
  · simp only [burstAddr, stays, decide_eq_true_eq]
  · rw [State.readHost_of_mirror e m h, if_pos hu]
  · rcases h with ⟨h, hu⟩ | ⟨h, h', hr⟩
    · rw [State.readHost_of_mirror e m h, if_neg (by simp [hu])]
    · exact State.readHost_of_hole e m h h' hr
  · rcases h with h | ⟨hf, ha, hn⟩
    · exact exec_write_of_asleep h
    · exact exec_write_of_follower ha hf hn
  · rw [State.writeWords, if_pos h]
  · rw [exec_status_of_other h h1 h2 h3, hu]; rfl

end Sys2Proof.Machine

/-! PROOFS. Presence, policy and the cipher engines (O45, O47). -/

namespace Sys2Proof.Machine

/-! ### Presence, WD_POLICY and WD_SLOT (R287 to R291) -/

/-- A flag does not change with another field of its register. -/
theorem State.flag_put_other (s : State) {a i j : Nat} (v : Nat) (h : i < 32) (hd : i ≠ j) :
    (s.put ⟨a, i, i⟩ v).flag ⟨a, j, j⟩ = s.flag ⟨a, j, j⟩ := by
  rw [State.flag, State.flag, State.get_put_other s v (Nat.le_refl i) h (Nat.le_refl j) (by omega)]

theorem exec_presenceAssert_of_armed {s : State} (h : s.wd.presArmed = true) :
    exec .presenceAssert s = .next ((s.putFlag WD_STAT.PRES_LVL true).openWindow.wake PWR_WAKE.PRES) := by
  show Host.Outcome.next (ite _ _ _) = _
  rw [State.putFlag_wd, if_pos h]

theorem exec_presenceAssert_of_disarmed {s : State} (h : s.wd.presArmed = false) :
    exec .presenceAssert s = .next (s.putFlag WD_STAT.PRES_LVL true) := by
  show Host.Outcome.next (ite _ _ _) = _
  rw [State.putFlag_wd, if_neg (by simp [h])]

theorem State.openWindow_eq (s : State) : s.openWindow = (State.putFlag
    { s with wd := { s.wd with presArmed := false, presFrom := s.iron.rtc, presLen := s.wd.otp.len } } WD_STAT.PRES_OPEN true).setEvt WD_EVT.PRES_OPEN := rfl

theorem State.flag_setWd (s : State) (x : WardenSt) (f : Fld) : State.flag { s with wd := x } f = s.flag f := State.flag_of_reg rfl

theorem RegsBut.setWd {l : List Nat} {s t : State} (h : RegsBut l s t) (x : WardenSt) : RegsBut l s { t with wd := x } := h.of_regs rfl

theorem exec_presenceRelease (s : State) : exec .presenceRelease s =
    .next ({ (s.putFlag WD_STAT.PRES_LVL false) with wd := { s.wd with presArmed := true } }) := rfl

theorem State.writeWdPres_of_close {s : State} {v : Word} (h : bit v.toNat 31 = true) : s.writeWdPres v = s.closeWindow := if_pos h
theorem State.writeWdPres_of_other {s : State} {v : Word} (h : bit v.toNat 31 = false) : s.writeWdPres v = s := if_neg (by simp [h])

theorem exec_debugUnlock {v : Word} {s : State} (hw : Writable s .host WD_POLICY) : exec (.debugUnlock v) s = .next (s.writePolicy .host v) :=
  next_enter hw

/-- A write of WD_POLICY none of whose fields is closed. -/
theorem State.writePolicy_of_open {s : State} {v : Word} (hg : s.refusedFields .host WD_POLICY = [])
    (h : ((s.mode = 9 ∨ s.mode = 11) ∧ s.wd.otp.debugOff = false) ∨ bit v.toNat 31 = false) :
    s.writePolicy .host v = s.merge WD_POLICY 0xE0000000 v := by
  simp only [State.writePolicy, State.gate_of_open v hg]
  rw [if_neg]
  rcases h with ⟨hm, hd⟩ | h
  · simp [hm, hd]
  · simp [h]

theorem State.writePolicy_of_refused {s : State} {v : Word} (hg : s.refusedFields .host WD_POLICY = []) (hv : bit v.toNat 31 = true)
    (hu : s.flag WD_POLICY.DBG_UNLOCK = false) (h : (s.mode ≠ 9 ∧ s.mode ≠ 11) ∨ s.wd.otp.debugOff = true) :
    s.writePolicy .host v = (s.refuse .host WD_POLICY stNotPermitted).merge WD_POLICY 0x60000000 v := by
  simp only [State.writePolicy, State.gate_of_open v hg]
  rw [if_pos]
  rcases h with ⟨h1, h2⟩ | h
  · simp [hv, hu, h1, h2]
  · simp [hv, hu, h]

/-- Settles O45, by the edges of the presence input, the window's length and the fields of WD_POLICY. -/
theorem presenceWindowsAndPolicy : Obligations.PresenceWindowsAndPolicy := by
  unfold Obligations.PresenceWindowsAndPolicy
  refine ⟨fun s t u h hu ht => ?_, fun s h => exec_presenceAssert_of_disarmed h, fun s => ⟨_, rfl, ?_, ?_, ?_, ?_, ?_⟩,
    fun s h => congrArg Host.Outcome.next (if_pos h), fun s h => congrArg Host.Outcome.next (if_neg (Nat.not_le.mpr h)),
    fun s h => if_pos h, fun s h => if_neg (by simp [h]), fun v s hw hv => ?_, fun v s hw hv => ?_, fun v s hw hg h => ?_,
    fun v s hw hg hv hu h => ?_, fun s k hr hk ht => ?_⟩
  · rw [exec_presenceAssert_of_armed h, ← hu, ht, State.openWindow_eq]
  · rw [State.flag_setWd]
    exact State.flag_putFlag_self s WD_STAT.PRES_LVL false (by decide) (by decide)
  · rfl
  · rw [State.presence, State.flag_setWd]
    exact State.flag_put_other s _ (by decide) (by decide)
  · exact (RegsBut.put s WD_STAT.PRES_LVL _ (by simp [WD_STAT.PRES_LVL])).setWd _
  · exact ((Frame.putFlag s WD_STAT.PRES_LVL false).mono (by decide)).trans ((Frame.setWd _ _).mono (by decide))
  · exact (next_enter hw).trans (congrArg _ (State.writeWdPres_of_close hv))
  · exact (next_enter hw).trans (congrArg _ (State.writeWdPres_of_other hv))
  · rw [exec_debugUnlock hw, State.writePolicy_of_open hg h]
    exact ⟨_, rfl, State.flag_merge_in (f := WD_POLICY.DBG_UNLOCK) _ v (by decide) (by decide), RegsBut.setReg _ _ (by simp), Frame.setReg _ _ _⟩
  · rw [exec_debugUnlock hw, State.writePolicy_of_refused hg hv hu h]
  · have hx : exec .wdSlotRead s = .next (s.readSlot.2.answer .host s.readSlot.1) := congrArg Host.Outcome.next (if_pos hr)
    obtain ⟨hout, -, hreg⟩ := State.answer_spec s.readSlot.2 .host s.readSlot.1
    refine ⟨_, hx, ?_, ?_, ?_, fun a ha => ?_, ?_⟩
    · rw [hout rfl, hk]; rfl
    · rw [hreg, State.readSlot, State.reg_setReg_ne _ _ (by decide), State.reg_setReg_self, hk]
    · rw [hreg, State.readSlot, State.reg_setReg_self, hk]
    · rw [hreg]
      exact (RegsBut.setReg s _ (by simp)).trans (RegsBut.setReg _ _ (by simp)) a ha
    · exact (((Frame.setReg s _ _).trans (Frame.setReg _ _ _)).mono (by decide)).trans ((Frame.answer _ _ _).mono (by decide))

/-! ### Jobs of the cipher engine (R283, R284) -/

theorem Frame.setFree (s : State) (n : Nat) : Frame [.free] s { s with freeCtr := n } := fun c hc => by
  cases c
  case free => simp at hc
  case poison => exact ⟨rfl, rfl⟩
  all_goals rfl

theorem Frame.freeBytes (s : State) (n : Nat) : Frame [.free] s (s.freeBytes n).2 := Frame.setFree _ _
theorem Frame.newScalar (s : State) : Frame [.free] s s.newScalar.2 := Frame.setFree _ _

/-- A signature draws open values and leaves everything else. -/
theorem Frame.signDigest (s : State) (d : Nat) (l : List Byte) : Frame [.free] s (s.signDigest d l).2 := by
  unfold State.signDigest
  dsimp only
  split
  · exact Frame.newScalar s
  · split
    · exact (Frame.newScalar _).trans (Frame.newScalar _)
    · exact ((Frame.newScalar _).trans (Frame.newScalar _)).trans (Frame.freeBytes _ _)

/-- The job that CIPHER_ENGINE_ENTRY takes, and what keeps it out of the engine. -/
theorem exec_engineEntry_of_quarantine {s : State} {j : CipherJob} (hs : s.selftesting = false)
    (hj : s.wd.jobs.find? (fun x => !x.entered) = some j) (hm : s.mode = 10) : exec .cipherEngineEntry s = .next (s.failJob j stNotPermitted dMode) := by
  show Host.Outcome.next _ = _
  simp only [hs, hj, hm, Bool.false_eq_true, if_false, if_true]

theorem exec_engineEntry_of_changed {s : State} {j : CipherJob} {o : CipherOp} (hs : s.selftesting = false)
    (hj : s.wd.jobs.find? (fun x => !x.entered) = some j) (ho : cipherOp j.op = some o) (hm : s.mode ≠ 10) (hu : o.slot.isSome = true)
    (hv : (s.slot j.slot).version ≠ j.ver) : exec .cipherEngineEntry s = .next (s.failJob j stKeyChanged 0#8) := by
  show Host.Outcome.next _ = _
  simp only [hs, hj, ho, hu, Bool.false_eq_true, if_false, if_neg hm, Option.bind_some, Bool.true_and, ne_eq, hv, not_false_eq_true, decide_true, if_true]

/-- A job that enters: a counter value first, where its operation takes one. -/
theorem exec_engineEntry_of_held {s : State} {j : CipherJob} {o : CipherOp} (hs : s.selftesting = false)
    (hj : s.wd.jobs.find? (fun x => !x.entered) = some j) (ho : cipherOp j.op = some o) (hm : s.mode ≠ 10)
    (hv : o.slot.isSome = true → (s.slot j.slot).version = j.ver) :
    (takesCounter j.op = false → exec .cipherEngineEntry s =
      .next (s.modJob j.tag (fun x => { x with entered := true, key := if o.slot.isSome then s.slot j.slot else {} }))) ∧
    (∀ v t, takesCounter j.op = true → s.takeCounter j.slot = (some v, t) → exec .cipherEngineEntry s =
      .next (t.modJob j.tag (fun x => { x with entered := true, key := s.slot j.slot, ctr := v }))) ∧
    (∀ t, takesCounter j.op = true → s.takeCounter j.slot = (none, t) → exec .cipherEngineEntry s = .next (t.failJob j stExhausted 0#8)) := by
  have hn : ¬ (o.slot.isSome && decide ((s.slot j.slot).version ≠ j.ver)) = true := by
    cases hu : o.slot.isSome with
    | false => simp
    | true => simp [hv hu]
  refine ⟨fun ht => ?_, fun v t ht hc => ?_, fun t ht hc => ?_⟩
  · show Host.Outcome.next _ = _
    simp only [hs, hj, ho, Bool.false_eq_true, if_false, if_neg hm, Option.bind_some, if_neg hn, ht]
  · show Host.Outcome.next _ = _
    simp only [hs, hj, ho, Bool.false_eq_true, if_false, if_neg hm, Option.bind_some, if_neg hn, ht, if_true, hc]
  · show Host.Outcome.next _ = _
    simp only [hs, hj, ho, Bool.false_eq_true, if_false, if_neg hm, Option.bind_some, if_neg hn, ht, if_true, hc]

theorem takesCounter_of_other {op : Nat} (h : op ≠ 1) (h' : op ≠ 3) : takesCounter op = false := by simp [takesCounter, h, h']
theorem takesCounter_of_enc {op : Nat} (h : op = 1 ∨ op = 3) : takesCounter op = true := by simpa [takesCounter] using h

/-- The operations that take a counter use a slot. -/
theorem exec_jobDone_of_condemned {s : State} {j : CipherJob} {v : Byte × Byte} (hs : s.selftesting = false)
    (hj : s.wd.jobs.find? (fun x => x.entered) = some j) (hv : j.verdict = some v) :
    exec .cipherJobDone s = .next (s.failJob j v.1.toNat v.2) := by
  show Host.Outcome.next _ = _
  simp only [hs, hj, hv, Bool.false_eq_true, if_false]

/-- A job ends with what its engine answers. -/
theorem exec_jobDone_of_engine {s : State} {j : CipherJob} (hs : s.selftesting = false) (hj : s.wd.jobs.find? (fun x => x.entered) = some j)
    (hv : j.verdict = none) (c : MbxOut) (l : List Byte) (u : State) (he : s.engine j = (c, l, u)) :
    exec .cipherJobDone s = .next (if c = mbxOk then u.passJob j l else u.failJob j c.1 c.2) := by
  show Host.Outcome.next _ = _
  simp only [hs, hj, hv, Bool.false_eq_true, if_false, he]

theorem State.engine_of_pure {s : State} {j : CipherJob} (h : j.op ≠ 0x08 ∧ j.op ≠ 0x0A ∧ j.op ≠ 0x0B ∧ j.op ≠ 0x0C) (c : MbxOut) (l : List Byte)
    (hp : cipherPure j = (c, l)) : s.engine j = (c, l, s) := by
  obtain ⟨h1, h2, h3, h4⟩ := h
  simp only [State.engine, h1, h2, h3, h4, if_false, hp]

/-- A job whose engine draws nothing passes with its output, or fails with its verdict. -/
theorem exec_jobDone_of_pass {s : State} {j : CipherJob} {l : List Byte} (hs : s.selftesting = false)
    (hj : s.wd.jobs.find? (fun x => x.entered) = some j) (hv : j.verdict = none)
    (h : j.op ≠ 0x08 ∧ j.op ≠ 0x0A ∧ j.op ≠ 0x0B ∧ j.op ≠ 0x0C) (hp : cipherPure j = (mbxOk, l)) :
    exec .cipherJobDone s = .next (s.passJob j l) := by
  rw [exec_jobDone_of_engine hs hj hv mbxOk l s (State.engine_of_pure h _ _ hp), if_pos rfl]

theorem exec_jobDone_of_fail {s : State} {j : CipherJob} {c : MbxOut} {l : List Byte} (hs : s.selftesting = false)
    (hj : s.wd.jobs.find? (fun x => x.entered) = some j) (hv : j.verdict = none)
    (h : j.op ≠ 0x08 ∧ j.op ≠ 0x0A ∧ j.op ≠ 0x0B ∧ j.op ≠ 0x0C) (hp : cipherPure j = (c, l)) (hc : c ≠ mbxOk) :
    exec .cipherJobDone s = .next (s.failJob j c.1 c.2) := by
  rw [exec_jobDone_of_engine hs hj hv c l s (State.engine_of_pure h _ _ hp), if_neg hc]

theorem authFail_ne_mbxOk : ((stAuthFail, 0#8) : MbxOut) ≠ mbxOk := by decide
theorem badPoint_ne_mbxOk : ((stBad, dPoint) : MbxOut) ≠ mbxOk := by decide

theorem State.runEcdh_of_invalid {s : State} {j : CipherJob} (h : ecValid (beNat (j.inp2.take 32)) (beNat (j.inp2.drop 32)) = false) :
    s.runEcdh j = ((stBad, dPoint), s) := if_pos (by simp [h])

theorem State.runEcdh_of_point {s : State} {j : CipherJob} {z y : Nat} (h : ecValid (beNat (j.inp2.take 32)) (beNat (j.inp2.drop 32)) = true)
    (hm : ecMul (beNat j.key.bytes) (some (beNat (j.inp2.take 32), beNat (j.inp2.drop 32))) = some (z, y)) :
    s.runEcdh j = (mbxOk, (s.free (2 ^ 32)).2.loadSlot j.slot2 4 0x20 (s.free (2 ^ 32)).1 (beBytes 32 z)) := by
  simp only [State.runEcdh, h, hm, not_true_eq_false, if_false]

theorem length_freeBytes (s : State) (n : Nat) : (s.freeBytes n).1.length = n := by simp [State.freeBytes]

/-- Settles O47: a job that enters by `exec_engineEntry_of_held`, one that is done by its engine's answer. -/
theorem cipherJobsEnterAndComplete : Obligations.CipherJobsEnterAndComplete := by
  unfold Obligations.CipherJobsEnterAndComplete
  refine ⟨fun s h => ⟨congrArg Host.Outcome.next (if_pos h), congrArg Host.Outcome.next (if_pos h)⟩,
    fun s j o hs hj ho => ⟨fun hm => exec_engineEntry_of_quarantine hs hj hm, fun hm hu hv => exec_engineEntry_of_changed hs hj ho hm hu hv,
      fun hm hv h1 h3 => ?_, fun v t hm hv hop hc => ?_, fun t hm hv hop hc => ?_⟩,
    fun s j v hs hj hv => exec_jobDone_of_condemned hs hj hv,
    fun s j hs hj hv => ⟨fun h => ?_, fun h p hp => ?_, fun h hp => ?_, fun h => ?_, fun h p hp => ?_, fun h hp => ?_, fun h => ?_, fun h => ?_,
      fun h => ?_, fun h => ?_, fun h => ⟨fun hc => ?_, fun c hc hn => ?_⟩, fun h hp => ?_, fun h z y hp hm => ?_, fun h => ?_, fun h => ?_⟩,
    fun s u j l hu => ⟨fun h => ?_, fun h => ?_, fun r h hr h1 => ?_, fun st dt h => ?_⟩⟩
  · exact (exec_engineEntry_of_held hs hj ho hm hv).1 (takesCounter_of_other h1 h3)
  · exact (exec_engineEntry_of_held hs hj ho hm (fun _ => hv)).2.1 v t (takesCounter_of_enc hop) hc
  · exact (exec_engineEntry_of_held hs hj ho hm (fun _ => hv)).2.2 t (takesCounter_of_enc hop) hc
  · exact exec_jobDone_of_pass hs hj hv (by omega) (by simp only [cipherPure, h])
  · exact exec_jobDone_of_pass hs hj hv (by omega) (by simp only [cipherPure, h, hp, opened])
  · exact exec_jobDone_of_fail (c := (stAuthFail, 0#8)) (l := []) hs hj hv (by omega) (by simp only [cipherPure, h, hp, opened]) authFail_ne_mbxOk
  · exact exec_jobDone_of_pass hs hj hv (by omega) (by simp only [cipherPure, h])
  · exact exec_jobDone_of_pass hs hj hv (by omega) (by simp only [cipherPure, h, hp, opened])
  · exact exec_jobDone_of_fail (c := (stAuthFail, 0#8)) (l := []) hs hj hv (by omega) (by simp only [cipherPure, h, hp, opened]) authFail_ne_mbxOk
  · exact exec_jobDone_of_pass hs hj hv (by omega) (by simp only [cipherPure, h])
  · by_cases hc : cmac j.key.bytes j.inp j.tagLen = j.inp2
    · rw [if_pos hc]
      exact exec_jobDone_of_pass hs hj hv (by omega) (by simp only [cipherPure, h, if_pos hc])
    · rw [if_neg hc]
      exact exec_jobDone_of_fail (c := (stAuthFail, 0#8)) (l := []) hs hj hv (by omega) (by simp only [cipherPure, h, if_neg hc]) authFail_ne_mbxOk
  · exact exec_jobDone_of_pass hs hj hv (by omega) (by simp only [cipherPure, h])
  · refine ⟨(s.signDigest (beNat j.key.bytes) (digestOf j)).1, _, Frame.signDigest s (beNat j.key.bytes) (digestOf j),
      (exec_jobDone_of_engine hs hj hv mbxOk _ _ ?_).trans (congrArg _ (if_pos rfl))⟩
    simp only [State.engine, h, if_true]
  · exact exec_jobDone_of_pass hs hj hv (by omega) (by simp only [cipherPure, h, hc])
  · exact exec_jobDone_of_fail hs hj hv (by omega) (by simp only [cipherPure, h, hc]; rfl) hn
  · rw [exec_jobDone_of_engine hs hj hv (stBad, dPoint) [] s (by simp [State.engine, h, State.runEcdh_of_invalid hp]), if_neg badPoint_ne_mbxOk]
  · refine ⟨(s.free (2 ^ 32)).1, (s.free (2 ^ 32)).2, Frame.setFree s (s.freeCtr + 1), (exec_jobDone_of_engine hs hj hv mbxOk [] _ ?_).trans (congrArg _ (if_pos rfl))⟩
    simp only [State.engine, h, State.runEcdh_of_point hp hm]
    rfl
  · refine ⟨(s.free (2 ^ 32)).1, (s.free (2 ^ 32)).2, Frame.setFree s (s.freeCtr + 1), (exec_jobDone_of_engine hs hj hv mbxOk [] _ ?_).trans (congrArg _ (if_pos rfl))⟩
    simp only [State.engine, h]
    rfl
  · refine ⟨(s.freeBytes j.count).1, (s.freeBytes j.count).2, length_freeBytes s j.count, Frame.freeBytes s j.count, (exec_jobDone_of_engine hs hj hv mbxOk _ _ ?_).trans (congrArg _ (if_pos rfl))⟩
    simp only [State.engine, h]
    rfl
  · subst hu
    simp [State.passJob, h, State.endCipher]
  · subst hu
    simp [State.passJob, h, State.endCipher]
  · simp only [State.passJob, h, if_true, ← hu, ← hr, h1, State.endCipher]
    simp [packetStatus]
  · simp only [State.failJob, h, if_true, ← hu, State.endCipher, Nat.zero_add]

end Sys2Proof.Machine

/-! PROOFS. Control outputs, guards and inputs (O39, O41). -/

namespace Sys2Proof.Machine

/-! ### Descriptors that are taken (R212, R213) -/

/-- A descriptor of the command's own kind, taken with its references, is run. -/
theorem State.takeDesc_of_taken {d : List Byte} {s u : State} {p : List Byte → Bool} (f : List Byte → State → State) (h : Taken d s u)
    (hp : p d = true) : s.takeDesc p f = f d u := by
  obtain ⟨hd, v, hv, rfl⟩ := h
  simp only [State.takeDesc, hd, hp, not_true_eq_false, if_false, hv]

/-- A command on the descriptor at HEAD, by what it runs. -/
theorem next_taken {d : List Byte} {s u : State} {p : List Byte → Bool} {f : List Byte → State → State} (h : Taken d s u) (hp : p d = true) :
    (Host.Outcome.next (s.takeDesc p f) : Result) = .next (f d u) := congrArg _ (State.takeDesc_of_taken f h hp)

/-! ### Commands to the control outputs (R255 to R262) -/

theorem State.writeCtl_of_held {s : State} {set clr : Nat} (h : s.namesHeld set clr = true) : s.writeCtl set clr = s := if_pos h
theorem State.writeCtl_of_bothOn {s : State} {set clr : Nat} (h : s.namesHeld set clr = false) (h' : s.bothOn set = true) :
    s.writeCtl set clr = s.setEvt CT_EVT.INTERLOCK := by rw [State.writeCtl, if_neg (by simp [h]), if_pos h']
theorem State.writeCtl_of_free {s : State} {set clr : Nat} (h : s.namesHeld set clr = false) (h' : s.bothOn set = false) :
    s.writeCtl set clr = s.request set clr := by rw [State.writeCtl, if_neg (by simp [h]), if_neg (by simp [h'])]

/-- Nothing is turned on by a write that sets nothing. -/
theorem State.bothOn_zero (s : State) : s.bothOn 0 = false := by simp [State.bothOn, bit]

theorem exec_ctSet {who : Accessor} {v : Word} {s : State} (hw : Writable s who CT_SET) :
    exec (.ctSet who v) s = .next (s.writeCtl (bits v.toNat 15 0) 0) := next_enter hw
theorem exec_ctClr {who : Accessor} {v : Word} {s : State} (hw : Writable s who CT_CLR) :
    exec (.ctClr who v) s = .next (s.writeCtl 0 (bits v.toNat 15 0)) := next_enter hw
theorem exec_control {s u : State} {d : List Byte} (h : Taken d s u) (h7 : u8 d 0 = 7) : exec .control s = .next (u.runControl d) :=
  next_taken h (decide_eq_true h7)

theorem State.runControl_of_bad {s : State} {d : List Byte} (h : zeros d 12 63 = false ∨ u16 d 8 &&& u16 d 10 ≠ 0) :
    s.runControl d = s.complete (descTag d) stBad 0 [] := if_pos (h.imp (by simp) id)

/-- A CONTROL of sound form does as the registers CT_SET and CT_CLR do, and completes. -/
theorem State.runControl_of_sound {s : State} {d : List Byte} (h : zeros d 12 63 = true) (h' : u16 d 8 &&& u16 d 10 = 0) :
    s.runControl d = if s.namesHeld (u16 d 8) (u16 d 10) then s.complete (descTag d) stNotPermitted 0 []
      else if s.bothOn (u16 d 8) then (s.setEvt CT_EVT.INTERLOCK).complete (descTag d) stNotPermitted 0 []
      else State.request { s with ctl := { s.ctl with acts := s.ctl.acts ++ [(descTag d, u16 d 8, u16 d 10)] } } (u16 d 8) (u16 d 10) :=
  if_neg (by simp [h, h'])

/-- A setting of a pair or an output that would leave an interlocked pair with SAFE = 1 twice is refused. -/
theorem State.writeCtCfg_of_bothSafe {s : State} {who : Accessor} {a : Nat} {v : Word} (h : (s.writePlain a v).bothSafe = true) :
    s.writeCtCfg who a v = s.refuse who a stNotPermitted := if_pos h
theorem State.writeCtCfg_of_sound {s : State} {who : Accessor} {a : Nat} {v : Word} (h : (s.writePlain a v).bothSafe = false) :
    s.writeCtCfg who a v = (s.writePlain a v).relevel := if_neg (by simp [h])

theorem exec_ctPairWrite {who : Accessor} {v : Word} {s : State} (hw : Writable s who CT_PAIR) :
    exec (.ctPairWrite who v) s = .next (s.writeCtCfg who CT_PAIR v) := next_enter hw
theorem exec_ctOcfgWrite {who : Accessor} {o : CtlO} {v : Word} {s : State} (hw : Writable s who (CT_OCFG o.val)) :
    exec (.ctOcfgWrite who o v) s = .next (s.writeCtCfg who (CT_OCFG o.val) v) := next_enter hw

theorem State.ctHeld_iff (s : State) (o : Nat) : s.ctHeld o = true ↔
    ∃ g : Chan, s.bitOf CT_TRIP.GUARD g.val = true ∧ (mget heldDef s.ctl.held g.val).getLsbD o = true := by
  rw [State.ctHeld, List.any_eq_true]
  constructor
  · rintro ⟨g, hg, h⟩
    exact ⟨⟨g, List.mem_range.mp hg⟩, by simpa using h⟩
  · rintro ⟨g, h⟩
    exact ⟨g.val, List.mem_range.mpr g.isLt, by simpa using h⟩

theorem State.nextLevel_of_free {s : State} {before o : Nat} (h : s.ctWant o = true) (h' : bit before o = true ∨ s.paired2 (o / 2) = false) :
    s.nextLevel before o = true := by
  rw [State.nextLevel, if_neg (by simp [h]), if_pos (h'.imp id (by simp))]

theorem State.nextLevel_of_partner {s : State} {before o : Nat} (h : s.ctWant o = true) (hb : bit before o = false)
    (hp : s.paired2 (o / 2) = true) (h' : bit before (partner o) = true ∨ o / 2 ∈ s.ctl.dead) : s.nextLevel before o = false := by
  rw [State.nextLevel, if_neg (by simp [h]), if_neg (by simp [hb, hp]), decide_eq_false_iff_not]
  rintro ⟨h1, h2⟩
  exact h'.elim h1 h2

/-- Settles O39, by the rule of each command and the levels' definition. -/
theorem controlOutputsFollowCommandsAndInterlocks : Obligations.ControlOutputsFollowCommandsAndInterlocks := by
  unfold Obligations.ControlOutputsFollowCommandsAndInterlocks
  refine ⟨fun who v s hw h => ?_, fun who v s hw h h' => ?_, fun who v s hw h h' => ?_, fun who v s hw h => ?_, fun who v s hw h => ?_,
    fun s u d ht h7 hz hx => ⟨fun h => ?_, fun h h' => ?_, fun h h' => ?_⟩, fun s u d ht h7 h => ?_, fun s tag set clr => decide_eq_true_iff,
    fun who v s t hw ht => ⟨fun h => ?_, fun h => ?_⟩, fun who o v s t hw ht => ⟨fun h => ?_, fun h => ?_⟩,
    fun i s h => congrArg Host.Outcome.next (if_pos h), fun i s h => congrArg Host.Outcome.next (if_neg h), fun o s => rfl,
    fun o s => s.ctHeld_iff o.val, fun o s => rfl,
    fun o before s => ⟨State.nextLevel_of_unwanted, State.nextLevel_of_free, State.nextLevel_of_partner⟩⟩
  · rw [exec_ctSet hw, State.writeCtl_of_held h]
  · rw [exec_ctSet hw, State.writeCtl_of_bothOn h h']
  · rw [exec_ctSet hw, State.writeCtl_of_free h h']
  · rw [exec_ctClr hw, State.writeCtl_of_free h s.bothOn_zero]
  · rw [exec_ctClr hw, State.writeCtl_of_held h]
  · rw [exec_control ht h7, State.runControl_of_sound hz hx, if_pos h]
  · rw [exec_control ht h7, State.runControl_of_sound hz hx, if_neg (by simp [h]), if_pos h']
  · rw [exec_control ht h7, State.runControl_of_sound hz hx, if_neg (by simp [h]), if_neg (by simp [h'])]
  · rw [exec_control ht h7, State.runControl_of_bad h]
  · rw [exec_ctPairWrite hw, State.writeCtCfg_of_bothSafe (ht ▸ h)]
  · rw [exec_ctPairWrite hw, State.writeCtCfg_of_sound (ht ▸ h), ht]
  · rw [exec_ctOcfgWrite hw, State.writeCtCfg_of_bothSafe (ht ▸ h)]
  · rw [exec_ctOcfgWrite hw, State.writeCtCfg_of_sound (ht ▸ h), ht]

/-! ### Guards and inputs (R263 to R268) -/

/-- One bit of a field put reads back, and the field's others are kept. -/
theorem State.bitOf_putBit (s : State) (f : Fld) (i j : Nat) (b : Bool) (h : f.lo ≤ f.hi + 1) (h' : f.hi < 32) (hj : j < f.hi + 1 - f.lo) :
    (s.putBit f i b).bitOf f j = if j = i then b else s.bitOf f j := by
  rw [State.bitOf, State.putBit, State.get_put_same _ _ _ h h', bit_eq_testBit, Nat.testBit_mod_two_pow, decide_eq_true hj, Bool.true_and,
    ← bit_eq_testBit, bit_putBits, ← State.bitOf]

theorem mget_mkeep {α : Type} (d : Nat → α) (p : Nat → Bool) (m : SMap α) (k : Nat) :
    mget d (mkeep p m) k = if p k = true then mget d m k else d k := by
  induction m with
  | nil => simp [mkeep, mget]
  | cons e t ih =>
    obtain ⟨j, v⟩ := e
    have hk : mkeep p ((j, v) :: t) = if p j = true then (j, v) :: mkeep p t else mkeep p t := by
      simp only [mkeep, List.filter_cons]
    rw [hk]
    by_cases hj : j = k
    · subst hj
      by_cases hp : p j = true <;> simp [hp, mget, ih]
    · by_cases hp : p j = true <;> simp [hp, mget, hj, ih]

theorem Frame.modChan (s : State) (c : Nat) (g : ChanSt → ChanSt) : Frame [.meter] s (s.modChan c g) := fun x hx => by
  cases x
  case meter => simp at hx
  case poison => exact ⟨rfl, rfl⟩
  all_goals rfl

theorem Frame.setCtl (s : State) (x : CtlSt) : Frame [.ctl] s { s with ctl := x } := fun c hc => by
  cases c
  case ctl => simp at hc
  case poison => exact ⟨rfl, rfl⟩
  all_goals rfl

theorem State.get_setCtl (s : State) (x : CtlSt) (f : Fld) : State.get { s with ctl := x } f = s.get f := State.get_of_reg rfl
theorem State.bitOf_setCtl (s : State) (x : CtlSt) (f : Fld) (i : Nat) : State.bitOf { s with ctl := x } f i = s.bitOf f i := by
  rw [State.bitOf, State.get_setCtl, ← State.bitOf]

/-- Clocks that lie behind the last edge, none with a reset before them, are run one by one. -/
theorem State.modClocks_of_next {s : State} {first : Nat} (l : List (BitVec 8)) (h : first ≤ s.meter.edge + 1)
    (hr : ∀ r ∈ s.meter.resets, s.meter.edge < r) : s.modClocks first l = foldState l (fun b t => t.modClock b) s := by
  have hf : s.meter.resets.filter (fun t0 => decide (t0 < s.meter.edge + 1)) = [] :=
    List.filter_eq_nil_iff.mpr fun r hm => by have := hr r hm; simp; omega
  have hs : s.resetsTo (s.meter.edge + 1) = s := by rw [State.resetsTo, hf]; rfl
  simp only [State.modClocks, Nat.max_eq_right h, hs, if_true]

/-- The guards that a clear reaches: all of them but those of the edge just past, for which it is open. -/
theorem State.cleared_spec (s : State) (l : List Nat) :
    (∀ g ∈ (s.cleared l).1, g ∈ l) ∧ (∀ g ∈ l, g ∉ s.ctl.justNow → g ∈ (s.cleared l).1) ∧ Frame [.free] s (s.cleared l).2 ∧
      (s.cleared l).2.regs = s.regs ∧ (s.cleared l).2.ctl = s.ctl := by
  induction l with
  | nil => exact ⟨by simp [State.cleared], by simp, Frame.refl _ _, rfl, rfl⟩
  | cons g t ih =>
    obtain ⟨h1, h2, h3, h4, h5⟩ := ih
    rw [State.cleared]
    dsimp only
    split
    next hj =>
      refine ⟨fun x hx => ?_, fun x hx hn => ?_, h3.trans (Frame.setFree _ _), h4, h5⟩
      · dsimp only at hx
        split at hx
        · exact (List.mem_cons.mp hx).elim (fun h => h ▸ List.mem_cons_self ..) (fun h => List.mem_cons_of_mem _ (h1 x h))
        · exact List.mem_cons_of_mem _ (h1 x hx)
      · have hx' : x ∈ (s.cleared t).1 := (List.mem_cons.mp hx).elim (fun h => absurd (h ▸ hj) hn) (fun h => h2 x h hn)
        dsimp only
        split
        · exact List.mem_cons_of_mem _ hx'
        · exact hx'
    next hj =>
      refine ⟨fun x hx => ?_, fun x hx hn => ?_, h3, h4, h5⟩
      · exact (List.mem_cons.mp hx).elim (fun h => h ▸ List.mem_cons_self ..) (fun h => List.mem_cons_of_mem _ (h1 x h))
      · exact (List.mem_cons.mp hx).elim (fun h => h ▸ List.mem_cons_self ..) (fun h => List.mem_cons_of_mem _ (h2 x h hn))

/-- Several bits of CT_TRIP.GUARD put to 0. -/
theorem State.untrip_spec (s : State) (l : List Nat) :
    (∀ g < 8, (foldState l (fun g t => t.putBit CT_TRIP.GUARD g false) s).bitOf CT_TRIP.GUARD g = (!decide (g ∈ l) && s.bitOf CT_TRIP.GUARD g)) ∧
    RegsBut [CT_TRIP] s (foldState l (fun g t => t.putBit CT_TRIP.GUARD g false) s) ∧
    Frame [.regs] s (foldState l (fun g t => t.putBit CT_TRIP.GUARD g false) s) := by
  induction l generalizing s with
  | nil => exact ⟨fun g _ => by simp [foldState], RegsBut.refl _ _, Frame.refl _ _⟩
  | cons a t ih =>
    obtain ⟨h1, h2, h3⟩ := ih (s.putBit CT_TRIP.GUARD a false)
    refine ⟨fun g hg => ?_, (RegsBut.put s CT_TRIP.GUARD _ (by simp [CT_TRIP.GUARD])).trans h2, (Frame.put s _ _).trans h3⟩
    rw [foldState, h1 g hg, State.bitOf_putBit s CT_TRIP.GUARD a g false (by decide) (by decide) hg]
    by_cases hga : g = a
    · simp [hga]
    · simp [hga]

/-- The state that a clear of `l` leaves before the outputs are brought to their levels. -/
def State.untripped (s : State) (l : List Nat) : State :=
  let s1 := foldState (s.cleared l).1 (fun g t => t.putBit CT_TRIP.GUARD g false) (s.cleared l).2
  { s1 with ctl := { s1.ctl with count := mkeep (fun g => decide (g ∉ (s.cleared l).1)) s1.ctl.count,
                                 held := mkeep (fun g => decide (g ∉ (s.cleared l).1)) s1.ctl.held } }

theorem State.untripped_spec (s : State) (l : List Nat) :
    (∀ g < 8, (s.untripped l).bitOf CT_TRIP.GUARD g = (!decide (g ∈ (s.cleared l).1) && s.bitOf CT_TRIP.GUARD g)) ∧
    (∀ g, mget natDef (s.untripped l).ctl.count g = if g ∈ (s.cleared l).1 then 0 else mget natDef s.ctl.count g) ∧
    (∀ g, mget heldDef (s.untripped l).ctl.held g = if g ∈ (s.cleared l).1 then 0 else mget heldDef s.ctl.held g) ∧
    RegsBut [CT_TRIP] s (s.untripped l) ∧ Frame [.regs, .ctl, .free] s (s.untripped l) := by
  obtain ⟨-, -, hfree, hregs, hctl⟩ := s.cleared_spec l
  obtain ⟨hbit, hbut, hframe⟩ := (s.cleared l).2.untrip_spec (s.cleared l).1
  have hkeep : (foldState (s.cleared l).1 (fun g t => t.putBit CT_TRIP.GUARD g false) (s.cleared l).2).ctl = (s.cleared l).2.ctl :=
    hframe .ctl (by decide)
  have hctl' := hkeep.trans hctl
  refine ⟨fun g hg => ?_, fun g => ?_, fun g => ?_, ?_, ?_⟩
  · rw [State.untripped, State.bitOf_setCtl, hbit g hg, State.bitOf, State.bitOf, State.get_of_reg (State.reg_of_regs hregs _)]
  · simp only [State.untripped, mget_mkeep, hctl', decide_eq_true_eq, ite_not, natDef]
  · simp only [State.untripped, mget_mkeep, hctl', decide_eq_true_eq, ite_not, heldDef]
  · exact RegsBut.of_regs (RegsBut.trans (fun a _ => State.reg_of_regs hregs a) hbut) rfl
  · exact (hfree.mono (by decide)).trans ((hframe.mono (by decide)).trans ((Frame.setCtl _ _).mono (by decide)))

/-- An input that has bounced long enough takes its level. -/
theorem State.dinChange_spec (s : State) {i : Nat} (b : Bool) (hi : i < 16) : ∃ u, s.dinChange i b = u.setEvt CT_EVT.DIN_EDGE ∧
    u.bitOf CT_DIN.LEVEL i = b ∧ u.bitOf CT_DIN.EDGE i = true ∧ u.ctl.bounce = s.ctl.bounce ∧
    (∀ j < 16, j ≠ i → u.bitOf CT_DIN.LEVEL j = s.bitOf CT_DIN.LEVEL j) ∧ RegsBut [CT_DIN] s u ∧ Frame [.regs, .ctl] s u := by
  have hfb (t : State) (f : Fld) (j : Nat) : t.fbPass.bitOf f j = t.bitOf f j := State.bitOf_setCtl ..
  have hlevel (j : Nat) : ((s.putBit CT_DIN.LEVEL i b).putBit CT_DIN.EDGE i true).bitOf CT_DIN.LEVEL j = (s.putBit CT_DIN.LEVEL i b).bitOf CT_DIN.LEVEL j := by
    rw [State.bitOf, State.bitOf, State.putBit, State.get_put_apart _ CT_DIN.EDGE CT_DIN.LEVEL _ rfl (by decide) (by decide) (by decide) (by decide)]
  refine ⟨_, rfl, ?_, ?_, ?_, fun j hj hn => ?_, ?_, ?_⟩
  · rw [hfb, hlevel, State.bitOf_putBit _ _ _ _ _ (by decide) (by decide) hi, if_pos rfl]
  · rw [hfb, State.bitOf_putBit _ _ _ _ _ (by decide) (by decide) hi, if_pos rfl]
  · rw [State.fbPass, State.putBit, State.putBit, State.put_ctl, State.put_ctl]
  · rw [hfb, hlevel, State.bitOf_putBit _ _ _ _ _ (by decide) (by decide) hj, if_neg hn]
  · exact RegsBut.of_regs ((RegsBut.put s CT_DIN.LEVEL _ (by simp [CT_DIN.LEVEL])).trans (RegsBut.put _ CT_DIN.EDGE (putBits ((s.putBit CT_DIN.LEVEL i b).get CT_DIN.EDGE) i i (b2n true))
      (by simp [CT_DIN.EDGE]))) (State.fbPass_same _).2
  · exact (((Frame.put s _ _).trans (Frame.put _ _ _)).mono (by decide)).trans ((Frame.setCtl _ _).mono (by decide))

theorem exec_tripClear {who : Accessor} {v : Word} {s : State} (hw : Writable s who CT_TRIP) : exec (.tripClear who v) s =
    .next (s.untripped ((List.range 8).filter (fun g => bit v.toNat g && s.bitOf CT_TRIP.GUARD g))).relevel := next_enter hw

theorem exec_dlimLevelWrite {who : Accessor} {v : Word} {s : State} (hw : Writable s who CT_DLIM) :
    exec (.dlimLevelWrite who v) s = .next (s.writeDlim v) := next_enter hw

theorem exec_fbMismatch_of_checked {o : CtlO} {s : State} (h : o.val ∈ s.ctl.check) : exec (.fbMismatch o) s = .next
    (if s.flag (CT_OCFG.FB_EN o.val) = true
      then State.setEvt { s with ctl := { s.ctl with check := s.ctl.check.filter (fun p => p ≠ o.val) } } CT_EVT.FB_MISMATCH
      else { s with ctl := { s.ctl with check := s.ctl.check.filter (fun p => p ≠ o.val) } }) := congrArg Host.Outcome.next (if_pos h)

/-- Settles O41: a guard by its count, TRIP_CLEAR by `State.untripped_spec`, an input by `State.dinChange_spec`. -/
theorem guardsTripAndInputsChange : Obligations.GuardsTripAndInputsChange := by
  unfold Obligations.GuardsTripAndInputsChange
  refine ⟨fun first l s h => congrArg Host.Outcome.next (if_pos h), fun first l s h => congrArg Host.Outcome.next (if_neg (by simp [h])),
    fun first l s h hr => State.modClocks_of_next l h hr, fun c valid s => ⟨_, _, Frame.modChan s c _, rfl⟩,
    fun g x valid hit n s t hh hn ht => ?_, fun g s => ⟨_, rfl, fun o ho => ?_, rfl, Frame.setCtl s _⟩, fun thr x => ⟨rfl, ?_, ?_, ?_⟩,
    fun who v s hw => ⟨_, exec_tripClear hw, ?_⟩, fun o s u h hu => ⟨fun hf => ?_, fun hf => ?_⟩, fun o s h => congrArg Host.Outcome.next (if_neg h),
    fun i l s h => congrArg Host.Outcome.next (if_pos h), fun i l s h => congrArg Host.Outcome.next (if_neg (by simp [h])),
    fun i b n s hn => ⟨fun h => ?_, fun h => ?_⟩, fun who v s t hw ht => ?_⟩
  · simp only [State.guardSample, clampNat_eq_min, ← hh, ← hn, ← ht, decide_eq_true_eq]
  · have hmap : (BitVec.ofNat 16 (s.get (CT_GMAP.OUT g.val))).getLsbD o.val = true := by
      rw [BitVec.getLsbD_ofNat, decide_eq_true o.isLt, Bool.true_and, ← bit_eq_testBit, ho]
    simp only [mget_mset_self, BitVec.getLsbD_or, hmap, Bool.or_true]
  · rw [guardHit, Int.mul_comm, decide_eq_true_iff]
  · rw [guardHit, Int.mul_comm, decide_eq_true_iff]
  · rw [guardHit, Int.mul_comm, decide_eq_true_iff]
  · obtain ⟨hsub, hcover, -⟩ := s.cleared_spec ((List.range 8).filter (fun g => bit v.toNat g && s.bitOf CT_TRIP.GUARD g))
    obtain ⟨hbit, hcount, hheld, hbut, hframe⟩ := s.untripped_spec ((List.range 8).filter (fun g => bit v.toNat g && s.bitOf CT_TRIP.GUARD g))
    refine ⟨fun g hv hg hj => ?_, fun g hn => ?_, hbut, hframe⟩
    · have hm := hcover g.val (List.mem_filter.mpr ⟨List.mem_range.mpr g.isLt, by simp [hv, hg]⟩) hj
      rw [hbit g.val g.isLt, hcount, hheld, if_pos hm, if_pos hm]
      simp [hm]
    · have hm : g.val ∉ (s.cleared ((List.range 8).filter (fun g => bit v.toNat g && s.bitOf CT_TRIP.GUARD g))).1 := fun hc => by
        obtain ⟨-, hb⟩ := List.mem_filter.mp (hsub _ hc)
        rcases hn with hn | hn <;> simp [hn] at hb
      rw [hbit g.val g.isLt, hcount, hheld, if_neg hm, if_neg hm]
      simp [hm]
  · rw [exec_fbMismatch_of_checked h, if_pos hf, hu]
  · rw [exec_fbMismatch_of_checked h, if_neg (by simp [hf]), hu]
  · simp only [State.dinSample, ← hn]
    rw [decide_eq_false (Nat.not_le.mpr h), if_neg (by simp), if_neg (by simp)]
  · obtain ⟨u, hu, h1, h2, h3, h4, h5, h6⟩ := State.dinChange_spec
      { s with ctl := { s.ctl with bounce := mset natDef s.ctl.bounce i.val 0 } } b i.isLt
    refine ⟨u, ?_, h1, h2, ?_, fun j hj => ?_, fun a ha => h5 a ha, ((Frame.setCtl s _).mono (by decide)).trans h6⟩
    · rw [← hu]
      simp only [State.dinSample, ← hn]
      rw [decide_eq_true h, if_pos rfl, if_pos rfl]
    · rw [h3, mget_mset_self]
    · rw [h4 j.val j.isLt (fun he => hj (Fin.ext he)), State.bitOf_setCtl]
  · have hl : t.get CT_DLIM.LEVEL = bits v.toNat 31 28 := ht ▸ State.get_writePlain s v (f := CT_DLIM.LEVEL) (by decide)
    have hp : t.get CT_DLIM.SETPOINT = bits v.toNat 15 0 := ht ▸ State.get_writePlain s v (f := CT_DLIM.SETPOINT) (by decide)
    refine ⟨hl, hp, ht ▸ RegsBut.writePlain s v (by simp), ht ▸ Frame.writePlain s _ v, fun h => ?_, fun h => ?_⟩
    · rw [exec_dlimLevelWrite hw, State.writeDlim, ← ht]
      simp only [hl, if_neg h]
    · rw [exec_dlimLevelWrite hw, State.writeDlim, ← ht]
      simp only [hl, if_pos h]

end Sys2Proof.Machine

/-! PROOFS. The commands of the mailbox (O42, O44). -/

namespace Sys2Proof.Machine

/-! ### Commands of the mailbox (R279 to R282) -/

/-- A command that has started and not run ends with its first failing check, and else with its effect. -/
theorem State.mbxRun_of_idle {s : State} {op : Nat} (checks : State → List (Bool × MbxOut)) (eff : State → MbxOut × State) (h : s.mbxReady op = false) :
    s.mbxRun op checks eff = s := if_pos (by simp [h])

theorem State.mbxRun_of_fail {s : State} {op : Nat} {checks : State → List (Bool × MbxOut)} {eff : State → MbxOut × State} {c : MbxOut}
    (h : s.mbxReady op = true) (hc : c = firstFail (checks s)) (hn : c ≠ mbxOk) : s.mbxRun op checks eff = s.mbxSet c := by
  simp only [State.mbxRun, h, not_true_eq_false, if_false, ← hc, ne_eq, hn, not_false_eq_true, if_true]

theorem State.mbxRun_of_pass {s u : State} {op : Nat} {checks : State → List (Bool × MbxOut)} {eff : State → MbxOut × State} {c o : MbxOut}
    (h : s.mbxReady op = true) (hc : c = firstFail (checks s)) (hn : c = mbxOk) (he : eff s = (o, u)) : s.mbxRun op checks eff = u.mbxSet o := by
  simp only [State.mbxRun, h, not_true_eq_false, if_false, ← hc, ne_eq, hn, he]

theorem next_mbx_of_fail {s : State} {op : Nat} {checks : State → List (Bool × MbxOut)} {eff : State → MbxOut × State} {c : MbxOut}
    (h : s.mbxReady op = true) (hc : c = firstFail (checks s)) (hn : c ≠ mbxOk) :
    (Host.Outcome.next (s.mbxRun op checks eff) : Result) = .next (s.mbxSet c) := congrArg _ (State.mbxRun_of_fail h hc hn)

theorem next_mbx_of_pass {s u : State} {op : Nat} {checks : State → List (Bool × MbxOut)} {eff : State → MbxOut × State} {c o : MbxOut}
    (h : s.mbxReady op = true) (hc : c = firstFail (checks s)) (hn : c = mbxOk) (he : eff s = (o, u)) :
    (Host.Outcome.next (s.mbxRun op checks eff) : Result) = .next (u.mbxSet o) := congrArg _ (State.mbxRun_of_pass h hc hn he)

theorem firstFail_cons_false {c : Bool} {o : MbxOut} (l : List (Bool × MbxOut)) (h : c = false) : firstFail ((c, o) :: l) = firstFail l := by
  rw [h]; rfl

/-- A new scalar lies in the group's range. -/
theorem State.newScalar_range (s : State) : 1 ≤ s.newScalar.1 ∧ s.newScalar.1 < p256n := by
  have h : Config.freeNat s.freeCtr % (p256n - 1) < p256n - 1 := Nat.mod_lt _ (by decide)
  show 1 ≤ Config.freeNat s.freeCtr % (p256n - 1) + 1 ∧ Config.freeNat s.freeCtr % (p256n - 1) + 1 < p256n
  omega

/-- Settles O42: each command is `State.mbxRun` of its own checks and effect. -/
theorem mailboxKeyCommandsCheckAndAct : Obligations.MailboxKeyCommandsCheckAndAct := by
  unfold Obligations.MailboxKeyCommandsCheckAndAct
  refine ⟨fun o l => ⟨rfl, rfl, rfl⟩, fun s h => congrArg _ (State.mbxRun_of_idle _ _ h), ?_, ?_, ?_, ?_, ?_, ?_, ?_, fun s h hm => ⟨fun hp => ?_, fun hp => ?_⟩⟩
  · rintro s ty key c h rfl rfl hc
    exact ⟨fun hn => next_mbx_of_fail h hc hn, fun hn => next_mbx_of_pass h hc hn rfl⟩
  · rintro s kek b c h rfl rfl hc
    refine ⟨fun hn => next_mbx_of_fail h hc hn, fun x hn hx => next_mbx_of_pass h hc hn ?_⟩
    have hp : (s.blobPlain (s.slot (argKek s.arg0))).map blobParts = some x := hx
    simp only [hp]
    rfl
  · rintro s k kek c h rfl rfl hc
    exact ⟨fun hn => next_mbx_of_fail h hc hn, fun hn => next_mbx_of_pass h hc hn rfl⟩
  · rintro s ty c h rfl hc
    refine ⟨fun hn => next_mbx_of_fail h hc hn, fun hn hty => ?_, fun hn hty => ?_⟩
    · refine ⟨_, _, _, length_freeBytes (s.free (2 ^ 32)).2 (keyLen (bits s.arg0 15 8)), (Frame.setFree s _).trans (Frame.freeBytes (s.free (2 ^ 32)).2 _),
        next_mbx_of_pass h hc hn (if_neg hty)⟩
    · obtain ⟨h1, h2⟩ := (s.free (2 ^ 32)).2.newScalar_range
      refine ⟨(s.free (2 ^ 32)).1, _, _, h1, h2, (Frame.setFree s _).trans (Frame.newScalar (s.free (2 ^ 32)).2), next_mbx_of_pass h hc hn ?_⟩
      have hty' : argType s.arg0 = 3 := hty
      simp only [hty', if_true]
      rfl
  · rintro s i c h rfl hc
    exact ⟨fun hn => next_mbx_of_fail h hc hn, fun hn => next_mbx_of_pass h hc hn rfl⟩
  · rintro s i c h rfl hc
    exact ⟨fun hn => next_mbx_of_fail h hc hn, fun hn => next_mbx_of_pass h hc hn rfl⟩
  · rintro s i c h rfl hc
    refine ⟨fun hn => next_mbx_of_fail h hc hn, fun hn hv => next_mbx_of_pass h hc hn ?_, fun hn hv => next_mbx_of_pass h hc hn ?_⟩
    · have hne : decide (s.arg1 = 0xFFFFFFFF) = false := decide_eq_false (by omega)
      simp only [hne]
      rfl
    · have he : decide (s.arg1 = 0xFFFFFFFF) = true := decide_eq_true hv
      simp only [he]
      rfl
  · refine next_mbx_of_pass (c := mbxOk) h ?_ rfl rfl
    simp [firstFail, State.chkMode, State.chkPres, hm, hp]
  · refine next_mbx_of_fail (c := (stPresence, 0#8)) h ?_ (by decide)
    simp [firstFail, State.chkMode, State.chkPres, hm, hp]

/-! ### OTP rows, attestation and the commands that change the mode -/

theorem Frame.modOtp (s : State) (f : OtpSt → OtpSt) : Frame [.wd] s (s.modOtp f) := Frame.setWd _ _

/-- A row whose read-back holds is in force, one whose read-back fails is not. -/
theorem getLast?_filter_append {α : Type} (l : List (α × Bool)) (x : α) (b : Bool) :
    ((l ++ [(x, b)]).filter (·.2)).getLast?.map (·.1) = if b = true then some x else (l.filter (·.2)).getLast?.map (·.1) := by
  cases b <;> simp [List.filter_append]

theorem OtpSt.root_written (o : OtpSt) (l : List (List Byte × Bool)) (x : List Byte) : ({ o with roots := l ++ [(x, true)] } : OtpSt).root = some x :=
  getLast?_filter_append l x true
theorem OtpSt.root_failed (o : OtpSt) (x : List Byte) : ({ o with roots := o.roots ++ [(x, false)] } : OtpSt).root = o.root :=
  getLast?_filter_append o.roots x false
theorem OtpSt.len_written (o : OtpSt) (n : Nat) : ({ o with windows := o.windows ++ [(n, true)] } : OtpSt).len = n := by
  rw [OtpSt.len, getLast?_filter_append]; rfl
theorem OtpSt.floor_written (o : OtpSt) (x : Word) : ({ o with floors := o.floors ++ [(x, true)] } : OtpSt).floor = x.toNat := by
  simp [OtpSt.floor, List.filter_append]
theorem OtpSt.floor_failed (o : OtpSt) (x : Word) : ({ o with floors := o.floors ++ [(x, false)] } : OtpSt).floor = o.floor := by
  simp [OtpSt.floor, List.filter_append]

theorem State.arg1_word (s : State) : (BitVec.ofNat 32 s.arg1).toNat = s.arg1 := by
  rw [State.arg1, BitVec.toNat_ofNat, Nat.mod_eq_of_lt (BitVec.isLt _)]

/-- MAINT_ENTER from a running mode or Quarantine, with presence. -/
theorem exec_maintEnter {s : State} (h : s.mbxReady 0x18 = true) (hr : s.running = true ∨ s.mode = 10) (hp : s.wd.mbxPres = true) :
    exec .maintEnter s = .next (s.toMaintenance.mbxSet mbxOk) := by
  have hc : (!(s.running || decide (s.mode = 10))) = false := by rcases hr with hr | hr <;> simp [hr]
  exact next_mbx_of_pass (c := mbxOk) h (by simp [firstFail, hc, State.chkPres, hp]) rfl rfl

theorem State.toMaintenance_of_there {s : State} (h : s.mode = 9) : s.toMaintenance = s := if_pos h
theorem State.toMaintenance_of_running {s : State} (h : s.mode ≠ 9) (h' : s.mode ≠ 10) : s.toMaintenance = s.leaveOutage 9 12 := by
  simp only [State.toMaintenance, h, h', if_false]
theorem State.toMaintenance_of_quarantine {s : State} (h : s.mode = 10) : s.toMaintenance = (s.put WD_STAT.STATE 1).leaveOutage 9 12 := by
  simp only [State.toMaintenance, h, if_true]
  rw [if_neg (by decide)]

/-! ### The end of a mailbox command -/

theorem State.mbxEnd_eq (s : State) (op : Nat) (o : Byte × Byte) : s.mbxEnd op o =
    State.setEvt { (s.wipeInput op).setReg WD_MBX_STAT (BitVec.ofNat 32 (2 ^ 30 + o.2.toNat * 65536 + o.1.toNat)) with
      wd := { ((s.wipeInput op).setReg WD_MBX_STAT (BitVec.ofNat 32 (2 ^ 30 + o.2.toNat * 65536 + o.1.toNat))).wd with
        mbxOp := none, mbxRes := none } } WD_EVT.MBX_DONE := rfl

theorem State.wipeInput_of_other {s : State} {op : Nat} (h : op ≠ 1) : s.wipeInput op = s := if_neg h

/-- The fields of the word that ends a command. -/
theorem bits_mbxStat (o : Byte × Byte) : bits (BitVec.ofNat 32 (2 ^ 30 + o.2.toNat * 65536 + o.1.toNat)).toNat 31 31 = 0 ∧
    bits (BitVec.ofNat 32 (2 ^ 30 + o.2.toNat * 65536 + o.1.toNat)).toNat 30 30 = 1 ∧
    bits (BitVec.ofNat 32 (2 ^ 30 + o.2.toNat * 65536 + o.1.toNat)).toNat 7 0 = o.1.toNat ∧
    bits (BitVec.ofNat 32 (2 ^ 30 + o.2.toNat * 65536 + o.1.toNat)).toNat 23 16 = o.2.toNat := by
  have h1 := o.1.isLt
  have h2 := o.2.isLt
  simp only [bits_eq, BitVec.toNat_ofNat]
  omega

theorem State.get_setReg_self (s : State) (f : Fld) (v : Word) : (s.setReg f.addr v).get f = bits v.toNat f.hi f.lo := by
  rw [State.get, State.reg_setReg_self]

theorem State.get_setWd (s : State) (x : WardenSt) (f : Fld) : State.get { s with wd := x } f = s.get f := State.get_of_reg rfl
theorem State.reg_setWd (s : State) (x : WardenSt) (a : Nat) : State.reg { s with wd := x } a = s.reg a := rfl

/-- Zeros put into the mailbox's data words. -/
theorem State.reg_zeros (l : List (List Byte)) (hl : ∀ p ∈ l, leNat p = 0) (k i : Nat) (s : State) :
    (foldState (l.zipIdx k) (fun x t => t.setReg (WD_MBX_DATA (0 + x.2)) (BitVec.ofNat 32 (leNat x.1))) s).reg (WD_MBX_DATA i) =
      if k ≤ i ∧ i < k + l.length then 0 else s.reg (WD_MBX_DATA i) := by
  induction l generalizing k s with
  | nil => rw [if_neg (fun h => by have := h.2; simp at this; omega)]; rfl
  | cons p t ih =>
    rw [List.zipIdx_cons, foldState, ih (fun q hq => hl q (List.mem_cons_of_mem _ hq)), List.length_cons]
    simp only [hl p (List.mem_cons_self ..), Nat.zero_add]
    by_cases hi : i = k
    · subst hi
      rw [if_neg (by omega), if_pos (by omega), State.reg_setReg_self]; rfl
    · rw [State.reg_setReg_ne _ _ (by simp only [WD_MBX_DATA]; omega)]
      exact if_congr (by omega) rfl rfl

/-- A KEY_LOAD's key words are zeroed when it ends. -/
theorem State.reg_wipeInput {s : State} {i : Nat} (h : typeCode (bits s.arg0 15 8) = true) (hi : 4 * i < keyLen (bits s.arg0 15 8)) :
    (s.wipeInput 1).reg (WD_MBX_DATA i) = 0 ∧ i < 8 := by
  have hw : s.wipeInput 1 = s.putMbxData 0 (List.replicate (keyLen (bits s.arg0 15 8)) 0#8) := by
    rw [State.wipeInput, if_pos rfl, argType, if_pos h]
  have hzero : ∀ n, n = 16 ∨ n = 32 → (∀ p ∈ pieces 4 (List.replicate n 0#8), leNat p = 0) ∧ (pieces 4 (List.replicate n 0#8)).length = n / 4 := by
    rintro n (rfl | rfl) <;> decide
  have hn : keyLen (bits s.arg0 15 8) = 16 ∨ keyLen (bits s.arg0 15 8) = 32 := by unfold keyLen; split <;> simp
  obtain ⟨hz, hl⟩ := hzero _ hn
  refine ⟨?_, by omega⟩
  rw [hw]
  exact (State.reg_zeros _ hz 0 i s).trans (if_pos ⟨Nat.zero_le _, by omega⟩)

/-- Settles O44: each command is `State.mbxRun` of its own checks and effect, and MBX_DONE by `State.mbxEnd_eq`. -/
theorem mailboxOtpAndModeCommands : Obligations.MailboxOtpAndModeCommands := by
  unfold Obligations.MailboxOtpAndModeCommands
  refine ⟨fun s b c h hc => ⟨fun hn => next_mbx_of_fail h hc hn, ?_, ?_⟩, fun s b c h hc => ⟨fun hn => next_mbx_of_fail h hc hn, ?_, ?_⟩,
    fun s b c h hc => ⟨fun hn => next_mbx_of_fail h hc hn, ?_, ?_⟩, fun s b c h hc => ⟨fun hn => next_mbx_of_fail h hc hn, ?_, ?_⟩,
    fun s h ha => ?_, fun s h ha => ?_, fun s q h => ⟨fun hm => ?_, fun hm hq => ?_, fun hm hq => ?_⟩, fun s h hr hm => ?_,
    fun s h hr => ⟨fun hp => ?_, fun hp hm => ?_, fun hp hm hm' => ?_, fun hp hm => ?_⟩,
    fun s c h hc => ⟨fun hn => next_mbx_of_fail h hc hn, fun hn => next_mbx_of_pass h hc hn rfl⟩, fun s op o h h' => ?_, fun s op h h' hn => ?_,
    fun s op o hop => ?_, fun s o i ht hi => ?_⟩
  · rintro hn rfl
    refine ⟨_, next_mbx_of_pass h hc hn rfl, OtpSt.root_written _ _ _, ?_, Frame.modOtp _ _⟩
    simp [State.modOtp]
  · rintro hn rfl
    exact ⟨_, next_mbx_of_pass h hc hn rfl, OtpSt.root_failed _ _, Frame.modOtp _ _⟩
  · rintro hn rfl
    exact ⟨_, next_mbx_of_pass h hc hn rfl, (OtpSt.floor_written _ _).trans s.arg1_word, Frame.modOtp _ _⟩
  · rintro hn rfl
    exact ⟨_, next_mbx_of_pass h hc hn rfl, OtpSt.floor_failed _ _, Frame.modOtp _ _⟩
  · rintro hn rfl
    exact ⟨_, next_mbx_of_pass h hc hn rfl, OtpSt.len_written _ _, Frame.modOtp _ _⟩
  · rintro hn rfl
    exact ⟨_, next_mbx_of_pass h hc hn rfl, Frame.modOtp _ _⟩
  · rintro hn rfl
    exact ⟨_, next_mbx_of_pass h hc hn rfl, by simp [State.modOtp], by simp [State.modOtp], Frame.modOtp _ _⟩
  · rintro hn rfl
    exact ⟨_, next_mbx_of_pass h hc hn rfl, Frame.modOtp _ _⟩
  · exact next_mbx_of_pass (c := mbxOk) h rfl rfl (if_pos ha)
  · exact ⟨_, _, Frame.signDigest s s.wd.otp.attest (sha256 (s.mbxData 32 ++ s.attRecord)),
      next_mbx_of_pass (c := mbxOk) h rfl rfl (if_neg (by simp [ha]))⟩
  · exact next_mbx_of_fail (c := (stNotPermitted, dMode)) h (by simp [firstFail, State.chkMode, hm]) (by decide)
  · exact next_mbx_of_pass (c := mbxOk) h (by simp [firstFail, State.chkMode, hm]) rfl (if_pos hq)
  · exact next_mbx_of_pass (c := mbxOk) h (by simp [firstFail, State.chkMode, hm]) rfl (if_neg hq)
  · exact next_mbx_of_fail (c := (stNotPermitted, dMode)) h (by simp [firstFail, hr, hm]) (by decide)
  · have hc : (!(s.running || decide (s.mode = 10))) = false := by rcases hr with hr | hr <;> simp [hr]
    exact next_mbx_of_fail (c := (stPresence, 0#8)) h (by simp [firstFail, hc, State.chkPres, hp]) (by decide)
  · rw [exec_maintEnter h hr hp, State.toMaintenance_of_there hm]
  · rw [exec_maintEnter h hr hp, State.toMaintenance_of_running hm hm']
  · rw [exec_maintEnter h hr hp, State.toMaintenance_of_quarantine hm]
  · show Host.Outcome.next _ = _
    simp only [h, h']
  · show Host.Outcome.next _ = _
    simp only [h, h', if_neg hn]
    split <;> rfl
  · obtain ⟨h1, h2, h3, h4⟩ := bits_mbxStat o
    have hget (f : Fld) (hf : f.addr = WD_MBX_STAT) : State.get { s.setReg WD_MBX_STAT (BitVec.ofNat 32 (2 ^ 30 + o.2.toNat * 65536 + o.1.toNat)) with
        wd := { s.wd with mbxOp := none, mbxRes := none } } f = bits (BitVec.ofNat 32 (2 ^ 30 + o.2.toNat * 65536 + o.1.toNat)).toNat f.hi f.lo := by
      rw [State.get_setWd, ← hf, State.get_setReg_self]
    refine ⟨_, (s.mbxEnd_eq op o).trans (by rw [State.wipeInput_of_other hop, State.setReg_wd]), ?_, ?_, ?_, ?_, rfl, ?_, ?_⟩
    · rw [State.flag, (hget WD_MBX_STAT.BUSY rfl).trans h1]; rfl
    · rw [State.flag, (hget WD_MBX_STAT.DONE rfl).trans h2]; rfl
    · exact (hget WD_MBX_STAT.STATUS rfl).trans h3
    · exact (hget WD_MBX_STAT.DETAIL rfl).trans h4
    · exact (RegsBut.setReg s _ (by simp)).setWd _
    · exact ((Frame.setReg s _ _).mono (by decide)).trans ((Frame.setWd _ _).mono (by decide))
  · obtain ⟨hz, hi8⟩ := State.reg_wipeInput ht hi
    refine ⟨_, s.mbxEnd_eq 1 o, ?_⟩
    rw [State.reg_setWd, State.reg_setReg_ne _ _ (by simp only [WD_MBX_DATA, WD_MBX_STAT]; omega), hz]

end Sys2Proof.Machine

/-! PROOFS. CIPHER descriptors (O46). -/

namespace Sys2Proof.Machine

/-! ### CIPHER descriptors (R283) -/

/-- The commands of the CIPHER descriptors, with the OP that each one takes. -/
def cipherInstrs : List (Instr × Nat) := [(.gcmEnc, 0x01), (.gcmDec, 0x02), (.ccmEnc, 0x03), (.ccmDec, 0x04), (.cmacGen, 0x05), (.cmacVer, 0x06),
  (.sha256, 0x07), (.ecdsaSign, 0x08), (.ecdsaVer, 0x09), (.ecdh, 0x0A), (.kdf, 0x0B), (.random, 0x0C)]

theorem exec_cipher {i : Instr} {op : Nat} (h : (i, op) ∈ cipherInstrs) :
    ∃ p : Nat → Bool, p op = true ∧ ∀ s, exec i s = .next (s.takeCipher p) := by
  simp only [cipherInstrs, List.mem_cons, Prod.mk.injEq, List.not_mem_nil, or_false] at h
  rcases h with ⟨rfl, rfl⟩ | ⟨rfl, rfl⟩ | ⟨rfl, rfl⟩ | ⟨rfl, rfl⟩ | ⟨rfl, rfl⟩ | ⟨rfl, rfl⟩ | ⟨rfl, rfl⟩ | ⟨rfl, rfl⟩ | ⟨rfl, rfl⟩ | ⟨rfl, rfl⟩ |
    ⟨rfl, rfl⟩ | ⟨rfl, rfl⟩
  all_goals exact ⟨_, rfl, fun _ => rfl⟩

theorem mem_cipherInstrs {i : Instr} (h : i ∈ [Instr.gcmEnc, .gcmDec, .ccmEnc, .ccmDec, .cmacGen, .cmacVer, .sha256, .ecdsaSign, .ecdsaVer, .ecdh, .kdf,
    .random]) : ∃ op, (i, op) ∈ cipherInstrs := by
  obtain ⟨x, hx, rfl⟩ := List.mem_map.mp (show i ∈ cipherInstrs.map (·.1) from h)
  exact ⟨x.2, hx⟩

theorem State.takeCipher_of_full {s : State} (p : Nat → Bool) (h : 64 ≤ s.wd.jobs.length) : s.takeCipher p = s := if_pos h

theorem State.takeCipher_of_taken {s u : State} {d : List Byte} {p : Nat → Bool} (h : s.wd.jobs.length < 64) (ht : Taken d s u) (h4 : u8 d 0 = 4)
    (hp : p (u8 d 8) = true) : s.takeCipher p = u.runCipher (u8 d 8) d := by
  rw [State.takeCipher, if_neg (Nat.not_le.mpr h), State.takeDesc_of_taken _ ht (by simp [h4, hp])]

/-- The command of a descriptor's OP runs its checks. -/
theorem exec_cipher_of_taken {i : Instr} {op : Nat} {s u : State} {d : List Byte} (hi : (i, op) ∈ cipherInstrs) (h : s.wd.jobs.length < 64)
    (ht : Taken d s u) (h4 : u8 d 0 = 4) (hop : u8 d 8 = op) : exec i s = .next (u.runCipher op d) := by
  obtain ⟨p, hp, hx⟩ := exec_cipher hi
  subst hop
  rw [hx, State.takeCipher_of_taken h ht h4 hp]

/-- How a descriptor that fails a check completes. -/
def State.cipherFailed (s : State) (d : List Byte) (c : MbxOut) : State :=
  s.complete (descTag d) c.1 (c.2.toNat * 65536) (leBytes 4 0 ++ leBytes 4 0)

theorem State.endCipher_failed (s : State) (d : List Byte) (c : MbxOut) : s.endCipher (descTag d) c.1 0 c.2 0 0 = s.cipherFailed d c := by
  rw [State.endCipher, Nat.zero_add, State.cipherFailed]

theorem State.runCipher_of_unlisted {s : State} {op : Nat} {d : List Byte} (h : cipherOp op = none) : s.runCipher op d = s.cipherFailed d (stBad, 0#8) := by
  simp only [State.runCipher, h]
  exact s.endCipher_failed d (stBad, 0#8)

theorem State.runCipher_of_form {s : State} {op : Nat} {o : CipherOp} {d : List Byte} {c : MbxOut} (h : cipherOp op = some o)
    (hc : firstFail (cipherForm o d) = c) (hn : c ≠ mbxOk) : s.runCipher op d = s.cipherFailed d c := by
  simp only [State.runCipher, h, hc, ne_eq, hn, not_false_eq_true, if_true]
  exact s.endCipher_failed d c

theorem State.runCipher_of_input {s : State} {op : Nat} {o : CipherOp} {d : List Byte} (h : cipherOp op = some o)
    (hc : firstFail (cipherForm o d) = mbxOk) (ha : s.drefBytes (drefAt d 12) = none) : s.runCipher op d = s.cipherFailed d (stBad, 0#8) := by
  simp only [State.runCipher, h, hc, ne_eq, not_true_eq_false, if_false, ha]
  exact s.endCipher_failed d (stBad, 0#8)

theorem State.runCipher_of_input2 {s : State} {op : Nat} {o : CipherOp} {d a : List Byte} (h : cipherOp op = some o)
    (hc : firstFail (cipherForm o d) = mbxOk) (ha : s.drefBytes (drefAt d 12) = some a)
    (hb : (s.drefTake (drefAt d 12)).drefBytes (drefAt d 20) = none) : s.runCipher op d = s.cipherFailed d (stBad, 0#8) := by
  simp only [State.runCipher, h, hc, ne_eq, not_true_eq_false, if_false, ha, hb]
  exact s.endCipher_failed d (stBad, 0#8)

/-- The checks of the lengths, the output reference, the slot and presence. -/
def State.cipherLate (s : State) (op : Nat) (o : CipherOp) (d a b : List Byte) : MbxOut :=
  firstFail (cipherLens op o d a b ++ [(o.out && !s.outOk (drefAt d 28), (stBad, 0#8))] ++ s.cipherSlot op o d)

theorem State.runCipher_of_late {s : State} {op : Nat} {o : CipherOp} {d a b : List Byte} {c : MbxOut} (h : cipherOp op = some o)
    (hc : firstFail (cipherForm o d) = mbxOk) (ha : s.drefBytes (drefAt d 12) = some a)
    (hb : (s.drefTake (drefAt d 12)).drefBytes (drefAt d 20) = some b) (hl : s.cipherLate op o d a b = c) (hn : c ≠ mbxOk) :
    s.runCipher op d = s.cipherFailed d c := by
  rw [State.cipherLate] at hl
  simp only [State.runCipher, h, hc, ne_eq, not_true_eq_false, if_false, ha, hb, hl, hn, not_false_eq_true, if_true]
  exact s.endCipher_failed d c

/-- The job that a sound descriptor becomes. -/
def State.cipherJob (s : State) (op : Nat) (o : CipherOp) (d a b : List Byte) : CipherJob :=
  { tag := descTag d, op := op, slot := u8 d 9, slot2 := u8 d 11, tagLen := u8 d 10 % 32, prehash := bit (u8 d 10) 5,
    k256 := bit (u8 d 10) 6, inp := a, inp2 := b, outKind := (drefAt d 28).kind, outQ := (drefAt d 28).ql, outAddr := (drefAt d 28).addr,
    st := (d.drop 36).take 8, ic := u32 d 44, slv := u8 d 48, usage := u8 d 49, count := u16 d 50,
    ver := if o.slot.isSome then (s.slot (u8 d 9)).version else 0, entered := false, key := {}, ctr := 0, verdict := none }

/-- A job queued behind the others. -/
def State.queueJob (s : State) (j : CipherJob) : State := { s with wd := { s.wd with jobs := s.wd.jobs ++ [j] } }

theorem State.runCipher_of_sound {s : State} {op : Nat} {o : CipherOp} {d a b : List Byte} (h : cipherOp op = some o)
    (hc : firstFail (cipherForm o d) = mbxOk) (ha : s.drefBytes (drefAt d 12) = some a)
    (hb : (s.drefTake (drefAt d 12)).drefBytes (drefAt d 20) = some b) (hl : s.cipherLate op o d a b = mbxOk) :
    s.runCipher op d = ((s.drefTake (drefAt d 12)).drefTake (drefAt d 20)).queueJob (s.cipherJob op o d a b) := by
  rw [State.cipherLate] at hl
  simp only [State.runCipher, h, hc, ne_eq, not_true_eq_false, if_false, ha, hb, hl]
  rfl

/-- Settles O46: the checks in their order, each by the lemma of the one that fails. -/
theorem cipherDescriptorsBecomeJobs : Obligations.CipherDescriptorsBecomeJobs := by
  unfold Obligations.CipherDescriptorsBecomeJobs
  refine ⟨fun i op o s u v d a b hi h ht h4 h8 ho hc ha hv hb hl => ?_, fun i op o c s u d hi h ht h4 h8 ho hf => ?_, fun s h i hi => ?_,
    fun s u d h ht h4 ho => ?_, fun s op o d => rfl⟩
  · subst hv
    refine ⟨_, _, (exec_cipher_of_taken hi h ht h4 h8).trans (congrArg _ (State.runCipher_of_sound ho hc ha hb hl)), rfl, rfl, rfl, rfl, rfl, rfl, rfl,
      rfl, rfl, rfl, fun hs => if_pos hs, rfl, rfl, rfl, rfl, rfl, rfl, rfl, rfl, rfl, rfl, Frame.setWd _ _⟩
  · rw [exec_cipher_of_taken hi h ht h4 h8]
    refine congrArg _ ?_
    rcases hf with ⟨hc, hn⟩ | ⟨hc, ha, rfl⟩ | ⟨hc, hn, a, b, ⟨ha, hb, hl⟩ | ⟨-, rfl, ⟨a, ha⟩, hb⟩⟩
    · exact State.runCipher_of_form ho hc hn
    · exact State.runCipher_of_input ho hc ha
    · exact State.runCipher_of_late ho hc ha hb hl hn
    · exact State.runCipher_of_input2 ho hc ha hb
  · obtain ⟨op, hi⟩ := mem_cipherInstrs hi
    obtain ⟨p, -, hx⟩ := exec_cipher hi
    rw [hx, State.takeCipher_of_full p h]
  · have hx : exec .sha256 s = .next (s.takeCipher (fun op => op == 0x07 || (cipherOp op).isNone)) := rfl
    rw [hx, State.takeCipher_of_taken h ht h4 (by simp [ho]), State.runCipher_of_unlisted ho]
    rfl

end Sys2Proof.Machine

/-! PROOFS. The UARTs (O37, O38). -/

namespace Sys2Proof.Machine

/-! ### UART transmission (R252 to R254) -/

theorem Frame.modUart (s : State) (u : Nat) (f : UartSt → UartSt) : Frame [.uarts] s (s.modUart u f) := fun c hc => by
  cases c
  case uarts => simp at hc
  case poison => exact ⟨rfl, rfl⟩
  all_goals rfl

theorem State.uart_of_uarts {s t : State} (h : t.uarts = s.uarts) (u : Nat) : t.uart u = s.uart u := by rw [State.uart, State.uart, h]

theorem State.uart_putFlag (s : State) (f : Fld) (b : Bool) (u : Nat) : (s.putFlag f b).uart u = s.uart u :=
  State.uart_of_uarts (State.putFlag_uarts ..) u

theorem State.uaFinish_of_done {s : State} {n k : Nat} {x : UaSend} {t : List UaSend} (h : (s.uart n).sends = x :: t) (hx : x.chars.length ≤ x.sent) :
    s.uaFinish (k + 1) n = ((s.modUart n (fun y => { y with sends := t })).complete x.tag stOk x.sent []).uaFinish k n := by
  simp only [State.uaFinish, h, if_neg (Nat.not_lt.mpr hx)]

theorem State.uaFinish_of_open {s : State} {n k : Nat} {x : UaSend} {t : List UaSend} (h : (s.uart n).sends = x :: t) (hx : x.sent < x.chars.length) :
    s.uaFinish (k + 1) n = s := by
  simp only [State.uaFinish, h, if_pos hx]

theorem State.uaKick_of_stopped {s : State} {n : Nat} (h : (s.uart n).cur ≠ none ∨ s.uaOn n = false) : s.uaKick n = s := by
  rw [State.uaKick, if_pos]
  exact h.imp (fun hc => Option.isSome_iff_ne_none.mpr hc) (fun ho => by simp [ho])

theorem State.uaKick_of_flow {s : State} {n c : Nat} {t : List Nat} (hc : (s.uart n).cur = none) (ho : s.uaOn n = true) (hf : (s.uart n).flow = c :: t) :
    s.uaKick n = (s.modUart n (fun y => { y with flow := t })).uaStart n c none := by
  rw [State.uaKick, if_neg (by simp [hc, ho])]
  simp only [hf]

/-- With no flow character to send, the first send's next character goes out unless the other side holds it. -/
theorem State.uaKick_of_send {s : State} {n : Nat} {x : UaSend} {t : List UaSend} (hc : (s.uart n).cur = none) (ho : s.uaOn n = true)
    (hf : (s.uart n).flow = []) (hs : (s.uart n).sends = x :: t) (hx : x.sent < x.chars.length) :
    s.uaKick n = if s.uaFlowOn n = true ∧ s.flag (UA_STAT.XOFF_RX n) = true then s else s.uaStart n (nth 0 x.chars x.sent) (some x.tag) := by
  rw [State.uaKick, if_neg (by simp [hc, ho])]
  simp only [hf, State.uaFinish_of_open hs hx, hs]

/-- A character that starts. -/
theorem State.uaStart_spec (s : State) (n c : Nat) (tag : Option Nat) :
    (s.uaStart n c tag).uart n = { s.uart n with cur := some ⟨c, tag.isNone, tag, s.uaSet n⟩, deaf := false } ∧
    (s.uaStart n c tag).flag (UA_STAT.TX_BUSY n) = true ∧ (n < 4 → (s.uaStart n c tag).flag (UA_STAT.DE n) = true) ∧
    RegsBut [UA_STAT n] s (s.uaStart n c tag) ∧ Frame [.regs, .uarts] s (s.uaStart n c tag) := by
  have hregs (t : State) (f : Fld) (b : Bool) (hf : f.addr = UA_STAT n) : RegsBut [UA_STAT n] t (t.putFlag f b) := RegsBut.put t f _ (by simp [hf])
  have hframe (t : State) (f : Fld) (b : Bool) : Frame [.regs, .uarts] t (t.putFlag f b) := (Frame.putFlag t f b).mono (by decide)
  have hmod (f : UartSt → UartSt) : RegsBut [UA_STAT n] s (s.modUart n f) := RegsBut.of_regs (RegsBut.refl _ s) rfl
  have hmodf (f : UartSt → UartSt) : Frame [.regs, .uarts] s (s.modUart n f) := (Frame.modUart s n f).mono (by decide)
  unfold State.uaStart
  dsimp only
  split
  next h4 =>
    refine ⟨?_, ?_, fun _ => ?_, (hmod _).trans ((hregs _ (UA_STAT.TX_BUSY n) true rfl).trans (hregs _ (UA_STAT.DE n) true rfl)),
      (hmodf _).trans ((hframe _ _ _).trans (hframe _ _ _))⟩
    · rw [State.uart_putFlag, State.uart_putFlag, State.uart_modUart, if_pos rfl]
    · exact (State.flag_put_other _ _ (by decide) (by decide)).trans (State.flag_putFlag_self _ (UA_STAT.TX_BUSY n) true rfl (by simp [UA_STAT.TX_BUSY]))
    · exact State.flag_putFlag_self _ (UA_STAT.DE n) true rfl (by simp [UA_STAT.DE])
  next h4 =>
    refine ⟨?_, State.flag_putFlag_self _ (UA_STAT.TX_BUSY n) true rfl (by simp [UA_STAT.TX_BUSY]), fun h => absurd h h4,
      (hmod _).trans (hregs _ (UA_STAT.TX_BUSY n) true rfl), (hmodf _).trans (hframe _ _ _)⟩
    rw [State.uart_putFlag, State.uart_modUart, if_pos rfl]

/-! ### UART_SEND and the settings (R246, R255, R258) -/

theorem State.uartSend_of_bad {s : State} {d : List Byte} (h : uartForm d = false ∨ s.uaChars (drefAt d 12) = none) :
    s.uartSend d = s.complete (descTag d) stBad 0 [] := by
  have hn : (if uartForm d = true then s.uaChars (drefAt d 12) else none) = none := by
    rcases h with h | h <;> simp [h]
  simp only [State.uartSend, hn]

/-- The characters that a UART_SEND sends: with ADDR_FIRST the first one has its ninth bit set. -/
def uartSent (d : List Byte) (l : List Nat) : List Nat := if bit (u8 d 9) 0 = true then modNth l 0 (fun c => c % 256 + 256) else l

theorem State.uartSend_of_sound {s : State} {d : List Byte} {l : List Nat} (h : uartForm d = true) (hl : s.uaChars (drefAt d 12) = some l) :
    s.uartSend d = if ¬ s.flag (UA_CFG.ENABLE (u8 d 8)) = true ∨ s.flag (UA_CFG.AUTOBAUD (u8 d 8)) = true then s.complete (descTag d) stNotPermitted 0 []
      else ((s.drefTake (drefAt d 12)).modUart (u8 d 8) (fun y => { y with sends := y.sends ++ [⟨descTag d, uartSent d l, 0⟩] })).uaKick (u8 d 8) := by
  have hn : (if uartForm d = true then s.uaChars (drefAt d 12) else none) = some l := by rw [if_pos h, hl]
  simp only [State.uartSend, hn, uartSent]

theorem exec_uartSend {s u : State} {d : List Byte} (h : Taken d s u) (h6 : u8 d 0 = 6) : exec .uartSend s = .next (u.uartSend d) :=
  next_taken h (decide_eq_true h6)

theorem exec_uaCfgWrite {who : Accessor} {u : Uart} {v : Word} {s : State} (hw : Writable s who (UA_CFG u.val)) :
    exec (.uaCfgWrite who u v) s = .next (s.writeUaCfg u.val v) := next_enter hw
theorem exec_baudWrite {who : Accessor} {u : Uart} {v : Word} {s : State} (hw : Writable s who (UA_BAUD u.val)) :
    exec (.baudWrite who u v) s = .next (s.writeUaBaud u.val v) := next_enter hw

/-- A write of UA_CFG, by AMATCH before and after. -/
theorem State.writeUaCfg_eq {s w : State} {u : Nat} {v : Word} (hw : w = (s.uaKeep u).merge (UA_CFG u) 0xFFC000FF v) :
    s.writeUaCfg u v = State.uaKick (State.uaFlow (if w.flag (UA_CFG.AMATCH u) = true ∧ ¬ s.flag (UA_CFG.AMATCH u) = true then w.putFlag (UA_STAT.MUTED u) true
      else if ¬ w.flag (UA_CFG.AMATCH u) = true then w.putFlag (UA_STAT.MUTED u) false else w) u) u := by
  simp only [State.writeUaCfg, ← hw]

/-- The divider that a write of UA_BAUD asks for: DIV_I 0 acts as 1. -/
theorem State.writeUaBaud_eq {s : State} {u d : Nat} {v : Word} (hd : d = if bits v.toNat 21 6 = 0 then bits v.toNat 21 0 + 64 else bits v.toNat 21 0) :
    s.writeUaBaud u v = if bit v.toNat 31 = true then (s.modUart u (fun y => { y with pend := some d })).putFlag (UA_BAUD.PEND u) true
      else ((s.uaKeep u).modUart u (fun y => { y with pend := none })).setReg (UA_BAUD u) (BitVec.ofNat 32 d) := by
  have hi : bits v.toNat 21 0 / 64 = bits v.toNat 21 6 := by
    simp only [bits_eq]
    omega
  simp only [State.writeUaBaud, hi, ← hd]

theorem exec_uartTxCharDone {u : Uart} {c : UaOut} {s v w x : State} (hc : (s.uart u.val).cur = some c)
    (hv : v = (s.modUart u.val (fun y => { y with cur := none, deaf := decide (u.val = 4), sends := y.sends.map (fun x =>
        if c.tag = some x.tag then { x with sent := x.sent + 1 } else x) })).putFlag (UA_STAT.TX_BUSY u.val) false)
    (hw : w = if c.flow = true then v.putFlag (UA_STAT.XOFF_TX u.val) (decide (c.data = 0x13)) else v)
    (hx : x = w.uaFinish ((w.uart u.val).sends.length + 1) u.val) : exec (.uartTxCharDone u) s = .next ((x.uaFlow u.val).uaKick u.val) := by
  show Host.Outcome.next _ = _
  simp only [hc, ← hv, ← hw, ← hx]

/-- Settles O38, by the branches of the transmitter and of each write. -/
theorem uartsSendAndTakeTheirSettings : Obligations.UartsSendAndTakeTheirSettings := by
  unfold Obligations.UartsSendAndTakeTheirSettings
  refine ⟨fun s u d l n ht h6 hf hn hl => ⟨fun h => ?_, fun h h' hb => ?_, fun h h' hb => ?_⟩, fun s u d ht h6 h => ?_,
    fun n c t s hc ho hf => State.uaKick_of_flow hc ho hf, fun n s x t hc ho hf hs hx => ⟨fun h => ?_, fun h => ?_⟩,
    fun n s h => State.uaKick_of_stopped h, fun n c tag s _ => ⟨_, rfl, s.uaStart_spec n c tag⟩,
    fun u c s v w x hc hv hw hx => exec_uartTxCharDone hc hv hw hx,
    fun n k s x t hs => ⟨fun hx => State.uaFinish_of_done hs hx, fun hx => State.uaFinish_of_open hs hx⟩, fun u s h => ?_,
    fun who u v s w hw hv => ⟨fun h h' => ?_, fun h => ?_, fun h h' => ?_⟩, fun n s => rfl, fun who u v s d hw hd => ⟨fun h => ?_, fun h => ?_⟩⟩
  · subst hn
    rw [exec_uartSend ht h6, State.uartSend_of_sound hf hl, if_pos (h.imp (by simp) id)]
  · subst hn
    rw [exec_uartSend ht h6, State.uartSend_of_sound hf hl, if_neg (by simp [h, h']), uartSent, if_neg (by simp [hb])]
  · subst hn
    rw [exec_uartSend ht h6, State.uartSend_of_sound hf hl, if_neg (by simp [h, h']), uartSent, if_pos hb]
  · rw [exec_uartSend ht h6, State.uartSend_of_bad h]
  · rw [State.uaKick_of_send hc ho hf hs hx, if_pos h]
  · rw [State.uaKick_of_send hc ho hf hs hx, if_neg]
    rintro ⟨h1, h2⟩
    rcases h with h | h <;> simp_all
  · exact congrArg Host.Outcome.next (if_pos (by rw [h]; rfl))
  · rw [exec_uaCfgWrite hw, State.writeUaCfg_eq hv, if_pos ⟨h', by simp [h]⟩]
  · rw [exec_uaCfgWrite hw, State.writeUaCfg_eq hv, if_neg (by simp [h]), if_pos (by simp [h])]
  · rw [exec_uaCfgWrite hw, State.writeUaCfg_eq hv, if_neg (by simp [h]), if_neg (by simp [h'])]
  · rw [exec_baudWrite hw, State.writeUaBaud_eq hd, if_pos h]
  · rw [exec_baudWrite hw, State.writeUaBaud_eq hd, if_neg (by simp [h])]

/-! ### UART reception (R247 to R251, R256) -/

theorem State.flag_modUart (s : State) (u : Nat) (f : UartSt → UartSt) (g : Fld) : (s.modUart u f).flag g = s.flag g := State.flag_of_reg rfl

theorem State.uart_count (s : State) (f : Fld) (n u : Nat) : (s.count f n).uart u = s.uart u := State.uart_of_uarts (State.count_uarts ..) u

/-- Off U4 a bit is the majority of its three samples. -/
theorem State.uaSense_of_plain {s : State} {u : Nat} (x : Sample3) (h : u ≠ 4) : s.uaSense u x =
    ⟨(x.s7 && x.s8) || (x.s7 && x.s9) || (x.s8 && x.s9), !((x.s7 == x.s8) && (x.s8 == x.s9)), !x.s7 && !x.s8 && !x.s9⟩ := by
  simp [State.uaSense, h]

theorem majority_iff (a b c : Bool) : ((a && b) || (a && c) || (b && c)) = true ↔ 2 ≤ b2n a + b2n b + b2n c := by
  cases a <;> cases b <;> cases c <;> decide

/-- On U4 in SIR a bit is 0 where the input was active for at least 2 UCLK. -/
theorem State.uaSense_of_sir {s : State} (x : Sample3) (h : s.flag (UA_OPT.SIR 4) = true) : s.uaSense 4 x =
    ⟨decide ((if s.flag (UA_OPT.RX_POL 4) = true then x.low else x.high) < 2), false,
      !decide ((if s.flag (UA_OPT.RX_POL 4) = true then x.low else x.high) < 2)⟩ := by
  simp [State.uaSense, h]

theorem State.padOpen_of_length {α : Type} (s : State) (m : Nat) (f : Nat → α) (l : List α) : s.padOpen l.length m f l = (l, s) := by
  induction l with
  | nil => rfl
  | cons x t ih => rw [List.length_cons, State.padOpen, ih]

/-- A character of full length, on a UART that hears its line. -/
theorem exec_uartCharRx_of_heard {u : Uart} {b : List Sample3} {early near : Bool} {s v : State} {x : UaSet} {l : List UaBit}
    (hh : s.uaHears u.val near = true) (ha : s.flag (UA_CFG.AUTOBAUD u.val) = false) (hs : s.flag (UA_STAT.LINE_STUCK u.val) = false)
    (hx : x = s.uaRxSet u.val early) (hb : b.length = x.bits) (hl : l = b.map (fun y => s.uaSense u.val y))
    (hv : v = s.modUart u.val (fun y => { y with rxOld := none, deaf := y.deaf && near })) :
    exec (.uartCharRx u b early near) s = .next (if l.all (·.low) = true then v.uaBreak u
      else if (l.headD ⟨true, false, false⟩).value = true then v else v.uaChar u x l (b.getLastD (openSample 0)).s9) := by
  have hp : s.padOpen x.bits 32 openSample b = (b, s) := by rw [← hb, State.padOpen_of_length]
  show Host.Outcome.next _ = _
  rw [if_neg (by simp [hh, ha, hs])]
  simp only [← hx, hp, ← hl, ← hv]

/-- What a word of received units does when it closes. -/
theorem State.uaStore_eq {u : Uart} {data : Nat} {p f n : Bool} {s v w x : State}
    (hv : v = if f = true then s.count (UA_CNT.FRAMING u.val) 1 else s) (hw : w = if p = true then v.count (UA_CNT.PARITY u.val) 1 else v)
    (hx : x = State.modUart (if n = true then w.count (UA_CNT.NOISE u.val) 1 else w) u.val (fun y => { y with units := y.units ++
      [data + 512 * b2n p + 1024 * b2n f + 2048 * b2n n] })) :
    s.uaStore u data p f n false = if (x.uart u.val).units.length = 15 then x.uaWord u false false else x := by
  have hz : data + 2 ^ 9 * b2n p + 2 ^ 10 * b2n f + 2 ^ 11 * b2n n + 2 ^ 12 * b2n false = data + 512 * b2n p + 1024 * b2n f + 2048 * b2n n := by
    simp [b2n]
  simp only [State.uaStore, ← hv, ← hw, hz, ← hx, Bool.false_eq_true, if_false]

theorem State.uart_stored {u : Uart} {data : Nat} {p f n : Bool} {s v w x : State}
    (hv : v = if f = true then s.count (UA_CNT.FRAMING u.val) 1 else s) (hw : w = if p = true then v.count (UA_CNT.PARITY u.val) 1 else v)
    (hx : x = State.modUart (if n = true then w.count (UA_CNT.NOISE u.val) 1 else w) u.val (fun y => { y with units := y.units ++
      [data + 512 * b2n p + 1024 * b2n f + 2048 * b2n n] })) : (x.uart u.val).units.length = (s.uart u.val).units.length + 1 := by
  have hcount (t : State) (b : Bool) (g : Fld) : (if b = true then t.count g 1 else t).uart u.val = t.uart u.val := by
    split
    · exact State.uart_count ..
    · rfl
  rw [hx, State.uart_modUart, if_pos rfl, hcount, hw, hcount, hv, hcount, List.length_append]
  rfl

/-- A character that is no flow character and no address is stored under its settings. -/
theorem State.uaFlowRx_of_plain {s : State} {u data : Nat} (h : s.flag (UA_FLOW.XEN u) = false ∨ (data ≠ 0x11 ∧ data ≠ 0x13)) :
    s.uaFlowRx u data = (true, s) := by
  rw [State.uaFlowRx, if_neg]
  rintro ⟨h1, h2⟩
  rcases h with h | h
  · simp [State.uaFlowOn, h] at h1
  · omega

theorem State.uaMute_of_plain {s : State} {u : Nat} (data : Nat) (bad : Bool) (h : s.flag (UA_CFG.NINE u) = false) : s.uaMute u data bad = (true, s) :=
  if_pos (by simp [h])

theorem parity_eq (odd : Bool) (n : Nat) : decide (n % 2 ≠ b2n odd) = decide (some odd = some (decide (n % 2 = 0))) := by
  rcases Nat.mod_two_eq_zero_or_one n with h | h <;> cases odd <;> simp [h, b2n]

/-- The measured divider is the nearest one, open where two are as near. -/
theorem State.abDiv_spec (s : State) (t : Nat) {n : Nat} (h : 0 < n) : 2 * n * (s.abDiv t n).1 ≤ 8 * t + n ∧ 8 * t ≤ 2 * n * (s.abDiv t n).1 + n := by
  have hd := Nat.div_add_mod (4 * t) n
  have hr : (s.free 2).1 < 2 := Nat.mod_lt _ (by decide)
  have h01 : (s.free 2).1 = 0 ∨ (s.free 2).1 = 1 := by omega
  simp only [State.abDiv]
  have hy := Nat.mod_lt (4 * t) h
  generalize 4 * t / n = q, 4 * t % n = y at hd hy
  have hmul : 2 * n * q = 2 * (n * q) := Nat.mul_assoc 2 n q
  have hsucc : 2 * n * (q + 1) = 2 * (n * q) + 2 * n := by rw [Nat.mul_add, hmul, Nat.mul_one]
  split
  · dsimp only; omega
  · split
    · dsimp only; omega
    · dsimp only
      rcases h01 with h0 | h0
      · rw [h0, Nat.add_zero]; omega
      · rw [h0]; omega

/-- Settles O37, by the bits, the character's judgement and the branches of each event. -/
theorem uartsReceiveCharacters : Obligations.UartsReceiveCharacters := by
  unfold Obligations.UartsReceiveCharacters
  refine ⟨fun u x s hu => ?_, fun x s h => ?_, fun u b early near s v x l hh ha hs hx hb hl hv => ⟨fun h => ?_, fun h h' => ?_, fun h h' => ?_⟩,
    fun u x l level s v data ones stop hn hf hst hd ho hv => ?_, fun u data p f n s v w x hv hw hx => ⟨fun h => ?_, fun h => ?_⟩,
    fun u eop rto last s v r hl hr hv => ?_, fun u s hh ha hs => ?_, fun u s v hv => ?_, fun u s => ?_, fun u s v hb hs hv => ?_,
    fun u s hs => ?_, fun u s v ho hr hs hn hv => ?_, fun u s h => ?_, fun u t s r d c hh ha hc hd h1 h2 => ?_, fun u t s r d hh ha hd => ?_,
    fun t n s h => ⟨_, _, rfl, s.abDiv_spec t h⟩⟩
  · rw [State.uaSense_of_plain x hu]
    refine ⟨majority_iff .., ?_, ?_⟩
    · simp
    · simp [and_assoc]
  · rw [State.uaSense_of_sir x h]
    refine ⟨rfl, ?_⟩
    rw [decide_eq_false_iff_not, Nat.not_lt]
  · rw [exec_uartCharRx_of_heard hh ha hs hx hb hl hv, if_pos h]
  · rw [exec_uartCharRx_of_heard hh ha hs hx hb hl hv, if_neg (by simp [h]), if_neg (by rw [h']; decide)]
  · rw [exec_uartCharRx_of_heard hh ha hs hx hb hl hv, if_neg (by simp [h]), if_pos h']
  · have hflag (f : Fld) (hf : f.addr ≠ UA_STAT u.val) : v.flag f = s.flag f := by
      rw [hv, State.putFlag, State.flag_of_reg (f := f) (State.reg_put_ne _ (UA_STAT.LINE u.val) _ hf), State.flag_modUart]
    have h9 : v.flag (UA_CFG.NINE u.val) = false := (hflag (UA_CFG.NINE u.val) (by simp only [UA_CFG.NINE, UA_CFG, UA_STAT]; omega)).trans hn
    have hx : v.flag (UA_FLOW.XEN u.val) = false ∨ (data ≠ 0x11 ∧ data ≠ 0x13) :=
      hf.imp_left (hflag (UA_FLOW.XEN u.val) (by simp only [UA_FLOW.XEN, UA_FLOW, UA_STAT]; omega)).trans
    rcases hp : x.parity with _ | odd
    · simp only [State.uaChar, hp, ← hv, ← hd, ← hst, reduceCtorEq, decide_false, State.uaFlowRx_of_plain hx, State.uaMute_of_plain _ _ h9,
        Bool.and_self, if_true]
    · simp only [State.uaChar, hp, ← hv, ← hd, ← ho, ← hst, parity_eq, State.uaFlowRx_of_plain hx, State.uaMute_of_plain _ _ h9, Bool.and_self, if_true]
  · rw [State.uaStore_eq hv hw hx, if_neg (by rw [State.uart_stored hv hw hx]; omega)]
  · rw [State.uaStore_eq hv hw hx, if_pos (by rw [State.uart_stored hv hw hx, h])]
  · simp only [State.uaWord, ← hl, State.uaQueue, ← hr, ← hv]
  · exact congrArg Host.Outcome.next (if_neg (by simp [hh, ha, hs]))
  · simp only [State.uaBreak, ← hv]
  · rfl
  · show Host.Outcome.next _ = _
    rw [if_neg (by simp [hb, hs])]
    simp only [← hv]
  · refine ⟨_, congrArg Host.Outcome.next (if_pos hs), ?_, ?_, ?_, ?_, ?_⟩
    · rw [State.flag_modUart]
      exact (State.flag_put_other _ _ (by decide) (by decide)).trans
        (State.flag_putFlag_self s (UA_STAT.LINE_STUCK u.val) false rfl (by simp [UA_STAT.LINE_STUCK]))
    · rw [State.flag_modUart]
      exact State.flag_putFlag_self _ (UA_STAT.LINE u.val) (s.urxIdle u.val) rfl (by simp [UA_STAT.LINE])
    · rw [State.uart_modUart, if_pos rfl]
    · refine RegsBut.of_regs ((RegsBut.put s (UA_STAT.LINE_STUCK u.val) (b2n false) (by simp [UA_STAT.LINE_STUCK])).trans
        (RegsBut.put _ (UA_STAT.LINE u.val) (b2n (s.urxIdle u.val)) (by simp [UA_STAT.LINE]))) rfl
    · exact (((Frame.putFlag s _ _).trans (Frame.putFlag _ _ _)).mono (by decide)).trans ((Frame.modUart _ _ _).mono (by decide))
  · show Host.Outcome.next _ = _
    rw [if_neg (by simp [ho, hr, hs])]
    simp only [← hv, if_pos (show (s.uart u.val).units ≠ [] ∨ _ from .inl hn)]
  · exact congrArg Host.Outcome.next (if_pos (.inr (.inl h)))
  · show Host.Outcome.next _ = _
    rw [if_neg (by simp [hh, ha])]
    simp only [hd, h1, h2, and_self, if_true, ← hc]
  · show Host.Outcome.next _ = _
    rw [if_neg (by simp [hh, ha])]
    simp only [hd, Bool.false_eq_true, false_and, if_false]

end Sys2Proof.Machine

/-! PROOFS. RST_N on a register map that is not canonical (O48). -/

namespace Sys2Proof.Machine

/-! ### RST_N on a register map that is not canonical (R299) -/

/-- A register map with two entries for PWR_MCYC, the first at its reset value. -/
def State.mcycTwice : State := { State.reset with regs := [(PWR_MCYC, 0), (PWR_MCYC, 1)], iron := { State.reset.iron with viron := true } }

theorem State.mcycTwice_before : State.mcycTwice.reg PWR_MCYC = 0 := by decide

theorem State.mcycTwice_kept : State.mcycTwice.regs.filterMap (keptReg false) = [(PWR_MCYC, 1)] := by decide

/-- RST_N drops the entry at the reset value and shows the other. -/
theorem State.mcycTwice_after : State.mcycTwice.resetPin.reg PWR_MCYC = 1 := by
  have hq : (State.mcycTwice.loseBanks.resetQuick false).regs = [(PWR_MCYC, 1)] := State.mcycTwice_kept
  simp only [State.resetPin]
  rw [State.reg_put_ne _ SYS_MODE.CAUSE _ (by decide), State.reg_put_ne _ SYS_MODE.PREV _ (by decide), State.putFlag, State.putFlag,
    State.reg_put_ne _ WD_STAT.PRES_LVL _ (by decide), State.reg_put_ne _ WD_STAT.PRES_OPEN _ (by decide), State.reg, hq]
  decide

/-- Refutes O48: a state whose register map lists PWR_MCYC twice, first at its reset value 0 and then at 1, reads 0 before RST_N and 1 after it,
since RST_N drops entries at their reset values. (Such a map is not canonical, and O57 keeps it from every run that starts at reset.) -/
theorem not_resetsSuppliesAndClocks : ¬ Obligations.ResetsSuppliesAndClocks := by
  unfold Obligations.ResetsSuppliesAndClocks
  rintro ⟨-, h, -⟩
  obtain ⟨t, hx, -, -, -, -, -, -, -, -, hm, -⟩ := h State.mcycTwice (by decide)
  have hs : exec .rstNAssert State.mcycTwice = .next State.mcycTwice.resetPin := congrArg Host.Outcome.next (if_pos (by decide))
  have ht : t = State.mcycTwice.resetPin := Host.Outcome.next.inj (hx.symm.trans hs)
  rw [ht, State.mcycTwice_after, State.mcycTwice_before] at hm
  exact absurd hm (by decide)

end Sys2Proof.Machine

/-! PROOFS. The pair of units (O51). -/

namespace Sys2Proof.Machine

/-! ### The pair (R314 to R326) -/

theorem State.leads_of_island {s : State} (h : s.island = true) : s.leads = false := by
  have hr : s.role = 2 ∧ s.mode = 8 := of_decide_eq_true h
  simp [State.leads, hr.1]

theorem State.takeHandoff_of_foreign {s : State} {d : List Byte} (num tag : Nat) (body : List Byte) (h1 : u8 d 0 = 1)
    (hl : s.ownLane (s.entLane (u16 d 8 - 1)) = none) :
    s.takeHandoff num tag d body = s.tell [.handed num (cplRec tag stNotPermitted (u8 d 0) 0 [])] := by
  simp only [State.takeHandoff, h1, if_true, hl]

theorem State.takeHandoff_of_malformed {s : State} {d : List Byte} {n : Nat} (num tag : Nat) (body : List Byte) (h1 : u8 d 0 = 1)
    (hl : s.ownLane (s.entLane (u16 d 8 - 1)) = some n) (hf : s.sendForm d = false) :
    s.takeHandoff num tag d body = s.tell [.handed num (cplRec tag stBad (u8 d 0) 0 [])] := by
  simp only [State.takeHandoff, h1, if_true, hl, hf, Bool.false_eq_true, not_false_eq_true]

theorem State.takeHandoff_of_send {s : State} {d : List Byte} {n : Nat} (num tag : Nat) (body : List Byte) (h1 : u8 d 0 = 1)
    (hl : s.ownLane (s.entLane (u16 d 8 - 1)) = some n) (hf : s.sendForm d = true) (hj : s.entState (u16 d 8 - 1) = 2)
    (ht : s.flag (LN_TXCFG.TX_EN n) = true) :
    s.takeHandoff num tag d body = s.runSend (1024 * (num + 1) + tag) tag (some num) d (u16 d 8 - 1) n body := by
  simp only [State.takeHandoff, h1, if_true, hl, hf, hj, ht, not_true_eq_false, if_false, ne_eq, or_self]

theorem State.takeHandoff_of_bcast (s : State) {d : List Byte} (num tag : Nat) (body : List Byte) (h : u8 d 0 = 2) :
    s.takeHandoff num tag d body = s.runBcast (1024 * (num + 1) + tag) tag (some num) d (u8 d 13)
      (((List.range 4).filter (fun p => bit (u8 d 8) (4 + p))).map (fun p => p * 64 + u8 d 12 % 64)) [] (bcastMac (u8 d 13) (bit (u8 d 10) 1) body) := by
  simp only [State.takeHandoff, h, OfNat.ofNat_ne_one, if_false]

theorem exec_handoffRx {h : BitVec 16} {tag : TagN} {d body : List Byte} {s : State} (hf : s.follower = true) (hl : s.linkUp = true) :
    exec (.handoffRx h tag d body) s = .next (s.takeHandoff h.toNat tag d body) := congrArg Host.Outcome.next (if_pos ⟨hf, hl⟩)

/-- A record that the far unit replays reaches the lead. -/
theorem exec_bufqRecordReplay_of_lead {r : List Byte} {live : List Nat} {s : State} (hl : s.linkUp = true) (h : s.leads = true) (hr : r ≠ []) :
    exec (.bufqRecordReplay r live) s = .next (s.farRecord r s.al.healing) := by
  show Host.Outcome.next _ = _
  rw [if_neg (by simp [hl]), if_pos h, if_pos hr]

theorem State.farRecord_of_completion {s : State} {r : List Byte} (j : Bool) (h : u8 r 0 = 0)
    (hc : s.al.handoffs.contains (u16 (recBody32 r) 0 % 1024, u16 r 2) = true) (hf : u16 r 2 ∉ s.al.fenced) :
    s.farRecord r j = s.endHandoff (u16 (recBody32 r) 0 % 1024) (u8 (recBody32 r) 2) (u32 (recBody32 r) 4) ((recBody32 r).drop 8) := by
  rw [State.farRecord, if_pos h]
  exact if_pos ⟨hc, hf⟩

theorem State.farRecord_of_stale {s : State} {r : List Byte} (j : Bool) (h : u8 r 0 = 0)
    (hc : s.al.handoffs.contains (u16 (recBody32 r) 0 % 1024, u16 r 2) = false ∨ u16 r 2 ∈ s.al.fenced) : s.farRecord r j = s := by
  rw [State.farRecord, if_pos h]
  refine if_neg (fun hx => ?_)
  rcases hc with hc | hc
  · exact absurd (hx.1.symm.trans hc) (by decide)
  · exact hx.2 hc

theorem State.farRecord_of_event (s : State) {r : List Byte} (j : Bool) (h : u8 r 0 ≠ 0) (he : u8 (recBody32 r) 0 ≠ 1) :
    s.farRecord r j = s.ringEvent (recBody32 r) := by
  rw [State.farRecord, if_neg h]
  exact if_pos he

theorem State.farRecord_of_frame (s : State) {r : List Byte} (h : u8 r 0 ≠ 0) (he : u8 (recBody32 r) 0 = 1) :
    s.farRecord r false = s.farFrame r := by
  rw [State.farRecord, if_neg h, State.farEvent, if_neg (by simp [he])]
  rfl

/-- PROMOTE is the one field of AL_CTL, and RWP. -/
theorem regFind_AL_CTL : (regFind AL_CTL).map (fun x => x.1.fields) = some [⟨31, 31, .rwp⟩] := by decide

theorem State.refusedFields_AL_CTL (s : State) : s.refusedFields .host AL_CTL = if s.presence = true then [] else [⟨31, 31, .rwp⟩] := by
  obtain ⟨d, hd, hf⟩ := Option.map_eq_some_iff.mp regFind_AL_CTL
  cases hp : s.flag WD_STAT.PRES_OPEN <;> simp [State.refusedFields, hd, hf, State.presence, hp]

/-- A write that leaves PROMOTE at 0 passes the gate. -/
theorem State.gate_AL_CTL_of_zero {s : State} {v : Word} (hv : bit v.toNat 31 = false) (hp : s.flag AL_CTL.PROMOTE = false) :
    (s.gate .host AL_CTL v) = (v, s) := by
  cases h : s.presence
  case true => exact State.gate_of_open v (by rw [State.refusedFields_AL_CTL, if_pos h])
  case false =>
    have hb : bits (s.reg AL_CTL).toNat 31 31 = bits v.toNat 31 31 := by
      have h1 : bits (s.reg AL_CTL).toNat 31 31 = 0 := by simpa [State.flag, State.get, AL_CTL.PROMOTE] using hp
      have h2 : bits v.toNat 31 31 ≠ 1 := of_decide_eq_false hv
      simp only [bits] at h1 h2 ⊢
      omega
    simp only [State.gate, State.refusedFields_AL_CTL, h, Bool.false_eq_true, if_false, List.foldl_cons, List.foldl_nil, hb, putBits_bits,
      ofNat_toNat_word, List.filter_cons, ne_eq, not_true_eq_false, decide_false, List.filter_nil, List.isEmpty_nil, if_true]

theorem exec_promote_of_island {v : Word} {s : State} (h : s.island = true) : exec (.promote v) s = .next (s.writeAlCtl .host v) :=
  congrArg Host.Outcome.next (if_pos (.inl h))

theorem State.writeAlCtl_of_promote {s : State} {v : Word} (hi : s.island = true) (hp : s.presence = true) (hv : bit v.toNat 31 = true) :
    s.writeAlCtl .host v = s.promoted := by
  simp only [State.writeAlCtl, State.gate_of_open v ((State.refusedFields_AL_CTL s).trans (if_pos hp)), hv, hi, and_self, if_true]

theorem State.writeAlCtl_of_zero {s : State} {v : Word} (hv : bit v.toNat 31 = false) (hp : s.flag AL_CTL.PROMOTE = false) :
    s.writeAlCtl .host v = s := by
  simp only [State.writeAlCtl, State.gate_AL_CTL_of_zero hv hp, hv, Bool.false_eq_true, false_and, if_false]

/-- Settles O51, command by command. -/
theorem pairSharesWorkAndHeals : Obligations.PairSharesWorkAndHeals := by
  unfold Obligations.PairSharesWorkAndHeals
  refine ⟨?_, ?_, ?_, ?_, ?_, ?_, ?_, ?_, ?_, ?_, ?_, ?_⟩
  · intro i part v s hp hl hi
    refine ⟨fun hh => ?_, fun hh => ?_⟩
    · show Host.Outcome.next _ = _
      rw [if_neg (by simp [hp, hl, hi]), if_neg (by simp [hh])]
    · show Host.Outcome.next _ = _
      rw [if_neg (by simp [hp, hl, hi]), if_pos hh]
  · intro fr s hp hl
    exact ⟨_, congrArg Host.Outcome.next (if_pos ⟨hp, hl⟩), rfl, rfl, rfl, rfl, rfl⟩
  · rintro h tag d body s i hf hl h1 rfl
    refine ⟨fun ho => ?_, fun n ho hs => ?_, fun n ho hs hj ht => ?_⟩ <;> rw [exec_handoffRx hf hl]
    · rw [State.takeHandoff_of_foreign _ _ _ h1 ho]
    · rw [State.takeHandoff_of_malformed _ _ _ h1 ho hs]
    · rw [State.takeHandoff_of_send _ _ _ h1 ho hs hj ht]
  · rintro h tag d body s l hf hl h2 rfl
    rw [exec_handoffRx hf hl, State.takeHandoff_of_bcast _ _ _ _ h2]
  · rintro r live s c hl hd hr h0 rfl
    refine ⟨fun hc hf => ?_, fun hc => ?_⟩ <;> rw [exec_bufqRecordReplay_of_lead hl hd hr]
    · exact congrArg _ (State.farRecord_of_completion _ h0 hc hf)
    · rw [State.farRecord_of_stale _ h0 hc]
  · rintro r live s c hl hd hr h0 rfl he
    rw [exec_bufqRecordReplay_of_lead hl hd hr, State.farRecord_of_event _ _ h0 he, recBody32]
  · rintro r live s c p hl hd hr h0 rfl he hh rfl
    rw [exec_bufqRecordReplay_of_lead hl hd hr, hh, State.farRecord_of_frame _ h0 he]
    rfl
  · intro live s hl hd hh
    show Host.Outcome.next _ = _
    rw [if_neg (by simp [hl]), if_pos hd, if_neg (by simp), if_pos hh]
  · intro r live s hl hi hh
    have hi' : s.island = true ∧ s.al.healing = true := ⟨hi, hh⟩
    have hd : ¬ s.leads = true := by simp [State.leads_of_island hi]
    refine ⟨fun hr hb => ?_, fun hr => ?_⟩
    · show Host.Outcome.next _ = _
      rw [if_neg (by simp [hl]), if_neg hd, if_pos hi', if_neg hr, if_pos hb]
    · show Host.Outcome.next _ = _
      rw [if_neg (by simp [hl]), if_neg hd, if_pos hi', if_pos hr]
  · intro part own far acted lead
    refine ⟨fun h h6 => ?_, fun h => ?_⟩
    · rw [reconciled, if_neg h6, if_pos h]
    · rw [reconciled, if_neg (by omega), if_neg (by omega), if_neg (by omega)]
  · intro v s hi hp hv
    rw [exec_promote_of_island hi, State.writeAlCtl_of_promote hi hp hv]
  · intro v s hi hv hp
    rw [exec_promote_of_island hi, State.writeAlCtl_of_zero hv hp]

end Sys2Proof.Machine

/-! PROOFS. Registers that telling an event leaves alone. -/

namespace Sys2Proof.Machine

/-! ### Registers that placing words, events and counts leaves alone -/

/-- A register that neither the pool, nor the rings, nor the cores' events, nor the counters write. -/
structure Quiet (a : Nat) : Prop where
  ecc : ∀ b, a ≠ QP_ECC (bits b 23 20)
  last : a ≠ QP_ECC_LAST
  pool : a ≠ QP_EVT
  core : ∀ k, a ≠ SEQ_EV k
  link : a ≠ AL_CNT
  lost : a ≠ HP_EV_LOST
  idx : a ≠ HP_EV_IDX
  ovf : ∀ k, a ≠ (ovfBit k).addr

theorem bits_23_20_lt (b : Nat) : bits b 23 20 < 16 := Nat.mod_lt _ (by decide)

theorem ovfBit_addr (k : Nat) : (ovfBit k).addr = PM_OVF_LO ∨ (ovfBit k).addr = PM_OVF_HI := by
  unfold ovfBit
  split
  · exact .inl rfl
  · exact .inr rfl

/-- The mode, the mains cycles, the alloy link's state, the radio's settings and the epoch are quiet. -/
theorem quiet_of_mem {a : Nat} (h : a ∈ [SYS_MODE, PWR_MCYC, AL_STAT, RF_CFG, LK_EPOCH]) : Quiet a := by
  simp only [List.mem_cons, List.not_mem_nil, or_false, SYS_MODE, PWR_MCYC, AL_STAT, RF_CFG, LK_EPOCH] at h
  refine ⟨fun b => ?_, ?_, ?_, fun k => ?_, ?_, ?_, ?_, fun k => ?_⟩
  · have := bits_23_20_lt b
    simp only [QP_ECC]
    omega
  · simp only [QP_ECC_LAST]; omega
  · simp only [QP_EVT]; omega
  · simp only [SEQ_EV]; omega
  · simp only [AL_CNT]; omega
  · simp only [HP_EV_LOST]; omega
  · simp only [HP_EV_IDX]; omega
  · have := ovfBit_addr k
    simp only [PM_OVF_LO, PM_OVF_HI] at this
    omega

/-- The pool keeps register `a`, and the event bits it asks for are bits of QP_EVT. -/
structure Hushed (a : Nat) (s : State) (p : State × List PoolNote) : Prop where
  reg : p.1.reg a = s.reg a
  evts : ∀ f, PoolNote.evt f ∈ p.2 → f.addr = QP_EVT

theorem Hushed.nil {a : Nat} {s t : State} (h : t.reg a = s.reg a) : Hushed a s (t, []) := ⟨h, by simp⟩

theorem Hushed.append {a : Nat} {s t u : State} {l m : List PoolNote} (h : Hushed a s (t, l)) (h' : Hushed a t (u, m)) : Hushed a s (u, l ++ m) :=
  ⟨h'.reg.trans h.reg, fun f hf => (List.mem_append.mp hf).elim (h.evts f) (h'.evts f)⟩

/-- What comes after may change anything but the register. -/
theorem Hushed.keep {a : Nat} {s t u : State} {l : List PoolNote} (h : Hushed a s (t, l)) (hu : u.reg a = t.reg a) : Hushed a s (u, l) :=
  ⟨hu.trans h.reg, h.evts⟩

/-- And what comes before. -/
theorem Hushed.after {a : Nat} {s t : State} {p : State × List PoolNote} (h : Hushed a t p) (hs : t.reg a = s.reg a) : Hushed a s p :=
  ⟨h.reg.trans hs, h.evts⟩

theorem Hushed.ite {a : Nat} {s : State} {c : Prop} [Decidable c] {x y : State × List PoolNote} (hx : Hushed a s x) (hy : Hushed a s y) :
    Hushed a s (if c then x else y) := by split <;> assumption

theorem Hushed.ite_snd {α : Type} {a : Nat} {s : State} {c : Prop} [Decidable c] {x y : α × State × List PoolNote} (hx : Hushed a s x.2)
    (hy : Hushed a s y.2) : Hushed a s (if c then x else y).2 := by split <;> assumption

/-- One more event of the pool. -/
theorem Hushed.evt {a : Nat} {s t : State} {l : List PoolNote} {f : Fld} (h : Hushed a s (t, l)) (hf : f.addr = QP_EVT) :
    Hushed a s (t, l ++ [.evt f]) :=
  h.append ⟨rfl, fun g hg => by rw [List.mem_singleton] at hg; injection hg with hg; rw [hg, hf]⟩

theorem State.reg_setOpen (s : State) (o : OpenPkt) (a : Nat) : (s.setOpen o).reg a = s.reg a := rfl

theorem State.reg_modQueue (s : State) (q : Nat) (f : QueueSt → QueueSt) (a : Nat) : (s.modQueue q f).reg a = s.reg a := rfl

theorem State.reg_endOpen (s : State) (o : OpenPkt) (a : Nat) : (s.endOpen o).reg a = s.reg a := by
  simp only [State.endOpen]
  split <;> rfl

theorem State.reg_refuseWord (s : State) (prod : Producer) (q : Nat) (d : Doom) (eop : Bool) (a : Nat) :
    (s.refuseWord prod q d eop).2.reg a = s.reg a := by
  simp only [State.refuseWord]
  split
  · exact State.reg_endOpen ..
  · rfl

theorem State.marks_hushed (s : State) (q before a : Nat) : Hushed a s (s.marks q before) :=
  .ite ⟨rfl, fun f hf => by revert hf; dsimp only; split_ifs <;> simp⟩ (.nil rfl)

/-- What a word that was placed, or refused, does to the watermarks comes last. -/
theorem Hushed.marked {a : Nat} {s u : State} {t : State × List PoolNote} {l : List PoolNote} (h : Hushed a s t) (hm : Hushed a t.1 (u, l))
    (q before : Nat) : Hushed a s ((u.marks q before).1, t.2 ++ l ++ (u.marks q before).2) := (h.append hm).append (State.marks_hushed ..)

section
variable {a : Nat} (ha : Quiet a)
include ha

theorem State.eccRead_hushed (s : State) (b : Nat) (e : Ecc) : Hushed a s (s.eccRead b e) := by
  unfold State.eccRead
  split
  · exact .nil rfl
  · exact .ite (.nil rfl) ⟨State.reg_put_ne _ _ _ (ha.ecc _), by simp⟩
  · refine .ite (.nil rfl) ⟨(State.reg_put_ne _ _ _ ha.last).trans (State.reg_put_ne _ _ _ (ha.ecc _)), ?_⟩
    simp [QP_EVT.POISON]
  · exact .nil rfl

theorem State.eccWords_hushed (l : List Nat) (s : State) : Hushed a s (s.eccWords l) := by
  induction l generalizing s with
  | nil => exact .nil rfl
  | cons b t ih => exact (State.eccRead_hushed ha s b .clean).append (ih _)

theorem State.takeCellFuel_hushed (n : Nat) (s : State) : Hushed a s (State.takeCellFuel n s).2 := by
  induction n generalizing s with
  | zero => exact .nil rfl
  | succ n ih =>
    exact .ite_snd (.nil rfl) (.ite_snd (((State.eccRead_hushed ha _ _ _).append (ih _)).after rfl) ((State.eccRead_hushed ha _ _ _).after rfl))

theorem State.takeCell_hushed (s : State) : Hushed a s s.takeCell.2 := by
  have h := State.takeCellFuel_hushed ha s.freeCells s
  simp only [State.takeCell]
  split
  · exact h.evt rfl
  · exact h.append (.nil rfl)

theorem State.touch_hushed (s : State) (q : Nat) : Hushed a s (s.touch q) :=
  .ite (.nil rfl) (.ite (((State.eccWords_hushed ha _ s).evt (f := QP_EVT.QUEUE_BROKEN) rfl).keep (State.reg_modQueue ..))
    (State.eccWords_hushed ha _ s))

theorem State.placeOpen_hushed (s : State) (o : OpenPkt) (w : Line) : Hushed a s (s.placeOpen o w).2 := by
  have h := State.takeCell_hushed ha s
  unfold State.placeOpen
  refine .ite_snd (.nil rfl) (.ite_snd (.ite_snd (.nil rfl) ?_) (.nil (State.reg_setWord ..)))
  split
  next he => rw [he] at h; exact h.keep rfl
  next he => rw [he] at h; exact h.keep (State.reg_setWord ..)

theorem State.placeAll_hushed (ws : List Line) (s : State) (o : OpenPkt) : Hushed a s (s.placeAll o ws).2 := by
  induction ws generalizing s o with
  | nil => exact .nil rfl
  | cons w t ih => exact ((State.placeOpen_hushed ha s o w).keep (State.reg_setOpen ..)).append (ih _ _)

theorem State.placeStream_hushed (s : State) (q : Nat) (w : Line) : Hushed a s (s.placeStream q w).2 := by
  have h := State.takeCell_hushed ha s
  unfold State.placeStream
  refine .ite_snd (.nil (State.reg_of_regs rfl a)) (.ite_snd (.nil rfl) ?_)
  split
  next he => rw [he] at h; exact h.keep rfl
  next he => rw [he] at h; exact h.keep (State.reg_of_regs rfl a)

theorem State.placeStreams_hushed (q : Nat) (ws : List Line) (s : State) : Hushed a s (s.placeStreams q ws).2 := by
  induction ws generalizing s with
  | nil => exact .nil rfl
  | cons w t ih => exact (State.placeStream_hushed ha s q w).append (ih _)

theorem State.putWord_hushed (s : State) (prod : Producer) (q : Nat) (w : Line) : Hushed a s (s.putWord prod q w).2 := by
  have h := State.touch_hushed ha s q
  unfold State.putWord
  generalize s.touch q = p at h ⊢
  obtain ⟨t, l⟩ := p
  have hr (u : State) (d : Doom) (eop : Bool) (hu : u.reg a = t.reg a) := (State.reg_refuseWord u prod q d eop a).trans hu
  extract_lets _ v x eop before done _ _ _ _ _ _ _ _ _ r o1 s1 c
  split
  · exact (h.keep (hr _ _ _ rfl)).evt (f := QP_EVT.UNCAST_WRITE) rfl
  split
  · exact .ite_snd (h.keep rfl) (h.keep (hr _ _ _ rfl))
  split
  · exact .ite_snd (h.keep rfl) (h.marked (.nil (hr _ _ _ (State.reg_modQueue ..))) _ _)
  split
  · exact .ite_snd (h.marked ((State.placeStreams_hushed ha _ _ _).after (State.reg_setOpen ..)) _ _)
      (h.marked (State.placeStream_hushed ha _ _ _) _ _)
  have hp : Hushed a t r.2 :=
    .ite_snd (.nil rfl) (.ite_snd ((State.placeAll_hushed ha _ _ _).after (State.reg_setOpen ..)) ((State.placeAll_hushed ha _ _ _).after (State.reg_setOpen ..)))
  have h1 : Hushed a t (s1, r.2.2) := hp.keep (State.reg_setOpen ..)
  have hc : Hushed a s1 c := ⟨State.reg_of_regs rfl a, by simp [c, State.commit]⟩
  exact .ite_snd (.ite_snd (h.marked (h1.keep (State.reg_endOpen ..)) _ _) (h.marked (h1.append hc) _ _)) (h.marked h1 _ _)

theorem State.putWords_hushed (prod : Producer) (q : Nat) (ws : List Line) (s : State) : Hushed a s (s.putWords prod q ws).2 := by
  induction ws generalizing s with
  | nil => exact .nil rfl
  | cons w t ih =>
    cases t with
    | nil => exact State.putWord_hushed ha s prod q w
    | cons v t => exact (State.putWord_hushed ha s prod q w).append (ih _)

theorem State.putPacket_hushed (s : State) (prod : Producer) (q : Nat) (l : List Byte) : Hushed a s (s.putPacket prod q l).2 :=
  State.putWords_hushed ha prod q _ s

end

/-! ### Notes -/

/-- A note that sets no bit of register `a`. -/
def Note.Spares (a : Nat) (n : Note) : Prop := (∀ f, n = .pool (.evt f) → f.addr ≠ a) ∧ ∀ f more, n = .bit f more → f.addr ≠ a

theorem Note.spares_event (a : Nat) (rec : List Byte) (q : Nat) (body : List Byte) : Note.Spares a (.event rec q body) := ⟨nofun, nofun⟩

theorem Note.spares_bit {a : Nat} {f : Fld} (h : f.addr ≠ a) (more : List Byte) : Note.Spares a (.bit f more) :=
  ⟨nofun, fun _ _ hg => by injection hg with hg; exact hg ▸ h⟩

/-- A note keeps register `a`, and the notes it makes spare it. -/
structure Spared (a : Nat) (s : State) (p : State × List Note) : Prop where
  reg : p.1.reg a = s.reg a
  notes : ∀ n ∈ p.2, Note.Spares a n

theorem Spared.nil {a : Nat} {s t : State} (h : t.reg a = s.reg a) : Spared a s (t, []) := ⟨h, by simp⟩

theorem Spared.one {a : Nat} {s t : State} {n : Note} (h : t.reg a = s.reg a) (hn : Note.Spares a n) : Spared a s (t, [n]) :=
  ⟨h, by simpa using hn⟩

theorem Spared.ite {a : Nat} {s : State} {c : Prop} [Decidable c] {x y : State × List Note} (hx : Spared a s x) (hy : Spared a s y) :
    Spared a s (if c then x else y) := by split <;> assumption

theorem State.reg_signalCores (s : State) (a : Nat) : s.signalCores.reg a = s.reg a :=
  foldState_keeps (fun t => t.reg a = s.reg a) _ _ (fun _ _ h => (State.reg_modCore ..).trans h) s rfl

section
variable {a : Nat} (ha : Quiet a)
include ha

theorem State.reg_coreEvent_quiet (s : State) (k b : Nat) : (s.coreEvent k b).reg a = s.reg a := State.reg_coreEvent_ne _ _ _ (ha.core k)

theorem State.reg_ringEvent_quiet (s : State) (rec : List Byte) : (s.ringEvent rec).reg a = s.reg a :=
  State.reg_ringEvent_ne _ _ ha.idx ha.lost

theorem State.keepRecord_spared (s : State) (kind n : Nat) (rec body : List Byte) : Spared a s (s.keepRecord kind n rec body) := by
  unfold State.keepRecord
  split
  · exact .nil (State.reg_put_ne _ _ _ ha.link)
  · next q _ =>
    extract_lets r
    have h : Hushed a s r.2 := State.putPacket_hushed ha ..
    refine ⟨?_, fun n hn => ?_⟩
    · split
      · exact h.reg
      · exact (State.reg_put_ne _ _ _ ha.link).trans h.reg
    · obtain ⟨m, hm, rfl⟩ := List.mem_map.mp hn
      exact ⟨fun f hf => by injection hf with hf; exact (h.evts f (hf ▸ hm)).trans_ne ha.pool.symm, nofun⟩

theorem State.note_spared (s : State) {n : Note} (hn : n.Spares a) : Spared a s (s.note n) := by
  unfold State.note
  split
  · exact .ite (.one rfl (Note.spares_event ..)) (.ite (.nil (State.reg_coreEvent_quiet ha ..)) (.nil rfl))
  · exact .ite (.one rfl (Note.spares_event ..)) (.ite (.nil (State.reg_coreEvent_quiet ha ..)) (.nil rfl))
  · exact .one rfl (Note.spares_bit (hn.1 _ rfl) _)
  · exact .one rfl ⟨nofun, nofun⟩
  · next f more =>
    have hf : (s.putFlag f true).reg a = s.reg a := State.reg_put_ne _ _ _ (hn.2 f more rfl).symm
    refine .ite (.nil rfl) ⟨hf, fun m hm => ?_⟩
    dsimp only at hm
    split at hm
    · rw [List.mem_singleton] at hm
      exact hm ▸ Note.spares_event ..
    · cases hm
  · exact .ite (.nil rfl) (.ite (State.keepRecord_spared ha ..) (.nil (State.reg_ringEvent_quiet ha ..)))
  · exact .ite (State.keepRecord_spared ha ..) (.nil rfl)
  · refine .ite (.nil rfl) ⟨rfl, fun m hm => ?_⟩
    obtain ⟨k, -, rfl⟩ := List.mem_map.mp hm
    exact ⟨nofun, nofun⟩
  · next k n =>
    extract_lets c _ s1 f s2 s3
    have h2 : s2.reg a = s.reg a := by
      dsimp only [s2]
      split
      · exact State.reg_signalCores s1 a
      · rfl
    refine .ite (.nil rfl) (.ite (.nil h2) ⟨(State.reg_put_ne _ _ _ (ha.ovf k)).trans h2, fun m hm => ?_⟩)
    dsimp only at hm
    split at hm
    · rw [List.mem_singleton] at hm
      exact hm ▸ Note.spares_event ..
    · cases hm

theorem State.reg_tellFuel_quiet (n : Nat) (l : List Note) (s : State) (hl : ∀ n ∈ l, Note.Spares a n) : (State.tellFuel n s l).reg a = s.reg a := by
  induction n generalizing s l with
  | zero => rfl
  | succ n ih =>
    cases l with
    | nil => rfl
    | cons x t =>
      have h := State.note_spared ha s (hl x (List.mem_cons_self ..))
      refine (ih _ _ fun m hm => ?_).trans h.reg
      exact (List.mem_append.mp hm).elim (h.notes m) (fun hm => hl m (List.mem_cons_of_mem _ hm))

/-- Setting an event bit keeps every quiet register but its own. -/
theorem State.reg_setEvt_quiet (s : State) {f : Fld} (h : f.addr ≠ a) : (s.setEvt f).reg a = s.reg a :=
  State.reg_tellFuel_quiet ha _ _ _ (by simpa using Note.spares_bit h _)

/-- An event keeps every quiet register. -/
theorem State.reg_event_quiet (s : State) (kind status source info : Nat) (detail : List Byte) :
    (s.event kind status source info detail).reg a = s.reg a :=
  State.reg_tellFuel_quiet ha _ _ _ (by simpa using Note.spares_event ..)

end

theorem State.mode_setEvt (s : State) {f : Fld} (h : f.addr ≠ SYS_MODE) : (s.setEvt f).mode = s.mode :=
  State.get_of_reg (f := SYS_MODE.MODE) (State.reg_setEvt_quiet (quiet_of_mem (a := SYS_MODE) (by simp)) s h)

theorem State.reg_AL_STAT_setEvt (s : State) {f : Fld} (h : f.addr ≠ AL_STAT) : (s.setEvt f).reg AL_STAT = s.reg AL_STAT :=
  State.reg_setEvt_quiet (quiet_of_mem (by simp)) s h

theorem State.role_setEvt (s : State) {f : Fld} (h : f.addr ≠ AL_STAT) : (s.setEvt f).role = s.role :=
  State.get_of_reg (f := AL_STAT.ROLE) (s.reg_AL_STAT_setEvt h)

end Sys2Proof.Machine

/-! PROOFS. The alloy link (O50). -/

namespace Sys2Proof.Machine

/-! ### The alloy link (R316 to R322) -/

theorem exec_heartbeatRx {b : Beat} {s : State} (h : s.alloyOn = true) : exec (.heartbeatRx b) s = .next (s.beat b) :=
  congrArg Host.Outcome.next (if_pos h)

theorem clampNat_eq (n x : Nat) : clampNat n x = min n x := by
  simp only [clampNat]
  split <;> omega

/-- One beat more in a row, with no miss. -/
def State.beaten (s : State) : State := State.put { s with al := { s.al with beats := min 16 (s.al.beats + 1) } } AL_STAT.MISSES 0

theorem State.beat_of_conflict {s : State} {b : Beat} (h : s.pairs b = false) :
    s.beat b = (s.beaten.put AL_STAT.LINK 3).setEvt AL_EVT.ROLE_CONFLICT := by
  simp only [State.beat, h, clampNat_eq, Bool.false_eq_true, not_false_eq_true, if_true]
  rfl

theorem State.beat_of_up {s : State} {b : Beat} (h : s.pairs b = true) (hl : s.linkUp = true) :
    s.beat b = if s.role = 2 then s.beaten.put LK_EPOCH.EPOCH b.epoch.toNat else s.beaten := by
  simp only [State.beat, h, hl, clampNat_eq, not_true_eq_false, if_false, if_true, State.beaten]

theorem State.beat_of_down {s : State} {b : Beat} (h : s.pairs b = true) (hl : s.linkUp = false) :
    s.beat b = if 15 ≤ s.al.beats ∧ b.heard = true then s.beaten.becomeUp b else s.beaten.put AL_STAT.LINK 1 := by
  have hb : (16 ≤ s.beaten.al.beats ∧ b.heard = true) = (15 ≤ s.al.beats ∧ b.heard = true) := by
    show (16 ≤ min 16 (s.al.beats + 1) ∧ _) = _
    rw [show (16 ≤ min 16 (s.al.beats + 1)) = (15 ≤ s.al.beats) from propext (by omega)]
  simp only [State.beat, h, hl, clampNat_eq, not_true_eq_false, Bool.false_eq_true, if_false]
  exact if_congr (Iff.of_eq hb) rfl rfl

/-- Two units pair as R318 says: opposite straps, no promotion, equal sizes, and equal beacon periods where both enable the port. -/
theorem State.pairs_iff (b : Beat) (s : State) : s.pairs b = true ↔ ((b.lead ≠ s.strapLead) ∧ b.promoted = false ∧ s.role ≠ 3 ∧
    b.entries = s.entries ∧ ∀ x ∈ ((List.range 4).map (fun p => if s.flag (LP_CFG.ENABLE p) = true then some (s.get (LP_BCN.PERIOD p)) else none)).zip
      b.periods, ∀ m n, x = (some m, some n) → m = n) := by
  simp only [State.pairs, Bool.and_eq_true, bne_iff_ne, ne_eq, Bool.not_eq_true', decide_eq_true_eq, List.all_eq_true, and_assoc]
  refine and_congr_right fun _ => and_congr_right fun _ => and_congr_right fun _ => and_congr_right fun _ => forall₂_congr fun x _ => ?_
  rcases x with ⟨_ | a, _ | c⟩ <;> simp

theorem State.loseLink_of_down {s : State} (c : Nat) (h : s.linkUp = false) : s.loseLink c = s := if_pos (by simp [h])

theorem State.follower_of {s t : State} (hr : t.role = s.role) (hm : t.mode = s.mode) : t.follower = s.follower := by
  simp only [State.follower, hr, hm]

/-- A loss of the link leaves the unit's part in the pair as it was. -/
theorem State.follower_linkLost (s : State) (c : Nat) :
    (((s.put AL_STAT.LINK 1).put AL_STAT.LOST_CAUSE c).setEvt AL_EVT.LINK_LOST).follower = s.follower := by
  have hp (t : State) (f : Fld) (v : Nat) (hf : f.addr = AL_STAT) : (t.put f v).mode = t.mode :=
    State.get_of_reg (f := SYS_MODE.MODE) (State.reg_put_ne t f v (by rw [hf]; decide))
  refine State.follower_of ?_ ?_
  · rw [State.role_setEvt _ (by decide)]
    exact (State.get_put_other _ c (by decide) (by decide) (by decide) (by decide)).trans
      (State.get_put_other _ 1 (by decide) (by decide) (by decide) (by decide))
  · rw [State.mode_setEvt _ (by decide), hp _ _ _ rfl, hp _ _ _ rfl]

theorem State.loseLink_of_up {s u : State} {c : Nat} (h : s.linkUp = true)
    (hu : u = ((s.put AL_STAT.LINK 1).put AL_STAT.LOST_CAUSE c).setEvt AL_EVT.LINK_LOST) :
    s.loseLink c = if s.follower = true then
      ((State.setMode { u with al := { u.al with beats := 0, healing := false, replica := [] } } 8 11).applyRate).followPorts
      else { u with al := { u.al with beats := 0, healing := false, replica := [] } } := by
  have hf : State.follower { u with al := { u.al with beats := 0, healing := false, replica := [] } } = s.follower :=
    (State.follower_of rfl rfl : _ = u.follower).trans (hu ▸ State.follower_linkLost s c)
  simp only [State.loseLink, h, not_true_eq_false, if_false, ← hu, hf]

theorem State.takeTiming_of_follower {s : State} {b : Beat} (h : s.role = 2) : s.takeTiming b =
    if s.reg PWR_MCYC = b.mcyc then (s.setReg PWR_MCYC b.mcyc).put LK_EPOCH.EPOCH b.epoch.toNat
    else ((s.setReg PWR_MCYC b.mcyc).put LK_EPOCH.EPOCH b.epoch.toNat).setEvt AL_EVT.CYC_SLIP := by
  by_cases hb : s.reg PWR_MCYC = b.mcyc <;> simp [State.takeTiming, h, hb]

theorem State.markDue_iff (s : State) :
    s.markDue = true ↔ ∀ c, s.al.lastMark = some c → max 1 (s.get AL_CFG.SYNC_CYC) ≤ (s.reg PWR_MCYC - c).toNat := by
  cases h : s.al.lastMark <;> simp [State.markDue, h]

theorem exec_heartbeatMiss {s : State} (h : s.alloyOn = true) : exec .heartbeatMiss s = .next (
    if 7 ≤ s.get AL_STAT.MISSES then (State.put { s with al := { s.al with beats := 0 } } AL_STAT.MISSES (min 8 (s.get AL_STAT.MISSES + 1))).loseLink 1
    else State.put { s with al := { s.al with beats := 0 } } AL_STAT.MISSES (min 8 (s.get AL_STAT.MISSES + 1))) := by
  show Host.Outcome.next _ = _
  simp only [h, not_true_eq_false, if_false, clampNat_eq]
  exact congrArg _ (if_congr (by omega) rfl rfl)

theorem exec_linkFrameCrcFail {n : Nat} {s : State} (h : s.alloyOn = true) : exec (.linkFrameCrcFail n) s = .next (
    if max 1 (s.get AL_CFG.CRC_BURST) ≤ n then (s.count AL_CNT.CRC_ERR 1).loseLink 2 else s.count AL_CNT.CRC_ERR 1) := by
  show Host.Outcome.next _ = _
  simp only [h, not_true_eq_false, if_false]

theorem Frame.setAl (s : State) (x : AlloySt) : Frame [.al] s { s with al := x } := fun c hc => by
  cases c
  case al => simp at hc
  case poison => exact ⟨rfl, rfl⟩
  all_goals rfl

/-- Settles O50, command by command. -/
theorem alloyLinkComesUpAndIsLost : Obligations.AlloyLinkComesUpAndIsLost := by
  unfold Obligations.AlloyLinkComesUpAndIsLost
  refine ⟨?_, ?_, ?_, ?_, ?_, ?_, ?_, ?_, ?_, ?_, ?_, ?_⟩
  · exact fun s h => congrArg Host.Outcome.next (if_pos h)
  · rintro b s u h rfl
    rw [← State.beaten]
    refine ⟨fun hp => ?_, fun hp hl hr => ?_, fun hp hl hr => ?_, fun hp hl hb => ?_, fun hp hl hb hh => ?_⟩ <;> rw [exec_heartbeatRx h]
    · rw [State.beat_of_conflict hp]
    · rw [State.beat_of_up hp hl, if_pos hr]
    · rw [State.beat_of_up hp hl, if_neg hr]
    · rw [State.beat_of_down hp hl, if_neg]
      rintro ⟨h1, h2⟩
      rcases hb with hb | hb
      · omega
      · exact absurd (hb.symm.trans h2) (by decide)
    · rw [State.beat_of_down hp hl, if_pos ⟨hb, hh⟩]
  · exact fun b s => State.pairs_iff b s
  · intro b s h
    have hm (t : State) : (t.put LK_EPOCH.EPOCH b.epoch.toNat).reg PWR_MCYC = t.reg PWR_MCYC := State.reg_put_ne _ _ _ (by decide)
    have he (t : State) : (t.put LK_EPOCH.EPOCH b.epoch.toNat).get LK_EPOCH.EPOCH = b.epoch.toNat :=
      (State.get_put_same t LK_EPOCH.EPOCH _ (by decide) (by decide)).trans (Nat.mod_eq_of_lt b.epoch.isLt)
    rw [State.takeTiming_of_follower h]
    split
    · exact ⟨(hm _).trans (State.reg_setReg_self ..), he _⟩
    · refine ⟨?_, ?_⟩
      · rw [State.reg_setEvt_quiet (quiet_of_mem (by simp)) _ (by decide), hm, State.reg_setReg_self]
      · rw [State.get_of_reg (f := LK_EPOCH.EPOCH) (State.reg_setEvt_quiet (quiet_of_mem (a := LK_EPOCH) (by simp)) _ (by decide)), he]
  · rintro s u h rfl
    rw [exec_heartbeatMiss h]
    exact ⟨fun hm => by rw [if_neg (by omega)], fun hm => by rw [if_pos hm]⟩
  · intro n s h
    rw [exec_linkFrameCrcFail h]
    exact ⟨fun hm => by rw [if_neg (by omega)], fun hm => by rw [if_pos hm]⟩
  · exact fun c s h => State.loseLink_of_down c h
  · intro c s u h hu
    rw [State.loseLink_of_up h hu]
    exact ⟨fun hf => if_neg (by simp [hf]), fun hf => if_pos hf⟩
  · exact fun s => State.markDue_iff s
  · intro s hl hu hh
    refine ⟨fun hm => congrArg Host.Outcome.next (if_pos ⟨hl, hu, by simp [hh], hm⟩), fun hm => congrArg Host.Outcome.next (if_neg (by simp [hm]))⟩
  · intro c s hu hh
    have hg : ¬ (¬ s.linkUp = true ∨ s.al.healing = true) := by simp [hu, hh]
    refine ⟨fun hf => ?_, fun hf hl hm => ?_, fun hf hm => ?_⟩ <;> show Host.Outcome.next _ = _ <;> rw [if_neg hg]
    · rw [if_pos hf]
    · rw [if_neg (by simp [hf]), if_pos ⟨hl, hm⟩]
    · rw [if_neg (by simp [hf]), if_neg (fun hx => hm hx.2)]
  · intro c s
    refine ⟨_, rfl, ?_, rfl, ?_, ?_⟩
    · exact (State.reg_put_ne _ _ _ (by decide)).trans (State.reg_setReg_self ..)
    · intro a ha
      have h1 : a ≠ AL_SYNC := fun h => ha (by simp [h])
      have h2 : a ≠ AL_STAT := fun h => ha (by simp [h])
      exact (State.reg_put_ne _ _ _ h2).trans (State.reg_setReg_ne _ _ h1)
    · exact ((Frame.setAl s _).mono (by simp)).trans (((Frame.setReg _ _ _).mono (by simp)).trans ((Frame.put _ _ _).mono (by simp)))

end Sys2Proof.Machine

/-! PROOFS. Modes, mains and temperature (O49). -/

namespace Sys2Proof.Machine

/-! ### Modes (R296 to R313) -/

/-- A mask keeps nothing of what is added outside it. -/
theorem and_mask_of_set {v k m : Word} (h : k &&& m = 0) : (v ||| k) &&& m = v &&& m := by
  ext i hi
  have hk : (k[i] && m[i]) = false := by simpa [BitVec.getLsbD_eq_getElem hi] using congrArg (fun x => x.getLsbD i) h
  rw [BitVec.getElem_and, BitVec.getElem_and, BitVec.getElem_or, Bool.and_or_distrib_right, hk, Bool.or_false]

/-- And what is taken outside it does not count. -/
theorem and_mask_of_cleared {v k m : Word} (h : k &&& m = m) : (v &&& k) &&& m = v &&& m := by rw [BitVec.and_assoc, h]

theorem State.merge_of_masked (s : State) {a m : Nat} {v w : Word} (h : v &&& BitVec.ofNat 32 m = w &&& BitVec.ofNat 32 m) :
    s.merge a m v = s.merge a m w := by rw [State.merge, State.merge, h]

/-- A write of SYS_CTL with REQUEST = 1. -/
theorem State.writeSysCtl_request (s : State) (who : Accessor) (v : Word) : s.writeSysCtl who (v ||| 0x80000000#32) =
    State.requestMode (if s.mode = 7 ∨ s.mode = 8 then (s.merge SYS_CTL 0x40000000 v).applyRate else s.merge SYS_CTL 0x40000000 v) who
      (bits v.toNat 3 0) := by
  have hm : s.merge SYS_CTL 0x40000000 (v ||| 0x80000000#32) = s.merge SYS_CTL 0x40000000 v := s.merge_of_masked (and_mask_of_set (by decide))
  have hu : (s.merge SYS_CTL 0x40000000 v).mode = s.mode := State.get_of_reg (f := SYS_MODE.MODE) (State.reg_setReg_ne _ _ (by decide))
  have hb : bit (v ||| 0x80000000#32).toNat 31 = true := by
    rw [bit_eq_testBit, BitVec.toNat_or, Nat.testBit_or, Bool.or_eq_true]
    exact .inr (by decide)
  have hn : bits (v ||| 0x80000000#32).toNat 3 0 = bits v.toNat 3 0 := by
    refine Nat.eq_of_testBit_eq fun i => ?_
    rw [testBit_bits, testBit_bits, BitVec.toNat_or, Nat.testBit_or]
    by_cases hi : i < 4
    · have : (0x80000000#32).toNat.testBit (0 + i) = false := by interval_cases i <;> rfl
      rw [this, Bool.or_false]
    · simp [hi]
  simp only [State.writeSysCtl, hm, hu, hb, hn, if_true]

/-- And with REQUEST = 0. -/
theorem State.writeSysCtl_select (s : State) (who : Accessor) (v : Word) : s.writeSysCtl who (v &&& 0x7FFFFFFF#32) =
    if s.mode = 7 ∨ s.mode = 8 then (s.merge SYS_CTL 0x40000000 v).applyRate else s.merge SYS_CTL 0x40000000 v := by
  have hm : s.merge SYS_CTL 0x40000000 (v &&& 0x7FFFFFFF#32) = s.merge SYS_CTL 0x40000000 v := s.merge_of_masked (and_mask_of_cleared (by decide))
  have hu : (s.merge SYS_CTL 0x40000000 v).mode = s.mode := State.get_of_reg (f := SYS_MODE.MODE) (State.reg_setReg_ne _ _ (by decide))
  have hb : bit (v &&& 0x7FFFFFFF#32).toNat 31 = false := by
    rw [bit_eq_testBit, BitVec.toNat_and, Nat.testBit_and, Bool.and_eq_false_iff]
    exact .inr (by decide)
  simp only [State.writeSysCtl, hm, hu, hb, Bool.false_eq_true, if_false]

theorem requestRow_iff {m t : Nat} (h : t < 16) :
    requestRow m t = true ↔ (m, t) ∈ [(4, 5), (4, 0), (4, 1), (5, 4), (5, 0), (5, 1), (6, 0), (6, 1), (9, 2)] := by
  simp only [List.mem_cons, Prod.mk.injEq, List.not_mem_nil, or_false]
  unfold requestRow
  split
  next => simp; omega
  next => simp; omega
  next => simp; omega
  next => simp
  next h4 h5 h6 h9 => simp [show m ≠ 4 from h4, show m ≠ 5 from h5, show m ≠ 6 from h6, show m ≠ 9 from h9]

theorem State.requestMode_of_loss {s : State} {who : Accessor} {t : Nat} (h : s.mode = 6) (h' : s.iron.lossAt = some s.iron.rtc) :
    s.requestMode who t = s.refuse who SYS_CTL stNotPermitted := if_pos ⟨h, h'⟩

/-- A request in a cycle in which the mains was not lost. -/
theorem State.requestMode_of_calm {s : State} {who : Accessor} {t : Nat} (h : s.mode = 6 → s.iron.lossAt ≠ some s.iron.rtc) (ht : t ≠ s.mode) :
    s.requestMode who t = if requestRow s.mode t = false ∨ (t = 5 ∧ s.hot = true) then s.refuse who SYS_CTL stNotPermitted
      else if t ≤ 1 then s.sleep t 6 else if t = 2 then s.backToAssay 6 (0, 2) else s.enterMode t 6 := by
  simp only [State.requestMode, ht, if_false, Bool.not_eq_true]
  exact if_neg (fun hx => h hx.1 hx.2)

/-- A request in a row of the table that no heat closes. -/
theorem State.requestMode_of_row {s : State} {who : Accessor} {t : Nat} (h : s.mode = 6 → s.iron.lossAt ≠ some s.iron.rtc) (ht : t ≠ s.mode)
    (hr : requestRow s.mode t = true) (hh : t = 5 → s.hot = false) :
    s.requestMode who t = if t ≤ 1 then s.sleep t 6 else if t = 2 then s.backToAssay 6 (0, 2) else s.enterMode t 6 := by
  rw [State.requestMode_of_calm h ht, if_neg]
  rintro (hx | ⟨h5, hx⟩)
  · exact absurd (hr.symm.trans hx) (by decide)
  · exact absurd ((hh h5).symm.trans hx) (by decide)

/-- A change of mode, before its event. -/
def State.moded (s : State) (m c : Nat) : State := ((s.put SYS_MODE.PREV s.mode).put SYS_MODE.CAUSE c).put SYS_MODE.MODE m

theorem State.mode_moded (s : State) {m : Nat} (c : Nat) (h : m < 16) : (s.moded m c).mode = m :=
  (State.get_put_same _ SYS_MODE.MODE m (by decide) (by decide)).trans (Nat.mod_eq_of_lt h)

theorem State.mode_lt (s : State) : s.mode < 16 := Nat.mod_lt _ (by decide)

theorem State.prev_moded (s : State) (m c : Nat) : (s.moded m c).get SYS_MODE.PREV = s.mode := by
  rw [State.moded]
  refine (State.get_put_other _ m (by decide) (by decide) (by decide) (by decide)).trans
    ((State.get_put_other _ c (by decide) (by decide) (by decide) (by decide)).trans ?_)
  exact (State.get_put_same _ SYS_MODE.PREV _ (by decide) (by decide)).trans (Nat.mod_eq_of_lt s.mode_lt)

theorem State.cause_moded (s : State) (m : Nat) {c : Nat} (h : c < 32) : (s.moded m c).get SYS_MODE.CAUSE = c := by
  rw [State.moded]
  refine (State.get_put_other _ m (by decide) (by decide) (by decide) (by decide)).trans ?_
  exact (State.get_put_same _ SYS_MODE.CAUSE _ (by decide) (by decide)).trans (Nat.mod_eq_of_lt (Nat.lt_of_lt_of_le h (by decide)))

theorem RegsBut.moded (s : State) (m c : Nat) : RegsBut [SYS_MODE] s (s.moded m c) :=
  ((RegsBut.put s SYS_MODE.PREV _ (by simp [SYS_MODE.PREV])).trans (RegsBut.put _ SYS_MODE.CAUSE c (by simp [SYS_MODE.CAUSE]))).trans
    (RegsBut.put _ SYS_MODE.MODE m (by simp [SYS_MODE.MODE]))

theorem Frame.moded (s : State) (m c : Nat) : Frame [.regs] s (s.moded m c) := (Frame.put s _ _).trans ((Frame.put _ _ _).trans (Frame.put _ _ _))

/-- SYS_MODE stays when another register is written. -/
theorem State.mode_put (s : State) (f : Fld) (v : Nat) (h : f.addr ≠ SYS_MODE) : (s.put f v).mode = s.mode :=
  State.get_of_reg (f := SYS_MODE.MODE) (State.reg_put_ne _ _ _ h.symm)

theorem State.mode_setReg (s : State) {a : Nat} (v : Word) (h : a ≠ SYS_MODE) : (s.setReg a v).mode = s.mode :=
  State.get_of_reg (f := SYS_MODE.MODE) (State.reg_setReg_ne _ _ h.symm)

theorem State.ironEvt_of_awake {s : State} (f : Fld) (h : 2 ≤ s.mode) : s.ironEvt f = s.setEvt f := if_pos (decide_eq_true h)

theorem State.stepCycle_of_idle {s : State} (h : s.seqMode = false) : s.stepCycle = (s.setReg PWR_MCYC (s.reg PWR_MCYC + 1)).balanceStep := by
  have hm : (s.setReg PWR_MCYC (s.reg PWR_MCYC + 1)).seqMode = false := by
    rw [State.seqMode, State.mode_setReg _ _ (by decide), ← State.seqMode, h]
  simp only [State.stepCycle, hm, Bool.false_eq_true, if_false]

theorem State.lossDue_iff (s : State) (c : Nat) :
    s.lossDue c = true ↔ ∀ e, s.iron.lastEdge = some e → e + s.get PWR_STAT.HALF + s.get PWR_MAINS.LOSS_MARGIN ≤ c := by
  cases h : s.iron.lastEdge <;> simp [State.lossDue, h]

/-- The state in which the loss of mains is told. -/
def State.unplugged (s : State) : State :=
  { s.putFlag PWR_STAT.MAINS false with
    iron := { (s.putFlag PWR_STAT.MAINS false).iron with lost := true, run := 0, halves := [], lastEdge := none } }

theorem State.mode_unplugged (s : State) : s.unplugged.mode = s.mode := by
  have h : s.unplugged.regs = (s.put PWR_STAT.MAINS (b2n false)).regs := rfl
  have hr : s.unplugged.reg SYS_MODE = (s.put PWR_STAT.MAINS (b2n false)).reg SYS_MODE := State.reg_of_regs h SYS_MODE
  exact State.get_of_reg (f := SYS_MODE.MODE) (hr.trans (State.reg_put_ne s PWR_STAT.MAINS (b2n false) (by decide)))

theorem State.mode_unplugged_told {s : State} (h : s.mode ∈ [4, 5, 7, 8]) :
    s.unplugged.ironEvt PWR_EVT.MAINS_LOST = s.unplugged.setEvt PWR_EVT.MAINS_LOST ∧ (s.unplugged.setEvt PWR_EVT.MAINS_LOST).mode = s.mode := by
  refine ⟨State.ironEvt_of_awake _ ?_, (State.mode_setEvt _ (by decide)).trans s.mode_unplugged⟩
  rw [State.mode_unplugged]
  simp only [List.mem_cons, List.not_mem_nil, or_false] at h
  omega

/-- What the outage begins with. -/
def State.inOutage (t : State) : State :=
  State.enterMode { t with fab := { t.fab with outNow := true }, iron := { t.iron with lossAt := some t.iron.rtc } } 6 8

theorem State.mainsLost_of_told {s u : State} (hu : s.unplugged.ironEvt PWR_EVT.MAINS_LOST = u) (h : [4, 5, 7, 8].contains u.mode = true) :
    s.mainsLost = u.outageActs State.inOutage := by
  subst hu
  exact if_pos h

theorem State.mainsLost_of_line {s : State} (h : s.mode ∈ [4, 5, 7, 8]) :
    s.mainsLost = (s.unplugged.setEvt PWR_EVT.MAINS_LOST).outageActs State.inOutage := by
  obtain ⟨he, hm⟩ := State.mode_unplugged_told h
  exact State.mainsLost_of_told he (hm.symm ▸ List.contains_iff_mem.mpr h)

theorem exec_mainsLoss_of_due {c : Nat} {s : State} (h : s.flag PWR_STAT.MAINS = true) (hl : s.lossDue c = true) :
    exec (.mainsLoss c) s = .next s.mainsLost := congrArg Host.Outcome.next (if_pos ⟨h, hl⟩)

theorem exec_outageTimeout_of_due {s : State} (h : s.outDue = true) : exec .outageTimeout s = .next s.outageEnd := congrArg _ (if_pos h)

theorem State.outageEnd_of_sleep {s : State} {m : Nat} (h : s.mode = 6) (hs : s.outSleep = some m) : s.outageEnd = s.sleep m 10 := by
  simp only [State.outageEnd, hs, h, if_true]

theorem State.outageEnd_of_other {s : State} (h : s.mode ≠ 6) : s.outageEnd = s := by
  cases hs : s.outSleep <;> simp [State.outageEnd, hs, h]

/-- The self-tests of the power-up leave the load that is due. -/
theorem exec_powerUpSelftestDone_of_testing {s u : State} (hm : s.mode = 2) (h : s.get WD_STAT.STATE = 0)
    (hu : u = (s.put WD_STAT.STATE 1).setEvt WD_EVT.SELFTEST_DONE) :
    u.fab = s.fab ∧ (s.fab.due = none → exec .powerUpSelftestDone s = .next u) ∧
      ∀ src n, s.fab.due = some (src, n) → exec .powerUpSelftestDone s = .next (u.beginLoad src false n) := by
  have ht : s.selfTesting = true := decide_eq_true ⟨hm, h⟩
  have hf : u.fab = s.fab := by
    rw [hu]
    exact ((Told.refl s).put (f := WD_STAT.STATE) (v := 1)).setEvt (f := WD_EVT.SELFTEST_DONE) |>.same (c := .fab) (by decide)
  refine ⟨hf, fun hd => ?_, fun src n hd => ?_⟩
  · show Host.Outcome.next _ = _
    simp only [ht, not_true_eq_false, if_false, ← hu, hf, hd]
  · show Host.Outcome.next _ = _
    simp only [ht, not_true_eq_false, if_false, ← hu, hf, hd]

theorem clampInt_of_mem {lo hi x : Int} (h : lo ≤ x) (h' : x ≤ hi) : clampInt lo hi x = x := by
  rw [clampInt, if_neg (by omega), if_neg (by omega)]

theorem State.getInt_putInt_temp (s : State) {x : Int} (h : -128 ≤ x) (h' : x ≤ 127) : (s.putInt PWR_TEMP.TEMP x).getInt PWR_TEMP.TEMP = x := by
  have hw : unsgn 8 x < 2 ^ 8 := by
    simp only [unsgn]
    omega
  show sgn 8 ((s.put PWR_TEMP.TEMP (unsgn 8 x)).get PWR_TEMP.TEMP) = x
  rw [State.get_put_same s PWR_TEMP.TEMP _ (by decide) (by decide)]
  exact (congrArg (sgn 8) (Nat.mod_eq_of_lt hw)).trans (sgn_unsgn (by decide) (by omega) (by omega))

theorem State.hot_putInt (s : State) {x : Int} (h : -128 ≤ x) (h' : x ≤ 127) :
    (s.putInt PWR_TEMP.TEMP x).hot = true ↔ (s.get PWR_TEMP.LIMIT : Int) ≤ x := by
  have hl : (s.putInt PWR_TEMP.TEMP x).get PWR_TEMP.LIMIT = s.get PWR_TEMP.LIMIT :=
    State.get_put_other s _ (by decide) (by decide) (by decide) (by decide)
  rw [State.hot, State.getInt_putInt_temp s h h', hl, decide_eq_true_iff]

theorem State.mode_putInt_temp (s : State) (x : Int) : (s.putInt PWR_TEMP.TEMP x).mode = s.mode := s.mode_put PWR_TEMP.TEMP _ (by decide)

theorem exec_tempMeasure {x : Int} {s u : State} (ha : s.awake = true) (h : -128 ≤ x) (h' : x ≤ 127) (hu : u = s.putInt PWR_TEMP.TEMP x) :
    exec (.tempMeasure x) s = .next (if u.hot = false then u
      else if s.mode = 5 then ((u.putFlag SYS_CTL.FULL false).enterMode 4 7).setEvt PWR_EVT.THERMAL
      else if (s.mode = 7 ∨ s.mode = 8) ∧ u.flag SYS_CTL.FULL = true then ((u.putFlag SYS_CTL.FULL false).applyRate).setEvt PWR_EVT.THERMAL
      else u) := by
  have hm : u.mode = s.mode := hu ▸ s.mode_putInt_temp x
  show Host.Outcome.next _ = _
  simp only [ha, not_true_eq_false, if_false, clampInt_of_mem h h', ← hu, hm, Bool.not_eq_true]

theorem exec_mainsSenseEdge {r : Bool} {t : Nat} {s : State} (h : s.iron.viron = true) : exec (.mainsSenseEdge r t) s = .next (
    if r = true then ((((s.lateEdge (t * 32000)).lateFeeders (t * 32000)).stepCycle).halfPeriod t).riseRun t else s.halfPeriod t) := by
  show Host.Outcome.next _ = _
  cases r <;> simp [h]

theorem exec_healthTestFail_of_found {c : QCause} {s : State} (h : (7 ≤ c.val ∧ c.val ≤ 10 ∧ (s.running = true ∨ s.mode = 2 ∨ s.mode = 3)) ∨
    ((c.val ≤ 6 ∨ 11 ≤ c.val) ∧ 1 ≤ c.val ∧ c.val ≤ 12 ∧ s.mode = 2 ∧ s.get WD_STAT.STATE = 0)) :
    exec (.healthTestFail c) s = .next (s.quarantine c.val) := by
  refine congrArg Host.Outcome.next (if_pos ?_)
  rw [Bool.or_eq_true, Bool.and_eq_true, Bool.and_eq_true]
  rcases h with ⟨h7, h10, hm⟩ | ⟨hc, h1, h12, hm, hs⟩
  · exact .inr ⟨decide_eq_true ⟨h7, h10⟩, by simpa [or_assoc] using hm⟩
  · exact .inl ⟨decide_eq_true (by omega), decide_eq_true ⟨hm, hs⟩⟩

/-- Settles O49, clause by clause. -/
theorem modesChangeAsTheTableSays : Obligations.ModesChangeAsTheTableSays := by
  unfold Obligations.ModesChangeAsTheTableSays
  refine ⟨?_, ?_, ?_, ?_, ?_, ?_, ?_, ?_, ?_, ?_, ?_, ?_, ?_, ?_, ?_, ?_, ?_, ?_, ?_, ?_⟩
  · rintro who v s u hw rfl h7 h8
    have hm : ¬ (s.mode = 7 ∨ s.mode = 8) := not_or.mpr ⟨h7, h8⟩
    exact ⟨(next_enter hw).trans (by rw [State.writeSysCtl_request, if_neg hm]), (next_enter hw).trans (by rw [State.writeSysCtl_select, if_neg hm])⟩
  · rintro who v s u hw rfl hm
    exact ⟨(next_enter hw).trans (by rw [State.writeSysCtl_request, if_pos hm]), (next_enter hw).trans (by rw [State.writeSysCtl_select, if_pos hm])⟩
  · exact fun s who t h h' => State.requestMode_of_loss h h'
  · intro s who t ht hc
    have hrow (m : Nat) (hm : s.mode = m) (h : (m, t) ∈ [(4, 5), (4, 0), (4, 1), (5, 4), (5, 0), (5, 1), (6, 0), (6, 1), (9, 2)]) :
        requestRow s.mode t = true := hm.symm ▸ (requestRow_iff ht).mpr h
    refine ⟨fun he => ?_, fun he hr => ?_, fun hm h5 hh => ?_, fun hm h5 hh => ?_, fun hm h4 => ?_, fun h4 h6 h1 => ?_, fun hm h2 => ?_⟩
    · rw [State.requestMode, if_neg (fun hx => hc hx.1 hx.2), if_pos he]
    · rw [State.requestMode_of_calm hc he, if_pos (.inl (Bool.eq_false_iff.mpr (fun hx => hr ((requestRow_iff ht).mp hx))))]
    · rw [State.requestMode_of_calm hc (by omega), if_pos (.inr ⟨h5, hh⟩)]
    · subst h5
      rw [State.requestMode_of_row hc (by omega) (hrow 4 hm (by decide)) (fun _ => hh), if_neg (by decide), if_neg (by decide)]
    · subst h4
      rw [State.requestMode_of_row hc (by omega) (hrow 5 hm (by decide)) (by omega), if_neg (by decide), if_neg (by decide)]
    · rw [State.requestMode_of_row hc (by omega) (hrow _ rfl ?_) (by omega), if_pos h1]
      generalize s.mode = m at h4 h6
      interval_cases m <;> interval_cases t <;> decide
    · subst h2
      rw [State.requestMode_of_row hc (by omega) (hrow 9 hm (by decide)) (by omega), if_neg (by decide), if_pos rfl]
  · intro s m c hm hc
    exact ⟨s.moded m c, s.mode_moded c hm, s.prev_moded m c, s.cause_moded m hc, RegsBut.moded s m c, Frame.moded s m c, rfl⟩
  · exact fun t s h => ⟨(exec_mainsSenseEdge h).trans (by rw [if_neg (by decide)]), (exec_mainsSenseEdge h).trans (by rw [if_pos rfl])⟩
  · exact fun s h => State.stepCycle_of_idle h
  · exact fun c s => State.lossDue_iff s c
  · intro c s h
    refine congrArg Host.Outcome.next (if_neg ?_)
    rintro ⟨h1, h2⟩
    rcases h with h | h
    · exact absurd (h.symm.trans h1) (by decide)
    · exact absurd (h.symm.trans h2) (by decide)
  · intro c s u v hf hl hm hu hv
    have hv' : v = (s.unplugged.setEvt PWR_EVT.MAINS_LOST).endLine stMainsLost := by
      rw [hv, hu]
      rfl
    rw [exec_mainsLoss_of_due hf hl, State.mainsLost_of_line hm, State.outageActs, ← hv', State.inOutage]
  · exact fun s => decide_eq_true_iff
  · intro s hm hd
    refine ⟨fun h => ?_, fun h => ?_⟩ <;> rw [exec_outageTimeout_of_due hd, State.outageEnd_of_sleep hm]
    · exact if_pos h
    · exact (if_neg (by omega)).trans (if_pos h)
  · intro s h
    by_cases hd : s.outDue = true
    · rw [exec_outageTimeout_of_due hd, State.outageEnd_of_other (h.resolve_right (by simp [hd]))]
    · exact congrArg Host.Outcome.next (if_neg hd)
  · intro x s u ha h h' hu
    refine ⟨hu ▸ s.getInt_putInt_temp h h', hu ▸ s.hot_putInt h h', fun hh => ?_, fun hh hm => ?_, fun hh hm => ?_⟩ <;>
      rw [exec_tempMeasure ha h h' hu]
    · rw [if_pos hh]
    · rw [if_neg (by simp [hh]), if_pos hm]
    · simp only [List.mem_cons, List.not_mem_nil, or_false, not_or] at hm
      obtain ⟨h5, h7, h8⟩ := hm
      rw [if_neg (by simp [hh]), if_neg h5, if_neg (by simp [h7, h8])]
  · intro s
    rw [State.alarmNow, Bool.and_eq_true, decide_eq_true_iff]
  · exact fun s h => congrArg Host.Outcome.next (if_pos h)
  · exact fun s h => congrArg Host.Outcome.next (if_neg (by simp [h]))
  · exact fun s u hm h hu => (exec_powerUpSelftestDone_of_testing hm h hu).2
  · exact fun c s h => exec_healthTestFail_of_found h
  · rintro c s u hu h
    simp only [State.quarantine, ← hu]
    exact if_pos (by simpa [or_assoc] using h)

end Sys2Proof.Machine

/-! PROOFS. Settings of the radio, and what it is given to send (O53). -/

namespace Sys2Proof.Machine

/-! ### Settings of the radio (R226 to R236) -/

theorem exec_radioEnable {who : Accessor} {v : Word} {s u : State} (hw : Writable s who RF_CFG) (hg : s.refusedFields who RF_CFG = [])
    (hu : u = s.merge RF_CFG 0x7FFF7F7F v) : exec (.radioEnable who v) s = .next (State.followRadio (
      if bit v.toNat 31 = false then u.putFlag RF_CFG.ENABLE false
      else if u.rfBadCfg = true then (u.putFlag RF_CFG.ENABLE (s.flag RF_CFG.ENABLE)).setEvt RF_EVT.CFG_REFUSED
      else u.putFlag RF_CFG.ENABLE true) s.radioOn) := by
  refine (next_enter hw).trans (congrArg _ ?_)
  simp only [State.gate_of_open v hg, State.writeRfCfg, ← hu, Bool.not_eq_true]

theorem State.rfBadCfg_iff (s : State) : s.rfBadCfg = true ↔
    (s.rfSpacing < (if s.flag RF_PHY.MOD = true then 2 * s.rfRate else 3 * s.rfRate / 2) ∨ (s.rfUsed (2 ^ 64 - 1)).length < 3) := by
  rw [State.rfBadCfg, Bool.or_eq_true, decide_eq_true_iff, decide_eq_true_iff]

theorem State.rfRest_eq (s : State) (c : Nat) :
    s.rfRest c = (if s.flag (RF_LCFG.ENABLE c) = true ∧ s.radioOn = true then (if s.rfRole c = 0 then 1 else 2) else 0) := by
  cases h : s.flag (RF_LCFG.ENABLE c) <;> cases h' : s.radioOn <;> simp [State.rfRest, h, h']

theorem exec_linkArm {who : Accessor} {c : LinkC} {v : Word} {s : State} (hw : Writable s who (RF_LCFG c.val)) :
    exec (.linkArm who c v) s = .next (s.writeRfLcfg c.val v) := next_enter hw

/-- Another register of the radio than a context's RF_LCFG. -/
theorem State.get_merge_lcfg (s : State) (c m : Nat) (v : Word) : (s.merge (RF_LCFG c) m v).get RF_CFG.PROFILE = s.get RF_CFG.PROFILE :=
  State.get_of_reg (f := RF_CFG.PROFILE) (State.reg_setReg_ne _ _ (by simp only [RF_CFG.PROFILE, RF_CFG, RF_LCFG]; omega))

theorem State.writeRfLcfg_of_arm {s u : State} {c : Nat} {v : Word} (h : s.flag (RF_LCFG.ENABLE c) = false) (hv : bit v.toNat 31 = true)
    (hu : u = s.merge (RF_LCFG c) 0x600000FF v) (hp : u.rfRole c ≠ 0 ∨ s.get RF_CFG.PROFILE ≠ 2) :
    s.writeRfLcfg c v = ((u.putFlag (RF_LCFG.ENABLE c) true).rfPark c).rfShow := by
  have hg : u.get RF_CFG.PROFILE = s.get RF_CFG.PROFILE := hu ▸ s.get_merge_lcfg c _ v
  simp only [State.writeRfLcfg, h, hv, Bool.false_eq_true, if_false, ← hu, not_true_eq_false]
  rw [if_neg]
  rintro ⟨h1, h2, -⟩
  exact hp.elim (fun hp => hp h1) (fun hp => hp (hg ▸ h2))

theorem State.writeRfLcfg_of_armed {s : State} {c : Nat} {v : Word} (h : s.flag (RF_LCFG.ENABLE c) = true) (hv : bit v.toNat 31 = true) :
    s.writeRfLcfg c v = s := by simp only [State.writeRfLcfg, h, hv, if_true]

theorem State.writeRfLcfg_of_end {s : State} {c : Nat} {v : Word} (h : s.flag (RF_LCFG.ENABLE c) = true) (hv : bit v.toNat 31 = false)
    (h4 : s.rfState c = 4) :
    s.writeRfLcfg c v = (((s.endLink c 0).putFlag (RF_LCFG.ENABLE c) false).put (RF_LCFG.STATE c) 0).rfShow := by
  simp only [State.writeRfLcfg, h, hv, if_true, Bool.true_eq_false, if_false, Bool.false_eq_true, not_false_eq_true, h4]

theorem State.rfLinked_setMap (s : State) (c : Nat) (v : Word) : (s.setReg (RF_LMAP_LO c) v).rfLinked c = s.rfLinked c := by
  have h : (s.setReg (RF_LMAP_LO c) v).reg (RF_LCFG c) = s.reg (RF_LCFG c) :=
    State.reg_setReg_ne _ _ (by simp only [RF_LMAP_LO, RF_LCFG]; omega)
  rw [State.rfLinked, State.rfState, State.rfRole, State.get_of_reg (f := RF_LCFG.STATE c) h, State.get_of_reg (f := RF_LCFG.ROLE c) h,
    ← State.rfRole, ← State.rfState, ← State.rfLinked]

/-- The low half of a leader's channel map. -/
theorem State.writeRfLmap_of_leader {s : State} {c m : Nat} {v : Word} (h : s.rfRole c = 0) (hm : m = s.rfMap c / 2 ^ 32 * 2 ^ 32 + v.toNat) :
    s.writeRfLmap c false v = if s.rfThinMap m = true then s.setEvt RF_EVT.CFG_REFUSED
      else if s.rfLinked c = true then (s.setReg (RF_LMAP_LO c) v).mapItem c m else s.setReg (RF_LMAP_LO c) v := by
  simp only [State.writeRfLmap, h, ← hm, State.rfLinked_setMap, ne_eq, not_true_eq_false, if_false, Bool.false_eq_true, not_false_eq_true, true_and]

theorem State.writeRfLmap_of_other {s : State} {c : Nat} (v : Word) (h : s.rfRole c ≠ 0) : s.writeRfLmap c false v = s := if_pos h

/-- The map of a context that is not agreed is sent again where its FROM comes within an event. -/
theorem exec_mapSetResend_of_open {c : LinkC} {s : State} {m : Nat × BitVec 64} (hm : (s.rlink c.val).map = some m) (hl : s.rfLinked c.val = true)
    (hr : s.rfRole c.val = 0) (ha : (s.rlink c.val).agreed = false) : exec (.mapSetResend c) s = .next (
      if (s.get (RF_LSTAT.EVENT c.val) + 65537 - m.1) % 65536 < 32768 then s.mapItem c.val m.2.toNat else s) := by
  show Host.Outcome.next _ = _
  simp only [hm, hl, hr, ha, Bool.false_eq_true, not_false_eq_true, true_and, decide_eq_true_eq]

theorem exec_mapSetResend_of_none {c : LinkC} {s : State} (h : (s.rlink c.val).map = none ∨ (s.rlink c.val).agreed = true) :
    exec (.mapSetResend c) s = .next s := by
  show Host.Outcome.next _ = _
  cases hm : (s.rlink c.val).map with
  | none => rfl
  | some m =>
    have ha : (s.rlink c.val).agreed = true := h.resolve_left (by simp [hm])
    simp only [ha, not_true_eq_false, false_and, and_false, if_false]

theorem Frame.setRadio (s : State) (x : RadioSt) : Frame [.radio] s { s with radio := x } := fun c hc => by
  cases c
  case radio => simp at hc
  case poison => exact ⟨rfl, rfl⟩
  all_goals rfl

/-- The item by which a leader sends its map. -/
def State.mapSet (s : State) (c map : Nat) : RfItem :=
  { tag := none, prio := 7, ackreq := true, coded := true, type := 7, frame := [], seq := 0, attempts := 0, skip := 0, onAir := false,
    body := [1#8] ++ leBytes 2 ((s.get (RF_LSTAT.EVENT c) + 8) % 65536) ++ leBytes 8 (map &&& s.rfMask) }

theorem State.mapItem_eq (s : State) (c map : Nat) : s.mapItem c map = s.modRlink c (fun y =>
    { y with map := some ((s.get (RF_LSTAT.EVENT c) + 8) % 65536, BitVec.ofNat 64 map), agreed := false,
             items := s.mapSet c map :: y.items.filter (fun i => !(decide (i.type = 7) && decide (u8 i.body 0 = 1))) }) := rfl

/-! ### RADIO_SEND (R236) -/

/-- The item of a RADIO_SEND with this body. -/
def radioItem (d b : List Byte) : RfItem :=
  { tag := some (descTag d), prio := u8 d 11 % 8, ackreq := bit (u8 d 10) 0, coded := bit (u8 d 10) 1, type := 3, body := b, frame := [],
    seq := 0, attempts := 0, skip := 0, onAir := false }

/-- A RADIO_SEND of sound form with its body, of a length that a frame takes. -/
theorem State.radioLink_of_sound {u : State} {d b : List Byte} {n air : Nat} (hf : radioForm d = true) (hb : u.drefBytes (drefAt d 12) = some b)
    (hl : b.length ≤ 224) (hn : n = b.length + (if b = [] then 18 else 31)) (ha : air = u.rfAir n (bit (u8 d 10) 1)) :
    u.radioLink d = if u.flag RF_CFG.ENABLE = false ∨ u.rfLinked (u8 d 9) = false ∨ u.rfTooLong (u8 d 9) air = true ∨ u.rfLimit < air then
      u.complete (descTag d) stNotPermitted 0 []
      else (u.drefTake (drefAt d 12)).modRlink (u8 d 9) (fun y => { y with items := insertItem (radioItem d b) y.items }) := by
  have hn' : b.length + (if b.isEmpty = true then 18 else 31) = n := by rw [hn]; simp only [List.isEmpty_iff]
  have hle : ¬ 255 < n := by rw [hn]; split <;> omega
  simp only [State.radioLink, hf, if_true, hb, hn', ← ha, if_neg hle, Bool.not_eq_true, radioItem]

theorem State.radioLink_of_malformed (u : State) {d : List Byte} (hf : radioForm d = false) :
    u.radioLink d = u.complete (descTag d) stBad 0 [] := by simp only [State.radioLink, hf, Bool.false_eq_true, if_false]

theorem State.radioFlood_of_malformed (u : State) {d : List Byte} (hf : radioForm d = false) :
    u.radioFlood d = u.complete (descTag d) stBad 0 [] := by simp only [State.radioFlood, hf, Bool.false_eq_true, if_false]

theorem State.radioFlood_of_sound {u : State} {d b : List Byte} {air : Nat} (hf : radioForm d = true) (hb : u.drefBytes (drefAt d 12) = some b)
    (hl : b.length + 37 ≤ 255) (ha : air = u.rfAir (b.length + 37) (bit (u8 d 10) 1)) :
    u.radioFlood d = if u.flag RF_CFG.ENABLE = false ∨ u.rfLimit < air + u.rfReserve then u.complete (descTag d) stNotPermitted 0 []
      else ((u.drefTake (drefAt d 12)).originate (some (descTag d)) 0 (if u8 d 11 / 16 = 0 then u.floodTtl else u8 d 11 / 16) (bit (u8 d 10) 1)
        b).kickFloods := by
  simp only [State.radioFlood, hf, if_true, hb, ← ha, if_neg (Nat.not_lt.mpr hl), Bool.not_eq_true]

theorem exec_radioSendLink {s u : State} {d : List Byte} (h : Taken d s u) (h5 : u8 d 0 = 5) (h8 : u8 d 8 ≠ 1) :
    exec .radioSendLink s = .next (u.radioLink d) := next_taken h (decide_eq_true ⟨h5, h8⟩)

theorem exec_radioSendFlood {s u : State} {d : List Byte} (h : Taken d s u) (h5 : u8 d 0 = 5) (h8 : u8 d 8 = 1) :
    exec .radioSendFlood s = .next (u.radioFlood d) := next_taken h (decide_eq_true ⟨h5, h8⟩)

/-! ### The restore epoch (R73) -/

theorem exec_epochRaise {who : Accessor} {v : Word} {s : State} (hw : Writable s who LK_EPOCH) :
    exec (.epochRaise who v) s = .next (s.writeEpoch v) := next_enter hw

/-- The epoch after this one. -/
def State.nextEpoch (s : State) : Nat := if s.get LK_EPOCH.EPOCH = 0xFFFF then 1 else s.get LK_EPOCH.EPOCH + 1

/-- A port draws its SALT. -/
def State.salted (p : Nat) (t : State) : State := (t.free 65536).2.put (LP_STORM.SALT p) (t.free 65536).1

/-- The next epoch, with each port's SALT, before its event. -/
def State.inEpoch (s : State) : State :=
  foldState (List.range 4) (fun p t => (t.free 65536).2.put (LP_STORM.SALT p) (t.free 65536).1) (s.put LK_EPOCH.EPOCH s.nextEpoch)

/-- What drawing the SALTs changes. -/
def Salted (s t : State) : Prop := Frame [.regs, .free] s t ∧ RegsBut [LP_STORM 0, LP_STORM 1, LP_STORM 2, LP_STORM 3] s t

theorem Salted.salted {s t : State} {p : Nat} (h : Salted s t) (hp : p < 4) : Salted s (t.salted p) := by
  obtain ⟨hf, hr⟩ := h
  refine ⟨hf.trans (((Frame.setFree t _).mono (by simp)).trans ((Frame.put _ _ _).mono (by simp))),
    hr.trans ((RegsBut.refl _ t).of_regs (u := (t.free 65536).2) rfl |>.trans (RegsBut.put _ _ _ ?_))⟩
  interval_cases p <;> simp [LP_STORM.SALT]

theorem State.salted_inEpoch (s : State) : Salted (s.put LK_EPOCH.EPOCH s.nextEpoch) s.inEpoch :=
  Salted.salted (p := 3) (Salted.salted (p := 2) (Salted.salted (p := 1) (Salted.salted (p := 0) ⟨Frame.refl _ _, RegsBut.refl _ _⟩
    (by decide)) (by decide)) (by decide)) (by decide)

theorem State.nextEpoch_lt (s : State) : s.nextEpoch < 65536 := by
  have h : s.get LK_EPOCH.EPOCH < 65536 := Nat.mod_lt _ (by decide)
  unfold State.nextEpoch
  split <;> omega

theorem RegsBut.inEpoch (s : State) : RegsBut [LK_EPOCH, LP_STORM 0, LP_STORM 1, LP_STORM 2, LP_STORM 3] s s.inEpoch :=
  (RegsBut.put s LK_EPOCH.EPOCH s.nextEpoch (by simp [LK_EPOCH.EPOCH])).trans
    (fun a ha => s.salted_inEpoch.2 a (fun h => ha (List.mem_cons_of_mem _ h)))

theorem State.epoch_inEpoch (s : State) : s.inEpoch.get LK_EPOCH.EPOCH = s.nextEpoch :=
  (State.get_of_reg (f := LK_EPOCH.EPOCH) (s.salted_inEpoch.2 LK_EPOCH (by decide))).trans
    ((State.get_put_same s LK_EPOCH.EPOCH _ (by decide) (by decide)).trans (Nat.mod_eq_of_lt s.nextEpoch_lt))

/-- A raised epoch that nothing is sent of. -/
theorem State.raiseEpoch_of_alone {s : State} (he : s.flag RF_CFG.ENABLE = false) (hl : s.linkUp = false) :
    s.raiseEpoch = s.inEpoch.setEvt LK_EVT.EPOCH_RAISED := by
  have hreg {a : Nat} (ha : a ∈ [SYS_MODE, PWR_MCYC, AL_STAT, RF_CFG, LK_EPOCH])
      (hn : a ∉ [LK_EPOCH, LP_STORM 0, LP_STORM 1, LP_STORM 2, LP_STORM 3]) (hv : LK_EVT ≠ a) :
      (s.inEpoch.setEvt LK_EVT.EPOCH_RAISED).reg a = s.reg a :=
    (State.reg_setEvt_quiet (quiet_of_mem ha) _ hv).trans (RegsBut.inEpoch s a hn)
  have he' : (s.inEpoch.setEvt LK_EVT.EPOCH_RAISED).flag RF_CFG.ENABLE = false :=
    (State.flag_of_reg (f := RF_CFG.ENABLE) (hreg (a := RF_CFG) (by simp) (by decide) (by decide))).trans he
  have hl' : (s.inEpoch.setEvt LK_EVT.EPOCH_RAISED).linkUp = false := by
    rw [State.linkUp, State.get_of_reg (f := AL_STAT.LINK) (hreg (a := AL_STAT) (by simp) (by decide) (by decide)), ← State.linkUp, hl]
  simp only [State.inEpoch, State.nextEpoch] at he' hl' ⊢
  simp only [State.raiseEpoch, hl', Bool.false_eq_true, and_false, if_false, he']

/-- Settles O53, clause by clause. -/
theorem radioIsConfiguredAndSends : Obligations.RadioIsConfiguredAndSends := by
  unfold Obligations.RadioIsConfiguredAndSends
  refine ⟨?_, ?_, ?_, ?_, ?_, ?_, ?_, ?_, ?_, ?_, ?_, ?_, ?_, ?_, ?_, ?_, ?_⟩
  · intro who v s u hw hg hu
    refine ⟨fun hv hb => ?_, fun hv hb => ?_, fun hv => ?_⟩ <;> rw [exec_radioEnable hw hg hu]
    · rw [if_neg (by simp [hv]), if_pos hb]
    · rw [if_neg (by simp [hv]), if_neg (by simp [hb])]
    · rw [if_pos hv]
  · exact fun s => s.rfBadCfg_iff
  · rintro who c v s u w hw he hv hu hp rfl
    rw [exec_linkArm hw, State.writeRfLcfg_of_arm he hv hu hp, State.rfPark]
  · exact fun c s => s.rfRest_eq c
  · intro who c v s hw he hv
    rw [exec_linkArm hw, State.writeRfLcfg_of_armed he hv]
  · intro who c v s hw he hv h4
    rw [exec_linkArm hw, State.writeRfLcfg_of_end he hv h4]
  · intro who c v s m hw hr hm
    refine ⟨fun ht => ?_, fun ht hl => ?_, fun ht hl => ?_⟩ <;> rw [exec_mapSetArm v hw, State.writeRfLmap_of_leader hr hm]
    · rw [if_pos ht]
    · rw [if_neg (by simp [ht]), if_pos hl]
    · rw [if_neg (by simp [ht]), if_neg (by simp [hl])]
  · intro who c v s hw hr
    rw [exec_mapSetArm v hw, State.writeRfLmap_of_other v hr]
  · intro c s m hm hl hr ha
    rw [exec_mapSetResend_of_open hm hl hr ha]
    exact ⟨fun h => by rw [if_pos h], fun h => by rw [if_neg (Nat.not_lt.mpr h)]⟩
  · exact fun c s h => exec_mapSetResend_of_none h
  · intro c m s
    have hc (j : Nat) := State.rlink_modRlink s c j (fun y =>
      { y with map := some ((s.get (RF_LSTAT.EVENT c) + 8) % 65536, BitVec.ofNat 64 m), agreed := false,
               items := s.mapSet c m :: y.items.filter (fun i => !(decide (i.type = 7) && decide (u8 i.body 0 = 1))) })
    rw [← State.mapItem_eq] at hc
    refine ⟨_, rfl, ?_, ?_, ⟨s.mapSet c m, ?_, rfl, rfl, rfl⟩, fun j hj => (hc j).trans (if_neg hj), Frame.setRadio _ _⟩ <;> rw [hc, if_pos rfl]
    rfl
  · intro s u d b c ht h5 h8 hf hc hb hl
    have hx := exec_radioSendLink ht h5 (by omega)
    subst hc
    refine ⟨fun h => ?_, fun n air hn ha he hk h1 h2 => ?_⟩
    · rw [hx, State.radioLink_of_sound hf hb hl rfl rfl, if_pos]
      rcases h with h | h | ⟨air, rfl, h⟩
      · exact .inl h
      · exact .inr (.inl h)
      · exact .inr (.inr h)
    · refine ⟨radioItem d b, rfl, rfl, rfl, rfl, rfl, rfl, rfl, rfl, ?_⟩
      rw [hx, State.radioLink_of_sound hf hb hl hn ha, if_neg]
      simp [he, hk, h1, h2]
  · intro s u d ht h5 hf
    split
    next h8 => rw [exec_radioSendFlood ht h5 h8, State.radioFlood_of_malformed u hf]
    next h8 => rw [exec_radioSendLink ht h5 h8, State.radioLink_of_malformed u hf]
  · intro s u d b air ht h5 h8 hf hb hl ha
    rw [exec_radioSendFlood ht h5 h8, State.radioFlood_of_sound hf hb hl ha]
    exact ⟨fun h => by rw [if_pos h], fun he h => by rw [if_neg (by simp [he, h]), State.floodTtl]⟩
  · exact fun who v s hw hv => (exec_epochRaise hw).trans (congrArg _ (if_pos hv))
  · exact fun who v s hw hv => (exec_epochRaise hw).trans (congrArg _ (if_neg (by simp [hv])))
  · intro s he hl
    exact ⟨s.inEpoch, State.raiseEpoch_of_alone he hl, s.epoch_inEpoch, ((Frame.put s _ _).mono (by simp)).trans s.salted_inEpoch.1, RegsBut.inEpoch s⟩

end Sys2Proof.Machine

/-! PROOFS. Activities of the radio and the sniffer (O54). -/

namespace Sys2Proof.Machine

/-! ### Link events and their windows (R229 to R232) -/

/-- A link event keeps the transceiver where it has a claim to it and nothing above it runs. -/
theorem exec_linkEvent {c : LinkC} {now : Nat} {s u : State} (ho : s.radioOn = true) (h4 : s.rfState c.val = 4) (hu : u = s.rfStep c.val) :
    exec (.linkEvent c now) s = .next (
      if u.rfRole c.val = 0 then (if s.rfYields c.val = true ∨ u.rfFree 2 = false then u else u.leaderEvent c.val (u.get (RF_LSTAT.CHAN c.val)) now)
      else if s.rfYields c.val = true ∨ u.rfFree 2 = false then u.rfMiss c.val
      else State.rfShow { u.rfCut now with radio := { (u.rfCut now).radio with rx := none, event := some c.val, listen := true } }) := by
  show Host.Outcome.next _ = _
  simp only [ho, h4, not_true_eq_false, ne_eq, or_self, if_false, ← hu, Bool.or_eq_true, Bool.not_eq_true']

theorem exec_linkEvent_of_closed {c : LinkC} {now : Nat} {s : State} (h : s.radioOn = false ∨ s.rfState c.val ≠ 4) :
    exec (.linkEvent c now) s = .next s := congrArg Host.Outcome.next (if_pos (h.imp (fun h => by simp [h]) id))

theorem State.leaderEvent_of_idle {s : State} {c : Nat} (ch t : Nat) (h : s.rfReady c = none) : s.leaderEvent c ch t = s.sendPoll c ch t := by
  simp only [State.leaderEvent, h]

/-- A window closes on what is received in it, and else ends the event as a miss. -/
theorem exec_linkWindowClose {c : LinkC} {s : State} (h : s.rfState c.val = 4 ∧ s.rfRole c.val ≠ 0 ∧ s.radioOn = true ∧ s.radio.event = some c.val ∧
    s.radio.listen = true) :
    (s.radio.rx.filter (·.inWin) = none → exec (.linkWindowClose c) s = .next (s.rfEndEvent.rfMiss c.val)) ∧
    ∀ x, s.radio.rx.filter (·.inWin) = some x → exec (.linkWindowClose c) s =
      .next { s with radio := { s.radio with rx := some { x with closed := true }, listen := false } } := by
  refine ⟨fun hx => ?_, fun x hx => ?_⟩ <;> refine congrArg Host.Outcome.next ((if_pos h).trans ?_) <;> rw [hx]

theorem State.rfMiss_of_few {s : State} {c : Nat} (h : s.get (RF_LSTAT.MISSES c) < 2) :
    s.rfMiss c = s.put (RF_LSTAT.MISSES c) (s.get (RF_LSTAT.MISSES c) + 1) := if_neg (by omega)
theorem State.rfMiss_of_third {s : State} {c : Nat} (h : 2 ≤ s.get (RF_LSTAT.MISSES c)) :
    s.rfMiss c = (s.put (RF_LSTAT.MISSES c) (s.get (RF_LSTAT.MISSES c) + 1)).endLink c 3 := if_pos (by omega)

/-- An item on the air that was not acknowledged is given up, or waits for a later event. -/
theorem State.failItem_of_spent {s : State} {c : Nat} {x : RfItem} (h : s.itemOn c = some x) (hx : s.get RF_CFG.RETRY_MAX < x.attempts) :
    s.failItem c false = (s.dropOn c).endItem x stNoAck 0 [] := by
  simp only [State.failItem, h, if_pos hx, Bool.false_eq_true, if_false]

theorem State.failItem_of_left {s : State} {c : Nat} {x : RfItem} (h : s.itemOn c = some x) (hx : x.attempts ≤ s.get RF_CFG.RETRY_MAX) :
    s.failItem c false = (s.free (min (2 ^ x.attempts) 16)).2.modItem c (fun y =>
      { y with onAir := false, skip := (s.free (min (2 ^ x.attempts) 16)).1 + 1 }) := by
  simp only [State.failItem, h, if_neg (Nat.not_lt.mpr hx)]

theorem State.free_lt (s : State) {n : Nat} (h : 0 < n) : (s.free n).1 < n := Nat.mod_lt _ h

/-! ### Scans, beacons and floods (R234 to R237) -/

theorem exec_connAckTimeout {c : LinkC} {s : State} (ho : s.radioOn = true) (h3 : s.rfState c.val = 3) : exec (.connAckTimeout c) s = .next (
    if (s.rlink c.val).fails < 2 then s.modRlink c.val (fun x => { x with fails := (s.rlink c.val).fails + 1 })
    else ((s.modRlink c.val (fun x => { x with fails := 0, scan := 0 })).put (RF_LCFG.STATE c.val) 2).rfShow) := by
  refine congrArg Host.Outcome.next ((if_pos ⟨h3, ho⟩).trans ?_)
  simp only [State.connFailed, show ((s.rlink c.val).fails + 1 < 3) = ((s.rlink c.val).fails < 2) from propext (by omega)]

/-- A leader's first ready item is sealed and sent. -/
theorem State.leaderEvent_of_item {s v : State} {c ch t : Nat} {x y : RfItem} (h : s.rfReady c = some x)
    (hd : s.rfDwell ch t (s.rfAir (x.body.length + (if x.body.isEmpty = true then 18 else 31)) x.coded) false = true)
    (hs : s.sealItem c x = (stOk, y, v)) : s.leaderEvent c ch t = (v.modRlink c (fun z => { z with items := z.items.map (fun i =>
      if i = x then { y with attempts := y.attempts + 1, onAir := true } else i) })).rfSend (.item c) y.frame y.coded ch t := by
  simp only [State.leaderEvent, h, State.sendItem, hd, not_true_eq_false, if_false, hs, ne_eq]

theorem exec_radioBeaconTx_of_off {s : State} (h : s.radioOn = false ∨ s.flag RF_DISC.BCN_EN = false) : exec .radioBeaconTx s = .next s :=
  congrArg Host.Outcome.next (if_pos (h.imp (fun h => by simp [h]) (fun h => by simp [h])))

/-- The beacon that is due, its SEQ and coding drawn. -/
def State.bcnSeq (s : State) : Nat × State := s.free 256
def State.bcnCoded (s : State) : Nat × State := s.bcnSeq.2.free 2

theorem Frame.free (s : State) (n : Nat) : Frame [.free] s (s.free n).2 := Frame.setFree _ _

theorem Frame.bcnCoded (s : State) : Frame [.free] s s.bcnCoded.2 := (Frame.free s 256).trans (Frame.free _ 2)

theorem exec_radioBeaconTx {s : State} {ch air : Nat} {coded : Bool} {r : Nat × List Byte × State} (ho : s.radioOn = true)
    (hb : s.flag RF_DISC.BCN_EN = true) (hch : ch = nth 0 s.discChans (s.radio.bseq % 3)) (hc : coded = decide (s.bcnCoded.1 = 1))
    (ha : air = s.rfAir (23 + s.beaconBody.length) coded)
    (hr : r = s.bcnCoded.2.rfSeal 10 [] 0 (leBytes 1 18 ++ leBytes 1 s.bcnSeq.1 ++ s.ownEui) s.beaconBody) :
    exec .radioBeaconTx s = .next (if s.rfFree 3 = false ∨ s.rfClash s.tick air = true then s.nextBeacon
      else if s.rfDwell ch s.tick air false = false then (s.setEvt RF_EVT.DWELL_DEFER).nextBeacon
      else if r.1 ≠ stOk then r.2.2.nextBeacon
      else if s.radio.bseq = 0 then { ((r.2.2.rfSend .beacon r.2.1 coded ch s.tick).nextBeacon) with
        radio := { ((r.2.2.rfSend .beacon r.2.1 coded ch s.tick).nextBeacon).radio with t0 := s.tick } }
      else (r.2.2.rfSend .beacon r.2.1 coded ch s.tick).nextBeacon) := by
  subst hch hc ha hr
  refine congrArg Host.Outcome.next ((if_neg (by simp [ho, hb])).trans ?_)
  simp only [Bool.not_eq_true]
  rfl

theorem exec_floodForward {now : Nat} {s : State} {f : RfFwd} {air : Nat} {r : Nat × List Byte × State} (ho : s.radioOn = true) (hf : s.rfFree 4 = true)
    (h : s.radio.fwds.find? (fun f => decide (f.due ≤ now)) = some f) (ha : air = s.rfAir (25 + f.body.length) f.coded)
    (hr : r = (s.free 256).2.rfSeal 10 [] 0 (s.rfHead 6 true false false (s.free 256).1 [0xFF#8, 0xFF#8]) f.body) :
    exec (.floodForward now) s = .next (if s.forwardWaits now air = true then s
      else if s.rfDwell (s.get RF_FLOOD.CHAN) now air false = false then s.setEvt RF_EVT.DWELL_DEFER
      else if r.1 ≠ stOk then { r.2.2 with radio := { r.2.2.radio with fwds := r.2.2.radio.fwds.erase f } }
      else r.2.2.rfSend (.forward f.orig f.fseq) r.2.1 f.coded (s.get RF_FLOOD.CHAN) now) := by
  subst ha hr
  refine congrArg Host.Outcome.next ((if_neg (by simp [ho, hf])).trans ?_)
  rw [h]
  simp only [Bool.not_eq_true, State.rfDefer]

theorem exec_lastGasp_of_due {now : Nat} {s : State} {f : Option Nat × Bool × Bool × List Byte} (ho : s.radioOn = true) (hf : s.rfFree 1 = true)
    (h : s.radio.floods.find? (fun f => f.2.1) = some f) : exec (.lastGasp now) s = .next (s.startFlood f now) := by
  refine congrArg Host.Outcome.next ((if_neg (by simp [ho, hf])).trans ?_)
  rw [h]

/-- What ends with a frame on the air, by what it was. -/
theorem exec_rfTxEnd {s u : State} (hu : u = State.rfShow { s with radio := { s.radio with tx := .none, paTail := true } }) :
    (s.radio.tx = .beacon → exec .rfTxEnd s = .next u.kickFloods) ∧
    (∀ c x, s.radio.tx = .item c → u.itemOn c = some x → exec .rfTxEnd s = .next (State.kickFloods (if x.ackreq = true then u
      else ((if u.rfRole c = 0 then u else u.rfEndOf c).dropOn c).endItem x stOk 0 []))) ∧
    (∀ c, s.radio.tx = .ack (some c) → exec .rfTxEnd s = .next ((u.rfEndOf c).kickFloods)) ∧
    (∀ tag g, s.radio.tx = .flood tag g → exec .rfTxEnd s = .next ((u.endFlood tag g stOk).kickFloods)) ∧
    (∀ c, s.radio.tx = .bye c → exec .rfTxEnd s = .next ((u.endLink c 0).kickFloods)) := by
  refine ⟨fun h => ?_, fun c x h hx => ?_, fun c h => ?_, fun tag g h => ?_, fun c h => ?_⟩ <;>
    refine congrArg Host.Outcome.next ((if_neg (by simp [h])).trans ?_) <;> rw [h, ← hu]
  dsimp only
  rw [hx]

/-! ### RF_SYNC_DETECT and the sniffer (R233, R238) -/

theorem rfSyncOk_iff (y : RfSync) : rfSyncOk y = true ↔ 0 < (corrBest rfSyncWord y.outs).1 ∧
    10 ^ 6 * (16 * y.noise) ^ 10 ≤ (corrBest rfSyncWord y.outs).1 ^ 10 ∧
    10 ^ 3 * (corrBest rfSyncWord y.outs).2 ^ 10 ≤ (corrBest rfSyncWord y.outs).1 ^ 10 := decide_eq_true_iff

theorem exec_rfSyncDetect_of_tuned {y : RfSync} {s : State} (ho : s.radioOn = true ∨ s.sniffing = true) (ht : s.radio.tx = .none)
    (hr : s.radio.rx = none) (hh : s.radio.held = none) (hc : ∀ c, s.radio.event = some c → s.get (RF_LSTAT.CHAN c) = y.chan.val)
    (hy : rfSyncOk y = true) : exec (.rfSyncDetect y) s = .next (s.rfBegin y) :=
  congrArg Host.Outcome.next (if_pos ⟨ho, ht, by simp [hr], by simp [hh], by rw [Option.all_eq_true]; exact fun c hx => decide_eq_true (hc c hx), hy⟩)

theorem exec_rfSyncDetect_of_deaf {y : RfSync} {s : State} (h : rfSyncOk y = false ∨ s.radio.tx ≠ .none ∨ s.radio.rx ≠ none ∨ s.radio.held ≠ none ∨
    (s.radioOn = false ∧ s.sniffing = false)) : exec (.rfSyncDetect y) s = .next s := by
  refine congrArg Host.Outcome.next (if_neg ?_)
  rintro ⟨h1, h2, h3, h4, -, h6⟩
  rcases h with h | h | h | h | ⟨h, h'⟩
  · exact absurd (h.symm.trans h6) (by decide)
  · exact h h2
  · exact h (Option.isNone_iff_eq_none.mp h3)
  · exact h (Option.isNone_iff_eq_none.mp h4)
  · simp [h, h'] at h1

theorem Frame.divFree (s : State) (a : Int) (b : Nat) : Frame [.free] s (s.divFree a b).2 := by
  unfold State.divFree
  split
  · exact Frame.refl _ s
  · exact Frame.free s 2

/-- The sniffer listens for LISTEN ticks. -/
def State.listening (s : State) : State :=
  { s.put RF_STAT.STATE 4 with radio := { s.radio with sniffEnd := s.tick + max 1 (s.get RF_SNIFF.LISTEN) } }

theorem State.regs_listening (s : State) : s.listening.regs = (s.put RF_STAT.STATE 4).regs := by rw [State.listening]
theorem State.radio_listening (s : State) : s.listening.radio = { s.radio with sniffEnd := s.tick + max 1 (s.get RF_SNIFF.LISTEN) } := by
  rw [State.listening]

theorem exec_sniffListen_of_on {s : State} (hs : s.snifferOn = true) (hw : s.radio.sniffed = false) :
    exec .sniffListen s = .next s.listening := congrArg Host.Outcome.next (if_pos ⟨hs, by simp [hw]⟩)

/-- The sniffer wakes the device where RADIO is enabled in PWR_WAKE. -/
theorem exec_sniffDetect_of_on {s u : State} (hs : s.snifferOn = true) (h4 : s.get RF_STAT.STATE = 4)
    (hu : u = { s with radio := { s.radio with sniffed := true, synced := false, rx := none } }) :
    exec .sniffDetect s = .next (if u.flag PWR_WAKE.RADIO = true then ((u.ironEvt RF_EVT.WAKE).wake PWR_WAKE.RADIO).wakeEvent else u) := by
  subst hu
  exact congrArg Host.Outcome.next (if_neg (by simp [hs, h4]))

theorem State.get_setRadio (s : State) (x : RadioSt) (f : Fld) : State.get { s with radio := x } f = s.get f := State.get_of_reg rfl
theorem State.flag_setRadio (s : State) (x : RadioSt) (f : Fld) : State.flag { s with radio := x } f = s.flag f := State.flag_of_reg rfl

/-- A counter saturates. -/
theorem State.get_count (s : State) (f : Fld) (n : Nat) (h : f.lo ≤ f.hi := by decide)
    (h' : f.hi < 32 := by decide) :
    (s.count f n).get f = min (2 ^ (f.hi + 1 - f.lo) - 1) (s.get f + n) := by
  rw [State.count, clampNat_eq, State.get_put_same s f _ (by omega) h', Nat.mod_eq_of_lt]
  have := Nat.two_pow_pos (f.hi + 1 - f.lo)
  omega

/-- Settles O54, clause by clause. -/
theorem radioActivitiesFollowTheirEvents : Obligations.RadioActivitiesFollowTheirEvents := by
  unfold Obligations.RadioActivitiesFollowTheirEvents
  refine ⟨?_, ?_, ?_, ?_, ?_, ?_, ?_, ?_, ?_, ?_, ?_, ?_, ?_, ?_, ?_, ?_, ?_, ?_, ?_, ?_, ?_, ?_⟩
  · intro c now s u ho h4 hu
    have hfree (h : s.rfYields c.val = false) (h' : u.rfFree 2 = true) : ¬ (s.rfYields c.val = true ∨ u.rfFree 2 = false) := by simp [h, h']
    refine ⟨fun hr hy => ?_, fun hr hy hf => ?_, fun hr hy => ?_, fun v hr hy hf hv => ?_⟩ <;> rw [exec_linkEvent ho h4 hu]
    · rw [if_pos hr, if_pos hy]
    · rw [if_pos hr, if_neg (hfree hy hf)]
    · rw [if_neg hr, if_pos hy]
    · rw [if_neg hr, if_neg (hfree hy hf), hv]
  · exact fun c now s h => exec_linkEvent_of_closed h
  · exact fun c ch now s h => State.leaderEvent_of_idle ch now h
  · exact fun c ch now s v x y h hd hs => State.leaderEvent_of_item h hd hs
  · intro c s h4 hr ho he hl
    obtain ⟨hnone, hsome⟩ := exec_linkWindowClose ⟨h4, hr, ho, he, hl⟩
    refine ⟨fun h => hnone ?_, fun x h hw => hsome x (by simp [h, hw])⟩
    cases hx : s.radio.rx with
    | none => rfl
    | some x => simp [h x hx]
  · exact fun c s h4 => ⟨congrArg Host.Outcome.next (if_pos h4), fun ho => congrArg Host.Outcome.next (if_pos ⟨h4, ho⟩)⟩
  · exact fun c s => rfl
  · exact fun c s _ => ⟨State.rfMiss_of_few, State.rfMiss_of_third⟩
  · intro c x s h
    refine ⟨State.failItem_of_spent h, fun hx => ⟨_, _, s.free_lt ?_, Frame.free s (min (2 ^ x.attempts) 16), State.failItem_of_left h hx⟩⟩
    exact lt_min (Nat.two_pow_pos _) (by decide)
  · intro c s ho
    refine ⟨fun h2 => congrArg Host.Outcome.next (if_pos ⟨h2, ho⟩), fun h3 hf => ?_, fun h3 hf => ?_⟩ <;> rw [exec_connAckTimeout ho h3]
    · rw [if_pos hf]
    · rw [if_neg (by omega)]
  · intro s ho hb hf
    rw [exec_radioBeaconTx ho hb rfl rfl rfl rfl, if_pos (.inl hf), State.nextBeacon]
  · exact fun s h => exec_radioBeaconTx_of_off h
  · intro s ch ho hb hf hch
    refine ⟨decide (s.bcnCoded.1 = 1), s.bcnSeq.1, _, s.bcnCoded.2, _, Frame.bcnCoded s, s.free_lt (by decide), rfl, rfl, fun hx => ?_,
      fun hx hd => ?_, fun hx hd hr h0 => ?_⟩ <;> rw [exec_radioBeaconTx ho hb hch rfl rfl rfl]
    · rw [if_pos (.inr hx)]
    · rw [if_neg (by simp [hf, hx]), if_pos hd]
    · rw [if_neg (by simp [hf, hx]), if_neg (by simp [hd]), if_neg (not_not.mpr hr), if_neg h0]
  · intro now s f air ho hf h ha
    refine ⟨fun hw => ?_, fun hw hd => ?_, fun hw hd => ⟨(s.free 256).1, (s.free 256).2, _, Frame.free s 256, rfl, fun hr => ?_⟩⟩ <;>
      rw [exec_floodForward ho hf h ha rfl]
    · rw [if_pos hw]
    · rw [if_neg (by simp [hw]), if_pos hd]
    · rw [if_neg (by simp [hw]), if_neg (by simp [hd])]
      exact congrArg Host.Outcome.next (if_neg (not_not.mpr hr))
  · exact fun now s f ho hf h => exec_lastGasp_of_due ho hf h
  · intro s u hu
    obtain ⟨hbeacon, hitem, hack, hflood, hbye⟩ := exec_rfTxEnd hu
    refine ⟨fun h => congrArg Host.Outcome.next (if_pos h), hbeacon, fun c x h hx => ⟨fun ha => ?_, fun ha hr => ?_, fun ha hr => ?_⟩,
      hack, hflood, hbye⟩ <;> rw [hitem c x h hx]
    · rw [if_pos ha]
    · rw [if_neg (by simp [ha]), if_pos hr]
    · rw [if_neg (by simp [ha]), if_neg hr]
  · exact rfSyncOk_iff
  · intro y s ho ht hr hh hc hy
    exact ⟨_, _, Frame.divFree s (s.rfOffset y) 25, exec_rfSyncDetect_of_tuned ho ht hr hh hc hy⟩
  · exact fun y s h => exec_rfSyncDetect_of_deaf h
  · intro s hm he hs
    have hon : s.snifferOn = true := by simp [State.snifferOn, hm, he, hs]
    refine ⟨fun hw => congrArg Host.Outcome.next (if_neg (by simp [hw])), fun hw => ?_, fun h4 => congrArg Host.Outcome.next (if_pos (.inr h4)),
      fun u h4 hu => ⟨fun w hr hw => ?_, fun hr => ?_⟩⟩
    · exact ⟨_, exec_sniffListen_of_on hon hw, s.regs_listening, s.radio_listening,
        ((Frame.put s RF_STAT.STATE 4).mono (by simp)).trans ((Frame.setRadio _ _).mono (by simp))⟩
    · have hf : u.flag PWR_WAKE.RADIO = true := by rw [hu, State.flag_setRadio, hr]
      have hm' : u.mode = 1 := by rw [hu, State.mode, State.get_setRadio, ← State.mode, hm]
      have hi : u.ironEvt RF_EVT.WAKE = u.putFlag RF_EVT.WAKE true := by
        rw [State.ironEvt, if_neg (by simp [State.awake, hm'])]
      rw [exec_sniffDetect_of_on hon h4 hu, if_pos hf, hi, ← hw, State.wakeEvent]
    · have hf : u.flag PWR_WAKE.RADIO = false := by rw [hu, State.flag_setRadio, hr]
      rw [exec_sniffDetect_of_on hon h4 hu, if_neg (by simp [hf])]
  · intro s hs hy
    refine ⟨_, congrArg Host.Outcome.next (if_pos ⟨hs, by simp [hy]⟩), ?_, rfl, ?_, ?_⟩
    · rw [State.get_setRadio, State.get_count s RF_CNT.FALSE_WAKE]
    · exact (RegsBut.put s RF_CNT.FALSE_WAKE _ (by simp [RF_CNT.FALSE_WAKE])).of_regs rfl
    · exact ((Frame.put s _ _).mono (by simp)).trans ((Frame.setRadio _ _).mono (by simp))
  · intro s h
    refine congrArg Host.Outcome.next (if_neg ?_)
    rcases h with h | h <;> simp [h]

end Sys2Proof.Machine

/-! PROOFS. Frames that the radio receives (O55). -/

namespace Sys2Proof.Machine

/-! ### Frames that the radio receives (R232 to R237) -/

/-- The commands of received frames, each with the frame types it acts on. -/
def rfFrames (r : RfSeen) : List (Instr × List Nat) := [(.rfBeaconRx r, [0]), (.connReqRx r, [1]), (.connAckRx r, [2]), (.rfDataRx r, [3]),
  (.rfAckRx r, [4]), (.rfNackRx r, [5]), (.mapSetRx r, [7]), (.disconnectRx r, [7]), (.floodRx r, [6])]

theorem mem_rfFrames {r : RfSeen} {i : Instr} (h : i ∈ [Instr.rfBeaconRx r, .connReqRx r, .connAckRx r, .rfDataRx r, .rfAckRx r, .rfNackRx r,
    .mapSetRx r, .disconnectRx r, .floodRx r]) : ∃ types, (i, types) ∈ rfFrames r := by
  obtain ⟨x, hx, rfl⟩ := List.mem_map.mp (show i ∈ (rfFrames r).map (·.1) from h)
  exact ⟨x.2, hx⟩

/-- Without a frame of its type the command does what the reception's end does. -/
theorem exec_rfFrame_of_none {r : RfSeen} {i : Instr} {types : List Nat} {s t : State} (hi : (i, types) ∈ rfFrames r)
    (h : s.rfSeen r types = (none, t)) : exec i s = .next t := by
  simp only [rfFrames, List.mem_cons, Prod.mk.injEq, List.not_mem_nil, or_false] at hi
  rcases hi with ⟨rfl, rfl⟩ | ⟨rfl, rfl⟩ | ⟨rfl, rfl⟩ | ⟨rfl, rfl⟩ | ⟨rfl, rfl⟩ | ⟨rfl, rfl⟩ | ⟨rfl, rfl⟩ | ⟨rfl, rfl⟩ | ⟨rfl, rfl⟩
  case inr.inr.inr.inr.inl => exact congrArg Host.Outcome.next (by simp only [State.rxRfAck, h])
  case inr.inr.inr.inr.inr.inl => exact congrArg Host.Outcome.next (by simp only [State.rxRfAck, h])
  case inr.inr.inr.inr.inr.inr.inl => exact congrArg Host.Outcome.next (by simp only [State.rxLinkCmd, h])
  case inr.inr.inr.inr.inr.inr.inr.inl => exact congrArg Host.Outcome.next (by simp only [State.rxLinkCmd, h])
  all_goals
    show Host.Outcome.next _ = _
    rw [h]

theorem State.rfSeen_of_idle {s : State} (r : RfSeen) (types : List Nat) (h : s.radio.rx = none ∨ s.radioOn = false ∧ s.sniffing = false) :
    s.rfSeen r types = (none, s) := by
  cases hx : s.radio.rx with
  | none => simp only [State.rfSeen, hx]
  | some x =>
    obtain ⟨ho, hs⟩ := h.resolve_left (by simp [hx])
    simp only [State.rfSeen, hx, ho, hs, Bool.false_eq_true, not_false_eq_true, if_true, if_false]

theorem State.rfSeen_of_sniffing {s : State} {x : RfRx} (r : RfSeen) (types : List Nat) (h : s.radio.rx = some x) (ho : s.radioOn = false)
    (hs : s.sniffing = true) : s.rfSeen r types = (none, { s with radio := { s.radio with held := some (x, r), rx := none } }) := by
  simp only [State.rfSeen, h, ho, hs, Bool.false_eq_true, not_false_eq_true, if_true]

theorem State.rfSeen_of_failed {s t : State} {x : RfRx} {r : RfSeen} {p : Bool} (types : List Nat) (h : s.radio.rx = some x) (ho : s.radioOn = true)
    (hd : s.rfDecode x r = (p, none, t)) : s.rfSeen r types = (none, t.rfEndRx x p) := by
  simp only [State.rfSeen, h, ho, hd, not_true_eq_false, if_false]

/-- What is known of a frame that was received. -/
def receivedFrame (x : RfRx) (r : RfSeen) (l : List Byte) (coded : Bool) : RfGot :=
  { frame := l, coded := coded, rssi := r.rssi, snr := r.snr, fofs := x.fofs, chan := x.chan, link := x.link, sync := x.tick, tick := r.tick }

/-- A frame of the row's type for this device, short enough for the link it came in. -/
theorem State.rfSeen_of_frame {r : RfSeen} {s t : State} {x : RfRx} {l : List Byte} {coded : Bool} {m : RfMac} {types : List Nat}
    (h : s.radio.rx = some x) (ho : s.radioOn = true) (hd : s.rfDecode x r = (true, some (l, coded), t)) (hp : parseRf l = some m)
    (ht : m.type ∈ types) (hm : m.dst = s.ownEui ∨ m.type = 0 ∨ m.type = 6)
    (hl : ∀ c, x.link = some c → s.rfTooLong c (s.rfAir l.length coded) = false) :
    s.rfSeen r types = (some (receivedFrame x r l coded, m), (t.rfLast x r).rfEndRx x true) := by
  have hlong : (x.link.any fun c => s.rfState c = 4 && s.rfRole c != 2 && s.rfTooLong c (s.rfAir l.length coded)) = false := by
    cases hx : x.link with
    | none => rfl
    | some c => simp [hl c hx]
  simp only [State.rfSeen, h, ho, hd, hp, hlong, not_true_eq_false, if_false, Option.any_some, List.contains_iff_mem.mpr ht, hm, decide_true,
    Bool.not_true, Bool.false_eq_true, or_self, Option.map_some, receivedFrame]

/-! ### Beacons and floods -/

theorem exec_rfBeaconRx_of_forged {r : RfSeen} {s u : State} {g : RfGot} {m : RfMac} (h : s.rfSeen r [0] = (some (g, m), u))
    (ho : u.rfOpenGroup m = none) : exec (.rfBeaconRx r) s = .next (u.count RF_CNT.MIC_FAIL 1) := by
  show Host.Outcome.next _ = _
  rw [h]
  dsimp only
  rw [ho, State.rfMicFail]

theorem exec_rfBeaconRx_of_known {r : RfSeen} {s u : State} {g : RfGot} {m : RfMac} {b : List Byte} {i : Nat}
    (h : s.rfSeen r [0] = (some (g, m), u)) (ho : u.rfOpenGroup m = some b) (hi : u.findNbr m.src = some i) (hb : b.length = 14) :
    exec (.rfBeaconRx r) s = .next (foldState (List.range 16) (fun c t => t.beaconOn g i b c) (u.putNbr i 20 (rfQuality g false (u16 b 8)))) := by
  show Host.Outcome.next _ = _
  rw [h]
  dsimp only
  rw [ho]
  dsimp only
  rw [hi]
  exact congrArg Host.Outcome.next (if_neg (not_not.mpr hb))

theorem exec_floodRx {r : RfSeen} {s u : State} {g : RfGot} {m : RfMac} (h : s.rfSeen r [6] = (some (g, m), u)) :
    (u.rfOpenGroup m = none → exec (.floodRx r) s = .next (u.count RF_CNT.MIC_FAIL 1)) ∧
    ∀ b, u.rfOpenGroup m = some b → exec (.floodRx r) s = .next (u.rxFlood g m.src b) := by
  refine ⟨fun ho => ?_, fun b ho => ?_⟩
  all_goals
    show Host.Outcome.next _ = _
    rw [h]
    dsimp only
    rw [ho]
  rfl

/-- A flood in form: one that was seen is counted, a new one is noted and remembered. -/
theorem State.rxFlood_of_form {s : State} {g : RfGot} {src b : List Byte} (hl : 12 ≤ b.length) (h1 : 1 ≤ u8 b 10) (h16 : u8 b 10 < 16) :
    s.rxFlood g src b = if s.radio.seen.contains (b.take 8, u16 b 8) = true then (s.count RF_CNT.FLOOD_DUP 1).floodCopy (b.take 8) (u16 b 8)
      else ((s.findNbr src).elim s (fun i => s.putNbr i 20 (rfQuality g true 0))).floodNew g b := by
  rw [State.rxFlood, if_neg (by omega)]
  rfl

/-- A flood that is delivered, before it is forwarded. -/
theorem State.floodNew_of_delivered {s v w : State} {g : RfGot} {b : List Byte} {p : Nat × State × List PoolNote}
    (hv : v = s.remember (b.take 8) (u16 b 8)) (hp : p = v.putPacket (.engine 1) (v.get RF_NBR.DLVQ) b) (h1 : p.1 = 1)
    (hw : w = ((p.2.1.tellPool p.2.2).setEvt RF_EVT.FLOOD_RX).rfEvent 5 stFrameOk 0xFF b.length (rfQuality g true 0) (b.take 8)) :
    s.floodNew g b = if w.flag RF_FLOOD.FWD_EN = true ∧ 1 < u8 b 10 % 16 then
      { (w.free (w.get RF_FLOOD.JIT + 1)).2 with radio := { (w.free (w.get RF_FLOOD.JIT + 1)).2.radio with
          fwds := (w.free (w.get RF_FLOOD.JIT + 1)).2.radio.fwds ++
            [⟨b.take 8, u16 b 8, modNth b 10 (fun y => y - 1#8), g.coded, g.tick + (w.free (w.get RF_FLOOD.JIT + 1)).1, 0⟩] } }
      else w := by
  simp only [State.floodNew, ← hv, ← hp, h1, ne_eq, not_true_eq_false, if_false, ← hw]

/-! ### Connections -/

theorem exec_connReqRx_of_unknown {r : RfSeen} {s u : State} {g : RfGot} {m : RfMac} (h : s.rfSeen r [1] = (some (g, m), u))
    (hi : u.findNbr m.src = none) :
    exec (.connReqRx r) s = .next ((u.setEvt RF_EVT.CONN_UNKNOWN).rfEvent 6 0 0xFF 0 (rfQuality g false 0) m.src) := by
  show Host.Outcome.next _ = _
  rw [h]
  exact congrArg Host.Outcome.next (if_pos (by simp [hi]))

/-- A leader's context with what a connection begins with: CONN_ID, the anchor, and the neighbour's generation, window and counters. -/
def State.joined (x : State) (c i id ofs : Nat) (b : List Byte) (m : RfMac) (g : RfGot) : State :=
  ((((((((x.put (RF_LWIN.CONN_ID c) id).put (RF_LWIN.SCA_PEER c) (u8 b 1)).modRlink c (fun e => { e with anchor := ofs })).putNbr
    i 11 (b.take 1)).putNbr i 10 (leBytes 1 m.seq)).putNbr i 12 (leBytes 2 1)).rfSetFc i m).putNbr i 9 [0#8]).rfNote i g

/-- What a CONN_ACK carries. -/
def State.joinFields (y : State) (c id ofs : Nat) : List Byte :=
  [0#8] ++ leBytes 2 id ++ leBytes 2 (y.get (RF_LTIME.INTERVAL c)) ++ leBytes 2 (y.get (RF_LTIME.SUP_TO c)) ++ leBytes 2 ofs ++
    leBytes 1 (y.get RF_CFG.SCA_LOCAL) ++ leBytes 8 (y.rfMap c &&& y.rfMask)

/-- A link of the context that is open ends before it opens anew. -/
def State.unlinked (w : State) (c : Nat) : State := if w.rfState c = 4 then w.endLink c 0 else w

/-- A known neighbour's request is answered, without a context for it with a refusal. -/
theorem exec_connReqRx_of_known {r : RfSeen} {s u v : State} {g : RfGot} {m : RfMac} {i : Nat} {b : List Byte}
    (h : s.rfSeen r [1] = (some (g, m), u)) (hi : u.findNbr m.src = some i) (hc : u.rfCheck m 2 = (some (i, b), v)) (hb : b.length = 2) :
    ((List.range 16).find? (fun c => decide (v.rfRole c = 0 ∧ v.rfNbr c = i) && v.flag (RF_LCFG.ENABLE c)) = none →
      exec (.connReqRx r) s = .next ((((v.free 256).2.freeBytes 17).2.rfNote i g).sendConnAck none i (v.free 256).1 (v.nbrNat i 11 1) g.chan
        ([1#8] ++ ((v.free 256).2.freeBytes 17).1))) ∧
    ∀ c id o y z, (List.range 16).find? (fun c => decide (v.rfRole c = 0 ∧ v.rfNbr c = i) && v.flag (RF_LCFG.ENABLE c)) = some c →
      id = ((v.free 256).2.unlinked c).free 65536 → o = id.2.free 65534 → y = o.2.joined c i id.1 (o.1 + 2) b m g →
      z = y.sendConnAck (some c) i (v.free 256).1 (u8 b 0) g.chan (y.joinFields c id.1 (o.1 + 2)) →
      exec (.connReqRx r) s = .next (if z.radio.tx = .none then z else z.rfOpen c i (z.rfMap c)) := by
  refine ⟨fun hn => ?_, fun c id o y z hs hid ho hy hz => ?_⟩
  all_goals
    show Host.Outcome.next _ = _
    rw [h]
    dsimp -zeta only
    rw [if_neg (by simp [hi]), hc]
    dsimp -zeta only
    rw [if_neg (not_not.mpr hb)]
  · rw [hn]
  · rw [hs]
    dsimp -zeta only
    extract_lets sq old id' ofs s3 s4 fields s5
    have hid' : id' = id := hid.symm
    have hofs : ofs = o := by rw [ho, ← hid']
    have hs4 : s4 = y := by rw [hy, ← hid', ← hofs]; rfl
    have hs5 : s5 = z := by rw [hz, ← hs4, ← hid', ← hofs]; rfl
    rw [hs5]

theorem exec_connAckRx {r : RfSeen} {s u v : State} {g : RfGot} {m : RfMac} {i c : Nat} {b : List Byte} (h : s.rfSeen r [2] = (some (g, m), u))
    (hc : u.rfCheck m 6 = (some (i, b), v)) (hf : (List.range 16).find? (fun c => decide (v.rfState c = 3 ∧ v.rfNbr c = i)) = some c)
    (hb : b.length = 18) : exec (.connAckRx r) s = .next (
      if u8 b 0 = 0 then ((v.rfSetFc i m).rfNote i g).connAccept c i b else ((v.rfSetFc i m).rfNote i g).connFailed c) := by
  show Host.Outcome.next _ = _
  rw [h]
  dsimp only
  rw [hc]
  dsimp only
  rw [hf]
  exact congrArg Host.Outcome.next (if_neg (not_not.mpr hb))

/-! ### Data, link commands and answers -/

theorem exec_rfDataRx {r : RfSeen} {s u : State} {g : RfGot} {m : RfMac} {i : Nat} (h : s.rfSeen r [3] = (some (g, m), u))
    (hi : u.findNbr m.src = some i) : exec (.rfDataRx r) s = .next (u.rxRfData g m i (u.rfLinkOf g i)) := by
  show Host.Outcome.next _ = _
  rw [h]
  dsimp only
  rw [hi]

theorem State.rxRfData_of_empty {s : State} {g : RfGot} {m : RfMac} (i : Nat) (c : Option Nat) (h : m.sec = false) (hr : m.rest = []) :
    s.rxRfData g m i c = ((s.rfAckd g m c).rfNote i g).rfAnswer c i g m false false := by
  simp only [State.rxRfData, h, hr, Bool.false_eq_true, not_false_eq_true, if_true, ne_eq, not_true_eq_false, if_false]

/-- A DATA frame that is new, by what its queue answers. -/
def State.rfDeliver (g : RfGot) (m : RfMac) (i : Nat) (c : Option Nat) (body : List Byte) (q d : Nat) (t : State) : State :=
  let p := t.putPacket (.engine 1) (t.get RF_NBR.DLVQ) body
  let t1 := p.2.1.tellPool p.2.2
  if p.1 ≠ 1 then t1.rfAnswer c i g m true false
  else (((t1.rfAccept i q d m).rfNote i g).rfEvent 1 stFrameOk (c.getD 0xFF) body.length (rfQuality g false (t1.rfEventNo g))
    (t1.nbrEui i)).rfAnswer c i g m false false

theorem State.rxRfData_of_secured {s : State} {g : RfGot} {m : RfMac} (i : Nat) (c : Option Nat) (h : m.sec = true) :
    s.rxRfData g m i c = s.rfSecured g m i c (State.rfDeliver g m i c) := by
  simp only [State.rxRfData, h, not_true_eq_false, if_false]
  rfl

theorem State.rfSecured_of_forged {s : State} {m : RfMac} {i : Nat} (g : RfGot) (c : Option Nat) (f : List Byte → Nat → Nat → State → State)
    (h : s.rfOpenLink m i 6 = none) : s.rfSecured g m i c f = s.count RF_CNT.MIC_FAIL 1 := by
  simp only [State.rfSecured, h, State.rfMicFail]

theorem State.rfSecured_of_dup {s : State} {m : RfMac} {i : Nat} {b : List Byte} (g : RfGot) (c : Option Nat)
    (f : List Byte → Nat → Nat → State → State) (h : s.rfOpenLink m i 6 = some b) (hd : s.rfDup i m = .dup) :
    s.rfSecured g m i c f = ((s.rfAckd g m c).count RF_CNT.DUP_RX 1).rfAnswer c i g m false false := by
  simp only [State.rfSecured, h, hd]

theorem State.rfSecured_of_replay {s : State} {m : RfMac} {i : Nat} {b : List Byte} (g : RfGot) (c : Option Nat)
    (f : List Byte → Nat → Nat → State → State) (h : s.rfOpenLink m i 6 = some b) (hd : s.rfDup i m = .replay) :
    s.rfSecured g m i c f = s.count RF_CNT.REPLAY 1 := by
  simp only [State.rfSecured, h, hd]

theorem State.rfSecured_of_fresh {s : State} {m : RfMac} {i q d : Nat} {b : List Byte} (g : RfGot) (c : Option Nat)
    (f : List Byte → Nat → Nat → State → State) (h : s.rfOpenLink m i 6 = some b) (hd : s.rfDup i m = .fresh q d) :
    s.rfSecured g m i c f = f b q d (s.rfAckd g m c) := by
  simp only [State.rfSecured, h, hd]

/-- A link command that is new, on the link it came in. -/
theorem State.rxLinkCmd_of_fresh {r : RfSeen} {s u w : State} {g : RfGot} {m : RfMac} {i c q d cmd n : Nat} {b : List Byte}
    (f : RfGot → Nat → Nat → List Byte → RfMac → State → State) (h : s.rfSeen r [7] = (some (g, m), u)) (hi : u.findNbr m.src = some i)
    (hl : u.rfLinkOf g i = some c) (ho : u.rfOpenLink m i 6 = some b) (hd : u.rfDup i m = .fresh q d)
    (hw : w = ((u.rfAckd g m (some c)).rfAccept i q d m).rfNote i g) (hb : u8 b 0 = cmd) (hn : b.length = n + 1) :
    s.rxLinkCmd r cmd n f = f g i c (b.drop 1) m w := by
  simp only [State.rxLinkCmd, h, hi, hl, State.rfSecured_of_fresh g _ _ ho hd, hb, hn, ne_eq, not_true_eq_false, or_self, if_false, ← hw]

/-- An answer to the item on the air. -/
theorem State.rxRfAck_of_hit {r : RfSeen} {s u v w : State} {g : RfGot} {m : RfMac} {i c type : Nat} {b : List Byte} {x : RfItem}
    (f : RfGot → Nat → List Byte → State → State) (h : s.rfSeen r [type] = (some (g, m), u)) (hs : m.sec = true)
    (hc : u.rfCheck m 2 = (some (i, b), v)) (hw : w = (v.rfSetFc i m).rfNote i g) (hl : w.rfLinkOf g i = some c) (hx : w.itemOn c = some x)
    (hq : x.seq = m.seq) : s.rxRfAck r type f = (f g c b w).rfEndOf c := by
  simp only [State.rxRfAck, h, hs, if_true, hc, ← hw, hl, hx, Option.any_some, hq, decide_true, Bool.true_or, Bool.and_self]

/-- Settles O55, command by command. -/
theorem radioFramesAreCheckedAndActedOn : Obligations.RadioFramesAreCheckedAndActedOn := by
  unfold Obligations.RadioFramesAreCheckedAndActedOn
  refine ⟨?_, ?_, ?_, ?_, ?_, ?_, ?_, ?_, ?_, ?_⟩
  · intro r s i hi
    obtain ⟨types, ht⟩ := mem_rfFrames hi
    exact ⟨fun h => exec_rfFrame_of_none ht (State.rfSeen_of_idle r types h),
      fun x h ho hs => exec_rfFrame_of_none ht (State.rfSeen_of_sniffing r types h ho hs),
      fun x p t h ho hd => exec_rfFrame_of_none ht (State.rfSeen_of_failed types h ho hd)⟩
  · exact fun r s t x l coded m types h ho hd hp ht hm hl => State.rfSeen_of_frame h ho hd hp ht hm hl
  · exact fun r s u g m h => ⟨exec_rfBeaconRx_of_forged h, fun b i ho hi hb => exec_rfBeaconRx_of_known h ho hi hb⟩
  · intro r s u g m h
    obtain ⟨hforged, hopen⟩ := exec_floodRx h
    refine ⟨hforged, fun b ho hl h1 h16 => ?_⟩
    rw [hopen b ho, State.rxFlood_of_form hl h1 h16]
    exact ⟨fun hs => by rw [if_pos hs], fun hs => by rw [if_neg (Bool.eq_false_iff.mp hs)]⟩
  · intro g b s v w p hv hp h1 hw
    rw [State.floodNew_of_delivered hv hp h1 hw]
    refine ⟨fun h => if_neg ?_, fun hf ht => ⟨(w.free (w.get RF_FLOOD.JIT + 1)).1, (w.free (w.get RF_FLOOD.JIT + 1)).2,
      Nat.le_of_lt_succ (w.free_lt (Nat.succ_pos _)), Frame.free w _, if_pos ⟨hf, ht⟩⟩⟩
    rcases h with h | h
    · simp [h]
    · exact fun hx => Nat.not_lt.mpr h hx.2
  · intro r s u g m h
    refine ⟨exec_connReqRx_of_unknown h, fun i v b hi hc hb => ?_⟩
    obtain ⟨hnone, hsome⟩ := exec_connReqRx_of_known h hi hc hb
    refine ⟨fun hn => ⟨_, _, _, (Frame.free v 256).trans (Frame.freeBytes _ 17), hnone hn⟩, fun c hs => ?_⟩
    have hofs := (((v.free 256).2.unlinked c).free 65536).2.free_lt (n := 65534) (by decide)
    exact ⟨(v.free 256).1, (((v.free 256).2.unlinked c).free 65536).1, ((((v.free 256).2.unlinked c).free 65536).2.free 65534).1 + 2,
      (v.free 256).2, ((((v.free 256).2.unlinked c).free 65536).2.free 65534).2, _, _, Frame.free v 256,
      (Frame.free _ _).trans (Frame.free _ _), by omega, by omega, State.free_lt _ (by decide), rfl, rfl,
      hsome c _ _ _ _ hs rfl rfl rfl rfl⟩
  · exact fun r s u v g m i b c h hc hf hb => exec_connAckRx h hc hf hb
  · rintro r s u g m i c h hi rfl
    have hx := exec_rfDataRx h hi
    refine ⟨fun hs hr => ?_, fun hs ho => ?_, fun b v hs ho hv => ⟨fun hd => ?_, fun hd => ?_, fun q d p hd hp => ⟨fun h1 => ?_, fun h1 => ?_⟩⟩⟩
    · rw [hx, State.rxRfData_of_empty _ _ hs hr]
    · rw [hx, State.rxRfData_of_secured _ _ hs, State.rfSecured_of_forged _ _ _ ho]
    · rw [hx, State.rxRfData_of_secured _ _ hs, State.rfSecured_of_dup _ _ _ ho hd, hv]
    · rw [hx, State.rxRfData_of_secured _ _ hs, State.rfSecured_of_replay _ _ _ ho hd]
    · rw [hx, State.rxRfData_of_secured _ _ hs, State.rfSecured_of_fresh _ _ _ ho hd, ← hv, State.rfDeliver]
      simp only [← hp]
      rw [if_pos h1]
    · refine ⟨_, rfl, ?_⟩
      rw [hx, State.rxRfData_of_secured _ _ hs, State.rfSecured_of_fresh _ _ _ ho hd, ← hv, State.rfDeliver]
      simp only [← hp]
      rw [if_neg (not_not.mpr h1)]
  · intro r s u w g m i c b q d h hi hl ho hd hw
    exact ⟨fun hb hn => congrArg Host.Outcome.next (State.rxLinkCmd_of_fresh _ h hi hl ho hd hw hb hn),
      fun hb hn => congrArg Host.Outcome.next (State.rxLinkCmd_of_fresh _ h hi hl ho hd hw hb hn)⟩
  · intro r s u v w g m i c b x hs hw hl hx hq hc
    refine ⟨fun h ht => congrArg Host.Outcome.next ((State.rxRfAck_of_hit _ h hs hc hw hl hx hq).trans ?_), fun h hb =>
      congrArg Host.Outcome.next ((State.rxRfAck_of_hit _ h hs hc hw hl hx hq).trans ?_)⟩
    · have hy : ((w.itemOn c).any fun y => decide (y.type = 7 ∧ u8 y.body 0 = 2)) = false := by
        rw [hx, Option.any_some]
        exact decide_eq_false (fun hy => ht.elim (fun h => h hy.1) (fun h => h hy.2))
      simp only [hy, Bool.false_eq_true, if_false]
    · simp only [hb, if_true]

end Sys2Proof.Machine

/-! PROOFS. Descriptors that are taken and run (O36). -/

namespace Sys2Proof.Machine

/-! ### Taking a descriptor (R205, R209) -/

theorem State.mayTake_iff (s : State) : s.mayTake = true ↔ (s.rings = true ∧ s.hp.rung = true ∧ s.reach .host = true ∧ 0 < s.crCount ∧
    s.hp.outst.length < 1024 ∧ s.hp.outst.length + s.cplCount < s.cplSize) := by
  simp only [State.mayTake, Bool.and_eq_true, decide_eq_true_eq, and_assoc]

theorem State.admitDesc_of_used {s u : State} {d : List Byte} (h : s.outstanding (descTag d) ≠ none)
    (hu : u = s.put HP_CR_IDX.HEAD ((s.get HP_CR_IDX.HEAD + 1) % 65536)) :
    s.admitDesc d = (none, State.pushCpl { u with hp := { u.hp with taken := setInsert (descTag d) u.hp.taken } }
      (cplRec (descTag d) stBad (u8 d 0) (2 ^ 31) [])) := by
  subst hu
  exact if_pos (Option.isSome_iff_ne_none.mpr h)

/-- The state in which a descriptor's transaction is outstanding. -/
def State.admitted (s : State) (d : List Byte) : State :=
  { s.put HP_CR_IDX.HEAD ((s.get HP_CR_IDX.HEAD + 1) % 65536) with
    hp := { s.hp with taken := setInsert (descTag d) s.hp.taken, outst := s.hp.outst ++ [⟨descTag d, u8 d 0⟩] } }

theorem State.admitDesc_of_free {s : State} {d : List Byte} (h : s.outstanding (descTag d) = none) (hd : headerOk d = true) :
    s.admitDesc d = (some (s.admitted d), s.admitted d) := by
  have hn : ¬ (s.outstanding (descTag d)).isSome = true := by simp [h]
  simp only [State.admitDesc, if_neg hn, if_pos hd, State.admitted]
  rfl

theorem State.head_admitted (s : State) (d : List Byte) : (s.admitted d).get HP_CR_IDX.HEAD = (s.get HP_CR_IDX.HEAD + 1) % 65536 := by
  have h : (s.admitted d).reg HP_CR_IDX = (s.put HP_CR_IDX.HEAD ((s.get HP_CR_IDX.HEAD + 1) % 65536)).reg HP_CR_IDX :=
    State.reg_of_regs (by rw [State.admitted]) _
  rw [State.get_of_reg (f := HP_CR_IDX.HEAD) h, State.get_put_same _ _ _ (by decide) (by decide)]
  exact Nat.mod_mod ..

theorem RegsBut.admitted (s : State) (d : List Byte) : RegsBut [HP_CR_IDX] s (s.admitted d) :=
  (RegsBut.put s HP_CR_IDX.HEAD _ (by simp [HP_CR_IDX.HEAD])).setHp _

theorem Frame.admitted (s : State) (d : List Byte) : Frame [.regs, .hp] s (s.admitted d) :=
  Frame.setHp _ _ _ ((Frame.put s HP_CR_IDX.HEAD _).mono (by simp)) (by simp) _

theorem State.complete_of_outstanding {s u : State} {tag : Nat} {x : Trans} (status info : Nat) (result : List Byte) (h : s.outstanding tag = some x)
    (hu : u = { s with hp := { s.hp with outst := s.hp.outst.filter (fun y => y.tag ≠ tag) } }) :
    s.complete tag status info result = u.pushCpl (cplRec tag status x.type info result) := by
  simp only [State.complete, h, hu]

theorem State.complete_of_unknown {s : State} {tag : Nat} (status info : Nat) (result : List Byte) (h : s.outstanding tag = none) :
    s.complete tag status info result = s := by simp only [State.complete, h]

/-! ### SEND and BROADCAST (R206, R207) -/

theorem exec_send {s u : State} {d : List Byte} (h : Taken d s u) (h1 : u8 d 0 = 1 ∨ listedType (u8 d 0) = false) :
    exec .send s = .next (u.takeSend d) := next_taken h (by rcases h1 with h1 | h1 <;> simp [h1])

theorem State.takeSend_of_malformed {u : State} {d : List Byte} (h : u8 d 0 ≠ 1 ∨ u.sendForm d = false) :
    u.takeSend d = u.complete (descTag d) stBad 0 [] := if_pos (h.imp id (fun h => by simp [h]))

theorem State.takeSend_of_unjoined {u : State} {d : List Byte} (h1 : u8 d 0 = 1) (hf : u.sendForm d = true) (h : u.entState (u16 d 8 - 1) ≠ 2) :
    u.takeSend d = u.complete (descTag d) stNotPermitted 0 [] := (if_neg (by simp [h1, hf])).trans (if_pos h)

/-- A SEND of sound form to a JOINED entry on an own lane. -/
theorem State.takeSend_of_own {u : State} {d : List Byte} {n : Nat} (h1 : u8 d 0 = 1) (hf : u.sendForm d = true) (h : u.entState (u16 d 8 - 1) = 2)
    (hl : u.ownLane (u.entLane (u16 d 8 - 1)) = some n) :
    (u.flag (LN_TXCFG.TX_EN n) = false → u.takeSend d = u.complete (descTag d) stNotPermitted 0 []) ∧
    (u.flag (LN_TXCFG.TX_EN n) = true → u.drefBytes (drefAt d 20) = none → u.takeSend d = u.complete (descTag d) stBad 0 []) ∧
    ∀ body, u.flag (LN_TXCFG.TX_EN n) = true → u.drefBytes (drefAt d 20) = some body → u.takeSend d =
      if 255 < macLen (u.firstMac (u16 d 8 - 1) d body) then u.complete (descTag d) stBad 0 []
      else (u.drefTake (drefAt d 20)).runSend (descTag d) (descTag d) none d (u16 d 8 - 1) n body := by
  have hd : ¬ (u8 d 0 ≠ 1 ∨ ¬ u.sendForm d = true) := by simp [h1, hf]
  refine ⟨fun ht => ?_, fun ht hb => ?_, fun body ht hb => ?_⟩
  · rw [State.takeSend]
    simp only [if_neg hd, h, hl, ht, ne_eq, not_true_eq_false, if_false, Option.isNone_some, Bool.false_eq_true, false_and, Option.any_some, Bool.not_false,
      if_true]
  · rw [State.takeSend]
    simp only [if_neg hd, h, hl, ht, ne_eq, not_true_eq_false, if_false, Option.isNone_some, Bool.false_eq_true, false_and, Option.any_some, Bool.not_true, hb]
  · rw [State.takeSend]
    simp only [if_neg hd, h, hl, ht, ne_eq, not_true_eq_false, if_false, Option.isNone_some, Bool.false_eq_true, false_and, Option.any_some, Bool.not_true, hb]

/-- A lead hands a SEND for an entry of the other unit's lanes over. -/
theorem State.takeSend_of_far {u : State} {d body : List Byte} (h1 : u8 d 0 = 1) (hf : u.sendForm d = true) (h : u.entState (u16 d 8 - 1) = 2)
    (hl : u.ownLane (u.entLane (u16 d 8 - 1)) = none) (hlead : u.leads = true) (hup : u.linkUp = true) (ha : u.acting (u16 d 8 - 1) = false)
    (hb : u.drefBytes (drefAt d 20) = some body) (hm : macLen (u.firstMac (u16 d 8 - 1) d body) ≤ 255) :
    u.takeSend d = (u.drefTake (drefAt d 20)).handOver (descTag d) d body := by
  have hd : ¬ (u8 d 0 ≠ 1 ∨ ¬ u.sendForm d = true) := by simp [h1, hf]
  rw [State.takeSend]
  simp only [if_neg hd, h, hl, ne_eq, not_true_eq_false, if_false, Option.isNone_none, hlead, hup, ha, Bool.false_eq_true, not_false_eq_true, and_self,
    and_false, Option.any_none, hb, if_neg (Nat.not_lt.mpr hm)]

theorem exec_broadcast {s u : State} {d : List Byte} (h : Taken d s u) (h2 : u8 d 0 = 2) : exec .broadcast s = .next (u.takeBcast d) :=
  next_taken h (decide_eq_true h2)

theorem State.takeBcast_of_malformed {u : State} {d : List Byte} (h : bcastForm d (u.leads || u.upper) = false) :
    u.takeBcast d = u.complete (descTag d) stBad 0 [] := if_pos (.inl (by simp [h]))

/-- An unpaired unit has no lanes of another. -/
theorem State.bcastLanes_of_unpaired {u : State} (d : List Byte) (h : u.paired = false) : (u.bcastLanes d).2 = [] := by
  simp [State.bcastLanes, State.upper, State.leads, h]

theorem State.takeBcast_of_own {u v : State} {d body : List Byte} (hp : u.paired = false) (hf : bcastForm d false = true)
    (hl : u.bcastLanes d ≠ ([], [])) (hb : u.drefBytes (drefAt d 20) = some body)
    (hm : macLen (bcastMac u.link.bcast.toNat (bit (u8 d 10) 1) body) ≤ 255) (hv : v = u.drefTake (drefAt d 20)) :
    u.takeBcast d = State.runBcast { v with link := { v.link with bcast := v.link.bcast + 1 } } (descTag d) (descTag d) none d
      u.link.bcast.toNat (u.bcastLanes d).1 [] (bcastMac u.link.bcast.toNat (bit (u8 d 10) 1) body) := by
  have hw : (u.leads || u.upper) = false := by simp [State.leads, State.upper, hp]
  have h2 := State.bcastLanes_of_unpaired d hp
  have hn : ¬ (u.bcastLanes d).1 = [] := fun h1 => hl (Prod.ext h1 h2)
  rw [State.takeBcast]
  simp only [hw, hf, h2, hn, not_true_eq_false, false_and, or_self, if_false, hb, if_neg (Nat.not_lt.mpr hm), if_true, ← hv]

/-! ### READ_MT and ABORT (R208, R209) -/

theorem exec_readMt {s u : State} {d : List Byte} (h : Taken d s u) (h3 : u8 d 0 = 3) : exec .readMt s = .next (u.takeReadMt d) :=
  next_taken h (decide_eq_true h3)

theorem State.takeReadMt_of_form {u : State} {d : List Byte} (hz : zeros d 10 63 = true) (hq : u16 d 8 < 1024) (he : (u.queue (u16 d 8)).en = true)
    (hs : (u.queue (u16 d 8)).stream = false) (hf : (u.queue (u16 d 8)).fmt = 1) :
    u.takeReadMt d = if u.fab.mtProg = false then u.complete (descTag d) stNotPermitted 0 []
      else ((u.putPacket (.engine 5) (u16 d 8) u.meterBlock).2.1.tellPool (u.putPacket (.engine 5) (u16 d 8) u.meterBlock).2.2).complete (descTag d)
        (packetStatus (u.putPacket (.engine 5) (u16 d 8) u.meterBlock).1) 47 [] := by
  rw [State.takeReadMt]
  simp only [hz, Nat.not_le.mpr hq, he, hs, hf, not_true_eq_false, Bool.false_eq_true, not_false_eq_true, and_self, or_self, if_false, Bool.not_eq_true]

theorem exec_abort {s u : State} {d : List Byte} (h : Taken d s u) (h8 : u8 d 0 = 8) : exec .abort s = .next (u.takeAbort d) :=
  next_taken h (decide_eq_true h8)

theorem State.takeAbort_of_unknown {u : State} {d : List Byte} (hz : zeros d 10 63 = true) (hq : u16 d 8 < 1024) (h : u.outstanding (u16 d 8) = none) :
    u.takeAbort d = u.complete (descTag d) stAbortLate (u16 d 8 + (if u16 d 8 ∈ u.hp.taken then 0 else 2 ^ 30)) [] := by
  simp only [State.takeAbort, hz, Nat.not_le.mpr hq, not_true_eq_false, or_self, if_false, h]

theorem State.takeAbort_of_outstanding {u : State} {d : List Byte} {x : Trans} (hz : zeros d 10 63 = true) (hq : u16 d 8 < 1024)
    (h : u.outstanding (u16 d 8) = some x) :
    u.takeAbort d = if u16 d 8 = descTag d then u.complete (descTag d) stAbortLate (u16 d 8) []
      else if x.type = 7 then u.complete (descTag d) stAbortLate (u16 d 8 + 2 ^ 31) []
      else (u.abortTag x).complete (descTag d) stOk (u16 d 8) [] := by
  simp only [State.takeAbort, hz, Nat.not_le.mpr hq, not_true_eq_false, or_self, if_false, h, show (2 : Nat) * 2 ^ 30 = 2 ^ 31 from rfl]

theorem State.abortTag_of_line {s : State} {x : Trans} {r : Nat × State} (h : x.type = 1 ∨ x.type = 2) (hr : r = s.abortInfo x.tag) :
    s.abortTag x = (r.2.abortSend x.tag).complete x.tag stAborted r.1 [] := by
  subst hr
  rcases h with h | h <;> simp only [State.abortTag, h]

theorem State.abortInfo_of_send {s : State} {tag : Nat} {x : SendSt}
    (h : s.link.sends.find? (fun y => decide (y.tag = tag) && y.handoff.isNone) = some x) : s.abortInfo tag = (s.sendInfo x, s) := by
  simp only [State.abortInfo, h]

/-- Settles O36, descriptor by descriptor. -/
theorem descriptorsAreTakenAndRun : Obligations.DescriptorsAreTakenAndRun := by
  unfold Obligations.DescriptorsAreTakenAndRun
  refine ⟨?_, ?_, ?_, ?_, ?_, ?_, ?_, ?_, ?_, ?_, ?_, ?_, ?_, ?_⟩
  · exact State.mayTake_iff
  · exact fun s d h u hu => State.admitDesc_of_used h hu
  · exact fun s d h hd => ⟨s.admitted d, State.admitDesc_of_free h hd, by rw [State.admitted], s.head_admitted d, RegsBut.admitted s d, Frame.admitted s d⟩
  · intro s u d ht h1 hf
    have hx := exec_send ht (.inl h1)
    refine ⟨fun h => hx.trans (congrArg _ (State.takeSend_of_unjoined h1 hf h)), fun n h hl => ?_⟩
    obtain ⟨hoff, hnone, hsome⟩ := State.takeSend_of_own h1 hf h hl
    exact ⟨fun he => hx.trans (congrArg _ (hoff he)), fun he hb => hx.trans (congrArg _ (hnone he hb)),
      fun body he hb hm => by rw [hx, hsome body he hb, if_pos hm], fun body he hb hm => by rw [hx, hsome body he hb, if_neg (Nat.not_lt.mpr hm)]⟩
  · intro s u d ht h
    rcases h with ⟨h1, hf⟩ | h
    · rw [exec_send ht (.inl h1), State.takeSend_of_malformed (.inr hf)]
    · rw [exec_send ht (.inr h), State.takeSend_of_malformed (.inl (fun h1 => absurd (h1 ▸ h) (by decide)))]
  · intro s u d body ht h1 hf h hl hlead hup ha hb hm
    rw [exec_send ht (.inl h1), State.takeSend_of_far h1 hf h hl hlead hup ha hb hm]
  · intro s u v d body ht h2 hp hf hl hb hm hv
    rw [exec_broadcast ht h2, State.takeBcast_of_own hp hf hl hb hm hv]
  · intro s u d ht h2 hf
    rw [exec_broadcast ht h2, State.takeBcast_of_malformed hf]
  · intro s u d r ht h3 hz hq he hs hf
    refine ⟨fun hp => ?_, fun hp hr => ?_⟩ <;> rw [exec_readMt ht h3, State.takeReadMt_of_form hz hq he hs hf]
    · rw [if_pos hp]
    · rw [if_neg (by simp [hp]), hr]
  · intro s u d x ht h8 hz hq
    have hx := exec_abort ht h8
    refine ⟨fun h hn h7 => ?_, fun h h7 hn => ?_, fun h hn => ?_, fun h => ?_⟩ <;> rw [hx]
    · rw [State.takeAbort_of_outstanding hz hq h, if_neg hn, if_neg h7]
    · rw [State.takeAbort_of_outstanding hz hq h, if_neg hn, if_pos h7]
    · rw [State.takeAbort_of_outstanding hz hq h, if_pos hn]
    · rw [State.takeAbort_of_unknown hz hq h]
  · exact fun s x r h hr => State.abortTag_of_line h hr
  · exact fun s tag x h => State.abortInfo_of_send h
  · exact fun s tag st info res x u h hu => State.complete_of_outstanding st info res h hu
  · exact fun s tag st info res h => State.complete_of_unknown st info res h

end Sys2Proof.Machine
